-- ==== Sys2Proof/Word.lean ====
section
/-! DEFINITION. The word types and their plainest arithmetic: what the spec treats as bits. -/

namespace Sys2Proof

/-- One byte. -/
abbrev Byte := BitVec 8

/-- One 32-bit register of set-up space or of an instance window (21 R568). -/
abbrev Word := BitVec 32

/-- A 64-bit value: a fabric time, an address, a COOKIE. -/
abbrev Word64 := BitVec 64

/-- A 64-byte work descriptor or admin command, byte `b` in bits [8b+7 : 8b] (02 R57, 03 R81). -/
abbrev Entry := BitVec 512

/-- A 32-byte completion, byte `b` in bits [8b+7 : 8b] (02 R65). -/
abbrev Cqe := BitVec 256

end Sys2Proof
end

