-- ==== Sys2Proof/Syntax.lean ====
section
/-! DEFINITION. The commands the block takes: one constructor of `Instr` for each row of the table of operations and
events, with what the event carries as its operands. -/

namespace Sys2Proof

/-- An 80-byte cell. `hdr` is the 16-byte header with the spec's own bit numbers (header byte `b` is bits
[127-8b : 120-8b]); `pay` is the 64-byte payload, byte `b` in bits [8b+7 : 8b] (04 R108). -/
structure Cell where
  hdr : BitVec 128
  pay : BitVec 512
  deriving DecidableEq, Repr

/-- A queue number (02 R34). -/
abbrev QueueId := Fin 65536
/-- An instance number (12 R384). -/
abbrev InstId := Fin 128
/-- A lane, which is also the number of an output port (01 R13, 04 R124). -/
abbrev LaneId := Fin 1024
/-- A tile (01 R13). -/
abbrev TileId := Fin 64
/-- A host port. -/
abbrev PortId := Fin 8
/-- A traffic class (04 R111). -/
abbrev ClassId := Fin 8
/-- A control word of the link: KIND in [19:16], DATA in [15:0] (14 R429). -/
abbrev LinkWord := BitVec 20

/-- What the check reads of completion rings made with a command return: for a ring, how many consecutive entries
from the chip's position on hold OWN = 1 (02 R46, R55). The key is a queue number, or 65536 for the admin completion
ring. A ring that is not listed has been read before or is not read. -/
abbrev View := List (Nat × Nat)

/-- What a read of host memory returned: its bytes, little-endian, or an error (02 R601, 03 R84, 06 R602). -/
inductive HostRead where
  | data (bytes : Nat)
  | error
  deriving DecidableEq, Repr

/-- What an uncorrectable read of GDDR7 was for (16 R468). -/
inductive MemWork where
  /-- A read that no work waits for. -/
  | none
  /-- The source data of a message, by its place in acceptance. -/
  | source (id : Nat)
  /-- The stored data of an entry of the unexpected store. -/
  | stored (e : Nat)
  /-- The staging of operation `n` of the collective group member `g`. -/
  | staging (g n : Word)
  /-- The word of a request received on connection `h` with SEQ `q`. -/
  | request (h : Word) (q : BitVec 16)
  /-- A descriptor that has not started: a posted receive, or a held launch, by its slot. -/
  | slot (z : Nat)
  /-- The context of connection `h`. -/
  | context (h : Word)
  deriving DecidableEq, Repr

/-- What lay on a GDDR7 device when it was declared failed, where something of it is lost or rebuilt (16 R475). The areas
are interleaved, and the spec does not give the placement. -/
structure MemLoss where
  /-- Connections whose context, or whose retention backup copy, was there. -/
  conns : List Word := []
  /-- Connections whose record of the key store was there. -/
  keys : List Word := []
  /-- Segment records and their held cells, as connection and SEQ. -/
  segs : List (Word × BitVec 16) := []
  /-- Entries of the unexpected store with data blocks there. -/
  entries : List Nat := []
  /-- Operations with staging there, as group member and number. -/
  ops : List (Word × Word) := []
  /-- Lines of the windows: for a port, 64-byte lines by their number. -/
  lines : List (PortId × Nat) := []
  deriving DecidableEq, Repr

/-- An instruction of the test access port (22 R587): BYPASS, IDCODE, or another one by its code. -/
inductive TapInstr where
  | bypass
  | idcode
  | other (code : Nat)
  deriving DecidableEq, Repr

/-- An image record of the chip area (06 R232): kind 0 a route epoch, 1 a schedule epoch, 2 a table; its number, what is
held of it, whether the sideband port loaded it (20 R564), and what the read of IMAGE_ADDR returned. -/
structure JImage where
  kind : Nat
  number : Nat
  len : Nat
  crc : Nat
  plan : Nat := 0
  sideband : Bool := false
  img : HostRead := .error
  deriving DecidableEq, Repr

/-- The state of an epoch of kind 0 or 1, and the tide of a PENDING one (06 R233 step 2). -/
structure JEpoch where
  kind : Nat
  number : Nat
  state : Nat
  switchAt : Nat := 0
  deriving DecidableEq, Repr

/-- An instance record (06 R232): CONFIGURE_INSTANCE's body, the generation, the page-log setting, and how many records of the
log the EN1024 may write. -/
structure JInst where
  inst : Nat
  configured : Bool := false
  body : Nat := 0
  gen : Nat := 0
  log : Option (Nat × Nat) := none
  logRoom : Nat := 0
  deriving DecidableEq, Repr

/-- A group record (06 R232): the CREATE_GROUP command, its RESULT, and the tree record read again. -/
structure JGroup where
  handle : Nat
  entry : Entry
  tree : HostRead
  deriving DecidableEq, Repr

/-- A connection record of 64 bytes with its place (06 R225, R231): `spill`, or on die and then in GDDR7 by number; its handle
and domain, which the record does not hold, and the installed key as unwrapped. -/
structure JConn where
  handle : Nat
  pd : Nat
  spill : Bool := false
  place : Nat := 0
  bytes : Nat
  key : Option (BitVec 256) := none
  deriving DecidableEq, Repr

/-- An admin record (06 R232), with what the reads of the command return; `done`: it had finished, with its status and RESULT,
and its completion waited (02 R56); `index`: its ring index, which the record does not hold. -/
structure JAdmin where
  number : Nat
  index : Nat := 0
  entry : Entry
  read : HostRead := .error
  ring : List Entry := []
  done : Option (Nat × Nat) := none
  deriving DecidableEq, Repr

/-- What a replay reads: every record of every area, the images, the region tables (06 R223-R233). -/
structure Journal where
  /-- Bytes 0-23 of the header of every area (06 R228). -/
  headers : List Nat := []
  /-- A host read returned an error. -/
  readErr : Bool := false
  /-- N of the chip area. -/
  n : Nat := 1
  insts : List JInst := []
  images : List JImage := []
  epochs : List JEpoch := []
  /-- Protection domains, as (number, instance). -/
  pds : List (Nat × Nat) := []
  groups : List JGroup := []
  /-- Entries of region tables, as (instance, index, the 32 bytes): registered ones, and deregistered ones with their VARIANT
  (08 R279). -/
  regions : List (Nat × Nat × Nat) := []
  /-- Queue records, as (number, the 64 bytes). -/
  queues : List (Nat × Nat) := []
  conns : List JConn := []
  /-- Descriptor slots, as (instance, number, the 128 bytes). -/
  slots : List (Nat × Nat × Nat) := []
  admin : List JAdmin := []
  deriving DecidableEq, Repr

/-- The commands (spec/opcode_table.json). -/
inductive Instr where
  /-- `POLL` (R47): A queue's poll interval elapses and the EN1024 reads the line holding the entry at its position. Queue `q`; `n` entries from the position on hold OWN = 1. 65536 is the admin completion ring. -/
  | poll (q : Nat) (n : Nat)
  /-- `AON_POLL` (R50): While the chip PLLs are stopped, the always-on domain polls a queue; finding OWN = 1 is a wake event. As for POLL. -/
  | aonPoll (q : Nat) (n : Nat)
  /-- `SNOOP` (R47): A host store to a watched line arrives as a snoop, and the EN1024 re-reads the line. The re-read finds `n` entries with OWN = 1. -/
  | snoop (q : Nat) (n : Nat)
  /-- `RING_READ_ERROR` (R601): A ring read returns an error or times out; it counts as not made, and a host-port fault is raised. `timeout`: no completion within 50 ms; else an error or poison. -/
  | ringReadError (q : Nat) (timeout : Bool)
  /-- `RING_REREAD_TIMER` (R601): 64 µs after a failed read on a COHERENT queue, or after a failed completion check read, the entry is read again. The read finds `n` entries with OWN = 1. -/
  | ringRereadTimer (q : Nat) (n : Nat)
  /-- `CQ_ENTRY_RETURNED` (R55): A completion that waited in the device finds OWN = 1 at its target entry and is written. `n` entries have been returned. -/
  | cqEntryReturned (q : Nat) (n : Nat)
  /-- `SEND` (R244): A SEND descriptor is taken, checked, policed and accepted as an eager message or a rendezvous request. `e` is the entry at the position of queue `q`; `v` what the check reads of completion rings found. -/
  | send (q : QueueId) (e : Entry) (v : View)
  /-- `POST_RECV` (R246): A POST_RECV is taken, its buffer is checked, and the unexpected store is searched before the receive is filed. As for SEND. -/
  | postRecv (q : QueueId) (e : Entry) (v : View)
  /-- `WRITE` (R283): A WRITE descriptor is taken, its local range is checked, and the message is sent. As for SEND. -/
  | writeMsg (q : QueueId) (e : Entry) (v : View)
  /-- `WRITE_IMM` (R283): A WRITE_IMM descriptor is taken and sent with immediate data for a target notice. As for SEND. -/
  | writeImm (q : QueueId) (e : Entry) (v : View)
  /-- `READ` (R284): A READ descriptor is taken and sends a READ_REQ whose response is placed locally. As for SEND. -/
  | readMsg (q : QueueId) (e : Entry) (v : View)
  /-- `ATOMIC` (R310): An ATOMIC descriptor is taken and sends an ATOMIC_REQ to the remote unit. As for SEND. -/
  | atomic (q : QueueId) (e : Entry) (v : View)
  /-- `LOCK_ACQUIRE` (R321): A LOCK_ACQUIRE descriptor is taken and sends a LOCK_REQ with LOP ACQUIRE. As for SEND. -/
  | lockAcquire (q : QueueId) (e : Entry) (v : View)
  /-- `LOCK_RELEASE` (R321): A LOCK_RELEASE descriptor is taken and sends a LOCK_REQ with LOP RELEASE. As for SEND. -/
  | lockRelease (q : QueueId) (e : Entry) (v : View)
  /-- `COLLECTIVE` (R337): A COLLECTIVE descriptor is taken, checked and entered into its group's operation. As for SEND. -/
  | collective (q : QueueId) (e : Entry) (v : View)
  /-- `CANCEL_RECV` (R274): A CANCEL_RECV removes a filed, unmatched receive with ABORTED and completes with SUCCESS. As for SEND. -/
  | cancelRecv (q : QueueId) (e : Entry) (v : View)
  /-- `NOP` (R58): A NOP descriptor is reserved, taken and completed. As for SEND. -/
  | nop (q : QueueId) (e : Entry) (v : View)
  /-- `LAUNCH_POWER_RAISE` (R193): 50 µs before a launch's TIME, the tiles and link it needs are raised to ACTIVE and FULL. `k` is the number of the held launch's descriptor slot. -/
  | launchPowerRaise (k : Nat)
  /-- `LAUNCH_START` (R191): The chip's fabric time reaches a held launch's TIME and the launch starts. `k` is the slot of the launch. -/
  | launchStart (k : Nat) (v : View)
  /-- `CREATE_QUEUE` (R91): The admin command creates a work or completion queue with fixed attributes. 03 R91. -/
  | createQueue (e : Entry)
  /-- `DESTROY_QUEUE` (R70): The admin command destroys a queue, aborting untaken and unstarted descriptors. 03 R92: `ring` is what the last read of the ring returned, from the position on. -/
  | destroyQueue (e : Entry) (ring : List Entry)
  /-- `CREATE_PD` (R93): The admin command creates a protection domain from the chip pool. 03 R93. -/
  | createPd (e : Entry)
  /-- `DESTROY_PD` (R93): The admin command destroys an unused protection domain. 03 R93. -/
  | destroyPd (e : Entry)
  /-- `REGISTER_REGION` (R94): The admin command registers a region and returns its key. 03 R94. -/
  | registerRegion (e : Entry)
  /-- `DEREGISTER_REGION` (R95): The admin command clears a region entry and waits for in-flight uses of the key to end. 03 R95. -/
  | deregisterRegion (e : Entry)
  /-- `CREATE_CONNECTION` (R96): The admin command creates a connection context and returns its handle. 03 R96. -/
  | createConnection (e : Entry)
  /-- `DESTROY_CONNECTION` (R97): The admin command frees a connection context with no outstanding work or held lock. 03 R97. -/
  | destroyConnection (e : Entry)
  /-- `INSTALL_KEY` (R98): The admin command installs the next AES-256 key epoch on an encrypted connection. 03 R98. -/
  | installKey (e : Entry)
  /-- `CREATE_GROUP` (R99): The admin command reads a tree record and creates a collective group member. 03 R99: `tree` is what the read of the tree record returned. -/
  | createGroup (e : Entry) (tree : HostRead)
  /-- `DESTROY_GROUP` (R99): The admin command destroys a group with no outstanding COLLECTIVE. 03 R99. -/
  | destroyGroup (e : Entry)
  /-- `LOAD_ROUTE` (R100): The admin command loads a route image into an EMPTY or IDLE route epoch. 03 R100: `img` is what the read of the image returned. -/
  | loadRoute (e : Entry) (img : HostRead)
  /-- `LOAD_SCHEDULE` (R100): The admin command loads a schedule image into an EMPTY or IDLE schedule epoch. 03 R100: `img` is what the read of the image returned. -/
  | loadSchedule (e : Entry) (img : HostRead)
  /-- `SWITCH_EPOCH` (R101): The admin command makes an IDLE epoch PENDING for a switch at a named tide. 03 R101. -/
  | switchEpoch (e : Entry)
  /-- `INVALIDATE_TRANSLATION` (R381): The admin command removes TLB entries over a range and waits for in-flight uses of old translations. 03 R103. -/
  | invalidateTranslation (e : Entry)
  /-- `CONFIGURE_INSTANCE` (R102): The admin command sets an instance's translation root, region table and spill area. 03 R102. -/
  | configureInstance (e : Entry)
  /-- `SET_INSTANCES` (R104): The admin command sets the instance count N and divides the shares. 03 R104. -/
  | setInstances (e : Entry)
  /-- `RESET_INSTANCE` (R392): The admin command advances an instance's generation and tears down its work and objects. 03 R105. -/
  | resetInstance (e : Entry)
  /-- `ARM_PAGE_LOG` (R106): The admin command arms, replaces or disarms an instance's written-page log. 03 R106. -/
  | armPageLog (e : Entry)
  /-- `LOAD_TABLE` (R107): The admin command loads one of the loadable tables. 03 R107: `img` is what the read of the image returned. -/
  | loadTable (e : Entry) (img : HostRead)
  /-- `ADMIN_COMPLETE` (R87): An admin command in progress finishes its work and writes its completion. The command in admin record `r`; `v` is what the check of the completion ring found. -/
  | adminComplete (r : Nat) (v : View)
  /-- `AQ_ENABLE` (R79): Setting CTL_AQ_CTRL.ENABLE starts watching the admin queue if the configuration is valid. `w` is the word written, taken with ENABLE = 1. -/
  | aqEnable (w : Word)
  /-- `AQ_DISABLE` (R80): Clearing CTL_AQ_CTRL.ENABLE stops taking admin entries and resets the ring positions. `w` is the word written, taken with ENABLE = 0. -/
  | aqDisable (w : Word)
  /-- `ENDPOINT_WRITE` (R122): A write of CTL_ENDPOINT sets the chip's endpoint address once and locks it. `w` is the word written. -/
  | endpointWrite (w : Word)
  /-- `ROUTE` (R127): A chip that holds a cell of classes 0–6 delivers it, discards it, or picks an output port by weight. The cell is the `k`-th of the held cells, oldest first. -/
  | route (k : Nat)
  /-- `CODEWORD_SEND` (R421): A lane transmitter starts its next codeword, filling cell positions and the control field. `stuffed` is how many stuff symbols the line code inserted since the last codeword (R425). -/
  | codewordSend (l : LaneId) (stuffed : Nat)
  /-- `TIDE` (R606): The chip's fabric time reaches a tide, and every effect due at that tide takes place once. The tide is the last one at or before the chip's fabric time. -/
  | tide
  /-- `DRAIN` (R144): A DRAIN(e, h) marker arrives; the chip records it, sends its next markers and may retire the epoch. `c` is the marker, taken from the cells delivered on the link of lane `l`. -/
  | drain (l : LaneId) (c : Cell)
  /-- `FORCED_RETIREMENT` (R144): At T + 50 µs a still RETIRING route epoch discards its cells, sends remaining markers and retires with FORCED. -/
  | forcedRetirement
  /-- `SCHEDULE_EPOCH_RETIRE` (R176): At T + 10 µs a RETIRING schedule epoch becomes IDLE. -/
  | scheduleEpochRetire
  /-- `TS_EXCHANGE` (R156): Every 10 µs the child sends TS_REQ on its parent link to start a four-timestamp exchange. -/
  | tsExchange
  /-- `TS_REQ` (R431): A parent receives TS_REQ and answers with TS_RESP and four TS_DATA words. The word arrives on lane `l` at the chip's fabric time. -/
  | tsReq (l : LaneId) (num : BitVec 8)
  /-- `TS_RESP` (R431): The child receives TS_RESP for its exchange. -/
  | tsResp (l : LaneId) (num : BitVec 8)
  /-- `TS_DATA` (R431): The child receives the last TS_DATA, computes delay and offset, and updates its time state. The four words' timestamps, bits [31:0] of each. -/
  | tsData (l : LaneId) (t2 : Word) (t3 : Word)
  /-- `EXCHANGE_MISSED` (R161): An exchange is lost or unanswered; three consecutive misses put a LOCKED chip in HOLDOVER. -/
  | exchangeMissed
  /-- `HOLDOVER_LIMIT` (R161): After 1 ms in HOLDOVER without four good exchanges the chip becomes OUTLIER. -/
  | holdoverLimit
  /-- `HOLDOVER_LINK_RAISE` (R159): A parent link held in HALF or NEW is raised to FULL every 500 µs for four exchanges. -/
  | holdoverLinkRaise
  /-- `PPS_EDGE` (R163): A TIME_IN_PPS edge at the root aligns, steps or checks the root's time. `valid`: TIME_IN_10M and the PPS edge meet the check of R590. -/
  | ppsEdge (valid : Bool)
  /-- `SET_ARM` (R163): Setting TIM_CTRL.SET_ARM at the root loads TIM_SET at the next PPS edge. The word written to `TIM_CTRL`, taken with SET_ARM = 1. -/
  | setArm (w : Word)
  /-- `TIME_IN_LOST` (R590): TIME_IN_10M is absent for 10 µs and TIME_IN_OK becomes 0. -/
  | timeInLost
  /-- `STANDBY_TAKEOVER` (R164): After 200 µs without a good exchange, a STANDBY chip with TIME_IN_OK becomes acting root. -/
  | standbyTakeover
  /-- `TIM_CTRL_WRITE` (R161): A write to TIM_CTRL role or parent port returns the time state to ACQUIRING or UNSET. `w` is the word written. -/
  | timCtrlWrite (w : Word)
  /-- `TIM_NOW_READ` (R152): A read of TIM_NOW_LO returns time bits [31:0] and latches bits [63:32]. `who` is the requester: host port 0-7, or 8 for the sideband port. -/
  | timNowRead (who : Fin 9)
  /-- `TIME_OUT_PULSE` (R153): At each whole second of fabric time the chip drives a 100 ns pulse on TIME_OUT. -/
  | timeOutPulse
  /-- `XSRC_READ` (R180): TIM_XSRC_CMD.GO with WRITE = 0 reads a transit source record into DATA0–4. `w` is the word written to `TIM_XSRC_CMD`. -/
  | xsrcRead (w : Word)
  /-- `XSRC_WRITE` (R195): TIM_XSRC_CMD.GO with WRITE = 1 writes a transit source record, or refuses it with ERR. `w` is the word written to `TIM_XSRC_CMD`. -/
  | xsrcWrite (w : Word)
  /-- `WINDOW_PAYLOAD_READ` (R183): No later than 2 µs before an owned slot the source issues the payload reads for its window. Source record `n` of the ACTIVE schedule epoch; the absolute number of the owned slot. -/
  | windowPayloadRead (n : Fin 4096) (slot : Nat)
  /-- `WINDOW_SOURCE` (R182): In an owned slot the source sends a MARK and up to 60 cells of the transit's queue. As for WINDOW_PAYLOAD_READ; `data`: what the reads of the source of each run of cells returned, in order. The window ends where they end. -/
  | windowSource (n : Fin 4096) (slot : Nat) (data : List HostRead)
  /-- `MARK` (R172): A MARK arrives on an input, selects the window's table entry and is forwarded. `data` is the word's DATA. -/
  | mark (l : LaneId) (data : BitVec 16)
  /-- `TRANSIT_CELL` (R172): A class-7 cell arrives and is forwarded 85 ns later, delivered or discarded. -/
  | transitCell (l : LaneId) (c : Cell)
  /-- `TRANSIT_DOWN` (R185): A source receives TRANSIT_DOWN naming one of its labels and switches to the backup. `c` is the delivered MGMT cell. -/
  | transitDown (c : Cell)
  /-- `LANE_HOLD` (R194): A link in the schedule is held FULL from 1,600 ns before a labelled slot to 1,600 ns after it. The hold of the link of lane `l` begins or ends. -/
  | laneHold (l : LaneId) (hold : Bool)
  /-- `SCHEDULE_WAKE` (R506): 1,600 ns ahead of a hold, the tile is raised from DOZE and the lane from HALF. -/
  | scheduleWake (l : LaneId)
  /-- `OPEN` (R202): An end receives OPEN, records PEER_GEN and replies with OPEN_ACK. `c` is the NOTICE cell. -/
  | openConn (c : Cell) (v : View)
  /-- `OPEN_ACK` (R208): An opener receives OPEN_ACK and enters OPEN from the watermark it carries. `c` is the NOTICE cell; `v` what the check reads of completion rings found. -/
  | openAck (c : Cell) (v : View)
  /-- `DATA_CELL` (R210): A target checks, classifies and places or holds an arriving data cell of a connection. The cell is one delivered here. -/
  | dataCell (c : Cell)
  /-- `WM_ADVANCE` (R213): The target advances WM over complete messages once their completions have room, in one write group. For connection `h`; `v` is what the check reads of completion rings found. -/
  | wmAdvance (h : Word) (v : View)
  /-- `ACK` (R216): A sender receives an ACK, applies WM and SEG_DONE, and completes covered descriptors. `c` is the ACK cell. -/
  | ack (c : Cell) (v : View)
  /-- `PROBE` (R209): A target receives PROBE and answers with STATUS entries. `c` is the NOTICE cell. -/
  | probe (c : Cell)
  /-- `STATUS` (R217): A sender receives STATUS and resends the missing cells or marks segments complete. `c` is the ACK cell of kind STATUS. -/
  | status (c : Cell) (v : View)
  /-- `RETRANSMISSION_TIMER` (R216): A connection's timer expires and the sender resends OPEN or sends a PROBE. The timer of connection `h`. -/
  | retransmissionTimer (h : Word) (v : View)
  /-- `REMOTE_GENERATION` (R203): A sender receives REMOTE_GENERATION, completes its work with that status and breaks the connection. `c` is the NOTICE cell. -/
  | remoteGeneration (c : Cell) (v : View)
  /-- `CONTEXT_SWAP_COMPLETE` (R199): A context miss's swap into an on-die entry completes and the waiting item proceeds. The swap that brings in the context of connection `h`. -/
  | contextSwapComplete (h : Word)
  /-- `WRITE_STALL` (R525): A host write stays unacknowledged for 1 ms and the port's queues are suspended. `acked`: the stalled write has been acknowledged. -/
  | writeStall (p : PortId) (acked : Bool)
  /-- `JOURNAL_REPLAY` (R233): Setting CTL_JRNL_CTRL.REPLAY rebuilds device state from the journals, or fails over. `w` is the word written to `CTL_JRNL_CTRL`, taken with REPLAY = 1; `r` what the areas and the images read as; `v` what the check reads of completion rings found. -/
  | journalReplay (w : Word) (r : Journal) (v : View)
  /-- `UNEXPECTED_COPY` (R262): Once WM covers a stored eager message, it is copied to the bound receive and the receive completes. Entry `e` of the unexpected store, by its place in storing order. -/
  | unexpectedCopy (e : Nat) (v : View)
  /-- `PULL_START` (R266): A matched rendezvous request starts a pull READ within PULL_LIMIT. Entry `e` of the unexpected store. -/
  | pullStart (e : Nat)
  /-- `READ_REQ` (R289): A responder serves a checked READ_REQ, or a pull, by sending its READ_RESP. For connection `h`. -/
  | readReq (h : Word) (v : View)
  /-- `SOURCE_READ_FAIL` (R602): A data read at a message's source fails and the sender stops and sends SOURCE_FAULT. `id` is the message, by its place in acceptance; `timeout`: the read had no completion, else its data was poisoned. -/
  | sourceReadFail (id : Nat) (timeout : Bool) (v : View)
  /-- `SOURCE_FAULT` (R602): The receiving end receives SOURCE_FAULT and fails the message with INTEGRITY. `c` is the delivered cell. -/
  | sourceFault (c : Cell)
  /-- `FAULT` (R294): The sending end receives FAULT, records the failure and answers FAULT_CONFIRM. `c` is the delivered cell. -/
  | fault (c : Cell) (v : View)
  /-- `FAULT_CONFIRM` (R294): The receiving end receives FAULT_CONFIRM and the failed message counts as complete. `c` is the delivered cell. -/
  | faultConfirm (c : Cell)
  /-- `TAG` (R299): The target receives a segment's TAG and verifies it. `c` is the delivered cell. -/
  | tag (c : Cell)
  /-- `KEY_SWITCH` (R301): A receiving end records the boundary of a new key epoch and answers KEY_SWITCH_ACK. `c` is the delivered cell. -/
  | keySwitch (c : Cell)
  /-- `KEY_SWITCH_ACK` (R301): The sending end receives KEY_SWITCH_ACK and sends from the boundary under the new epoch. `c` is the delivered cell. -/
  | keySwitchAck (c : Cell)
  /-- `NO_KEY` (R304): An end receives NO_KEY and treats its installed key as spent. `c` is the delivered cell. -/
  | noKey (c : Cell)
  /-- `ATOMIC_REQ` (R316): The unit checks and performs an atomic operation once and sends ATOMIC_RESP. The request at the front of connection `h`. -/
  | atomicReq (h : Word) (v : View)
  /-- `ACQUIRE` (R319): The unit grants, queues or fails a lock acquire. The request at the front of connection `h`. -/
  | acquire (h : Word) (v : View)
  /-- `RELEASE` (R320): The unit releases a lock and hands it to the next waiter. The request at the front of connection `h`. -/
  | release (h : Word) (v : View)
  /-- `ABANDON_ALL` (R330): A peer unit abandons every lock held through the connection. The request at the front of connection `h`. -/
  | abandonAll (h : Word) (v : View)
  /-- `HOST_WORD_OP_DONE` (R316): A unit operation on a host word completes and the unit slot and connection record are written. The `k`-th operation of the unit; each read with its value and the value its CAS found, or the one value found; `ur`: Unsupported Request. -/
  | hostWordOpDone (k : Nat) (tries : List (Nat × Nat)) (ur : Bool) (v : View)
  /-- `PENDING_WRITE_DONE` (R316): The GDDR7 write of NEW is issued and PENDING is cleared in the unit slot. The `k`-th operation of the unit. -/
  | pendingWriteDone (k : Nat) (v : View)
  /-- `ATOMIC_RESP` (R317): The initiator places an ATOMIC_RESP and completes its descriptor when WM advances. On connection `h`. -/
  | atomicResp (h : Word) (v : View)
  /-- `LOCK_RESP` (R317): The initiator places a LOCK_RESP, or handles an INHERIT notice. On connection `h`. -/
  | lockResp (h : Word) (v : View)
  /-- `ATU_LK_ACQUIRE` (R324): A read of a lock-window slot's ATU_LK_ACQUIRE acquires, resumes or reports its lock. Slot `n` of the window of instance `i`. -/
  | atuLkAcquire (i : InstId) (n : Fin 256) (v : View)
  /-- `ATU_LK_RELEASE` (R325): A write to ATU_LK_RELEASE releases or withdraws the slot's lock. Slot `n` of the window of instance `i`. -/
  | atuLkRelease (i : InstId) (n : Fin 256) (v : View)
  /-- `LK_ACQUIRE_RETRY` (R324): A stalled lock-window read returns RETRY after 40 µs without a grant. Slot `n` of the window of instance `i`. -/
  | lkAcquireRetry (i : InstId) (n : Fin 256)
  /-- `LK_SLOT_WITHDRAW` (R324): A slot left WAITING 1 ms without a read is withdrawn. Slot `n` of the window of instance `i`. -/
  | lkSlotWithdraw (i : InstId) (n : Fin 256) (v : View)
  /-- `TREE_STEP` (R345): With its descriptor taken and its children's cell 0s in hand, a member runs its engine tree step. Group member `g`, operation `n`; `data` is what the read of the contribution returned. -/
  | treeStep (g : Word) (n : Word) (data : HostRead) (v : View)
  /-- `SPAN_COMBINE` (R345): Once every input holds a 4 KiB span, it is combined and sent, placed or forwarded. Group member `g`, operation `n`. -/
  | spanCombine (g : Word) (n : Word) (v : View)
  /-- `DOWN_MESSAGE` (R345): A member receives its parent's down message, places it and forwards it, then completes. Group member `g`, operation `n`. -/
  | downMessage (g : Word) (n : Word) (v : View)
  /-- `COLLECTIVE_ABORT` (R352): A member receives ABORT, becomes BROKEN and aborts its operations. On connection `h`. -/
  | collectiveAbort (h : Word) (v : View)
  /-- `TRANSLATION_MISS` (R373): A TLB miss task walks the table, sets ACCESSED, loads the slice and releases waiting accesses. The task of tile `t` for the page of `va` in instance `i`; what the reads of the table entries returned, in order. -/
  | translationMiss (t : TileId) (i : InstId) (va : Nat) (reads : List HostRead)
  /-- `FLAG_UPDATE_DONE` (R375): An atomic ACCESSED or DIRTY update completes and succeeds, races or faults. The `k`-th update in progress; the entry it found; `ur`: Unsupported Request; `room`: records of the page log free from the chip's position on. -/
  | flagUpdateDone (k : Nat) (found : Word64) (ur : Bool) (room : Nat)
  /-- `EXTENT_VALID_SET` (R378): A write setting XLT_EXT_CTRL.VALID enables an extent or is refused with ERR. The word written to XLT_EXT_CTRL, taken with VALID = 1. -/
  | extentValidSet (i : InstId) (n : Fin 16) (w : Word)
  /-- `DEVLIST_LOCK` (R379): Setting XLT_CTRL.DEVLIST_LOCK fixes the device ranges and enables walks. The word written to XLT_CTRL, taken with DEVLIST_LOCK = 1. -/
  | devlistLock (w : Word)
  /-- `XLT_FAULT_INFO_READ` (R368): A read of XLT_FAULT_INFO clears VALID and re-arms fault recording. The requester: a host port, or 8 for the sideband port. -/
  | xltFaultInfoRead (who : Fin 9)
  /-- `INST_MAP_WRITE` (R387): A write to CTL_INST_MAPi binds an instance to a function, or is refused with ERR. The word written to CTL_INST_MAPi. -/
  | instMapWrite (i : InstId) (w : Word)
  /-- `BUS_MASTER_ENABLE_CHANGE` (R389): Bus Master Enable of a mapped function changes; queues are suspended, or kept writes are reissued and queues resume. Function `f` (0: the physical one) as the host has now set it: Bus Master Enable (with VF Enable), AtomicOp Requester Enable, its assigned memory BARs as (base, size). -/
  | busMasterEnableChange (p : PortId) (f : Fin 17) (bme : Bool) (atomicEn : Bool) (bars : List (Nat × Nat))
  /-- `CHUNK_GRANT` (R410): The arbiter grants the send path one chunk: a due launch, a control cell or a chunk by deficit round robin. `data`: what the read of the source of the granted chunk returned, from the chunk's first byte on. -/
  | chunkGrant (data : HostRead) (v : View)
  /-- `POL_ENABLE` (R403): Setting INJ_POL_CTRL.ENABLE fills both buckets; clearing it discards the tokens. The word written to INJ_POL_CTRL of instance `i` and class `c`. -/
  | polEnable (i : InstId) (c : ClassId) (w : Word)
  /-- `POL_WRITE` (R407): A write of a policer's rates or buckets takes effect at its next step, or is ignored with ERR. The word written to INJ_POL_CTRL, INJ_POL_PIR, INJ_POL_CBS or INJ_POL_PBS, by `n`. -/
  | polWrite (i : InstId) (c : ClassId) (n : Fin 4) (w : Word)
  /-- `QUEUE_SAMPLE` (R416): At each K-th slot every queue's depth and head delay are sampled. At the start of a slot. -/
  | queueSample
  /-- `CODEWORD` (R421): A receiver decodes a codeword, removes stuffing and takes its cells and control word. What the decoder found: `good` = 0 is an uncorrectable codeword; `unstuffed` stuff symbols were removed; the field was `punctured`. -/
  | codeword (l : LaneId) (good : Bool) (cells : List Cell) (w : LinkWord) (corrected : Bool) (slip : Bool) (unstuffed : Nat) (punctured : Bool)
  /-- `NAK_REPEAT` (R438): 500 ns after a NAK without REPLAY the receiver sends NAK again. -/
  | nakRepeat (l : LaneId)
  /-- `NO_REPLAY_TIMEOUT` (R448): 800 ns after the first NAK without REPLAY the link is declared lost. -/
  | noReplayTimeout (l : LaneId)
  /-- `NAK` (R438): A transmitter receives NAK and sends REPLAY and the buffered cells from NEXT. -/
  | nak (l : LaneId) (next : BitVec 12)
  /-- `REPLAY` (R438): A receiver receives REPLAY and resumes accepting cells in LSEQ order. -/
  | replay (l : LaneId) (lseq : BitVec 12)
  /-- `LINK_ACK` (R437): A transmitter receives a link ACK word and frees buffered cells before NEXT. -/
  | linkAck (l : LaneId) (next : BitVec 12)
  /-- `CREDIT` (R439): A transmitter receives a CREDIT word and updates its allowance in the pool. -/
  | credit (l : LaneId) (data : BitVec 16)
  /-- `PHASE_REQ` (R442): A requested lane phase from PHASE_REQ or the power controller sends a PHASE request. `power`: the request comes from the power controller, else from `LNG_LANE_CTRL.PHASE_REQ`. -/
  | phaseReq (l : LaneId) (target : Fin 3) (power : Bool)
  /-- `PHASE` (R442): A PHASE word is received and answered, refused or applied. -/
  | phase (l : LaneId) (data : BitVec 16)
  /-- `WAKE` (R444): A WAKE word asks the receiving chip to raise a named lane to FULL. -/
  | wake (l : LaneId) (data : BitVec 16)
  /-- `WAKE_PATTERN` (R443): A lane's detector sees a wake pattern, raises a wake and answers to bring the lane to FULL. -/
  | wakePattern (l : LaneId)
  /-- `LANE_EXIT_TIMEOUT` (R443): A lane exit that has not reached FULL in 100 µs ends in full training. -/
  | laneExitTimeout (l : LaneId)
  /-- `RETRAIN` (R445): Setting LNG_LANE_CTRL.RETRAIN starts training of the lane. `w` is the word written to `LNG_LANE_CTRL`. -/
  | retrain (l : LaneId) (w : Word)
  /-- `TRAIN` (R445): A TRAIN word is received and recorded; after both READY the lanes deskew and switch seeds. The word's DATA; the preset that step 2 chose by R434 and whether one could be used. -/
  | train (l : LaneId) (data : BitVec 16) (eq : Fin 32) (eqValid : Bool)
  /-- `TRAINING_TIMEOUT` (R447): A training attempt that has not reached QUARANTINE in 400 µs fails. -/
  | trainingTimeout (l : LaneId)
  /-- `TRAINING_RETRY` (R447): 10 ms after a failed attempt, training is repeated. -/
  | trainingRetry (l : LaneId)
  /-- `LINK_LOST` (R448): An end declares its link lost, sends LINK_DOWN, discards its retry buffer and retrains. -/
  | linkLost (l : LaneId)
  /-- `LINK_DOWN` (R448): A LINK_DOWN word is received and the link is declared lost. -/
  | linkDown (l : LaneId)
  /-- `HOST_PORT_RESET` (R461): A host port's link goes down and the EN1024 suspends, abandons and keeps writes. `unacked`: how many of the port's last writes had no acknowledgement. -/
  | hostPortReset (p : PortId) (unacked : Nat) (v : View)
  /-- `FLR` (R462): A Function Level Reset runs RESET_INSTANCE on the mapped instance. Of function `f`, 0 for the physical one. -/
  | flr (p : PortId) (f : Fin 17) (v : View)
  /-- `HPT_DISABLE` (R454): HPT_CTRL.DISABLE holds a port's link disabled and stops its PLL. The word written to HPT_CTRL, taken with DISABLE = 1; as for HOST_PORT_RESET. -/
  | hptDisable (p : PortId) (w : Word) (unacked : Nat) (v : View)
  /-- `HPT_RETRAIN` (R451): Setting HPT_CTRL.RETRAIN starts host-port link training. The word written to HPT_CTRL, taken with RETRAIN = 1; as for HOST_PORT_RESET. -/
  | hptRetrain (p : PortId) (w : Word) (unacked : Nat) (v : View)
  /-- `CPL_TIMEOUT` (R525): A read has no completion within 50 ms and is retried, failed or handled by R602. A read of function `f`. -/
  | cplTimeout (p : PortId) (f : Fin 17)
  /-- `POISON` (R525): A poisoned completion is received and handled as for a failed read. A read of function `f`. -/
  | poison (p : PortId) (f : Fin 17)
  /-- `ATOMIC_UR` (R456): An AtomicOp is not issued or completes with Unsupported Request, and its operation fails. The `k`-th operation of the atomic and lock unit. -/
  | atomicUr (k : Nat) (v : View)
  /-- `MEM_ENABLE` (R472): Setting MEM_CTRL.ENABLE trains every GDDR7 device not marked failed. `w` is the word written to `MEM_CTRL`. -/
  | memEnable (w : Word)
  /-- `MEM_TRAINED` (R472): GDDR7 training ends and TRAINED becomes 1. `fails`: the devices that failed training; `loss`: what a device declared failed held. -/
  | memTrained (fails : List (Fin 12)) (loss : MemLoss)
  /-- `MEM_HOST_BASE_WRITE` (R474): A write of MEM_HOST_BASE sets the fallback area in force. -/
  | memHostBaseWrite (v : Word64)
  /-- `UNCORRECTABLE_READ` (R468): A GDDR7 read is uncorrectable and its work ends with INTEGRITY. `work` needed the data; `loss`: what the device held, if this read declares it failed. -/
  | uncorrectableRead (dev : Fin 12) (chan : Fin 4) (work : MemWork) (loss : MemLoss) (v : View)
  /-- `REBUILD_DONE` (R476): The rebuild after a device failure ends and REBUILDING clears. -/
  | rebuildDone
  /-- `PATROL_SCRUB` (R468): Every 24 hours all of memory is read and corrected. Device and channel of each corrected read. -/
  | patrolScrub (corrected : List (Fin 12 × Fin 4))
  /-- `MEM_TEMPERATURE_READ` (R469): Every 1 ms the controller reads device temperatures and sets the refresh rate. The readings in degrees C. -/
  | memTemperatureRead (temps : List (Fin 12 × BitVec 8))
  /-- `PWR_TILE_REQ` (R485): A write to PWR_TILE_REQ issues a power-state request for the tile. -/
  | pwrTileReq (t : TileId) (w : Word) (sideband : Bool)
  /-- `WAKE_EVENT` (R484): A wake event requests ACTIVE for a tile, merging, latching or aborting by R485. `cause` is a code of R509. -/
  | wakeEvent (t : TileId) (cause : BitVec 8)
  /-- `STANDING_RETURN` (R487): After IDLE µs ACTIVE without a refuser, the tile requests its standing state. -/
  | standingReturn (t : TileId)
  /-- `SEQUENCE_STEP_DONE` (R491): A power-sequencing step finishes and the next step, an abort test or END follows. `codes` are the check codes that CHECK or VERIFY computed for the tile's banks 0-7; `powerGood`: the regulator reported power good within 20 us of POWER_ON. -/
  | sequenceStepDone (t : TileId) (codes : List Word) (powerGood : Bool)
  /-- `PLL_LOCK` (R508): The restarted chip PLLs lock and GDDR7 leaves self refresh; the time state enters ACQUIRING. -/
  | pllLock
  /-- `BANK_RELOAD` (R503): Firmware reloads an invalidated bank's contexts from their backup copies. -/
  | bankReload (t : TileId) (b : Fin 8)
  /-- `THERMAL_SAMPLE` (R500): Every 100 µs the controller reads each tile's sensor and updates PWR_TILE_TEMP. The reading in degrees C. -/
  | thermalSample (t : TileId) (temp : BitVec 8)
  /-- `BROWNOUT` (R502): The retention regulator monitor reports a brown-out and sets BROWNOUT. -/
  | brownout (t : TileId)
  /-- `FLT_FORCE` (R516): A write to _FLT_FORCE raises a source once as a forced fault. `blk` is the block's base address. -/
  | fltForce (blk : Nat) (w : Word)
  /-- `FLT_STATUS_CLEAR` (R520): Writing 1 to a _FLT_STATUS bit clears it once its cause has gone. -/
  | fltStatusClear (blk : Nat) (w : Word)
  /-- `FLT_UNACK_CLEAR` (R512): Writing 1 to a _FLT_UNACK bit acknowledges that class. -/
  | fltUnackClear (blk : Nat) (w : Word)
  /-- `FLT_FIRST_CLEAR` (R512): Writing 1 to _FLT_FIRST.VALID clears it and re-arms recording. -/
  | fltFirstClear (blk : Nat) (w : Word)
  /-- `MSI_X_MESSAGE` (R517): A pending fault interrupt is sent on the control owner's vector, at least 1 µs after the last. -/
  | msiXMessage
  /-- `ERR_N_PULSE_END` (R518): An ERR_N pulse ends after 2 µs, and a pending pulse may start 2 µs later. -/
  | errNPulseEnd
  /-- `DUMP_WRITE` (R539): The reader writes a latched dump into the ring slot, or skips it. `own`: the header of the slot at the position has OWN = 1. -/
  | dumpWrite (own : Bool)
  /-- `CNT_VAL_READ` (R532): A read of CNT_VAL latches the chained counter above it. Counter `c` of bank `b`, read by host port 0-7 or, as 8, by the sideband port. -/
  | cntValRead (who : Fin 9) (b : Fin 146) (c : Fin 8)
  /-- `CNT_SEL_WRITE` (R530): A write to CNT_SEL sets a programmable counter's event, mode and chain. `w` is the word written. -/
  | cntSelWrite (b : Fin 146) (c : Fin 8) (w : Word)
  /-- `CNT_CTRL_ENABLE` (R538): Setting CNT_CTRL.ENABLE with a valid ring starts dumps from position 0 and SEQ 0. The word written to CNT_CTRL. -/
  | cntCtrlEnable (w : Word)
  /-- `POWER_UP` (R544): PWR_GOOD rises after VDD_AON power-up, the straps are sampled and start-up begins. The straps OWNER_SEL, SB_ONLY and SB_ADDR as they stand. -/
  | powerUp (owner : Fin 8) (sbOnly : Bool) (sbAddr : Fin 16)
  /-- `FIRMWARE_LOAD` (R548): The firmware image is read from flash and its signature verified. `flash` is what the read of the 256-byte header returned; `readErr` the flash address of a read that failed or timed out. -/
  | firmwareLoad (flash : HostRead) (readErr : Option (BitVec 24)) (sigOk : Bool) (version : BitVec 16)
  /-- `SELF_TEST` (R549): Logic and memory self-test completes or raises SELF_TEST. The step that failed, if one did. -/
  | selfTest (fail : Option (BitVec 8))
  /-- `PWR_GOOD_FALL` (R594): PWR_GOOD falls; host writes complete, GDDR7 enters self refresh and the core is held in reset. Ports whose writes were not all acknowledged within 1 ms. -/
  | pwrGoodFall (late : List PortId)
  /-- `RESET_N` (R585): RESET_N held low for 1 µs starts a device reset. Held low for 1 µs, or high again. -/
  | resetN (low : Bool)
  /-- `DEV_RESET` (R545): A write of MGT_CTRL.DEV_RESET by the control owner starts a device reset. The word written to `MGT_CTRL`, taken with DEV_RESET = 1. -/
  | devReset (w : Word)
  /-- `DEVICE_RESET_BEGIN` (R545): Once host writes are acknowledged or 1 ms has passed, the device reset runs. As for PWR_GOOD_FALL. -/
  | deviceResetBegin (late : List PortId)
  /-- `DIGEST` (R556): A DIGEST cell is received, answered if needed, and the link decided UP or QUARANTINE. `c` is a cell delivered on the link of lane `l`. -/
  | digest (l : LaneId) (c : Cell)
  /-- `DIGEST_RETRY` (R555): An unanswered DIGEST cell is sent again after 100 µs. On the link of lane `l`. -/
  | digestRetry (l : LaneId)
  /-- `DIGEST_TIMEOUT` (R555): After 1 ms without an answer, the link enters QUARANTINE. On the link of lane `l`. -/
  | digestTimeout (l : LaneId)
  /-- `PROFILE_VALID` (R557): Setting MGT_PROFILE_CTRL.VALID declares the profile and starts the TIDE = 0 exchange, or is refused with ERR. The word written to `MGT_PROFILE_CTRL`, taken with VALID = 1. -/
  | profileValid (w : Word)
  /-- `REG_READ` (R563): The sideband command reads a set-up register. `ok` = 0: the message is malformed. -/
  | regRead (ok : Bool) (a : BitVec 24)
  /-- `REG_WRITE` (R563): The sideband command writes a set-up register. As for REG_READ. -/
  | regWrite (ok : Bool) (a : BitVec 24) (w : Word) (v : View)
  /-- `IMAGE_OPEN` (R563): The sideband command opens an epoch or table for an image load. As for REG_READ. -/
  | imageOpen (ok : Bool) (target : BitVec 8) (len crc plan : Word)
  /-- `IMAGE_DATA` (R563): The sideband command writes image bytes into an epoch or the staging buffer. As for REG_READ. -/
  | imageData (ok : Bool) (off : Word) (data : List (BitVec 8))
  /-- `IMAGE_CLOSE` (R564): The sideband command checks and applies the image and stores its GDDR7 copy. As for REG_READ. -/
  | imageClose (ok : Bool)
  /-- `ADMIN` (R563): The sideband command runs a 64-byte admin command on tile 0. As for REG_READ. -/
  | admin (ok : Bool) (e : Entry) (v : View)
  /-- `DEVICE_RESET` (R563): The sideband command starts a device reset after its response is read. As for REG_READ. -/
  | deviceReset (ok : Bool)
  /-- `SB_WRITE` (R565): A control-owner write of MGT_CTRL.SB_WRITE hands set-up space between the sideband and the driver. The word written to `MGT_CTRL`. -/
  | sbWrite (w : Word)
  /-- `REGISTER_WRITE` (R8): A write to a set-up register with no behaviour of its own updates its fields by their access codes. `n` bytes at `a` by host port `p`. `a` counts from the base of set-up space; the window of instance `i` lies at 2^32 + 65536 `i`. -/
  | registerWrite (p : PortId) (a n : Nat) (v : Word64) (view : View)
  /-- `PPS_EDGE_LATE` (R590): A PPS edge fails to arrive within 1 s plus 1 µs of the previous one, and TIME_IN_OK becomes 0. -/
  | ppsEdgeLate
  /-- `ENGINE_WATCHDOG` (R525): An engine task that has been in progress for more than 10 ms raises the FATAL ENGINE_WATCHDOG source and halts the chip. -/
  | engineWatchdog (t : TileId) (eng : Fin 4)
  /-- `PERIODIC_RETRAINING` (R469): The GDDR7 controller periodically retrains a device, delaying accesses and declaring the device failed if the retraining fails. `ok`: the retraining succeeded. -/
  | periodicRetraining (dev : Fin 12) (ok : Bool) (loss : MemLoss)
  /-- `VDD_AON_REMOVAL` (R521): VDD_AON is removed, which clears every fault register, sticky FATAL, failed-device mark and always-on state. -/
  | vddAonRemoval
  /-- `RAIL_OUT_OF_RANGE` (R595): A supply rail leaves its operating range while PWR_GOOD is high, and the chip's state becomes undefined. The supply, in the order of R592: 4 is VDDQ_MEM, 5 VDD_AON, 6 VDD_IO. -/
  | railOutOfRange (rail : Fin 7)
  /-- `HOST_PORT_LINK_UP` (R458): A host port's link completes training, with its mode, rate and width, the CXL.mem window granted or refused, and any pending MSI-X message sent. RATE - 1 and log2 of the width; the host base committed in the HDM decoder. -/
  | hostPortLinkUp (p : PortId) (cxl : Bool) (rate : Fin 6) (width : Fin 5) (cache : Bool) (base : Word64)
  /-- `LANE_ENABLE` (R445): A write to LNG_LANE_CTRL.ENABLE starts training of the lane, or holds it DOWN with its transmitter silent. `w` is the word written to `LNG_LANE_CTRL`. -/
  | laneEnable (l : LaneId) (w : Word)
  /-- `CXL_MEM_HOST_ACCESS` (R459): A host read or write over CXL.mem reaches the GDDR7 window, and after a device failure reads of an affected line return poisoned data until the line is written. 64-byte line of the window; for a write the line's data and the mask of bytes written. -/
  | cxlMemHostAccess (p : PortId) (line : Nat) (wr : Option (BitVec 512 × Word64))
  /-- `COUNTING_CLOCK` (R531): A cycle of a block's counting clock advances programmable counters whose events are conditions, setting OVF and feeding chained counters when one wraps. Of bank `b`. `conds`: the conditions that hold in this cycle and that the model does not hold itself, as (EVENT, SUB); `occs`: occurrences that no other row of this table reports, as (EVENT, SUB, number). -/
  | countingClock (b : Fin 146) (conds : List (Nat × Nat)) (occs : List (Nat × Nat × Nat))
  /-- `LOW_HALF_READ` (R569): A read of the low half of a 64-bit register latches its high half for that requester's next read. A read of `n` bytes at `a` by host port `p`, as for REGISTER_WRITE. -/
  | lowHalfRead (p : PortId) (a n : Nat) (view : View)
  /-- `TEST_ACCESS_INSTRUCTION` (R587): An instruction shifted in through the IEEE 1149.1 test access port acts as BYPASS, IDCODE or boundary scan depending on RESET_N. -/
  | testAccessInstruction (i : TapInstr)
  deriving DecidableEq, Repr

end Sys2Proof
end

