-- ==== Sys2Proof/Decode.lean ====
section
/-! DEFINITION. Commands from the bits of spec/opcode_table.json: no row of it gives bits. -/

namespace Sys2Proof

/-- The command that a word spells by the table's bits. The table gives no row any bits, so no word spells one (log entry
74). -/
def decodeTableWord (_nbits _w : Nat) : Option Instr := none

end Sys2Proof
end

