-- ==== Sys2Proof/Machine/Bits.lean ====
section
/-! DEFINITION. Bit-field, byte-order and checksum helpers. -/

namespace Sys2Proof.Machine

/-- Bits `[hi:lo]` of `v` as a number. -/
def bits {w : Nat} (v : BitVec w) (hi lo : Nat) : Nat := v.toNat / 2 ^ lo % 2 ^ (hi + 1 - lo)

/-- Bit `i` of `v`. -/
def bit {w : Nat} (v : BitVec w) (i : Nat) : Bool := v.getLsbD i

/-- `v` with bits `[hi:lo]` set to the low bits of `n`. -/
def setBits {w : Nat} (v : BitVec w) (hi lo n : Nat) : BitVec w :=
  let m : BitVec w := BitVec.ofNat w ((2 ^ (hi + 1 - lo) - 1) * 2 ^ lo)
  (v &&& ~~~ m) ||| (BitVec.ofNat w (n * 2 ^ lo) &&& m)

/-- One bit as a number. -/
def b2n (b : Bool) : Nat := if b then 1 else 0

/-- Bits `[hi:lo]` of a number. -/
def nbits (v hi lo : Nat) : Nat := v / 2 ^ lo % 2 ^ (hi + 1 - lo)

/-- `n` bytes of a structure in memory from byte `b` on, little-endian (00, Tables and access codes). -/
def bytesLE {w : Nat} (v : BitVec w) (b n : Nat) : Nat := v.toNat / 2 ^ (8 * b) % 2 ^ (8 * n)

/-- A structure with the little-endian number `x` in `n` bytes from byte `b` on. -/
def setBytesLE {w : Nat} (v : BitVec w) (b n x : Nat) : BitVec w := setBits v (8 * b + 8 * n - 1) (8 * b) x

/-- A signed number of `w` bits from its two's-complement bits. -/
def toSigned (w n : Nat) : Int := if 2 ^ (w - 1) ≤ n then (n : Int) - (2 ^ w : Nat) else n

/-- The two's-complement bits of a signed number in `w` bits. -/
def ofSigned (w : Nat) (i : Int) : Nat := (i % (2 ^ w : Nat)).toNat

/-- A counter that holds at 0xFFFF_FFFF. -/
def satInc (v : Word) : Word := if v = 0xFFFFFFFF#32 then v else v + 1#32

/-- The low `w` bits of `n` in reverse order. -/
def revBits : Nat → Nat → Nat
  | 0, _ => 0
  | w + 1, n => n % 2 * 2 ^ w + revBits w (n / 2)

/-- One bit of the reflected CRC-32 with polynomial 0x04C1_1DB7 (04 R119). -/
def crcBit (c : Nat) : Nat := if c % 2 = 1 then (c / 2) ^^^ 0xEDB88320 else c / 2

/-- One byte of the reflected CRC-32 (04 R119). -/
def crcByte (c b : Nat) : Nat := crcBit (crcBit (crcBit (crcBit (crcBit (crcBit (crcBit (crcBit (c ^^^ b))))))))

/-- The CRC-32 register after `n` bytes taken from the low end of `x`, starting from register `c` (04 R119). -/
def crcBytesLE : Nat → Nat → Nat → Nat
  | 0, _, c => c
  | n + 1, x, c => crcBytesLE n (x / 256) (crcByte c (x % 256))

/-- Whether `v` is a multiple of `2 ^ k`. -/
def aligned {w : Nat} (v : BitVec w) (k : Nat) : Bool := v.toNat % 2 ^ k == 0

/-- Number of one bits in the low `n` bits of `x`. -/
def popCount : Nat → Nat → Nat
  | 0, _ => 0
  | n + 1, x => x % 2 + popCount n (x / 2)

/-- The least `n` with `x ≤ 2 ^ n`, found within `fuel`. -/
def log2Up (fuel x n : Nat) : Nat :=
  match fuel with
  | 0 => n
  | f + 1 => if x ≤ 2 ^ n then n else log2Up f x (n + 1)

/-- Rounded-up quotient. -/
def ceilDiv (a b : Nat) : Nat := (a + b - 1) / b

/-- `x` with the `n` bytes from byte `off` on replaced by those of `v`. -/
def putBytes (x off n v : Nat) : Nat :=
  x % 256 ^ off + v % 256 ^ n * 256 ^ off + x / 256 ^ (off + n) * 256 ^ (off + n)

end Sys2Proof.Machine
end

