-- ==== Sys2Proof/Machine/Crypto.lean ====
section
/-! DEFINITION. The hash and the cipher that the spec names: SHA-256 of a 32-byte record (FIPS 180-4, 20 R553), and
AES-256 with the counter blocks and the GHASH of GCM (FIPS 197, SP 800-38D; 08 R297, R298). The algorithms themselves
are PRESUMED from those standards (log entry 13). -/

namespace Sys2Proof.Machine

/-- The eight working words of SHA-256. -/
structure Sha8 where
  a : Word
  b : Word
  c : Word
  d : Word
  e : Word
  f : Word
  g : Word
  h : Word
  deriving DecidableEq, Repr

/-- The 64 round constants of SHA-256. -/
def shaK : List Word :=
  [0x428a2f98#32, 0x71374491#32, 0xb5c0fbcf#32, 0xe9b5dba5#32, 0x3956c25b#32, 0x59f111f1#32, 0x923f82a4#32, 0xab1c5ed5#32] ++
  [0xd807aa98#32, 0x12835b01#32, 0x243185be#32, 0x550c7dc3#32, 0x72be5d74#32, 0x80deb1fe#32, 0x9bdc06a7#32, 0xc19bf174#32] ++
  [0xe49b69c1#32, 0xefbe4786#32, 0x0fc19dc6#32, 0x240ca1cc#32, 0x2de92c6f#32, 0x4a7484aa#32, 0x5cb0a9dc#32, 0x76f988da#32] ++
  [0x983e5152#32, 0xa831c66d#32, 0xb00327c8#32, 0xbf597fc7#32, 0xc6e00bf3#32, 0xd5a79147#32, 0x06ca6351#32, 0x14292967#32] ++
  [0x27b70a85#32, 0x2e1b2138#32, 0x4d2c6dfc#32, 0x53380d13#32, 0x650a7354#32, 0x766a0abb#32, 0x81c2c92e#32, 0x92722c85#32] ++
  [0xa2bfe8a1#32, 0xa81a664b#32, 0xc24b8b70#32, 0xc76c51a3#32, 0xd192e819#32, 0xd6990624#32, 0xf40e3585#32, 0x106aa070#32] ++
  [0x19a4c116#32, 0x1e376c08#32, 0x2748774c#32, 0x34b0bcb5#32, 0x391c0cb3#32, 0x4ed8aa4a#32, 0x5b9cca4f#32, 0x682e6ff3#32] ++
  [0x748f82ee#32, 0x78a5636f#32, 0x84c87814#32, 0x8cc70208#32, 0x90befffa#32, 0xa4506ceb#32, 0xbef9a3f7#32, 0xc67178f2#32]

/-- The initial hash value. -/
def shaInit : Sha8 :=
  ⟨0x6a09e667#32, 0xbb67ae85#32, 0x3c6ef372#32, 0xa54ff53a#32, 0x510e527f#32, 0x9b05688c#32, 0x1f83d9ab#32,
   0x5be0cd19#32⟩

/-- One round. -/
def shaRound (s : Sha8) (k w : Word) : Sha8 :=
  let s1 := s.e.rotateRight 6 ^^^ s.e.rotateRight 11 ^^^ s.e.rotateRight 25
  let ch := (s.e &&& s.f) ^^^ (~~~ s.e &&& s.g)
  let t1 := s.h + s1 + ch + k + w
  let s0 := s.a.rotateRight 2 ^^^ s.a.rotateRight 13 ^^^ s.a.rotateRight 22
  let mj := (s.a &&& s.b) ^^^ (s.a &&& s.c) ^^^ (s.b &&& s.c)
  ⟨t1 + (s0 + mj), s.a, s.b, s.c, s.d + t1, s.e, s.f, s.g⟩

/-- The next word of the message schedule from the last 16. -/
def shaNext (w : List Word) : Word :=
  let g := fun i => w.getD i 0#32
  let s0 := (g 1).rotateRight 7 ^^^ (g 1).rotateRight 18 ^^^ (g 1) >>> 3
  let s1 := (g 14).rotateRight 17 ^^^ (g 14).rotateRight 19 ^^^ (g 14) >>> 10
  g 0 + s0 + g 9 + s1

/-- The rounds, over a window of 16 schedule words. -/
def shaRounds : List Word → List Word → Sha8 → Sha8
  | [], _, s => s
  | k :: ks, w, s => shaRounds ks (w.drop 1 ++ [shaNext w]) (shaRound s k (w.getD 0 0#32))

/-- SHA-256 of a 32-byte message. `m` and the result are the bytes as one little-endian number: byte `b` is bits
[8b+7 : 8b]. -/
def sha256of32 (m : Nat) : Nat :=
  let byte := fun b => m / 256 ^ b % 256
  let words := (List.range 8).map (fun i =>
    BitVec.ofNat 32 (byte (4 * i) * 2 ^ 24 + byte (4 * i + 1) * 2 ^ 16 + byte (4 * i + 2) * 2 ^ 8 + byte (4 * i + 3)))
  let w := words ++ [0x80000000#32, 0#32, 0#32, 0#32, 0#32, 0#32, 0#32, 0x100#32]
  let r := shaRounds shaK w shaInit
  let i := shaInit
  let out := [r.a + i.a, r.b + i.b, r.c + i.c, r.d + i.d, r.e + i.e, r.f + i.f, r.g + i.g, r.h + i.h]
  (List.range 32).foldl (fun acc b =>
    acc + (out.getD (b / 4) 0#32).toNat / 2 ^ (8 * (3 - b % 4)) % 256 * 256 ^ b) 0

/-- The S-box of AES, entry `i` in bits [8i+7 : 8i]. -/
def aesSbox : Nat :=
  0x16bb54b00f2d99416842e6bf0d89a18cdf2855cee9871e9b948ed9691198f8e19e1dc186b95735610ef6034866b53e708a8bbd4b1f74dde8c6b4a61c2e2578ba08ae7a65eaf4566ca94ed58d6d37c8e779e4959162acd3c25c2406490a3a32e0db0b5ede14b8ee4688902a22dc4f816073195d643d7ea7c41744975fec130ccdd2f3ff1021dab6bcf5389d928f40a351a89f3c507f02f94585334d43fbaaefd0cf584c4a39becb6a5bb1fc20ed00d153842fe329b3d63b52a05a6e1b1a2c830975b227ebe28012079a059618c323c7041531d871f1e5a534ccf73f362693fdb7c072a49cafa2d4adf04759fa7dc982ca76abd7fe2b670130c56f6bf27b777c63

def aesSub (b : Nat) : Nat := aesSbox / 256 ^ b % 256

/-- Doubling in the field of AES. -/
def aesX2 (b : Nat) : Nat := if 128 ≤ b then (2 * b % 256) ^^^ 0x1b else 2 * b

/-- The bytes of a big-endian number of `n` bytes, first byte first. -/
def bytesBE : Nat → Nat → List Nat
  | 0, _ => []
  | n + 1, x => x / 256 ^ n % 256 :: bytesBE n x

/-- The number whose bytes, first byte most significant, are listed. -/
def ofBytesBE (l : List Nat) : Nat := l.foldl (fun a b => a * 256 + b) 0

/-- The key schedule of AES-256: words appended from the last eight, `i` the number of the next word. -/
def aesExpand : Nat → Nat → Nat → List (List Nat) → List (List Nat)
  | 0, _, _, _ => []
  | n + 1, i, rc, w =>
    let prev := w.getD 7 []
    let t := if i % 8 = 0 then
        match (prev.drop 1 ++ prev.take 1).map aesSub with
        | b :: bs => (b ^^^ rc) :: bs
        | [] => []
      else if i % 8 = 4 then prev.map aesSub else prev
    let x := List.zipWith (· ^^^ ·) (w.getD 0 []) t
    x :: aesExpand n (i + 1) (if i % 8 = 0 then aesX2 rc else rc) (w.drop 1 ++ [x])

/-- The round keys, 16 bytes each. -/
def aesKeys (key : BitVec 256) : List (List Nat) :=
  let k := bytesBE 32 key.toNat
  let first := (List.range 8).map (fun i => (k.drop (4 * i)).take 4)
  let all := first ++ aesExpand 52 8 1 first
  (List.range 15).map (fun r => ((all.drop (4 * r)).take 4).flatten)

/-- ShiftRows after SubBytes. -/
def aesShift (s : List Nat) : List Nat :=
  (List.range 16).map (fun i => aesSub (s.getD ((i + 4 * (i % 4)) % 16) 0))

/-- MixColumns of one column. -/
def aesMixCol (c : List Nat) : List Nat :=
  let g := fun i => c.getD (i % 4) 0
  (List.range 4).map (fun i => aesX2 (g i) ^^^ aesX2 (g (i + 1)) ^^^ g (i + 1) ^^^ g (i + 2) ^^^ g (i + 3))

def aesMix (s : List Nat) : List Nat := ((List.range 4).map (fun c => aesMixCol ((s.drop (4 * c)).take 4))).flatten

/-- The rounds after the first AddRoundKey; the last has no MixColumns. -/
def aesRounds : List (List Nat) → List Nat → List Nat
  | [], s => s
  | [k], s => List.zipWith (· ^^^ ·) (aesShift s) k
  | k :: ks, s => aesRounds ks (List.zipWith (· ^^^ ·) (aesMix (aesShift s)) k)

/-- AES-256 of one block; key and blocks are big-endian numbers, their first byte most significant. -/
def aes256 (key : BitVec 256) (blk : BitVec 128) : BitVec 128 :=
  match aesKeys key with
  | [] => 0#128
  | k0 :: ks => BitVec.ofNat 128 (ofBytesBE (aesRounds ks (List.zipWith (· ^^^ ·) (bytesBE 16 blk.toNat) k0)))

/-- The product of GHASH: `n` bits of `x` still to take, from bit `n - 1` down; `v` is the shifted factor. -/
def gmulStep : Nat → BitVec 128 → BitVec 128 → BitVec 128 → BitVec 128
  | 0, _, _, z => z
  | n + 1, x, v, z =>
    gmulStep n x (if v.getLsbD 0 then (v >>> 1) ^^^ (0xE1#128 <<< 120) else v >>> 1)
      (if x.getLsbD n then z ^^^ v else z)

/-- Multiplication in the field of GHASH. -/
def gmul (x y : BitVec 128) : BitVec 128 := gmulStep 128 x y 0#128

/-- One step of GHASH. -/
def ghashStep (h acc blk : BitVec 128) : BitVec 128 := gmul (acc ^^^ blk) h

end Sys2Proof.Machine
end

