-- ==== Sys2Proof/Machine/Maps.lean ====
section
/-! DEFINITION. Finite maps as plain data: a list of key and value pairs. `Map.set` keeps keys that rise strictly
so, so that equal maps are equal lists; the read-after-write laws need no such premise
(Sys2Proof/Laws/Maps.lean). -/

namespace Sys2Proof.Machine

/-- The value at key `k`, if any. -/
def Map.get? {α : Type} : List (Nat × α) → Nat → Option α
  | [], _ => none
  | (j, v) :: t, k => if j = k then some v else Map.get? t k

/-- The value at key `k`, or `d`. -/
def Map.getD {α : Type} (m : List (Nat × α)) (k : Nat) (d : α) : α := (Map.get? m k).getD d

/-- Whether key `k` has a value. -/
def Map.has {α : Type} (m : List (Nat × α)) (k : Nat) : Bool := (Map.get? m k).isSome

/-- The map with `v` at key `k`. -/
def Map.set {α : Type} : List (Nat × α) → Nat → α → List (Nat × α)
  | [], k, v => [(k, v)]
  | (j, w) :: t, k, v =>
    if k < j then (k, v) :: (j, w) :: t
    else if k = j then (k, v) :: t
    else (j, w) :: Map.set t k v

/-- The map without key `k`. -/
def Map.erase {α : Type} (m : List (Nat × α)) (k : Nat) : List (Nat × α) := m.filter (fun p => p.1 != k)

/-- The map with the value at `k`, if there is one, changed by `f`. -/
def Map.mod {α : Type} (m : List (Nat × α)) (k : Nat) (f : α → α) : List (Nat × α) :=
  m.map (fun p => if p.1 = k then (p.1, f p.2) else p)

/-- The map with every value changed by `f`, which is told the key. -/
def Map.mapV {α : Type} (m : List (Nat × α)) (f : Nat → α → α) : List (Nat × α) := m.map (fun p => (p.1, f p.1 p.2))

/-- Keys rise strictly: the one canonical form of a map. -/
def Map.rising {α : Type} : List (Nat × α) → Bool
  | [] => true
  | [_] => true
  | (j, _) :: (k, w) :: t => decide (j < k) && Map.rising ((k, w) :: t)

/-- A number below `n` that `ok` holds of, as the free value `d` has it: any of them, for some `d`. Where `d` names none, the
first among the first `k` is taken. -/
def pickBelow (n k d : Nat) (ok : Nat → Bool) : Option Nat :=
  if n = 0 then none
  else if ok (d % n) then some (d % n)
  else (List.range (min n k)).find? ok

/-- A number in `lo, …, lo + n - 1` that is no key of `m`, as the free value `d` has it (log entry 31): of any `length + 1`
numbers one is free. -/
def Map.pickFree {α : Type} (m : List (Nat × α)) (lo n d : Nat) : Option Nat :=
  (pickBelow n (m.length + 1) d (fun x => !Map.has m (lo + x))).map (lo + ·)

/-- The map that reads `d` where nothing is listed, with `v` at `k`: writing `d` removes the entry. -/
def Map.put {α : Type} [DecidableEq α] (m : List (Nat × α)) (k : Nat) (d v : α) : List (Nat × α) :=
  if v = d then Map.erase m k else Map.set m k v

/-- The canonical form of a memory of bytes (15 R458): addresses rise strictly, and no listed byte is the zero that an unlisted
address reads as (log entry 20). -/
def Memory.wf (m : List (Nat × BitVec 8)) : Bool := Map.rising m && m.all (fun p => p.2 != 0#8)

/-- Removes the first element equal to `x`. -/
def dropFirst {α : Type} [DecidableEq α] (x : α) : List α → List α
  | [] => []
  | y :: t => if y = x then t else y :: dropFirst x t

/-- Puts `x` before the first element with a larger key. -/
def insertBy {α : Type} (key : α → Nat) (x : α) : List α → List α
  | [] => [x]
  | y :: t => if key x < key y then x :: y :: t else y :: insertBy key x t

/-- The list in ascending order of `key`; equal keys keep their order. -/
def sortBy {α : Type} (key : α → Nat) : List α → List α
  | [] => []
  | l => l.foldl (fun acc x => insertBy key x acc) []

end Sys2Proof.Machine
end

