-- ==== Sys2Proof/Machine/RegMap.lean ====
section
/-! DEFINITION. The register map of set-up space and of the instance windows (21 R566, R572 and the register
tables of each chapter): the address of every register, its fields, and a table of what software may write
and of the reset values. Instance windows lie, in this model's address numbering, from 0x1_0000_0000 on,
64 KiB for each instance. -/

namespace Sys2Proof.Machine

/-- A field of a register: the address of its register and its highest and lowest bit. -/
structure Fld where
  addr : Nat
  hi : Nat
  lo : Nat
  deriving DecidableEq, Repr

/-- One register of the tables: `n1 × n2` copies at strides `s1` and `s2`, 64 bits if `wide`, the bits that are RW,
W1C, W1S and WO (00 R8), and the reset value (0 where the table gives a strap, a fuse or a stepping: see
`regDefault`). -/
structure RegRow where
  base : Nat
  n1 : Nat
  s1 : Nat
  n2 : Nat
  s2 : Nat
  wide : Bool
  rw : Nat
  w1c : Nat
  w1s : Nat
  wo : Nat
  reset : Nat
  deriving DecidableEq, Repr

/-- The register table of the ID block. -/
def regRowsId : List RegRow := [
  ⟨0x0, 1, 0x100000000, 1, 0x100000000, false, 0x0, 0x0, 0x0, 0x0, 0x454E1024⟩ /- ID_PART -/,
  ⟨0x4, 1, 0x100000000, 1, 0x100000000, false, 0x0, 0x0, 0x0, 0x0, 0x0⟩ /- ID_STEPPING -/,
  ⟨0x8, 1, 0x100000000, 1, 0x100000000, false, 0x0, 0x0, 0x0, 0x0, 0x0⟩ /- ID_CAP -/,
  ⟨0xC, 1, 0x100000000, 1, 0x100000000, false, 0x0, 0x0, 0x0, 0x0, 0x1⟩ /- ID_LEVELS -/,
  ⟨0x10, 1, 0x100000000, 1, 0x100000000, true, 0x0, 0x0, 0x0, 0x0, 0x0⟩ /- ID_CHIP_ID -/,
  ⟨0x18, 1, 0x100000000, 1, 0x100000000, false, 0x0, 0x0, 0x0, 0x0, 0x0⟩ /- ID_FORMATS -/]

/-- The register table of the CTL block. -/
def regRowsCtl : List RegRow := [
  ⟨0x10800, 1, 0x100000000, 1, 0x100000000, false, 0x0, 0x0, 0x0, 0x0, 0x0⟩ /- CTL_POLL_DEMAND -/,
  ⟨0x10804, 1, 0x100000000, 1, 0x100000000, false, 0x0, 0x0, 0x0, 0x0, 0x0⟩ /- CTL_POLL_FLOOR -/,
  ⟨0x10808, 1, 0x100000000, 1, 0x100000000, false, 0x0, 0x0, 0x0, 0x0, 0x0⟩ /- CTL_POLL_STRETCH -/,
  ⟨0x1080C, 1, 0x100000000, 1, 0x100000000, false, 0x0, 0x0, 0x0, 0x0, 0x0⟩ /- CTL_CQ_WAIT -/,
  ⟨0x10000, 1, 0x100000000, 1, 0x100000000, false, 0x0, 0x0, 0x0, 0x0, 0x0⟩ /- CTL_OWNER -/,
  ⟨0x10004, 1, 0x100000000, 1, 0x100000000, false, 0x803FFFE0, 0x0, 0x0, 0x0, 0x40209080⟩ /- CTL_AQ_CTRL -/,
  ⟨0x10008, 1, 0x100000000, 1, 0x100000000, true, 0xFFFFFFFFFFFFFFC0, 0x0, 0x0, 0x0, 0x0⟩ /- CTL_AQ_BASE -/,
  ⟨0x10010, 1, 0x100000000, 1, 0x100000000, true, 0xFFFFFFFFFFFFFFE0, 0x0, 0x0, 0x0, 0x0⟩ /- CTL_ACQ_BASE -/,
  ⟨0x10018, 1, 0x100000000, 1, 0x100000000, false, 0x0, 0x0, 0x0, 0x0, 0x0⟩ /- CTL_AQ_ACTIVE -/,
  ⟨0x10A00, 1, 0x100000000, 1, 0x100000000, false, 0x1FFFF, 0x0, 0x0, 0x0, 0x0⟩ /- CTL_ENDPOINT -/,
  ⟨0x10A04, 1, 0x100000000, 1, 0x100000000, false, 0xFFFFF7FF, 0x0, 0x0, 0x0, 0xC4100040⟩ /- CTL_ROUTE_CTRL -/,
  ⟨0x10A08, 1, 0x100000000, 1, 0x100000000, false, 0x0, 0x0, 0x0, 0x0, 0x0⟩ /- CTL_ROUTE_EPOCH -/,
  ⟨0x10A0C, 1, 0x100000000, 1, 0x100000000, false, 0x0, 0x0, 0x0, 0x0, 0xF000000⟩ /- CTL_ROUTE_INFLIGHT0 -/,
  ⟨0x10A10, 1, 0x100000000, 1, 0x100000000, false, 0x0, 0x0, 0x0, 0x0, 0xF000000⟩ /- CTL_ROUTE_INFLIGHT1 -/,
  ⟨0x10A14, 1, 0x100000000, 1, 0x100000000, false, 0x0, 0x0, 0x0, 0x0, 0x0⟩ /- CTL_DROP_EPOCH -/,
  ⟨0x10A18, 1, 0x100000000, 1, 0x100000000, false, 0x0, 0x0, 0x0, 0x0, 0x0⟩ /- CTL_DROP_HOP -/,
  ⟨0x10A1C, 1, 0x100000000, 1, 0x100000000, false, 0x0, 0x0, 0x0, 0x0, 0x0⟩ /- CTL_DROP_NOROUTE -/,
  ⟨0x10A20, 1, 0x100000000, 1, 0x100000000, false, 0x0, 0x0, 0x0, 0x0, 0x0⟩ /- CTL_DROP_LINK -/,
  ⟨0x10A24, 1, 0x100000000, 1, 0x100000000, false, 0x0, 0x0, 0x0, 0x0, 0x0⟩ /- CTL_DROP_FORMAT -/,
  ⟨0x10A28, 1, 0x100000000, 1, 0x100000000, false, 0x0, 0x0, 0x0, 0x0, 0x0⟩ /- CTL_CRC_FWD -/,
  ⟨0x10A2C, 1, 0x100000000, 1, 0x100000000, false, 0x0, 0x0, 0x0, 0x0, 0x0⟩ /- CTL_CRC_DROP -/,
  ⟨0x10A30, 1, 0x100000000, 1, 0x100000000, false, 0x0, 0x0, 0x0, 0x0, 0x0⟩ /- CTL_NM_PICKS -/,
  ⟨0x10C00, 8, 0x4, 1, 0x100000000, false, 0xFF01FFFF, 0x0, 0x0, 0x0, 0x400000C8⟩ /- CTL_XPT_RETRY -/,
  ⟨0x10C40, 1, 0x100000000, 1, 0x100000000, false, 0xA0000000, 0x0, 0x40000000, 0x0, 0x0⟩ /- CTL_JRNL_CTRL -/,
  ⟨0x10C48, 1, 0x100000000, 1, 0x100000000, true, 0xFFFFFFFFFFFFF000, 0x0, 0x0, 0x0, 0x0⟩ /- CTL_JRNL_CHIP -/,
  ⟨0x11000, 128, 0x8, 1, 0x100000000, true, 0xFFFFFFFFFFFFF000, 0x0, 0x0, 0x0, 0x0⟩ /- CTL_JRNL_INST -/,
  ⟨0x10C80, 1, 0x100000000, 1, 0x100000000, false, 0x0, 0x0, 0x0, 0x0, 0x0⟩ /- CTL_XPT_DUP -/,
  ⟨0x10C84, 1, 0x100000000, 1, 0x100000000, false, 0x0, 0x0, 0x0, 0x0, 0x0⟩ /- CTL_XPT_OOW -/,
  ⟨0x10C88, 1, 0x100000000, 1, 0x100000000, false, 0x0, 0x0, 0x0, 0x0, 0x0⟩ /- CTL_XPT_NOCTX -/,
  ⟨0x10C8C, 1, 0x100000000, 1, 0x100000000, false, 0x0, 0x0, 0x0, 0x0, 0x0⟩ /- CTL_XPT_GEN_DROP -/,
  ⟨0x10C90, 1, 0x100000000, 1, 0x100000000, false, 0x0, 0x0, 0x0, 0x0, 0x0⟩ /- CTL_XPT_SEG_DROP -/,
  ⟨0x10C94, 1, 0x100000000, 1, 0x100000000, false, 0x0, 0x0, 0x0, 0x0, 0x0⟩ /- CTL_XPT_HOLD_DROP -/,
  ⟨0x10C98, 1, 0x100000000, 1, 0x100000000, false, 0x0, 0x0, 0x0, 0x0, 0x0⟩ /- CTL_XPT_CTX_MISS -/,
  ⟨0x10C9C, 1, 0x100000000, 1, 0x100000000, false, 0x0, 0x0, 0x0, 0x0, 0x0⟩ /- CTL_XPT_PROBE -/,
  ⟨0x10CA0, 1, 0x100000000, 1, 0x100000000, false, 0x0, 0x0, 0x0, 0x0, 0x0⟩ /- CTL_XPT_RESEND -/,
  ⟨0x10CA4, 1, 0x100000000, 1, 0x100000000, false, 0x0, 0x0, 0x0, 0x0, 0x0⟩ /- CTL_XPT_UNREACH -/,
  ⟨0x11800, 1, 0x100000000, 1, 0x100000000, false, 0x0, 0x0, 0x0, 0x0, 0x0⟩ /- CTL_MATCH_ONDIE -/,
  ⟨0x11804, 1, 0x100000000, 1, 0x100000000, false, 0x0, 0x0, 0x0, 0x0, 0x0⟩ /- CTL_MATCH_OVERFLOW -/,
  ⟨0x11808, 1, 0x100000000, 1, 0x100000000, false, 0x0, 0x0, 0x0, 0x0, 0x0⟩ /- CTL_MATCH_UNEXP -/,
  ⟨0x1180C, 1, 0x100000000, 1, 0x100000000, false, 0x0, 0x0, 0x0, 0x0, 0x0⟩ /- CTL_MATCH_BLOCKS -/,
  ⟨0x11810, 1, 0x100000000, 1, 0x100000000, false, 0x0, 0x0, 0x0, 0x0, 0x0⟩ /- CTL_MATCH_COUNT -/,
  ⟨0x11814, 1, 0x100000000, 1, 0x100000000, false, 0x0, 0x0, 0x0, 0x0, 0x0⟩ /- CTL_MATCH_STORED -/,
  ⟨0x11818, 1, 0x100000000, 1, 0x100000000, false, 0x0, 0x0, 0x0, 0x0, 0x0⟩ /- CTL_MATCH_HELD -/,
  ⟨0x1181C, 1, 0x100000000, 1, 0x100000000, false, 0x0, 0x0, 0x0, 0x0, 0x0⟩ /- CTL_MATCH_OVF_READ -/,
  ⟨0x11820, 1, 0x100000000, 1, 0x100000000, false, 0x0, 0x0, 0x0, 0x0, 0x0⟩ /- CTL_MATCH_UNEXP_FULL -/,
  ⟨0x11824, 1, 0x100000000, 1, 0x100000000, false, 0x0, 0x0, 0x0, 0x0, 0x0⟩ /- CTL_MATCH_POST_WAIT -/,
  ⟨0x11828, 1, 0x100000000, 1, 0x100000000, false, 0x0, 0x0, 0x0, 0x0, 0x0⟩ /- CTL_MATCH_TRUNC -/,
  ⟨0x1182C, 1, 0x100000000, 1, 0x100000000, false, 0x0, 0x0, 0x0, 0x0, 0x0⟩ /- CTL_MATCH_CANCEL -/,
  ⟨0x11830, 1, 0x100000000, 1, 0x100000000, false, 0x0, 0x0, 0x0, 0x0, 0x0⟩ /- CTL_MATCH_BADPROTO -/,
  ⟨0x11834, 1, 0x100000000, 1, 0x100000000, false, 0x0, 0x0, 0x0, 0x0, 0x0⟩ /- CTL_MATCH_PULLS -/,
  ⟨0x11A00, 128, 0x4, 1, 0x100000000, false, 0x8000FFFF, 0x0, 0x0, 0x0, 0x0⟩ /- CTL_IMM_CQ -/,
  ⟨0x11900, 1, 0x100000000, 1, 0x100000000, false, 0x0, 0x0, 0x0, 0x0, 0x0⟩ /- CTL_RMA_KEY_FAULT -/,
  ⟨0x11904, 1, 0x100000000, 1, 0x100000000, false, 0x0, 0x0, 0x0, 0x0, 0x0⟩ /- CTL_RMA_XLT_FAULT -/,
  ⟨0x11908, 1, 0x100000000, 1, 0x100000000, false, 0x0, 0x0, 0x0, 0x0, 0x0⟩ /- CTL_RMA_FAULT_SENT -/,
  ⟨0x1190C, 1, 0x100000000, 1, 0x100000000, false, 0x0, 0x0, 0x0, 0x0, 0x0⟩ /- CTL_RMA_DECRYPT_FAIL -/,
  ⟨0x11910, 1, 0x100000000, 1, 0x100000000, false, 0x0, 0x0, 0x0, 0x0, 0x0⟩ /- CTL_RMA_NO_KEY -/,
  ⟨0x11914, 1, 0x100000000, 1, 0x100000000, false, 0x0, 0x0, 0x0, 0x0, 0x0⟩ /- CTL_RMA_KEY_SWITCH -/,
  ⟨0x11918, 1, 0x100000000, 1, 0x100000000, false, 0x0, 0x0, 0x0, 0x0, 0x0⟩ /- CTL_RMA_NOTICE_WAIT -/,
  ⟨0x1191C, 1, 0x100000000, 1, 0x100000000, false, 0x0, 0x0, 0x0, 0x0, 0x0⟩ /- CTL_RMA_NOTICE_LOST -/,
  ⟨0x11920, 1, 0x100000000, 1, 0x100000000, false, 0x0, 0x0, 0x0, 0x0, 0x0⟩ /- CTL_RMA_REGION_MISS -/,
  ⟨0x12000, 1, 0x100000000, 1, 0x100000000, false, 0x0, 0x0, 0x0, 0x0, 0x0⟩ /- CTL_COLL_GROUPS -/,
  ⟨0x12004, 1, 0x100000000, 1, 0x100000000, false, 0x0, 0x0, 0x0, 0x0, 0x0⟩ /- CTL_COLL_STAGING -/,
  ⟨0x12008, 1, 0x100000000, 1, 0x100000000, false, 0x0, 0x0, 0x0, 0x0, 0x0⟩ /- CTL_COLL_OPS -/,
  ⟨0x1200C, 1, 0x100000000, 1, 0x100000000, false, 0x0, 0x0, 0x0, 0x0, 0x0⟩ /- CTL_COLL_MISMATCH -/,
  ⟨0x12010, 1, 0x100000000, 1, 0x100000000, false, 0x0, 0x0, 0x0, 0x0, 0x0⟩ /- CTL_COLL_STAGE_DROP -/,
  ⟨0x12014, 1, 0x100000000, 1, 0x100000000, false, 0x0, 0x0, 0x0, 0x0, 0x0⟩ /- CTL_COLL_STAGE_WAIT -/,
  ⟨0x12018, 1, 0x100000000, 1, 0x100000000, false, 0x0, 0x0, 0x0, 0x0, 0x0⟩ /- CTL_COLL_NONFINITE -/,
  ⟨0x1201C, 1, 0x100000000, 1, 0x100000000, false, 0x0, 0x0, 0x0, 0x0, 0x0⟩ /- CTL_COLL_BROKEN -/,
  ⟨0x12100, 1, 0x100000000, 1, 0x100000000, false, 0x0, 0x0, 0x0, 0x0, 0x1⟩ /- CTL_INSTANCES -/,
  ⟨0x12104, 1, 0x100000000, 1, 0x100000000, false, 0x0, 0x0, 0x0, 0x0, 0x0⟩ /- CTL_INST_LATE_DROP -/,
  ⟨0x12200, 128, 0x4, 1, 0x100000000, false, 0x8000071F, 0x0, 0x0, 0x0, 0x0⟩ /- CTL_INST_MAP -/,
  ⟨0x12400, 128, 0x4, 1, 0x100000000, false, 0x0, 0x0, 0x0, 0x0, 0x0⟩ /- CTL_INST_STATE -/,
  ⟨0x12600, 128, 0x4, 1, 0x100000000, false, 0x0, 0x40000000, 0x0, 0x0, 0x0⟩ /- CTL_INST_LOG -/]

/-- The register table of the PWR block. -/
def regRowsPwr : List RegRow := [
  ⟨0x20000, 1, 0x100000000, 1, 0x100000000, false, 0xFFFF, 0x0, 0x0, 0x0, 0x0⟩ /- PWR_CTRL -/,
  ⟨0x20004, 1, 0x100000000, 1, 0x100000000, false, 0x0, 0x0, 0x0, 0x0, 0x80000040⟩ /- PWR_STATUS -/,
  ⟨0x20008, 1, 0x100000000, 1, 0x100000000, false, 0x0, 0x0, 0x0, 0x0, 0x0⟩ /- PWR_PLL_STOPS -/,
  ⟨0x21000, 64, 0x80, 1, 0x100000000, false, 0x3FF0000, 0x0, 0x0, 0x0, 0xFF0000⟩ /- PWR_TILE_CTRL -/,
  ⟨0x21004, 64, 0x80, 1, 0x100000000, false, 0x0, 0x0, 0x0, 0x3, 0x0⟩ /- PWR_TILE_REQ -/,
  ⟨0x21008, 64, 0x80, 1, 0x100000000, false, 0x0, 0x0, 0x0, 0x0, 0x0⟩ /- PWR_TILE_STATUS -/,
  ⟨0x2100C, 64, 0x80, 1, 0x100000000, false, 0x0, 0x1000, 0x0, 0x0, 0x800⟩ /- PWR_TILE_TEMP -/,
  ⟨0x21010, 64, 0x80, 1, 0x100000000, false, 0x0, 0x0, 0x0, 0x0, 0x0⟩ /- PWR_TILE_ENTRIES -/,
  ⟨0x21014, 64, 0x80, 1, 0x100000000, false, 0x0, 0x0, 0x0, 0x0, 0x0⟩ /- PWR_TILE_ABORTS -/,
  ⟨0x21018, 64, 0x80, 1, 0x100000000, false, 0x0, 0x0, 0x0, 0x0, 0x0⟩ /- PWR_TILE_DROPPED -/,
  ⟨0x2101C, 64, 0x80, 1, 0x100000000, false, 0x0, 0x0, 0x0, 0x0, 0x0⟩ /- PWR_TILE_LATCHED -/,
  ⟨0x21020, 64, 0x80, 1, 0x100000000, false, 0x0, 0x0, 0x0, 0x0, 0x0⟩ /- PWR_TILE_OVERWRITTEN -/,
  ⟨0x21024, 64, 0x80, 1, 0x100000000, false, 0x0, 0x0, 0x0, 0x0, 0x0⟩ /- PWR_TILE_CHECK_FAIL -/,
  ⟨0x21028, 64, 0x80, 1, 0x100000000, false, 0x0, 0x0, 0x0, 0x0, 0x0⟩ /- PWR_TILE_THERMAL_WAKE -/,
  ⟨0x2102C, 64, 0x80, 9, 0x4, false, 0x0, 0x0, 0x0, 0x0, 0x0⟩ /- PWR_TILE_REFUSED -/,
  ⟨0x24000, 512, 0x4, 1, 0x100000000, false, 0x0, 0x0, 0x0, 0x0, 0x0⟩ /- PWR_BANK_CODE -/]

/-- The register table of the TIM block. -/
def regRowsTim : List RegRow := [
  ⟨0x40000, 1, 0x100000000, 1, 0x100000000, false, 0x0, 0x0, 0x0, 0x0, 0x0⟩ /- TIM_NOW_LO -/,
  ⟨0x40004, 1, 0x100000000, 1, 0x100000000, false, 0x0, 0x0, 0x0, 0x0, 0x0⟩ /- TIM_NOW_HI -/,
  ⟨0x40008, 1, 0x100000000, 1, 0x100000000, false, 0xD3FF03FF, 0x0, 0x20000000, 0x0, 0x0⟩ /- TIM_CTRL -/,
  ⟨0x4000C, 1, 0x100000000, 1, 0x100000000, false, 0x0, 0x0, 0x0, 0x0, 0x0⟩ /- TIM_STATUS -/,
  ⟨0x40010, 1, 0x100000000, 1, 0x100000000, false, 0xFFFF, 0x0, 0x0, 0x0, 0x0⟩ /- TIM_ASYM -/,
  ⟨0x40014, 1, 0x100000000, 1, 0x100000000, false, 0x0, 0x0, 0x0, 0x0, 0x0⟩ /- TIM_OFFSET -/,
  ⟨0x40018, 1, 0x100000000, 1, 0x100000000, false, 0x0, 0x0, 0x0, 0x0, 0x0⟩ /- TIM_DELAY -/,
  ⟨0x40020, 1, 0x100000000, 1, 0x100000000, false, 0xFFFFFFFF, 0x0, 0x0, 0x0, 0x0⟩ /- TIM_SET_LO -/,
  ⟨0x40024, 1, 0x100000000, 1, 0x100000000, false, 0xFFFFFFFF, 0x0, 0x0, 0x0, 0x0⟩ /- TIM_SET_HI -/,
  ⟨0x40030, 1, 0x100000000, 1, 0x100000000, false, 0x0, 0x0, 0x0, 0x0, 0x0⟩ /- TIM_SCHED_EPOCH -/,
  ⟨0x40040, 1, 0x100000000, 1, 0x100000000, false, 0x20001FFF, 0x0, 0x80000000, 0x0, 0x0⟩ /- TIM_XSRC_CMD -/,
  ⟨0x40044, 1, 0x100000000, 1, 0x100000000, false, 0x8001FFFF, 0x0, 0x0, 0x0, 0x0⟩ /- TIM_XSRC_DATA0 -/,
  ⟨0x40048, 1, 0x100000000, 1, 0x100000000, false, 0x3FF03FF, 0x0, 0x0, 0x0, 0x0⟩ /- TIM_XSRC_DATA1 -/,
  ⟨0x4004C, 1, 0x100000000, 1, 0x100000000, false, 0x1FFF1FFF, 0x0, 0x0, 0x0, 0x0⟩ /- TIM_XSRC_DATA2 -/,
  ⟨0x40050, 1, 0x100000000, 1, 0x100000000, false, 0x1F0FFF, 0x0, 0x0, 0x0, 0x0⟩ /- TIM_XSRC_DATA3 -/,
  ⟨0x40054, 1, 0x100000000, 1, 0x100000000, false, 0xFFFFFFFF, 0x0, 0x0, 0x0, 0x0⟩ /- TIM_XSRC_DATA4 -/,
  ⟨0x40080, 1, 0x100000000, 1, 0x100000000, false, 0x0, 0x0, 0x0, 0x0, 0x0⟩ /- TIM_OUTLIER_COUNT -/,
  ⟨0x40084, 1, 0x100000000, 1, 0x100000000, false, 0x0, 0x0, 0x0, 0x0, 0x0⟩ /- TIM_TRANSIT_DROP -/,
  ⟨0x40088, 1, 0x100000000, 1, 0x100000000, false, 0x0, 0x0, 0x0, 0x0, 0x0⟩ /- TIM_COLLIDE -/,
  ⟨0x4008C, 1, 0x100000000, 1, 0x100000000, false, 0x0, 0x0, 0x0, 0x0, 0x0⟩ /- TIM_NOT_ADMITTED -/,
  ⟨0x40090, 1, 0x100000000, 1, 0x100000000, false, 0x0, 0x0, 0x0, 0x0, 0x0⟩ /- TIM_DEADLINE_MISSED -/,
  ⟨0x40094, 1, 0x100000000, 1, 0x100000000, false, 0x0, 0x0, 0x0, 0x0, 0x0⟩ /- TIM_BACKUP_SWITCH -/,
  ⟨0x40098, 1, 0x100000000, 1, 0x100000000, false, 0x0, 0x0, 0x0, 0x0, 0x0⟩ /- TIM_LAUNCH_UNSYNC -/,
  ⟨0x4009C, 1, 0x100000000, 1, 0x100000000, false, 0x0, 0x0, 0x0, 0x0, 0x0⟩ /- TIM_XSRC_CONFLICT -/]

/-- The register table of the CNT block. -/
def regRowsCnt : List RegRow := [
  ⟨0x51000, 146, 0x40, 8, 0x8, false, 0xE0FF00FF, 0x10000000, 0x0, 0x0, 0x0⟩ /- CNT_SEL -/,
  ⟨0x51004, 146, 0x40, 8, 0x8, false, 0xFFFFFFFF, 0x0, 0x0, 0x0, 0x0⟩ /- CNT_VAL -/,
  ⟨0x54000, 8, 0x80, 32, 0x4, false, 0x0, 0x0, 0x0, 0x0, 0x0⟩ /- CNT_HIST -/,
  ⟨0x50000, 1, 0x100000000, 1, 0x100000000, false, 0xC000FFFF, 0x0, 0x0, 0x0, 0x1⟩ /- CNT_CTRL -/,
  ⟨0x50008, 1, 0x100000000, 1, 0x100000000, true, 0xFFFFFFFFFFFFF000, 0x0, 0x0, 0x0, 0x0⟩ /- CNT_RING_BASE -/,
  ⟨0x50010, 1, 0x100000000, 1, 0x100000000, false, 0xFFFF, 0x0, 0x0, 0x0, 0x1502⟩ /- CNT_RING_CFG -/,
  ⟨0x50014, 1, 0x100000000, 1, 0x100000000, false, 0x0, 0x0, 0x0, 0x0, 0x0⟩ /- CNT_RING_POS -/,
  ⟨0x50018, 1, 0x100000000, 1, 0x100000000, false, 0x0, 0x0, 0x0, 0x0, 0x0⟩ /- CNT_FIXED -/,
  ⟨0x50020, 1, 0x100000000, 1, 0x100000000, false, 0x0, 0x0, 0x0, 0x0, 0x0⟩ /- CNT_DUMPS -/,
  ⟨0x50024, 1, 0x100000000, 1, 0x100000000, false, 0x0, 0x0, 0x0, 0x0, 0x0⟩ /- CNT_SKIP_FULL -/,
  ⟨0x50028, 1, 0x100000000, 1, 0x100000000, false, 0x0, 0x0, 0x0, 0x0, 0x0⟩ /- CNT_SKIP_ECLIPSE -/]

/-- The register table of the LNG block. -/
def regRowsLng : List RegRow := [
  ⟨0x600000, 64, 0x10000, 16, 0x100, false, 0xBFF00000, 0x0, 0x40000000, 0x0, 0x80000000⟩ /- LNG_LANE_CTRL -/,
  ⟨0x600004, 64, 0x10000, 16, 0x100, false, 0x0, 0x0, 0x0, 0x0, 0x20000000⟩ /- LNG_LANE_STATUS -/,
  ⟨0x600008, 64, 0x10000, 16, 0x100, false, 0x0, 0x0, 0x0, 0x0, 0x0⟩ /- LNG_LANE_PEER -/,
  ⟨0x600020, 64, 0x10000, 16, 0x100, false, 0x0, 0x0, 0x0, 0x0, 0x0⟩ /- LNG_FEC_CORR -/,
  ⟨0x600024, 64, 0x10000, 16, 0x100, false, 0x0, 0x0, 0x0, 0x0, 0x0⟩ /- LNG_FEC_UNCORR -/,
  ⟨0x600028, 64, 0x10000, 16, 0x100, false, 0x0, 0x0, 0x0, 0x0, 0x0⟩ /- LNG_STUFF -/,
  ⟨0x60002C, 64, 0x10000, 16, 0x100, false, 0x0, 0x0, 0x0, 0x0, 0x0⟩ /- LNG_STUFF_OVERRUN -/,
  ⟨0x600030, 64, 0x10000, 16, 0x100, false, 0x0, 0x0, 0x0, 0x0, 0x0⟩ /- LNG_SLIP -/,
  ⟨0x600034, 64, 0x10000, 16, 0x100, false, 0x0, 0x0, 0x0, 0x0, 0x0⟩ /- LNG_REPLAY -/,
  ⟨0x600038, 64, 0x10000, 16, 0x100, false, 0x0, 0x0, 0x0, 0x0, 0x0⟩ /- LNG_RETRY_FULL -/,
  ⟨0x60003C, 64, 0x10000, 16, 0x100, false, 0x0, 0x0, 0x0, 0x0, 0x0⟩ /- LNG_TRAIN_FAIL -/,
  ⟨0x600040, 64, 0x10000, 16, 0x100, false, 0x0, 0x0, 0x0, 0x0, 0x0⟩ /- LNG_LINK_LOST -/,
  ⟨0x600044, 64, 0x10000, 16, 0x100, false, 0x0, 0x0, 0x0, 0x0, 0x0⟩ /- LNG_CTRL_BAD -/,
  ⟨0x600048, 64, 0x10000, 16, 0x100, false, 0x0, 0x0, 0x0, 0x0, 0x0⟩ /- LNG_PHASE_REFUSED -/]

/-- The register table of the HPT block. -/
def regRowsHpt : List RegRow := [
  ⟨0xA00000, 8, 0x10000, 1, 0x100000000, false, 0xE00F0000, 0x0, 0x10000000, 0x0, 0x40000000⟩ /- HPT_CTRL -/,
  ⟨0xA00004, 8, 0x10000, 1, 0x100000000, false, 0x0, 0x0, 0x0, 0x0, 0x0⟩ /- HPT_STATUS -/,
  ⟨0xA00010, 8, 0x10000, 1, 0x100000000, false, 0x0, 0x0, 0x0, 0x0, 0x0⟩ /- HPT_PORT_RESET -/,
  ⟨0xA00014, 8, 0x10000, 1, 0x100000000, false, 0x0, 0x0, 0x0, 0x0, 0x0⟩ /- HPT_FLR -/,
  ⟨0xA00018, 8, 0x10000, 1, 0x100000000, false, 0x0, 0x0, 0x0, 0x0, 0x0⟩ /- HPT_SUSPEND_DROP -/,
  ⟨0xA0001C, 8, 0x10000, 1, 0x100000000, false, 0x0, 0x0, 0x0, 0x0, 0x0⟩ /- HPT_ATOMIC_UR -/]

/-- The register table of the MEM block. -/
def regRowsMem : List RegRow := [
  ⟨0xB00000, 1, 0x100000000, 1, 0x100000000, false, 0x80000011, 0x0, 0x0, 0x0, 0x11⟩ /- MEM_CTRL -/,
  ⟨0xB00004, 1, 0x100000000, 1, 0x100000000, false, 0x0, 0x0, 0x0, 0x0, 0xF⟩ /- MEM_STATUS -/,
  ⟨0xB00008, 1, 0x100000000, 1, 0x100000000, true, 0xFFFFFFFFC0000001, 0x0, 0x0, 0x0, 0x0⟩ /- MEM_HOST_BASE -/,
  ⟨0xB00010, 1, 0x100000000, 1, 0x100000000, false, 0x0, 0x0, 0x0, 0x0, 0xB40⟩ /- MEM_HOST_SIZE -/,
  ⟨0xB00020, 1, 0x100000000, 1, 0x100000000, false, 0x0, 0x0, 0x0, 0x0, 0x0⟩ /- MEM_CORRECTED -/,
  ⟨0xB00024, 1, 0x100000000, 1, 0x100000000, false, 0x0, 0x0, 0x0, 0x0, 0x0⟩ /- MEM_UNCORRECTED -/,
  ⟨0xB00028, 1, 0x100000000, 1, 0x100000000, false, 0x0, 0x0, 0x0, 0x0, 0x0⟩ /- MEM_LOST -/,
  ⟨0xB0002C, 1, 0x100000000, 1, 0x100000000, false, 0x0, 0x0, 0x0, 0x0, 0x0⟩ /- MEM_RETRAIN -/]

/-- The register table of the ATU block. -/
def regRowsAtu : List RegRow := [
  ⟨0xC00000, 1, 0x100000000, 1, 0x100000000, false, 0xFFFF, 0x0, 0x0, 0x0, 0x0⟩ /- ATU_HOST_PATH -/,
  ⟨0xC00004, 1, 0x100000000, 1, 0x100000000, false, 0x0, 0x0, 0x0, 0x0, 0x0⟩ /- ATU_HELD -/,
  ⟨0xC00008, 1, 0x100000000, 1, 0x100000000, false, 0x0, 0x0, 0x0, 0x0, 0x0⟩ /- ATU_WAITING -/,
  ⟨0xC00010, 1, 0x100000000, 1, 0x100000000, false, 0x0, 0x0, 0x0, 0x0, 0x0⟩ /- ATU_OPS -/,
  ⟨0xC00014, 1, 0x100000000, 1, 0x100000000, false, 0x0, 0x0, 0x0, 0x0, 0x0⟩ /- ATU_ABANDONED -/,
  ⟨0xC00018, 1, 0x100000000, 1, 0x100000000, false, 0x0, 0x0, 0x0, 0x0, 0x0⟩ /- ATU_RETRY -/,
  ⟨0xC0001C, 1, 0x100000000, 1, 0x100000000, false, 0x0, 0x0, 0x0, 0x0, 0x0⟩ /- ATU_WITHDRAWN -/,
  ⟨0xC00020, 1, 0x100000000, 1, 0x100000000, false, 0x0, 0x0, 0x0, 0x0, 0x0⟩ /- ATU_TABLE_FULL -/,
  ⟨0xC00024, 1, 0x100000000, 1, 0x100000000, false, 0x0, 0x0, 0x0, 0x0, 0x0⟩ /- ATU_WAIT_LIMIT -/,
  ⟨0xC00028, 1, 0x100000000, 1, 0x100000000, false, 0x0, 0x0, 0x0, 0x0, 0x0⟩ /- ATU_MISMATCH -/,
  ⟨0xC0002C, 1, 0x100000000, 1, 0x100000000, false, 0x0, 0x0, 0x0, 0x0, 0x0⟩ /- ATU_INHERIT -/,
  ⟨0xC00030, 1, 0x100000000, 1, 0x100000000, false, 0x0, 0x0, 0x0, 0x0, 0x0⟩ /- ATU_SLOT_WAIT -/,
  ⟨0xC00034, 1, 0x100000000, 1, 0x100000000, false, 0x0, 0x0, 0x0, 0x0, 0x0⟩ /- ATU_PATH_FAIL -/]

/-- The register table of the XLT block. -/
def regRowsXlt : List RegRow := [
  ⟨0xD00000, 1, 0x100000000, 1, 0x100000000, false, 0xFF, 0x0, 0x80000000, 0x0, 0x0⟩ /- XLT_CTRL -/,
  ⟨0xD00008, 1, 0x100000000, 1, 0x100000000, true, 0x0, 0x0, 0x0, 0x0, 0x0⟩ /- XLT_FAULT_VA -/,
  ⟨0xD00010, 1, 0x100000000, 1, 0x100000000, false, 0x0, 0x0, 0x0, 0x0, 0x0⟩ /- XLT_FAULT_INFO -/,
  ⟨0xD00100, 32, 0x10, 1, 0x100000000, true, 0xFFFFFFFFFF001, 0x0, 0x0, 0x0, 0x0⟩ /- XLT_DEV_BASE -/,
  ⟨0xD00108, 32, 0x10, 1, 0x100000000, true, 0xFFFFFFFFFF000, 0x0, 0x0, 0x0, 0x0⟩ /- XLT_DEV_LIM -/,
  ⟨0xD00040, 1, 0x100000000, 1, 0x100000000, false, 0x0, 0x0, 0x0, 0x0, 0x0⟩ /- XLT_MISS -/,
  ⟨0xD00044, 1, 0x100000000, 1, 0x100000000, false, 0x0, 0x0, 0x0, 0x0, 0x0⟩ /- XLT_WALK_READ -/,
  ⟨0xD00048, 1, 0x100000000, 1, 0x100000000, false, 0x0, 0x0, 0x0, 0x0, 0x0⟩ /- XLT_FAULT -/,
  ⟨0xD0004C, 1, 0x100000000, 1, 0x100000000, false, 0x0, 0x0, 0x0, 0x0, 0x0⟩ /- XLT_DEVICE -/,
  ⟨0xD00050, 1, 0x100000000, 1, 0x100000000, false, 0x0, 0x0, 0x0, 0x0, 0x0⟩ /- XLT_DIRTY_SET -/,
  ⟨0xD00054, 1, 0x100000000, 1, 0x100000000, false, 0x0, 0x0, 0x0, 0x0, 0x0⟩ /- XLT_RACE -/,
  ⟨0xD00058, 1, 0x100000000, 1, 0x100000000, false, 0x0, 0x0, 0x0, 0x0, 0x0⟩ /- XLT_INVAL -/]

/-- The register table of the INJ block. -/
def regRowsInj : List RegRow := [
  ⟨0xE00000, 1, 0x100000000, 1, 0x100000000, false, 0xFFF0FFFF, 0x0, 0x0, 0x0, 0x10001000⟩ /- INJ_CTRL -/,
  ⟨0xE00004, 1, 0x100000000, 1, 0x100000000, false, 0xFFFFFFFF, 0x0, 0x0, 0x0, 0x8080808⟩ /- INJ_WEIGHT0 -/,
  ⟨0xE00008, 1, 0x100000000, 1, 0x100000000, false, 0xFF, 0x0, 0x0, 0x0, 0x8⟩ /- INJ_WEIGHT1 -/,
  ⟨0xE0000C, 1, 0x100000000, 1, 0x100000000, false, 0x1FFF, 0x0, 0x0, 0x0, 0x0⟩ /- INJ_SAMPLE -/,
  ⟨0xE00010, 1, 0x100000000, 1, 0x100000000, false, 0x0, 0x0, 0x0, 0x0, 0x0⟩ /- INJ_FORFEIT -/,
  ⟨0xE00014, 1, 0x100000000, 1, 0x100000000, false, 0x0, 0x0, 0x0, 0x0, 0x0⟩ /- INJ_YEL_DEFER -/,
  ⟨0xE00018, 1, 0x100000000, 1, 0x100000000, false, 0x0, 0x0, 0x0, 0x0, 0x0⟩ /- INJ_CHUNKS -/,
  ⟨0xE0001C, 1, 0x100000000, 1, 0x100000000, false, 0x0, 0x0, 0x0, 0x0, 0x0⟩ /- INJ_LAUNCH_GRANT -/,
  ⟨0xE01000, 128, 0x100, 8, 0x20, false, 0xC00FFFFF, 0x0, 0x0, 0x0, 0x0⟩ /- INJ_POL_CTRL -/,
  ⟨0xE01004, 128, 0x100, 8, 0x20, false, 0xFFFFF, 0x0, 0x0, 0x0, 0x0⟩ /- INJ_POL_PIR -/,
  ⟨0xE01008, 128, 0x100, 8, 0x20, false, 0xFFFFFFFF, 0x0, 0x0, 0x0, 0x0⟩ /- INJ_POL_CBS -/,
  ⟨0xE0100C, 128, 0x100, 8, 0x20, false, 0xFFFFFFFF, 0x0, 0x0, 0x0, 0x0⟩ /- INJ_POL_PBS -/,
  ⟨0xE01010, 128, 0x100, 8, 0x20, false, 0x0, 0x0, 0x0, 0x0, 0x0⟩ /- INJ_POL_GREEN -/,
  ⟨0xE01014, 128, 0x100, 8, 0x20, false, 0x0, 0x0, 0x0, 0x0, 0x0⟩ /- INJ_POL_YELLOW -/,
  ⟨0xE01018, 128, 0x100, 8, 0x20, false, 0x0, 0x0, 0x0, 0x0, 0x0⟩ /- INJ_POL_RED -/]

/-- The register table of the MGT block. -/
def regRowsMgt : List RegRow := [
  ⟨0xF0F080, 1, 0x100000000, 1, 0x100000000, false, 0x80000003, 0x0, 0x0, 0x0, 0x3⟩ /- MGT_FLT_PIN -/,
  ⟨0xF0F084, 1, 0x100000000, 1, 0x100000000, false, 0x0, 0x0, 0x0, 0x0, 0x0⟩ /- MGT_FLT_PULSES -/,
  ⟨0xF00000, 1, 0x100000000, 1, 0x100000000, false, 0x40000000, 0x0, 0x80000000, 0x0, 0x40000000⟩ /- MGT_CTRL -/,
  ⟨0xF00004, 1, 0x100000000, 1, 0x100000000, false, 0x0, 0x0, 0x0, 0x0, 0x9000000⟩ /- MGT_STATUS -/,
  ⟨0xF00008, 1, 0x100000000, 1, 0x100000000, false, 0x0, 0x0, 0x0, 0x0, 0x0⟩ /- MGT_LEVEL -/,
  ⟨0xF00010, 1, 0x100000000, 1, 0x100000000, false, 0xA0000007, 0x0, 0x0, 0x0, 0x20000000⟩ /- MGT_PROFILE_CTRL -/,
  ⟨0xF00014, 1, 0x100000000, 1, 0x100000000, false, 0xFFFFFFFF, 0x0, 0x0, 0x0, 0x0⟩ /- MGT_PROFILE_RPLAN -/,
  ⟨0xF00018, 1, 0x100000000, 1, 0x100000000, false, 0xFFFFFFFF, 0x0, 0x0, 0x0, 0x0⟩ /- MGT_PROFILE_SPLAN -/,
  ⟨0xF00020, 1, 0x100000000, 1, 0x100000000, true, 0xFFFFFFFFFFFFFFFF, 0x0, 0x0, 0x0, 0x0⟩ /- MGT_ROOT_ID -/,
  ⟨0xF00028, 1, 0x100000000, 1, 0x100000000, true, 0x0, 0x0, 0x0, 0x0, 0x0⟩ /- MGT_DIGEST -/,
  ⟨0xF00034, 1, 0x100000000, 1, 0x100000000, false, 0x0, 0x0, 0x0, 0x0, 0x0⟩ /- MGT_DIGEST_DISAGREE -/,
  ⟨0xF00040, 1, 0x100000000, 1, 0x100000000, false, 0x0, 0x0, 0x0, 0x0, 0x0⟩ /- MGT_PLAN_ROUTE0 -/,
  ⟨0xF00044, 1, 0x100000000, 1, 0x100000000, false, 0x0, 0x0, 0x0, 0x0, 0x0⟩ /- MGT_PLAN_ROUTE1 -/,
  ⟨0xF00048, 1, 0x100000000, 1, 0x100000000, false, 0x0, 0x0, 0x0, 0x0, 0x0⟩ /- MGT_PLAN_SCHED0 -/,
  ⟨0xF0004C, 1, 0x100000000, 1, 0x100000000, false, 0x0, 0x0, 0x0, 0x0, 0x0⟩ /- MGT_PLAN_SCHED1 -/,
  ⟨0xF00030, 1, 0x100000000, 1, 0x100000000, false, 0x0, 0x0, 0x0, 0x0, 0x0⟩ /- MGT_AGREE_LAST -/]

/-- The register table of the WIN block. -/
def regRowsWin : List RegRow := [
  ⟨0x100000000, 128, 0x10000, 256, 0x40, false, 0xFFFFFFFF, 0x0, 0x0, 0x0, 0x0⟩ /- ATU_LK_KEY -/,
  ⟨0x100000004, 128, 0x10000, 256, 0x40, false, 0xFFFF0007, 0x0, 0x0, 0x0, 0x0⟩ /- ATU_LK_CTRL -/,
  ⟨0x100000008, 128, 0x10000, 256, 0x40, true, 0xFFFFFFFFFFFF, 0x0, 0x0, 0x0, 0x0⟩ /- ATU_LK_OFFSET -/,
  ⟨0x100000010, 128, 0x10000, 256, 0x40, true, 0x0, 0x0, 0x0, 0x0, 0x0⟩ /- ATU_LK_ACQUIRE -/,
  ⟨0x100000018, 128, 0x10000, 256, 0x40, false, 0x0, 0x0, 0x0, 0xFFFFFFFF, 0x0⟩ /- ATU_LK_RELEASE -/,
  ⟨0x100000020, 128, 0x10000, 256, 0x40, false, 0x0, 0x0, 0x0, 0x0, 0x0⟩ /- ATU_LK_STATUS -/,
  ⟨0x100008000, 128, 0x10000, 16, 0x20, true, 0xFFFFFFFFF000, 0x0, 0x0, 0x0, 0x0⟩ /- XLT_EXT_VBASE -/,
  ⟨0x100008008, 128, 0x10000, 16, 0x20, true, 0x1FFFFFFFFF000, 0x0, 0x0, 0x0, 0x0⟩ /- XLT_EXT_LENGTH -/,
  ⟨0x100008010, 128, 0x10000, 16, 0x20, true, 0xFFFFFFFFFF000, 0x0, 0x0, 0x0, 0x0⟩ /- XLT_EXT_PBASE -/,
  ⟨0x100008018, 128, 0x10000, 16, 0x20, false, 0x80000002, 0x0, 0x0, 0x0, 0x0⟩ /- XLT_EXT_CTRL -/,
  ⟨0x100004000, 128, 0x10000, 8, 0x8, true, 0x0, 0x0, 0x0, 0x0, 0x0⟩ /- CNT_INST_S -/,
  ⟨0x100004400, 128, 0x10000, 256, 0x4, false, 0x0, 0x0, 0x0, 0x0, 0x0⟩ /- CNT_INST_HIST -/]

/-- The fault registers that every block has (18 R512), by block offset. -/
def regRowsFlt : List RegRow := [
  ⟨0xF000, 1, 0x100000000, 1, 0x100000000, false, 0x0, 0xFFFFFFFF, 0x0, 0x0, 0x0⟩,
  ⟨0xF004, 1, 0x100000000, 1, 0x100000000, false, 0xFFFFFFFF, 0x0, 0x0, 0x0, 0x0⟩,
  ⟨0xF008, 1, 0x100000000, 1, 0x100000000, false, 0x0, 0x0, 0x0, 0xFFFFFFFF, 0x0⟩,
  ⟨0xF00C, 1, 0x100000000, 1, 0x100000000, false, 0x0, 0x7, 0x0, 0x0, 0x0⟩,
  ⟨0xF010, 1, 0x100000000, 1, 0x100000000, false, 0x7, 0x0, 0x0, 0x0, 0x6⟩,
  ⟨0xF014, 1, 0x100000000, 1, 0x100000000, false, 0x0, 0x80000000, 0x0, 0x0, 0x0⟩,
  ⟨0xF018, 1, 0x100000000, 1, 0x100000000, false, 0x0, 0x0, 0x0, 0x0, 0x0⟩,
  ⟨0xF01C, 1, 0x100000000, 1, 0x100000000, false, 0x0, 0x0, 0x0, 0x0, 0x0⟩,
  ⟨0xF020, 1, 0x100000000, 1, 0x100000000, false, 0x0, 0x0, 0x0, 0x0, 0x0⟩,
  ⟨0xF024, 1, 0x100000000, 1, 0x100000000, false, 0x0, 0x0, 0x0, 0x0, 0x0⟩,
  ⟨0xF028, 1, 0x100000000, 1, 0x100000000, false, 0x0, 0x0, 0x0, 0x0, 0x0⟩,
  ⟨0xF02C, 1, 0x100000000, 1, 0x100000000, false, 0x0, 0x0, 0x0, 0x0, 0x0⟩,
  ⟨0xF030, 1, 0x100000000, 1, 0x100000000, false, 0x0, 0x0, 0x0, 0x0, 0x0⟩,
  ⟨0xF034, 1, 0x100000000, 1, 0x100000000, false, 0x0, 0x0, 0x0, 0x0, 0x0⟩]

/-- `CTL_POLL_DEMAND` (02_work_queues.md R51, 32 bits). -/
def Reg.CTL_POLL_DEMAND : Nat := 0x10800

/-- `CTL_POLL_FLOOR` (02_work_queues.md R51, 32 bits). -/
def Reg.CTL_POLL_FLOOR : Nat := 0x10804

/-- `CTL_POLL_STRETCH` (02_work_queues.md R51, 32 bits). -/
def Reg.CTL_POLL_STRETCH : Nat := 0x10808

/-- `CTL_CQ_WAIT` (02_work_queues.md R51, 32 bits). -/
def Reg.CTL_CQ_WAIT : Nat := 0x1080C

/-- `CTL_OWNER` (03_admin_commands.md R78, 32 bits). -/
def Reg.CTL_OWNER : Nat := 0x10000

/-- `CTL_AQ_CTRL` (03_admin_commands.md R78, 32 bits). -/
def Reg.CTL_AQ_CTRL : Nat := 0x10004

/-- `CTL_AQ_BASE` (03_admin_commands.md R78, 64 bits). -/
def Reg.CTL_AQ_BASE : Nat := 0x10008

/-- `CTL_ACQ_BASE` (03_admin_commands.md R78, 64 bits). -/
def Reg.CTL_ACQ_BASE : Nat := 0x10010

/-- `CTL_AQ_ACTIVE` (03_admin_commands.md R78, 32 bits). -/
def Reg.CTL_AQ_ACTIVE : Nat := 0x10018

/-- `CTL_ENDPOINT` (04_cells_and_routing.md R148, 32 bits). -/
def Reg.CTL_ENDPOINT : Nat := 0x10A00

/-- `CTL_ROUTE_CTRL` (04_cells_and_routing.md R148, 32 bits). -/
def Reg.CTL_ROUTE_CTRL : Nat := 0x10A04

/-- `CTL_ROUTE_EPOCH` (04_cells_and_routing.md R148, 32 bits). -/
def Reg.CTL_ROUTE_EPOCH : Nat := 0x10A08

/-- `CTL_ROUTE_INFLIGHT0` (04_cells_and_routing.md R148, 32 bits). -/
def Reg.CTL_ROUTE_INFLIGHT0 : Nat := 0x10A0C

/-- `CTL_ROUTE_INFLIGHT1` (04_cells_and_routing.md R148, 32 bits). -/
def Reg.CTL_ROUTE_INFLIGHT1 : Nat := 0x10A10

/-- `CTL_DROP_EPOCH` (04_cells_and_routing.md R148, 32 bits). -/
def Reg.CTL_DROP_EPOCH : Nat := 0x10A14

/-- `CTL_DROP_HOP` (04_cells_and_routing.md R148, 32 bits). -/
def Reg.CTL_DROP_HOP : Nat := 0x10A18

/-- `CTL_DROP_NOROUTE` (04_cells_and_routing.md R148, 32 bits). -/
def Reg.CTL_DROP_NOROUTE : Nat := 0x10A1C

/-- `CTL_DROP_LINK` (04_cells_and_routing.md R148, 32 bits). -/
def Reg.CTL_DROP_LINK : Nat := 0x10A20

/-- `CTL_DROP_FORMAT` (04_cells_and_routing.md R148, 32 bits). -/
def Reg.CTL_DROP_FORMAT : Nat := 0x10A24

/-- `CTL_CRC_FWD` (04_cells_and_routing.md R148, 32 bits). -/
def Reg.CTL_CRC_FWD : Nat := 0x10A28

/-- `CTL_CRC_DROP` (04_cells_and_routing.md R148, 32 bits). -/
def Reg.CTL_CRC_DROP : Nat := 0x10A2C

/-- `CTL_NM_PICKS` (04_cells_and_routing.md R148, 32 bits). -/
def Reg.CTL_NM_PICKS : Nat := 0x10A30

/-- `TIM_NOW_LO` (05_fabric_time_and_transits.md R194, 32 bits). -/
def Reg.TIM_NOW_LO : Nat := 0x40000

/-- `TIM_NOW_HI` (05_fabric_time_and_transits.md R194, 32 bits). -/
def Reg.TIM_NOW_HI : Nat := 0x40004

/-- `TIM_CTRL` (05_fabric_time_and_transits.md R194, 32 bits). -/
def Reg.TIM_CTRL : Nat := 0x40008

/-- `TIM_STATUS` (05_fabric_time_and_transits.md R194, 32 bits). -/
def Reg.TIM_STATUS : Nat := 0x4000C

/-- `TIM_ASYM` (05_fabric_time_and_transits.md R194, 32 bits). -/
def Reg.TIM_ASYM : Nat := 0x40010

/-- `TIM_OFFSET` (05_fabric_time_and_transits.md R194, 32 bits). -/
def Reg.TIM_OFFSET : Nat := 0x40014

/-- `TIM_DELAY` (05_fabric_time_and_transits.md R194, 32 bits). -/
def Reg.TIM_DELAY : Nat := 0x40018

/-- `TIM_SET_LO` (05_fabric_time_and_transits.md R194, 32 bits). -/
def Reg.TIM_SET_LO : Nat := 0x40020

/-- `TIM_SET_HI` (05_fabric_time_and_transits.md R194, 32 bits). -/
def Reg.TIM_SET_HI : Nat := 0x40024

/-- `TIM_SCHED_EPOCH` (05_fabric_time_and_transits.md R194, 32 bits). -/
def Reg.TIM_SCHED_EPOCH : Nat := 0x40030

/-- `TIM_XSRC_CMD` (05_fabric_time_and_transits.md R194, 32 bits). -/
def Reg.TIM_XSRC_CMD : Nat := 0x40040

/-- `TIM_XSRC_DATA0` (05_fabric_time_and_transits.md R194, 32 bits). -/
def Reg.TIM_XSRC_DATA0 : Nat := 0x40044

/-- `TIM_XSRC_DATA1` (05_fabric_time_and_transits.md R194, 32 bits). -/
def Reg.TIM_XSRC_DATA1 : Nat := 0x40048

/-- `TIM_XSRC_DATA2` (05_fabric_time_and_transits.md R194, 32 bits). -/
def Reg.TIM_XSRC_DATA2 : Nat := 0x4004C

/-- `TIM_XSRC_DATA3` (05_fabric_time_and_transits.md R194, 32 bits). -/
def Reg.TIM_XSRC_DATA3 : Nat := 0x40050

/-- `TIM_XSRC_DATA4` (05_fabric_time_and_transits.md R194, 32 bits). -/
def Reg.TIM_XSRC_DATA4 : Nat := 0x40054

/-- `TIM_OUTLIER_COUNT` (05_fabric_time_and_transits.md R195, 32 bits). -/
def Reg.TIM_OUTLIER_COUNT : Nat := 0x40080

/-- `TIM_TRANSIT_DROP` (05_fabric_time_and_transits.md R195, 32 bits). -/
def Reg.TIM_TRANSIT_DROP : Nat := 0x40084

/-- `TIM_COLLIDE` (05_fabric_time_and_transits.md R195, 32 bits). -/
def Reg.TIM_COLLIDE : Nat := 0x40088

/-- `TIM_NOT_ADMITTED` (05_fabric_time_and_transits.md R195, 32 bits). -/
def Reg.TIM_NOT_ADMITTED : Nat := 0x4008C

/-- `TIM_DEADLINE_MISSED` (05_fabric_time_and_transits.md R195, 32 bits). -/
def Reg.TIM_DEADLINE_MISSED : Nat := 0x40090

/-- `TIM_BACKUP_SWITCH` (05_fabric_time_and_transits.md R195, 32 bits). -/
def Reg.TIM_BACKUP_SWITCH : Nat := 0x40094

/-- `TIM_LAUNCH_UNSYNC` (05_fabric_time_and_transits.md R195, 32 bits). -/
def Reg.TIM_LAUNCH_UNSYNC : Nat := 0x40098

/-- `TIM_XSRC_CONFLICT` (05_fabric_time_and_transits.md R195, 32 bits). -/
def Reg.TIM_XSRC_CONFLICT : Nat := 0x4009C

/-- `CTL_XPT_RETRY` (06_ahning_transport.md R240, 32 bits). -/
def Reg.CTL_XPT_RETRY (c : Nat) : Nat := 0x10C00 + 0x4 * c

/-- `CTL_JRNL_CTRL` (06_ahning_transport.md R240, 32 bits). -/
def Reg.CTL_JRNL_CTRL : Nat := 0x10C40

/-- `CTL_JRNL_CHIP` (06_ahning_transport.md R240, 64 bits). -/
def Reg.CTL_JRNL_CHIP : Nat := 0x10C48

/-- `CTL_JRNL_INST` (06_ahning_transport.md R240, 64 bits). -/
def Reg.CTL_JRNL_INST (i : Nat) : Nat := 0x11000 + 0x8 * i

/-- `CTL_XPT_DUP` (06_ahning_transport.md R240, 32 bits). -/
def Reg.CTL_XPT_DUP : Nat := 0x10C80

/-- `CTL_XPT_OOW` (06_ahning_transport.md R240, 32 bits). -/
def Reg.CTL_XPT_OOW : Nat := 0x10C84

/-- `CTL_XPT_NOCTX` (06_ahning_transport.md R240, 32 bits). -/
def Reg.CTL_XPT_NOCTX : Nat := 0x10C88

/-- `CTL_XPT_GEN_DROP` (06_ahning_transport.md R240, 32 bits). -/
def Reg.CTL_XPT_GEN_DROP : Nat := 0x10C8C

/-- `CTL_XPT_SEG_DROP` (06_ahning_transport.md R240, 32 bits). -/
def Reg.CTL_XPT_SEG_DROP : Nat := 0x10C90

/-- `CTL_XPT_HOLD_DROP` (06_ahning_transport.md R240, 32 bits). -/
def Reg.CTL_XPT_HOLD_DROP : Nat := 0x10C94

/-- `CTL_XPT_CTX_MISS` (06_ahning_transport.md R240, 32 bits). -/
def Reg.CTL_XPT_CTX_MISS : Nat := 0x10C98

/-- `CTL_XPT_PROBE` (06_ahning_transport.md R240, 32 bits). -/
def Reg.CTL_XPT_PROBE : Nat := 0x10C9C

/-- `CTL_XPT_RESEND` (06_ahning_transport.md R240, 32 bits). -/
def Reg.CTL_XPT_RESEND : Nat := 0x10CA0

/-- `CTL_XPT_UNREACH` (06_ahning_transport.md R240, 32 bits). -/
def Reg.CTL_XPT_UNREACH : Nat := 0x10CA4

/-- `CTL_MATCH_ONDIE` (07_message_matching.md R277, 32 bits). -/
def Reg.CTL_MATCH_ONDIE : Nat := 0x11800

/-- `CTL_MATCH_OVERFLOW` (07_message_matching.md R277, 32 bits). -/
def Reg.CTL_MATCH_OVERFLOW : Nat := 0x11804

/-- `CTL_MATCH_UNEXP` (07_message_matching.md R277, 32 bits). -/
def Reg.CTL_MATCH_UNEXP : Nat := 0x11808

/-- `CTL_MATCH_BLOCKS` (07_message_matching.md R277, 32 bits). -/
def Reg.CTL_MATCH_BLOCKS : Nat := 0x1180C

/-- `CTL_MATCH_COUNT` (07_message_matching.md R277, 32 bits). -/
def Reg.CTL_MATCH_COUNT : Nat := 0x11810

/-- `CTL_MATCH_STORED` (07_message_matching.md R277, 32 bits). -/
def Reg.CTL_MATCH_STORED : Nat := 0x11814

/-- `CTL_MATCH_HELD` (07_message_matching.md R277, 32 bits). -/
def Reg.CTL_MATCH_HELD : Nat := 0x11818

/-- `CTL_MATCH_OVF_READ` (07_message_matching.md R277, 32 bits). -/
def Reg.CTL_MATCH_OVF_READ : Nat := 0x1181C

/-- `CTL_MATCH_UNEXP_FULL` (07_message_matching.md R277, 32 bits). -/
def Reg.CTL_MATCH_UNEXP_FULL : Nat := 0x11820

/-- `CTL_MATCH_POST_WAIT` (07_message_matching.md R277, 32 bits). -/
def Reg.CTL_MATCH_POST_WAIT : Nat := 0x11824

/-- `CTL_MATCH_TRUNC` (07_message_matching.md R277, 32 bits). -/
def Reg.CTL_MATCH_TRUNC : Nat := 0x11828

/-- `CTL_MATCH_CANCEL` (07_message_matching.md R277, 32 bits). -/
def Reg.CTL_MATCH_CANCEL : Nat := 0x1182C

/-- `CTL_MATCH_BADPROTO` (07_message_matching.md R277, 32 bits). -/
def Reg.CTL_MATCH_BADPROTO : Nat := 0x11830

/-- `CTL_MATCH_PULLS` (07_message_matching.md R277, 32 bits). -/
def Reg.CTL_MATCH_PULLS : Nat := 0x11834

/-- `CTL_IMM_CQ` (08_remote_access_and_protection.md R306, 32 bits). -/
def Reg.CTL_IMM_CQ (i : Nat) : Nat := 0x11A00 + 0x4 * i

/-- `CTL_RMA_KEY_FAULT` (08_remote_access_and_protection.md R306, 32 bits). -/
def Reg.CTL_RMA_KEY_FAULT : Nat := 0x11900

/-- `CTL_RMA_XLT_FAULT` (08_remote_access_and_protection.md R306, 32 bits). -/
def Reg.CTL_RMA_XLT_FAULT : Nat := 0x11904

/-- `CTL_RMA_FAULT_SENT` (08_remote_access_and_protection.md R306, 32 bits). -/
def Reg.CTL_RMA_FAULT_SENT : Nat := 0x11908

/-- `CTL_RMA_DECRYPT_FAIL` (08_remote_access_and_protection.md R306, 32 bits). -/
def Reg.CTL_RMA_DECRYPT_FAIL : Nat := 0x1190C

/-- `CTL_RMA_NO_KEY` (08_remote_access_and_protection.md R306, 32 bits). -/
def Reg.CTL_RMA_NO_KEY : Nat := 0x11910

/-- `CTL_RMA_KEY_SWITCH` (08_remote_access_and_protection.md R306, 32 bits). -/
def Reg.CTL_RMA_KEY_SWITCH : Nat := 0x11914

/-- `CTL_RMA_NOTICE_WAIT` (08_remote_access_and_protection.md R306, 32 bits). -/
def Reg.CTL_RMA_NOTICE_WAIT : Nat := 0x11918

/-- `CTL_RMA_NOTICE_LOST` (08_remote_access_and_protection.md R306, 32 bits). -/
def Reg.CTL_RMA_NOTICE_LOST : Nat := 0x1191C

/-- `CTL_RMA_REGION_MISS` (08_remote_access_and_protection.md R306, 32 bits). -/
def Reg.CTL_RMA_REGION_MISS : Nat := 0x11920

/-- `ATU_LK_KEY` (09_atomics_and_locks.md R323, 32 bits). -/
def Reg.ATU_LK_KEY (i : Nat) (s : Nat) : Nat := 0x100000000 + 0x0 + 0x10000 * i + 0x40 * s

/-- `ATU_LK_CTRL` (09_atomics_and_locks.md R323, 32 bits). -/
def Reg.ATU_LK_CTRL (i : Nat) (s : Nat) : Nat := 0x100000000 + 0x4 + 0x10000 * i + 0x40 * s

/-- `ATU_LK_OFFSET` (09_atomics_and_locks.md R323, 64 bits). -/
def Reg.ATU_LK_OFFSET (i : Nat) (s : Nat) : Nat := 0x100000000 + 0x8 + 0x10000 * i + 0x40 * s

/-- `ATU_LK_ACQUIRE` (09_atomics_and_locks.md R323, 64 bits). -/
def Reg.ATU_LK_ACQUIRE (i : Nat) (s : Nat) : Nat := 0x100000000 + 0x10 + 0x10000 * i + 0x40 * s

/-- `ATU_LK_RELEASE` (09_atomics_and_locks.md R323, 32 bits). -/
def Reg.ATU_LK_RELEASE (i : Nat) (s : Nat) : Nat := 0x100000000 + 0x18 + 0x10000 * i + 0x40 * s

/-- `ATU_LK_STATUS` (09_atomics_and_locks.md R323, 32 bits). -/
def Reg.ATU_LK_STATUS (i : Nat) (s : Nat) : Nat := 0x100000000 + 0x20 + 0x10000 * i + 0x40 * s

/-- `ATU_HOST_PATH` (09_atomics_and_locks.md R332, 32 bits). -/
def Reg.ATU_HOST_PATH : Nat := 0xC00000

/-- `ATU_HELD` (09_atomics_and_locks.md R332, 32 bits). -/
def Reg.ATU_HELD : Nat := 0xC00004

/-- `ATU_WAITING` (09_atomics_and_locks.md R332, 32 bits). -/
def Reg.ATU_WAITING : Nat := 0xC00008

/-- `ATU_OPS` (09_atomics_and_locks.md R332, 32 bits). -/
def Reg.ATU_OPS : Nat := 0xC00010

/-- `ATU_ABANDONED` (09_atomics_and_locks.md R332, 32 bits). -/
def Reg.ATU_ABANDONED : Nat := 0xC00014

/-- `ATU_RETRY` (09_atomics_and_locks.md R332, 32 bits). -/
def Reg.ATU_RETRY : Nat := 0xC00018

/-- `ATU_WITHDRAWN` (09_atomics_and_locks.md R332, 32 bits). -/
def Reg.ATU_WITHDRAWN : Nat := 0xC0001C

/-- `ATU_TABLE_FULL` (09_atomics_and_locks.md R332, 32 bits). -/
def Reg.ATU_TABLE_FULL : Nat := 0xC00020

/-- `ATU_WAIT_LIMIT` (09_atomics_and_locks.md R332, 32 bits). -/
def Reg.ATU_WAIT_LIMIT : Nat := 0xC00024

/-- `ATU_MISMATCH` (09_atomics_and_locks.md R332, 32 bits). -/
def Reg.ATU_MISMATCH : Nat := 0xC00028

/-- `ATU_INHERIT` (09_atomics_and_locks.md R332, 32 bits). -/
def Reg.ATU_INHERIT : Nat := 0xC0002C

/-- `ATU_SLOT_WAIT` (09_atomics_and_locks.md R332, 32 bits). -/
def Reg.ATU_SLOT_WAIT : Nat := 0xC00030

/-- `ATU_PATH_FAIL` (09_atomics_and_locks.md R332, 32 bits). -/
def Reg.ATU_PATH_FAIL : Nat := 0xC00034

/-- `CTL_COLL_GROUPS` (10_collectives.md R365, 32 bits). -/
def Reg.CTL_COLL_GROUPS : Nat := 0x12000

/-- `CTL_COLL_STAGING` (10_collectives.md R365, 32 bits). -/
def Reg.CTL_COLL_STAGING : Nat := 0x12004

/-- `CTL_COLL_OPS` (10_collectives.md R365, 32 bits). -/
def Reg.CTL_COLL_OPS : Nat := 0x12008

/-- `CTL_COLL_MISMATCH` (10_collectives.md R365, 32 bits). -/
def Reg.CTL_COLL_MISMATCH : Nat := 0x1200C

/-- `CTL_COLL_STAGE_DROP` (10_collectives.md R365, 32 bits). -/
def Reg.CTL_COLL_STAGE_DROP : Nat := 0x12010

/-- `CTL_COLL_STAGE_WAIT` (10_collectives.md R365, 32 bits). -/
def Reg.CTL_COLL_STAGE_WAIT : Nat := 0x12014

/-- `CTL_COLL_NONFINITE` (10_collectives.md R365, 32 bits). -/
def Reg.CTL_COLL_NONFINITE : Nat := 0x12018

/-- `CTL_COLL_BROKEN` (10_collectives.md R365, 32 bits). -/
def Reg.CTL_COLL_BROKEN : Nat := 0x1201C

/-- `XLT_EXT_VBASE` (11_address_translation.md R377, 64 bits). -/
def Reg.XLT_EXT_VBASE (i : Nat) (n : Nat) : Nat := 0x100000000 + 0x8000 + 0x10000 * i + 0x20 * n

/-- `XLT_EXT_LENGTH` (11_address_translation.md R377, 64 bits). -/
def Reg.XLT_EXT_LENGTH (i : Nat) (n : Nat) : Nat := 0x100000000 + 0x8008 + 0x10000 * i + 0x20 * n

/-- `XLT_EXT_PBASE` (11_address_translation.md R377, 64 bits). -/
def Reg.XLT_EXT_PBASE (i : Nat) (n : Nat) : Nat := 0x100000000 + 0x8010 + 0x10000 * i + 0x20 * n

/-- `XLT_EXT_CTRL` (11_address_translation.md R377, 32 bits). -/
def Reg.XLT_EXT_CTRL (i : Nat) (n : Nat) : Nat := 0x100000000 + 0x8018 + 0x10000 * i + 0x20 * n

/-- `XLT_CTRL` (11_address_translation.md R383, 32 bits). -/
def Reg.XLT_CTRL : Nat := 0xD00000

/-- `XLT_FAULT_VA` (11_address_translation.md R383, 64 bits). -/
def Reg.XLT_FAULT_VA : Nat := 0xD00008

/-- `XLT_FAULT_INFO` (11_address_translation.md R383, 32 bits). -/
def Reg.XLT_FAULT_INFO : Nat := 0xD00010

/-- `XLT_DEV_BASE` (11_address_translation.md R383, 64 bits). -/
def Reg.XLT_DEV_BASE (n : Nat) : Nat := 0xD00100 + 0x10 * n

/-- `XLT_DEV_LIM` (11_address_translation.md R383, 64 bits). -/
def Reg.XLT_DEV_LIM (n : Nat) : Nat := 0xD00108 + 0x10 * n

/-- `XLT_MISS` (11_address_translation.md R383, 32 bits). -/
def Reg.XLT_MISS : Nat := 0xD00040

/-- `XLT_WALK_READ` (11_address_translation.md R383, 32 bits). -/
def Reg.XLT_WALK_READ : Nat := 0xD00044

/-- `XLT_FAULT` (11_address_translation.md R383, 32 bits). -/
def Reg.XLT_FAULT : Nat := 0xD00048

/-- `XLT_DEVICE` (11_address_translation.md R383, 32 bits). -/
def Reg.XLT_DEVICE : Nat := 0xD0004C

/-- `XLT_DIRTY_SET` (11_address_translation.md R383, 32 bits). -/
def Reg.XLT_DIRTY_SET : Nat := 0xD00050

/-- `XLT_RACE` (11_address_translation.md R383, 32 bits). -/
def Reg.XLT_RACE : Nat := 0xD00054

/-- `XLT_INVAL` (11_address_translation.md R383, 32 bits). -/
def Reg.XLT_INVAL : Nat := 0xD00058

/-- `CTL_INSTANCES` (12_virtual_instances.md R400, 32 bits). -/
def Reg.CTL_INSTANCES : Nat := 0x12100

/-- `CTL_INST_LATE_DROP` (12_virtual_instances.md R400, 32 bits). -/
def Reg.CTL_INST_LATE_DROP : Nat := 0x12104

/-- `CTL_INST_MAP` (12_virtual_instances.md R400, 32 bits). -/
def Reg.CTL_INST_MAP (i : Nat) : Nat := 0x12200 + 0x4 * i

/-- `CTL_INST_STATE` (12_virtual_instances.md R400, 32 bits). -/
def Reg.CTL_INST_STATE (i : Nat) : Nat := 0x12400 + 0x4 * i

/-- `CTL_INST_LOG` (12_virtual_instances.md R400, 32 bits). -/
def Reg.CTL_INST_LOG (i : Nat) : Nat := 0x12600 + 0x4 * i

/-- `INJ_CTRL` (13_injection_scheduling.md R417, 32 bits). -/
def Reg.INJ_CTRL : Nat := 0xE00000

/-- `INJ_WEIGHT0` (13_injection_scheduling.md R417, 32 bits). -/
def Reg.INJ_WEIGHT0 : Nat := 0xE00004

/-- `INJ_WEIGHT1` (13_injection_scheduling.md R417, 32 bits). -/
def Reg.INJ_WEIGHT1 : Nat := 0xE00008

/-- `INJ_SAMPLE` (13_injection_scheduling.md R417, 32 bits). -/
def Reg.INJ_SAMPLE : Nat := 0xE0000C

/-- `INJ_FORFEIT` (13_injection_scheduling.md R417, 32 bits). -/
def Reg.INJ_FORFEIT : Nat := 0xE00010

/-- `INJ_YEL_DEFER` (13_injection_scheduling.md R417, 32 bits). -/
def Reg.INJ_YEL_DEFER : Nat := 0xE00014

/-- `INJ_CHUNKS` (13_injection_scheduling.md R417, 32 bits). -/
def Reg.INJ_CHUNKS : Nat := 0xE00018

/-- `INJ_LAUNCH_GRANT` (13_injection_scheduling.md R417, 32 bits). -/
def Reg.INJ_LAUNCH_GRANT : Nat := 0xE0001C

/-- `INJ_POL_CTRL` (13_injection_scheduling.md R417, 32 bits). -/
def Reg.INJ_POL_CTRL (i : Nat) (c : Nat) : Nat := 0xE01000 + 0x100 * i + 0x20 * c

/-- `INJ_POL_PIR` (13_injection_scheduling.md R417, 32 bits). -/
def Reg.INJ_POL_PIR (i : Nat) (c : Nat) : Nat := 0xE01004 + 0x100 * i + 0x20 * c

/-- `INJ_POL_CBS` (13_injection_scheduling.md R417, 32 bits). -/
def Reg.INJ_POL_CBS (i : Nat) (c : Nat) : Nat := 0xE01008 + 0x100 * i + 0x20 * c

/-- `INJ_POL_PBS` (13_injection_scheduling.md R417, 32 bits). -/
def Reg.INJ_POL_PBS (i : Nat) (c : Nat) : Nat := 0xE0100C + 0x100 * i + 0x20 * c

/-- `INJ_POL_GREEN` (13_injection_scheduling.md R417, 32 bits). -/
def Reg.INJ_POL_GREEN (i : Nat) (c : Nat) : Nat := 0xE01010 + 0x100 * i + 0x20 * c

/-- `INJ_POL_YELLOW` (13_injection_scheduling.md R417, 32 bits). -/
def Reg.INJ_POL_YELLOW (i : Nat) (c : Nat) : Nat := 0xE01014 + 0x100 * i + 0x20 * c

/-- `INJ_POL_RED` (13_injection_scheduling.md R417, 32 bits). -/
def Reg.INJ_POL_RED (i : Nat) (c : Nat) : Nat := 0xE01018 + 0x100 * i + 0x20 * c

/-- `LNG_LANE_CTRL` (14_lanes_and_bexnus_link.md R449, 32 bits). -/
def Reg.LNG_LANE_CTRL (l : Nat) : Nat := 0x600000 + 0x10000 * (l / 16) + 0x100 * (l % 16)

/-- `LNG_LANE_STATUS` (14_lanes_and_bexnus_link.md R449, 32 bits). -/
def Reg.LNG_LANE_STATUS (l : Nat) : Nat := 0x600004 + 0x10000 * (l / 16) + 0x100 * (l % 16)

/-- `LNG_LANE_PEER` (14_lanes_and_bexnus_link.md R449, 32 bits). -/
def Reg.LNG_LANE_PEER (l : Nat) : Nat := 0x600008 + 0x10000 * (l / 16) + 0x100 * (l % 16)

/-- `LNG_FEC_CORR` (14_lanes_and_bexnus_link.md R449, 32 bits). -/
def Reg.LNG_FEC_CORR (l : Nat) : Nat := 0x600020 + 0x10000 * (l / 16) + 0x100 * (l % 16)

/-- `LNG_FEC_UNCORR` (14_lanes_and_bexnus_link.md R449, 32 bits). -/
def Reg.LNG_FEC_UNCORR (l : Nat) : Nat := 0x600024 + 0x10000 * (l / 16) + 0x100 * (l % 16)

/-- `LNG_STUFF` (14_lanes_and_bexnus_link.md R449, 32 bits). -/
def Reg.LNG_STUFF (l : Nat) : Nat := 0x600028 + 0x10000 * (l / 16) + 0x100 * (l % 16)

/-- `LNG_STUFF_OVERRUN` (14_lanes_and_bexnus_link.md R449, 32 bits). -/
def Reg.LNG_STUFF_OVERRUN (l : Nat) : Nat := 0x60002C + 0x10000 * (l / 16) + 0x100 * (l % 16)

/-- `LNG_SLIP` (14_lanes_and_bexnus_link.md R449, 32 bits). -/
def Reg.LNG_SLIP (l : Nat) : Nat := 0x600030 + 0x10000 * (l / 16) + 0x100 * (l % 16)

/-- `LNG_REPLAY` (14_lanes_and_bexnus_link.md R449, 32 bits). -/
def Reg.LNG_REPLAY (l : Nat) : Nat := 0x600034 + 0x10000 * (l / 16) + 0x100 * (l % 16)

/-- `LNG_RETRY_FULL` (14_lanes_and_bexnus_link.md R449, 32 bits). -/
def Reg.LNG_RETRY_FULL (l : Nat) : Nat := 0x600038 + 0x10000 * (l / 16) + 0x100 * (l % 16)

/-- `LNG_TRAIN_FAIL` (14_lanes_and_bexnus_link.md R449, 32 bits). -/
def Reg.LNG_TRAIN_FAIL (l : Nat) : Nat := 0x60003C + 0x10000 * (l / 16) + 0x100 * (l % 16)

/-- `LNG_LINK_LOST` (14_lanes_and_bexnus_link.md R449, 32 bits). -/
def Reg.LNG_LINK_LOST (l : Nat) : Nat := 0x600040 + 0x10000 * (l / 16) + 0x100 * (l % 16)

/-- `LNG_CTRL_BAD` (14_lanes_and_bexnus_link.md R449, 32 bits). -/
def Reg.LNG_CTRL_BAD (l : Nat) : Nat := 0x600044 + 0x10000 * (l / 16) + 0x100 * (l % 16)

/-- `LNG_PHASE_REFUSED` (14_lanes_and_bexnus_link.md R449, 32 bits). -/
def Reg.LNG_PHASE_REFUSED (l : Nat) : Nat := 0x600048 + 0x10000 * (l / 16) + 0x100 * (l % 16)

/-- `HPT_CTRL` (15_host_attachment.md R463, 32 bits). -/
def Reg.HPT_CTRL (p : Nat) : Nat := 0xA00000 + 0x10000 * p

/-- `HPT_STATUS` (15_host_attachment.md R463, 32 bits). -/
def Reg.HPT_STATUS (p : Nat) : Nat := 0xA00004 + 0x10000 * p

/-- `HPT_PORT_RESET` (15_host_attachment.md R463, 32 bits). -/
def Reg.HPT_PORT_RESET (p : Nat) : Nat := 0xA00010 + 0x10000 * p

/-- `HPT_FLR` (15_host_attachment.md R463, 32 bits). -/
def Reg.HPT_FLR (p : Nat) : Nat := 0xA00014 + 0x10000 * p

/-- `HPT_SUSPEND_DROP` (15_host_attachment.md R463, 32 bits). -/
def Reg.HPT_SUSPEND_DROP (p : Nat) : Nat := 0xA00018 + 0x10000 * p

/-- `HPT_ATOMIC_UR` (15_host_attachment.md R463, 32 bits). -/
def Reg.HPT_ATOMIC_UR (p : Nat) : Nat := 0xA0001C + 0x10000 * p

/-- `MEM_CTRL` (16_gddr7_memory.md R478, 32 bits). -/
def Reg.MEM_CTRL : Nat := 0xB00000

/-- `MEM_STATUS` (16_gddr7_memory.md R478, 32 bits). -/
def Reg.MEM_STATUS : Nat := 0xB00004

/-- `MEM_HOST_BASE` (16_gddr7_memory.md R478, 64 bits). -/
def Reg.MEM_HOST_BASE : Nat := 0xB00008

/-- `MEM_HOST_SIZE` (16_gddr7_memory.md R478, 32 bits). -/
def Reg.MEM_HOST_SIZE : Nat := 0xB00010

/-- `MEM_CORRECTED` (16_gddr7_memory.md R478, 32 bits). -/
def Reg.MEM_CORRECTED : Nat := 0xB00020

/-- `MEM_UNCORRECTED` (16_gddr7_memory.md R478, 32 bits). -/
def Reg.MEM_UNCORRECTED : Nat := 0xB00024

/-- `MEM_LOST` (16_gddr7_memory.md R478, 32 bits). -/
def Reg.MEM_LOST : Nat := 0xB00028

/-- `MEM_RETRAIN` (16_gddr7_memory.md R478, 32 bits). -/
def Reg.MEM_RETRAIN : Nat := 0xB0002C

/-- `PWR_CTRL` (17_power_domains.md R508, 32 bits). -/
def Reg.PWR_CTRL : Nat := 0x20000

/-- `PWR_STATUS` (17_power_domains.md R508, 32 bits). -/
def Reg.PWR_STATUS : Nat := 0x20004

/-- `PWR_PLL_STOPS` (17_power_domains.md R508, 32 bits). -/
def Reg.PWR_PLL_STOPS : Nat := 0x20008

/-- `PWR_TILE_CTRL` (17_power_domains.md R508, 32 bits). -/
def Reg.PWR_TILE_CTRL (t : Nat) : Nat := 0x21000 + 0x80 * t

/-- `PWR_TILE_REQ` (17_power_domains.md R508, 32 bits). -/
def Reg.PWR_TILE_REQ (t : Nat) : Nat := 0x21004 + 0x80 * t

/-- `PWR_TILE_STATUS` (17_power_domains.md R508, 32 bits). -/
def Reg.PWR_TILE_STATUS (t : Nat) : Nat := 0x21008 + 0x80 * t

/-- `PWR_TILE_TEMP` (17_power_domains.md R508, 32 bits). -/
def Reg.PWR_TILE_TEMP (t : Nat) : Nat := 0x2100C + 0x80 * t

/-- `PWR_TILE_ENTRIES` (17_power_domains.md R508, 32 bits). -/
def Reg.PWR_TILE_ENTRIES (t : Nat) : Nat := 0x21010 + 0x80 * t

/-- `PWR_TILE_ABORTS` (17_power_domains.md R508, 32 bits). -/
def Reg.PWR_TILE_ABORTS (t : Nat) : Nat := 0x21014 + 0x80 * t

/-- `PWR_TILE_DROPPED` (17_power_domains.md R508, 32 bits). -/
def Reg.PWR_TILE_DROPPED (t : Nat) : Nat := 0x21018 + 0x80 * t

/-- `PWR_TILE_LATCHED` (17_power_domains.md R508, 32 bits). -/
def Reg.PWR_TILE_LATCHED (t : Nat) : Nat := 0x2101C + 0x80 * t

/-- `PWR_TILE_OVERWRITTEN` (17_power_domains.md R508, 32 bits). -/
def Reg.PWR_TILE_OVERWRITTEN (t : Nat) : Nat := 0x21020 + 0x80 * t

/-- `PWR_TILE_CHECK_FAIL` (17_power_domains.md R508, 32 bits). -/
def Reg.PWR_TILE_CHECK_FAIL (t : Nat) : Nat := 0x21024 + 0x80 * t

/-- `PWR_TILE_THERMAL_WAKE` (17_power_domains.md R508, 32 bits). -/
def Reg.PWR_TILE_THERMAL_WAKE (t : Nat) : Nat := 0x21028 + 0x80 * t

/-- `PWR_TILE_REFUSED` (17_power_domains.md R508, 32 bits). -/
def Reg.PWR_TILE_REFUSED (t : Nat) (r : Nat) : Nat := 0x2102C + 0x80 * t + 0x4 * r

/-- `PWR_BANK_CODE` (17_power_domains.md R508, 32 bits). -/
def Reg.PWR_BANK_CODE (bank : Nat) : Nat := 0x24000 + 0x4 * bank

/-- `FLT_STATUS` (18_faults.md R512, 32 bits). -/
def Reg.FLT_STATUS (blk : Nat) : Nat := blk + 0xF000

/-- `FLT_MASK` (18_faults.md R512, 32 bits). -/
def Reg.FLT_MASK (blk : Nat) : Nat := blk + 0xF004

/-- `FLT_FORCE` (18_faults.md R512, 32 bits). -/
def Reg.FLT_FORCE (blk : Nat) : Nat := blk + 0xF008

/-- `FLT_UNACK` (18_faults.md R512, 32 bits). -/
def Reg.FLT_UNACK (blk : Nat) : Nat := blk + 0xF00C

/-- `FLT_INT` (18_faults.md R512, 32 bits). -/
def Reg.FLT_INT (blk : Nat) : Nat := blk + 0xF010

/-- `FLT_FIRST` (18_faults.md R512, 32 bits). -/
def Reg.FLT_FIRST (blk : Nat) : Nat := blk + 0xF014

/-- `FLT_INFO` (18_faults.md R512, 32 bits). -/
def Reg.FLT_INFO (blk : Nat) : Nat := blk + 0xF018

/-- `FLT_TIME_LO` (18_faults.md R512, 32 bits). -/
def Reg.FLT_TIME_LO (blk : Nat) : Nat := blk + 0xF01C

/-- `FLT_TIME_HI` (18_faults.md R512, 32 bits). -/
def Reg.FLT_TIME_HI (blk : Nat) : Nat := blk + 0xF020

/-- `FLT_N_CORR` (18_faults.md R512, 32 bits). -/
def Reg.FLT_N_CORR (blk : Nat) : Nat := blk + 0xF024

/-- `FLT_N_CONT` (18_faults.md R512, 32 bits). -/
def Reg.FLT_N_CONT (blk : Nat) : Nat := blk + 0xF028

/-- `FLT_N_FATAL` (18_faults.md R512, 32 bits). -/
def Reg.FLT_N_FATAL (blk : Nat) : Nat := blk + 0xF02C

/-- `FLT_N_ESC` (18_faults.md R512, 32 bits). -/
def Reg.FLT_N_ESC (blk : Nat) : Nat := blk + 0xF030

/-- `FLT_N_MERGED` (18_faults.md R512, 32 bits). -/
def Reg.FLT_N_MERGED (blk : Nat) : Nat := blk + 0xF034

/-- `MGT_FLT_PIN` (18_faults.md R519, 32 bits). -/
def Reg.MGT_FLT_PIN : Nat := 0xF0F080

/-- `MGT_FLT_PULSES` (18_faults.md R519, 32 bits). -/
def Reg.MGT_FLT_PULSES : Nat := 0xF0F084

/-- `CNT_SEL` (19_performance_counters.md R530, 32 bits). -/
def Reg.CNT_SEL (b : Nat) (c : Nat) : Nat := 0x51000 + 0x40 * b + 0x8 * c

/-- `CNT_VAL` (19_performance_counters.md R530, 32 bits). -/
def Reg.CNT_VAL (b : Nat) (c : Nat) : Nat := 0x51004 + 0x40 * b + 0x8 * c

/-- `CNT_HIST` (19_performance_counters.md R536, 32 bits). -/
def Reg.CNT_HIST (c : Nat) (bin : Nat) : Nat := 0x54000 + 0x80 * c + 0x4 * bin

/-- `CNT_INST_S` (19_performance_counters.md R537, 64 bits). -/
def Reg.CNT_INST_S (i : Nat) (j : Nat) : Nat := 0x100000000 + 0x4000 + 0x10000 * i + 0x8 * j

/-- `CNT_INST_HIST` (19_performance_counters.md R537, 32 bits). -/
def Reg.CNT_INST_HIST (i : Nat) (c : Nat) (bin : Nat) : Nat := 0x100000000 + 0x4400 + 0x10000 * i + 0x80 * c + 0x4 * bin

/-- `CNT_CTRL` (19_performance_counters.md R542, 32 bits). -/
def Reg.CNT_CTRL : Nat := 0x50000

/-- `CNT_RING_BASE` (19_performance_counters.md R542, 64 bits). -/
def Reg.CNT_RING_BASE : Nat := 0x50008

/-- `CNT_RING_CFG` (19_performance_counters.md R542, 32 bits). -/
def Reg.CNT_RING_CFG : Nat := 0x50010

/-- `CNT_RING_POS` (19_performance_counters.md R542, 32 bits). -/
def Reg.CNT_RING_POS : Nat := 0x50014

/-- `CNT_FIXED` (19_performance_counters.md R542, 32 bits). -/
def Reg.CNT_FIXED : Nat := 0x50018

/-- `CNT_DUMPS` (19_performance_counters.md R542, 32 bits). -/
def Reg.CNT_DUMPS : Nat := 0x50020

/-- `CNT_SKIP_FULL` (19_performance_counters.md R542, 32 bits). -/
def Reg.CNT_SKIP_FULL : Nat := 0x50024

/-- `CNT_SKIP_ECLIPSE` (19_performance_counters.md R542, 32 bits). -/
def Reg.CNT_SKIP_ECLIPSE : Nat := 0x50028

/-- `MGT_CTRL` (20_startup_and_fabric_agreement.md R565, 32 bits). -/
def Reg.MGT_CTRL : Nat := 0xF00000

/-- `MGT_STATUS` (20_startup_and_fabric_agreement.md R565, 32 bits). -/
def Reg.MGT_STATUS : Nat := 0xF00004

/-- `MGT_LEVEL` (20_startup_and_fabric_agreement.md R565, 32 bits). -/
def Reg.MGT_LEVEL : Nat := 0xF00008

/-- `MGT_PROFILE_CTRL` (20_startup_and_fabric_agreement.md R565, 32 bits). -/
def Reg.MGT_PROFILE_CTRL : Nat := 0xF00010

/-- `MGT_PROFILE_RPLAN` (20_startup_and_fabric_agreement.md R565, 32 bits). -/
def Reg.MGT_PROFILE_RPLAN : Nat := 0xF00014

/-- `MGT_PROFILE_SPLAN` (20_startup_and_fabric_agreement.md R565, 32 bits). -/
def Reg.MGT_PROFILE_SPLAN : Nat := 0xF00018

/-- `MGT_ROOT_ID` (20_startup_and_fabric_agreement.md R565, 64 bits). -/
def Reg.MGT_ROOT_ID : Nat := 0xF00020

/-- `MGT_DIGEST` (20_startup_and_fabric_agreement.md R565, 64 bits). -/
def Reg.MGT_DIGEST : Nat := 0xF00028

/-- `MGT_DIGEST_DISAGREE` (20_startup_and_fabric_agreement.md R565, 32 bits). -/
def Reg.MGT_DIGEST_DISAGREE : Nat := 0xF00034

/-- `MGT_PLAN_ROUTE0` (20_startup_and_fabric_agreement.md R565, 32 bits). -/
def Reg.MGT_PLAN_ROUTE0 : Nat := 0xF00040

/-- `MGT_PLAN_ROUTE1` (20_startup_and_fabric_agreement.md R565, 32 bits). -/
def Reg.MGT_PLAN_ROUTE1 : Nat := 0xF00044

/-- `MGT_PLAN_SCHED0` (20_startup_and_fabric_agreement.md R565, 32 bits). -/
def Reg.MGT_PLAN_SCHED0 : Nat := 0xF00048

/-- `MGT_PLAN_SCHED1` (20_startup_and_fabric_agreement.md R565, 32 bits). -/
def Reg.MGT_PLAN_SCHED1 : Nat := 0xF0004C

/-- `MGT_AGREE_LAST` (20_startup_and_fabric_agreement.md R565, 32 bits). -/
def Reg.MGT_AGREE_LAST : Nat := 0xF00030

/-- `ID_PART` (21_register_map.md R573, 32 bits). -/
def Reg.ID_PART : Nat := 0x0

/-- `ID_STEPPING` (21_register_map.md R573, 32 bits). -/
def Reg.ID_STEPPING : Nat := 0x4

/-- `ID_CAP` (21_register_map.md R573, 32 bits). -/
def Reg.ID_CAP : Nat := 0x8

/-- `ID_LEVELS` (21_register_map.md R573, 32 bits). -/
def Reg.ID_LEVELS : Nat := 0xC

/-- `ID_CHIP_ID` (21_register_map.md R573, 64 bits). -/
def Reg.ID_CHIP_ID : Nat := 0x10

/-- `ID_FORMATS` (21_register_map.md R573, 32 bits). -/
def Reg.ID_FORMATS : Nat := 0x18

/-- `CTL_POLL_FLOOR.AON_FLOOR`, bits [12:8], RO. -/
def F.CTL_POLL_FLOOR_AON_FLOOR : Fld := ⟨Reg.CTL_POLL_FLOOR, 12, 8⟩

/-- `CTL_POLL_FLOOR.FLOOR`, bits [4:0], RO. -/
def F.CTL_POLL_FLOOR_FLOOR : Fld := ⟨Reg.CTL_POLL_FLOOR, 4, 0⟩

/-- `CTL_OWNER.PORT`, bits [2:0], RO. -/
def F.CTL_OWNER_PORT : Fld := ⟨Reg.CTL_OWNER, 2, 0⟩

/-- `CTL_AQ_CTRL.ENABLE`, bits [31:31], RW. -/
def F.CTL_AQ_CTRL_ENABLE : Fld := ⟨Reg.CTL_AQ_CTRL, 31, 31⟩

/-- `CTL_AQ_CTRL.IDLE`, bits [30:30], RO. -/
def F.CTL_AQ_CTRL_IDLE : Fld := ⟨Reg.CTL_AQ_CTRL, 30, 30⟩

/-- `CTL_AQ_CTRL.SPLIT`, bits [21:21], RW. -/
def F.CTL_AQ_CTRL_SPLIT : Fld := ⟨Reg.CTL_AQ_CTRL, 21, 21⟩

/-- `CTL_AQ_CTRL.WATCH`, bits [20:20], RW. -/
def F.CTL_AQ_CTRL_WATCH : Fld := ⟨Reg.CTL_AQ_CTRL, 20, 20⟩

/-- `CTL_AQ_CTRL.K`, bits [19:15], RW. -/
def F.CTL_AQ_CTRL_K : Fld := ⟨Reg.CTL_AQ_CTRL, 19, 15⟩

/-- `CTL_AQ_CTRL.ACQ_LOG2`, bits [14:10], RW. -/
def F.CTL_AQ_CTRL_ACQ_LOG2 : Fld := ⟨Reg.CTL_AQ_CTRL, 14, 10⟩

/-- `CTL_AQ_CTRL.AQ_LOG2`, bits [9:5], RW. -/
def F.CTL_AQ_CTRL_AQ_LOG2 : Fld := ⟨Reg.CTL_AQ_CTRL, 9, 5⟩

/-- `CTL_AQ_BASE.BASE`, bits [63:6], RW. -/
def F.CTL_AQ_BASE_BASE : Fld := ⟨Reg.CTL_AQ_BASE, 63, 6⟩

/-- `CTL_ACQ_BASE.BASE`, bits [63:5], RW. -/
def F.CTL_ACQ_BASE_BASE : Fld := ⟨Reg.CTL_ACQ_BASE, 63, 5⟩

/-- `CTL_AQ_ACTIVE.IN_PROGRESS`, bits [6:0], RO. -/
def F.CTL_AQ_ACTIVE_IN_PROGRESS : Fld := ⟨Reg.CTL_AQ_ACTIVE, 6, 0⟩

/-- `CTL_ENDPOINT.LOCKED`, bits [31:31], RO. -/
def F.CTL_ENDPOINT_LOCKED : Fld := ⟨Reg.CTL_ENDPOINT, 31, 31⟩

/-- `CTL_ENDPOINT.ADDR`, bits [16:0], RW. -/
def F.CTL_ENDPOINT_ADDR : Fld := ⟨Reg.CTL_ENDPOINT, 16, 0⟩

/-- `CTL_ROUTE_CTRL.HOP_LIMIT`, bits [31:29], RW. -/
def F.CTL_ROUTE_CTRL_HOP_LIMIT : Fld := ⟨Reg.CTL_ROUTE_CTRL, 31, 29⟩

/-- `CTL_ROUTE_CTRL.NM_SCALE`, bits [28:24], RW. -/
def F.CTL_ROUTE_CTRL_NM_SCALE : Fld := ⟨Reg.CTL_ROUTE_CTRL, 28, 24⟩

/-- `CTL_ROUTE_CTRL.MARK_DEPTH`, bits [23:12], RW. -/
def F.CTL_ROUTE_CTRL_MARK_DEPTH : Fld := ⟨Reg.CTL_ROUTE_CTRL, 23, 12⟩

/-- `CTL_ROUTE_CTRL.BIAS`, bits [10:0], RW. -/
def F.CTL_ROUTE_CTRL_BIAS : Fld := ⟨Reg.CTL_ROUTE_CTRL, 10, 0⟩

/-- `CTL_ROUTE_EPOCH.FORCED`, bits [12:12], RO. -/
def F.CTL_ROUTE_EPOCH_FORCED : Fld := ⟨Reg.CTL_ROUTE_EPOCH, 12, 12⟩

/-- `CTL_ROUTE_EPOCH.E1_STATE`, bits [10:8], RO. -/
def F.CTL_ROUTE_EPOCH_E1_STATE : Fld := ⟨Reg.CTL_ROUTE_EPOCH, 10, 8⟩

/-- `CTL_ROUTE_EPOCH.E0_STATE`, bits [6:4], RO. -/
def F.CTL_ROUTE_EPOCH_E0_STATE : Fld := ⟨Reg.CTL_ROUTE_EPOCH, 6, 4⟩

/-- `CTL_ROUTE_EPOCH.STAMP`, bits [0:0], RO. -/
def F.CTL_ROUTE_EPOCH_STAMP : Fld := ⟨Reg.CTL_ROUTE_EPOCH, 0, 0⟩

/-- `CTL_ROUTE_INFLIGHT0.DRAIN_LEVEL`, bits [27:24], RO. -/
def F.CTL_ROUTE_INFLIGHT0_DRAIN_LEVEL : Fld := ⟨Reg.CTL_ROUTE_INFLIGHT0, 27, 24⟩

/-- `CTL_ROUTE_INFLIGHT0.HELD`, bits [20:0], RO. -/
def F.CTL_ROUTE_INFLIGHT0_HELD : Fld := ⟨Reg.CTL_ROUTE_INFLIGHT0, 20, 0⟩

/-- `CTL_ROUTE_INFLIGHT1.DRAIN_LEVEL`, bits [27:24], RO. -/
def F.CTL_ROUTE_INFLIGHT1_DRAIN_LEVEL : Fld := ⟨Reg.CTL_ROUTE_INFLIGHT1, 27, 24⟩

/-- `CTL_ROUTE_INFLIGHT1.HELD`, bits [20:0], RO. -/
def F.CTL_ROUTE_INFLIGHT1_HELD : Fld := ⟨Reg.CTL_ROUTE_INFLIGHT1, 20, 0⟩

/-- `TIM_CTRL.ROLE`, bits [31:30], RW. -/
def F.TIM_CTRL_ROLE : Fld := ⟨Reg.TIM_CTRL, 31, 30⟩

/-- `TIM_CTRL.SET_ARM`, bits [29:29], W1S. -/
def F.TIM_CTRL_SET_ARM : Fld := ⟨Reg.TIM_CTRL, 29, 29⟩

/-- `TIM_CTRL.ALT_EN`, bits [28:28], RW. -/
def F.TIM_CTRL_ALT_EN : Fld := ⟨Reg.TIM_CTRL, 28, 28⟩

/-- `TIM_CTRL.ALT_PORT`, bits [25:16], RW. -/
def F.TIM_CTRL_ALT_PORT : Fld := ⟨Reg.TIM_CTRL, 25, 16⟩

/-- `TIM_CTRL.PARENT_PORT`, bits [9:0], RW. -/
def F.TIM_CTRL_PARENT_PORT : Fld := ⟨Reg.TIM_CTRL, 9, 0⟩

/-- `TIM_STATUS.GOOD`, bits [31:24], RO. -/
def F.TIM_STATUS_GOOD : Fld := ⟨Reg.TIM_STATUS, 31, 24⟩

/-- `TIM_STATUS.ACTING_ROOT`, bits [7:7], RO. -/
def F.TIM_STATUS_ACTING_ROOT : Fld := ⟨Reg.TIM_STATUS, 7, 7⟩

/-- `TIM_STATUS.TIME_IN_OK`, bits [6:6], RO. -/
def F.TIM_STATUS_TIME_IN_OK : Fld := ⟨Reg.TIM_STATUS, 6, 6⟩

/-- `TIM_STATUS.ON_ALT`, bits [5:5], RO. -/
def F.TIM_STATUS_ON_ALT : Fld := ⟨Reg.TIM_STATUS, 5, 5⟩

/-- `TIM_STATUS.STATE`, bits [2:0], RO. -/
def F.TIM_STATUS_STATE : Fld := ⟨Reg.TIM_STATUS, 2, 0⟩

/-- `TIM_ASYM.ASYM`, bits [15:0], RW. -/
def F.TIM_ASYM_ASYM : Fld := ⟨Reg.TIM_ASYM, 15, 0⟩

/-- `TIM_DELAY.DELAY`, bits [23:0], RO. -/
def F.TIM_DELAY_DELAY : Fld := ⟨Reg.TIM_DELAY, 23, 0⟩

/-- `TIM_SCHED_EPOCH.E1_STATE`, bits [10:8], RO. -/
def F.TIM_SCHED_EPOCH_E1_STATE : Fld := ⟨Reg.TIM_SCHED_EPOCH, 10, 8⟩

/-- `TIM_SCHED_EPOCH.E0_STATE`, bits [6:4], RO. -/
def F.TIM_SCHED_EPOCH_E0_STATE : Fld := ⟨Reg.TIM_SCHED_EPOCH, 6, 4⟩

/-- `TIM_SCHED_EPOCH.STAMP`, bits [0:0], RO. -/
def F.TIM_SCHED_EPOCH_STAMP : Fld := ⟨Reg.TIM_SCHED_EPOCH, 0, 0⟩

/-- `TIM_XSRC_CMD.GO`, bits [31:31], W1S. -/
def F.TIM_XSRC_CMD_GO : Fld := ⟨Reg.TIM_XSRC_CMD, 31, 31⟩

/-- `TIM_XSRC_CMD.ERR`, bits [30:30], RO. -/
def F.TIM_XSRC_CMD_ERR : Fld := ⟨Reg.TIM_XSRC_CMD, 30, 30⟩

/-- `TIM_XSRC_CMD.WRITE`, bits [29:29], RW. -/
def F.TIM_XSRC_CMD_WRITE : Fld := ⟨Reg.TIM_XSRC_CMD, 29, 29⟩

/-- `TIM_XSRC_CMD.EPOCH`, bits [12:12], RW. -/
def F.TIM_XSRC_CMD_EPOCH : Fld := ⟨Reg.TIM_XSRC_CMD, 12, 12⟩

/-- `TIM_XSRC_CMD.INDEX`, bits [11:0], RW. -/
def F.TIM_XSRC_CMD_INDEX : Fld := ⟨Reg.TIM_XSRC_CMD, 11, 0⟩

/-- `TIM_XSRC_DATA0.VALID`, bits [31:31], RW. -/
def F.TIM_XSRC_DATA0_VALID : Fld := ⟨Reg.TIM_XSRC_DATA0, 31, 31⟩

/-- `TIM_XSRC_DATA0.PFAIL`, bits [30:30], RO. -/
def F.TIM_XSRC_DATA0_PFAIL : Fld := ⟨Reg.TIM_XSRC_DATA0, 30, 30⟩

/-- `TIM_XSRC_DATA0.BFAIL`, bits [29:29], RO. -/
def F.TIM_XSRC_DATA0_BFAIL : Fld := ⟨Reg.TIM_XSRC_DATA0, 29, 29⟩

/-- `TIM_XSRC_DATA0.DST`, bits [16:0], RW. -/
def F.TIM_XSRC_DATA0_DST : Fld := ⟨Reg.TIM_XSRC_DATA0, 16, 0⟩

/-- `TIM_XSRC_DATA1.BOUT`, bits [25:16], RW. -/
def F.TIM_XSRC_DATA1_BOUT : Fld := ⟨Reg.TIM_XSRC_DATA1, 25, 16⟩

/-- `TIM_XSRC_DATA1.OUT`, bits [9:0], RW. -/
def F.TIM_XSRC_DATA1_OUT : Fld := ⟨Reg.TIM_XSRC_DATA1, 9, 0⟩

/-- `TIM_XSRC_DATA2.COUNT`, bits [28:16], RW. -/
def F.TIM_XSRC_DATA2_COUNT : Fld := ⟨Reg.TIM_XSRC_DATA2, 28, 16⟩

/-- `TIM_XSRC_DATA2.STRIDE`, bits [12:0], RW. -/
def F.TIM_XSRC_DATA2_STRIDE : Fld := ⟨Reg.TIM_XSRC_DATA2, 12, 0⟩

/-- `TIM_XSRC_DATA3.BOFS`, bits [20:16], RW. -/
def F.TIM_XSRC_DATA3_BOFS : Fld := ⟨Reg.TIM_XSRC_DATA3, 20, 16⟩

/-- `TIM_XSRC_DATA3.FIRST`, bits [11:0], RW. -/
def F.TIM_XSRC_DATA3_FIRST : Fld := ⟨Reg.TIM_XSRC_DATA3, 11, 0⟩

/-- `TIM_XSRC_DATA4.PB`, bits [31:16], RW. -/
def F.TIM_XSRC_DATA4_PB : Fld := ⟨Reg.TIM_XSRC_DATA4, 31, 16⟩

/-- `TIM_XSRC_DATA4.P`, bits [15:0], RW. -/
def F.TIM_XSRC_DATA4_P : Fld := ⟨Reg.TIM_XSRC_DATA4, 15, 0⟩

/-- `CTL_XPT_RETRY.RETRY_LIMIT`, bits [31:24], RW. -/
def F.CTL_XPT_RETRY_RETRY_LIMIT (c : Nat) : Fld := ⟨Reg.CTL_XPT_RETRY c, 31, 24⟩

/-- `CTL_XPT_RETRY.RTO`, bits [16:0], RW. -/
def F.CTL_XPT_RETRY_RTO (c : Nat) : Fld := ⟨Reg.CTL_XPT_RETRY c, 16, 0⟩

/-- `CTL_JRNL_CTRL.ENABLE`, bits [31:31], RW. -/
def F.CTL_JRNL_CTRL_ENABLE : Fld := ⟨Reg.CTL_JRNL_CTRL, 31, 31⟩

/-- `CTL_JRNL_CTRL.REPLAY`, bits [30:30], W1S. -/
def F.CTL_JRNL_CTRL_REPLAY : Fld := ⟨Reg.CTL_JRNL_CTRL, 30, 30⟩

/-- `CTL_JRNL_CTRL.FAILOVER`, bits [29:29], RW. -/
def F.CTL_JRNL_CTRL_FAILOVER : Fld := ⟨Reg.CTL_JRNL_CTRL, 29, 29⟩

/-- `CTL_JRNL_CTRL.RESULT`, bits [27:24], RO. -/
def F.CTL_JRNL_CTRL_RESULT : Fld := ⟨Reg.CTL_JRNL_CTRL, 27, 24⟩

/-- `CTL_JRNL_CHIP.BASE`, bits [63:12], RW. -/
def F.CTL_JRNL_CHIP_BASE : Fld := ⟨Reg.CTL_JRNL_CHIP, 63, 12⟩

/-- `CTL_JRNL_INST.BASE`, bits [63:12], RW. -/
def F.CTL_JRNL_INST_BASE (i : Nat) : Fld := ⟨Reg.CTL_JRNL_INST i, 63, 12⟩

/-- `CTL_MATCH_ONDIE.COUNT`, bits [18:0], RO. -/
def F.CTL_MATCH_ONDIE_COUNT : Fld := ⟨Reg.CTL_MATCH_ONDIE, 18, 0⟩

/-- `CTL_MATCH_OVERFLOW.COUNT`, bits [24:0], RO. -/
def F.CTL_MATCH_OVERFLOW_COUNT : Fld := ⟨Reg.CTL_MATCH_OVERFLOW, 24, 0⟩

/-- `CTL_MATCH_UNEXP.COUNT`, bits [22:0], RO. -/
def F.CTL_MATCH_UNEXP_COUNT : Fld := ⟨Reg.CTL_MATCH_UNEXP, 22, 0⟩

/-- `CTL_MATCH_BLOCKS.COUNT`, bits [24:0], RO. -/
def F.CTL_MATCH_BLOCKS_COUNT : Fld := ⟨Reg.CTL_MATCH_BLOCKS, 24, 0⟩

/-- `CTL_IMM_CQ.ENABLE`, bits [31:31], RW. -/
def F.CTL_IMM_CQ_ENABLE (i : Nat) : Fld := ⟨Reg.CTL_IMM_CQ i, 31, 31⟩

/-- `CTL_IMM_CQ.QUEUE`, bits [15:0], RW. -/
def F.CTL_IMM_CQ_QUEUE (i : Nat) : Fld := ⟨Reg.CTL_IMM_CQ i, 15, 0⟩

/-- `ATU_LK_CTRL.TAG`, bits [31:16], RW. -/
def F.ATU_LK_CTRL_TAG (i : Nat) (s : Nat) : Fld := ⟨Reg.ATU_LK_CTRL i s, 31, 16⟩

/-- `ATU_LK_CTRL.PRIO`, bits [2:0], RW. -/
def F.ATU_LK_CTRL_PRIO (i : Nat) (s : Nat) : Fld := ⟨Reg.ATU_LK_CTRL i s, 2, 0⟩

/-- `ATU_LK_OFFSET.OFFSET`, bits [47:0], RW. -/
def F.ATU_LK_OFFSET_OFFSET (i : Nat) (s : Nat) : Fld := ⟨Reg.ATU_LK_OFFSET i s, 47, 0⟩

/-- `ATU_LK_ACQUIRE.RESULT`, bits [63:56], RO. -/
def F.ATU_LK_ACQUIRE_RESULT (i : Nat) (s : Nat) : Fld := ⟨Reg.ATU_LK_ACQUIRE i s, 63, 56⟩

/-- `ATU_LK_ACQUIRE.INFO`, bits [15:0], RO. -/
def F.ATU_LK_ACQUIRE_INFO (i : Nat) (s : Nat) : Fld := ⟨Reg.ATU_LK_ACQUIRE i s, 15, 0⟩

/-- `ATU_LK_STATUS.STATE`, bits [31:30], RO. -/
def F.ATU_LK_STATUS_STATE (i : Nat) (s : Nat) : Fld := ⟨Reg.ATU_LK_STATUS i s, 31, 30⟩

/-- `ATU_LK_STATUS.LAST`, bits [7:0], RO. -/
def F.ATU_LK_STATUS_LAST (i : Nat) (s : Nat) : Fld := ⟨Reg.ATU_LK_STATUS i s, 7, 0⟩

/-- `ATU_HOST_PATH.PATH7`, bits [15:14], RW. -/
def F.ATU_HOST_PATH_PATH7 : Fld := ⟨Reg.ATU_HOST_PATH, 15, 14⟩

/-- `ATU_HOST_PATH.PATH6`, bits [13:12], RW. -/
def F.ATU_HOST_PATH_PATH6 : Fld := ⟨Reg.ATU_HOST_PATH, 13, 12⟩

/-- `ATU_HOST_PATH.PATH5`, bits [11:10], RW. -/
def F.ATU_HOST_PATH_PATH5 : Fld := ⟨Reg.ATU_HOST_PATH, 11, 10⟩

/-- `ATU_HOST_PATH.PATH4`, bits [9:8], RW. -/
def F.ATU_HOST_PATH_PATH4 : Fld := ⟨Reg.ATU_HOST_PATH, 9, 8⟩

/-- `ATU_HOST_PATH.PATH3`, bits [7:6], RW. -/
def F.ATU_HOST_PATH_PATH3 : Fld := ⟨Reg.ATU_HOST_PATH, 7, 6⟩

/-- `ATU_HOST_PATH.PATH2`, bits [5:4], RW. -/
def F.ATU_HOST_PATH_PATH2 : Fld := ⟨Reg.ATU_HOST_PATH, 5, 4⟩

/-- `ATU_HOST_PATH.PATH1`, bits [3:2], RW. -/
def F.ATU_HOST_PATH_PATH1 : Fld := ⟨Reg.ATU_HOST_PATH, 3, 2⟩

/-- `ATU_HOST_PATH.PATH0`, bits [1:0], RW. -/
def F.ATU_HOST_PATH_PATH0 : Fld := ⟨Reg.ATU_HOST_PATH, 1, 0⟩

/-- `ATU_HELD.COUNT`, bits [16:0], RO. -/
def F.ATU_HELD_COUNT : Fld := ⟨Reg.ATU_HELD, 16, 0⟩

/-- `ATU_WAITING.COUNT`, bits [14:0], RO. -/
def F.ATU_WAITING_COUNT : Fld := ⟨Reg.ATU_WAITING, 14, 0⟩

/-- `CTL_COLL_GROUPS.COUNT`, bits [12:0], RO. -/
def F.CTL_COLL_GROUPS_COUNT : Fld := ⟨Reg.CTL_COLL_GROUPS, 12, 0⟩

/-- `CTL_COLL_STAGING.USED`, bits [20:0], RO. -/
def F.CTL_COLL_STAGING_USED : Fld := ⟨Reg.CTL_COLL_STAGING, 20, 0⟩

/-- `XLT_EXT_VBASE.VBASE`, bits [47:12], RW. -/
def F.XLT_EXT_VBASE_VBASE (i : Nat) (n : Nat) : Fld := ⟨Reg.XLT_EXT_VBASE i n, 47, 12⟩

/-- `XLT_EXT_LENGTH.LENGTH`, bits [48:12], RW. -/
def F.XLT_EXT_LENGTH_LENGTH (i : Nat) (n : Nat) : Fld := ⟨Reg.XLT_EXT_LENGTH i n, 48, 12⟩

/-- `XLT_EXT_PBASE.PBASE`, bits [51:12], RW. -/
def F.XLT_EXT_PBASE_PBASE (i : Nat) (n : Nat) : Fld := ⟨Reg.XLT_EXT_PBASE i n, 51, 12⟩

/-- `XLT_EXT_CTRL.VALID`, bits [31:31], RW. -/
def F.XLT_EXT_CTRL_VALID (i : Nat) (n : Nat) : Fld := ⟨Reg.XLT_EXT_CTRL i n, 31, 31⟩

/-- `XLT_EXT_CTRL.ERR`, bits [30:30], RO. -/
def F.XLT_EXT_CTRL_ERR (i : Nat) (n : Nat) : Fld := ⟨Reg.XLT_EXT_CTRL i n, 30, 30⟩

/-- `XLT_EXT_CTRL.WRITE`, bits [1:1], RW. -/
def F.XLT_EXT_CTRL_WRITE (i : Nat) (n : Nat) : Fld := ⟨Reg.XLT_EXT_CTRL i n, 1, 1⟩

/-- `XLT_CTRL.DEVLIST_LOCK`, bits [31:31], W1S. -/
def F.XLT_CTRL_DEVLIST_LOCK : Fld := ⟨Reg.XLT_CTRL, 31, 31⟩

/-- `XLT_CTRL.UPD_COH`, bits [7:0], RW. -/
def F.XLT_CTRL_UPD_COH : Fld := ⟨Reg.XLT_CTRL, 7, 0⟩

/-- `XLT_FAULT_VA.VA`, bits [47:0], RO. -/
def F.XLT_FAULT_VA_VA : Fld := ⟨Reg.XLT_FAULT_VA, 47, 0⟩

/-- `XLT_FAULT_INFO.VALID`, bits [31:31], RO. -/
def F.XLT_FAULT_INFO_VALID : Fld := ⟨Reg.XLT_FAULT_INFO, 31, 31⟩

/-- `XLT_FAULT_INFO.INSTANCE`, bits [30:24], RO. -/
def F.XLT_FAULT_INFO_INSTANCE : Fld := ⟨Reg.XLT_FAULT_INFO, 30, 24⟩

/-- `XLT_FAULT_INFO.STATUS`, bits [23:16], RO. -/
def F.XLT_FAULT_INFO_STATUS : Fld := ⟨Reg.XLT_FAULT_INFO, 23, 16⟩

/-- `XLT_FAULT_INFO.LEVEL`, bits [15:13], RO. -/
def F.XLT_FAULT_INFO_LEVEL : Fld := ⟨Reg.XLT_FAULT_INFO, 15, 13⟩

/-- `XLT_FAULT_INFO.WRITE`, bits [12:12], RO. -/
def F.XLT_FAULT_INFO_WRITE : Fld := ⟨Reg.XLT_FAULT_INFO, 12, 12⟩

/-- `XLT_FAULT_INFO.TILE`, bits [11:6], RO. -/
def F.XLT_FAULT_INFO_TILE : Fld := ⟨Reg.XLT_FAULT_INFO, 11, 6⟩

/-- `XLT_DEV_BASE.ADDR`, bits [51:12], RW. -/
def F.XLT_DEV_BASE_ADDR (n : Nat) : Fld := ⟨Reg.XLT_DEV_BASE n, 51, 12⟩

/-- `XLT_DEV_BASE.VALID`, bits [0:0], RW. -/
def F.XLT_DEV_BASE_VALID (n : Nat) : Fld := ⟨Reg.XLT_DEV_BASE n, 0, 0⟩

/-- `XLT_DEV_LIM.ADDR`, bits [51:12], RW. -/
def F.XLT_DEV_LIM_ADDR (n : Nat) : Fld := ⟨Reg.XLT_DEV_LIM n, 51, 12⟩

/-- `CTL_INSTANCES.N`, bits [7:0], RO. -/
def F.CTL_INSTANCES_N : Fld := ⟨Reg.CTL_INSTANCES, 7, 0⟩

/-- `CTL_INST_MAP.VALID`, bits [31:31], RW. -/
def F.CTL_INST_MAP_VALID (i : Nat) : Fld := ⟨Reg.CTL_INST_MAP i, 31, 31⟩

/-- `CTL_INST_MAP.ERR`, bits [30:30], RO. -/
def F.CTL_INST_MAP_ERR (i : Nat) : Fld := ⟨Reg.CTL_INST_MAP i, 30, 30⟩

/-- `CTL_INST_MAP.PORT`, bits [10:8], RW. -/
def F.CTL_INST_MAP_PORT (i : Nat) : Fld := ⟨Reg.CTL_INST_MAP i, 10, 8⟩

/-- `CTL_INST_MAP.FUNC`, bits [4:0], RW. -/
def F.CTL_INST_MAP_FUNC (i : Nat) : Fld := ⟨Reg.CTL_INST_MAP i, 4, 0⟩

/-- `CTL_INST_STATE.RESETTING`, bits [31:31], RO. -/
def F.CTL_INST_STATE_RESETTING (i : Nat) : Fld := ⟨Reg.CTL_INST_STATE i, 31, 31⟩

/-- `CTL_INST_STATE.GEN`, bits [7:0], RO. -/
def F.CTL_INST_STATE_GEN (i : Nat) : Fld := ⟨Reg.CTL_INST_STATE i, 7, 0⟩

/-- `CTL_INST_LOG.ARMED`, bits [31:31], RO. -/
def F.CTL_INST_LOG_ARMED (i : Nat) : Fld := ⟨Reg.CTL_INST_LOG i, 31, 31⟩

/-- `CTL_INST_LOG.OVERFLOW`, bits [30:30], W1C. -/
def F.CTL_INST_LOG_OVERFLOW (i : Nat) : Fld := ⟨Reg.CTL_INST_LOG i, 30, 30⟩

/-- `CTL_INST_LOG.LOST`, bits [29:20], RO. -/
def F.CTL_INST_LOG_LOST (i : Nat) : Fld := ⟨Reg.CTL_INST_LOG i, 29, 20⟩

/-- `CTL_INST_LOG.POSITION`, bits [19:0], RO. -/
def F.CTL_INST_LOG_POSITION (i : Nat) : Fld := ⟨Reg.CTL_INST_LOG i, 19, 0⟩

/-- `INJ_CTRL.YEL_DEPTH`, bits [31:20], RW. -/
def F.INJ_CTRL_YEL_DEPTH : Fld := ⟨Reg.INJ_CTRL, 31, 20⟩

/-- `INJ_CTRL.OVH_CELL`, bits [15:8], RW. -/
def F.INJ_CTRL_OVH_CELL : Fld := ⟨Reg.INJ_CTRL, 15, 8⟩

/-- `INJ_CTRL.OVH_MSG`, bits [7:0], RW. -/
def F.INJ_CTRL_OVH_MSG : Fld := ⟨Reg.INJ_CTRL, 7, 0⟩

/-- `INJ_WEIGHT0.W3`, bits [31:24], RW. -/
def F.INJ_WEIGHT0_W3 : Fld := ⟨Reg.INJ_WEIGHT0, 31, 24⟩

/-- `INJ_WEIGHT0.W2`, bits [23:16], RW. -/
def F.INJ_WEIGHT0_W2 : Fld := ⟨Reg.INJ_WEIGHT0, 23, 16⟩

/-- `INJ_WEIGHT0.W1`, bits [15:8], RW. -/
def F.INJ_WEIGHT0_W1 : Fld := ⟨Reg.INJ_WEIGHT0, 15, 8⟩

/-- `INJ_WEIGHT0.W0`, bits [7:0], RW. -/
def F.INJ_WEIGHT0_W0 : Fld := ⟨Reg.INJ_WEIGHT0, 7, 0⟩

/-- `INJ_WEIGHT1.W4`, bits [7:0], RW. -/
def F.INJ_WEIGHT1_W4 : Fld := ⟨Reg.INJ_WEIGHT1, 7, 0⟩

/-- `INJ_SAMPLE.K`, bits [12:0], RW. -/
def F.INJ_SAMPLE_K : Fld := ⟨Reg.INJ_SAMPLE, 12, 0⟩

/-- `INJ_POL_CTRL.ENABLE`, bits [31:31], RW. -/
def F.INJ_POL_CTRL_ENABLE (i : Nat) (c : Nat) : Fld := ⟨Reg.INJ_POL_CTRL i c, 31, 31⟩

/-- `INJ_POL_CTRL.AWARE`, bits [30:30], RW. -/
def F.INJ_POL_CTRL_AWARE (i : Nat) (c : Nat) : Fld := ⟨Reg.INJ_POL_CTRL i c, 30, 30⟩

/-- `INJ_POL_CTRL.ERR`, bits [29:29], RO. -/
def F.INJ_POL_CTRL_ERR (i : Nat) (c : Nat) : Fld := ⟨Reg.INJ_POL_CTRL i c, 29, 29⟩

/-- `INJ_POL_CTRL.CIR`, bits [19:0], RW. -/
def F.INJ_POL_CTRL_CIR (i : Nat) (c : Nat) : Fld := ⟨Reg.INJ_POL_CTRL i c, 19, 0⟩

/-- `INJ_POL_PIR.PIR`, bits [19:0], RW. -/
def F.INJ_POL_PIR_PIR (i : Nat) (c : Nat) : Fld := ⟨Reg.INJ_POL_PIR i c, 19, 0⟩

/-- `LNG_LANE_CTRL.ENABLE`, bits [31:31], RW. -/
def F.LNG_LANE_CTRL_ENABLE (l : Nat) : Fld := ⟨Reg.LNG_LANE_CTRL l, 31, 31⟩

/-- `LNG_LANE_CTRL.RETRAIN`, bits [30:30], W1S. -/
def F.LNG_LANE_CTRL_RETRAIN (l : Nat) : Fld := ⟨Reg.LNG_LANE_CTRL l, 30, 30⟩

/-- `LNG_LANE_CTRL.WIDTH`, bits [29:28], RW. -/
def F.LNG_LANE_CTRL_WIDTH (l : Nat) : Fld := ⟨Reg.LNG_LANE_CTRL l, 29, 28⟩

/-- `LNG_LANE_CTRL.EQ_FIXED`, bits [27:27], RW. -/
def F.LNG_LANE_CTRL_EQ_FIXED (l : Nat) : Fld := ⟨Reg.LNG_LANE_CTRL l, 27, 27⟩

/-- `LNG_LANE_CTRL.EQ_PRESET`, bits [26:22], RW. -/
def F.LNG_LANE_CTRL_EQ_PRESET (l : Nat) : Fld := ⟨Reg.LNG_LANE_CTRL l, 26, 22⟩

/-- `LNG_LANE_CTRL.PHASE_REQ`, bits [21:20], RW. -/
def F.LNG_LANE_CTRL_PHASE_REQ (l : Nat) : Fld := ⟨Reg.LNG_LANE_CTRL l, 21, 20⟩

/-- `LNG_LANE_STATUS.LINK`, bits [31:30], RO. -/
def F.LNG_LANE_STATUS_LINK (l : Nat) : Fld := ⟨Reg.LNG_LANE_STATUS l, 31, 30⟩

/-- `LNG_LANE_STATUS.PHASE`, bits [29:28], RO. -/
def F.LNG_LANE_STATUS_PHASE (l : Nat) : Fld := ⟨Reg.LNG_LANE_STATUS l, 29, 28⟩

/-- `LNG_LANE_STATUS.WIDTH`, bits [27:26], RO. -/
def F.LNG_LANE_STATUS_WIDTH (l : Nat) : Fld := ⟨Reg.LNG_LANE_STATUS l, 27, 26⟩

/-- `LNG_LANE_STATUS.EQ_USED`, bits [25:21], RO. -/
def F.LNG_LANE_STATUS_EQ_USED (l : Nat) : Fld := ⟨Reg.LNG_LANE_STATUS l, 25, 21⟩

/-- `LNG_LANE_STATUS.OVERRUN`, bits [20:20], RO. -/
def F.LNG_LANE_STATUS_OVERRUN (l : Nat) : Fld := ⟨Reg.LNG_LANE_STATUS l, 20, 20⟩

/-- `LNG_LANE_STATUS.PEER_LANE`, bits [19:10], RO. -/
def F.LNG_LANE_STATUS_PEER_LANE (l : Nat) : Fld := ⟨Reg.LNG_LANE_STATUS l, 19, 10⟩

/-- `LNG_LANE_PEER.VALID`, bits [31:31], RO. -/
def F.LNG_LANE_PEER_VALID (l : Nat) : Fld := ⟨Reg.LNG_LANE_PEER l, 31, 31⟩

/-- `LNG_LANE_PEER.ADDR`, bits [16:0], RO. -/
def F.LNG_LANE_PEER_ADDR (l : Nat) : Fld := ⟨Reg.LNG_LANE_PEER l, 16, 0⟩

/-- `HPT_CTRL.DISABLE`, bits [31:31], RW. -/
def F.HPT_CTRL_DISABLE (p : Nat) : Fld := ⟨Reg.HPT_CTRL p, 31, 31⟩

/-- `HPT_CTRL.CXL_OFFER`, bits [30:30], RW. -/
def F.HPT_CTRL_CXL_OFFER (p : Nat) : Fld := ⟨Reg.HPT_CTRL p, 30, 30⟩

/-- `HPT_CTRL.CXLMEM_EN`, bits [29:29], RW. -/
def F.HPT_CTRL_CXLMEM_EN (p : Nat) : Fld := ⟨Reg.HPT_CTRL p, 29, 29⟩

/-- `HPT_CTRL.RETRAIN`, bits [28:28], W1S. -/
def F.HPT_CTRL_RETRAIN (p : Nat) : Fld := ⟨Reg.HPT_CTRL p, 28, 28⟩

/-- `HPT_CTRL.MEM_SIZE`, bits [19:16], RW. -/
def F.HPT_CTRL_MEM_SIZE (p : Nat) : Fld := ⟨Reg.HPT_CTRL p, 19, 16⟩

/-- `HPT_STATUS.MODE`, bits [31:30], RO. -/
def F.HPT_STATUS_MODE (p : Nat) : Fld := ⟨Reg.HPT_STATUS p, 31, 30⟩

/-- `HPT_STATUS.RATE`, bits [29:27], RO. -/
def F.HPT_STATUS_RATE (p : Nat) : Fld := ⟨Reg.HPT_STATUS p, 29, 27⟩

/-- `HPT_STATUS.WIDTH`, bits [26:22], RO. -/
def F.HPT_STATUS_WIDTH (p : Nat) : Fld := ⟨Reg.HPT_STATUS p, 26, 22⟩

/-- `HPT_STATUS.CACHE`, bits [21:21], RO. -/
def F.HPT_STATUS_CACHE (p : Nat) : Fld := ⟨Reg.HPT_STATUS p, 21, 21⟩

/-- `HPT_STATUS.MEM`, bits [20:20], RO. -/
def F.HPT_STATUS_MEM (p : Nat) : Fld := ⟨Reg.HPT_STATUS p, 20, 20⟩

/-- `HPT_STATUS.MEM_REFUSED`, bits [19:19], RO. -/
def F.HPT_STATUS_MEM_REFUSED (p : Nat) : Fld := ⟨Reg.HPT_STATUS p, 19, 19⟩

/-- `HPT_STATUS.ATOMIC_EN`, bits [18:18], RO. -/
def F.HPT_STATUS_ATOMIC_EN (p : Nat) : Fld := ⟨Reg.HPT_STATUS p, 18, 18⟩

/-- `HPT_STATUS.SUSPENDED`, bits [17:17], RO. -/
def F.HPT_STATUS_SUSPENDED (p : Nat) : Fld := ⟨Reg.HPT_STATUS p, 17, 17⟩

/-- `MEM_CTRL.ENABLE`, bits [31:31], RW. -/
def F.MEM_CTRL_ENABLE : Fld := ⟨Reg.MEM_CTRL, 31, 31⟩

/-- `MEM_CTRL.DENSITY`, bits [4:4], RW. -/
def F.MEM_CTRL_DENSITY : Fld := ⟨Reg.MEM_CTRL, 4, 4⟩

/-- `MEM_CTRL.RATE`, bits [0:0], RW. -/
def F.MEM_CTRL_RATE : Fld := ⟨Reg.MEM_CTRL, 0, 0⟩

/-- `MEM_STATUS.TRAINED`, bits [31:31], RO. -/
def F.MEM_STATUS_TRAINED : Fld := ⟨Reg.MEM_STATUS, 31, 31⟩

/-- `MEM_STATUS.DEGRADED`, bits [30:30], RO. -/
def F.MEM_STATUS_DEGRADED : Fld := ⟨Reg.MEM_STATUS, 30, 30⟩

/-- `MEM_STATUS.REBUILDING`, bits [29:29], RO. -/
def F.MEM_STATUS_REBUILDING : Fld := ⟨Reg.MEM_STATUS, 29, 29⟩

/-- `MEM_STATUS.FAILED_DEV`, bits [3:0], RO. -/
def F.MEM_STATUS_FAILED_DEV : Fld := ⟨Reg.MEM_STATUS, 3, 0⟩

/-- `MEM_HOST_BASE.BASE`, bits [63:30], RW. -/
def F.MEM_HOST_BASE_BASE : Fld := ⟨Reg.MEM_HOST_BASE, 63, 30⟩

/-- `MEM_HOST_BASE.VALID`, bits [0:0], RW. -/
def F.MEM_HOST_BASE_VALID : Fld := ⟨Reg.MEM_HOST_BASE, 0, 0⟩

/-- `MEM_HOST_SIZE.SIZE`, bits [15:0], RO. -/
def F.MEM_HOST_SIZE_SIZE : Fld := ⟨Reg.MEM_HOST_SIZE, 15, 0⟩

/-- `PWR_CTRL.IDLE`, bits [15:0], RW. -/
def F.PWR_CTRL_IDLE : Fld := ⟨Reg.PWR_CTRL, 15, 0⟩

/-- `PWR_STATUS.PLL_RUN`, bits [31:31], RO. -/
def F.PWR_STATUS_PLL_RUN : Fld := ⟨Reg.PWR_STATUS, 31, 31⟩

/-- `PWR_STATUS.CHIP_ECLIPSE`, bits [30:30], RO. -/
def F.PWR_STATUS_CHIP_ECLIPSE : Fld := ⟨Reg.PWR_STATUS, 30, 30⟩

/-- `PWR_STATUS.ACTIVE_TILES`, bits [6:0], RO. -/
def F.PWR_STATUS_ACTIVE_TILES : Fld := ⟨Reg.PWR_STATUS, 6, 0⟩

/-- `PWR_TILE_CTRL.STANDING`, bits [25:24], RW. -/
def F.PWR_TILE_CTRL_STANDING (t : Nat) : Fld := ⟨Reg.PWR_TILE_CTRL t, 25, 24⟩

/-- `PWR_TILE_CTRL.RET_SEL`, bits [23:16], RW. -/
def F.PWR_TILE_CTRL_RET_SEL (t : Nat) : Fld := ⟨Reg.PWR_TILE_CTRL t, 23, 16⟩

/-- `PWR_TILE_REQ.STATE`, bits [1:0], WO. -/
def F.PWR_TILE_REQ_STATE (t : Nat) : Fld := ⟨Reg.PWR_TILE_REQ t, 1, 0⟩

/-- `PWR_TILE_STATUS.STATE`, bits [31:30], RO. -/
def F.PWR_TILE_STATUS_STATE (t : Nat) : Fld := ⟨Reg.PWR_TILE_STATUS t, 31, 30⟩

/-- `PWR_TILE_STATUS.TARGET`, bits [29:28], RO. -/
def F.PWR_TILE_STATUS_TARGET (t : Nat) : Fld := ⟨Reg.PWR_TILE_STATUS t, 29, 28⟩

/-- `PWR_TILE_STATUS.CHANGING`, bits [27:27], RO. -/
def F.PWR_TILE_STATUS_CHANGING (t : Nat) : Fld := ⟨Reg.PWR_TILE_STATUS t, 27, 27⟩

/-- `PWR_TILE_STATUS.LATCHED`, bits [26:26], RO. -/
def F.PWR_TILE_STATUS_LATCHED (t : Nat) : Fld := ⟨Reg.PWR_TILE_STATUS t, 26, 26⟩

/-- `PWR_TILE_STATUS.LATCH_STATE`, bits [25:24], RO. -/
def F.PWR_TILE_STATUS_LATCH_STATE (t : Nat) : Fld := ⟨Reg.PWR_TILE_STATUS t, 25, 24⟩

/-- `PWR_TILE_STATUS.RET_VALID`, bits [23:16], RO. -/
def F.PWR_TILE_STATUS_RET_VALID (t : Nat) : Fld := ⟨Reg.PWR_TILE_STATUS t, 23, 16⟩

/-- `PWR_TILE_STATUS.LAST_CAUSE`, bits [15:8], RO. -/
def F.PWR_TILE_STATUS_LAST_CAUSE (t : Nat) : Fld := ⟨Reg.PWR_TILE_STATUS t, 15, 8⟩

/-- `PWR_TILE_STATUS.STEP`, bits [7:4], RO. -/
def F.PWR_TILE_STATUS_STEP (t : Nat) : Fld := ⟨Reg.PWR_TILE_STATUS t, 7, 4⟩

/-- `PWR_TILE_TEMP.BROWNOUT`, bits [12:12], W1C. -/
def F.PWR_TILE_TEMP_BROWNOUT (t : Nat) : Fld := ⟨Reg.PWR_TILE_TEMP t, 12, 12⟩

/-- `PWR_TILE_TEMP.ALLOWED`, bits [11:8], RO. -/
def F.PWR_TILE_TEMP_ALLOWED (t : Nat) : Fld := ⟨Reg.PWR_TILE_TEMP t, 11, 8⟩

/-- `PWR_TILE_TEMP.TEMP`, bits [7:0], RO. -/
def F.PWR_TILE_TEMP_TEMP (t : Nat) : Fld := ⟨Reg.PWR_TILE_TEMP t, 7, 0⟩

/-- `FLT_UNACK.FATAL`, bits [2:2], W1C. -/
def F.FLT_UNACK_FATAL (blk : Nat) : Fld := ⟨Reg.FLT_UNACK blk, 2, 2⟩

/-- `FLT_UNACK.CONTAINED`, bits [1:1], W1C. -/
def F.FLT_UNACK_CONTAINED (blk : Nat) : Fld := ⟨Reg.FLT_UNACK blk, 1, 1⟩

/-- `FLT_UNACK.CORRECTED`, bits [0:0], W1C. -/
def F.FLT_UNACK_CORRECTED (blk : Nat) : Fld := ⟨Reg.FLT_UNACK blk, 0, 0⟩

/-- `FLT_INT.ENABLE`, bits [2:0], RW. -/
def F.FLT_INT_ENABLE (blk : Nat) : Fld := ⟨Reg.FLT_INT blk, 2, 0⟩

/-- `FLT_FIRST.VALID`, bits [31:31], W1C. -/
def F.FLT_FIRST_VALID (blk : Nat) : Fld := ⟨Reg.FLT_FIRST blk, 31, 31⟩

/-- `FLT_FIRST.STICKY`, bits [30:30], RO. -/
def F.FLT_FIRST_STICKY (blk : Nat) : Fld := ⟨Reg.FLT_FIRST blk, 30, 30⟩

/-- `FLT_FIRST.FORCED`, bits [29:29], RO. -/
def F.FLT_FIRST_FORCED (blk : Nat) : Fld := ⟨Reg.FLT_FIRST blk, 29, 29⟩

/-- `FLT_FIRST.ESCALATED`, bits [28:28], RO. -/
def F.FLT_FIRST_ESCALATED (blk : Nat) : Fld := ⟨Reg.FLT_FIRST blk, 28, 28⟩

/-- `FLT_FIRST.CLASS`, bits [25:24], RO. -/
def F.FLT_FIRST_CLASS (blk : Nat) : Fld := ⟨Reg.FLT_FIRST blk, 25, 24⟩

/-- `FLT_FIRST.SOURCE`, bits [4:0], RO. -/
def F.FLT_FIRST_SOURCE (blk : Nat) : Fld := ⟨Reg.FLT_FIRST blk, 4, 0⟩

/-- `MGT_FLT_PIN.DRIVE`, bits [31:31], RW. -/
def F.MGT_FLT_PIN_DRIVE : Fld := ⟨Reg.MGT_FLT_PIN, 31, 31⟩

/-- `MGT_FLT_PIN.LEVEL`, bits [30:30], RO. -/
def F.MGT_FLT_PIN_LEVEL : Fld := ⟨Reg.MGT_FLT_PIN, 30, 30⟩

/-- `MGT_FLT_PIN.STICKY`, bits [29:29], RO. -/
def F.MGT_FLT_PIN_STICKY : Fld := ⟨Reg.MGT_FLT_PIN, 29, 29⟩

/-- `MGT_FLT_PIN.HALTED`, bits [28:28], RO. -/
def F.MGT_FLT_PIN_HALTED : Fld := ⟨Reg.MGT_FLT_PIN, 28, 28⟩

/-- `MGT_FLT_PIN.PULSE_MIN`, bits [1:0], RW. -/
def F.MGT_FLT_PIN_PULSE_MIN : Fld := ⟨Reg.MGT_FLT_PIN, 1, 0⟩

/-- `CNT_SEL.ENABLE`, bits [31:31], RW. -/
def F.CNT_SEL_ENABLE (b : Nat) (c : Nat) : Fld := ⟨Reg.CNT_SEL b c, 31, 31⟩

/-- `CNT_SEL.MODE`, bits [30:30], RW. -/
def F.CNT_SEL_MODE (b : Nat) (c : Nat) : Fld := ⟨Reg.CNT_SEL b c, 30, 30⟩

/-- `CNT_SEL.CHAIN`, bits [29:29], RW. -/
def F.CNT_SEL_CHAIN (b : Nat) (c : Nat) : Fld := ⟨Reg.CNT_SEL b c, 29, 29⟩

/-- `CNT_SEL.OVF`, bits [28:28], W1C. -/
def F.CNT_SEL_OVF (b : Nat) (c : Nat) : Fld := ⟨Reg.CNT_SEL b c, 28, 28⟩

/-- `CNT_SEL.SUB`, bits [23:16], RW. -/
def F.CNT_SEL_SUB (b : Nat) (c : Nat) : Fld := ⟨Reg.CNT_SEL b c, 23, 16⟩

/-- `CNT_SEL.EVENT`, bits [7:0], RW. -/
def F.CNT_SEL_EVENT (b : Nat) (c : Nat) : Fld := ⟨Reg.CNT_SEL b c, 7, 0⟩

/-- `CNT_CTRL.ENABLE`, bits [31:31], RW. -/
def F.CNT_CTRL_ENABLE : Fld := ⟨Reg.CNT_CTRL, 31, 31⟩

/-- `CNT_CTRL.FREEZE`, bits [30:30], RW. -/
def F.CNT_CTRL_FREEZE : Fld := ⟨Reg.CNT_CTRL, 30, 30⟩

/-- `CNT_CTRL.K`, bits [15:0], RW. -/
def F.CNT_CTRL_K : Fld := ⟨Reg.CNT_CTRL, 15, 0⟩

/-- `CNT_RING_BASE.BASE`, bits [63:12], RW. -/
def F.CNT_RING_BASE_BASE : Fld := ⟨Reg.CNT_RING_BASE, 63, 12⟩

/-- `CNT_RING_CFG.SLOT_LOG2`, bits [15:8], RW. -/
def F.CNT_RING_CFG_SLOT_LOG2 : Fld := ⟨Reg.CNT_RING_CFG, 15, 8⟩

/-- `CNT_RING_CFG.NSLOTS_LOG2`, bits [7:0], RW. -/
def F.CNT_RING_CFG_NSLOTS_LOG2 : Fld := ⟨Reg.CNT_RING_CFG, 7, 0⟩

/-- `CNT_RING_POS.POSITION`, bits [9:0], RO. -/
def F.CNT_RING_POS_POSITION : Fld := ⟨Reg.CNT_RING_POS, 9, 0⟩

/-- `MGT_CTRL.DEV_RESET`, bits [31:31], W1S. -/
def F.MGT_CTRL_DEV_RESET : Fld := ⟨Reg.MGT_CTRL, 31, 31⟩

/-- `MGT_CTRL.SB_WRITE`, bits [30:30], RW. -/
def F.MGT_CTRL_SB_WRITE : Fld := ⟨Reg.MGT_CTRL, 30, 30⟩

/-- `MGT_STATUS.JOINED`, bits [31:31], RO. -/
def F.MGT_STATUS_JOINED : Fld := ⟨Reg.MGT_STATUS, 31, 31⟩

/-- `MGT_STATUS.STEP`, bits [30:27], RO. -/
def F.MGT_STATUS_STEP : Fld := ⟨Reg.MGT_STATUS, 30, 27⟩

/-- `MGT_STATUS.JOIN_WAIT`, bits [26:24], RO. -/
def F.MGT_STATUS_JOIN_WAIT : Fld := ⟨Reg.MGT_STATUS, 26, 24⟩

/-- `MGT_STATUS.SB_ONLY`, bits [23:23], RO. -/
def F.MGT_STATUS_SB_ONLY : Fld := ⟨Reg.MGT_STATUS, 23, 23⟩

/-- `MGT_STATUS.OWNER_SEL`, bits [22:20], RO. -/
def F.MGT_STATUS_OWNER_SEL : Fld := ⟨Reg.MGT_STATUS, 22, 20⟩

/-- `MGT_STATUS.SB_ADDR`, bits [19:16], RO. -/
def F.MGT_STATUS_SB_ADDR : Fld := ⟨Reg.MGT_STATUS, 19, 16⟩

/-- `MGT_LEVEL.PINNED`, bits [31:16], RO. -/
def F.MGT_LEVEL_PINNED : Fld := ⟨Reg.MGT_LEVEL, 31, 16⟩

/-- `MGT_LEVEL.FW_VERSION`, bits [15:0], RO. -/
def F.MGT_LEVEL_FW_VERSION : Fld := ⟨Reg.MGT_LEVEL, 15, 0⟩

/-- `MGT_PROFILE_CTRL.VALID`, bits [31:31], RW. -/
def F.MGT_PROFILE_CTRL_VALID : Fld := ⟨Reg.MGT_PROFILE_CTRL, 31, 31⟩

/-- `MGT_PROFILE_CTRL.ERR`, bits [30:30], RO. -/
def F.MGT_PROFILE_CTRL_ERR : Fld := ⟨Reg.MGT_PROFILE_CTRL, 30, 30⟩

/-- `MGT_PROFILE_CTRL.AUTO`, bits [29:29], RW. -/
def F.MGT_PROFILE_CTRL_AUTO : Fld := ⟨Reg.MGT_PROFILE_CTRL, 29, 29⟩

/-- `MGT_PROFILE_CTRL.SVALID`, bits [2:2], RW. -/
def F.MGT_PROFILE_CTRL_SVALID : Fld := ⟨Reg.MGT_PROFILE_CTRL, 2, 2⟩

/-- `MGT_PROFILE_CTRL.SEPOCH`, bits [1:1], RW. -/
def F.MGT_PROFILE_CTRL_SEPOCH : Fld := ⟨Reg.MGT_PROFILE_CTRL, 1, 1⟩

/-- `MGT_PROFILE_CTRL.REPOCH`, bits [0:0], RW. -/
def F.MGT_PROFILE_CTRL_REPOCH : Fld := ⟨Reg.MGT_PROFILE_CTRL, 0, 0⟩

/-- `MGT_AGREE_LAST.DIFF`, bits [23:16], RO. -/
def F.MGT_AGREE_LAST_DIFF : Fld := ⟨Reg.MGT_AGREE_LAST, 23, 16⟩

/-- `MGT_AGREE_LAST.LANE`, bits [9:0], RO. -/
def F.MGT_AGREE_LAST_LANE : Fld := ⟨Reg.MGT_AGREE_LAST, 9, 0⟩

/-- `ID_PART.FAMILY`, bits [31:16], RO. -/
def F.ID_PART_FAMILY : Fld := ⟨Reg.ID_PART, 31, 16⟩

/-- `ID_PART.PART`, bits [15:0], RO. -/
def F.ID_PART_PART : Fld := ⟨Reg.ID_PART, 15, 0⟩

/-- `ID_STEPPING.MAJOR`, bits [7:4], RO. -/
def F.ID_STEPPING_MAJOR : Fld := ⟨Reg.ID_STEPPING, 7, 4⟩

/-- `ID_STEPPING.MINOR`, bits [3:0], RO. -/
def F.ID_STEPPING_MINOR : Fld := ⟨Reg.ID_STEPPING, 3, 0⟩

/-- `ID_CAP.LANES_HI`, bits [3:3], RO. -/
def F.ID_CAP_LANES_HI : Fld := ⟨Reg.ID_CAP, 3, 3⟩

/-- `ID_CAP.GDDR`, bits [2:2], RO. -/
def F.ID_CAP_GDDR : Fld := ⟨Reg.ID_CAP, 2, 2⟩

/-- `ID_CAP.CRYPT`, bits [1:1], RO. -/
def F.ID_CAP_CRYPT : Fld := ⟨Reg.ID_CAP, 1, 1⟩

/-- `ID_CAP.REDUCE`, bits [0:0], RO. -/
def F.ID_CAP_REDUCE : Fld := ⟨Reg.ID_CAP, 0, 0⟩

/-- `ID_LEVELS.HIGHEST`, bits [31:16], RO. -/
def F.ID_LEVELS_HIGHEST : Fld := ⟨Reg.ID_LEVELS, 31, 16⟩

/-- `ID_LEVELS.LOWEST`, bits [15:0], RO. -/
def F.ID_LEVELS_LOWEST : Fld := ⟨Reg.ID_LEVELS, 15, 0⟩

/-- `ID_FORMATS.DUMP_VER`, bits [31:24], RO. -/
def F.ID_FORMATS_DUMP_VER : Fld := ⟨Reg.ID_FORMATS, 31, 24⟩

/-- `ID_FORMATS.JRNL_VER`, bits [23:16], RO. -/
def F.ID_FORMATS_JRNL_VER : Fld := ⟨Reg.ID_FORMATS, 23, 16⟩

/-- `ID_FORMATS.LINK_VER`, bits [15:8], RO. -/
def F.ID_FORMATS_LINK_VER : Fld := ⟨Reg.ID_FORMATS, 15, 8⟩

/-- `ID_FORMATS.CELL_VER`, bits [7:0], RO. -/
def F.ID_FORMATS_CELL_VER : Fld := ⟨Reg.ID_FORMATS, 7, 0⟩

end Sys2Proof.Machine
end

