-- ==== Sys2Proof/Config.lean ====
section
/-! DEFINITION. What one part fixes, and the free values: values that the spec says exist and does not state. A free
value is an opaque function of a count that State holds (`State.draws`), so that nothing can be proved about it but
what holds of every value. -/

namespace Sys2Proof.Config

/-- FREE: the unreproducible generator that picks an output port (04 R129). Log entry 3. -/
opaque freeDraw : Nat → Nat

/-- FREE: the 40-bit seeds that the two ends of a lane draw from on-die entropy (14 R424). Log entry 3. -/
opaque freeSeed : Nat → BitVec 64

/-- FREE: how many sixteenths of a nanosecond of a correction are slewed in one time unit (05 R157). Log entry 4. -/
opaque freeSlew : Nat → Bool

/-- FREE: a 64-bit value that the spec leaves undefined. Log entry 6. -/
opaque freeWord : Nat → BitVec 64

/-- FREE: which of several equally placed choices the part takes, where the spec fixes none. Log entry 7. -/
opaque freeChoice : Nat → Nat

/-- FREE: a connection key wrapped under the key in the part's fuses, as the journal holds it (06 R231). Log
entry 16. -/
opaque wrapKey : BitVec 256 → BitVec 256

/-- FREE: how a configuration record of the journal lays out what it holds, for each kind of record (06 R232). Log entry 29. -/
opaque recordOf : Nat → Nat → Nat

/-- FREE: which of the 32 table, epoch and N records holds what (06 R232). Log entry 29. -/
opaque recordPlace : Nat → Nat

end Sys2Proof.Config
end

