-- ==== Sys2Proof/Machine/ResetTables.lean ====
section
/-! DEFINITION. The contents that the loadable tables hold after a device reset, written from the chapters' own
tables: the equaliser presets (14 R433), the power sequences (17 R493) and the congestion curve (06 R222). Each is a
number whose byte `b` is bits [8b+7 : 8b]. -/

namespace Sys2Proof.Machine

/-- A table of `w`-byte entries, the first lowest. -/
def packLE (w : Nat) : List Nat → Nat
  | [] => 0
  | x :: t => x + 2 ^ (8 * w) * packLE w t

/-- After a device reset, entries 0-24 have VALID = 1, PEAK = n and POLE = 7; entries 25-31 are zero (14 R433). -/
def eqTableReset : Nat := packLE 4 ((List.range 25).map (fun n => 0x0780 + n))

/-- One step of a power sequence with WAIT = 0: ACTION, and ABORT in bit 7 of the second byte (17 R490). -/
def pwrStep (a : Nat) (abort : Bool) : Nat := if abort then a + 0x8000 else a

/-- A sequence of 16 steps; END steps fill it. -/
def pwrSeq (l : List Nat) : Nat := packLE 4 l % 2 ^ 512

/-- The four sequences after a device reset (17 R493). -/
def powerTableReset : Nat := packLE 64 [
  pwrSeq [pwrStep 1 true, pwrStep 2 true, pwrStep 3 true, pwrStep 7 true],
  pwrSeq [pwrStep 1 true, pwrStep 2 true, pwrStep 3 true, pwrStep 4 true, pwrStep 5 true, pwrStep 6 true,
    pwrStep 7 false, pwrStep 8 false, pwrStep 9 false],
  pwrSeq [pwrStep 0x0E false, pwrStep 0x10 false],
  pwrSeq [pwrStep 0x0A false, pwrStep 0x0B false, pwrStep 0x0C false, pwrStep 0x0D false, pwrStep 0x0E false,
    pwrStep 0x0F false, pwrStep 0x10 false]]

/-- The curve entry for excess code `e` and mark code `m` after a device reset (06 R222). -/
def curveResetEntry (e m : Nat) : Nat :=
  if m = 0 then (if e ≤ 1 then 0x100 else if e ≤ 3 then 0x10 else if e ≤ 7 then 0x10000000 else 0x40000000)
  else if m ≤ 3 then (if e ≤ 7 then 0x20000000 else 0x40000000)
  else 0x80000000

/-- The congestion-curve table after a device reset, entry 16e + m (06 R220, R222). -/
def curveTableReset : Nat := packLE 4 ((List.range 256).map (fun i => curveResetEntry (i / 16) (i % 16)))

end Sys2Proof.Machine
end

