-- ==== Sys2Proof/Machine/State.lean ====
section
/-! DEFINITION. The state of the block, all of it plain data, and the state after reset. -/

namespace Sys2Proof.Machine

/-- What stops the machine. -/
inductive Fault where
  /-- A supply rail left its operating range while PWR_GOOD stayed high: the spec says that the chip's state is
  undefined and gives no effect (22 R595). Raised by the meaning of RAIL_OUT_OF_RANGE alone. SAFE: the model stops
  where the hardware goes on in a state nobody knows. -/
  | railOutOfRange
  deriving DecidableEq, Repr

/-- Why a command is not carried out. -/
inductive Refusal where
  /-- The command has no meaning in this model yet. Raised by the arms of exec alone. SAFE. -/
  | notModelled (mnemonic : String)
  deriving DecidableEq, Repr

/-- What is fixed for one part by fuse, strap, stepping and flash (00 R2, 03 R75, 20 R543 and R548, 21 R573). No
command changes it but POWER_UP, which samples the straps. -/
structure Part where
  /-- Reduction arithmetic, encryption, GDDR7 and lane groups 32-63 present (00 R4). -/
  reduce : Bool := true
  crypt : Bool := true
  gddr : Bool := true
  lanesHi : Bool := true
  chipId : Word64 := 0x0000000000000001#64
  stepMajor : Nat := 1
  stepMinor : Nat := 0
  highest : Nat := 1
  ownerSel : Fin 8 := 0
  sbOnly : Bool := false
  sbAddr : Fin 16 := 0
  deriving DecidableEq, Repr

/-- A requester of set-up space: a host port or the sideband port has latches and held halves of its own (21 R569). -/
structure Requester where
  /-- The latched high halves, and latched chained counters, by their address (R569, 05 R152, 19 R532). -/
  latch : List (Nat × Word) := []
  /-- The held low half of a 64-bit write, with its register's address. -/
  held : Option (Nat × Word) := none
  deriving DecidableEq, Repr

/-- The fault logic that lies behind the fault registers (18 R513-R523). -/
structure FaultLogic where
  /-- Time of the last raise of a source, by fault key (block address + source). -/
  last : List (Nat × Nat) := []
  /-- Sources whose standing condition holds. -/
  standing : List Nat := []
  /-- Sources raised as sticky FATAL (R522). -/
  sticky : List Nat := []
  /-- A fault message is to be sent, or is held pending while the control owner's link is down (R517). -/
  msiDue : Bool := false
  /-- Fabric time at which the last fault message was sent. -/
  msiLast : Option Nat := none
  /-- Fault messages sent. -/
  msiSent : Nat := 0
  /-- An ERR_N pulse is being driven (R518). -/
  pulse : Bool := false
  /-- A further pulse starts 2 us after the end of the last. -/
  pulseNext : Bool := false
  /-- Fabric time at which the last pulse ended. -/
  pulseEnd : Option Nat := none
  deriving DecidableEq, Repr

/-- A cell in the cell store of a tile, or built here and not yet queued (01 R17, 04 R133, R135). -/
structure HeldCell where
  /-- The link it arrived on, by its lowest lane; none for a cell built on this chip. -/
  inp : Option Nat := none
  cell : Cell
  /-- The output port it is queued on was picked as a detour (R129, R130). -/
  detour : Bool := false
  deriving DecidableEq, Repr

/-- The routing state that no register holds (04 R124-R147). -/
structure Routing where
  /-- The image of route epoch 0 and of 1, as the bit string of R125. -/
  table0 : Nat := 0
  table1 : Nat := 0
  /-- The fabric time of the tide at which a PENDING epoch becomes ACTIVE (R140). -/
  switchAt : Nat := 0
  /-- The fabric time T of the tide at which an epoch became RETIRING (R144). -/
  retireFrom : Nat := 0
  /-- Cells held here that wait for their pick, oldest first. -/
  held : List HeldCell := []
  /-- Cells queued on an output port, by port, oldest first. -/
  outQ : List (Nat × List HeldCell) := []
  /-- Cells delivered at this chip that the receive path has not taken yet. -/
  delivered : List HeldCell := []
  /-- DRAIN(e, h) received, as (e, h, link) (R144). -/
  drainIn : List (Nat × Nat × Nat) := []
  /-- DRAIN(e, h) sent, as (e, h, link) (R144). -/
  drainOut : List (Nat × Nat × Nat) := []
  deriving DecidableEq, Repr

/-- One lane (14 R424-R428, R434, R443, R445). -/
structure Lane where
  seedTx : Word := 0x7FFFFFFF#32
  seedRx : Word := 0x7FFFFFFF#32
  /-- The stuff debt of the transmitter, and the receiver's copy of its peer's (R426). -/
  debtTx : Nat := 0
  debtRx : Nat := 0
  /-- TRAIN values received, by INDEX (R445). -/
  trainRx : List (Nat × Nat) := []
  /-- This end reports READY. -/
  ready : Bool := false
  /-- The INDEX of the next TRAIN word to send (R445). -/
  trainTx : Nat := 0
  /-- The preset chosen in step 2 (R434). -/
  eq : Nat := 0
  /-- Consecutive failed training attempts (R447, 18 R525). -/
  fails : Nat := 0
  /-- Fabric time of the last cell sent or received on the lane (17 R488). -/
  lastCell : Option Nat := none
  /-- Training is to start once the lane's tile is ACTIVE (01 R27). -/
  due : Bool := false
  deriving DecidableEq, Repr

/-- One link, kept under its lowest lane (14 R435-R448). -/
structure Link where
  /-- LSEQ of the next new cell to send; LSEQ of the next cell expected (R436, R437). -/
  txNext : Nat := 0
  rxNext : Nat := 0
  /-- LSEQ of the next cell to arrive: a REPLAY sets it back (R436, R438). -/
  rxSeq : Nat := 0
  /-- The retry buffer: cells sent and not acknowledged, oldest first (R436). -/
  retry : List (Nat × Cell) := []
  /-- Cells that a NAK asked for and that are to be sent again before new cells (R438). -/
  replay : List (Nat × Cell) := []
  /-- The receiver discards until REPLAY(NEXT); the time of its first NAK (R438, R448). -/
  nakAt : Option Nat := none
  /-- Credits spent, the peer's TOTAL, and the TOTAL returned here, by pool (R439). -/
  spent : List (Nat × Nat) := []
  total : List (Nat × Nat) := []
  back : List (Nat × Nat) := []
  /-- The credits granted at link up, by pool (R439): the cell-store space that the peer may fill. -/
  grant : List (Nat × Nat) := []
  /-- Control words waiting for a field (R430). -/
  words : List LinkWord := []
  /-- Control words received and not yet acted on. -/
  rxWords : List LinkWord := []
  /-- Times of uncorrectable codewords (R448). -/
  uncAt : List Nat := []
  /-- LINK_DOWN fields still to send before the transmitter falls silent (R448). -/
  downLeft : Nat := 0
  silent : Bool := false
  /-- A stall on a full retry buffer is being counted (R440). -/
  stalled : Bool := false
  /-- The phase this end has asked for, and the phase both ends agreed on that waits for the retry buffer to empty
  (R441, R442). -/
  phaseAsk : Option Nat := none
  phaseDue : Option Nat := none
  /-- An exit to FULL is in progress, from this phase; the first ACK and the first CREDIT of it have come (R443). -/
  exitFrom : Option Nat := none
  gotAck : Bool := false
  gotCredit : Bool := false
  /-- Codewords sent since the last ACK, and since the last CREDIT of each pool (R430). -/
  ackAge : Nat := 0
  creditAge : List (Nat × Nat) := []
  deriving DecidableEq, Repr

/-- What one codeword carried out of the chip (14 R421). -/
structure LineOut where
  lane : Nat
  cells : List Cell
  word : Option LinkWord
  deriving DecidableEq, Repr

/-- The lanes and links, and the equaliser preset table (14). -/
structure LinkState where
  lanes : List (Nat × Lane) := []
  links : List (Nat × Link) := []
  /-- The equaliser preset table, 128 bytes (R433); after a device reset entries 0-24 are valid with PEAK = n and
  POLE = 7. -/
  eqTable : Nat := eqTableReset
  /-- Codewords sent, oldest first. -/
  line : List LineOut := []
  deriving DecidableEq, Repr

/-- The power controller's state of one tile beside its registers (17 R485-R498). -/
structure TilePwr where
  /-- The sequence being run: 0-3 of R490. -/
  seqNo : Option Nat := none
  /-- The state that the change in progress ends in (R480). -/
  final : Nat := 0
  /-- The table contents in force when the change started (R492). -/
  table : Nat := 0
  /-- The wake event that is pending during an entry, by its cause (R494). -/
  wake : Option Nat := none
  /-- The latched request is a wake event, with its cause (R485). -/
  latchWake : Option Nat := none
  /-- The LAST_CAUSE of the latched request, where it is no wake event and asks for ACTIVE: software or the sideband (R509). -/
  latchBy : Nat := 0
  /-- Banks whose check codes this entry took (R500, R501). -/
  sel : Nat := 0
  /-- The phases that the tile's links had before LANES (R494). -/
  phases : List (Nat × Nat) := []
  /-- The regulator has reported a brown-out since the last entry (R502). -/
  brown : Bool := false
  /-- Banks that VERIFY invalidated for a mismatch or a brown-out, and whose contexts firmware is to reload (R503). -/
  reload : Nat := 0
  deriving DecidableEq, Repr

/-- What an engine works on (01 R20): the walk for a tile's miss of an instance and an address, an admin command by its
record, the start of a pull for an entry of the unexpected store, the tree step of an operation of a group. -/
inductive TaskId where
  | miss (tile inst va : Nat)
  | admin (rec : Nat)
  | pull (entry : Nat)
  | tree (group op : Nat)
  deriving DecidableEq, Repr

/-- An engine task of a tile: its engine 0-3, and whether it holds one of that engine's 16 slots; else it waits in the
tile's task queue (01 R21). -/
structure EngTask where
  tile : Nat
  engine : Nat
  task : TaskId
  slot : Bool := false
  deriving DecidableEq, Repr

/-- The power controller (17), and the engines of the tiles (01 R20, R21). -/
structure Power where
  tiles : List (Nat × TilePwr) := []
  /-- The engine tasks of every tile, in order of arrival. -/
  tasks : List EngTask := []
  /-- The power-sequencing table, 256 bytes (R490). -/
  table : Nat := powerTableReset
  /-- The PLLs have been told to start and are not locked yet (R508). -/
  pllStarting : Bool := false
  deriving DecidableEq, Repr

/-- What a read of set-up space, of an instance window or over the sideband answered (21 R568, 20 R563). -/
inductive ReadAnswer where
  | none
  /-- The requester (host port 0-7, sideband 8), the data and the number of bytes. -/
  | data (who : Nat) (value : Word64) (bytes : Nat)
  /-- A completion with Unsupported Request, which carries no data (R568). -/
  | unsupported (who : Nat)
  /-- A sideband answer: its status byte and the bytes that follow (20 R563). -/
  | sideband (status : Nat) (value : Nat) (bytes : Nat)
  /-- A line of a CXL.mem window, to the host of a port; or poisoned data (15 R459, 16 R475). -/
  | line (port : Nat) (value : BitVec 512)
  | poison (port : Nat)
  /-- The identity that the test access port shifts out (22 R587). -/
  | idcode (value : Word)
  deriving DecidableEq, Repr

/-- A transit source record of a schedule epoch (05 R180). -/
structure XRec where
  valid : Bool := false
  pfail : Bool := false
  bfail : Bool := false
  dst : Nat := 0
  out : Nat := 0
  bout : Nat := 0
  first : Nat := 0
  stride : Nat := 0
  count : Nat := 0
  bofs : Nat := 0
  p : Nat := 0
  pb : Nat := 0
  deriving DecidableEq, Repr

/-- A cell of a connection by its name: the handle of the connection and its SEQ and IDX. -/
structure CellRef where
  handle : Nat
  seq : Nat
  idx : Nat
  deriving DecidableEq, Repr

/-- One instance of an owned slot that this source began: its record, its absolute slot number, and the cells it
carried (05 R185). -/
structure SentWindow where
  epoch : Nat
  index : Nat
  slot : Nat
  backup : Bool
  at_ : Nat
  cells : List CellRef
  deriving DecidableEq, Repr

/-- The current window of an input link: epoch, label and the class-7 cells counted since its mark (05 R170). -/
structure Window where
  epoch : Nat
  label : Nat
  count : Nat
  /-- The table entry of the window, as found at its mark (R172). -/
  entry : Nat := 0x7FF
  deriving DecidableEq, Repr

/-- A transit cell that has its output and its time on it (05 R172). -/
structure DueCell where
  at_ : Nat
  cell : Cell
  /-- The link it arrived on, whose tile's cell store holds it until it is sent (01 R17); none for a cell built here. -/
  inp : Option Nat := none
  deriving DecidableEq, Repr

/-- The fabric-time unit and the transits, beside their registers (05). -/
structure Tim where
  /-- The part of the measured offset that is still to be slewed (R157). -/
  slew : Int := 0
  /-- Slewing's allowance in the current microsecond: units used, and the number of that microsecond. -/
  slewUsed : Nat := 0
  slewUs : Nat := 0
  /-- The rate last steered to, in sixteenths of a nanosecond a millisecond, and what has built up of it (R159). -/
  rate : Int := 0
  drift : Int := 0
  /-- Sixteenths of a nanosecond since the last crystal period that the coarse count took in (01 R28). -/
  coarse : Nat := 0
  /-- The exchange number; the exchange in progress, its departure time t1 and arrival time t4 (R156, R431). -/
  xchgNo : Nat := 0
  xchg : Option Nat := none
  t1 : Nat := 0
  t4 : Option Nat := none
  /-- The times t2 of the requests being answered, by link (R431). -/
  t2 : List (Nat × Nat) := []
  /-- Consecutive missed exchanges (R161). -/
  missed : Nat := 0
  /-- Steps at the next exchange that completes, after the 1 ms limit (R157). -/
  stepDue : Bool := false
  /-- Time is held: the chip has had an exchange or TIME_IN since the device reset (R160). -/
  held : Bool := false
  /-- Alignment of PPS within 4 ns reached, and the root's one step made, since it left UNSET (R163). -/
  aligned : Bool := false
  stepped : Bool := false
  /-- Fabric time of the last good exchange (R164) and of the entry into HOLDOVER. -/
  lastGood : Option Nat := none
  holdFrom : Option Nat := none
  /-- PPS edges seen in order by the check of TIME_IN (22 R590). -/
  ppsEdges : Nat := 0
  /-- The number of the last tide acted on (R606). -/
  lastTide : Nat := 0
  /-- Exchanges left of the four for which HALF or NEW was left (R159). -/
  raised : Nat := 0
  /-- The images of schedule epochs 0 and 1, as the bit string of R168. -/
  sched0 : Nat := 0
  sched1 : Nat := 0
  schedSwitchAt : Nat := 0
  schedRetireFrom : Nat := 0
  /-- The source records, record n of epoch e under 4096 e + n (R180). -/
  recs : List (Nat × XRec) := []
  /-- The current window of each input link (R170). -/
  windows : List (Nat × Window) := []
  /-- The source, epoch and label of the last 8 windows sent on each output (R184). -/
  lastSent : List (Nat × List (Nat × Nat × Nat)) := []
  /-- Class-7 cells received on a link and not yet handled (R170). -/
  transitIn : List (Nat × Cell) := []
  /-- Transit cells that hold an output at a time (R172, R174), by output. -/
  transitOut : List (Nat × List DueCell) := []
  /-- Window marks that are still to be sent on an output, as (time, DATA of the word): each goes after the cells of an earlier
  time and before the others (R169, R172). -/
  markOut : List (Nat × List (Nat × Nat)) := []
  /-- Instances begun (R185). -/
  begun : List SentWindow := []
  /-- Cells to be sent again in the backup instance of a slot, as (record key, absolute slot, cells) (R185). -/
  resend : List (Nat × Nat × List CellRef) := []
  /-- Windows whose payload has been read, as (record key, absolute slot) (R183). -/
  ready : List (Nat × Nat) := []
  /-- Links held FULL for the schedule (R194). -/
  holds : List Nat := []
  /-- TIME_OUT pulses driven (R153). -/
  timeOut : Nat := 0
  deriving DecidableEq, Repr

/-- The states of one end of a connection (06 R201). -/
inductive ConnState where
  | closed
  | opening
  | opened
  | broken
  deriving DecidableEq, Repr

/-- Where a context is held (06 R198): an on-die entry, a GDDR7 slot or a spill slot, by number. -/
inductive CtxPlace where
  | onDie (entry : Nat)
  | gddr (slot : Nat)
  | spill (slot : Nat)
  /-- The retention backup copy of an on-die entry whose bank lost it (01 R15, 17 R482, R503). -/
  | backup (entry : Nat)
  deriving DecidableEq, Repr

/-- One segment whose SEQ is assigned and that the peer's WM does not cover yet (06 R204, R216). -/
structure SendSeg where
  seq : Nat
  /-- The message, and the number of the segment in it. -/
  msg : Nat
  seg : Nat
  cells : Nat
  /-- The next cell of the segment to send for the first time. -/
  next : Nat := 0
  /-- Runs of cells to send again, as (first index, count) (R217). -/
  again : List (Nat × Nat) := []
  /-- Known to be complete at the target (R216). -/
  done : Bool := false
  /-- The latest time at which any cell of the segment was sent (R220). -/
  lastSent : Nat := 0
  /-- The key epoch under which the segment is sent, and whether its TAG has been sent (08 R298, R299). -/
  key : Nat := 0
  tagSent : Bool := false
  /-- The ciphertext of its cells as first sent under that epoch, by IDX: what the tag covers. -/
  ct : List (Nat × BitVec 512) := []
  deriving DecidableEq, Repr

/-- Where an outgoing message comes from: what its end completes (06 R215, 07 R268, 08 R289, 09 R317, 10 R345). -/
inductive MsgOrigin where
  /-- A work descriptor, by its descriptor slot. -/
  | desc (slot : Nat)
  /-- The READ_RESP to the READ_REQ of the given SEQ on the same connection; for a pull, the SEND's slot. -/
  | readResp (reqSeq : Nat) (send : Option Nat)
  /-- The READ_REQ of a pull for an entry of the unexpected store (07 R266). -/
  | pull (entry : Nat)
  /-- A message of the atomic and lock unit, by its unit slot (09 R315, R317). -/
  | unit (slot : Nat)
  /-- A message of a collective operation: the group's handle, the operation's number, and up or down (10 R345). -/
  | collective (group op : Nat) (down : Bool)
  deriving DecidableEq, Repr

/-- A message that this end sends on a connection, from its acceptance until the peer's WM covers it. -/
structure TxMsg where
  handle : Nat
  typ : Nat
  origin : MsgOrigin
  /-- Bytes of message data in its cells (R115). -/
  len : Nat
  /-- The extension of cell 0 (04 R114). -/
  extMatch : Nat := 0
  extImm : Nat := 0
  extLength : Nat := 0
  extKey : Nat := 0
  extOffset : Nat := 0
  /-- The virtual address of the source data in the instance; or the data itself, for a message the chip composes. -/
  src : Nat := 0
  inline : Option Nat := none
  fence : Bool := false
  yel : Bool := false
  /-- The first SEQ, once assigned (R204). -/
  seq : Option Nat := none
  /-- The time of a deadline (02 R61); the DTIME that the target reported (05 R188). -/
  deadline : Option Nat := none
  dtime : Option Nat := none
  /-- The source data could not be read: no further cell is sent (08 R602). -/
  stopped : Bool := false
  /-- The failure that FAULT reported (08 R294). -/
  status : Nat := 0
  /-- Its completion has been issued (08 R294, R602). -/
  reported : Bool := false
  /-- Message bytes that are here to send, for a collective message that is still being combined (10 R345). -/
  avail : Option Nat := none
  /-- Fabric time of acceptance. -/
  acceptedAt : Nat := 0
  deriving DecidableEq, Repr

/-- Where the cells of an arriving message go, once that is known (06 R211). -/
inductive RxTarget where
  | unknown
  /-- A buffer: instance, virtual address, its size. For a receive, the descriptor slot of the POST_RECV; for a READ,
  that of the READ. -/
  | buffer (inst va size : Nat) (slot : Option Nat)
  /-- An entry of the unexpected store (07 R258). -/
  | store (entry : Nat)
  /-- A request that the receive path hands to a unit: READ_REQ, ATOMIC_REQ, LOCK_REQ, and the responses that carry
  a result (ATOMIC_RESP, LOCK_RESP). -/
  | request
  /-- The staging of a collective operation (10 R342). -/
  | staging (group op : Nat)
  /-- The message failed, or its bytes are discarded. -/
  | discard
  deriving DecidableEq, Repr

/-- A message that this end receives, from its cell 0 until WM passes it (06 R210-R213). -/
structure RxMsg where
  seq : Nat
  typ : Nat
  len : Nat
  cell0 : Cell
  fence : Bool := false
  target : RxTarget := .unknown
  /-- Bytes counted as placed (R212, 07 R272). -/
  placed : Nat := 0
  /-- Time of delivery (05 R188). -/
  deliveredAt : Option Nat := none
  /-- Its own further condition for R213 holds: a request has been served (07 R268, 08 R289, 09 R316). -/
  served : Bool := false
  /-- Failure: its status, FAULT sent, FAULT_CONFIRM received (08 R294). -/
  status : Nat := 0
  faultSent : Bool := false
  confirmed : Bool := false
  /-- Its notice has been counted as waiting (08 R292). -/
  waited : Bool := false
  /-- The key that its cell 0 passed (08 R282). -/
  key : Option Nat := none
  /-- Its cell 0 waits to be matched, and has been counted (07 R255). -/
  ordering : Bool := false
  /-- The effective match bits with which it was matched (07 R249). -/
  eff : Nat := 0
  /-- The notice queue, if it was usable when cell 0 was checked (08 R290). -/
  note : Option Nat := none
  /-- MARKED of its last segment, once that is complete (R212). -/
  lastMarked : Nat := 0
  deriving DecidableEq, Repr

/-- A segment record (06 R210). -/
structure SegRec where
  seq : Nat
  /-- The cell map: bit `i` for IDX `i`. -/
  map : Nat := 0
  /-- Cells that arrived with CM set. -/
  marked : Nat := 0
  /-- Cells held for want of a known message, a fence or an order. -/
  held : List Cell := []
  /-- The ciphertext of the cells received, by IDX, the tag received, and whether it has verified (08 R298, R299). -/
  ct : List (Nat × BitVec 512) := []
  tag : Option (BitVec 128) := none
  tagOk : Bool := false
  deriving DecidableEq, Repr

/-- One key epoch of a connection (08 R297-R302). -/
structure KeyEpoch where
  epoch : Nat
  key : BitVec 256
  /-- The boundary of this end's own direction, once its handshake has completed. -/
  txFrom : Option Nat := none
  /-- The boundary of the peer's direction. -/
  rxFrom : Option Nat := none
  spent : Bool := false
  /-- The KIDX of the next SEQ to be assigned, and that of the SEQ after WM (R297). -/
  txCount : Nat := 0
  rxCount : Nat := 0
  deriving DecidableEq, Repr

/-- The context of one end of a connection (06 R196-R220, R231). -/
structure Conn where
  inst : Nat
  pd : Nat
  peerEp : Nat
  peerInst : Nat
  cls : Nat
  peerHandle : Nat
  encrypt : Bool := false
  st : ConnState := .closed
  /-- The status with which it broke (R603). -/
  brokeWith : Nat := 0
  /-- The local generation under which it was opened; the peer's generation, if known (R203, R231). -/
  openGen : Nat := 0
  peerGen : Option Nat := none
  place : CtxPlace := .onDie 0
  /-- When it was last used, for the swap of R199. -/
  used : Nat := 0
  -- the receiving direction
  wm : Nat := 0xFFFF
  front : Nat := 0xFFFF
  /-- The SEQ values above F of segments that are complete and placed: the selective map (R212). -/
  sel : List Nat := []
  rx : List RxMsg := []
  recs : List SegRec := []
  unmatched : Nat := 0
  -- the sending direction
  nextSeq : Nat := 0
  peerWm : Nat := 0xFFFF
  peerFront : Nat := 0xFFFF
  segs : List SendSeg := []
  /-- Fabric times at which SEQ values were assigned in the last 1 ms, with their number (R205). -/
  assigned : List (Nat × Nat) := []
  /-- W, in units of 1/256 cell (R219). -/
  w : Nat := 16384
  /-- The smallest sample of the current frame and of the previous one, with the current frame's number (R220). -/
  baseFrame : Nat := 0
  baseCur : Option Nat := none
  basePrev : Option Nat := none
  lastCut : Option Nat := none
  /-- n, and the times of the last cell sent and of the last progress (R216). -/
  expiries : Nat := 0
  lastCell : Nat := 0
  progress : Nat := 0
  -- encryption
  keys : List KeyEpoch := []
  /-- The KEY_SWITCH under way: epoch and boundary (R301). -/
  switching : Option (Nat × Nat) := none
  /-- Pulls in progress on the connection (07 R266). -/
  pulls : Nat := 0
  /-- Locks acquired through the connection and not released, as 2^48 RKEY + ROFFSET, with the lock word as granted (03 R97, 09
  R312). -/
  locks : List (Nat × Nat) := []
  deriving DecidableEq, Repr

/-- The transport, beside its registers (06). -/
structure Transport where
  conns : List (Nat × Conn) := []
  /-- Messages being sent, by an id that rises with acceptance. -/
  msgs : List (Nat × TxMsg) := []
  nextMsg : Nat := 0
  /-- The congestion-curve table (R221, R222). -/
  curve : Nat := curveTableReset
  /-- Items that wait for a context swap, as handles (R199). -/
  swaps : List Nat := []
  deriving DecidableEq, Repr

/-- The agreement with the peer of one link (20 R554-R556). -/
structure Agree where
  /-- DIGEST cells sent on the link, as (TIDE, record), the newest first. -/
  own : List (Nat × Nat) := []
  /-- DIGEST cells of the peer for a tide that this chip has not reached (R555). -/
  kept : List Cell := []
  /-- Cells with REPLY = 0 that wait for an answer, as (TIDE, time of the first sending), the newest first. -/
  waits : List (Nat × Nat) := []
  /-- The exchange with TIDE = 0 has been started since the link came up. -/
  zero : Bool := false
  /-- Cells that fell due while the link was not FULL, as (TIDE, REPLY). -/
  due : List (Nat × Bool) := []
  deriving DecidableEq, Repr

/-- An image that the sideband port has open (20 R563). -/
structure SbImage where
  /-- 0 a route epoch, 1 a schedule epoch, 2 a table; its number. -/
  kind : Nat
  number : Nat
  len : Nat
  crc : Nat
  plan : Nat
  deriving DecidableEq, Repr

/-- Start-up, agreement and the sideband port, beside their registers (20), and the contacts (22). -/
structure Mgt where
  /-- PWR_GOOD is high; RESET_N is high (22 R594). -/
  pwrGood : Bool := false
  resetN : Bool := true
  /-- VDD_AON is in its range (22). -/
  vddAon : Bool := true
  /-- The straps have been sampled since VDD_AON came up (R543). -/
  sampled : Bool := false
  /-- A device reset has been asked for and waits for the host writes (R545, 06 R227). -/
  resetDue : Bool := false
  /-- Instances that a host port with unacknowledged writes served at the last device reset: failover recovers them
  (06 R227). -/
  failover : List Nat := []
  /-- The firmware image runs (R544 step 2). -/
  fwRunning : Bool := false
  agree : List (Nat × Agree) := []
  /-- The record last sent on any link (R555). -/
  lastRec : Option Nat := none
  /-- The records built at the last tides, as (tide, record), the newest first. -/
  tideRecs : List (Nat × Nat) := []
  /-- The time-root identity in force (MGT_ROOT_ID, R557). -/
  rootId : Word64 := 0#64
  /-- The declared image the sideband is loading (R563). -/
  sbOpen : Option SbImage := none
  /-- A write of MGT_CTRL that waits for a sideband command in progress (R565). -/
  ctrlWait : Option Word := none
  /-- The 1 KiB staging buffer for table images (R563). -/
  stage : Nat := 0
  /-- The instruction of the test access port (22 R599). -/
  tap : TapInstr := .bypass
  deriving DecidableEq, Repr

/-- What a host has set in the configuration space of one function (15 R452, R456, R460, 11 R379). -/
structure FnCfg where
  /-- Bus Master Enable (12 R389); for a virtual function, with VF Enable of its port. -/
  bme : Bool := false
  /-- AtomicOp Requester Enable (R456). -/
  atomicEn : Bool := false
  /-- The assigned memory BARs, as (base, size). -/
  bars : List (Nat × Nat) := []
  deriving DecidableEq, Repr

/-- What an operation of the unit asks of a host word (09 R308, R311, R319, R320, R328): a compare-and-swap, a FetchAdd, a
Swap; or the read and compare-and-swap of an acquire, by the owner word without ABANDONED. -/
inductive WordAct where
  | cas (expected new : Nat)
  | add (n : Nat)
  | swap (n : Nat)
  | acquire (owner : Nat)
  deriving DecidableEq, Repr

/-- A request that the block issues on a host port (15 R455). The function is 0 for the physical one. -/
inductive HostOut where
  /-- `len` bytes at bus address `addr`; `data` is little-endian. -/
  | write (port fn addr len data : Nat)
  /-- A compare-and-swap that sets a flag of a table entry (11 R375). -/
  | flagCas (port fn addr expected new : Nat) (coherent : Bool)
  /-- An operation of the atomic and lock unit on a host word (09 R308). -/
  | wordOp (port fn addr : Nat) (coherent : Bool) (act : WordAct)
  deriving DecidableEq, Repr

/-- A use of a translation that is in flight: a data write of an instance to a virtual range that is kept (11 R381); `old` once
the translation has been invalidated. -/
structure XltUse where
  inst : Nat
  va : Nat
  len : Nat
  out : HostOut
  old : Bool := false
  deriving DecidableEq, Repr

/-- A write of instance `inst` that is kept and is part of its work: a placement, part of a completion or notice, or the clear
of OWN of an entry taken. `count` is 1 for a placement and for the write that ends a completion or notice (12 R394). -/
structure KeptWork where
  inst : Nat
  count : Nat
  out : HostOut
  deriving DecidableEq, Repr

/-- The host ports, beside their registers (15). Function `f` of port `p` has key 32 p + f. -/
structure HostPorts where
  fns : List (Nat × FnCfg) := []
  /-- Everything issued, oldest first. -/
  issued : List HostOut := []
  /-- What waits for its function to master the bus and has not been issued, oldest first (06 R227, R461). -/
  kept : List HostOut := []
  /-- What was issued and had no acknowledgement or completion when its port's link went down: it is issued again before `kept`
  (R461). -/
  again : List HostOut := []
  /-- The writes among `kept` that are an instance's work: they are not issued once it is reset (12 R393, R394). -/
  results : List KeptWork := []
  /-- The operations over CXL.cache that are under way: each holds a line exclusive (R457). -/
  lines : List HostOut := []
  /-- The operations that wait for a line, oldest first (R457). -/
  lineWait : List HostOut := []
  /-- The window that a port trained with: its committed host base and its size (R458). -/
  hdm : List (Nat × (Nat × Nat)) := []
  /-- The data writes among those kept, with the virtual ranges that they go to (11 R381). -/
  uses : List XltUse := []
  /-- Of how many of the requests issued the acknowledgement is known, by function: what an instance reset waited for (12
  R392). -/
  acked : List (Nat × Nat) := []
  /-- Reads that found an error and are to be made again, by queue (02 R601). -/
  reread : List Nat := []
  deriving DecidableEq, Repr

/-- What writing a completion frees. -/
inductive CompSrc where
  | none
  /-- A descriptor slot, by its key (02 R56). -/
  | slot (k : Nat)
  /-- An admin record (03 R89, 02 R56). -/
  | admin (rec : Nat)
  /-- The inheritance notice of a hold of a lock-window slot, by the grant that began the hold (02 R56, 09 R326, R327). -/
  | inherit (grant : Nat)
  deriving DecidableEq, Repr

/-- A completion that waits in the device for its entry (02 R55). -/
structure WaitingCqe where
  cqe : Cqe
  since : Nat
  src : CompSrc
  deriving DecidableEq, Repr

/-- A queue (02 R34-R56). The admin queue is number 0, and its completion ring has the key 65536. -/
structure Queue where
  work : Bool
  inst : Nat := 0
  coherent : Bool := false
  split : Bool := false
  log2 : Nat := 4
  k : Nat := 1
  pd : Nat := 0
  cq : Nat := 0
  base : Nat := 0
  /-- Bytes 16-31 of the CREATE_QUEUE command (06 R230). -/
  create : Nat := 0
  /-- The chip's position (R46). -/
  pos : Nat := 0
  /-- Work: entries from the position on that the last read found with OWN = 1. -/
  found : Nat := 0
  /-- Completion: entries from the position on that the last read found with OWN = 1. -/
  room : Nat := 0
  /-- Reservations held (R54). -/
  reserved : Nat := 0
  /-- A refusal's completion waits, and the OWN clear of its entry with it (R53). -/
  blocked : Bool := false
  /-- The wait of the POST_RECV at the position for an entry has been counted (07 R246). -/
  postWait : Bool := false
  waiting : List WaitingCqe := []
  /-- The floor under which the queue polls (R49). -/
  floor : Nat := 0
  /-- The samples of 13 R416 since the last dump. -/
  sampled : Bool := false
  depthLast : Nat := 0
  depthMax : Nat := 0
  delayMax : Nat := 0
  deriving DecidableEq, Repr

/-- What a descriptor slot's descriptor is doing (02 R52, R56, R60, 09 R315). -/
inductive SlotPhase where
  /-- An accepted launch that has not started. -/
  | launch
  /-- A filed receive that has not matched. -/
  | posted
  /-- Started. -/
  | running
  /-- Completed; its completion waits to be written. -/
  | done
  /-- Refused; its completion waits to be written. -/
  | refused
  /-- A unit slot. -/
  | unit
  deriving DecidableEq, Repr

/-- A descriptor slot (06 R229, 09 R315), kept under instance × 1048576 + number. -/
structure Slot where
  desc : Entry
  queue : Nat
  index : Nat
  cq : Nat := 0
  stamp : Nat := 0
  phase : SlotPhase := .running
  seq : Option Nat := none
  acceptedAt : Nat := 0
  /-- Fabric time at which a launch started (05 R191). -/
  startedAt : Nat := 0
  /-- Coloured yellow (13 R407). -/
  yel : Bool := false
  /-- A SEND that is a rendezvous request (07 R244). -/
  rdv : Bool := false
  /-- A launch that a journal replay posted again (05 R192). -/
  replayed : Bool := false
  /-- Its status and body, while its completion is held behind an earlier descriptor of its queue and connection (02
  R67). -/
  due : Option (Nat × Nat) := none
  deriving DecidableEq, Repr

/-- What an admin command in progress waits for (03 R90). -/
inductive AdminWait where
  | ready
  /-- Finished; its completion waits for an entry. -/
  | done
  /-- The end of every in-flight use of a key in an instance (R95). -/
  | key (inst key : Nat)
  /-- The end of every use of an old translation, by the marks of the uses (11 R381); for a CONFIGURE_INSTANCE that changes
  them, the root and WALK that then take effect (R383). -/
  | translations (inst : Nat) (root : Option (Nat × Bool))
  /-- The work is done; the record of the freed context of an instance is cleared with the completion (R97). -/
  | freed (inst : Nat) (place : CtxPlace)
  /-- Reservations for the entries of a destroyed queue (02 R70); the entries still to complete, as (index, entry). -/
  | destroy (queue : Nat) (left : List (Nat × Entry))
  /-- The tide of a switch: kind (0 route, 1 schedule) and epoch (03 R101). -/
  | switch (kind epoch : Nat)
  /-- The retirement of the key epoch before the last (08 R302): the handle and the key to install. -/
  | install (handle epoch : Nat) (key : BitVec 256)
  /-- The end of the older work of an instance, and fewer than 255 resets in the last millisecond (12 R391, R392). -/
  | reset (inst : Nat)
  /-- The page log of an instance changes at the completion: its base and log2, or none to disarm it (R106). -/
  | arm (inst : Nat) (log : Option (Nat × Nat))
  deriving DecidableEq, Repr

/-- An admin command in progress, in its admin record 0-63 (03 R81-R90, 06 R232). -/
structure AdminRec where
  entry : Entry
  index : Nat
  status : Nat := 0
  result : Nat := 0
  wait : AdminWait := .ready
  /-- It came over the sideband port, which has no ring (20 R563). -/
  sideband : Bool := false
  /-- What it names, as found at the take (R86). -/
  names : List (Nat × Nat) := []
  deriving DecidableEq, Repr

/-- An entry of a region table (08 R279). -/
structure Region where
  vbase : Nat := 0
  len : Nat := 0
  valid : Bool := false
  access : Nat := 0
  variant : Nat := 0
  pd : Nat := 0
  /-- The number of registrations, to tell the first from a later one (03 R94). -/
  used : Bool := false
  deriving DecidableEq, Repr

/-- What an instance has beside its registers (03 R102, R106, 12). -/
structure Inst where
  configured : Bool := false
  xltRoot : Nat := 0
  walk : Bool := false
  regionBase : Nat := 0
  regionLog2 : Nat := 0
  spillBase : Nat := 0
  spillCtx : Nat := 0
  /-- The body of the last CONFIGURE_INSTANCE (06 R232). -/
  cfgBody : Nat := 0
  /-- The acceptance stamp that the next descriptor takes (06 R229). -/
  stamp : Nat := 0
  /-- The written-page log: its base, log2 of its records, records from the position on with OWN = 1 (12 R397). -/
  logBase : Nat := 0
  logLog2 : Nat := 0
  logRoom : Nat := 0
  /-- Times at which RESET_INSTANCE commands completed (12 R391). -/
  resetTimes : List Nat := []
  deriving DecidableEq, Repr

/-- Queues, slots, admin commands, instances, domains and regions (02, 03, 08, 12). -/
structure Objects where
  queues : List (Nat × Queue) := []
  slots : List (Nat × Slot) := []
  adm : List (Nat × AdminRec) := []
  /-- Instances that a Function Level Reset resets, with whether the reset has begun (15 R462, R463). -/
  flr : List (Nat × Bool) := []
  insts : List (Nat × Inst) := []
  /-- Protection domains, by number, with their instance (03 R93). -/
  pds : List (Nat × Nat) := []
  /-- Regions, by instance × 2^24 + index (08 R279). -/
  regions : List (Nat × Region) := []
  deriving DecidableEq, Repr

/-- The token buckets of an enabled policer, in units of 1/16000 byte (13 R403, R404). -/
structure Bucket where
  tc : Nat
  tp : Nat
  last : Nat
  deriving DecidableEq, Repr

/-- A control cell that waits for the send path: its header, of which the epoch is stamped at the sending, and its
payload (06 R207, 13 R414). -/
structure CtlCell where
  dst : Nat
  cls : Nat
  typ : Nat
  ins : Nat
  gen : Nat
  pay : Nat
  deriving DecidableEq, Repr

/-- The injection scheduler, beside its registers (13). Policer and class deficits have key 8 i + c. -/
structure Inject where
  buckets : List (Nat × Bucket) := []
  ctl : List CtlCell := []
  /-- The instance whose turn it is, and whether it has had its quantum. -/
  cur : Nat := 0
  fresh : Bool := true
  instDef : List (Nat × Nat) := []
  /-- The class of 0-4 that each instance's round has reached, and whether it has had its quantum. -/
  classCur : List (Nat × Nat) := []
  classFresh : List (Nat × Bool) := []
  classDef : List (Nat × Nat) := []
  deriving DecidableEq, Repr

/-- An entry of a TLB slice (11 R374). -/
structure TlbEntry where
  inst : Nat
  /-- The virtual base of the page, and log2 of its size: 12, 21 or 30. -/
  vbase : Nat
  log2 : Nat
  addr : Nat
  write : Bool
  dirty : Bool
  /-- The bus address of the leaf, and the leaf as last read or updated. -/
  ptr : Nat
  leaf : Word64
  deriving DecidableEq, Repr

/-- An access that waits for a translation, by what makes it (11 R373): a cell's placement, the copy of a stored message, a
request of a connection to the unit, a lock-window slot, the source read of a message, a contribution or result of an
operation, the zeroing of a segment. -/
inductive AccessId where
  | cell (h seq idx : Nat)
  | copy (entry : Nat)
  | request (h seq : Nat)
  | slot (k : Nat)
  | source (msg : Nat)
  | coll (group op : Nat)
  | zero (h seq : Nat)
  deriving DecidableEq, Repr

/-- A miss task of a tile (11 R373). -/
structure Miss where
  tile : Nat
  inst : Nat
  va : Nat
  write : Bool
  /-- The range it looks up has been invalidated: its result is discarded (R381). -/
  marked : Bool := false
  /-- The walk goes on from this level, with this entry address (R375); else from the top. -/
  resume : Option (Nat × Nat) := none
  /-- The accesses that wait on it, with their addresses (R373). -/
  waits : List (AccessId × Nat) := []
  deriving DecidableEq, Repr

/-- An atomic update of a flag in progress (11 R375). -/
structure FlagUpdate where
  miss : Miss
  /-- DIRTY, else ACCESSED. -/
  dirty : Bool
  ptr : Nat
  expected : Word64
  /-- Log2 of the page size. -/
  log2 : Nat
  deriving DecidableEq, Repr

/-- An access that waits and whose translation has failed: it takes its status when it is tried again (R368). -/
structure FailedAccess where
  who : AccessId
  tile : Nat
  inst : Nat
  va : Nat
  status : Nat
  deriving DecidableEq, Repr

/-- Address translation, beside its registers (11). A slice lists its entries, the least recently used first. -/
structure Translation where
  tlb : List (Nat × List TlbEntry) := []
  misses : List Miss := []
  updates : List FlagUpdate := []
  /-- Accesses that wait and have failed. -/
  failed : List FailedAccess := []
  deriving DecidableEq, Repr

/-- An entry of the unexpected store, or a matched rendezvous request (07 R258, R259, R265, R266). -/
structure StoreEntry where
  inst : Nat
  handle : Nat
  pd : Nat
  proto : Nat
  context : Nat
  src : Nat
  srcIns : Nat
  /-- MATCH of its cell 0, from which the effective match bits come (R249). -/
  bits : Nat
  seq : Nat
  /-- LENGTH of an eager message, RLEN of a request. -/
  len : Nat
  rts : Bool
  key : Nat := 0
  offset : Nat := 0
  /-- The bytes stored. -/
  data : Nat := 0
  /-- WM has advanced over the message, and it counts in UNMATCHED (R258, R265). -/
  covered : Bool := false
  counted : Bool := false
  /-- The receive that took it, by its slot, with its STAMP (R262, R266), and the effective match bits then (R249). -/
  bound : Option (Nat × Nat) := none
  eff : Nat := 0
  /-- Its pull: waits under PULL_LIMIT, or is in progress. -/
  pulling : Bool := false
  /-- The failure of its pull, or of its stored data; lost with a GDDR7 device (16 R475). -/
  status : Nat := 0
  lost : Bool := false
  deriving DecidableEq, Repr

/-- Matching, beside its registers (07). -/
structure Matching where
  /-- Filed receives, by slot: the tile whose match slice holds the entry, or none for one of the overflow (R251, R253). -/
  posted : List (Nat × Option Nat) := []
  /-- The unexpected store, by an id that rises in storing order. -/
  store : List (Nat × StoreEntry) := []
  nextStore : Nat := 0
  /-- Bound entries that wait for a pull, in the order in which they matched (R266). -/
  pullWait : List Nat := []
  /-- The match-format table (R247), entry p at byte 16 p; after a device reset entry 0 is ordered and valid (R248). -/
  formats : Nat := (2 ^ 64 - 1) + 3 * 2 ^ 64
  /-- The protocol table (R263), entry p at byte 8 p; each holds EAGER_MAX = 16,384 and PULL_LIMIT = 8. -/
  protocols : Nat := packLE 8 ((List.range 16).map (fun _ => 0x4000 + 8 * 2 ^ 40))
  deriving DecidableEq, Repr

/-- The memory of the CXL.mem windows onto GDDR7: a byte for each listed key, port × 2^31 + offset (15 R458, R459). -/
structure Gddr where
  cells : List (Nat × BitVec 8) := []
  /-- Bytes lost with a device and not written again: they read poisoned (16). -/
  poisoned : List Nat := []
  /-- Uncorrectable reads of the last microsecond: the device, the time, and whether CONTAINED was unacknowledged before
  (16 R475, 18 R514). -/
  unc : List (Nat × Nat × Bool) := []
  /-- The refresh rate is doubled (16 R469). -/
  hot : Bool := false
  /-- Copies of images loaded through the sideband port, by the number of their configuration record: LENGTH, CRC, PLAN_ID
  and the bytes (20 R564). -/
  copies : List (Nat × (Nat × Nat × Nat × Nat)) := []
  deriving DecidableEq, Repr

/-- A master of a lock (09 R318). -/
structure Master where
  /-- A connection, else a lock-window slot. -/
  via : Bool
  inst : Nat
  /-- The slot number, or the connection's handle. -/
  who : Nat
  tag : Nat
  deriving DecidableEq, Repr

/-- A waiter of a lock (09 R319, R322). -/
structure Waiter where
  master : Master
  prio : Nat
  /-- The unit slot of a connection's waiter. -/
  slot : Option Nat := none
  deriving DecidableEq, Repr

/-- A held lock (09 R319, R326). -/
structure Held where
  /-- The instance, key and offset of the word; its bus address. -/
  inst : Nat
  key : Nat
  offset : Nat
  addr : Nat
  owner : Master
  prio : Nat
  /-- The registry's owner word. -/
  word : Nat
  /-- The notified level N. -/
  level : Nat
  /-- The grant that began the hold (R326). -/
  grant : Nat := 0
  /-- Waiters in order of arrival. -/
  waiters : List Waiter := []
  deriving DecidableEq, Repr

/-- What an operation on a word is for (09 R316, R319, R320, R328). -/
inductive UnitKind where
  /-- A request of a connection, by its handle and SEQ. -/
  | atomic (h q : Nat)
  | acquire (h q : Nat)
  | release (h q : Nat)
  /-- A lock-window slot, by instance × 256 + slot. -/
  | slotAcquire (k : Nat)
  | slotRelease (k : Nat)
  /-- The abandonment of a held lock. -/
  | abandon (held : Nat)
  /-- A held lock passes on, since the waiter that a hand-over chose has been withdrawn (12 R394). -/
  | pass (held : Nat)
  /-- An operation of an older generation of its instance: its result is discarded (12 R394). -/
  | late
  deriving DecidableEq, Repr

/-- An operation on a word that is under way: on a host word until its result is known, on a GDDR7 word until PENDING is
cleared in its unit slot (09 R316). -/
structure UnitOp where
  kind : UnitKind
  inst : Nat
  key : Nat
  offset : Nat
  addr : Nat
  prio : Nat := 0
  tag : Nat := 0
  /-- What goes out to a host word; for a release or an abandonment the waiter that the new word names (09 R320, R328). -/
  act : WordAct := .cas 0 0
  next : Option Waiter := none
  /-- The slot that it acquires for has been withdrawn meanwhile (R324). -/
  gone : Bool := false
  /-- Its translation has been invalidated (11 R381). -/
  old : Bool := false
  /-- It reaches the word now; else it waits for an earlier operation on the word. -/
  issued : Bool := true
  /-- The unit slot that is held for its response. -/
  slot : Option Nat := none
  /-- The value still to be written to a GDDR7 word, at its key in the window's memory. -/
  write : Option (Nat × Nat) := none
  deriving DecidableEq, Repr

/-- The atomic and lock unit, beside its registers (09). -/
structure Atu where
  /-- The registry, by an id that rises with the grant. -/
  held : List (Nat × Held) := []
  nextHeld : Nat := 0
  /-- Grants made, by which holds are told apart (R326). -/
  grants : Nat := 0
  /-- Slots whose acquire has not been placed yet, by instance × 256 + slot, in order of arrival (R309). -/
  arrivals : List Nat := []
  /-- Operations on words that are under way (R316). -/
  ops : List UnitOp := []
  /-- Lock-window reads that are stalled, by instance × 256 + slot, with their time (R324). -/
  reading : List (Nat × Nat) := []
  /-- Slots waiting, with the time of the last read's end (R324). -/
  idleSince : List (Nat × Nat) := []
  deriving DecidableEq, Repr

/-- A parent or child of a group member (10 R334). -/
structure Edge where
  ep : Nat
  inst : Nat
  rank : Nat
  handle : Nat
  subtree : Nat
  deriving DecidableEq, Repr

/-- A child's up message in staging (10 R344, R345). -/
structure ChildMsg where
  /-- The header, 32 bytes, and the data so far, with the runs of bytes held, as (first, count). -/
  hdr : Nat
  data : Nat := 0
  runs : List (Nat × Nat) := []
  /-- The data is discarded by R349. -/
  dropped : Bool := false
  deriving DecidableEq, Repr

/-- A message of an operation that has a SEQ: its connection, its direction, its first SEQ and its length, and whether the
neighbour's WM covers it (10 R354). The up message on a local edge has no SEQ; it is noted once the parent has it. -/
structure SentColl where
  handle : Nat
  down : Bool
  seq : Nat
  len : Nat
  covered : Bool := false
  deriving DecidableEq, Repr

/-- A collective operation of a member (10 R342, R345). -/
structure CollOp where
  opnum : Nat
  /-- The own descriptor's slot, once taken; its phase says whether it has started. -/
  slot : Option Nat := none
  ctype : Nat := 0
  operator : Nat := 0
  /-- Bytes 0-3 of the FORMAT entry as at the take (R363). -/
  fmt : Nat := 0
  count : Nat := 0
  root : Nat := 0
  /-- Staging reserved, in units of 4 KiB. -/
  need : Nat := 0
  /-- Child messages by child number from 0. -/
  kids : List (Nat × ChildMsg) := []
  /-- What reading the own contribution gave, as (data, failure), once it was read, and the contribution that the tree step
  took (R341, R347). -/
  got : Option (Nat × Nat) := none
  own : Nat := 0
  /-- The tree step has run (R345). -/
  stepped : Bool := false
  /-- The elements combined so far. -/
  spans : Nat := 0
  /-- The combined data of this member's subtree, as it travels up; at the root, the result. -/
  sum : Nat := 0
  status : Nat := 0
  origin : Nat := 0
  disagree : Nat := 0
  nonfinite : Nat := 0
  hasRoot : Bool := false
  /-- The down phase toward the children has begun. -/
  opened : Bool := false
  /-- The header of the own up message, once sent; messages sent, by their id: up, then down to the children. -/
  upHdr : Option Nat := none
  up : Option Nat := none
  down : List Nat := []
  /-- The messages that have a SEQ (R354). -/
  sent : List SentColl := []
  /-- The down message: its header, its data, the runs of it that are here, how much has been handled, and how much
  placed. -/
  downHdr : Option Nat := none
  downData : Nat := 0
  downRuns : List (Nat × Nat) := []
  handled : Nat := 0
  placed : Nat := 0
  /-- The failure of a placement at this member alone (10 R346). -/
  placeSt : Nat := 0
  /-- Its staging could not be read, or was lost with a GDDR7 device (16 R468, R475). -/
  bad : Bool := false
  lost : Bool := false
  deriving DecidableEq, Repr

/-- A collective group's member (10 R333, R334). -/
structure Group where
  inst : Nat
  gid : Nat
  members : Nat
  rank : Nat
  pd : Nat
  level : Nat
  height : Nat
  subtree : Nat
  parent : Option Edge := none
  children : List Edge := []
  broken : Bool := false
  ops : List CollOp := []
  /-- Descriptors that wait for an operation to end or for staging, with the FORMAT entry as at their take (R342, R350,
  R363). -/
  queued : List (Nat × Nat) := []
  deriving DecidableEq, Repr

/-- Collectives (10). -/
structure Collectives where
  groups : List (Nat × Group) := []
  /-- The reduction-format table (R361), entry f at byte 8 f, with the contents of R362 after a device reset. -/
  formats : Nat := packLE 8 ([0x80, 0x81, 0x82, 0x83, 0x84, 0x85, 0x86, 0x87, 0x186, 0x187, 0x286, 0x285, 0x284, 0, 0, 0])
  deriving DecidableEq, Repr

/-- A programmable counter (19 R530-R532): the registers `CNT_SEL` and `CNT_VAL`. -/
structure ProgCtr where
  sel : Word := 0#32
  val : Word := 0#32
  /-- In LEVEL mode: an occurrence has been counted in this cycle of the counting clock. -/
  seen : Bool := false
  deriving DecidableEq, Repr

/-- A snapshot that the reader has latched and not written yet (19 R538): the registers at the tide hold the fixed
counters. -/
structure Dump where
  tide : Nat
  tstate : Nat
  regs : List (Nat × Word)
  prog : List (Nat × ProgCtr)
  hist : List (Nat × Nat)
  /-- The records of 13 R417, 16 bytes each, in ascending queue number, and the queues they are of. -/
  queues : List (Nat × Nat)
  deriving DecidableEq, Repr

/-- The performance counters and the reader (19), and the counters of the instances (R537). The registers `CNT_SEL`,
`CNT_VAL`, `CNT_HIST`, `CNT_INST_S` and `CNT_INST_HIST` have their home here. -/
structure Counters where
  /-- CTL_RMA_REGION_MISS: misses of the region cache (08 R280). -/
  regionMiss : Nat := 0
  /-- Counter `c` of bank `b`, at 8 b + c. -/
  prog : List (Nat × ProgCtr) := []
  /-- The conditions of a bank that held in the last cycle of its counting clock, as (event, SUB) (R531). -/
  last : List (Nat × List (Nat × Nat)) := []
  /-- Bin `n` of the histogram of class `c`, at 32 c + n. -/
  hist : List (Nat × Nat) := []
  /-- `CNT_INST_Sj` of instance `i`, at 8 i + j; bin `n` of class `c` of instance `i`, at 256 i + 32 c + n. -/
  inst : List (Nat × Nat) := []
  instHist : List (Nat × Nat) := []
  dump : Option Dump := none
  seq : Nat := 0
  /-- Dumps skipped since the last written one; the TIDE of that one. -/
  skipped : Nat := 0
  prevTide : Nat := 0
  deriving DecidableEq, Repr

/-- What the memory that a device reset preserves holds of the matching, collective, lock and completion state, until a
replay takes it (06 R233, 09 R330, 10 R354, 16 R470, R473). -/
structure Kept where
  /-- Entries of the unexpected store that WM covers, in storing order. -/
  store : List (Nat × StoreEntry) := []
  nextStore : Nat := 0
  /-- Staging by group handle: the inputs that WM covers. -/
  ops : List (Nat × List CollOp) := []
  /-- The lock registry. -/
  held : List (Nat × Held) := []
  nextHeld : Nat := 0
  /-- Completions that wait, by completion queue. -/
  waiting : List (Nat × List WaitingCqe) := []
  deriving DecidableEq, Repr

/-- The state of one EN1024. Every field that a rule of the spec names cites it. -/
structure State where
  part : Part := {}
  /-- Fabric time: nanoseconds in [63:4], sixteenths in [3:0] (05 R150). -/
  now : Word64 := 0#64
  /-- The model's own count of free values drawn (log entry 2). -/
  draws : Nat := 0
  /-- Every register of set-up space and of the instance windows: the words that differ from `regDefault`. -/
  regs : List (Nat × Word) := []
  /-- Latches and held halves of the requesters: host ports 0-7 and the sideband port, 8 (21 R569). -/
  req : List (Nat × Requester) := []
  flt : FaultLogic := {}
  rt : Routing := {}
  lnk : LinkState := {}
  pwr : Power := {}
  tim : Tim := {}
  xpt : Transport := {}
  obj : Objects := {}
  inj : Inject := {}
  hpt : HostPorts := {}
  xlt : Translation := {}
  mat : Matching := {}
  ram : Gddr := {}
  atu : Atu := {}
  col : Collectives := {}
  cnt : Counters := {}
  mgt : Mgt := {}
  kept : Kept := {}
  /-- What the last register or sideband read answered. -/
  lastRead : ReadAnswer := .none
  /-- The model's queue of waiting commands, first in first out. -/
  pending : List Instr := []
  deriving DecidableEq, Repr

/-- The machine right after reset: powered, every register at its reset value, every queue, ring and list empty, and
no command waiting (20 R544 step 1, 21 R570). -/
def State.reset : State := {}

end Sys2Proof.Machine
end

