-- ==== Sys2Proof/Machine/Regs.lean ====
section
/-! DEFINITION. The register file: one 32-bit word for each address, a 64-bit register as two words, the low half at
the lower address (21 R568, R569). What is not listed reads its reset value (R570). The operations here are the
block's own accesses; what software may do is in Machine/SetupSpace.lean. -/

namespace Sys2Proof.Machine

/-- The copy of a register row that address `a` falls into: the row's two indices, and whether it is the high half. -/
def RegRow.at? (r : RegRow) (a : Nat) : Option (Nat × Nat × Bool) :=
  if a < r.base then none else
  let off := a - r.base
  let i := off / r.s1
  let j := off % r.s1 / r.s2
  let k := off % r.s1 % r.s2
  if r.n1 ≤ i ∨ r.n2 ≤ j then none
  else if k = 0 then some (i, j, false)
  else if k = 4 ∧ r.wide = true then some (i, j, true)
  else none

/-- The first row of a table that address `a` falls into. -/
def findRow : List RegRow → Nat → Option (RegRow × Nat × Nat × Bool)
  | [], _ => none
  | r :: t, a => match r.at? a with
    | some x => some (r, x)
    | none => findRow t a

/-- The base of the block whose fault registers hold address `a`, if they do (18 R511, 21 R566). -/
def fltBlock (a : Nat) : Option Nat :=
  let b := a - a % 0x10000
  if a % 0x10000 < 0xF000 ∨ 0xF100 ≤ a % 0x10000 then none
  else if b = 0 ∨ b = 0x10000 ∨ b = 0x20000 ∨ b = 0x40000 ∨ b = 0x50000 ∨ (0x100000 ≤ b ∧ b < 0x500000) ∨
    (0x600000 ≤ b ∧ b < 0xA00000) ∨ (0xA00000 ≤ b ∧ b < 0xA80000) ∨ b = 0xB00000 ∨ b = 0xC00000 ∨ b = 0xD00000 ∨
    b = 0xE00000 ∨ b = 0xF00000 then some b else none

/-- The register rows of the block that address `a` lies in (21 R566, R572). -/
def rowsFor (a : Nat) : List RegRow :=
  if 0x100000000 ≤ a then regRowsWin
  else if a < 0x10000 then regRowsId
  else if a < 0x20000 then regRowsCtl
  else if a < 0x30000 then regRowsPwr
  else if a < 0x50000 then regRowsTim
  else if a < 0x60000 then regRowsCnt
  else if a < 0x600000 then []
  else if a < 0xA00000 then regRowsLng
  else if a < 0xB00000 then regRowsHpt
  else if a < 0xC00000 then regRowsMem
  else if a < 0xD00000 then regRowsAtu
  else if a < 0xE00000 then regRowsXlt
  else if a < 0xF00000 then regRowsInj
  else regRowsMgt

/-- The register that address `a` belongs to; none for reserved offsets. -/
def regAt (a : Nat) : Option (RegRow × Nat × Nat × Bool) :=
  match findRow (rowsFor a) a with
  | some x => some x
  | none => match fltBlock a with
    | some b => findRow regRowsFlt (a - b)
    | none => none

/-- Registers of units that the part does not have (21 R567): lane groups 32-63 and CNT banks 101-132 with the H
option, MEM registers other than MEM_HOST_BASE and MEM_HOST_SIZE with the M option. -/
def absent (p : Part) (a : Nat) : Bool :=
  (!p.lanesHi && ((0x800000 ≤ a && a < 0xA00000) || (0x51000 + 0x40 * 101 ≤ a && a < 0x51000 + 0x40 * 133))) ||
  (!p.gddr && 0xB00000 ≤ a && a < 0xB00000 + 0x10000 && !(0xB00008 ≤ a && a < 0xB00014))

/-- The value of a register word right after reset (21 R570). Straps, fuses, stepping and flash values come from the
part (log entry 1). -/
def regDefault (p : Part) (a : Nat) : Word :=
  if absent p a then 0#32
  else if a = Reg.CTL_OWNER then BitVec.ofNat 32 p.ownerSel.val
  else if a = Reg.CTL_INST_MAP 0 then BitVec.ofNat 32 (0x80000000 + p.ownerSel.val * 0x100)
  else if a = Reg.MGT_STATUS then BitVec.ofNat 32 (0x09000000 + b2n p.sbOnly * 0x800000 + p.ownerSel.val * 0x100000
    + p.sbAddr.val * 0x10000)
  else if a = Reg.ID_STEPPING then BitVec.ofNat 32 (p.stepMajor % 16 * 16 + p.stepMinor % 16)
  else if a = Reg.ID_CAP then BitVec.ofNat 32 (b2n p.lanesHi * 8 + b2n p.gddr * 4 + b2n p.crypt * 2 + b2n p.reduce)
  else if a = Reg.ID_LEVELS then BitVec.ofNat 32 (p.highest % 65536 * 65536 + 1)
  else if a = Reg.ID_CHIP_ID then p.chipId.extractLsb' 0 32
  else if a = Reg.ID_CHIP_ID + 4 then p.chipId.extractLsb' 32 32
  else if a = Reg.MGT_FLT_PIN then 0x40000003#32
  else if a = Reg.CNT_FIXED then 16142#32
  else if a = Reg.MEM_HOST_SIZE then (if p.gddr then 2880#32 else 31929#32)
  else match regAt a with
    | some (r, _, _, hi) => BitVec.ofNat 32 (r.reset / (if hi then 2 ^ 32 else 1))
    | none => 0#32

/-- The word at address `a`. -/
def State.rd (s : State) (a : Nat) : Word := Map.getD s.regs a (regDefault s.part a)

/-- The state with word `w` at address `a`. -/
def State.wr (s : State) (a : Nat) (w : Word) : State :=
  { s with regs := Map.put s.regs a (regDefault s.part a) w }

/-- The 64-bit register whose low half is at `a`. -/
def State.rd64 (s : State) (a : Nat) : Word64 := s.rd (a + 4) ++ s.rd a

/-- The state with the 64-bit register at `a` set. -/
def State.wr64 (s : State) (a : Nat) (v : Word64) : State :=
  (s.wr a (v.extractLsb' 0 32)).wr (a + 4) (v.extractLsb' 32 32)

/-- A field of a register as a number. -/
def State.fld (s : State) (f : Fld) : Nat :=
  if f.hi < 32 then bits (s.rd f.addr) f.hi f.lo else bits (s.rd64 f.addr) f.hi f.lo

/-- A one-bit field. -/
def State.flag (s : State) (f : Fld) : Bool := s.fld f != 0

/-- The state with a field of a 32-bit register set. -/
def State.setFld (s : State) (f : Fld) (n : Nat) : State := s.wr f.addr (setBits (s.rd f.addr) f.hi f.lo n)

/-- The state with a one-bit field set. -/
def State.setFlag (s : State) (f : Fld) (b : Bool) : State := s.setFld f (b2n b)

/-- A counter counts one; it wraps at 2^32. -/
def State.bump (s : State) (a : Nat) : State := s.wr a (s.rd a + 1#32)

/-- A counter counts `n`; it wraps at 2^32. -/
def State.bumpBy (s : State) (a n : Nat) : State := s.wr a (s.rd a + BitVec.ofNat 32 n)

/-- A counter counts one and saturates at 0xFFFF_FFFF (18 R512). -/
def State.bumpSat (s : State) (a : Nat) : State := s.wr a (satInc (s.rd a))

/-- A free value's index is used up. -/
def State.drawn (s : State) : State := { s with draws := s.draws + 1 }

/-- Fabric time as a number of sixteenths of a nanosecond. -/
def State.t (s : State) : Nat := s.now.toNat

/-- `n` nanoseconds in the units of fabric time (05 R150). -/
def ns (n : Nat) : Nat := 16 * n

/-- `n` microseconds in the units of fabric time. -/
def us (n : Nat) : Nat := 16000 * n

/-- The chip is halted (18 R523). -/
def State.halted (s : State) : Bool := s.flag F.MGT_FLT_PIN_HALTED

/-- A write of set-up space that would leave `t`: a halted chip ignores it (18 R523). -/
def State.setup (s t : State) : State := if s.halted then s else t

/-- The number of instances (12 R384). -/
def State.nInst (s : State) : Nat := s.fld F.CTL_INSTANCES_N

end Sys2Proof.Machine
end

