-- ==== Sys2Proof/Machine/Cells.lean ====
section
/-! DEFINITION. The cell: its header fields, its checksum, the extension of cell 0, and the arithmetic of cells and
segments (04 R108-R120, R600). -/

namespace Sys2Proof

open Sys2Proof.Machine

/-- The header fields (04 R109). -/
def Cell.dst (c : Cell) : Nat := bits c.hdr 127 111
def Cell.src (c : Cell) : Nat := bits c.hdr 110 94
def Cell.cls (c : Cell) : Nat := bits c.hdr 93 91
def Cell.epo (c : Cell) : Nat := bits c.hdr 90 90
def Cell.hop (c : Cell) : Nat := bits c.hdr 89 86
def Cell.typ (c : Cell) : Nat := bits c.hdr 85 82
def Cell.seq (c : Cell) : Nat := bits c.hdr 81 66
def Cell.idx (c : Cell) : Nat := bits c.hdr 65 52
def Cell.ins (c : Cell) : Nat := bits c.hdr 51 45
def Cell.gen (c : Cell) : Nat := bits c.hdr 44 37
def Cell.isFirst (c : Cell) : Bool := bit c.hdr 36
def Cell.isLast (c : Cell) : Bool := bit c.hdr 35
def Cell.cm (c : Cell) : Bool := bit c.hdr 34
def Cell.yel (c : Cell) : Bool := bit c.hdr 33
def Cell.fnc (c : Cell) : Bool := bit c.hdr 32
def Cell.crc (c : Cell) : Nat := bits c.hdr 31 0

/-- Cell types (04 R112). -/
def tySEND : Nat := 0x1
def tyWRITE : Nat := 0x2
def tyWRITEIMM : Nat := 0x3
def tyREADREQ : Nat := 0x4
def tyREADRESP : Nat := 0x5
def tyATOMICREQ : Nat := 0x6
def tyATOMICRESP : Nat := 0x7
def tyLOCKREQ : Nat := 0x8
def tyLOCKRESP : Nat := 0x9
def tyCOLLECTIVE : Nat := 0xA
def tyACK : Nat := 0xB
def tyNOTICE : Nat := 0xC
def tyMGMT : Nat := 0xD

/-- The CRC register over the top `n` bytes of a big-endian word of `n` bytes. -/
def crcBE : Nat → Nat → Nat → Nat
  | 0, _, c => c
  | n + 1, x, c => crcBE n x (crcByte c (x / 256 ^ n % 256))

/-- The CRC of a cell: over cell bytes 0-11 with HOP and CM taken as zero, then the payload (04 R119). -/
def Cell.crcOf (c : Cell) : Nat :=
  let h := setBits (setBits c.hdr 89 86 0) 34 34 0
  crcBytesLE 64 c.pay.toNat (crcBE 12 (h.toNat / 2 ^ 32) 0xFFFFFFFF) ^^^ 0xFFFFFFFF

/-- The CRC field holds the cell's CRC (04 R121). -/
def Cell.crcOk (c : Cell) : Bool := c.crc == c.crcOf

/-- The cell with its CRC field set. -/
def Cell.seal (c : Cell) : Cell := { c with hdr := setBits c.hdr 31 0 c.crcOf }

/-- A router changes HOP and may set CM, nothing else (04 R120). -/
def Cell.withHop (c : Cell) (h : Nat) : Cell := { c with hdr := setBits c.hdr 89 86 h }
def Cell.withCM (c : Cell) : Cell := { c with hdr := setBits c.hdr 34 34 1 }
/-- A source stamps the epoch before it computes the CRC (04 R139). -/
def Cell.withEpo (c : Cell) (e : Nat) : Cell := { c with hdr := setBits c.hdr 90 90 e }

/-- Class 6 with HOP = 0xF (04 R123). -/
def Cell.linkLocal (c : Cell) : Bool := c.cls == 6 && c.hop == 15

/-- The types that are messages: they carry the extension of R114 (04 R112). -/
def isMsgTyp (t : Nat) : Bool := 1 ≤ t && t ≤ 0xA
/-- The types that are single control cells (04 R112). -/
def isCtlTyp (t : Nat) : Bool := 0xB ≤ t && t ≤ 0xD

/-- `n` bytes of the payload from byte `b` on. -/
def Cell.pb (c : Cell) (b n : Nat) : Nat := bytesLE c.pay b n

/-- The extension of cell 0 (04 R114). -/
def Cell.extMatch (c : Cell) : Nat := c.pb 0 8
def Cell.extImm (c : Cell) : Nat := c.pb 8 8
def Cell.extLength (c : Cell) : Nat := c.pb 16 4
def Cell.extKey (c : Cell) : Nat := c.pb 20 4
def Cell.extOffset (c : Cell) : Nat := c.pb 24 8

/-- C, the cells of a message of `len` bytes (04 R115). -/
def cellsOf (len : Nat) : Nat := max 1 (ceilDiv (len + 32) 64)
/-- S, its segments (04 R115). -/
def segsOf (len : Nat) : Nat := ceilDiv (cellsOf len) 16384
/-- The number of cells of segment `s` (04 R115). -/
def segCells (len s : Nat) : Nat := min 16384 (cellsOf len - 16384 * s)
/-- The message offset of the bytes that cell `i` of segment `s` carries (04 R116). -/
def cellOffset (s i : Nat) : Nat := if s = 0 ∧ i = 0 then 0 else s * 1048576 + i * 64 - 32
/-- How many message bytes that cell carries (04 R116, R117). -/
def cellBytes (len s i : Nat) : Nat := min (if s = 0 ∧ i = 0 then 32 else 64) (len - cellOffset s i)

/-- The header fields of a cell to be built. -/
structure Hdr where
  dst : Nat := 0
  src : Nat := 0
  cls : Nat := 0
  epo : Nat := 0
  hop : Nat := 0
  typ : Nat := 0
  seq : Nat := 0
  idx : Nat := 0
  ins : Nat := 0
  gen : Nat := 0
  first : Bool := false
  last : Bool := false
  yel : Bool := false
  fnc : Bool := false
  deriving DecidableEq, Repr

/-- The header word of R109, CRC zero. -/
def Hdr.word (h : Hdr) : BitVec 128 :=
  BitVec.ofNat 128 (h.dst % 2 ^ 17 * 2 ^ 111 + h.src % 2 ^ 17 * 2 ^ 94 + h.cls % 8 * 2 ^ 91 + h.epo % 2 * 2 ^ 90 +
    h.hop % 16 * 2 ^ 86 + h.typ % 16 * 2 ^ 82 + h.seq % 65536 * 2 ^ 66 + h.idx % 16384 * 2 ^ 52 +
    h.ins % 128 * 2 ^ 45 + h.gen % 256 * 2 ^ 37 + b2n h.first * 2 ^ 36 + b2n h.last * 2 ^ 35 + b2n h.yel * 2 ^ 33 +
    b2n h.fnc * 2 ^ 32)

/-- A sealed cell. -/
def mkCell (h : Hdr) (pay : Nat) : Cell := Cell.seal { hdr := h.word, pay := BitVec.ofNat 512 pay }

/-- A payload from little-endian fields: (byte, number of bytes, value). -/
def payOf (l : List (Nat × Nat × Nat)) : Nat :=
  l.foldl (fun acc f => acc + f.2.2 % 256 ^ f.2.1 * 256 ^ f.1) 0

/-- MGMT kinds, in payload byte 63 (04 R600). -/
def mgDIGEST : Nat := 0x10
def mgDRAIN : Nat := 0x11
def mgTRANSITDOWN : Nat := 0x12

/-- A MGMT cell of kind `kind`; it carries SEQ and IDX as zero (04 R600). FIRST and LAST are set, as on every message
of one cell (R118); INS and GEN, and DST, SRC and EPO of a link-local one, which the spec does not give, are zero (log entry
12). -/
def mgmtCell (dst src hop epo kind : Nat) (pay : Nat) : Cell :=
  mkCell { dst := dst, src := src, cls := 6, epo := epo, hop := hop, typ := tyMGMT, first := true, last := true }
    (pay % 256 ^ 63 + kind * 256 ^ 63)

/-- The marker DRAIN(e, h) (04 R144, R600). -/
def drainCell (e h : Nat) : Cell := mgmtCell 0 0 15 0 mgDRAIN (payOf [(0, 1, e), (1, 1, h)])

end Sys2Proof
end

