-- ==== Sys2Proof/Machine/Count.lean ====
section
/-! DEFINITION. The programmable counters, the latency histograms and the counters of the instances
(19 R529-R537). -/

namespace Sys2Proof.Machine

/-- Banks (19 R529). -/
def bkID : Nat := 0
def bkCTL : Nat := 1
def bkPWR : Nat := 2
def bkTIM : Nat := 3
def bkCNT : Nat := 4
def bkTIL (t : Nat) : Nat := 5 + t
def bkLNG (g : Nat) : Nat := 69 + g
def bkHPT (p : Nat) : Nat := 133 + p
def bkMEM : Nat := 141
def bkATU : Nat := 142
def bkXLT : Nat := 143
def bkINJ : Nat := 144
def bkMGT : Nat := 145

/-- The bank of the block whose registers start at `blk` (19 R529). -/
def bankOf (blk : Nat) : Nat :=
  let n := blk / 0x10000
  if n ≤ 2 then n else if n = 4 then bkTIM else if n = 5 then bkCNT
  else if n < 0x60 then bkTIL (n - 0x10) else if n < 0xA0 then bkLNG (n - 0x60) else if n < 0xB0 then bkHPT (n - 0xA0)
  else if n = 0xB0 then bkMEM else if n = 0xC0 then bkATU else if n = 0xD0 then bkXLT else if n = 0xE0 then bkINJ
  else bkMGT

/-- EVENT and SUB are assigned for bank `b` (19 R534). -/
def eventAssigned (b ev sub : Nat) : Bool :=
  let upTo := fun (lo hi : Nat) => sub == 0 && decide (lo ≤ ev ∧ ev ≤ hi)
  (decide (ev ≤ 2) && sub == 0) ||
  (if b = bkCTL then upTo 0x10 0x19
    else if b = bkPWR then (decide (0x10 ≤ ev ∧ ev ≤ 0x12) && sub ≤ 64) || upTo 0x13 0x13
    else if b = bkTIM then upTo 0x10 0x15
    else if b = bkCNT then upTo 0x10 0x12
    else if 5 ≤ b ∧ b < 69 then upTo 0x10 0x17
    else if 69 ≤ b ∧ b < 133 then
      (decide (0x10 ≤ ev ∧ ev ≤ 0x14) && sub ≤ 16) || (decide (0x15 ≤ ev ∧ ev ≤ 0x16) && sub ≤ 15)
    else if 133 ≤ b ∧ b < 141 then upTo 0x10 0x15
    else if b = bkMEM then decide (0x10 ≤ ev ∧ ev ≤ 0x13) && sub ≤ 12
    else if b = bkATU ∨ b = bkXLT then upTo 0x10 0x12
    else if b = bkINJ then decide (0x10 ≤ ev ∧ ev ≤ 0x13) && sub ≤ 8
    else if b = bkMGT then upTo 0x10 0x11
    else false)

/-- The event of bank `b` is a condition (19 R534). -/
def eventIsCondition (b ev : Nat) : Bool :=
  ev == 1 || (b == bkPWR && ev == 0x13) || (b == bkTIM && ev == 0x15) ||
  (decide (5 ≤ b ∧ b < 69) && (ev == 0x13 || ev == 0x16 || ev == 0x17)) ||
  (decide (69 ≤ b ∧ b < 133) && (ev == 0x15 || ev == 0x16)) ||
  (decide (133 ≤ b ∧ b < 141) && ev == 0x15) || (b == bkMEM && ev == 0x13)

def ProgCtr.event (x : ProgCtr) : Nat := bits x.sel 7 0
def ProgCtr.sub (x : ProgCtr) : Nat := bits x.sel 23 16
def ProgCtr.level (x : ProgCtr) : Bool := bit x.sel 30
/-- The counter counts its event (19 R530). -/
def ProgCtr.counts (x : ProgCtr) : Bool := bit x.sel 31 && !bit x.sel 29
/-- The counter counts the wraps of the one below it (19 R532). -/
def ProgCtr.chained (x : ProgCtr) : Bool := bit x.sel 31 && bit x.sel 29

/-- Counter `k` advances by `n`; a wrap sets OVF and advances a counter chained above it (19 R530, R532). -/
def advance : Nat → List (Nat × ProgCtr) → Nat → Nat → List (Nat × ProgCtr)
  | 0, m, _, _ => m
  | fuel + 1, m, k, n =>
    let x := Map.getD m k {}
    let v := x.val.toNat + n
    if v < 2 ^ 32 then Map.set m k { x with val := BitVec.ofNat 32 v }
    else
      let m := Map.set m k { x with val := BitVec.ofNat 32 v, sel := setBits x.sel 28 28 1 }
      if k % 8 = 7 || !(Map.getD m (k + 1) {}).chained then m else advance fuel m (k + 1) (v / 2 ^ 32)

/-- Bank `b` counts: not with FREEZE, and not on the spine clock while that stands still (19 R531, R533). -/
def State.counting (s : State) (b : Nat) : Bool :=
  !s.flag F.CNT_CTRL_FREEZE && (b == bkPWR || b == bkMGT || !s.flag F.PWR_STATUS_CHIP_ECLIPSE)

/-- `n` occurrences of an event, for one counter: EDGE adds `n`, LEVEL one in each cycle that has any (19 R531). -/
def occurOne (m : List (Nat × ProgCtr)) (k ev : Nat) (subs : List Nat) (n : Nat) : List (Nat × ProgCtr) :=
  match Map.get? m k with
  | none => m
  | some x =>
    if !x.counts || x.event != ev || !subs.contains x.sub then m
    else if x.level then (if x.seen then m else advance 8 (Map.set m k { x with seen := true }) k 1)
    else advance 8 m k n

/-- `n` occurrences of event `ev` of bank `b` happen; `subs` are the SUB values that name them. -/
def State.occur (s : State) (b ev : Nat) (subs : List Nat) (n : Nat) : State :=
  if n = 0 || s.cnt.prog.isEmpty || !s.counting b then s else
  { s with cnt := { s.cnt with prog := (List.range 8).foldl (fun m c => occurOne m (8 * b + c) ev subs n) s.cnt.prog } }

/-- One occurrence of an event of the CTL bank. -/
def State.occurCtl (s : State) (ev : Nat) : State := s.occur bkCTL ev [0] 1

/-- A counter of instance `i` counts `n`; it wraps at 2^64 (19 R537). -/
def State.countInst (s : State) (i j n : Nat) : State :=
  if n = 0 then s else
  { s with cnt := { s.cnt with
      inst := Map.put s.cnt.inst (8 * i + j) 0 ((Map.getD s.cnt.inst (8 * i + j) 0 + n) % 2 ^ 64) } }

/-- The counters of instance `i` are cleared (19 R537, 12 R392). -/
def State.clearInstCounters (s : State) (i : Nat) : State :=
  { s with cnt := { s.cnt with inst := s.cnt.inst.filter (fun x => x.1 / 8 != i),
                               instHist := s.cnt.instHist.filter (fun x => x.1 / 256 != i) } }

/-- The bin of a latency of `l` nanoseconds (19 R535). -/
def latencyBin (l : Nat) : Nat := min 31 (Nat.log2 l - 5)

/-- A latency sample of `l` nanoseconds on class `c`, for instance `i` (19 R535-R537). -/
def State.sampleLatency (s : State) (i c l : Nat) : State :=
  let k := 32 * c + latencyBin l
  let s : State := { s with cnt := { s.cnt with
    hist := Map.put s.cnt.hist k 0 (min 0xFFFFFFFF (Map.getD s.cnt.hist k 0 + 1)),
    instHist := Map.put s.cnt.instHist (256 * i + k) 0 ((Map.getD s.cnt.instHist (256 * i + k) 0 + 1) % 2 ^ 32) } }
  s.occur bkCNT 0x12 [0] 1

end Sys2Proof.Machine
end

