-- ==== Sys2Proof/Machine/LinkOps.lean ====
section
/-! DEFINITION. What every chapter asks of lanes and links: which lanes form a link, its state and phase, its waiting
control words (14 R429, R435, R441, R446). A link is named by its lowest lane. -/

namespace Sys2Proof.Machine

/-- The number of lanes of a width code: 0 for 1, 1 for 2, 2 for 4 (14 R435). -/
def widthOf (code : Nat) : Nat := if code = 1 then 2 else if code = 2 then 4 else 1

/-- The width in use of the link whose lowest lane is `p`. -/
def State.linkWidth (s : State) (p : Nat) : Nat := widthOf (s.fld (F.LNG_LANE_STATUS_WIDTH p))

/-- The lanes of the link whose lowest lane is `p`. -/
def State.linkLanes (s : State) (p : Nat) : List Nat := (List.range (s.linkWidth p)).map (p + ·)

/-- The lowest lane of the link that lane `l` belongs to. -/
def State.linkOf (s : State) (l : Nat) : Nat := l - l % s.linkWidth l

/-- Link states (14 R446). -/
def lkDOWN : Nat := 0
def lkTRAINING : Nat := 1
def lkQUARANTINE : Nat := 2
def lkUP : Nat := 3

/-- Lane phases (14 R441, R449). -/
def phFULL : Nat := 0
def phHALF : Nat := 1
def phNEW : Nat := 2
def phCHANGING : Nat := 3

/-- The state of the link of lane `l`. -/
def State.linkState (s : State) (l : Nat) : Nat := s.fld (F.LNG_LANE_STATUS_LINK l)

/-- The link carries cells of some class: QUARANTINE or UP. -/
def State.linkRuns (s : State) (l : Nat) : Bool := s.linkState l == lkQUARANTINE || s.linkState l == lkUP

/-- Writes a field of `LNG_LANE_STATUS` on every lane listed. -/
def State.setLanes (s : State) (f : Nat → Fld) (n : Nat) (ls : List Nat) : State :=
  ls.foldl (fun s l => s.setFld (f l) n) s

/-- Sets the link state on every lane of link `p`. -/
def State.setLinkState (s : State) (p n : Nat) : State := s.setLanes F.LNG_LANE_STATUS_LINK n (s.linkLanes p)

/-- Sets the phase of every lane of link `p`; all lanes of a link change together (14 R441). -/
def State.setLinkPhase (s : State) (p n : Nat) : State := s.setLanes F.LNG_LANE_STATUS_PHASE n (s.linkLanes p)

/-- Every lane of link `p` is FULL, and the link is neither DOWN nor TRAINING (14 R441, R446). -/
def State.linkFull (s : State) (p : Nat) : Bool :=
  s.linkRuns p && (s.linkLanes p).all (fun l => s.fld (F.LNG_LANE_STATUS_PHASE l) == phFULL)

/-- The record of link `p`. -/
def State.link (s : State) (p : Nat) : Link := Map.getD s.lnk.links p {}

/-- The state with the record of link `p` changed. -/
def State.modLink (s : State) (p : Nat) (f : Link → Link) : State :=
  { s with lnk := { s.lnk with links := Map.set s.lnk.links p (f (s.link p)) } }

/-- The record of lane `l`. -/
def State.lane (s : State) (l : Nat) : Lane := Map.getD s.lnk.lanes l {}

/-- The state with the record of lane `l` changed. -/
def State.modLane (s : State) (l : Nat) (f : Lane → Lane) : State :=
  { s with lnk := { s.lnk with lanes := Map.set s.lnk.lanes l (f (s.lane l)) } }

/-- The part has lane `l` (00 R3). -/
def State.laneExists (s : State) (l : Nat) : Bool := l < 512 || (s.part.lanesHi && l < 1024)

/-- The links that have come up and are not down: those with a record. -/
def State.linkIds (s : State) : List Nat := (s.lnk.links.map (·.1)).filter (fun p => s.linkRuns p && s.linkOf p == p)

/-- Control word kinds (14 R429). -/
def wIDLE : Nat := 0
def wACK : Nat := 1
def wCREDIT : Nat := 2
def wNAK : Nat := 3
def wREPLAY : Nat := 4
def wMARK : Nat := 5
def wTSREQ : Nat := 6
def wTSRESP : Nat := 7
def wTSDATA : Nat := 8
def wPHASE : Nat := 9
def wWAKE : Nat := 10
def wDOWN : Nat := 11
def wTRAIN : Nat := 12

/-- A control word of kind `k` with data `d`. -/
def mkWord (k d : Nat) : LinkWord := BitVec.ofNat 20 (k * 65536 + d % 65536)

/-- KIND and DATA of a control word. -/
def wordKind (w : LinkWord) : Nat := bits w 19 16
def wordData (w : LinkWord) : Nat := bits w 15 0

/-- ACK and CREDIT are cumulative: a later word replaces a waiting one of the same kind and pool (14 R430). -/
def sameCumulative (a b : LinkWord) : Bool :=
  (wordKind a == wACK && wordKind b == wACK) ||
  (wordKind a == wCREDIT && wordKind b == wCREDIT && bits a 15 13 == bits b 15 13)

/-- A control word waits for a field of link `p`. -/
def State.say (s : State) (p : Nat) (w : LinkWord) : State :=
  s.modLink p (fun k => { k with words := k.words.filter (fun x => !sameCumulative x w) ++ [w] })

/-- A control word received on link `p` is taken: it no longer waits among the received words. -/
def State.heard (s : State) (p : Nat) (w : LinkWord) : State :=
  s.modLink p (fun k => { k with rxWords := dropFirst w k.rxWords })

/-- `n` occurrences of an event of lane `l` (19 R534). -/
def State.occurLane (s : State) (l ev n : Nat) : State := s.occur (bkLNG (l / 16)) ev [l % 16, 16] n

end Sys2Proof.Machine
end

