-- ==== Sys2Proof/Machine/Faults.lean ====
section
/-! DEFINITION. Raising a fault, and what follows: escalation, recording, the interrupt, ERR_N and the halt
(18 R510-R527). -/

namespace Sys2Proof.Machine

/-- Fault classes (18 R510). -/
def fcCORRECTED : Nat := 1
def fcCONTAINED : Nat := 2
def fcFATAL : Nat := 3

/-- Block bases, which name the blocks (21 R566). -/
def blkID : Nat := 0
def blkCTL : Nat := 0x10000
def blkPWR : Nat := 0x20000
def blkTIM : Nat := 0x40000
def blkCNT : Nat := 0x50000
def blkTIL (t : Nat) : Nat := 0x100000 + 0x10000 * t
def blkLNG (g : Nat) : Nat := 0x600000 + 0x10000 * g
def blkHPT (p : Nat) : Nat := 0xA00000 + 0x10000 * p
def blkMEM : Nat := 0xB00000
def blkATU : Nat := 0xC00000
def blkXLT : Nat := 0xD00000
def blkINJ : Nat := 0xE00000
def blkMGT : Nat := 0xF00000

/-- The class at position `i` of a list of source classes, 0 where there is none. -/
def nthClass (l : List Nat) (i : Nat) : Nat := l.getD i 0

/-- The source class of source `i` of a block; 0 for an unassigned source (18 R524, R525). -/
def srcClass (blk i : Nat) : Nat :=
  if i = 31 ∨ i = 30 then fcFATAL
  else if i = 29 then fcCORRECTED
  else if blk = blkCTL then nthClass [2, 3, 2] i
  else if blk = blkPWR then nthClass [3, 1, 3] i
  else if blk = blkTIM then nthClass [1, 2, 2, 2, 1, 2, 2, 2] i
  else if blk = blkCNT then nthClass [2] i
  else if 0x100000 ≤ blk ∧ blk < 0x500000 then nthClass [2, 2, 2, 1, 1, 3] i
  else if 0x600000 ≤ blk ∧ blk < 0xA00000 then (if i < 16 then 1 else nthClass [2, 1, 1] (i - 16))
  else if 0xA00000 ≤ blk ∧ blk < 0xA80000 then nthClass [2, 2, 2, 2, 1, 2] i
  else if blk = blkMEM then nthClass [1, 2, 2, 3] i
  else if blk = blkATU then nthClass [2] i
  else if blk = blkXLT then nthClass [2, 2] i
  else if blk = blkMGT then nthClass [3, 3, 3, 3, 1] i
  else 0

/-- The sources that are always sticky (18 R525): REPLAY_HEADER, and FW_AUTH, SELF_TEST, FLASH_READ and
LEVEL_UNSUPPORTED. -/
def alwaysSticky (blk i : Nat) : Bool := (blk == blkCTL && i == 1) || (blk == blkMGT && i < 4)

/-- The key of a source in the lists of the fault logic. -/
def fltKey (blk i : Nat) : Nat := blk + i

/-- A FATAL raised now is sticky: before the join of the start-up sequence has completed, or during a replay (18 R522,
20 R558). -/
def State.stickyWindow (s : State) : Bool := !s.flag F.MGT_STATUS_JOINED || s.flag F.CTL_JRNL_CTRL_REPLAY

/-- A block holds a sticky FATAL. -/
def State.hasSticky (s : State) (blk : Nat) : Bool := s.flt.sticky.any (fun k => blk ≤ k && k < blk + 32)

/-- Link `p` sends LINK_DOWN in 4 consecutive fields and then falls silent (14 R448, 18 R523). -/
def State.sendLinkDown (s : State) (p : Nat) : State :=
  s.modLink p (fun k => { k with downLeft := 4, words := [] })

/-- The chip halts: LINK_DOWN on every link, transmitters silent, lanes in training among them, HALTED set (18 R523). -/
def State.halt (s : State) : State :=
  if s.halted then s else
  let ls := s.linkIds
  let ts := (s.lnk.lanes.map (·.1)).filter (fun l => s.linkState l == lkTRAINING)
  let s := ls.foldl (fun s p => (s.sendLinkDown p).setLinkState p lkDOWN) (s.setLanes F.LNG_LANE_STATUS_LINK lkDOWN ts)
  s.setFlag F.MGT_FLT_PIN_HALTED true

/-- A raise reported in class `r` signals the interrupt if it is enabled (18 R517). -/
def State.signalInt (s : State) (blk r : Nat) : State :=
  if bit (s.rd (Reg.FLT_INT blk)) (r - 1) then { s with flt := { s.flt with msiDue := true } } else s

/-- ERR_N starts a pulse, which is counted (18 R518). -/
def State.startPulse (s : State) : State :=
  { s.bumpSat Reg.MGT_FLT_PULSES with flt := { s.flt with pulse := true, pulseNext := false } }

/-- A raise reported in class `r` drives ERR_N: a raise during a pulse adds none, a raise within 2 us after a pulse
ends starts a new one 2 us after that end (18 R518). -/
def State.signalPin (s : State) (r : Nat) : State :=
  let m := s.fld F.MGT_FLT_PIN_PULSE_MIN
  if m = 0 ∨ r < m then s
  else if s.flt.pulse then s
  else match s.flt.pulseEnd with
    | some e => if s.t < e + us 2 then { s with flt := { s.flt with pulseNext := true } } else s.startPulse
    | none => s.startPulse

/-- Records the first raise (18 R512 `_FLT_FIRST`, R527). -/
def State.recordFirst (s : State) (blk i r info : Nat) (forced esc sticky : Bool) : State :=
  if s.flag (F.FLT_FIRST_VALID blk) then s else
  let w := 0x80000000 + b2n sticky * 0x40000000 + b2n forced * 0x20000000 + b2n esc * 0x10000000 + r * 0x1000000 + i
  (((s.wr (Reg.FLT_FIRST blk) (BitVec.ofNat 32 w)).wr (Reg.FLT_INFO blk) (BitVec.ofNat 32 info)).wr
    (Reg.FLT_TIME_LO blk) (s.now.extractLsb' 0 32)).wr (Reg.FLT_TIME_HI blk) (s.now.extractLsb' 32 32)

/-- The counter of the raises reported in class `r` (18 R512). -/
def fltCounter (blk r : Nat) : Nat :=
  if r = fcCORRECTED then Reg.FLT_N_CORR blk else if r = fcCONTAINED then Reg.FLT_N_CONT blk else Reg.FLT_N_FATAL blk

/-- Sets bit `i` of the word at address `a`. -/
def State.setBit (s : State) (a i : Nat) : State := s.wr a (setBits (s.rd a) i i 1)

/-- The part of a raise that follows the mask and the merging (18 R513): `unack` tells whether the class's UNACK bit
was set before. -/
def State.raiseCounted (s : State) (blk i info : Nat) (forced unack : Bool) : State :=
  let c := srcClass blk i
  let esc := unack && c != fcFATAL
  let r := if esc then c + 1 else c
  let sticky := r == fcFATAL && !forced && (s.stickyWindow || alwaysSticky blk i)
  let s := s.setBit (Reg.FLT_STATUS blk) i
  let s := if esc then s.bumpSat (Reg.FLT_N_ESC blk) else s
  let s := (s.setBit (Reg.FLT_UNACK blk) (c - 1)).setBit (Reg.FLT_UNACK blk) (r - 1)
  let s := s.recordFirst blk i r info forced esc sticky
  let s := (s.bumpSat (fltCounter blk r)).occur (bankOf blk) 2 [0] 1
  let s := if sticky then
      { s.setFlag F.MGT_FLT_PIN_STICKY true with flt := { s.flt with sticky := fltKey blk i :: s.flt.sticky } } else s
  let s := if r == fcFATAL && !forced then s.halt else s
  (s.signalInt blk r).signalPin r

/-- A source was raised less than 1 us ago (18 R514). -/
def State.justRaised (s : State) (blk i : Nat) : Bool :=
  match Map.get? s.flt.last (fltKey blk i) with
  | some t => decide (s.t < t + us 1)
  | none => false

/-- Source `i` is masked; a FATAL one cannot be (18 R515). -/
def State.masked (s : State) (blk i : Nat) : Bool := bit (s.rd (Reg.FLT_MASK blk)) i && srcClass blk i != fcFATAL

/-- A raise within 1 us of the last of its source is counted as merged; its containment, which for a FATAL source is the halt,
still runs (18 R513, R514). -/
def State.raiseMerged (s : State) (blk i : Nat) (forced : Bool) : State :=
  let s := s.bumpSat (Reg.FLT_N_MERGED blk)
  if srcClass blk i == fcFATAL && !forced then s.halt else s

/-- One event raises sources `is` of a block at one instant: one raise, at the highest of the classes of those that are neither
masked nor merged (18 R513, R514). `info` is what `_FLT_INFO` records. -/
def State.raiseTogether (s : State) (blk : Nat) (is : List Nat) (info : Nat) (forced : Bool) : State :=
  let fresh := is.filter (fun i => !s.masked blk i && !s.justRaised blk i)
  let unacked := s.rd (Reg.FLT_UNACK blk)
  let s := is.foldl (fun s i =>
    if s.masked blk i then s.setBit (Reg.FLT_STATUS blk) i
    else
      let again := s.justRaised blk i
      let s : State := { s with flt := { s.flt with last := Map.set s.flt.last (fltKey blk i) s.t } }
      if again then s.raiseMerged blk i forced else s.setBit (Reg.FLT_STATUS blk) i) s
  let top := (fresh.map (srcClass blk)).foldl max 0
  match fresh.find? (fun i => srcClass blk i == top) with
  | none => s
  | some i => s.raiseCounted blk i info forced (bit unacked (top - 1))

/-- A block raises source `i` (18 R513-R516). Containment is the caller's; the halt is here. `info` is what
`_FLT_INFO` records; `unack` is the class's UNACK bit that the escalation goes by. -/
def State.raiseWith (s : State) (blk i info : Nat) (forced unack : Bool) : State :=
  let c := srcClass blk i
  if c = 0 then s
  else if s.masked blk i then s.setBit (Reg.FLT_STATUS blk) i
  else
    let merged := s.justRaised blk i
    let s := { s with flt := { s.flt with last := Map.set s.flt.last (fltKey blk i) s.t } }
    if merged then s.raiseMerged blk i forced else s.raiseCounted blk i info forced unack

/-- Class `c` of the block is unacknowledged. -/
def State.unacked (s : State) (blk c : Nat) : Bool := bit (s.rd (Reg.FLT_UNACK blk)) (c - 1)

/-- A raise whose escalation goes by the UNACK bit as it stands. -/
def State.raiseFault (s : State) (blk i info : Nat) (forced : Bool) : State :=
  s.raiseWith blk i info forced (s.unacked blk (srcClass blk i))

/-- A raise that the block detected, not a forced one. -/
def State.raise (s : State) (blk i info : Nat) : State := s.raiseFault blk i info false

/-- The condition of a standing source holds from now on (18 R520). -/
def State.stand (s : State) (blk i : Nat) : State :=
  if s.flt.standing.contains (fltKey blk i) then s else
    { s with flt := { s.flt with standing := fltKey blk i :: s.flt.standing } }

/-- A standing source: raised when its condition begins, and held until it ends (18 R520). -/
def State.raiseStanding (s : State) (blk i info : Nat) : State := (s.stand blk i).raise blk i info

/-- The condition of a standing source has gone: its STATUS bit can now be cleared. -/
def State.endStanding (s : State) (blk i : Nat) : State :=
  { s with flt := { s.flt with standing := s.flt.standing.filter (· != fltKey blk i) } }

/-- A write of `w` to `_FLT_STATUS`: a bit clears if its cause has gone and it is not held as sticky (18 R520, R522). -/
def State.clearStatus (s : State) (blk : Nat) (w : Word) : State :=
  let held := (List.range 32).foldl (fun acc i =>
    if s.flt.standing.contains (fltKey blk i) || s.flt.sticky.contains (fltKey blk i) then acc + 2 ^ i else acc) 0
  s.wr (Reg.FLT_STATUS blk) (s.rd (Reg.FLT_STATUS blk) &&& ~~~ (w &&& ~~~ BitVec.ofNat 32 held))

/-- A write of `w` to `_FLT_UNACK`; a sticky FATAL holds its FATAL bit (18 R512, R522). -/
def State.clearUnack (s : State) (blk : Nat) (w : Word) : State :=
  let w := if s.hasSticky blk then w &&& 3#32 else w &&& 7#32
  s.wr (Reg.FLT_UNACK blk) (s.rd (Reg.FLT_UNACK blk) &&& ~~~ w)

/-- A write of `w` to `_FLT_FIRST`: VALID clears and recording is armed again, unless a sticky FATAL holds it
(18 R512, R522). -/
def State.clearFirst (s : State) (blk : Nat) (w : Word) : State :=
  if s.hasSticky blk || !bit w 31 then s
  else s.wr (Reg.FLT_FIRST blk) (s.rd (Reg.FLT_FIRST blk) &&& 0x7FFFFFFF#32)

/-- What a device reset does to the fault registers of one block (18 R521, R522). -/
def State.resetFaultBlock (s : State) (blk : Nat) : State :=
  let keepSt := (List.range 32).foldl (fun acc i =>
    if s.flt.sticky.contains (fltKey blk i) then acc + 2 ^ i else acc) 0
  let s := s.wr (Reg.FLT_STATUS blk) (s.rd (Reg.FLT_STATUS blk) &&& BitVec.ofNat 32 keepSt)
  let s := s.wr (Reg.FLT_UNACK blk) (if s.hasSticky blk then s.rd (Reg.FLT_UNACK blk) &&& 4#32 else 0#32)
  (s.wr (Reg.FLT_MASK blk) 0#32).wr (Reg.FLT_INT blk) 6#32

/-- All the blocks (18 R511). -/
def allBlocks : List Nat :=
  [blkID, blkCTL, blkPWR, blkTIM, blkCNT, blkMEM, blkATU, blkXLT, blkINJ, blkMGT] ++ (List.range 64).map blkTIL ++
  (List.range 64).map blkLNG ++ (List.range 8).map blkHPT

end Sys2Proof.Machine
end

