-- ==== Sys2Proof/Machine/RouteOps.lean ====
section
/-! DEFINITION. The shared operations of routing: epochs, tables, eligibility, weights, the queues of the output ports,
the credits that a cell's departure returns, and the drain of an epoch (04 R122-R147, 14 R439). -/

namespace Sys2Proof.Machine

/-- Epoch states (04 R140). -/
def esEMPTY : Nat := 0
def esIDLE : Nat := 1
def esPENDING : Nat := 2
def esACTIVE : Nat := 3
def esRETIRING : Nat := 4

/-- PENDING, ACTIVE and RETIRING are routable (04 R140). -/
def routableSt (e : Nat) : Bool := e == esPENDING || e == esACTIVE || e == esRETIRING

/-- The state of route epoch `e`. -/
def State.repoch (s : State) (e : Nat) : Nat :=
  if e = 0 then s.fld F.CTL_ROUTE_EPOCH_E0_STATE else s.fld F.CTL_ROUTE_EPOCH_E1_STATE

/-- Sets the state of route epoch `e`. -/
def State.setRepoch (s : State) (e n : Nat) : State :=
  if e = 0 then s.setFld F.CTL_ROUTE_EPOCH_E0_STATE n else s.setFld F.CTL_ROUTE_EPOCH_E1_STATE n

/-- The image of route epoch `e`. -/
def State.rtable (s : State) (e : Nat) : Nat := if e = 0 then s.rt.table0 else s.rt.table1

/-- The epoch that sources stamp (04 R139). -/
def State.stamp (s : State) : Nat := s.fld F.CTL_ROUTE_EPOCH_STAMP

/-- The chip's endpoint address, and whether it has been written (04 R122). -/
def State.addr (s : State) : Nat := s.fld F.CTL_ENDPOINT_ADDR
def State.addressed (s : State) : Bool := s.flag F.CTL_ENDPOINT_LOCKED

/-- The spray set of entry `n` of an image, and its NM bit (04 R125). -/
def sprayOf (img n : Nat) : Nat := img / 2 ^ (n * 1025) % 2 ^ 1024
def nmOf (img n : Nat) : Bool := img / 2 ^ (n * 1025 + 1024) % 2 == 1

/-- Port `p` is eligible for a cell of class `cls` (04 R128). A link with an agreed phase change waiting sends no new
cell and is not eligible either (14 R441). -/
def State.eligible (s : State) (cls p : Nat) : Bool :=
  s.laneExists p && s.linkOf p == p && s.linkFull p && (s.linkState p == lkUP || cls == 6) &&
    (s.link p).phaseDue.isNone

/-- The eligible ports of a spray set, in ascending order (04 R128, R129). -/
def State.eligiblePorts (s : State) (cls spray : Nat) : List Nat :=
  (List.range 1024).filter (fun p => spray.testBit p && s.eligible cls p)

/-- The cells queued on output `p`. -/
def State.queueOf (s : State) (p : Nat) : List HeldCell := Map.getD s.rt.outQ p []

/-- q_p: the number of cells of classes 0-6 queued on output `p` (04 R129). -/
def State.qlen (s : State) (p : Nat) : Nat := (s.queueOf p).length

/-- The minimal weight of port `p` (04 R129); BIAS above 1,024 acts as 1,024 (R148). -/
def State.minWeight (s : State) (p : Nat) : Nat :=
  let b := min 1024 (s.fld F.CTL_ROUTE_CTRL_BIAS)
  if b = 0 then 1 else max 1 (b - s.qlen p)

/-- The detour weight of port `p` (04 R129); NM_SCALE 17-31 acts as 16. -/
def State.detourWeight (s : State) (p : Nat) : Nat :=
  s.minWeight p * min 16 (s.fld F.CTL_ROUTE_CTRL_NM_SCALE) / 16

/-- Merges two ascending lists of candidates into one, by port (04 R129). -/
def mergeCands : List (Nat × Nat × Bool) → List (Nat × Nat × Bool) → List (Nat × Nat × Bool)
  | [], b => b
  | x :: a, b => (b.filter (fun y => y.1 < x.1)) ++ x :: mergeCands a (b.filter (fun y => !(y.1 < x.1)))

/-- The port at which the running sum of weights first exceeds `r` (04 R129). -/
def pickAt : List (Nat × Nat × Bool) → Nat → Option (Nat × Bool)
  | [], _ => none
  | (p, w, d) :: t, r => if r < w then some (p, d) else pickAt t (r - w)

/-- A free draw between 0 and `n - 1` (04 R129). -/
def State.draw (s : State) (n : Nat) : Nat := Config.freeDraw s.draws % n

/-- The groups that R130 may draw the intermediate group from. -/
def State.detourGroups (s : State) (img cls own dstG : Nat) : List Nat :=
  (List.range 256).filter (fun g => g != own && g != dstG && !(s.eligiblePorts cls (sprayOf img g)).isEmpty)

/-- A credit of the pool of the level at which a cell was held returns to the link it came by, when it leaves the cell
store; transit cells need none (04 R136, R173, 14 R439). -/
def State.release (s : State) (h : HeldCell) : State :=
  match h.inp with
  | none => s
  | some p =>
    if h.cell.cls = 7 then s else
    let pool := if h.cell.cls = 6 then 7 else h.cell.hop
    let n := (Map.getD (s.link p).back pool 0 + 1) % 8192
    (s.modLink p (fun k => { k with back := Map.set k.back pool n })).say p (mkWord wCREDIT (pool * 8192 + n))

/-- A cell is discarded: it leaves the cell store, and counter `a` counts it (04 R138). -/
def State.dropCell (s : State) (h : HeldCell) (a : Nat) : State := (s.bump a).release h

/-- A cell arrives at the receive path: if it was among the delivered cells it leaves them, and its credit returns. -/
def State.arrive (s : State) (c : Cell) : State :=
  match s.rt.delivered.find? (fun h => h.cell = c) with
  | none => s
  | some h => ({ s with rt := { s.rt with delivered := dropFirst h s.rt.delivered } }).release h

/-- A cell built on this chip enters the router (04 R133). -/
def State.inject (s : State) (c : Cell) : State :=
  { s with rt := { s.rt with held := s.rt.held ++ [{ inp := none, cell := c }] } }

/-- A cell is queued on output `p`: CM is set if the queue is deep (04 R132). -/
def State.enqueue (s : State) (p : Nat) (h : HeldCell) (detour : Bool) : State :=
  let m := s.fld F.CTL_ROUTE_CTRL_MARK_DEPTH
  let c := if m != 0 && m ≤ s.qlen p && h.cell.cls ≤ 5 then h.cell.withCM else h.cell
  { s with rt := { s.rt with outQ := Map.set s.rt.outQ p (s.queueOf p ++ [{ h with cell := c, detour := detour }]) } }

/-- The discard of R127 for want of a port. -/
def State.dropNoPort (s : State) (h : HeldCell) : State :=
  if h.cell.hop + 1 = s.fld F.CTL_ROUTE_CTRL_HOP_LIMIT then s.dropCell h Reg.CTL_DROP_HOP
  else s.dropCell h Reg.CTL_DROP_NOROUTE

/-- The pick of a port for a cell whose epoch's image is `img` (04 R127-R130), by `CTL_ROUTE_CTRL` as it stands at the pick: for a
cell whose header came before its last write, R147 leaves open which value counts (log entry 159). -/
def State.pickPort (s : State) (h : HeldCell) (img : Nat) : State :=
  let c := h.cell
  let own := s.addr / 512
  let dstG := c.dst / 512
  let lim := s.fld F.CTL_ROUTE_CTRL_HOP_LIMIT
  let e := if dstG = own then 256 + c.dst % 512 else dstG
  let minimal := s.eligiblePorts c.cls (sprayOf img e)
  let mayDetour := nmOf img e && own == c.src / 512 && c.hop + 1 < lim
  let gs := if mayDetour then s.detourGroups img c.cls own dstG else []
  let s1 := if gs.isEmpty then s else s.drawn
  let detour := match gs[s.draw gs.length]? with
    | some g => (s.eligiblePorts c.cls (sprayOf img g)).filter (fun p => !minimal.contains p)
    | none => []
  let cands := (mergeCands (minimal.map (fun p => (p, s.minWeight p, false)))
    (detour.map (fun p => (p, s.detourWeight p, true)))).filter (fun x => x.2.1 != 0)
  let total := (cands.map (fun x => x.2.1)).sum
  match pickAt cands (s1.draw total) with
  | none => s1.dropNoPort h
  | some (p, d) => s1.drawn.enqueue p h d

/-- A chip that holds a cell of classes 0-6 handles it (04 R122, R127). -/
def State.routeCell (s : State) (h : HeldCell) : State :=
  let c := h.cell
  if c.linkLocal then { s with rt := { s.rt with delivered := s.rt.delivered ++ [h] } }
  else if !s.addressed then s.dropCell h Reg.CTL_DROP_NOROUTE
  else if c.dst = s.addr then { s with rt := { s.rt with delivered := s.rt.delivered ++ [h] } }
  else if !routableSt (s.repoch c.epo) then s.dropCell h Reg.CTL_DROP_EPOCH
  else if s.fld F.CTL_ROUTE_CTRL_HOP_LIMIT ≤ c.hop then s.dropCell h Reg.CTL_DROP_HOP
  else s.pickPort h (s.rtable c.epo)

/-- The cells queued on port `p` that `gone` holds of are picked again; the others stay queued (04 R131). -/
def State.repickIf (s : State) (p : Nat) (gone : HeldCell → Bool) : State :=
  let q := s.queueOf p
  { s with rt := { s.rt with outQ := Map.put s.rt.outQ p [] (q.filter (fun h => !gone h)),
                             held := s.rt.held ++ (q.filter gone).map (fun h => { h with detour := false }) } }

/-- Cells queued on a port that stops being eligible are picked again (04 R131). A link-local cell has no other place: it
waits until the link carries cells again. -/
def State.repick (s : State) (p : Nat) : State := s.repickIf p (fun h => !h.cell.linkLocal)

/-- The cells of classes 0-6 stamped `e` that wait here or are queued, built here or not. -/
def State.stampedHere (s : State) (e : Nat) : List HeldCell :=
  (s.rt.held ++ (s.rt.outQ.map (·.2)).flatten ++ s.rt.delivered).filter
    (fun h => h.cell.epo = e && h.cell.cls ≤ 6 && !h.cell.linkLocal)

/-- The cells stamped `e` that the cell stores hold (04 R148, HELD). -/
def State.heldOf (s : State) (e : Nat) : List HeldCell := (s.stampedHere e).filter (fun h => h.inp.isSome)

/-- DRAIN(e, h) has arrived on link `p`, or a marker of a higher level, or the link is not FULL (04 R144). -/
def State.drainFrom (s : State) (e h p : Nat) : Bool :=
  !s.linkFull p || s.rt.drainIn.any (fun m => m.1 == e && h ≤ m.2.1 && m.2.2 == p)

/-- DRAIN(e, h) has arrived on every input link. -/
def State.drainAll (s : State) (e h : Nat) : Bool := s.linkIds.all (s.drainFrom e h)

/-- The condition for sending DRAIN(e, h) (04 R144). -/
def State.drainReady (s : State) (e h : Nat) : Bool :=
  if h = 0 then (s.stampedHere e).all (fun x => x.inp.isSome)
  else s.drainAll e (h - 1) && (s.heldOf e).all (fun x => h ≤ x.cell.hop)

/-- Sends DRAIN(e, h) on every output link that has not had it. -/
def State.sendDrain (s : State) (e h : Nat) : State :=
  (s.linkIds.filter s.linkFull).foldl (fun s p =>
    if s.rt.drainOut.contains (e, h, p) then s else
    let s := s.enqueue p { inp := none, cell := drainCell e h } false
    { s with rt := { s.rt with drainOut := s.rt.drainOut ++ [(e, h, p)] } }) s

/-- DRAIN(e, h) has been sent on every output link. -/
def State.drainSent (s : State) (e h : Nat) : Bool :=
  (s.linkIds.filter s.linkFull).all (fun p => s.rt.drainOut.contains (e, h, p))

/-- Sends what the levels from `h` on allow, in order (04 R144). -/
def State.drainFromLevel (s : State) (e : Nat) : Nat → Nat → State
  | 0, _ => s
  | n + 1, h => if s.drainReady e h then (s.sendDrain e h).drainFromLevel e n (h + 1) else s

/-- A RETIRING route epoch makes what progress it can, and retires once drained (04 R144). -/
def State.drainEpoch (s : State) (e : Nat) : State :=
  if s.repoch e ≠ esRETIRING then s else
  let l := s.fld F.CTL_ROUTE_CTRL_HOP_LIMIT
  let s := s.drainFromLevel e (l + 1) 0
  if s.drainSent e l && s.drainAll e l && (s.heldOf e).isEmpty then s.setRepoch e esIDLE else s

/-- Both epochs. -/
def State.drain (s : State) : State := (s.drainEpoch 0).drainEpoch 1

/-- The discards of a forced retirement of epoch `e`: every held cell stamped `e`, and every one built here and not yet
sent (04 R144). -/
def State.dropStamped (s : State) (e : Nat) : State :=
  let bad := fun (h : HeldCell) => h.cell.epo == e && h.cell.cls ≤ 6 && !h.cell.linkLocal
  let gone := s.stampedHere e
  let s := { s with rt := { s.rt with held := s.rt.held.filter (fun h => !bad h),
                                      delivered := s.rt.delivered.filter (fun h => !bad h),
                                      outQ := Map.mapV s.rt.outQ (fun _ q => q.filter (fun h => !bad h)) } }
  gone.foldl (fun s h => s.dropCell h Reg.CTL_DROP_EPOCH) s

/-- DRAIN_LEVEL of epoch `e`: the highest level whose marker has arrived on every input link, 0xF for none (04 R148). -/
def State.drainLevel (s : State) (e : Nat) : Nat :=
  (List.range 7).foldl (fun acc h => if s.rt.drainIn.any (fun m => m.1 == e) && s.drainAll e h then h else acc) 15

end Sys2Proof.Machine
end

