-- ==== Sys2Proof/Machine/TimeOps.lean ====
section
/-! DEFINITION. The shared operations of the fabric-time unit and of transits: time states, steps, the loss of the
parent, schedule entries, source records, the report of a lost path and the switch to the backup (05). -/

namespace Sys2Proof.Machine

/-- Time states (05 R160). -/
def tsUNSET : Nat := 0
def tsACQUIRING : Nat := 1
def tsLOCKED : Nat := 2
def tsHOLDOVER : Nat := 3
def tsOUTLIER : Nat := 4

/-- Roles (05 R154). -/
def roleFOLLOWER : Nat := 0
def roleROOT : Nat := 1
def roleSTANDBY : Nat := 2

def State.timeState (s : State) : Nat := s.fld F.TIM_STATUS_STATE
def State.role (s : State) : Nat := s.fld F.TIM_CTRL_ROLE

/-- The chip takes part in transits and admits deadlines (05 R165, R187, R192). -/
def State.synced (s : State) : Bool := s.timeState == tsLOCKED || s.timeState == tsHOLDOVER

/-- The chip has acquired time, for ADM_NO_TIME (05 R160). -/
def State.hasTime (s : State) : Bool := s.synced || s.timeState == tsOUTLIER

/-- A good exchange has |offset| of at most 4 ns (05 R160). -/
def goodOffset (o : Int) : Bool := decide (o.natAbs ≤ ns 4)
/-- An offset above 40 ns (05 R161). -/
def outOffset (o : Int) : Bool := decide (ns 40 < o.natAbs)

/-- Enters HOLDOVER, without its fault (05 R161). -/
def State.startHoldover (s : State) : State :=
  { s.setFld F.TIM_STATUS_STATE tsHOLDOVER with tim := { s.tim with holdFrom := some s.t } }

/-- Enters a time state, with the faults that stand while it lasts (05 R160, 18 R525). -/
def State.setTime (s : State) (n : Nat) : State :=
  let old := s.timeState
  let s := s.setFld F.TIM_STATUS_STATE n
  if n = old then s
  else if n = tsLOCKED then
    { (s.endStanding blkTIM 0).endStanding blkTIM 1 with tim := { s.tim with holdFrom := none } }
  else if n = tsHOLDOVER then
    s.startHoldover.raiseStanding blkTIM 0 0
  else if n = tsOUTLIER then
    let s := { s with tim := { s.tim with holdFrom := none } }
    (s.bump Reg.TIM_OUTLIER_COUNT).raiseStanding blkTIM 1 0
  else { s with tim := { s.tim with holdFrom := none } }

/-- Sets the count of consecutive good exchanges, saturating at 255 (05 R194, GOOD). -/
def State.setGood (s : State) (n : Nat) : State := s.setFld F.TIM_STATUS_GOOD (min 255 n)

/-- The port this chip follows: the parent, or the alternate while ON_ALT (05 R162). -/
def State.followed (s : State) : Nat :=
  if s.flag F.TIM_STATUS_ON_ALT then s.fld F.TIM_CTRL_ALT_PORT else s.fld F.TIM_CTRL_PARENT_PORT

/-- The chip follows a parent: a FOLLOWER, or a STANDBY that does not act as root (05 R154, R164). -/
def State.follows (s : State) : Bool :=
  s.role == roleFOLLOWER || (s.role == roleSTANDBY && !s.flag F.TIM_STATUS_ACTING_ROOT)

/-- The chip steers to TIME_IN: the root, or the acting root (05 R154, R164). -/
def State.isRoot (s : State) : Bool :=
  s.role == roleROOT || (s.role == roleSTANDBY && s.flag F.TIM_STATUS_ACTING_ROOT)

/-- The parent is lost (05 R161, R162): a LOCKED chip goes into HOLDOVER, and the chip moves to its alternate. -/
def State.parentLost (s : State) : State :=
  if !s.follows then s else
  let s := { s with tim := { s.tim with xchg := none, missed := 0 } }
  let s := if s.timeState = tsLOCKED then (s.setGood 0).setTime tsHOLDOVER else s.setGood 0
  if s.flag F.TIM_CTRL_ALT_EN && !s.flag F.TIM_STATUS_ON_ALT then s.setFlag F.TIM_STATUS_ON_ALT true else s

/-- Link `p` has left FULL or entered quarantine: if the chip follows it, its parent is lost. -/
def State.parentCheck (s : State) (p : Nat) : State :=
  if s.follows && s.followed == p then s.parentLost else s

/-- The number of the last tide at or before time `t` (05 R166). -/
def tideNo (t : Nat) : Nat := t / 0x1400000

/-- The absolute slot number at time `t`, and the start of a slot (05 R166). -/
def slotNo (t : Nat) : Nat := t / ns 320
def slotStart (n : Nat) : Nat := n * ns 320

/-- Schedule epoch states (05 R176). -/
def State.sepoch (s : State) (e : Nat) : Nat :=
  if e = 0 then s.fld F.TIM_SCHED_EPOCH_E0_STATE else s.fld F.TIM_SCHED_EPOCH_E1_STATE
def State.setSepoch (s : State) (e n : Nat) : State :=
  if e = 0 then s.setFld F.TIM_SCHED_EPOCH_E0_STATE n else s.setFld F.TIM_SCHED_EPOCH_E1_STATE n

/-- The ACTIVE schedule epoch. -/
def State.activeSched (s : State) : Option Nat :=
  if s.sepoch 0 = esACTIVE then some 0 else if s.sepoch 1 = esACTIVE then some 1 else none

/-- The PENDING schedule epoch. -/
def State.pendingSched (s : State) : Option Nat :=
  if s.sepoch 0 = esPENDING then some 0 else if s.sepoch 1 = esPENDING then some 1 else none

/-- Entry (i, k) of a schedule image (05 R168). -/
def schedEntry (img i k : Nat) : Nat := img / 2 ^ ((4096 * i + k) * 11) % 2048
def enDELIVER : Nat := 0x7FE
def enNONE : Nat := 0x7FF

def State.sched (s : State) (e : Nat) : Nat := if e = 0 then s.tim.sched0 else s.tim.sched1

/-- The table entry of a window: NONE if its epoch is not routable (05 R172). -/
def State.windowEntry (s : State) (e i k : Nat) : Nat :=
  if routableSt (s.sepoch e) then schedEntry (s.sched e) i k else enNONE

/-- Source record `n` of schedule epoch `e`. -/
def State.xrec (s : State) (e n : Nat) : XRec := Map.getD s.tim.recs (4096 * e + n) {}
def State.setXrec (s : State) (e n : Nat) (r : XRec) : State :=
  { s with tim := { s.tim with recs := Map.put s.tim.recs (4096 * e + n) {} r } }

/-- The valid records of epoch `e`, with their indices. -/
def State.validRecs (s : State) (e : Nat) : List (Nat × XRec) :=
  (s.tim.recs.filter (fun p => p.1 / 4096 == e && p.2.valid)).map (fun p => (p.1 % 4096, p.2))

/-- The valid record of epoch `e` for destination `dst` (05 R180, R181). -/
def State.recFor (s : State) (e dst : Nat) : Option (Nat × XRec) :=
  (s.validRecs e).find? (fun p => p.2.dst == dst)

/-- The primary slots of a record (05 R180). -/
def XRec.slots (r : XRec) : List Nat := (List.range r.count).map (fun j => r.first + j * r.stride)
/-- Slot index `k` is one of the record's primary slots. -/
def XRec.ownsPrimary (r : XRec) (k : Nat) : Bool :=
  decide (r.first ≤ k) && r.stride != 0 && (k - r.first) % r.stride == 0 && (k - r.first) / r.stride < r.count
/-- Slot index `k` is the backup of one of them. -/
def XRec.ownsBackup (r : XRec) (k : Nat) : Bool := r.ownsPrimary ((k + 4096 - r.bofs) % 4096)

/-- The connection of a cell has it acknowledged: its SEQ is covered, or its segment is known to be complete. -/
def State.cellAcked (s : State) (c : CellRef) : Bool :=
  match Map.get? s.xpt.conns c.handle with
  | none => true
  | some k => match k.segs.find? (fun g => g.seq == c.seq) with
    | none => true
    | some g => g.done

/-- A source switches a record to its backup (05 R185): PFAIL, the count, the faults, and the resends of each primary
instance begun in the last 8 us. -/
def State.backupSwitch (s : State) (e n : Nat) : State :=
  let r := s.xrec e n
  if !r.valid || r.pfail then s else
  let info := 4096 * e + n
  let s := (s.setXrec e n { r with pfail := true }).bump Reg.TIM_BACKUP_SWITCH
  let s := if r.bfail then (s.stand blkTIM 5).raiseTogether blkTIM [4, 5] info false else s.raise blkTIM 4 info
  let again := (s.tim.begun.filter (fun b =>
      b.epoch == e && b.index == n && !b.backup && decide (s.t < b.at_ + us 8))).map
    (fun b => (4096 * e + n, b.slot + r.bofs, b.cells.filter (fun c => !s.cellAcked c)))
  { s with tim := { s.tim with resend := s.tim.resend ++ again.filter (fun a => !a.2.2.isEmpty) } }

/-- A backup label is reported lost (05 R185). -/
def State.backupFailed (s : State) (e n : Nat) : State :=
  let r := s.xrec e n
  if !r.valid || r.bfail then s else
  let s := s.setXrec e n { r with bfail := true }
  if r.pfail then s.raiseStanding blkTIM 5 (4096 * e + n) else s

/-- A TRANSIT_DOWN notice for (epoch, label) and output `p` goes to source endpoint `src` as a routed class-6 cell
(05 R184, 04 R600). -/
def State.reportDown (s : State) (src e k p : Nat) : State :=
  let q := if p < 1024 then p else Config.freeChoice s.draws % 1024
  s.drawn.inject (mgmtCell src s.addr 0 s.stamp mgTRANSITDOWN (payOf [(0, 1, e), (2, 2, k), (4, 4, q)]))

/-- The transit side of declaring output link `p` lost: the notices for the last 8 windows sent on it, and the switch
of the records of this source that use it (05 R184, R185). That the loss of its own BOUT link sets BFAIL of a record, as a
TRANSIT_DOWN for its backup label would, is the model's choice (log entry 160). -/
def State.transitLinkLost (s : State) (p : Nat) : State :=
  let s := (Map.getD s.tim.lastSent p []).foldl (fun s w => s.reportDown w.1 w.2.1 w.2.2 p) s
  let s := { s with tim := { s.tim with lastSent := Map.erase s.tim.lastSent p,
                                        windows := Map.erase s.tim.windows p,
                                        transitOut := Map.erase s.tim.transitOut p,
                                        markOut := Map.erase s.tim.markOut p } }
  match s.activeSched with
  | none => s
  | some e =>
    let s := ((s.validRecs e).filter (fun r => r.2.out == p)).foldl (fun s r => s.backupSwitch e r.1) s
    ((s.validRecs e).filter (fun r => r.2.bout == p)).foldl (fun s r => s.backupFailed e r.1) s

/-- The window remembered for output `p` (05 R184). -/
def State.rememberWindow (s : State) (p src e k : Nat) : State :=
  let old := (Map.getD s.tim.lastSent p []).filter (fun w => w != (src, e, k))
  { s with tim := { s.tim with lastSent := Map.set s.tim.lastSent p ((old ++ [(src, e, k)]).drop (old.length - 7)) } }

/-- A window mark is to be sent on output `p` from time `t` on (05 R169, R172). -/
def State.markLater (s : State) (p t d : Nat) : State :=
  { s with tim := { s.tim with markOut := Map.set s.tim.markOut p (Map.getD s.tim.markOut p [] ++ [(t, d)]) } }

/-- A transit cell that arrived on `inp` takes output `p` at time `t`, unless another holds it then (05 R172). -/
def State.claimOutput (s : State) (p t : Nat) (c : Cell) (inp : Option Nat) : Option State :=
  let q := Map.getD s.tim.transitOut p []
  if q.any (fun d => decide (t < d.at_ + ns 5 ∧ d.at_ < t + ns 5)) then none
  else some { s with tim := { s.tim with transitOut := Map.set s.tim.transitOut p (q ++ [{ at_ := t, cell := c, inp := inp }]) } }

/-- A link is in the schedule (05 R194): its lowest lane is named by an input row that holds a transit, by an entry, or
by the OUT or BOUT of a valid record, of a PENDING or ACTIVE schedule epoch. -/
def State.inSchedule (s : State) (p : Nat) : Bool :=
  [0, 1].any (fun e => (s.sepoch e == esPENDING || s.sepoch e == esACTIVE) &&
    ((s.validRecs e).any (fun r => r.2.out == p || r.2.bout == p) ||
     (List.range 4096).any (fun k => schedEntry (s.sched e) p k != enNONE) ||
     (List.range 1024).any (fun i => (List.range 4096).any (fun k => schedEntry (s.sched e) i k == p))))

/-- A link is held FULL for the schedule (05 R194). -/
def State.heldLink (s : State) (p : Nat) : Bool := s.tim.holds.contains p

end Sys2Proof.Machine
end

