-- ==== Sys2Proof/Machine/PowerOps.lean ====
section
/-! DEFINITION. The shared operations of the power controller: tile states, wake events, the restart of the PLLs
(17 R479-R509, 01 R25-R28). The commands are in Machine/Power.lean. -/

namespace Sys2Proof.Machine

/-- Tile states (17 R479). -/
def psACTIVE : Nat := 0
def psDOZE : Nat := 1
def psECLIPSE : Nat := 2
def psOFF : Nat := 3

/-- Causes of a wake or a refusal (17 R509). -/
def wcPATTERN : Nat := 0x10
def wcWORD : Nat := 0x11
def wcSCHEDULE : Nat := 0x12
def wcQUEUE : Nat := 0x13
def wcSIDEBAND : Nat := 0x14
def wcLAUNCH : Nat := 0x15
def wcRESOURCE : Nat := 0x16
def wcTHERMAL : Nat := 0x17
def wcSOFTWARE : Nat := 0x18

def State.tileState (s : State) (t : Nat) : Nat := s.fld (F.PWR_TILE_STATUS_STATE t)
def State.tileTarget (s : State) (t : Nat) : Nat := s.fld (F.PWR_TILE_STATUS_TARGET t)
def State.tileChanging (s : State) (t : Nat) : Bool := s.flag (F.PWR_TILE_STATUS_CHANGING t)
def State.tileLatched (s : State) (t : Nat) : Bool := s.flag (F.PWR_TILE_STATUS_LATCHED t)

/-- The tile's resources can be used: it is ACTIVE and no entry has begun (17 R482, R491 QUIESCE). -/
def State.tileActive (s : State) (t : Nat) : Bool :=
  s.tileState t == psACTIVE && !(s.tileChanging t && s.tileTarget t != psACTIVE)

/-- The record of tile `t`. -/
def State.tile (s : State) (t : Nat) : TilePwr := Map.getD s.pwr.tiles t {}
def State.modTile (s : State) (t : Nat) (f : TilePwr → TilePwr) : State :=
  { s with pwr := { s.pwr with tiles := Map.set s.pwr.tiles t (f (s.tile t)) } }

/-- The tile that holds the roles of tile `t`: itself, or its substitute while it is OFF (17 R481). -/
def State.servingTile (s : State) (t : Nat) : Nat :=
  match ((List.range 64).map (fun i => (t + i) % 64)).find? (fun u => s.tileState u != psOFF) with
  | some u => u
  | none => 0

/-- The tile of a lane (01 R13). -/
def tileOf (l : Nat) : Nat := l / 16

/-- ACTION, ABORT and WAIT of step `k` of sequence `q` of a table (17 R490). -/
def seqAction (tab q k : Nat) : Nat := tab / 256 ^ (64 * q + 4 * k) % 256
def seqAbort (tab q k : Nat) : Bool := tab / 256 ^ (64 * q + 4 * k + 1) % 256 / 128 == 1

/-- Actions (17 R491). -/
def acEND : Nat := 0x00
def acQUIESCE : Nat := 0x01
def acLANES : Nat := 0x02
def acDRAIN : Nat := 0x03
def acEVICT : Nat := 0x04
def acCHECK : Nat := 0x05
def acCLAMP : Nat := 0x06
def acGATE : Nat := 0x07
def acRETAIN : Nat := 0x08
def acPOWEROFF : Nat := 0x09
def acPOWERON : Nat := 0x0A
def acRETAINEXIT : Nat := 0x0B
def acRESETLOGIC : Nat := 0x0C
def acUNCLAMP : Nat := 0x0D
def acUNGATE : Nat := 0x0E
def acVERIFY : Nat := 0x0F
def acRESUME : Nat := 0x10
def acPAUSE : Nat := 0x11

/-- An action that an entry to OFF skips (17 R490). -/
def skipped (final a : Nat) : Bool := final == psOFF && (a == acCHECK || a == acRETAIN)

/-- The first step from `k` on that is not skipped; 16 past the end. -/
def nextStep (tab q final : Nat) : Nat → Nat → Nat
  | 0, k => k
  | n + 1, k => if k < 16 && skipped final (seqAction tab q k) then nextStep tab q final n (k + 1) else k

/-- Some step of sequence `q` after step `k`, before its END, is an abort point. -/
def abortAhead (tab q k : Nat) : Bool :=
  let ends := ((List.range 16).find? (fun j => seqAction tab q j == acEND)).getD 16
  (List.range 16).any (fun j => decide (k < j ∧ j < ends) && seqAbort tab q j)

/-- The PLLs are told to start by a wake (17 R508). -/
def State.startPll (s : State) : State :=
  if s.flag F.PWR_STATUS_PLL_RUN then s else { s with pwr := { s.pwr with pllStarting := true } }

/-- Starts a change of tile `t` by sequence `q` toward `target`; `final` is the state that the whole change ends in
(17 R480). -/
def State.startSeq (s : State) (t q target final cause : Nat) : State :=
  let s := s.modTile t (fun p => { p with seqNo := some q, final := final, table := s.pwr.table, wake := none })
  let s := (s.setFld (F.PWR_TILE_STATUS_TARGET t) target).setFld (F.PWR_TILE_STATUS_CHANGING t) 1
  let s := s.setFld (F.PWR_TILE_STATUS_STEP t) 0
  if cause = 0 then s else s.setFld (F.PWR_TILE_STATUS_LAST_CAUSE t) cause

/-- Starts the exit of tile `t` to ACTIVE. -/
def State.startExit (s : State) (t final cause : Nat) : State :=
  (s.startSeq t (if s.tileState t = psDOZE then 2 else 3) psACTIVE final cause).startPll

/-- Latches a request for `r`; a wake carries its cause (17 R485). -/
def State.latchReq (s : State) (t r : Nat) (wake : Option Nat) : State :=
  let s := if s.tileLatched t then s.bump (Reg.PWR_TILE_OVERWRITTEN t) else s.bump (Reg.PWR_TILE_LATCHED t)
  let s := (s.setFld (F.PWR_TILE_STATUS_LATCHED t) 1).setFld (F.PWR_TILE_STATUS_LATCH_STATE t) r
  s.modTile t (fun p => { p with latchWake := wake })

/-- A wake event for tile `t` (17 R484-R486, R494-R497). An OFF tile is never woken (R480). -/
def State.wakeEvent (s : State) (t cause : Nat) : State :=
  let p := s.tile t
  if s.tileChanging t then
    if s.tileTarget t = psACTIVE then s.bump (Reg.PWR_TILE_DROPPED t)
    else if p.wake.isSome || (s.tileLatched t && p.latchWake.isSome) then s.bump (Reg.PWR_TILE_DROPPED t)
    else if abortAhead p.table (p.seqNo.getD 0) (s.fld (F.PWR_TILE_STATUS_STEP t)) then
      s.modTile t (fun p => { p with wake := some cause })
    else s.latchReq t psACTIVE (some cause)
  else if s.tileState t = psOFF then s
  else if s.tileState t = psACTIVE then s.bump (Reg.PWR_TILE_DROPPED t)
  else s.startExit t psACTIVE cause

/-- A wake for the tile that serves work queue `q` (17 R484, R481). -/
def State.wakeQueue (s : State) (q : Nat) : State := s.wakeEvent (s.servingTile (q % 64)) wcQUEUE

/-- A resource wake: an item needs tile `t` (17 R482). An ACTIVE tile needs none. -/
def State.needTile (s : State) (t : Nat) : State :=
  let u := s.servingTile t
  if s.tileActive u then s else s.wakeEvent u wcRESOURCE

/-- The slots of engine `e` of tile `t` that tasks hold (01 R21). -/
def State.slotsUsed (s : State) (t e : Nat) : Nat :=
  (s.pwr.tasks.filter (fun x => x.slot && x.tile == t && x.engine == e)).length

/-- Task `x` takes a slot of its engine, if one is free and its tile takes new tasks (01 R21, 17 R482, R491 QUIESCE). -/
def State.takeEngine (s : State) (x : EngTask) : State :=
  if x.slot || !s.tileActive x.tile || 16 ≤ s.slotsUsed x.tile x.engine then s else
  ({ s with pwr := { s.pwr with tasks := s.pwr.tasks.map (fun y => if y.task = x.task then { y with slot := true } else y) } }
    : State).occur (bkTIL x.tile) 0x12 [0] 1

/-- The tasks that wait in the queue of tile `t` take the slots that are free, in order of arrival (01 R21). -/
def State.dispatch (s : State) (t : Nat) : State :=
  (s.pwr.tasks.filter (fun x => x.tile == t)).foldl State.takeEngine s

/-- A task is raised on tile `t`, or on its substitute (01 R20, 17 R481, R482); which of the tile's engines it is for is
free (log entry 154). -/
def State.taskStart (s : State) (t : Nat) (k : TaskId) : State :=
  if s.pwr.tasks.any (fun x => x.task = k) then s else
  let u := s.servingTile t
  let s := s.needTile t
  let x : EngTask := { tile := u, engine := Config.freeChoice s.draws % 4, task := k }
  let s := s.drawn
  ({ s with pwr := { s.pwr with tasks := s.pwr.tasks ++ [x] } } : State).dispatch u

/-- Task `k` ends: its slot goes to a task that waits. -/
def State.taskEnd (s : State) (k : TaskId) : State :=
  match s.pwr.tasks.find? (fun x => x.task = k) with
  | none => s
  | some x => ({ s with pwr := { s.pwr with tasks := s.pwr.tasks.filter (fun y => y.task ≠ k) } } : State).dispatch x.tile

/-- Task `k` does not wait in a task queue. -/
def State.taskRuns (s : State) (k : TaskId) : Bool := !s.pwr.tasks.any (fun x => x.task = k && !x.slot)

/-- A task of tile `t` that starts and ends within one command: a step of the lock registry, a part of a replay (01 R20). -/
def State.taskOnce (s : State) (t : Nat) : State := s.occur (bkTIL (s.servingTile t)) 0x12 [0] 1

/-- A lane that exits its phase raises its tile to ACTIVE first (01 R27). -/
def State.laneWake (s : State) (l cause : Nat) : State :=
  if s.tileActive (tileOf l) && !s.tileChanging (tileOf l) then s else s.wakeEvent (tileOf l) cause

/-- Lane `l` counts as in NEW (17 R507, 01 R25, R27). R27 says so of the lanes of an OFF tile. That a DOWN link of another
tile counts too, and a TRAINING one does not, is the model's choice (log entry 155). -/
def State.laneNew (s : State) (l : Nat) : Bool :=
  s.tileState (tileOf l) == psOFF || (!s.linkRuns l && s.linkState l != lkTRAINING) ||
    s.fld (F.LNG_LANE_STATUS_PHASE l) == phNEW

/-- The PLLs stop once every tile is in ECLIPSE or OFF and every lane in NEW (17 R507). -/
def State.pllCheck (s : State) : State :=
  if s.flag F.PWR_STATUS_PLL_RUN && !s.pwr.pllStarting &&
      (List.range 64).all (fun t => s.tileState t == psECLIPSE || s.tileState t == psOFF) &&
      (List.range 1024).all (fun l => !s.laneExists l || s.laneNew l) then
    ((s.setFld F.PWR_STATUS_PLL_RUN 0).setFld F.PWR_STATUS_CHIP_ECLIPSE 1).bump Reg.PWR_PLL_STOPS
  else s

end Sys2Proof.Machine
end

