-- ==== Sys2Proof/Machine/AgreeOps.lean ====
section
/-! DEFINITION. The shared operations of agreement and joining: the digest record, DIGEST cells, the decision on a
link, the start-up steps and the join (20 R544, R553-R559). -/

namespace Sys2Proof.Machine

def State.joined (s : State) : Bool := s.flag F.MGT_STATUS_JOINED
def State.profileValid (s : State) : Bool := s.flag F.MGT_PROFILE_CTRL_VALID

/-- The PLAN_ID that the load of a route or a schedule epoch carried. -/
def State.routePlan (s : State) (e : Nat) : Nat :=
  (if e = 0 then s.rd Reg.MGT_PLAN_ROUTE0 else s.rd Reg.MGT_PLAN_ROUTE1).toNat
def State.schedPlan (s : State) (e : Nat) : Nat :=
  (if e = 0 then s.rd Reg.MGT_PLAN_SCHED0 else s.rd Reg.MGT_PLAN_SCHED1).toNat

/-- The ACTIVE route epoch. -/
def State.activeRoute (s : State) : Option Nat :=
  if s.repoch 0 = esACTIVE then some 0 else if s.repoch 1 = esACTIVE then some 1 else none

/-- The chip's digest input, byte `b` in bits [8b+7 : 8b] (20 R553). -/
def State.digestRecord (s : State) : Nat :=
  let pc := F.MGT_PROFILE_CTRL_REPOCH
  let (re, rp, sv, se, sp) :=
    if s.joined then
      let e := s.activeRoute.getD 0
      (e, s.routePlan e, b2n s.activeSched.isSome, s.activeSched.getD 0,
        match s.activeSched with | some f => s.schedPlan f | none => 0)
    else
      (s.fld pc, (s.rd Reg.MGT_PROFILE_RPLAN).toNat, s.fld F.MGT_PROFILE_CTRL_SVALID, s.fld F.MGT_PROFILE_CTRL_SEPOCH,
        if s.flag F.MGT_PROFILE_CTRL_SVALID then (s.rd Reg.MGT_PROFILE_SPLAN).toNat else 0)
  payOf [(0, 2, s.fld F.MGT_LEVEL_PINNED), (2, 1, 1), (3, 1, 1), (4, 1, re + 2 * se + 4 * sv),
    (5, 1, s.fld F.CTL_ROUTE_CTRL_HOP_LIMIT), (8, 4, rp), (12, 4, sp), (16, 8, s.mgt.rootId.toNat)]

/-- The digest of a record: bytes 0-7 of its SHA-256 hash (20 R553). -/
def digestOf (rec : Nat) : Nat := sha256of32 rec % 2 ^ 64

/-- The payload fields of a DIGEST cell (20 R554). -/
def dgRecord (c : Cell) : Nat := c.pb 0 32
def dgDigest (c : Cell) : Nat := c.pb 32 8
def dgTide (c : Cell) : Nat := c.pb 40 8
def dgReply (c : Cell) : Bool := bit c.pay (48 * 8 + 1)

/-- The agreement record of link `p`. -/
def State.agree (s : State) (p : Nat) : Agree := Map.getD s.mgt.agree p {}
def State.modAgree (s : State) (p : Nat) (f : Agree → Agree) : State :=
  { s with mgt := { s.mgt with agree := Map.set s.mgt.agree p (f (s.agree p)) } }

/-- The chip's own record for tide `T`, or its current record for `T` = 0 (20 R555). -/
def State.recordAt (s : State) (T : Nat) : Nat :=
  if T = 0 then s.digestRecord else ((s.mgt.tideRecs.find? (fun r => r.1 == T)).map (·.2)).getD s.digestRecord

/-- What a sent DIGEST leaves at link `p`: the record of the chip's own last four, the zero record, and the wait for the answer
(20 R555). -/
def State.noteSent (s : State) (p T : Nat) (reply : Bool) (r0 : Nat) : State :=
  s.modAgree p (fun a => { a with
    own := ((T, r0) :: a.own.filter (fun o => o.1 != T)).take 4,
    zero := a.zero || (T == 0 && !reply),
    waits := if reply then a.waits else
      if a.waits.any (fun w => w.1 == T) then a.waits else (T, s.t) :: a.waits })

/-- The DIGEST cell of record `r0` for tide `T` (20 R555). -/
def State.digestCell (s : State) (T : Nat) (reply : Bool) (r0 : Nat) : Cell :=
  mgmtCell 0 0 15 0 mgDIGEST (payOf [(0, 32, r0), (32, 8, digestOf r0), (40, 8, T), (48, 1, b2n s.joined + 2 * b2n reply)])

/-- Sends a DIGEST cell with record `r0` for tide `T` on link `p`, or holds it until the link is FULL (20 R555). -/
def State.sendRecord (s : State) (p T : Nat) (reply : Bool) (r0 : Nat) : State :=
  if !s.profileValid then s
  else if !s.linkFull p then s.modAgree p (fun a => { a with due := a.due.filter (· != (T, reply)) ++ [(T, reply)] })
  else
    let cell := s.digestCell T reply r0
    let s := ((s.noteSent p T reply r0).wr64 Reg.MGT_DIGEST (BitVec.ofNat 64 (digestOf r0))).enqueue p { inp := none, cell := cell }
      false
    { s with mgt := { s.mgt with lastRec := some r0 } }

/-- Sends a DIGEST cell with the chip's own record for tide `T`. -/
def State.sendDigest (s : State) (p T : Nat) (reply : Bool) : State := s.sendRecord p T reply (s.recordAt T)

/-- Link `p` has reached FULL: the DIGEST cells that fell due go out (20 R555). -/
def State.flushDigest (s : State) (p : Nat) : State :=
  let due := (s.agree p).due
  let s := s.modAgree p (fun a => { a with due := [] })
  due.foldl (fun s d => s.sendDigest p d.1 d.2) s

/-- Some link of the lane group is in QUARANTINE. -/
def State.groupQuarantined (s : State) (g : Nat) : Bool :=
  (List.range 16).any (fun i => s.linkState (16 * g + i) == lkQUARANTINE)

/-- Link `p` enters QUARANTINE (14 R446, 20 R561): its cells are picked again, but for those of class 6, for which it stays
eligible (04 R128, R131), and a parent on it is lost. -/
def State.quarantine (s : State) (p : Nat) : State :=
  if s.linkState p = lkQUARANTINE then s else
  let s := (s.setLinkState p lkQUARANTINE).raiseStanding (blkLNG (p / 16)) 16 p
  (s.repickIf p (fun h => h.cell.cls != 6)).parentCheck p

/-- Link `p` becomes UP. -/
def State.linkUp (s : State) (p : Nat) : State :=
  let s := s.setLinkState p lkUP
  if s.groupQuarantined (p / 16) then s else s.endStanding (blkLNG (p / 16)) 16

/-- The peer's address, learnt in training, is the chip's own (20 R556). -/
def State.sameAddress (s : State) (p : Nat) : Bool :=
  s.flag (F.LNG_LANE_PEER_VALID p) && s.addressed && s.fld (F.LNG_LANE_PEER_ADDR p) == s.addr

/-- The differing fields of two records, for DIFF of `MGT_AGREE_LAST`. -/
def diffBits (a b : Nat) (same badHash : Bool) : Nat :=
  let ne := fun (lo n : Nat) => a / 256 ^ lo % 256 ^ n != b / 256 ^ lo % 256 ^ n
  let low := fun (x : Nat) => x / 256 ^ 4 % 2
  let mid := fun (x : Nat) => x / 256 ^ 4 % 8 / 2
  b2n (ne 0 2) + 2 * b2n (ne 2 2) + 4 * b2n (low a != low b || ne 8 4) + 8 * b2n (mid a != mid b || ne 12 4) +
    16 * b2n (ne 16 8) + 32 * b2n (ne 5 1) + 64 * b2n same + 128 * b2n badHash

/-- The decision on link `p` with its own record for a tide and the peer's cell for it (20 R556). -/
def State.decideLink (s : State) (p own : Nat) (c : Cell) : State :=
  let badHash := dgDigest c != digestOf (dgRecord c)
  if dgDigest c = digestOf own ∧ badHash = false ∧ s.sameAddress p = false then s.linkUp p
  else
    let s := (s.bump Reg.MGT_DIGEST_DISAGREE).wr Reg.MGT_AGREE_LAST
      (BitVec.ofNat 32 (diffBits own (dgRecord c) (s.sameAddress p) badHash * 65536 + p))
    s.quarantine p

/-- A DIGEST cell with REPLY = 0 is answered, and the link decided (20 R555, R556). -/
def State.answerDigest (s : State) (p : Nat) (c : Cell) : State :=
  if !s.profileValid then s else
  let s := s.sendDigest p (dgTide c) true
  s.decideLink p (s.recordAt (dgTide c)) c

/-- A DIGEST cell from the peer of link `p` (20 R555, R556). -/
def State.takeDigest (s : State) (p : Nat) (c : Cell) : State :=
  if dgReply c then
    let own := (s.agree p).own.find? (fun o => o.1 == dgTide c)
    let s := s.modAgree p (fun a => { a with waits := a.waits.filter (fun w => dgTide c < w.1) })
    match own with
    | none => s
    | some o => s.decideLink p o.2 c
  else if s.t < dgTide c then s.modAgree p (fun a => { a with kept := a.kept ++ [c] })
  else s.answerDigest p c

/-- The sends of R555 at a tide `T`, and the answers to cells kept for it. -/
def State.tideDigest (s : State) (T : Nat) : State :=
  let r0 := s.digestRecord
  let changed := s.mgt.lastRec != some r0
  let s := { s with mgt := { s.mgt with tideRecs := ((T, r0) :: s.mgt.tideRecs).take 4 } }
  s.linkIds.foldl (fun s p =>
    let s := if s.linkState p == lkQUARANTINE || changed then s.sendDigest p T false else s
    let ks := (s.agree p).kept
    let s := s.modAgree p (fun a => { a with kept := a.kept.filter (fun c => decide (s.t < dgTide c)) })
    (ks.filter (fun c => decide (dgTide c ≤ s.t))).foldl (fun s c => s.answerDigest p c) s) s

/-- Link `p` has come from TRAINING into QUARANTINE: the exchange with TIDE = 0 (20 R555). -/
def State.digestAtUp (s : State) (p : Nat) : State :=
  (s.modAgree p (fun _ => {})).sendDigest p 0 false

/-- The first condition of R558 that does not hold yet, 0 for none. -/
def State.joinWait (s : State) : Nat :=
  let re := s.fld F.MGT_PROFILE_CTRL_REPOCH
  let se := s.fld F.MGT_PROFILE_CTRL_SEPOCH
  if !s.profileValid then 1
  else if s.timeState != tsLOCKED then 2
  else if !(s.repoch re == esACTIVE && s.routePlan re == (s.rd Reg.MGT_PROFILE_RPLAN).toNat) then 3
  else if s.flag F.MGT_PROFILE_CTRL_SVALID &&
      !(s.sepoch se == esACTIVE && s.schedPlan se == (s.rd Reg.MGT_PROFILE_SPLAN).toNat) then 4
  else if s.flag F.CTL_JRNL_CTRL_REPLAY || 1 < s.fld F.CTL_JRNL_CTRL_RESULT then 5
  else 0

/-- Start-up step `k` is complete, for the steps 4-7 (20 R544). -/
def State.stepComplete (s : State) (k : Nat) : Bool :=
  if k = 4 then (List.range 1024).all (fun l => !(s.laneExists l && s.flag (F.LNG_LANE_CTRL_ENABLE l) &&
    s.linkState l == lkTRAINING && (s.lane l).fails == 0))
  else if k = 5 then s.profileValid && s.linkIds.all (fun p => s.linkState p == lkUP || (s.agree p).zero)
  else if k = 6 then s.timeState == tsLOCKED
  else if k = 7 then !(decide (1 ≤ s.joinWait ∧ s.joinWait ≤ 4))
  else false

/-- Start-up steps 4-7 complete in order; `n` bounds how many. -/
def State.stepsOn (s : State) : Nat → State
  | 0 => s
  | n + 1 =>
    let k := s.fld F.MGT_STATUS_STEP
    if 4 ≤ k && s.stepComplete k then (s.setFld F.MGT_STATUS_STEP (k + 1)).stepsOn n else s

/-- The start-up sequence goes as far as it can, and the chip joins once every condition of R558 holds. With a sticky FATAL
held it takes no further step (18 R522). -/
def State.progress (s : State) : State :=
  if s.joined || s.flag F.MGT_FLT_PIN_STICKY then s else
  let s := s.stepsOn 4
  if s.joinWait = 0 then
    (s.setFld F.MGT_STATUS_STEP 8).setFlag F.MGT_STATUS_JOINED true
  else s

/-- A switch to route epoch `e` at tide `T` is taken (03 R101, 04 R141). -/
def State.switchRoute (s : State) (e T : Nat) : State :=
  { s.setRepoch e esPENDING with rt := { s.rt with switchAt := T } }

/-- A switch to schedule epoch `e` at tide `T` is taken. -/
def State.switchSched (s : State) (e T : Nat) : State :=
  { s.setSepoch e esPENDING with tim := { s.tim with schedSwitchAt := T } }

end Sys2Proof.Machine
end

