-- ==== Sys2Proof/Machine/LinkEvents.lean ====
section
/-! DEFINITION. The shared operations of lanes and links: training, the exit to FULL, planned phase changes, the loss
of a link, and a write of `LNG_LANE_CTRL` (14 R433-R449). -/

namespace Sys2Proof.Machine

/-- VALID of entry `n` of the equaliser preset table (14 R433). -/
def eqValidAt (tab n : Nat) : Bool := tab / 256 ^ (4 * n) % 256 / 128 == 1

/-- A 31-bit seed that is not zero, drawn from on-die entropy (14 R424). -/
def State.drawSeed (s : State) : Word := BitVec.ofNat 32 ((Config.freeSeed s.draws).toNat % (2 ^ 31 - 1) + 1)

/-- The receiver's status after a loss: `fails` consecutive failed attempts are kept. -/
def State.trainLane (s : State) (l : Nat) : State :=
  let seed := s.drawSeed
  let s := (s.drawn.modLane l (fun k => { k with
      seedTx := seed, seedRx := 0x7FFFFFFF#32, trainRx := [], ready := false, trainTx := 0, debtTx := 0, debtRx := 0 })).setFld
    (F.LNG_LANE_STATUS_LINK l) lkTRAINING
  let s := (s.setFld (F.LNG_LANE_STATUS_WIDTH l) 0).setFld (F.LNG_LANE_STATUS_OVERRUN l) 0
  let s := s.setFld (F.LNG_LANE_CTRL_RETRAIN l) 0
  s.modLink l (fun k => { downLeft := k.downLeft })

/-- Lane `l` may train: it is enabled and exists, the part is not halted and has reached step 4 of its start-up (20 R544),
and its tile is not OFF (17 R479). -/
def State.mayTrain (s : State) (l : Nat) : Bool :=
  s.flag (F.LNG_LANE_CTRL_ENABLE l) && s.laneExists l && !s.halted && s.tileState (tileOf l) != psOFF &&
    decide (4 ≤ s.fld F.MGT_STATUS_STEP)

/-- Training starts on the lanes listed (14 R445); a lane that may not train stays DOWN, and one whose tile is not ACTIVE
waits for it (01 R27). -/
def State.startTraining (s : State) (ls : List Nat) : State :=
  ls.foldl (fun s l =>
    if s.mayTrain l && s.tileActive (tileOf l) then (s.trainLane l).modLane l (fun k => { k with due := false })
    else (s.setFld (F.LNG_LANE_STATUS_LINK l) lkDOWN).modLane l (fun k => { k with due := s.mayTrain l })) s

/-- Training is asked for on the lanes listed: a tile that is not ACTIVE is raised first (01 R27; log entry 156). -/
def State.askTraining (s : State) (ls : List Nat) : State :=
  ls.foldl (fun s l => if s.mayTrain l && !s.tileActive (tileOf l) then s.wakeEvent (tileOf l) wcPATTERN else s)
    (s.startTraining ls)

/-- What leaving FULL by a loss takes with it (04 R131, 05 R161, R184): the retry buffer is discarded, queued cells are
picked again, the transit state of the link goes, a parent on it is lost. -/
def State.leaveLink (s : State) (p : Nat) : State :=
  let s := (s.bumpBy Reg.CTL_DROP_LINK (s.link p).retry.length).setLinkState p lkDOWN
  let s := (s.modLink p (fun _ => {})).modAgree p (fun _ => {})
  let s := ((s.repick p).transitLinkLost p).parentCheck p
  if s.groupQuarantined (p / 16) then s else s.endStanding (blkLNG (p / 16)) 16

/-- An end declares link `p` lost (14 R448): LINK_DOWN, the counts and the fault, and training again. -/
def State.linkLost (s : State) (p : Nat) : State :=
  if !s.linkRuns p then s else
  let ls := s.linkLanes p
  let s := (s.leaveLink p).bump (Reg.LNG_LINK_LOST p)
  let s := s.raise (blkLNG (p / 16)) (p % 16) p
  ((s.sendLinkDown p).askTraining ls).pllCheck

/-- Link `p` goes down by this chip's own doing: ENABLE = 0, RETRAIN or its tile's OFF. It is not counted as lost
(14 R448, 17 R480). -/
def State.linkOffHere (s : State) (p : Nat) : State :=
  (if s.linkRuns p then (s.leaveLink p).sendLinkDown p else s.setLinkState p lkDOWN).pllCheck

/-- ACK with this end's NEXT waits on link `p` (14 R437). -/
def State.sayAck (s : State) (p : Nat) : State := s.say p (mkWord wACK ((s.link p).rxNext % 4096))

/-- CREDIT for every pool that has returned cells waits on link `p` (14 R439). -/
def State.sayCredits (s : State) (p : Nat) : State :=
  (s.link p).back.foldl (fun s b => s.say p (mkWord wCREDIT (b.1 * 8192 + b.2))) s

/-- A request for phase `n` on a FULL link: PHASE waits (14 R442). -/
def State.askPhase (s : State) (p n : Nat) : State :=
  (s.modLink p (fun k => { k with phaseAsk := some n })).say p (mkWord wPHASE (n * 16384))

/-- Link `p` is FULL again: what waited for it goes on (14 R443, 20 R555), and it has had no mark yet (05 R170). -/
def State.reachFull (s : State) (p : Nat) : State :=
  let s : State := { s with tim := { s.tim with windows := Map.erase s.tim.windows p } }
  let s := (s.setLinkPhase p phFULL).modLink p (fun k => { k with exitFrom := none, gotAck := false, gotCredit := false })
  let s := s.flushDigest p
  match (s.link p).phaseAsk with
  | some n => s.askPhase p n
  | none => s

/-- The exit of link `p` is complete once the first ACK and CREDIT have come and its tile is ACTIVE (14 R443, 17 R479,
01 R27). -/
def State.exitCheck (s : State) (p : Nat) : State :=
  let k := s.link p
  if k.exitFrom.isSome && k.gotAck && k.gotCredit && s.tileActive (tileOf p) then s.reachFull p else s

/-- The exit of link `p` to FULL starts here, with the wake of its tile (14 R443, 01 R27). -/
def State.startExitOf (s : State) (p cause : Nat) : State :=
  let ph := s.fld (F.LNG_LANE_STATUS_PHASE p)
  if !s.linkRuns p || ph == phFULL || ph == phCHANGING then s else
  let s := s.laneWake p cause
  if s.tileState (tileOf p) = psOFF then s else
  let s := (s.setLinkPhase p phCHANGING).modLink p (fun k => { k with
    exitFrom := some ph, gotAck := false, gotCredit := false })
  (s.sayAck p).sayCredits p

/-- The schedule keeps link `p` out of phase `n` (05 R194): FULL while it is held, never NEW while it is in it. -/
def State.holdsPhase (s : State) (p n : Nat) : Bool := s.heldLink p || (n == phNEW && s.inSchedule p)

/-- A planned change of phase takes effect once the retry buffer is empty and no PHASE or ACK word waits: the answer has gone out
(14 R441, R442; log entry 91). One that the schedule has come to forbid is given up (05 R194; log entry 157). -/
def State.applyPhase (s : State) (p : Nat) : State :=
  match (s.link p).phaseDue with
  | none => s
  | some n =>
    if s.holdsPhase p n then s.modLink p (fun k => { k with phaseDue := none })
    else if !(s.link p).retry.isEmpty || (s.link p).words.any (fun w => wordKind w == wPHASE || wordKind w == wACK) then s else
    let s := (s.modLink p (fun k => { k with phaseDue := none, words := [] })).setLinkPhase p n
    if n = phFULL then s else ((s.repick p).parentCheck p).pllCheck

/-- Both ends have agreed on phase `n`: no new cell is sent, and queued cells are picked again (14 R441, R442). -/
def State.agreePhase (s : State) (p n : Nat) : State :=
  if n = phFULL ∨ s.holdsPhase p n = true then s.modLink p (fun k => { k with phaseAsk := none }) else
  let s := s.modLink p (fun k => { k with phaseAsk := none, phaseDue := some n })
  (s.repick p).applyPhase p

/-- The requested phase of the link of lane `l`, from a register or from the power controller (14 R442). A link held
by R194 stays FULL; a link in HALF or NEW goes to FULL first. -/
def State.requestPhase (s : State) (l n cause : Nat) : State :=
  let p := s.linkOf l
  let ph := s.fld (F.LNG_LANE_STATUS_PHASE p)
  if !s.linkRuns p || ph == n then s
  else if n = phFULL then s.startExitOf p cause
  else if s.holdsPhase p n then s
  else if ph = phFULL then s.askPhase p n
  else (s.modLink p (fun k => { k with phaseAsk := some n })).startExitOf p cause

/-- A PHASE word (14 R442). -/
def State.takePhase (s : State) (p : Nat) (d : BitVec 16) : State :=
  let n := bits d 15 14
  if n = 3 then s
  else if bit d 12 then
    (s.modLink p (fun k => { k with phaseAsk := none })).bump (Reg.LNG_PHASE_REFUSED p)
  else if bit d 13 then s.agreePhase p n
  else if s.holdsPhase p n || s.tileChanging (tileOf p) then s.say p (mkWord wPHASE (n * 16384 + 0x3000))
  else
    let m := match (s.link p).phaseAsk with
      | some a => min a n
      | none => n
    (s.say p (mkWord wPHASE (m * 16384 + 0x2000))).agreePhase p m

/-- The proposal of this end for the link that lane `l` is to belong to: its width (14 R435, R449). -/
def State.ownWidth (s : State) (l : Nat) : Nat :=
  if s.fld (F.LNG_LANE_CTRL_WIDTH (l - l % 4)) = 2 then 4
  else if s.fld (F.LNG_LANE_CTRL_WIDTH (l - l % 2)) = 1 then 2 else 1

/-- A TRAIN value that lane `l` has received. -/
def State.trainVal (s : State) (l i : Nat) : Option Nat := Map.get? (s.lane l).trainRx i

/-- Values 0-5 have all arrived. -/
def State.trainHeard (s : State) (l : Nat) : Bool := (List.range 6).all (fun i => (s.trainVal l i).isSome)

/-- Both ends of lane `l` report READY. -/
def State.trainDone (s : State) (l : Nat) : Bool := (s.lane l).ready && (s.trainVal l 6).isSome

/-- The width that the link of lane `l` takes: the smaller of the two proposals (14 R435). -/
def State.trainWidth (s : State) (l : Nat) : Nat :=
  min (s.ownWidth l) (widthOf ((s.trainVal l 0).getD 0 / 1024))

/-- A training attempt fails (14 R447): it is counted and repeated 10 ms later. Ten in a row raise TRAIN_FAIL. -/
def State.trainFail (s : State) (l : Nat) : State :=
  let s := ((s.bump (Reg.LNG_TRAIN_FAIL l)).setFld (F.LNG_LANE_STATUS_LINK l) lkDOWN).pllCheck
  let s := s.modLane l (fun k => { k with fails := k.fails + 1 })
  if (s.lane l).fails = 10 then s.raiseStanding (blkLNG (l / 16)) 17 l else s

/-- What training leaves in the registers of lane `l` (14 R434, R445, R449). -/
def State.trainRegs (s : State) (l w : Nat) : State :=
  let v := fun i => (s.trainVal l i).getD 0
  let s := (s.setFld (F.LNG_LANE_STATUS_PEER_LANE l) (v 0 % 1024)).setFld (F.LNG_LANE_STATUS_WIDTH l)
    (if w = 4 then 2 else if w = 2 then 1 else 0)
  let s := (s.setFld (F.LNG_LANE_STATUS_EQ_USED l) (s.lane l).eq).wr (Reg.LNG_LANE_PEER l)
    (BitVec.ofNat 32 (v 5 / 32 % 2 * 2 ^ 31 + v 5 % 32 * 4096 + v 4 % 4096))
  s.modLane l (fun k => { k with seedRx := BitVec.ofNat 32 (v 1 + v 2 % 4096 * 4096 + v 3 % 128 * 2 ^ 24), fails := 0 })

/-- The part of the shared pool that link `p` has been granted for pool `h` (14 R439). -/
def State.sharedOf (s : State) (p h : Nat) : Nat := Map.getD (s.link p).grant h 0 - (if h = 7 then 32 else 48)

/-- Parts of the shared pool for a list of pools, each with the most it may have, `free` cells in all: digits of `d`. -/
def sharedParts : List Nat → Nat → Nat → List Nat
  | [], _, _ => []
  | m :: ms, d, free => let x := d % (1 + min free m); x :: sharedParts ms (d / 8192) (free - x)

/-- The credits that the receiver grants at link up: 48 of each level reserve and 32 of management, the 16-lane share of the
reserves, with parts of the shared pool (14 R439): at most `free` cells in all, and `room h` of level `h`; a cell of class 6
may be of any level. Which parts is free (`d`, log entry 14). -/
def firstCredits (d free : Nat) (room : Nat → Nat) : List (Nat × Nat) :=
  let xs := sharedParts ((List.range 7).map (fun h => min (room h) (8191 - 48))) d free
  let most := (List.range 7).foldl (fun m h => min m (room h - xs[h]?.getD 0)) (8191 - 32)
  let x := sharedParts [most] (d / 8192 ^ 7) (free - xs.sum)
  (List.range 7).map (fun h => (h, 48 + xs[h]?.getD 0)) ++ [(7, 32 + x.sum)]

/-- The first credits of link `p`: the shared pool of its tile holds 19,302 cells, at most 8,192 of a level (04 R135). -/
def State.grantAtUp (s : State) (p d : Nat) : List (Nat × Nat) :=
  let ps := s.linkIds.filter (fun q => tileOf q == tileOf p && q != p)
  let used := fun h => (ps.map (fun q => s.sharedOf q h)).sum
  firstCredits d (19302 - ((List.range 8).map used).sum) (fun h => 8192 - used h - used 7)

/-- Link `p` of width `w` enters QUARANTINE from TRAINING (14 R445, R446, 20 R555). -/
def State.trained (s : State) (p w : Nat) : State :=
  let ls := (List.range w).map (p + ·)
  let s := ls.foldl (fun s l => s.trainRegs l w) s
  let g := s.grantAtUp p (Config.freeChoice s.draws)
  let s := s.drawn.modLink p (fun _ => { back := g, grant := g })
  let s := (s.setLinkState p lkQUARANTINE).setLinkPhase p phFULL
  let s := if (List.range 16).any (fun k => decide (10 ≤ (s.lane (p / 16 * 16 + k)).fails)) then s else s.endStanding (blkLNG (p / 16)) 17
  let s := s.raiseStanding (blkLNG (p / 16)) 16 p
  (((s.sayAck p).sayCredits p).digestAtUp p).progress

/-- Once every lane of the link that lane `l` is to belong to is done, the link comes up, or fails if its lanes do not
meet lanes of one link at the peer in the same order (14 R435). -/
def State.trainCheck (s : State) (l : Nat) : State :=
  if !s.trainDone l || s.tileState (tileOf l) != psACTIVE then s else
  let w := s.trainWidth l
  let p := l - l % w
  let ls := (List.range w).map (p + ·)
  if !ls.all (fun k => s.linkState k == lkTRAINING && s.trainDone k) then s else
  let q := (s.trainVal p 0).getD 0 % 1024
  if q % w = 0 && (List.range w).all (fun i => (s.trainVal (p + i) 0).getD 0 % 1024 == q + i) then s.trained p w
  else ls.foldl (fun s k => s.trainFail k) s

/-- A TRAIN word on lane `l` (14 R445); with the first of an attempt, `eq` is the preset that step 2 chose, by R434. -/
def State.takeTrain (s : State) (l : Nat) (d : BitVec 16) (eq : Nat) (eqValid : Bool) : State :=
  if s.linkState l != lkTRAINING || 6 < bits d 15 12 then s else
  let chosen := !(s.lane l).trainRx.isEmpty
  let fixed := s.flag (F.LNG_LANE_CTRL_EQ_FIXED l)
  let e := if chosen then (s.lane l).eq else if fixed then s.fld (F.LNG_LANE_CTRL_EQ_PRESET l) else eq
  if !chosen && !(eqValidAt s.lnk.eqTable e && (fixed || eqValid)) then s.trainFail l else
  let s := s.modLane l (fun k => { k with eq := e, trainRx := Map.set k.trainRx (bits d 15 12) (bits d 11 0) })
  let s := if s.trainHeard l then s.modLane l (fun k => { k with ready := true }) else s
  s.trainCheck l

/-- The TRAIN word that lane `l` sends next: INDEX 0-5, then READY once every value of the peer has arrived
(14 R445). -/
def State.trainWord (s : State) (l : Nat) : LinkWord :=
  let i := (s.lane l).trainTx
  let seed := (s.lane l).seedTx.toNat
  let w := s.ownWidth l
  let v := if i = 0 then l + 1024 * (if w = 4 then 2 else if w = 2 then 1 else 0)
    else if i = 1 then seed % 4096
    else if i = 2 then seed / 4096 % 4096
    else if i = 3 then seed / 2 ^ 24 % 128
    else if i = 4 then s.addr % 4096
    else if i = 5 then s.addr / 4096 % 32 + 32 * b2n s.addressed
    else 0
  mkWord wTRAIN (i * 4096 + v)

/-- The INDEX after `i`. -/
def State.nextTrain (s : State) (l i : Nat) : Nat := if i < 5 then i + 1 else if i = 5 && (s.lane l).ready then 6 else 0

/-- Whether a width code may be written for lane `l` (14, LNG_LANE_CTRL.WIDTH). -/
def widthOk (l n : Nat) : Bool := n == 0 || (n == 1 && l % 2 == 0) || (n == 2 && l % 4 == 0)

/-- A write of `w` to `LNG_LANE_CTRL` of lane `l` (14 R449, its register table). On a link of width 2 or 4, WIDTH,
PHASE_REQ and RETRAIN of its other lanes are stored and not acted on. -/
def State.laneCtrlWrite (s : State) (l : Nat) (w : Word) : State :=
  if !s.laneExists l then s else
  let p := s.linkOf l
  let was := s.flag (F.LNG_LANE_CTRL_ENABLE l)
  let oldPh := s.fld (F.LNG_LANE_CTRL_PHASE_REQ l)
  let s := (s.setFld (F.LNG_LANE_CTRL_ENABLE l) (b2n (bit w 31))).setFld (F.LNG_LANE_CTRL_EQ_FIXED l) (b2n (bit w 27))
  let s := s.setFld (F.LNG_LANE_CTRL_EQ_PRESET l) (bits w 26 22)
  let s := if widthOk l (bits w 29 28) then s.setFld (F.LNG_LANE_CTRL_WIDTH l) (bits w 29 28) else s
  let s := if bits w 21 20 = 3 then s else s.setFld (F.LNG_LANE_CTRL_PHASE_REQ l) (bits w 21 20)
  let s := if bit w 30 then s.setFlag (F.LNG_LANE_CTRL_RETRAIN l) true else s
  if !bit w 31 then
    if was then ((s.linkLanes p).filter (· != l)).foldl (fun s k => s.askTraining [k]) (s.linkOffHere p) else s
  else if !was then s.askTraining [l]
  else if l != p then s
  else if bit w 30 then
    let ls := s.linkLanes p
    (s.linkOffHere p).askTraining ls
  else if s.fld (F.LNG_LANE_CTRL_PHASE_REQ l) != oldPh then
    s.requestPhase l (s.fld (F.LNG_LANE_CTRL_PHASE_REQ l)) wcPATTERN
  else s

end Sys2Proof.Machine
end

