-- ==== Sys2Proof/Machine/ReceiveOps.lean ====
section
/-! DEFINITION. What every command that takes a delivered cell does first: the checks at the destination (04 R113,
R121, R122), and the management logic's own (R600). -/

namespace Sys2Proof.Machine

/-- A cell that R113 discards: FNC on a control cell, an unassigned TYP, or MGMT outside class 6. -/
def badFormat (c : Cell) : Bool :=
  (isCtlTyp c.typ && c.fnc) || !(isMsgTyp c.typ || isCtlTyp c.typ) || (c.typ == tyMGMT && c.cls != 6)

/-- A link-local cell that is not a MGMT cell: the management logic takes it (04 R123), and has no use for it; that it is
counted with the cells of an unassigned kind is the model's choice (log entry 158). -/
def badLocal (c : Cell) : Bool := c.linkLocal && c.typ != tyMGMT

/-- A delivered cell: it leaves the cell store, is checked, and then has the effect `k` (04 R113, R121, R122). -/
def State.receive (s : State) (c : Cell) (k : State → State) : State :=
  if !c.linkLocal && s.addressed && c.dst != s.addr then s else
  let s := s.arrive c
  if !c.linkLocal && !s.addressed then s.bump Reg.CTL_DROP_NOROUTE
  else if !c.crcOk then s.bump Reg.CTL_CRC_DROP
  else if badFormat c || badLocal c then s.bump Reg.CTL_DROP_FORMAT
  else k s

/-- A MGMT cell of an unassigned kind, or a DRAIN of a level above 6 (04 R600). -/
def badMgmt (c : Cell) : Bool :=
  let k := c.pb 63 1
  !(k == mgDIGEST || k == mgDRAIN || k == mgTRANSITDOWN) || (k == mgDRAIN && 6 < c.pb 1 1 % 16)

/-- A MGMT cell of kind `kind` reaches the management logic, with the effect `k`. What a cell means whose form goes against the
Link-local column of R600 the spec does not say: the commands act on it as log entry 158 says. -/
def State.receiveMgmt (s : State) (c : Cell) (kind : Nat) (k : State → State) : State :=
  if c.typ ≠ tyMGMT then s else
  s.receive c (fun s =>
    if badMgmt c then s.bump Reg.CTL_DROP_FORMAT
    else if c.pb 63 1 = kind then k s else s)

end Sys2Proof.Machine
end

