-- ==== Sys2Proof/Machine/HostOps.lean ====
section
/-! DEFINITION. What the block does toward its hosts: the function that serves an instance, the writes it issues or
keeps, and the journals (06 R223-R232, 12 R387-R389, 15 R455-R461). -/

namespace Sys2Proof.Machine

/-- The record of instance `i` beside its registers. -/
def State.inst (s : State) (i : Nat) : Inst := Map.getD s.obj.insts i {}
def State.modInst (s : State) (i : Nat) (f : Inst → Inst) : State :=
  { s with obj := { s.obj with insts := Map.set s.obj.insts i (f (s.inst i)) } }

/-- The map of instance `i`: valid, port and function (12 R387). -/
def State.mapped (s : State) (i : Nat) : Bool := s.flag (F.CTL_INST_MAP_VALID i)
def State.portOf (s : State) (i : Nat) : Nat := s.fld (F.CTL_INST_MAP_PORT i)
def State.fnOf (s : State) (i : Nat) : Nat := s.fld (F.CTL_INST_MAP_FUNC i)

/-- The generation of instance `i` (12 R390). -/
def State.gen (s : State) (i : Nat) : Nat := s.fld (F.CTL_INST_STATE_GEN i)

/-- The control owner's port (03 R75). -/
def State.owner (s : State) : Nat := s.fld F.CTL_OWNER_PORT

/-- The key of a function. -/
def fnKey (p f : Nat) : Nat := 32 * p + f

/-- What the host set in function `f` of port `p`. -/
def State.fnCfg (s : State) (p f : Nat) : FnCfg := Map.getD s.hpt.fns (fnKey p f) {}

/-- The link of port `p` is up. -/
def State.portUp (s : State) (p : Nat) : Bool :=
  s.fld (F.HPT_STATUS_MODE p) == 1 || s.fld (F.HPT_STATUS_MODE p) == 2

/-- The port runs CXL.cache (15 R451). -/
def State.portCache (s : State) (p : Nat) : Bool := s.portUp p && s.flag (F.HPT_STATUS_CACHE p)

/-- Function `f` of port `p` may issue requests (12 R389, 15 R461). -/
def State.fnUp (s : State) (p f : Nat) : Bool := s.portUp p && (s.fnCfg p f).bme

/-- A write on port `p` stands unacknowledged, and the queues of the port are suspended (18 R525 WRITE_STALL). -/
def State.stalled (s : State) (p : Nat) : Bool := s.flt.standing.contains (fltKey (blkHPT p) 1)

/-- The admin queue is served by its port (15 R461). -/
def State.ownerServed (s : State) : Bool := s.fnUp s.owner 0 && !s.stalled s.owner

/-- The queues of instance `i` are served: its function may issue requests, no write of its port is stalled, and no reset
of it is in progress. -/
def State.served (s : State) (i : Nat) : Bool :=
  s.mapped i && !s.stalled (s.portOf i) && s.fnUp (s.portOf i) (s.fnOf i) && !s.flag (F.CTL_INST_STATE_RESETTING i)

/-- The port and function of a request. -/
def HostOut.key : HostOut → Nat
  | .write p f _ _ _ => fnKey p f
  | .flagCas p f _ _ _ _ => fnKey p f
  | .wordOp p f _ _ _ => fnKey p f

/-- The port of a request. -/
def HostOut.port (o : HostOut) : Nat := o.key / 32

/-- A request is issued, and counted: a write, or an AtomicOp (19 R534). -/
def State.countIssued (s : State) (o : HostOut) : State :=
  match o with
  | .write p _ _ len _ => (s.occur (bkHPT p) 0x11 [0] 1).occur (bkHPT p) 0x13 [0] (ceilDiv len 64)
  | .flagCas p _ _ _ _ coherent => if coherent then s else s.occur (bkHPT p) 0x14 [0] 1
  | .wordOp p _ _ coherent _ => if coherent then s else s.occur (bkHPT p) 0x14 [0] 1

/-- The request is one over CXL.cache, which needs a line (15 R457). -/
def HostOut.coherent : HostOut → Bool
  | .write .. => false
  | .flagCas _ _ _ _ _ c => c
  | .wordOp _ _ _ c _ => c

/-- The request as it goes out on a port that runs CXL.cache or not (09 R308, 11 R375). -/
def HostOut.overCache (o : HostOut) (cache : Bool) : HostOut :=
  match o with
  | .write .. => o
  | .flagCas p f a e n c => .flagCas p f a e n (c && cache)
  | .wordOp p f a c act => .wordOp p f a (c && cache) act

/-- A flag update, or with `word` an operation on a host word, at `addr` by function `f` of port `p`. -/
def HostOut.isAt (p f addr : Nat) (word : Bool) : HostOut → Bool
  | .flagCas q g a _ _ _ => !word && q == p && g == f && a == addr
  | .wordOp q g a _ _ => word && q == p && g == f && a == addr
  | .write .. => false

/-- A request goes out. One over CXL.cache takes a line, of which a port has 256; where none is free it waits (15 R457). -/
def State.sendOut (s : State) (o : HostOut) : State :=
  if o.coherent && decide (256 ≤ (s.hpt.lines.filter (fun x => x.port == o.port)).length) then
    { s with hpt := { s.hpt with lineWait := s.hpt.lineWait ++ [o] } }
  else
    ({ s with hpt := { s.hpt with issued := s.hpt.issued ++ [o],
                                  lines := s.hpt.lines ++ [o].filter HostOut.coherent } } : State).countIssued o

/-- A request goes out, or is kept in order until its function may issue again (06 R227, 15 R461). A halted chip issues
nothing (18 R523). -/
def State.issue (s : State) (o : HostOut) : State :=
  if s.halted then s
  else if s.fnUp (o.key / 32) (o.key % 32) && !(s.hpt.again ++ s.hpt.kept).any (fun x => x.key == o.key) then s.sendOut o
  else { s with hpt := { s.hpt with kept := s.hpt.kept ++ [o] } }

/-- The operation over CXL.cache at `addr` is over: its line is free for the first that waits for one (15 R457). -/
def State.freeLine (s : State) (p f addr : Nat) (word : Bool) : State :=
  match s.hpt.lines.find? (HostOut.isAt p f addr word) with
  | none => s
  | some o =>
    let s : State := { s with hpt := { s.hpt with lines := dropFirst o s.hpt.lines } }
    match s.hpt.lineWait.find? (fun w => w.port == p) with
    | none => s
    | some w => ({ s with hpt := { s.hpt with lineWait := dropFirst w s.hpt.lineWait } } : State).issue w

/-- A flag update, or with `word` an operation on a host word, at `addr` by function `f` of port `p` has not gone out: it is kept,
or it waits for a line (15 R457, R461). -/
def State.keptAt (s : State) (p f addr : Nat) (word : Bool) : Bool :=
  (s.hpt.again ++ s.hpt.kept ++ s.hpt.lineWait).any (HostOut.isAt p f addr word)

/-- An AtomicOp of function `f` of port `p` was not issued, or the host answered Unsupported Request (15 R456, 18 R525). -/
def State.atomicUr (s : State) (p f : Nat) : State := (s.bump (Reg.HPT_ATOMIC_UR p)).raise (blkHPT p) 5 f

/-- A write for instance `i` at a bus address (12 R387). -/
def State.instWrite (s : State) (i addr len data : Nat) : State :=
  s.issue (.write (s.portOf i) (s.fnOf i) addr len (data % 256 ^ len))

/-- A write that is work of instance `i`: a placement, a part of a completion, the return of an entry (12 R394). -/
def State.workWrite (s : State) (i count addr len data : Nat) : State :=
  let n := s.hpt.kept.length
  let s := s.instWrite i addr len data
  match (s.hpt.kept.drop n).head? with
  | some o => { s with hpt := { s.hpt with results := s.hpt.results ++ [{ inst := i, count := count, out := o }] } }
  | none => s

/-- A write through the control owner's physical function: the chip journal, the admin rings, the dump ring. -/
def State.chipWrite (s : State) (addr len data : Nat) : State :=
  s.issue (.write s.owner 0 addr len (data % 256 ^ len))

/-- Function `key` may issue again: what is to be issued again and then what was kept for it goes out, in its
order (15 R461 step 4). -/
def State.reissue (s : State) (key : Nat) : State :=
  let out := ((s.hpt.again ++ s.hpt.kept).filter (fun o => o.key == key)).map (fun o => o.overCache (s.portCache (key / 32)))
  out.foldl State.sendOut { s with hpt := { s.hpt with again := s.hpt.again.filter (fun o => o.key != key),
                                                       kept := s.hpt.kept.filter (fun o => o.key != key),
                                                       results := s.hpt.results.filter (fun w => w.out.key != key),
                                                       uses := s.hpt.uses.filter (fun u => u.out.key != key) } }

/-- Journals are written (06 R224). -/
def State.journals (s : State) : Bool := s.flag F.CTL_JRNL_CTRL_ENABLE

/-- A write group of the journal is issued (06 R226, 19 R534). -/
def State.countGroup (s : State) : State := if s.journals then s.occurCtl 0x16 else s

/-- A write into instance `i`'s journal area (06 R225). -/
def State.jrnlInst (s : State) (i off len data : Nat) : State :=
  if s.journals then s.instWrite i (s.fld (F.CTL_JRNL_INST_BASE i) * 4096 + off) len data else s

/-- A write into the chip area (06 R232). -/
def State.jrnlChip (s : State) (off len data : Nat) : State :=
  if s.journals then s.chipWrite (s.fld F.CTL_JRNL_CHIP_BASE * 4096 + off) len data else s

/-- The number of queue numbers and of descriptor slots of an instance (02 R35, 12 R385). -/
def State.queueShare (s : State) : Nat := 65536 / max 1 s.nInst
def State.slotShare (s : State) : Nat := 1048576 / max 1 s.nInst

/-- The instance that owns queue number `q` (02 R35). -/
def State.instOfQueue (s : State) (q : Nat) : Nat := q / s.queueShare

/-- Offsets in an instance's area of a queue record, a descriptor slot and the connection record of place `n`
(06 R225). -/
def State.queueOff (s : State) (q : Nat) : Nat := 4096 + q % s.queueShare * 64
def State.slotOff (s : State) (n : Nat) : Nat := 4096 + s.queueShare * 64 + n * 128
def State.connOff (s : State) (n : Nat) : Nat := 4096 + s.queueShare * 64 + s.slotShare * 128 + n * 64

/-- A queue record (06 R230). -/
def Queue.record (q : Queue) : Nat := payOf [(0, 1, 0x80), (4, 2, q.pos), (8, 16, q.create)]

/-- A descriptor slot's record (06 R229). -/
def Slot.record (k : Slot) : Nat :=
  payOf [(0, 64, k.desc.toNat), (64, 1, 0x80 + b2n k.seq.isSome * 0x40), (66, 2, k.queue), (68, 2, k.index),
    (70, 2, k.seq.getD 0), (72, 8, k.stamp)]

/-- The installed key epoch of a connection, if any: the last of its list. -/
def Conn.installed (k : Conn) : Option KeyEpoch := k.keys.getLast?

/-- PEER, bytes 16-19 of CREATE_CONNECTION (03 R96). -/
def Conn.peerWord (k : Conn) : Nat := k.peerEp + k.peerInst * 2 ^ 17 + k.cls * 2 ^ 24

/-- A connection record (06 R231). -/
def Conn.record (k : Conn) : Nat :=
  payOf [(0, 1, 0x80 + b2n k.encrypt * 0x40 + b2n k.peerGen.isSome * 0x20), (1, 1, k.peerGen.getD 0), (2, 2, k.wm),
    (4, 4, k.peerWord), (8, 4, k.peerHandle), (12, 1, (k.installed.map (·.epoch)).getD 0),
    (16, 32, match k.installed with | some e => (Config.wrapKey e.key).toNat | none => 0), (48, 4, k.unmatched)]

/-- The connection of a handle. -/
def State.conn? (s : State) (h : Nat) : Option Conn := Map.get? s.xpt.conns h
def State.modConn (s : State) (h : Nat) (f : Conn → Conn) : State :=
  { s with xpt := { s.xpt with conns := Map.mod s.xpt.conns h f } }

/-- The connection record of handle `h` goes to the journal: in the instance's area by its place, or behind its spilled
context (06 R225). -/
def State.jrnlConn (s : State) (h : Nat) : State :=
  match s.conn? h with
  | none => s
  | some k => match k.place with
    | .onDie n => s.jrnlInst k.inst (s.connOff n) 64 k.record
    | .backup n => s.jrnlInst k.inst (s.connOff n) 64 k.record
    | .gddr n => s.jrnlInst k.inst (s.connOff (65536 / max 1 s.nInst + n)) 64 k.record
    | .spill n =>
      if s.journals then s.instWrite k.inst ((s.inst k.inst).spillBase + 576 * n + 512) 64 k.record else s

/-- GDDR7 answers: it is trained, no part of it is being rebuilt, and the PLLs run (17 R508); with the M option the areas lie in host memory
(16 R472, R476, R478). -/
def State.memReady (s : State) : Bool :=
  !s.part.gddr || (s.flag F.MEM_STATUS_TRAINED && !s.flag F.MEM_STATUS_REBUILDING && s.flag F.PWR_STATUS_PLL_RUN)

/-- The areas have the sizes of 16 Gb devices (16 R470); a part with the M option keeps those of 24 Gb (R478). -/
def State.smallMem (s : State) : Bool := s.part.gddr && s.fld F.MEM_CTRL_DENSITY == 0

/-- The queues of port `p` are suspended: its link is down, a write stalls, or a mapped function lacks Bus Master Enable
(12 R389, 15 R461). -/
def State.suspended (s : State) (p : Nat) : Bool :=
  !s.portUp p || s.stalled p || (List.range 128).any (fun i => s.mapped i && s.portOf i == p && !s.fnUp p (s.fnOf i))

/-- HPT_STATUS.SUSPENDED follows. -/
def State.markSuspended (s : State) (p : Nat) : State := s.setFlag (F.HPT_STATUS_SUSPENDED p) (s.suspended p)

/-- The maps have changed: HPT_STATUS.SUSPENDED of each port that is up follows (12 R389). -/
def State.markPorts (s : State) : State :=
  (List.range 8).foldl (fun s p => if s.portUp p then s.markSuspended p else s) s

end Sys2Proof.Machine
end

