-- ==== Sys2Proof/Machine/QueueOps.lean ====
section
/-! DEFINITION. Queues: positions, completions and the waits for room, reservations, descriptor slots, the poll budget
(02 R37-R56, R65-R74, 03 R82). -/

namespace Sys2Proof.Machine

/-- Status codes (02 R69) and admin codes (03 R84). -/
def stSUCCESS : Nat := 0x00
def stTRUNCATED : Nat := 0x01
def stABORTED : Nat := 0x02
def stLENGTH : Nat := 0x03
def stNOTADMITTED : Nat := 0x04
def stRATE : Nat := 0x05
def stTRANSLATION : Nat := 0x06
def stPROTECTION : Nat := 0x07
def stDEVICE : Nat := 0x08
def stREMOTEGEN : Nat := 0x09
def stUNREACHABLE : Nat := 0x0A
def stDEADLINE : Nat := 0x0B
def stABANDONED : Nat := 0x0C
def stTABLEFULL : Nat := 0x0D
def stWAITLIMIT : Nat := 0x0E
def stINTEGRITY : Nat := 0x10
def stDECRYPT : Nat := 0x11
def stMISMATCH : Nat := 0x12
def stABSENT : Nat := 0x13

/-- The key of the admin completion ring among the queues. -/
def acqKey : Nat := 65536

/-- The queue of a number, or of the admin completion ring. -/
def State.queue? (s : State) (q : Nat) : Option Queue := Map.get? s.obj.queues q
def State.modQueue (s : State) (q : Nat) (f : Queue → Queue) : State :=
  { s with obj := { s.obj with queues := Map.mod s.obj.queues q f } }

/-- Queue `q` is a completion queue that exists. -/
def State.isCq (s : State) (q : Nat) : Bool := (s.queue? q).any (fun x => !x.work)

/-- The slot of a key. -/
def State.slot? (s : State) (k : Nat) : Option Slot := Map.get? s.obj.slots k
def State.modSlot (s : State) (k : Nat) (f : Slot → Slot) : State :=
  { s with obj := { s.obj with slots := Map.mod s.obj.slots k f } }

/-- The instance of a slot key, and the slot's number in it. -/
def slotInst (k : Nat) : Nat := k / 1048576
def slotNo' (k : Nat) : Nat := k % 1048576

/-- What the check reads of the completion rings found (02 R46, R55). -/
def State.see (s : State) (v : View) : State := v.foldl (fun s x => s.modQueue x.1 (fun q => { q with room := x.2 })) s

/-- The position after `p` in a ring of `2 ^ log2` entries (02 R46). -/
def ringNext (log2 p : Nat) : Nat := (p + 1) % 2 ^ log2

/-- A queue write of `len` bytes, through the function that owns the ring (02 R38); `count` is 1 where it ends a completion. -/
def State.ringWrite (s : State) (q : Nat) (x : Queue) (count addr len data : Nat) : State :=
  if q = 0 ∨ q = acqKey then s.chipWrite addr len data else s.workWrite x.inst count addr len data

/-- A completion's bytes go out: whole, or the last byte after the others (02 R44); the position advances. -/
def State.writeCqe (s : State) (q : Nat) (c : Cqe) : State :=
  match s.queue? q with
  | none => s
  | some x =>
    let a := x.base + 32 * x.pos
    let s := if x.split then
        (s.ringWrite q x 0 a 31 (c.toNat % 256 ^ 31)).ringWrite q x 1 (a + 31) 1 (c.toNat / 256 ^ 31)
      else s.ringWrite q x 1 a 32 c.toNat
    let s := s.modQueue q (fun x => { x with pos := ringNext x.log2 x.pos, room := x.room - 1 })
    let s := s.occurCtl 0x13
    if q = acqKey then s else s.countInst x.inst (if bytesLE c 1 1 / 16 = 0 then 4 else 5) 1

/-- POSITION of a queue's record goes to the journal (06 R230). -/
def State.jrnlPos (s : State) (q : Nat) : State :=
  match s.queue? q with
  | none => s
  | some x => if q = 0 ∨ q = acqKey then s else s.jrnlInst x.inst (s.queueOff q + 4) 2 x.pos

/-- The OWN clear of a work entry: byte 63, written zero (02 R43). -/
def State.clearOwn (s : State) (q idx : Nat) : State :=
  match s.queue? q with
  | none => s
  | some x => s.ringWrite q x 0 (x.base + 64 * idx + 63) 1 0

/-- A completion of a descriptor or of an admin command (02 R65, 03 R82); `body` is bytes 16-30. -/
def mkCqe (status opcode : Nat) (accepted : Bool) (queue index cookie body : Nat) : Cqe :=
  BitVec.ofNat 256 (payOf [(0, 1, status), (2, 1, opcode), (3, 1, b2n accepted), (4, 2, queue), (6, 2, index),
    (8, 8, cookie), (16, 15, body)])

/-- Fields of a work descriptor (02 R57). -/
def dOpcode (e : Entry) : Nat := bytesLE e 0 1
def dFence (e : Entry) : Bool := bit e 8
def dSignal (e : Entry) : Bool := bit e 9
def dTkind (e : Entry) : Nat := bits e 11 10
def dColour (e : Entry) : Nat := bits e 13 12
def dHandle (e : Entry) : Nat := bytesLE e 4 4
def dCookie (e : Entry) : Nat := bytesLE e 8 8
def dTime (e : Entry) : Nat := bytesLE e 16 8
def dLength (e : Entry) : Nat := bytesLE e 24 4
def dOwn (e : Entry) : Bool := bit e 511

/-- Opcodes (02 R58). -/
def opSEND : Nat := 0x01
def opPOSTRECV : Nat := 0x02
def opWRITE : Nat := 0x03
def opWRITEIMM : Nat := 0x04
def opREAD : Nat := 0x05
def opATOMIC : Nat := 0x06
def opACQUIRE : Nat := 0x07
def opRELEASE : Nat := 0x08
def opCOLLECTIVE : Nat := 0x09
def opCANCEL : Nat := 0x0A
def opNOP : Nat := 0x0F

/-- A slot's completion with generic body `body` (02 R66). -/
def Slot.cqe (k : Slot) (status : Nat) (accepted : Bool) (body : Nat) : Cqe :=
  mkCqe status (dOpcode k.desc) accepted k.queue k.index (dCookie k.desc) body

/-- Slot `k` is free again; its reservation ends (02 R54, R56). For a refusal the work entry is returned (06 R226). -/
def State.freeSlot (s : State) (k : Nat) : State :=
  match s.slot? k with
  | none => s
  | some x =>
    let s := { s with obj := { s.obj with slots := Map.erase s.obj.slots k } }
    match x.phase with
    | .unit => s.jrnlInst (slotInst k) (s.slotOff (slotNo' k) + 64) 1 0
    | .refused =>
      let s := s.modQueue x.cq (fun q => { q with reserved := q.reserved - 1 })
      ((s.modQueue x.queue (fun q => { q with pos := ringNext q.log2 q.pos, blocked := false })).jrnlPos x.queue).clearOwn
        x.queue x.index
    | _ =>
      let s := s.modQueue x.cq (fun q => { q with reserved := q.reserved - 1 })
      s.countGroup.jrnlInst (slotInst k) (s.slotOff (slotNo' k) + 64) 1 0

/-- The ring positions of the admin queue go back to 0 (03 R80). -/
def State.aqRewind (s : State) : State :=
  (s.modQueue 0 (fun x => { x with pos := 0, found := 0 })).modQueue acqKey (fun x => { x with pos := 0, room := 0 })

/-- With the admin queue disabled, its ring positions go back to 0 once no command is in progress (03 R80). -/
def State.aqSettle (s : State) : State :=
  if s.flag F.CTL_AQ_CTRL_ENABLE || !s.obj.adm.isEmpty then s else s.aqRewind

/-- The admin queue stops: its entries are not taken any more, and its ring positions go back to 0 once nothing is in
progress (03 R80). -/
def State.aqStop (s : State) : State := (s.setFld F.CTL_AQ_CTRL_ENABLE 0).aqSettle

/-- What the written completion frees. -/
def State.freeSrc (s : State) (src : CompSrc) : State :=
  match src with
  | .none => s
  | .slot k => s.freeSlot k
  | .admin r =>
    let s := { s with obj := { s.obj with adm := Map.erase s.obj.adm r } }
    (s.modQueue acqKey (fun q => { q with reserved := q.reserved - 1 })).aqSettle
  | .inherit _ => s

/-- A completion is ready: it is written if the entry at the position is free and no other waits, else it waits in the
device (02 R55). -/
def State.post (s : State) (q : Nat) (c : Cqe) (src : CompSrc) : State :=
  match s.queue? q with
  | none => s
  | some x =>
    if x.waiting.isEmpty && 0 < x.room then ((s.writeCqe q c).jrnlPos q).freeSrc src
    else
      let s := s.bump Reg.CTL_CQ_WAIT
      let s := match src with
        | .slot k => s.modSlot k (fun z =>
            { z with phase := if z.phase = SlotPhase.refused then SlotPhase.refused else SlotPhase.done })
        | _ => s
      let w : WaitingCqe := { cqe := c, since := s.t, src := src }
      s.modQueue q (fun x => { x with waiting := x.waiting ++ [w] })

/-- The waiting completions that have room are written, at most `n` of them (02 R55). -/
def State.flushCq (s : State) (q : Nat) : Nat → State
  | 0 => s
  | n + 1 =>
    match s.queue? q with
    | none => s
    | some x => match x.waiting with
      | [] => s
      | w :: rest =>
        if x.room = 0 then s else
        let s := s.modQueue q (fun x => { x with waiting := rest })
        (((s.writeCqe q w.cqe).jrnlPos q).freeSrc w.src).flushCq q n

/-- Entries of completion queue `q` that are free beyond the waiting completions, for R213. -/
def State.roomOf (s : State) (q : Nat) : Nat :=
  match s.queue? q with
  | none => 0
  | some x => if x.waiting.isEmpty then x.room else x.room - x.waiting.length

/-- A match, as 07 R277 counts them. -/
def State.countMatch (s : State) : State := (s.bump Reg.CTL_MATCH_COUNT).occurCtl 0x18

/-- A latency sample, where the descriptor is one of those that give one (19 R535). -/
def State.sampleSlot (s : State) (k : Nat) (x : Slot) (status : Nat) : State :=
  let op := dOpcode x.desc
  if status != stSUCCESS || !(op == opSEND || (opWRITE ≤ op && op ≤ opATOMIC)) then s else
  match s.conn? (dHandle x.desc) with
  | none => s
  | some c => s.sampleLatency (slotInst k) c.cls
      ((s.t - (if dTkind x.desc = 1 then x.startedAt else x.acceptedAt)) / 16)

/-- A descriptor slot is of an opcode that names a connection (02 R58). -/
def onConn (e : Entry) : Bool := let o := dOpcode e; o == opSEND || (opWRITE ≤ o && o ≤ opRELEASE)

/-- A descriptor completes now (06 R226): its completion is written unless it is a suppressed SUCCESS. Opcodes that always
write one: ATOMIC, LOCK_ACQUIRE, LOCK_RELEASE (09 R312) and COLLECTIVE (10 R348). -/
def State.completeSlot (s : State) (k status body : Nat) : State :=
  match s.slot? k with
  | none => s
  | some x =>
    let op := dOpcode x.desc
    let s := s.sampleSlot k x status
    if status = stSUCCESS && !dSignal x.desc && !(6 ≤ op && op ≤ 9) then s.freeSlot k
    else s.post x.cq (x.cqe status true body) (.slot k)

/-- The started descriptor of queue `q` on connection `h` that comes first in SEQ order (02 R67). -/
def State.firstOn (s : State) (q h : Nat) : Option (Nat × Slot) :=
  let nx := ((s.conn? h).map (·.nextSeq)).getD 0
  (sortBy (fun (x : Nat × Slot) => 65535 - (nx + 65535 - x.2.seq.getD 0) % 65536)
    (s.obj.slots.filter (fun x => x.2.queue == q && x.2.phase == .running && x.2.seq.isSome && onConn x.2.desc &&
      dHandle x.2.desc == h))).head?

/-- The completions held behind a descriptor that has completed are written, as far as the next that has not (02 R67). -/
def State.releaseDue (s : State) (q h : Nat) : Nat → State
  | 0 => s
  | n + 1 => match s.firstOn q h with
    | some (k, x) => match x.due with
      | some (st, body) => (s.completeSlot k st body).releaseDue q h n
      | none => s
    | none => s

/-- The completion of slot `k` is held: its descriptor has a SEQ, and an earlier one of its queue and connection has not
completed (02 R67). -/
def State.heldBack (s : State) (k : Nat) (x : Slot) : Bool :=
  onConn x.desc && x.seq.isSome && (s.firstOn x.queue (dHandle x.desc)).any (fun y => y.1 != k)

/-- A descriptor completes, in SEQ order on its queue and connection (02 R67, 06 R226). One that has completed already, and
whose completion waits, is left. -/
def State.finishSlot (s : State) (k status body : Nat) : State :=
  match s.slot? k with
  | none => s
  | some x =>
    if x.phase = .done ∨ x.due.isSome = true then s
    else if s.heldBack k x then s.modSlot k (fun x => { x with due := some (status, body) })
    else (s.completeSlot k status body).releaseDue x.queue (dHandle x.desc) s.obj.slots.length

/-- A completion of a write group of WM (06 R226): what it still owes once all of the group's completions are written, its
queue's POSITION and the release of its slot. One that waits owes nothing here. -/
def State.postIn (s : State) (q : Nat) (c : Cqe) (src : CompSrc) : State × List (Option Nat × CompSrc) :=
  match s.queue? q with
  | none => (s, [])
  | some x =>
    if x.waiting.isEmpty && 0 < x.room then
      let s := match src with
        | .slot k => s.modSlot k (fun z => { z with phase := SlotPhase.done })
        | _ => s
      (s.writeCqe q c, [(some q, src)])
    else (s.post q c src, [])

/-- `finishSlot` within a write group of WM. -/
def State.finishIn (s : State) (k status body : Nat) : State × List (Option Nat × CompSrc) :=
  match s.slot? k with
  | none => (s, [])
  | some x =>
    if x.phase = .done ∨ x.due.isSome = true then (s, [])
    else if s.heldBack k x then (s.modSlot k (fun x => { x with due := some (status, body) }), [])
    else
      let op := dOpcode x.desc
      let s := s.sampleSlot k x status
      if status = stSUCCESS && !dSignal x.desc && !(6 ≤ op && op ≤ 9) then
        (s.modSlot k (fun z => { z with phase := SlotPhase.done }), [(none, .slot k)])
      else s.postIn x.cq (x.cqe status true body) (.slot k)

/-- The end of a write group of WM: the POSITION of each completion queue's record, then what the completions free; the
completions that these had held back follow (06 R226, 02 R67). -/
def State.endGroup (s : State) (l : List (Option Nat × CompSrc)) : State :=
  let xs := l.filterMap (fun o => match o.2 with | .slot k => s.slot? k | _ => none)
  let s := ((l.filterMap (·.1)).eraseDups).foldl State.jrnlPos s
  let s := (l.map (·.2)).foldl State.freeSrc s
  xs.foldl (fun s x => s.releaseDue x.queue (dHandle x.desc) s.obj.slots.length) s

/-- The generic body: BYTES (02 R66). -/
def bytesBody (n : Nat) : Nat := n % 2 ^ 32

/-- A new free slot of instance `i` (06 R225). Which one is free (log entry 31). -/
def State.newSlot (s : State) (i : Nat) : Option Nat :=
  Map.pickFree s.obj.slots (i * 1048576) s.slotShare (Config.freeChoice s.draws)

/-- The polls of a queue per 2^26 ns, in units of the demand's exact sum: 2^(20-k) (02 R49). -/
def demandOf (floor : Nat) (s : State) : Nat :=
  (s.obj.queues.map (fun q => if q.1 = acqKey ∨ q.2.coherent = true then 0 else 2 ^ (20 - max floor q.2.k))).sum

/-- The smallest floor that brings the demand within `2^26 / div`; 0 for none (02 R49, R50). -/
def floorFor (s : State) (div : Nat) : Nat :=
  if demandOf 0 s * div ≤ 2 ^ 26 then 0
  else (((List.range 19).map (· + 2)).find? (fun f => decide (demandOf f s * div ≤ 2 ^ 26))).getD 20

/-- The poll budget after a queue was created or destroyed (02 R49-R51). -/
def State.pollBudget (s : State) : State :=
  let s := s.wr Reg.CTL_POLL_DEMAND (BitVec.ofNat 32 (ceilDiv (demandOf 0 s * 1000000) (2 ^ 26)))
  (s.setFld F.CTL_POLL_FLOOR_FLOOR (floorFor s 1)).setFld F.CTL_POLL_FLOOR_AON_FLOOR (floorFor s 80)

/-- The floor in force: the always-on one while the PLLs are stopped (02 R50). -/
def State.floorNow (s : State) : Nat :=
  if s.flag F.PWR_STATUS_PLL_RUN then s.fld F.CTL_POLL_FLOOR_FLOOR else s.fld F.CTL_POLL_FLOOR_AON_FLOOR

/-- The floor in force takes effect for queue `q` (02 R49). -/
def State.setFloor (s : State) (q : Nat) : State := s.modQueue q (fun x => { x with floor := s.floorNow })

/-- The notice queue of instance `i` is usable (08 R290). -/
def State.noticeUsable (s : State) (i : Nat) : Bool :=
  s.flag (F.CTL_IMM_CQ_ENABLE i) && s.isCq (s.fld (F.CTL_IMM_CQ_QUEUE i)) &&
    s.instOfQueue (s.fld (F.CTL_IMM_CQ_QUEUE i)) == i
def State.noticeQueue (s : State) (i : Nat) : Nat := s.fld (F.CTL_IMM_CQ_QUEUE i)

end Sys2Proof.Machine
end

