-- ==== Sys2Proof/Machine/TranslateOps.lean ====
section
/-! DEFINITION. Translation of virtual addresses, key checks and the written-page log (11, 08 R278-R282, 12 R397-R399). -/

namespace Sys2Proof.Machine

/-- What a translation of one address gives. -/
inductive Tr where
  /-- The bus address, and how many bytes from it lie in the same page or extent. -/
  | ok (addr room : Nat)
  /-- A miss: a walk is needed. -/
  | miss
  /-- A write through a TLB entry whose DIRTY is to be set first. -/
  | clean (e : TlbEntry)
  | fault (status level : Nat)
  deriving DecidableEq, Repr

/-- Extent `n` of instance `i` (11 R377): base, length and bus base. -/
def State.extent (s : State) (i n : Nat) : Nat × Nat × Nat :=
  (s.fld (F.XLT_EXT_VBASE_VBASE i n) * 4096, s.fld (F.XLT_EXT_LENGTH_LENGTH i n) * 4096,
    s.fld (F.XLT_EXT_PBASE_PBASE i n) * 4096)

/-- The lowest-numbered valid extent that covers `va` (11 R366). -/
def State.extentFor (s : State) (i va : Nat) : Option Nat :=
  (List.range 16).find? (fun n => s.flag (F.XLT_EXT_CTRL_VALID i n) &&
    decide ((s.extent i n).1 ≤ va ∧ va < (s.extent i n).1 + (s.extent i n).2.1))

/-- The end of the piece from `va` in extent `n`: its own end, or the start of a lower-numbered extent. -/
def State.extentEnd (s : State) (i n va : Nat) : Nat :=
  (List.range n).foldl (fun e m =>
    if s.flag (F.XLT_EXT_CTRL_VALID i m) && decide (va < (s.extent i m).1) then min e (s.extent i m).1 else e)
    ((s.extent i n).1 + (s.extent i n).2.1)

/-- The slice of a tile. -/
def State.slice (s : State) (tile : Nat) : List TlbEntry := Map.getD s.xlt.tlb tile []

def TlbEntry.covers (e : TlbEntry) (i va : Nat) : Bool := e.inst == i && decide (e.vbase ≤ va ∧ va < e.vbase + 2 ^ e.log2)

/-- The entry of the smallest page that covers `va` (11 R366). -/
def State.tlbFor (s : State) (tile i va : Nat) : Option TlbEntry :=
  let es := (s.slice tile).filter (fun e => e.covers i va)
  match es.find? (fun e => e.log2 == 12) with
  | some e => some e
  | none => match es.find? (fun e => e.log2 == 21) with
    | some e => some e
    | none => es.head?

/-- Where the piece from `va` in TLB entry `e` ends: at its page's end, or before where an extent or a smaller page of the
slice begins (11 R366). -/
def State.pageEnd (s : State) (tile i va : Nat) (e : TlbEntry) : Nat :=
  let cuts := ((List.range 16).filter (fun n => s.flag (F.XLT_EXT_CTRL_VALID i n))).map (fun n => (s.extent i n).1) ++
    ((s.slice tile).filter (fun x => x.inst == i && decide (x.log2 < e.log2))).map (·.vbase)
  cuts.foldl (fun m c => if va < c then min m c else m) (e.vbase + 2 ^ e.log2)

/-- Translation of `va` in instance `i`, for the tile that performs the access (11 R366). -/
def State.translate (s : State) (tile i va : Nat) (write : Bool) : Tr :=
  match s.extentFor i va with
  | some n =>
    if write && !s.flag (F.XLT_EXT_CTRL_WRITE i n) then .fault stPROTECTION 0
    else .ok ((s.extent i n).2.2 + (va - (s.extent i n).1)) (s.extentEnd i n va - va)
  | none => match s.tlbFor tile i va with
    | some e =>
      if write && !e.write then .fault stPROTECTION 0
      else if write && !e.dirty then .clean e
      else .ok (e.addr + (va - e.vbase)) (s.pageEnd tile i va e - va)
    | none => if (s.inst i).walk then .miss else .fault stTRANSLATION 0

/-- The entry becomes the most recently used of its slice (11 R373). -/
def State.touch (s : State) (tile : Nat) (e : TlbEntry) : State :=
  let l := s.slice tile
  if l.contains e then { s with xlt := { s.xlt with tlb := Map.set s.xlt.tlb tile (dropFirst e l ++ [e]) } } else s

/-- A translation fault is counted, and recorded if none has been since the last read (11 R368). -/
def State.xltFault (s : State) (tile i va status level : Nat) (write : Bool) : State :=
  let s := if status = stDEVICE then s.bump Reg.XLT_DEVICE else s.bump Reg.XLT_FAULT
  if s.flag F.XLT_FAULT_INFO_VALID then s else
  (s.wr64 Reg.XLT_FAULT_VA (BitVec.ofNat 64 (va % 2 ^ 48))).wr Reg.XLT_FAULT_INFO
    (BitVec.ofNat 32 (2 ^ 31 + i * 2 ^ 24 + status * 2 ^ 16 + level * 2 ^ 13 + b2n write * 2 ^ 12 + tile * 2 ^ 6))

/-- The access `w` at `va` waits on the task. -/
def Miss.addWait (m : Miss) (w : AccessId) (va : Nat) : Miss :=
  if m.waits.contains (w, va) then m else { m with waits := m.waits ++ [(w, va)] }

/-- The task looks up the page of `2 ^ log2` bytes that holds `va` for the tile and the instance. -/
def Miss.isFor (m : Miss) (tile i va log2 : Nat) : Bool :=
  m.tile == tile && m.inst == i && m.va / 2 ^ log2 == va / 2 ^ log2

/-- The task of a tile for the page of `va` in an instance; while a walk has not found its leaf, its page is taken as one of 4
KiB (log entry 167). -/
def State.missFor (s : State) (tile i va : Nat) : Option Miss := s.xlt.misses.find? (fun m => m.isFor tile i va 12)

/-- The update of ACCESSED by which a task for the page of `va` ends. -/
def FlagUpdate.isFor (u : FlagUpdate) (tile i va : Nat) : Bool := !u.dirty && u.miss.isFor tile i va u.log2

/-- The task of a miss among the engine tasks (01 R20). -/
def Miss.task (m : Miss) : TaskId := .miss m.tile m.inst (m.va / 4096)

/-- A miss raises a task, unless one of the tile for the page is in progress; the access waits on it (11 R373). -/
def State.raiseMiss (s : State) (w : AccessId) (tile i va : Nat) (write : Bool) : State :=
  if (s.missFor tile i va).isSome || s.xlt.updates.any (fun u => u.isFor tile i va) then
    let new := !(s.xlt.misses.any (fun m => m.isFor tile i va 12 && m.waits.contains (w, va)) ||
      s.xlt.updates.any (fun u => u.isFor tile i va && u.miss.waits.contains (w, va)))
    let s := if new then s.occur (bkTIL tile) 0x15 [0] 1 else s
    { s with xlt := { s.xlt with
        misses := s.xlt.misses.map (fun m => if m.isFor tile i va 12 then m.addWait w va else m),
        updates := s.xlt.updates.map (fun u => if u.isFor tile i va then { u with miss := u.miss.addWait w va } else u) } }
  else
    let m : Miss := { tile := tile, inst := i, va := va, write := write, waits := [(w, va)] }
    let s := (s.occur (bkTIL tile) 0x15 [0] 1).occur bkXLT 0x10 [0] 1
    ({ s.bump Reg.XLT_MISS with xlt := { s.xlt with misses := s.xlt.misses ++ [m] } } : State).taskStart tile m.task

/-- An atomic update of a flag of the leaf at `ptr` is issued (11 R375, 15 R456); without AtomicOp Requester Enable
it is not. -/
def State.flagUpdate (s : State) (u : FlagUpdate) : State × Bool :=
  let p := s.portOf u.miss.inst
  let f := s.fnOf u.miss.inst
  let coh := (s.fld F.XLT_CTRL_UPD_COH).testBit p && s.portCache p
  if !coh && !(s.fnCfg p f).atomicEn then (s.atomicUr p f, false)
  else
    let new := u.expected.toNat ||| (if u.dirty then 16 else 8)
    let s := (s.occur bkXLT 0x12 [0] 1).issue (.flagCas p f u.ptr u.expected.toNat new coh)
    ({ s with xlt := { s.xlt with updates := s.xlt.updates ++ [u] } }, true)

/-- The update that sets DIRTY for entry `e`, unless one is in progress (11 R374). The second component is `false`
where the update cannot be issued. -/
def State.setDirty (s : State) (w : AccessId) (tile va : Nat) (e : TlbEntry) : State × Bool :=
  let mine := fun (u : FlagUpdate) => u.dirty && !u.miss.marked && u.miss.tile == tile && u.ptr == e.ptr
  if s.xlt.updates.any mine then
    ({ s with xlt := { s.xlt with updates := s.xlt.updates.map (fun u =>
        if mine u then { u with miss := u.miss.addWait w va } else u) } }, true) else
  let m : Miss := { tile := tile, inst := e.inst, va := va, write := true, waits := [(w, va)] }
  s.flagUpdate { miss := m, dirty := true, ptr := e.ptr, expected := e.leaf, log2 := e.log2 }

/-- The accesses that wait on a task fail (11 R368). -/
def State.failWaits (s : State) (m : Miss) (status : Nat) : State :=
  { s with xlt := { s.xlt with failed := s.xlt.failed ++ m.waits.map (fun x =>
      { who := x.1, tile := m.tile, inst := m.inst, va := x.2, status := status }) } }

/-- The failure that waits for the access `w` at `va`, if any. -/
def State.failedAt (s : State) (w : AccessId) (tile i va : Nat) : Option FailedAccess :=
  s.xlt.failed.find? (fun x => x.who == w && x.tile == tile && x.inst == i && x.va == va)

/-- The pieces of a range: bus address and length; or what stops it, with the address concerned. -/
inductive Range where
  | pieces (l : List (Nat × Nat))
  | stop (va : Nat) (t : Tr)
  deriving DecidableEq, Repr

/-- Splits a range at page and extent boundaries (11 R366); `fuel` bounds the pieces. -/
def State.pieces (s : State) (tile i : Nat) (write : Bool) : Nat → Nat → Nat → List (Nat × Nat) → Range
  | 0, _, _, acc => .pieces acc
  | fuel + 1, va, n, acc =>
    if n = 0 then .pieces acc else
    match s.translate tile i va write with
    | .ok a room => if room = 0 then .stop va (.fault stTRANSLATION 0) else
      s.pieces tile i write fuel (va + min n room) (n - min n room) (acc ++ [(a, min n room)])
    | t => .stop va t

/-- The entries that a translated range goes through become the most recently used (11 R373); `fuel` bounds the pieces. -/
def State.touchRange (s : State) (tile i : Nat) : Nat → Nat → Nat → State
  | 0, _, _ => s
  | fuel + 1, va, n =>
    if n = 0 then s else
    match s.translate tile i va false with
    | .ok _ room =>
      let s := match s.extentFor i va, s.tlbFor tile i va with
        | none, some e => s.touch tile e
        | _, _ => s
      s.touchRange tile i fuel (va + min n room) (n - min n room)
    | _ => s

/-- What an access to a range meets. -/
inductive Access where
  | ready (l : List (Nat × Nat))
  | wait
  | fail (status : Nat)
  deriving DecidableEq, Repr

/-- Translates a range for the access `w`; a miss or a flag to set is started and the access waits, or it takes the failure of the task it
waited on; a fault is counted (11 R366, R368). A tile that is not ACTIVE is woken first (17 R482). -/
def State.access (s : State) (w : AccessId) (tile i va n : Nat) (write : Bool) : State × Access :=
  if !s.tileActive tile then (s.wakeEvent tile wcRESOURCE, .wait) else
  match s.pieces tile i write (n + 1) va n [] with
  | .pieces l => (s.touchRange tile i (n + 1) va n, .ready l)
  | .stop v t =>
    match s.failedAt w tile i v with
    | some x => ({ s with xlt := { s.xlt with failed := dropFirst x s.xlt.failed } }, .fail x.status)
    | none =>
      match t with
      | .miss => (s.raiseMiss w tile i v write, .wait)
      | .clean e =>
        let r := s.setDirty w tile v e
        if r.2 then (r.1, .wait) else (r.1.xltFault tile i v stTRANSLATION 0 write, .fail stTRANSLATION)
      | .fault st lv => (s.xltFault tile i v st lv write, .fail st)
      | .ok _ _ => (s, .wait)

/-- The CXL.mem window of port `p`: its host base and size (15 R458). -/
def State.window (s : State) (p : Nat) : Option (Nat × Nat) :=
  if s.flag (F.HPT_STATUS_MEM p) then Map.get? s.hpt.hdm p else none

/-- Where a bus address of instance `i` lies in a window: its key in the model's memory (15 R459, 11 R367). -/
def State.gddrAt (s : State) (i addr : Nat) : Option Nat :=
  match s.window (s.portOf i) with
  | some (b, n) => if b ≤ addr ∧ addr < b + n then some (s.portOf i * 2 ^ 31 + (addr - b)) else none
  | none => none

/-- A bus range of instance `i` cut at the edges of its port's CXL.mem window (11 R367). -/
def State.windowCuts (s : State) (i addr n : Nat) : List (Nat × Nat) :=
  match s.window (s.portOf i) with
  | none => [(addr, n)]
  | some (b, m) =>
    let lo := min (addr + n) (max addr b)
    let hi := min (addr + n) (max addr (b + m))
    [(addr, lo - addr), (lo, hi - lo), (hi, addr + n - hi)].filter (fun p => p.2 != 0)

/-- What was translated can be read: the instance's function may issue requests, or all of it lies in a window (12 R389, 15
R461 step 5). -/
def State.readable (s : State) (i : Nat) (l : List (Nat × Nat)) : Bool :=
  s.fnUp (s.portOf i) (s.fnOf i) || l.all (fun p => (s.windowCuts i p.1 p.2).all (fun q => (s.gddrAt i q.1).isSome))

/-- The two ranges share an address. -/
def overlaps (a n b m : Nat) : Bool := decide (a < b + m ∧ b < a + n)

/-- A range lies in a device region (11 R379); the CXL.mem windows count for table reads only (R372). -/
def State.inDevice (s : State) (i addr n : Nat) (table : Bool) : Bool :=
  s.hpt.fns.any (fun f => f.2.bars.any (fun b => overlaps addr n b.1 b.2)) ||
    (List.range 32).any (fun d => s.flag (F.XLT_DEV_BASE_VALID d) &&
      overlaps addr n (s.fld (F.XLT_DEV_BASE_ADDR d) * 4096)
        ((s.fld (F.XLT_DEV_LIM_ADDR d) + 1) * 4096 - s.fld (F.XLT_DEV_BASE_ADDR d) * 4096)) ||
    (table && match s.window (s.portOf i) with
      | some (b, m) => overlaps addr n b m
      | none => false)

/-- The region that a key of instance `i` names (08 R279). -/
def State.region (s : State) (i key : Nat) : Region := Map.getD s.obj.regions (i * 2 ^ 24 + key / 256) {}

/-- Access bits (03 R94). -/
def acLOCALW : Nat := 0
def acREMOTER : Nat := 1
def acREMOTEW : Nat := 2
def acATOMIC : Nat := 3
def acLOCK : Nat := 4

/-- The key check of 08 R280; `bit`: the ACCESS bit needed, if any; `pd`: the domain, if one is checked. -/
def State.keyOk (s : State) (i key : Nat) (pd : Option Nat) (acc : Option Nat) (off n : Nat) : Bool :=
  let r := s.region i key
  decide (key / 256 < 2 ^ (s.inst i).regionLog2) && r.valid && r.variant == key % 256 &&
    (match pd with | some d => r.pd == d | none => true) &&
    (match acc with | some b => r.access.testBit b | none => true) &&
    decide (off < 2 ^ 48 ∧ off + n ≤ r.len)

/-- A key is checked: whether its entry is cached on die is free, and a miss is counted (08 R280; log entry 152). -/
def State.lookKey (s : State) : State :=
  { s.drawn with cnt := { s.cnt with regionMiss := (s.cnt.regionMiss + Config.freeChoice s.draws % 2) % 2 ^ 32 } }

/-- A local range passes its key: the region covers it (08 R280, 02 R63). -/
def State.localOk (s : State) (i key : Nat) (pd : Nat) (acc : Option Nat) (addr n : Nat) : Bool :=
  let r := s.region i key
  decide (r.vbase ≤ addr) && s.keyOk i key (some pd) acc (addr - r.vbase) n

/-- One record of the written-page log (12 R397, R398). -/
def State.logPage (s : State) (i addr log2 : Nat) : State :=
  if !s.flag (F.CTL_INST_LOG_ARMED i) then s else
  let x := s.inst i
  if x.logRoom = 0 then
    let lost := s.fld (F.CTL_INST_LOG_LOST i)
    (s.setFld (F.CTL_INST_LOG_OVERFLOW i) 1).setFld (F.CTL_INST_LOG_LOST i) (min 1023 (lost + 1))
  else
    let pos := s.fld (F.CTL_INST_LOG_POSITION i)
    let size := if log2 = 30 then 2 else if log2 = 21 then 1 else 0
    let s := s.instWrite i (x.logBase + 8 * pos) 8 (addr / 4096 % 2 ^ 40 * 4096 + size * 2 ^ 61)
    let s := s.modInst i (fun x => { x with logRoom := x.logRoom - 1 })
    s.setFld (F.CTL_INST_LOG_POSITION i) ((pos + 1) % 2 ^ x.logLog2)

/-- Removes the TLB entries of instance `i` that overlap a range, and marks its walks, and the uses of a translation that are in
flight (11 R381 steps 1-3, R382); `len` = 0: every one. -/
def State.invalidate (s : State) (i va len : Nat) : State :=
  let meets := fun (a n : Nat) => len == 0 || overlaps a n va len
  let hit := fun (e : TlbEntry) => e.inst == i && meets e.vbase (2 ^ e.log2)
  let n := (s.xlt.tlb.map (fun x => (x.2.filter hit).length)).sum
  let mark := fun (m : Miss) => if m.inst = i ∧ meets m.va 1 = true then { m with marked := true } else m
  let s := s.bumpBy Reg.XLT_INVAL n
  { s with
    xlt := { s.xlt with tlb := Map.mapV s.xlt.tlb (fun _ l => l.filter (fun e => !hit e)),
                        misses := s.xlt.misses.map mark,
                        updates := s.xlt.updates.map (fun u => { u with miss := mark u.miss }) },
    hpt := { s.hpt with uses := s.hpt.uses.map (fun u => if u.inst = i then { u with old := meets u.va u.len } else u) },
    atu := { s.atu with ops := s.atu.ops.map (fun o =>
      if o.inst = i then { o with old := meets ((s.region i o.key).vbase + o.offset) 8 } else o) } }

/-- No use of an old translation of instance `i` is in flight: the writes and the unit's operations that went through one have
been issued (11 R381). -/
def State.usesEnded (s : State) (i : Nat) : Bool :=
  !s.hpt.uses.any (fun u => u.inst == i && u.old) &&
    !s.atu.ops.any (fun o => o.inst == i && o.old &&
      (!o.issued || o.write.isSome || s.keptAt (s.portOf i) (s.fnOf i) o.addr true))

end Sys2Proof.Machine
end

