-- ==== Sys2Proof/Machine/SendOps.lean ====
section
/-! DEFINITION. The sending end of the Ahning transport: control cells, messages, sequence numbers, watermarks, the
congestion window, the breaking of a connection (06 R196-R220, R603, 08 R293, R301). -/

namespace Sys2Proof.Machine

/-- The class in which a connection's control cells travel (06 R197). -/
def Conn.ctlCls (k : Conn) : Nat := if k.cls = 7 then 6 else k.cls

/-- What a control cell says beside the fields that every one carries (06 R207, 08 R293). -/
structure CtlSay where
  typ : Nat
  kind : Nat
  msgDone : Bool := false
  segDone : Bool := false
  dseq : Nat := 0
  dtime : Nat := 0
  cells : Nat := 0
  marked : Nat := 0
  list : Nat := 0
  op : Nat := 0
  status : Nat := 0
  epoch : Nat := 0
  tag : Nat := 0
  deriving DecidableEq, Repr

/-- Kinds (06 R208). -/
def kACK : Nat := 1
def kSTATUS : Nat := 2
def kOPEN : Nat := 1
def kOPENACK : Nat := 2
def kPROBE : Nat := 3
def kREMOTEGEN : Nat := 4
def kRMACTRL : Nat := 5

/-- RMA_CTRL operations (08 R293). -/
def rcTAG : Nat := 1
def rcFAULT : Nat := 2
def rcCONFIRM : Nat := 3
def rcKEYSWITCH : Nat := 4
def rcKEYACK : Nat := 5
def rcNOKEY : Nat := 6
def rcSOURCEFAULT : Nat := 7

/-- The payload of a control cell of connection `h` (06 R207, 08 R293). FRONT is given where it is valid. -/
def ctlPay (h gen : Nat) (k : Conn) (y : CtlSay) : Nat :=
  let front := y.typ == tyACK || (y.typ == tyNOTICE && y.kind == kOPENACK)
  let head := payOf [(0, 4, k.peerHandle), (4, 4, h), (8, 1, y.kind), (9, 1, gen),
    (10, 1, b2n y.segDone + 2 * b2n y.msgDone), (12, 2, k.wm), (14, 2, y.dseq)]
  if y.typ = tyNOTICE ∧ y.kind = kRMACTRL then
    head + payOf [(16, 1, y.op), (17, 1, y.status), (18, 1, y.epoch), (32, 16, y.tag)]
  else head + payOf [(16, 8, y.dtime), (24, 2, y.cells), (26, 2, y.marked), (28, 2, if front then k.front else 0),
    (32, 32, y.list)]

/-- A control cell of connection `h` waits for the send path (13 R414). -/
def State.sayCtl (s : State) (h : Nat) (y : CtlSay) : State :=
  match s.conn? h with
  | none => s
  | some k =>
    let c : CtlCell := { dst := k.peerEp, cls := k.ctlCls, typ := y.typ, ins := k.inst, gen := s.gen k.inst,
                         pay := ctlPay h (s.gen k.inst) k y }
    { s with inj := { s.inj with ctl := s.inj.ctl ++ [c] } }

/-- An RMA_CTRL cell (08 R293). -/
def State.sayRma (s : State) (h op dseq status epoch tag : Nat) : State :=
  s.sayCtl h { typ := tyNOTICE, kind := kRMACTRL, op := op, dseq := dseq, status := status, epoch := epoch, tag := tag }

/-- The connection has a generation older than its instance's (12 R395). -/
def State.stale (s : State) (k : Conn) : Bool := k.st == .opened && k.openGen != s.gen k.inst

/-- The connection with a peer's endpoint, instance and class (06 R196). -/
def State.connBy (s : State) (src ins cls : Nat) : Option (Nat × Conn) :=
  s.xpt.conns.find? (fun x => x.2.peerEp == src && x.2.peerInst == ins && x.2.cls == cls)

/-- The message of an id. -/
def State.msg? (s : State) (id : Nat) : Option TxMsg := Map.get? s.xpt.msgs id
def State.modMsg (s : State) (id : Nat) (f : TxMsg → TxMsg) : State :=
  { s with xpt := { s.xpt with msgs := Map.mod s.xpt.msgs id f } }
def State.dropMsg (s : State) (id : Nat) : State :=
  { s with xpt := { s.xpt with msgs := Map.erase s.xpt.msgs id } }

/-- The messages of connection `h`, in order of acceptance. -/
def State.msgsOf (s : State) (h : Nat) : List (Nat × TxMsg) := s.xpt.msgs.filter (fun x => x.2.handle == h)

/-- The outstanding descriptor slots of connection `h`: started ones with a SEQ in SEQ order, then the others in order
of acceptance (06 R203, R218). -/
def State.slotsOn (s : State) (h : Nat) : List Nat :=
  let l := s.obj.slots.filter (fun x => onConn x.2.desc && dHandle x.2.desc == h &&
    (x.2.phase == .launch || x.2.phase == .running))
  let nx := ((s.conn? h).map (·.nextSeq)).getD 0
  let a := sortBy (fun (x : Nat × Slot) => 65535 - (nx + 65535 - x.2.seq.getD 0) % 65536)
    (l.filter (fun x => x.2.seq.isSome))
  let b := sortBy (fun (x : Nat × Slot) => x.2.stamp) (l.filter (fun x => x.2.seq.isNone))
  (a ++ b).map (·.1)

/-- The members of groups with an edge on connection `h` (10 R352). -/
def State.groupsOn (s : State) (h : Nat) : List Nat :=
  (s.col.groups.filter (fun g => (g.2.parent.toList ++ g.2.children).any (fun e => e.handle == h))).map (·.1)

/-- A connection becomes OPENING: it sends OPEN (06 R202). -/
def State.sendOpen (s : State) (h : Nat) : State :=
  (s.sayCtl h { typ := tyNOTICE, kind := kOPEN }).modConn h (fun k => { k with st := .opening, lastCell := s.t })

/-- The tile of on-die entry `n` of instance `i`: entries are dealt to the tiles in turn (log entry 21). -/
def State.ctxTile (s : State) (i n : Nat) : Nat := (i * (65536 / max 1 s.nInst) + n) % 64

/-- The context of connection `h` can be used: it is on die, in a tile that is ACTIVE (06 R199, 17 R482). -/
def State.onDie (s : State) (h : Nat) : Bool :=
  match s.conn? h with
  | some k => match k.place with
    | .onDie n => s.tileActive (s.ctxTile k.inst n)
    | _ => false
  | none => false

/-- The tile that holds the context of connection `h` in a retained bank while it is not ACTIVE (17 R482). -/
def State.sleepingTile (s : State) (h : Nat) : Option Nat :=
  match s.conn? h with
  | some k => match k.place with
    | .onDie n => if s.tileActive (s.ctxTile k.inst n) then none else some (s.ctxTile k.inst n)
    | _ => none
  | none => none

/-- An item needs the context of connection `h`: one that is not on die is missed, and a swap asked for (06 R199); one in a
retained bank of a tile that is not ACTIVE wakes the tile (17 R482). -/
def State.needContext (s : State) (h : Nat) : State :=
  if s.onDie h then s.modConn h (fun k => { k with used := s.t })
  else match s.sleepingTile h with
  | some t => s.wakeEvent t wcRESOURCE
  | none =>
    let s := (s.bump Reg.CTL_XPT_CTX_MISS).occurCtl 0x17
    let s := match s.conn? h with
      | some k => s.countInst k.inst 7 1
      | none => s
    if s.xpt.swaps.contains h then s else { s with xpt := { s.xpt with swaps := s.xpt.swaps ++ [h] } }

/-- A CLOSED connection with a message to send, or a key to switch to, opens once its context is on die (06 R199, R202,
R233, 08 R301). -/
def State.openIfWork (s : State) (h : Nat) : State :=
  match s.conn? h with
  | some k => if k.st = .closed && (!(s.msgsOf h).isEmpty || k.switching.isSome) && s.onDie h then s.sendOpen h else s
  | none => s

/-- A cell of the peer reaches a CLOSED end whose record says that it has been open: the peer has not seen the replay, and
this end opens again. That such an end has work to do, and that PROBE is answered by an OPEN end alone, is the model's choice
(06 R233, R238, R239; log entry 168). -/
def State.openAgain (s : State) (h : Nat) (k : Conn) : State :=
  if k.st = .closed && k.peerGen.isSome then (s.needContext h).sendOpen h else s

/-- A message is accepted for connection `m.handle` (06 R202, R204). -/
def State.accept (s : State) (m : TxMsg) : State × Nat :=
  let id := s.xpt.nextMsg
  let s : State := { s with xpt := { s.xpt with
    msgs := Map.set s.xpt.msgs id { m with acceptedAt := s.t }, nextMsg := id + 1 } }
  ((s.needContext m.handle).openIfWork m.handle, id)

/-- The segments of a message whose first SEQ is `q` (04 R115, 06 R204). -/
def segList (id q len : Nat) : List SendSeg :=
  (List.range (segsOf len)).map (fun i => { seq := (q + i) % 65536, msg := id, seg := i, cells := segCells len i })

/-- SEQ values assigned and not covered (06 R205). -/
def Conn.outstanding (k : Conn) : Nat := (k.nextSeq + 65535 - k.peerWm) % 65536

/-- SEQ values assigned in the last millisecond (06 R205). -/
def State.assignedNow (s : State) (k : Conn) : Nat :=
  ((k.assigned.filter (fun a => decide (s.t < a.1 + us 1000))).map (·.2)).sum

/-- The SEQ values of a message can be assigned (06 R205). -/
def State.canAssign (s : State) (k : Conn) (len : Nat) : Bool :=
  decide (k.outstanding + segsOf len ≤ 32768 ∧ s.assignedNow k + segsOf len ≤ 28672)

/-- The slot of a message whose descriptor is its origin. -/
def TxMsg.slot? (m : TxMsg) : Option Nat :=
  match m.origin with
  | .desc k => some k
  | .unit k => some k
  | _ => none

/-- `n` SEQ values more are assigned, or passed by WM, under every epoch whose boundary is set (08 R297). -/
def Conn.countTx (k : Conn) (n : Nat) : Conn :=
  { k with keys := k.keys.map (fun e => if e.txFrom.isSome then { e with txCount := e.txCount + n } else e) }
def Conn.countRx (k : Conn) (n : Nat) : Conn :=
  { k with keys := k.keys.map (fun e => if e.rxFrom.isSome then { e with rxCount := e.rxCount + n } else e) }

/-- The SEQ of a collective message is kept with its operation in staging, which outlives a device reset (10 R354). -/
def State.keepSent (s : State) (m : TxMsg) (q : Nat) : State :=
  match m.origin with
  | .collective g n down => { s with col := { s.col with groups := Map.mod s.col.groups g (fun x => { x with
      ops := x.ops.map (fun o => if o.opnum = n then
        { o with sent := o.sent ++ [{ handle := m.handle, down := down, seq := q, len := m.len }] } else o) }) } }
  | _ => s

/-- Assigns a message its SEQ values, and writes the first into the slot (06 R204, R226). -/
def State.assignSeq (s : State) (id : Nat) : State :=
  match s.msg? id with
  | none => s
  | some m => match s.conn? m.handle with
    | none => s
    | some k =>
      let n := segsOf m.len
      let s := s.modMsg id (fun m => { m with seq := some k.nextSeq })
      let s := s.modConn m.handle (fun c => { c.countTx n with
        nextSeq := (k.nextSeq + n) % 65536, segs := c.segs ++ segList id k.nextSeq m.len,
        assigned := c.assigned.filter (fun a => decide (s.t < a.1 + us 1000)) ++ [(s.t, n)] })
      match m.slot? with
      | none => s.keepSent m k.nextSeq
      | some z =>
        let s := s.modSlot z (fun x => { x with seq := some k.nextSeq })
        match s.slot? z with
        | some x => if x.phase = .unit then s else
          s.countGroup.jrnlInst (slotInst z) (s.slotOff (slotNo' z) + 64) 8 (x.record / 256 ^ 64 % 256 ^ 8)
        | none => s

/-- Cells sent and neither reported by SEG_DONE nor covered (06 R219). -/
def Conn.inFlight (k : Conn) : Nat := ((k.segs.filter (fun g => !g.done)).map (·.next)).sum

/-- W after `cells` cells acknowledged under a curve entry, in units of 1/256 cell (06 R220 steps 5-7). -/
def newWindow (w entry cells : Nat) (cut : Bool) : Nat :=
  let w1 := (w : Int) + toSigned 16 (entry % 65536) * (cells : Int)
  let w2 := if cut then Int.tdiv (w1 * (256 - (entry / 2 ^ 24 : Nat))) 256 else w1
  (max 2048 (min 4194304 w2)).toNat

/-- A sample `x` of connection `k` at time `t`: BASE after it, with the frames it comes from (06 R220 step 2). -/
def Conn.withSample (k : Conn) (t x : Nat) : Conn :=
  let f := tideNo t
  if f = k.baseFrame then { k with baseCur := some (min x (k.baseCur.getD x)) }
  else { k with baseFrame := f, basePrev := if f = k.baseFrame + 1 then k.baseCur else none, baseCur := some x }
def Conn.base (k : Conn) : Nat := min (k.baseCur.getD 0) (k.basePrev.getD (k.baseCur.getD 0))

/-- The window update of an ACK that reports a segment not yet known to be complete (06 R220). -/
def State.updateWindow (s : State) (h : Nat) (g : SendSeg) (cells marked : Nat) : State :=
  match s.conn? h with
  | none => s
  | some k =>
    if k.cls = 7 then s else
    let x := s.t - g.lastSent
    let k := k.withSample s.t x
    let e := min 15 ((x - k.base) / ns 256)
    let m := min 15 (ceilDiv (16 * marked) (max 1 cells))
    let entry := s.xpt.curve / 256 ^ (4 * (16 * e + m)) % 2 ^ 32
    let cut := entry / 2 ^ 24 != 0 && (match k.lastCut with
      | some c => decide (c + k.base ≤ s.t)
      | none => true)
    s.modConn h (fun _ => { k with w := newWindow k.w entry cells cut, lastCut := if cut then some s.t else k.lastCut })

/-- Progress on connection `h` (06 R216). -/
def State.progressOn (s : State) (h : Nat) : State := s.modConn h (fun k => { k with expiries := 0, progress := s.t })

/-- SEG_DONE for segment `q` (06 R212, R216, R220). -/
def State.segDone (s : State) (h q cells marked : Nat) : State :=
  match (s.conn? h).bind (fun k => k.segs.find? (fun g => g.seq == q && !g.done)) with
  | none => s
  | some g =>
    let s := s.updateWindow h g cells marked
    (s.modConn h (fun k => { k with
      segs := k.segs.map (fun x => if x.seq = q then { x with done := true, again := [] } else x) })).progressOn h

/-- A segment known to be complete by a STATUS entry. -/
def State.segKnown (s : State) (h q : Nat) : State :=
  s.modConn h (fun k => { k with
    segs := k.segs.map (fun x => if x.seq = q then { x with done := true, again := [] } else x) })

/-- The last SEQ of a message. -/
def TxMsg.last (m : TxMsg) : Option Nat := m.seq.map (fun q => (q + segsOf m.len - 1) % 65536)

/-- BYTES of the completion of a descriptor whose message was delivered (02 R66, 08 R295). -/
def Slot.bytes (z : Slot) : Nat := if 5 ≤ dOpcode z.desc ∧ dOpcode z.desc ≠ opREAD then 0 else dLength z.desc

/-- The completion of a descriptor whose message the peer's WM covers (06 R215, 05 R188). A rendezvous SEND, an ATOMIC
and a lock operation complete by other rules (07 R268, 09 R317). A message with a deadline for which no DTIME has come, since
its MSG_DONE acknowledgement was lost or overtaken, completes with SUCCESS: the model's choice (log entry 169). -/
def State.completeCovered (s : State) (m : TxMsg) (z : Nat) : State :=
  match s.slot? z with
  | none => s
  | some x =>
    let op := dOpcode x.desc
    if x.rdv || (opATOMIC ≤ op && op ≤ opRELEASE) then s
    else if m.status ≠ 0 then s.finishSlot z m.status (bytesBody 0)
    else match m.deadline, m.dtime with
      | some d, some t => if d < t then ((s.bump Reg.TIM_DEADLINE_MISSED).raise blkTIM 7 x.queue).finishSlot z stDEADLINE (bytesBody x.bytes)
        else s.finishSlot z stSUCCESS (bytesBody x.bytes)
      | _, _ => s.finishSlot z stSUCCESS (bytesBody x.bytes)

/-- The number of messages of `l` whose SEQ values end at or before `wm`, counted from `old`. -/
def coveredBy (old wm q : Nat) : Bool := decide (0 < (q + 65536 - old) % 65536 ∧ (q + 65536 - old) % 65536 ≤ (wm + 65536 - old) % 65536)

/-- The unexpected store's entry of an id. -/
def State.entry? (s : State) (e : Nat) : Option StoreEntry := Map.get? s.mat.store e
def State.modEntry (s : State) (e : Nat) (f : StoreEntry → StoreEntry) : State :=
  { s with mat := { s.mat with store := Map.mod s.mat.store e f } }
def State.freeEntry (s : State) (e : Nat) : State :=
  { s with mat := { s.mat with store := Map.erase s.mat.store e, pullWait := s.mat.pullWait.filter (· != e) } }

/-- Entry `p` of the match-format table (07 R247). -/
def State.fmtMask (s : State) (p : Nat) : Nat := s.mat.formats / 256 ^ (16 * p) % 2 ^ 64
def State.fmtFlags (s : State) (p : Nat) : Nat := s.mat.formats / 256 ^ (16 * p + 8) % 256
def State.fmtValid (s : State) (p : Nat) : Bool := (s.fmtFlags p).testBit 0
def State.fmtOrdered (s : State) (p : Nat) : Bool := (s.fmtFlags p).testBit 1
def State.fmtPos (s : State) (p : Nat) : Nat := s.mat.formats / 256 ^ (16 * p + 9) % 64
def State.fmtWidth (s : State) (p : Nat) : Nat := s.mat.formats / 256 ^ (16 * p + 10) % 32

/-- The effective match bits (07 R249). -/
def State.effective (s : State) (p m src ins : Nat) : Nat :=
  let w := s.fmtWidth p
  if w = 0 then m else nbits m 63 0 - nbits m (s.fmtPos p + w - 1) (s.fmtPos p) * 2 ^ s.fmtPos p +
    (ins * 131072 + src) % 2 ^ w * 2 ^ s.fmtPos p

/-- PULL_LIMIT of entry `p` of the protocol table (07 R263). -/
def State.pullLimit (s : State) (p : Nat) : Nat := s.mat.protocols / 256 ^ (8 * p + 5) % 256

/-- The tile whose on-die entry holds the context of connection `h` (11 R604). -/
def State.connTile (s : State) (h : Nat) : Nat :=
  match s.conn? h with
  | some k => match k.place with
    | .onDie n => s.ctxTile k.inst n
    | _ => 0
  | none => 0

/-- The bound entry that waits for the next pull of connection `h`. -/
def State.nextPull (s : State) (h : Nat) : Option Nat :=
  s.mat.pullWait.find? (fun f => (s.entry? f).any (fun y => y.handle == h))

/-- The next pull of connection `h`, once PULL_LIMIT allows it, is a task of an engine of the tile that caches the context (01
R20, 07 R266). -/
def State.pullTask (s : State) (h : Nat) : State :=
  match s.nextPull h, s.conn? h with
  | some e, some k =>
    if k.st = .broken ∨ (s.entry? e).any (fun y => s.pullLimit y.proto ≤ k.pulls) = true then s
    else s.taskStart (s.connTile h) (.pull e)
  | _, _ => s

/-- The effective match bits of a stored message, by the table as it is now (07 R248, R249). -/
def State.effOf (s : State) (x : StoreEntry) : Nat := s.effective x.proto x.bits x.src x.srcIns

/-- The body of a receive's completion (07 R275). -/
def recvBody (bytes eff src ins : Nat) : Nat := payOf [(0, 4, bytes), (4, 8, eff), (12, 3, src + ins * 2 ^ 17)]

/-- The body for a receive that completes with failure `st` (07 R275; log entry 151). -/
def recvFail (st eff src ins : Nat) : Nat :=
  if st = stABORTED ∨ st = stPROTECTION ∨ st = stTRANSLATION then 0 else recvBody 0 eff src ins

/-- UNMATCHED of connection `h` falls by one. -/
def State.unmatchedLess (s : State) (h : Nat) : State := s.modConn h (fun k => { k with unmatched := k.unmatched - 1 })

/-- The group of 07 R262: the receive's completion, the queue's POSITION, the connection record with UNMATCHED reduced
if the message was counted; then the store entry is free. -/
def State.finishStored (s : State) (e : Nat) (x : StoreEntry) (status bytes : Nat) : State :=
  match x.bound with
  | none => s
  | some (z, _) =>
    let s := s.finishSlot z status (if status = stSUCCESS ∨ status = stTRUNCATED then
      recvBody bytes x.eff x.src x.srcIns else recvFail status x.eff x.src x.srcIns)
    let s := if status = stTRUNCATED then s.bump Reg.CTL_MATCH_TRUNC else s
    let s := if x.counted && x.covered then s.unmatchedLess x.handle else s
    ((s.jrnlConn x.handle).freeEntry e).taskEnd (.pull e)

/-- The size of a receive's buffer. -/
def State.recvSize (s : State) (z : Nat) : Nat := ((s.slot? z).map (fun x => dLength x.desc)).getD 0

/-- A pull's READ_REQ on connection `h` is covered: the receive completes (07 R269). -/
def State.pullCovered (s : State) (h e : Nat) : State :=
  let s := s.modConn h (fun k => { k with pulls := k.pulls - 1 })
  match s.entry? e with
  | none => s
  | some x =>
    let size := match x.bound with | some (z, _) => s.recvSize z | none => 0
    (if x.status ≠ 0 then s.finishStored e x x.status 0
    else s.finishStored e x (if size < x.len then stTRUNCATED else stSUCCESS) (min size x.len)).pullTask h

/-- The neighbour's WM covers a message of an operation (10 R354). -/
def State.coverColl (s : State) (g n h : Nat) (down : Bool) : State :=
  { s with col := { s.col with groups := Map.mod s.col.groups g (fun x => { x with
      ops := x.ops.map (fun o => if o.opnum = n then { o with sent := o.sent.map (fun r =>
        if r.handle = h ∧ r.down = down then { r with covered := true } else r) } else o) }) } }

/-- What a message's end does once the peer's WM covers it (06 R215, 07 R269, 08 R289, 09 R317). -/
def State.covered (s : State) (id : Nat) (m : TxMsg) : State :=
  let s := s.dropMsg id
  match m.origin with
  | .desc z => if m.reported then s else s.completeCovered m z
  | .pull e => s.pullCovered m.handle e
  | .readResp q _ => s.modConn m.handle (fun k => { k with
      rx := k.rx.map (fun r => if r.seq = q ∧ r.typ = tyREADREQ then { r with served := true } else r) })
  | .unit z => s.freeSlot z
  | .collective g n down => s.coverColl g n m.handle down

/-- An arriving watermark (06 R205, R215, R216): what it covers completes in SEQ order. A value that does not lie above
the last one and at or below the last SEQ assigned changes nothing. -/
def State.applyWm (s : State) (h wm : Nat) : State :=
  match s.conn? h with
  | none => s
  | some k =>
    let d := (wm + 65536 - k.peerWm) % 65536
    if d = 0 ∨ k.outstanding < d then s else
    let old := k.peerWm
    let s := s.modConn h (fun k => { k with
      peerWm := wm, segs := k.segs.filter (fun g => !coveredBy old wm g.seq) })
    let done := sortBy (fun (x : Nat × TxMsg) => (x.2.seq.getD 0 + 65536 - old) % 65536)
      ((s.msgsOf h).filter (fun x => match x.2.last with | some q => coveredBy old wm q | none => false))
    let s := done.foldl (fun s x => s.covered x.1 x.2) s
    s.progressOn h

/-- An arriving frontier (06 R205). -/
def State.applyFront (s : State) (h f : Nat) : State :=
  s.modConn h (fun k => if (f + 65536 - k.peerWm) % 65536 ≤ 32768 then { k with peerFront := f } else k)

/-- The timer of connection `h` runs (06 R216, 08 R301). -/
def Conn.timerRuns (k : Conn) : Bool :=
  k.st == .opening || k.switching.isSome || (k.st == .opened && k.segs.any (fun g => !g.done && g.next != 0))

end Sys2Proof.Machine
end

