-- ==== Sys2Proof/Machine/AtuOps.lean ====
section
/-! DEFINITION. The shared operations of the atomic and lock unit: words, unit slots, responses, grants, inheritance
notices, abandonment (09 R307-R331). -/

namespace Sys2Proof.Machine

/-- `n` bytes of a CXL.mem window from a key on, little-endian; an unlisted byte reads zero (log entry 20). -/
def ramRead (m : List (Nat × BitVec 8)) (k : Nat) : Nat → Nat
  | 0 => 0
  | n + 1 => (Map.getD m k 0#8).toNat + 256 * ramRead m (k + 1) n

/-- Writes `n` bytes of `x` from a key on; a byte that is zero is not listed. -/
def ramWrite (m : List (Nat × BitVec 8)) (k : Nat) : Nat → Nat → List (Nat × BitVec 8)
  | 0, _ => m
  | n + 1, x => ramWrite (Map.put m k 0#8 (BitVec.ofNat 8 x)) (k + 1) n (x / 256)

/-- The last request kept is the data write of instance `i` to `len` bytes at the virtual address `va`: it is a use of their
translation (11 R381). -/
def State.noteUse (s : State) (i va len : Nat) : State :=
  match s.hpt.kept.getLast? with
  | some o => { s with hpt := { s.hpt with uses := s.hpt.uses ++ [{ inst := i, va := va, len := len, out := o }] } }
  | none => s

/-- Writes `len` bytes, which lie on one side of the window's edges, at the bus address to which `va` of an instance is
translated: into its port's window, or toward the host (11 R367). -/
def State.putData (s : State) (i va addr len data : Nat) : State :=
  match s.gddrAt i addr with
  | some k => { s with ram := { s.ram with
      cells := ramWrite s.ram.cells k len data,
      poisoned := s.ram.poisoned.filter (fun p => !decide (k / 64 ≤ p ∧ p ≤ (k + len - 1) / 64)) } }
  | none =>
    let n := s.hpt.kept.length
    let s := s.workWrite i 1 addr len data
    if n < s.hpt.kept.length then s.noteUse i va len else s

/-- Writes `len` bytes at the bus address to which `va` of an instance is translated, split at the edges of the CXL.mem window (11
R367). -/
def State.dataWrite (s : State) (i va addr len data : Nat) : State :=
  (s.windowCuts i addr len).foldl (fun s p =>
    s.putData i (va + (p.1 - addr)) p.1 p.2 (data / 256 ^ (p.1 - addr) % 256 ^ p.2)) s

/-- The host path of a port (09 R308): 0 ATOMICOP, 1 COHERENT, 2 NONE. -/
def State.hostPath (s : State) (p : Nat) : Nat :=
  let v := (s.rd Reg.ATU_HOST_PATH).toNat / 4 ^ p % 4
  if v = 1 && !s.portCache p then 0 else v

/-- An operation on a host word of instance `i` can be issued (09 R308, 15 R456). -/
def State.pathOpen (s : State) (i : Nat) : Bool :=
  let p := s.portOf i
  s.hostPath p == 1 || (s.hostPath p == 0 && (s.fnCfg p (s.fnOf i)).atomicEn)

/-- A lock word was found changed outside the unit (09 R319, R320, 18 R525). -/
def State.mismatch (s : State) (key : Nat) : State := (s.bump Reg.ATU_MISMATCH).raise blkATU 0 (key % 2 ^ 32)

/-- A host-word operation fails for its path (09 R308, 15 R456). -/
def State.pathFail (s : State) (i : Nat) : State :=
  let s := s.bump Reg.ATU_PATH_FAIL
  if s.hostPath (s.portOf i) = 0 then s.atomicUr (s.portOf i) (s.fnOf i) else s

/-- What the check of a request finds (09 R314): the bus address of its word, or why not. -/
inductive WordCheck where
  | ok (addr : Nat)
  | wait
  | fail (status : Nat)
  deriving DecidableEq, Repr

/-- The check of 09 R314 for key `key` at `off` in instance `i`, by the access `w`. -/
def State.wordCheck (s : State) (w : AccessId) (tile i key : Nat) (pd : Option Nat) (acc off : Nat) : State × WordCheck :=
  let r := s.region i key
  let s := s.lookKey
  if !s.keyOk i key pd (some acc) off 8 || (r.vbase + off) % 8 != 0 then (s, .fail stPROTECTION)
  else match s.access w tile i (r.vbase + off) 8 true with
    | (s, .ready ((a, _) :: _)) =>
      if (s.gddrAt i a).isSome then (s, if s.memReady then .ok a else .wait)
      else if s.hostPath (s.portOf i) = 2 then (s.bump Reg.ATU_PATH_FAIL, .fail stPROTECTION)
      else (s, .ok a)
    | (s, .ready []) => (s, .fail stPROTECTION)
    | (s, .wait) => (s, .wait)
    | (s, .fail st) => (s, .fail st)

/-- Unit slot kinds (09 R315). -/
def usATOMIC : Nat := 1
def usLOCK : Nat := 2
def usABANDON : Nat := 3

/-- The fields of a unit slot (09 R315). -/
structure UnitFields where
  kind : Nat
  waiting : Bool := false
  pending : Bool := false
  reqSeq : Nat := 0
  handle : Nat := 0
  result : Nat := 0
  new : Nat := 0
  maddr : Nat := 0
  rimm : Nat := 0
  key : Nat := 0
  offset : Nat := 0
  prio : Nat := 0
  tag : Nat := 0
  deriving DecidableEq, Repr

/-- The DESC bytes of a unit slot. -/
def UnitFields.desc (u : UnitFields) : Entry :=
  BitVec.ofNat 512 (payOf [(0, 1, u.kind), (1, 1, b2n u.pending + 2 * b2n u.waiting), (2, 2, u.reqSeq), (4, 4, u.handle),
    (8, 8, u.result), (16, 8, u.new), (24, 8, u.maddr), (32, 8, u.rimm), (40, 4, u.key), (44, 6, u.offset),
    (50, 1, u.prio), (52, 2, u.tag)])

/-- The fields back from the DESC bytes. -/
def unitFields (e : Entry) : UnitFields :=
  { kind := bytesLE e 0 1, waiting := bit e 9, pending := bit e 8, reqSeq := bytesLE e 2 2, handle := bytesLE e 4 4,
    result := bytesLE e 8 8, new := bytesLE e 16 8, maddr := bytesLE e 24 8, rimm := bytesLE e 32 8,
    key := bytesLE e 40 4, offset := bytesLE e 44 6, prio := bytesLE e 50 1 % 8, tag := bytesLE e 52 2 }

/-- The slot's record goes to the journal. -/
def State.jrnlSlot (s : State) (z : Nat) : State :=
  match s.slot? z with
  | some x => s.jrnlInst (slotInst z) (s.slotOff (slotNo' z)) 128 x.record
  | none => s

/-- A unit slot of instance `i` is held for a response (09 R315). -/
def State.holdUnit (s : State) (i : Nat) (u : UnitFields) : State × Option Nat :=
  match s.newSlot i with
  | none => (s.bump Reg.ATU_SLOT_WAIT, none)
  | some z =>
    let st := (s.inst i).stamp
    let x : Slot := { desc := u.desc, queue := 0, index := 0xFFFF, stamp := st, phase := .unit, acceptedAt := s.t }
    let s := s.drawn.modInst i (fun y => { y with stamp := st + 1 })
    ({ s with obj := { s.obj with slots := Map.set s.obj.slots z x } }, some z)

/-- A new unit slot of instance `i`, written to the journal (09 R315). -/
def State.takeUnit (s : State) (i : Nat) (u : UnitFields) : State × Option Nat :=
  match s.holdUnit i u with
  | (s, none) => (s, none)
  | (s, some z) => (s.jrnlSlot z, some z)

/-- The unit slot's fields change. -/
def State.modUnit (s : State) (z : Nat) (f : UnitFields → UnitFields) : State :=
  (s.modSlot z (fun x => { x with desc := (f (unitFields x.desc)).desc })).jrnlSlot z

/-- The response that a unit slot records is sent (09 R313, R315). -/
def State.sendUnit (s : State) (z : Nat) : State :=
  match s.slot? z with
  | none => s
  | some x =>
    let u := unitFields x.desc
    let n := if u.kind = usABANDON then 0 else 8
    let ty := if u.kind = usATOMIC then tyATOMICRESP else if u.kind = usLOCK then tyLOCKRESP else tyLOCKREQ
    let m : TxMsg := { handle := u.handle, typ := ty, origin := .unit z, len := n, extImm := u.rimm, extLength := n,
                       inline := some u.result }
    (s.accept m).1

/-- WM of connection `h` advances over the request `q`, the lowest above WM: the connection record, then ACK (09 R316,
06 R213). -/
def State.advanceOver (s : State) (h q : Nat) : State :=
  ((s.modConn h (fun k => { k.countRx 1 with wm := q, rx := k.rx.filter (fun r => r.seq != q) })).countGroup.jrnlConn h).sayCtl h
    { typ := tyACK, kind := kACK }

/-- The word of an owner (09 R318). -/
def State.ownerWord (s : State) (m : Master) (prio : Nat) (abandoned : Bool) : Nat :=
  let ogen := if m.via then ((s.conn? m.who).bind (·.peerGen)).getD 0 else s.gen m.inst
  2 ^ 63 + b2n abandoned * 2 ^ 62 + prio % 8 * 2 ^ 59 + b2n m.via * 2 ^ 58 + ogen % 256 * 2 ^ 50 +
    m.who % 2 ^ 25 * 2 ^ 16 + m.tag % 65536

/-- The registry's entry for a word of instance `i` (09 R319). -/
def State.heldAt (s : State) (i addr : Nat) : Option (Nat × Held) :=
  s.atu.held.find? (fun x => x.2.inst == i && x.2.addr == addr)
def State.modHeld (s : State) (n : Nat) (f : Held → Held) : State :=
  { s with atu := { s.atu with held := Map.mod s.atu.held n f } }
def State.dropHeld (s : State) (n : Nat) : State :=
  { s with atu := { s.atu with held := Map.erase s.atu.held n } }

/-- An operation on a word is under way (09 R309, R316). -/
def State.wordBusy (s : State) (i addr : Nat) : Bool :=
  s.atu.ops.any (fun o => o.issued && o.inst == i && o.addr == addr)

/-- An operation of the unit joins those on its word: a host word's request goes out now, unless another is under way
(09 R309). -/
def State.startOp (s : State) (o : UnitOp) : State :=
  if s.wordBusy o.inst o.addr then { s with atu := { s.atu with ops := s.atu.ops ++ [{ o with issued := false }] } }
  else
    let p := s.portOf o.inst
    let s := if o.write.isSome then s else s.issue (.wordOp p (s.fnOf o.inst) o.addr (s.hostPath p == 1) o.act)
    { s with atu := { s.atu with ops := s.atu.ops ++ [o] } }

/-- All waiters (09 R319). -/
def State.waiterCount (s : State) : Nat := (s.atu.held.map (fun x => x.2.waiters.length)).sum

/-- The earliest waiter of the highest priority (09 R320). -/
def nextWaiter (l : List Waiter) : Option Waiter :=
  let p := l.foldl (fun m w => max m w.prio) 0
  l.find? (fun w => w.prio == p)

/-- The RESULT codes of a lock-window read (09 R324). -/
def lrGRANTED : Nat := 0
def lrABANDONED : Nat := 1
def lrRETRY : Nat := 2
def lrTABLEFULL : Nat := 3
def lrWAITLIMIT : Nat := 4
def lrFAULT : Nat := 5
def lrMISMATCH : Nat := 6
def lrWITHDRAWN : Nat := 7
def lrHELD : Nat := 8

/-- Slot states (09 R323). -/
def lsIDLE : Nat := 0
def lsWAITING : Nat := 1
def lsGRANTED : Nat := 2
def lsHELD : Nat := 3

/-- RESULT for a status. -/
def resultOf (st : Nat) : Nat :=
  if st = stSUCCESS then lrGRANTED else if st = stABANDONED then lrABANDONED else if st = stTABLEFULL then lrTABLEFULL
  else if st = stWAITLIMIT then lrWAITLIMIT else if st = stINTEGRITY then lrMISMATCH else lrFAULT

/-- What `ATU_LK_ACQUIRE` of window slot `n` of instance `i` shows, and LAST (09 R323). -/
def State.slotResult (s : State) (i n r info : Nat) : State :=
  ((s.setFld (F.ATU_LK_STATUS_LAST i n) r).wr (Reg.ATU_LK_ACQUIRE i n + 4) (BitVec.ofNat 32 (r * 2 ^ 24))).wr
    (Reg.ATU_LK_ACQUIRE i n) (BitVec.ofNat 32 (min info 0xFFFF))

/-- A stalled read of window slot `n` returns (09 R324). -/
def State.slotReturn (s : State) (i n : Nat) : State :=
  let k := i * 256 + n
  if !Map.has s.atu.reading k then s else
  { s with atu := { s.atu with reading := Map.erase s.atu.reading k },
           lastRead := .data (s.portOf i) (s.rd64 (Reg.ATU_LK_ACQUIRE i n)) 8 }

/-- The outcome of an acquire by window slot `n` (09 R324). -/
def State.slotOutcome (s : State) (i n st waiters : Nat) : State :=
  let k := i * 256 + n
  let reading := Map.has s.atu.reading k
  let granted := st = stSUCCESS ∨ st = stABANDONED
  let s := s.slotResult i n (resultOf st) (if granted then waiters else if resultOf st = lrFAULT then st else 0)
  let s := s.setFld (F.ATU_LK_STATUS_STATE i n)
    (if granted then (if reading then lsHELD else lsGRANTED) else lsIDLE)
  let s : State := { s with atu := { s.atu with idleSince := Map.erase s.atu.idleSince k } }
  s.slotReturn i n

/-- RIMM of a LOCK_RESP (09 R313). -/
def lockImm (reqSeq st waiters : Nat) : Nat := reqSeq % 65536 + st * 2 ^ 16 + min waiters 0xFFFF * 2 ^ 32

/-- A waiter's wait ends with a status; for a grant the word as granted (09 R320, R322). -/
def State.endWait (s : State) (w : Waiter) (st word waiters : Nat) : State :=
  if w.master.via then
    match w.slot with
    | none => s
    | some z =>
      (s.modUnit z (fun u => { u with waiting := false, result := word, rimm := lockImm u.reqSeq st waiters })).sendUnit z
  else s.slotOutcome w.master.inst w.master.who st waiters

/-- The inheritance notice of a hold whose level has become `lv` (09 R326, R327). A waiting notice of the same hold is replaced. One
of an earlier hold of the window slot, which the spec leaves open, stays beside the new one: the model's choice (log entry
166). -/
def State.inherit (s : State) (n lv : Nat) : State :=
  match Map.get? s.atu.held n with
  | none => s
  | some x =>
    let s := (s.modHeld n (fun x => { x with level := lv })).bump Reg.ATU_INHERIT
    if x.owner.via then
      let u : UnitFields := { kind := usLOCK, handle := x.owner.who, result := x.word, rimm := lv % 8 * 2 ^ 24 + 2 ^ 63 }
      match s.takeUnit x.inst u with
      | (s, none) => s
      | (s, some z) => s.sendUnit z
    else
      let i := x.owner.inst
      if !s.noticeUsable i then s.bump Reg.CTL_RMA_NOTICE_LOST else
      let c : Cqe := BitVec.ofNat 256 (payOf [(0, 1, stSUCCESS), (1, 1, 0x20), (2, 1, lv), (3, 1, 0), (4, 4, x.owner.who),
        (8, 6, x.offset), (14, 2, x.owner.tag), (16, 4, x.key)])
      let q := s.noticeQueue i
      let src := CompSrc.inherit x.grant
      match s.queue? q with
      | none => s
      | some y => if y.waiting.any (fun w => w.src == src) then
          s.modQueue q (fun y => { y with waiting := y.waiting.map (fun w => if w.src = src then { w with cqe := c } else w) })
        else s.post q c src

/-- The waiters of a hold have changed: a notice goes out if the level does (09 R326, R329). -/
def State.levelCheck (s : State) (n : Nat) : State :=
  match Map.get? s.atu.held n with
  | none => s
  | some x =>
    let top := x.waiters.foldl (fun m w => max m w.prio) x.prio
    if top = x.level then s else s.inherit n top

/-- An operation on a word has been made. -/
def State.countOp (s : State) : State := (s.bump Reg.ATU_OPS).occur bkATU 0x10 [0] 1

/-- Hold `n` is of master `w` now: a hold of its own, which a grant began (09 R326). -/
def State.giveHold (s : State) (n : Nat) (x : Held) (w : Waiter) (abandoned : Bool) : State :=
  let y : Held := { x with owner := w.master, prio := w.prio, word := s.ownerWord w.master w.prio abandoned, level := w.prio,
                           waiters := dropFirst w x.waiters, grant := s.atu.grants }
  { s.modHeld n (fun _ => y) with atu := { (s.modHeld n (fun _ => y)).atu with grants := s.atu.grants + 1 } }

/-- A contested acquire, or a release with waiters, is a task of an engine of the tile that caches the lock's registry line (01
R20). Which tile caches a line is free (log entry 154). -/
def State.registryStep (s : State) (addr : Nat) : State := s.taskOnce (Config.freeChoice addr % 64)

/-- The hold passes to waiter `w`, or ends if there is none (09 R320, R328). -/
def State.handOver (s : State) (n : Nat) (x : Held) (w : Option Waiter) (st : Nat) : State :=
  let s := s.countOp
  match w with
  | none => s.dropHeld n
  | some w =>
    let s := ((s.occur bkATU 0x12 [0] 1).registryStep x.addr).giveHold n x w (st == stABANDONED)
    (s.endWait w st (s.ownerWord w.master w.prio (st == stABANDONED)) (dropFirst w x.waiters).length).levelCheck n

/-- A word that was found changed, or an operation that could not be made: the hold goes, and its waiters fail
(09 R320, R328). -/
def State.failHeld (s : State) (n : Nat) (x : Held) (st : Nat) : State :=
  x.waiters.foldl (fun s w => s.endWait w st 0 0) (s.dropHeld n)

/-- Withdraws the waiters of hold `n` that `p` selects (09 R325, R330): a window slot's read returns WITHDRAWN. -/
def State.withdraw (s : State) (n : Nat) (p : Waiter → Bool) : State :=
  match Map.get? s.atu.held n with
  | none => s
  | some x =>
    let out := x.waiters.filter p
    if out.isEmpty then s else
    let s := s.modHeld n (fun x => { x with waiters := x.waiters.filter (fun w => !p w) })
    let s := out.foldl (fun s w =>
      let s := s.bump Reg.ATU_WITHDRAWN
      if w.master.via then (match w.slot with | some z => s.freeSlot z | none => s)
      else
        let i := w.master.inst
        let m := w.master.who
        let s := (s.slotResult i m lrWITHDRAWN 0).setFld (F.ATU_LK_STATUS_STATE i m) lsIDLE
        let s : State := { s with atu := { s.atu with idleSince := Map.erase s.atu.idleSince (i * 256 + m) } }
        s.slotReturn i m) s
    s.levelCheck n

/-- The word of a hold after its abandonment (09 R328). -/
def State.abandonWord (s : State) (x : Held) : Nat :=
  match nextWaiter x.waiters with
  | some w => s.ownerWord w.master w.prio true
  | none => 2 ^ 62

/-- A hold passes on once more, because the waiter to whom the word has been given is withdrawn: the grant is not made, and the
next one is served (12 R394). The abandoned mark stays in the word. -/
def State.passOn (s : State) (n : Nat) : State :=
  match Map.get? s.atu.held n with
  | none => s
  | some x =>
    let ab := x.word.testBit 62
    let w := nextWaiter x.waiters
    let new := match w with
      | some w => s.ownerWord w.master w.prio ab
      | none => if ab then 2 ^ 62 else 0
    let st := if ab then stABANDONED else stSUCCESS
    match s.gddrAt x.inst x.addr with
    | some k => ({ s with ram := { s.ram with cells := ramWrite s.ram.cells k 8 new } } : State).handOver n x w st
    | none =>
      if !s.pathOpen x.inst then (s.pathFail x.inst).failHeld n x stPROTECTION
      else s.startOp { kind := .pass n, inst := x.inst, key := x.key, offset := x.offset, addr := x.addr, next := w,
                       act := .cas x.word new }

/-- The word of hold `n` is that of the next owner `w`, as its operation chose it (09 R320, R328). -/
def State.wordGiven (s : State) (n : Nat) (x : Held) (w : Option Waiter) (st : Nat) : State :=
  match w with
  | none => s.handOver n x none st
  | some v => if x.waiters.contains v then s.handOver n x w st else (s.giveHold n x v (st == stABANDONED)).passOn n

/-- The abandonment of hold `n` goes on (09 R328): at once on a GDDR7 word, by an operation of its own on a host word or
behind an operation that is under way. -/
def State.abandonGo (s : State) (n : Nat) : State :=
  match Map.get? s.atu.held n with
  | none => s
  | some x =>
    let o : UnitOp := { kind := .abandon n, inst := x.inst, key := x.key, offset := x.offset, addr := x.addr }
    if s.wordBusy x.inst x.addr then s.startOp o else
    match s.gddrAt x.inst x.addr with
    | some k =>
      if ramRead s.ram.cells k 8 ≠ x.word then (s.mismatch x.key).failHeld n x stINTEGRITY
      else
        let w := s.abandonWord x
        let s : State := { s with ram := { s.ram with cells := ramWrite s.ram.cells k 8 w } }
        s.handOver n x (nextWaiter x.waiters) stABANDONED
    | none => if !s.pathOpen x.inst then (s.pathFail x.inst).failHeld n x stPROTECTION
      else s.startOp { o with act := .cas x.word (s.abandonWord x), next := nextWaiter x.waiters }

/-- Abandons hold `n`, and counts it (09 R328). -/
def State.abandon (s : State) (n : Nat) : State :=
  if Map.has s.atu.held n then (s.bump Reg.ATU_ABANDONED).abandonGo n else s

/-- Every hold that `p` selects is abandoned. -/
def State.abandonAll (s : State) (p : Held → Bool) : State :=
  (s.atu.held.filter (fun x => p x.2)).foldl (fun s x => s.abandon x.1) s

/-- The waiters that `p` selects are withdrawn from every hold. -/
def State.withdrawAll (s : State) (p : Waiter → Bool) : State :=
  s.atu.held.foldl (fun s x => s.withdraw x.1 p) s

/-- A hold by a connection counts as held once the initiator's WM covers the granting LOCK_RESP: its unit slot is then
free (09 R328). The slot of an INHERIT does not count. -/
def State.heldYet (s : State) (h : Nat) (x : Held) : Bool :=
  !s.obj.slots.any (fun z => z.2.phase == .unit && (unitFields z.2.desc).handle == h &&
    (unitFields z.2.desc).kind == usLOCK && !(unitFields z.2.desc).waiting && !(unitFields z.2.desc).rimm.testBit 63 &&
    (unitFields z.2.desc).result == x.word)

/-- The locks held through connection `h` are abandoned (09 R330); `all`: those granted and not yet held too. -/
def State.abandonConn (s : State) (h : Nat) (all : Bool) : State :=
  s.abandonAll (fun x => x.owner.via && x.owner.who == h && (all || s.heldYet h x))

/-- ABANDON_ALL goes out on connection `h` (09 R313, R315, R330). -/
def State.sendAbandonAll (s : State) (h : Nat) : State :=
  match s.conn? h with
  | none => s
  | some k => if k.st ≠ .opened then s else
    let u : UnitFields := { kind := usABANDON, handle := h, rimm := 3 }
    match s.takeUnit k.inst u with
    | (s, none) => s
    | (s, some z) => s.sendUnit z

end Sys2Proof.Machine
end

