-- ==== Sys2Proof/Machine/Reduce.lean ====
section
/-! DEFINITION. The arithmetic of the reduction unit (10 R338, R355-R359): NATIVE, EXACT and COMPRESSED. A finite
floating-point value is an integer in units of the type's smallest subnormal. -/

namespace Sys2Proof.Machine

/-- The bytes of an element of a type (10 R338). -/
def elemBytes (ty : Nat) : Nat := if ty = 4 ∨ ty = 5 then 2 else if ty = 1 ∨ ty = 3 ∨ ty = 7 then 8 else 4

/-- The type is a floating-point one. -/
def isFloat (ty : Nat) : Bool := 4 ≤ ty

/-- Exponent and fraction bits of a floating-point type. -/
def expBits (ty : Nat) : Nat := if ty = 4 then 5 else if ty = 7 then 11 else 8
def fracBits (ty : Nat) : Nat := if ty = 4 then 10 else if ty = 5 then 7 else if ty = 6 then 23 else 52

/-- The smallest subnormal of a type is `2 ^ -lsbOf`. -/
def lsbOf (ty : Nat) : Nat := 2 ^ (expBits ty - 1) - 2 + fracBits ty

/-- What a floating-point bit pattern stands for. -/
inductive Fp where
  | nan
  | inf (neg : Bool)
  /-- `(-1)^neg × mag` in units of the smallest subnormal; the sign of a zero is kept. -/
  | fin (neg : Bool) (mag : Nat)
  deriving DecidableEq, Repr

/-- Decodes a bit pattern. -/
def fpDecode (ty x : Nat) : Fp :=
  let f := fracBits ty
  let e := x / 2 ^ f % 2 ^ expBits ty
  let m := x % 2 ^ f
  let neg := x / 2 ^ (f + expBits ty) % 2 == 1
  if e = 2 ^ expBits ty - 1 then (if m = 0 then .inf neg else .nan)
  else if e = 0 then .fin neg m
  else .fin neg ((2 ^ f + m) * 2 ^ (e - 1))

/-- The canonical quiet NaN (10 R355). -/
def quietNan (ty : Nat) : Nat := (2 ^ expBits ty - 1) * 2 ^ fracBits ty + 2 ^ (fracBits ty - 1)

/-- The bit pattern of a sign. -/
def signBit (ty : Nat) (neg : Bool) : Nat := b2n neg * 2 ^ (fracBits ty + expBits ty)

/-- Infinity, and the largest finite value. -/
def fpInf (ty : Nat) (neg : Bool) : Nat := signBit ty neg + (2 ^ expBits ty - 1) * 2 ^ fracBits ty
def fpMax (ty : Nat) (neg : Bool) : Nat := fpInf ty neg - 1

/-- Whether a quotient `q` with remainder `r` of `d` is rounded up in magnitude; modes RNE, RTZ, RUP, RDN (10 R361). -/
def roundUp (mode : Nat) (neg : Bool) (q r d : Nat) : Bool :=
  if r = 0 then false
  else if mode = 0 then decide (d < 2 * r) || (decide (2 * r = d) && q % 2 == 1)
  else if mode = 1 then false
  else if mode = 2 then !neg
  else neg

/-- Rounds `mag × 2^-unit` once to a type, with overflow as IEEE 754 defines for the mode (10 R355, R357). -/
def fpRound (ty mode unit : Nat) (neg : Bool) (mag : Nat) : Nat :=
  let f := fracBits ty
  let s0 := unit - lsbOf ty
  let sh := max s0 (Nat.log2 mag + 1 - (f + 1))
  let q0 := mag / 2 ^ sh
  let q1 := if roundUp mode neg q0 (mag % 2 ^ sh) (2 ^ sh) then q0 + 1 else q0
  let up := q1 == 2 ^ (f + 1)
  let q := if up then 2 ^ f else q1
  let t := sh + b2n up
  let e := if q < 2 ^ f then 0 else t - s0 + 1
  if 2 ^ expBits ty - 1 ≤ e then
    (if mode = 0 || (mode = 2 && !neg) || (mode = 3 && neg) then fpInf ty neg else fpMax ty neg)
  else signBit ty neg + e * 2 ^ f + (if q < 2 ^ f then q else q - 2 ^ f)

/-- A signed magnitude as an integer. -/
def fpInt (neg : Bool) (mag : Nat) : Int := if neg then -(mag : Int) else mag

/-- A subnormal is taken as zero of its sign under FTZ (10 R355). -/
def flushIn (ty : Nat) (ftz : Bool) (x : Fp) : Fp :=
  match x with
  | .fin n m => if ftz && m < 2 ^ fracBits ty then .fin n 0 else .fin n m
  | y => y
def flushOut (ty : Nat) (ftz : Bool) (x : Nat) : Nat :=
  match fpDecode ty x with
  | .fin n m => if ftz && m < 2 ^ fracBits ty then signBit ty n else x
  | _ => x

/-- A NATIVE floating-point sum of two elements (10 R355). -/
def fpAdd (ty mode : Nat) (ftz : Bool) (x y : Nat) : Nat :=
  match flushIn ty ftz (fpDecode ty x), flushIn ty ftz (fpDecode ty y) with
  | .nan, _ => quietNan ty
  | _, .nan => quietNan ty
  | .inf a, .inf b => if a = b then fpInf ty a else quietNan ty
  | .inf a, .fin _ _ => fpInf ty a
  | .fin _ _, .inf b => fpInf ty b
  | .fin a m, .fin b n =>
    let v := fpInt a m + fpInt b n
    if v = 0 then signBit ty (if m = 0 && n = 0 && a == b then a else mode == 3)
    else flushOut ty ftz (fpRound ty mode (lsbOf ty) (decide (v < 0)) v.natAbs)

/-- The order of MIN and MAX: -0 lies below +0 (10 R355). -/
def fpLess (x y : Fp) : Bool :=
  match x, y with
  | .inf a, .inf b => a && !b
  | .inf a, _ => a
  | _, .inf b => !b
  | .fin a m, .fin b n => decide (fpInt a m < fpInt b n) || (m == 0 && n == 0 && a && !b)
  | _, _ => false

/-- The bit pattern of an operand as MIN and MAX return it. -/
def fpBits (ty x : Nat) (v : Fp) : Nat :=
  match v with
  | .fin n 0 => signBit ty n
  | _ => x

/-- NATIVE MIN or MAX of floating-point elements. -/
def fpMinMax (ty : Nat) (ftz maxi : Bool) (x y : Nat) : Nat :=
  let a := flushIn ty ftz (fpDecode ty x)
  let b := flushIn ty ftz (fpDecode ty y)
  if a = .nan ∨ b = .nan then quietNan ty
  else if fpLess b a != maxi then fpBits ty y b else fpBits ty x a

/-- The value of an integer element. -/
def intVal (ty x : Nat) : Int := if ty = 0 ∨ ty = 1 then toSigned (8 * elemBytes ty) x else x

/-- One NATIVE step on two elements (10 R338, R355). -/
def nativeStep (ty op mode : Nat) (ftz : Bool) (x y : Nat) : Nat :=
  if op = 3 then x &&& y
  else if op = 4 then x ||| y
  else if op = 5 then x ^^^ y
  else if isFloat ty then
    (if op = 0 then fpAdd ty mode ftz x y else fpMinMax ty ftz (op == 2) x y)
  else if op = 0 then (x + y) % 256 ^ elemBytes ty
  else if decide (intVal ty y < intVal ty x) != (op == 2) then y else x

/-- Element `i` of `e` bytes of packed data. -/
def elemAt (data e i : Nat) : Nat := data / 256 ^ (e * i) % 256 ^ e

/-- Packs a list of values of `e` bytes. -/
def packElems (e : Nat) : List Nat → Nat
  | [] => 0
  | x :: t => x % 256 ^ e + 256 ^ e * packElems e t

/-- An EXACT accumulator: J and the flags of R356. -/
structure Acc where
  j : Int := 0
  nan : Bool := false
  pinf : Bool := false
  ninf : Bool := false
  nonnegz : Bool := false
  deriving DecidableEq, Repr

/-- Bytes of J, and of an accumulator (10 R356). -/
def accBytes (ty : Nat) : Nat := if ty = 7 then 272 else 40

/-- An element as an accumulator (10 R356). -/
def accOf (ty x : Nat) : Acc :=
  match fpDecode ty x with
  | .nan => { nan := true, nonnegz := true }
  | .inf n => { pinf := !n, ninf := n, nonnegz := true }
  | .fin n m => { j := fpInt n m, nonnegz := !(n && m == 0) }

/-- The bytes of an accumulator, and back. -/
def Acc.pack (ty : Nat) (a : Acc) : Nat :=
  let w := 8 * (accBytes ty - 1)
  ofSigned w a.j + (b2n a.nan + 2 * b2n a.pinf + 4 * b2n a.ninf + 8 * b2n a.nonnegz) * 2 ^ w
def accUnpack (ty x : Nat) : Acc :=
  let w := 8 * (accBytes ty - 1)
  let f := x / 2 ^ w
  { j := toSigned w (x % 2 ^ w), nan := f.testBit 0, pinf := f.testBit 1, ninf := f.testBit 2, nonnegz := f.testBit 3 }

/-- Adds two accumulators and ORs their flags. -/
def Acc.add (a b : Acc) : Acc :=
  { j := a.j + b.j, nan := a.nan || b.nan, pinf := a.pinf || b.pinf, ninf := a.ninf || b.ninf,
    nonnegz := a.nonnegz || b.nonnegz }

/-- The result element of an accumulator at the root (10 R357). -/
def Acc.result (ty mode : Nat) (a : Acc) : Nat :=
  if a.nan || (a.pinf && a.ninf) then quietNan ty
  else if a.pinf then fpInf ty false
  else if a.ninf then fpInf ty true
  else if a.j = 0 then signBit ty (!a.nonnegz || mode == 3)
  else fpRound ty mode (lsbOf ty) (decide (a.j < 0)) a.j.natAbs

/-- The unit of COMPRESSED values is `2 ^ -149`, to which every element and every block value is a whole multiple. -/
def cUnit : Nat := 149

/-- An element of a COMPRESSED contribution: none is the marker (10 R359). -/
def cValue (ty x : Nat) : Option Int :=
  match fpDecode ty x with
  | .fin n m => some (fpInt n m * 2 ^ (cUnit - lsbOf ty))
  | _ => none

/-- E of a block whose largest magnitude is `a`: k is the smallest integer with a ≤ 127 × 2^k, clamped (10 R359). -/
def blockExp (a : Nat) : Nat :=
  if a = 0 then 0 else
  ((List.range 256).find? (fun e => decide (a ≤ 127 * 2 ^ (e + 16)))).getD 255

/-- The mantissa of a value under E; none where it exceeds 127 (10 R359). -/
def mantOf (e : Nat) (v : Int) : Option Int :=
  let d := 2 ^ (e + 16)
  let a := v.natAbs
  let q := a / d + b2n (roundUp 0 false (a / d) (a % d) d)
  if 127 < q then none else some (fpInt (decide (v < 0)) q)

/-- Quantises a block of 32 values: its 33 bytes (10 R358, R359). -/
def quantise (vs : List (Option Int)) : Nat :=
  let a := vs.foldl (fun m v => max m ((v.map Int.natAbs).getD 0)) 0
  let e := blockExp a
  e + 256 * packElems 1 (vs.map (fun v => match v.bind (mantOf e) with
    | some m => ofSigned 8 m
    | none => 0x80))

/-- The values of a block (10 R358). -/
def dequantise (b : Nat) : List (Option Int) :=
  (List.range 32).map (fun i =>
    let m := elemAt (b / 256) 1 i
    if m = 0x80 then none else some (toSigned 8 m * 2 ^ (b % 256 + 16)))

/-- Marked elements of a block. -/
def marksOf (b : Nat) : Nat := ((dequantise b).filter Option.isNone).length

/-- Adds two blocks' values exactly; a marked input marks the element (10 R359). -/
def addBlocks (x y : List (Option Int)) : List (Option Int) :=
  List.zipWith (fun a b => match a, b with
    | some u, some v => some (u + v)
    | _, _ => none) x y

/-- The result element of a COMPRESSED sum at the root (10 R359). -/
def cResult (ty mode : Nat) (v : Option Int) : Nat :=
  match v with
  | none => quietNan ty
  | some j => if j = 0 then signBit ty (mode == 3) else fpRound ty mode cUnit (decide (j < 0)) j.natAbs

end Sys2Proof.Machine
end

