-- ==== Sys2Proof/Machine/Staging.lean ====
section
/-! DEFINITION. Group members and their operations in progress: headers, lengths, staging, the operations that come into
progress, the engine task of a tree step (10 R333-R350). -/

namespace Sys2Proof.Machine

/-- The group member `g`. -/
def State.group? (s : State) (g : Nat) : Option Group := Map.get? s.col.groups g
def State.modGroup (s : State) (g : Nat) (f : Group → Group) : State :=
  { s with col := { s.col with groups := Map.mod s.col.groups g f } }

/-- The handle of an edge between members of one chip (10 R334). -/
def localEdge : Nat := 0xFFFFFFFF

/-- The member of this chip that an edge of group `gid` names. -/
def State.localMember (s : State) (gid : Nat) (e : Edge) : Option Nat :=
  if e.handle = localEdge then (s.col.groups.find? (fun x => x.2.gid == gid && x.2.rank == e.rank)).map (·.1) else none

/-- The completion body of a COLLECTIVE (10 R348). -/
def collBody (bytes opnum disagree origin nonfinite : Nat) : Nat :=
  payOf [(0, 4, bytes), (4, 4, opnum), (8, 1, disagree), (9, 3, origin % 2 ^ 17), (12, 3, min nonfinite 0xFFFFFF)]

/-- Collective operations (10 R337). -/
def ctBARRIER : Nat := 0
def ctBROADCAST : Nat := 1
def ctREDUCE : Nat := 2
def ctALLREDUCE : Nat := 3

def Group.modOp (g : Group) (n : Nat) (f : CollOp → CollOp) : Group :=
  { g with ops := g.ops.map (fun o => if o.opnum = n then f o else o) }

/-- OPERATOR is reserved for BARRIER and BROADCAST, and so ignored there (10 R337). -/
def opField (ctype operator : Nat) : Nat := if ctype = ctREDUCE ∨ ctype = ctALLREDUCE then operator else 0

/-- Reduction modes (10 R361). -/
def cmNATIVE : Nat := 0
def cmEXACT : Nat := 1
def cmCOMPRESSED : Nat := 2

/-- Fields of bytes 0-3 of a reduction-format entry (10 R361). -/
def fmtType (f : Nat) : Nat := f % 8
def fmtMode (f : Nat) : Nat := f / 2 ^ 8 % 4
def fmtRound (f : Nat) : Nat := f / 2 ^ 16 % 4
def fmtFtz (f : Nat) : Bool := f.testBit 24

/-- Bytes 0-3 of entry `f` of the table. -/
def State.redFmt (s : State) (f : Nat) : Nat := s.col.formats / 256 ^ (8 * f) % 2 ^ 32

/-- Fields of the header of a collective message (10 R344). -/
def hCtype (h : Nat) : Nat := nbits h 7 4
def hOperator (h : Nat) : Nat := nbits h 3 0
def hDown (h : Nat) : Bool := h.testBit 15
def hWire (h : Nat) : Nat := nbits h 14 13
def hHasRoot (h : Nat) : Bool := h.testBit 12
def hAbort (h : Nat) : Bool := h.testBit 11
def hLevel (h : Nat) : Nat := nbits h 19 16
def hStatus (h : Nat) : Nat := nbits h 31 24
def hFmt (h : Nat) : Nat := nbits h 63 32
def hCount (h : Nat) : Nat := nbits h 95 64
def hRoot (h : Nat) : Nat := nbits h 127 96
def hBlevel (h : Nat) : Nat := nbits h 143 128
def hDisagree (h : Nat) : Nat := nbits h 151 144
def hMembers (h : Nat) : Nat := nbits h 191 160
def hOrigin (h : Nat) : Nat := nbits h 223 192
def hNonfinite (h : Nat) : Nat := nbits h 255 224

/-- The operation of number `n` of a group member. -/
def Group.op? (g : Group) (n : Nat) : Option CollOp := g.ops.find? (fun o => o.opnum == n)

/-- Elements of an operation, and the bytes of one as it stands in memory (10 R338, R340). -/
def elemOf (ctype fmt : Nat) : Nat := if ctype = ctBROADCAST then 1 else elemBytes (fmtType fmt)
def CollOp.elem (o : CollOp) : Nat := elemOf o.ctype o.fmt

/-- The mode in which an operation's data is combined. -/
def CollOp.mode (o : CollOp) : Nat := if o.ctype = ctBROADCAST then cmNATIVE else fmtMode o.fmt

/-- The bytes that `n` elements take in an up message (10 R343): `leaf` is a member without children. -/
def upLenOf (ctype fmt n : Nat) (leaf : Bool) : Nat :=
  if ctype = ctBARRIER then 0
  else if ctype = ctBROADCAST then n
  else if fmtMode fmt = cmEXACT then (if leaf then n * elemOf ctype fmt else n * accBytes (fmtType fmt))
  else if fmtMode fmt = cmCOMPRESSED then ceilDiv n 32 * 33
  else n * elemOf ctype fmt
def CollOp.upLen (o : CollOp) (n : Nat) (leaf : Bool) : Nat := upLenOf o.ctype o.fmt n leaf

/-- Bytes in units of 4 KiB. -/
def pagesOf (n : Nat) : Nat := ceilDiv n 4096

/-- The staging need of an operation at a member, in units of 4 KiB (10 R350). COUNT and the FORMAT entry alone say which
children carry data, so each child's up message of a BROADCAST counts (log entry 25). -/
def Group.stagingNeed (g : Group) (ctype fmt count : Nat) : Nat :=
  let kids := (g.children.map (fun e => pagesOf (upLenOf ctype fmt count (e.subtree == 1)))).sum
  let own := if g.parent.isNone then 0 else pagesOf (upLenOf ctype fmt count g.children.isEmpty)
  let down := if g.children.isEmpty || ctype == ctBARRIER then 0 else pagesOf (count * elemOf ctype fmt)
  kids + own + down

/-- The staging of an instance, and what is reserved of it, in units of 4 KiB (10 R350, 16 R470). -/
def State.stagingShare (s : State) : Nat := (if s.smallMem then 524288 else 1048576) / max 1 s.nInst
def State.stagingUsed (s : State) (i : Nat) : Nat :=
  ((s.col.groups.filter (fun g => g.2.inst == i)).map (fun g => (g.2.ops.map (·.need)).sum)).sum

/-- An operation can come into progress: fewer than 8 are, and its staging is free (10 R342, R350). -/
def State.opRoom (s : State) (g : Group) (need : Nat) : Bool :=
  s.memReady && decide (g.ops.length < 8 ∧ s.stagingUsed g.inst + need ≤ s.stagingShare)

/-- Fields of a COLLECTIVE descriptor (10 R337). -/
def cCtype (e : Entry) : Nat := bytesLE e 28 1 / 16
def cOperator (e : Entry) : Nat := bytesLE e 28 1 % 16
def cFormat (e : Entry) : Nat := bytesLE e 29 1 % 16
def cOpnum (e : Entry) : Nat := bytesLE e 30 4
def cRoot (e : Entry) : Nat := bytesLE e 34 4 % 2 ^ 17
def cSaddr (e : Entry) : Nat := bytesLE e 38 6
def cSkey (e : Entry) : Nat := bytesLE e 44 4
def cDaddr (e : Entry) : Nat := bytesLE e 48 6
def cDkey (e : Entry) : Nat := bytesLE e 54 4

/-- The tile that owns a member (10 R333). -/
def ownerTile (g : Nat) : Nat := g % 64

/-- Child `i`'s up message as a member has it. Of a child on this chip the data is the sum in that child's own operation (10
R336). -/
def State.kidView (s : State) (x : Group) (o : CollOp) (i : Nat) (e : Edge) : Option ChildMsg :=
  (Map.get? o.kids i).map (fun m =>
    match (s.localMember x.gid e).bind s.group? with
    | none => m
    | some y => match y.op? o.opnum with
      | none => m
      | some p => { m with data := if m.dropped then 0 else p.sum, runs := [(0, p.upLen p.spans y.children.isEmpty)] })

/-- The children's messages in record order, once every one's header is in hand. -/
def State.kidViews (s : State) (x : Group) (o : CollOp) : Option (List (Edge × ChildMsg)) :=
  (x.children.zip (List.range x.children.length)).foldr (fun p acc =>
    match acc, s.kidView x o p.2 p.1 with
    | some l, some m => some ((p.1, m) :: l)
    | _, _ => none) (some [])

/-- Operation `n` of member `g` is ready for its tree step, which is a task of an engine of the tile that owns the member (01
R20, 10 R345). -/
def State.treeTask (s : State) (g n : Nat) : State :=
  match s.group? g with
  | none => s
  | some x => match x.op? n with
    | none => s
    | some o => match o.slot.bind s.slot?, s.kidViews x o with
      | some z, some _ =>
        if x.broken || o.stepped || z.phase != .running then s else s.taskStart (ownerTile g) (.tree g n)
      | _, _ => s

/-- The cell 0 of a child's up message comes into an operation (10 R342, R349, R350): false where it is discarded. -/
def State.collUp (s : State) (g : Nat) (x : Group) (kid opnum hdr : Nat) : State × Bool :=
  let m : ChildMsg := { hdr := hdr }
  match x.op? opnum with
  | some o =>
    ((s.modGroup g (fun x => x.modOp o.opnum (fun o => { o with kids := Map.set o.kids kid m }))).treeTask g opnum, true)
  | none =>
    let need := x.stagingNeed (hCtype hdr) (hFmt hdr) (hCount hdr)
    if !s.memReady then (s, false) else
    if !s.opRoom x need then (s.bump Reg.CTL_COLL_STAGE_DROP, false) else
    let o : CollOp := { opnum := opnum, ctype := hCtype hdr, operator := opField (hCtype hdr) (hOperator hdr), fmt := hFmt hdr,
                        count := hCount hdr, root := hRoot hdr, need := need, kids := [(kid, m)] }
    (s.modGroup g (fun x => { x with ops := x.ops ++ [o] }), true)

/-- The next queued descriptors of a member come into their operations, in order (10 R342). -/
def State.enterOp (s : State) (g : Nat) (x : Group) (z fmt : Nat) : Option State :=
  match s.slot? z with
  | none => some s
  | some y =>
    let e := y.desc
    let count := dLength e / elemOf (cCtype e) fmt
    let need := x.stagingNeed (cCtype e) fmt count
    match x.op? (cOpnum e) with
    | some o => some (s.modGroup g (fun x => x.modOp o.opnum (fun o => { o with
        slot := some z, ctype := cCtype e, operator := opField (cCtype e) (cOperator e), fmt := fmt, count := count,
        root := cRoot e })))
    | none =>
      if !s.opRoom x need then none else
      let o : CollOp := { opnum := cOpnum e, slot := some z, ctype := cCtype e, operator := opField (cCtype e) (cOperator e), fmt := fmt,
                          count := count, root := cRoot e, need := need }
      some (s.modGroup g (fun x => { x with ops := x.ops ++ [o] }))
def State.enterQueued (s : State) (g : Nat) : Nat → State
  | 0 => s
  | n + 1 => match s.group? g with
    | none => s
    | some x => match x.queued with
      | [] => s
      | (z, f) :: t => match s.enterOp g x z f with
        | none => s
        | some s =>
          let s := s.modGroup g (fun x => { x with queued := t })
          (match s.slot? z with
          | some y => s.treeTask g (cOpnum y.desc)
          | none => s).enterQueued g n

/-- A local edge's up message is in the parent's hands. -/
def CollOp.offered (o : CollOp) : Bool := o.sent.any (fun r => r.handle == localEdge && !r.down)

/-- The up message of operation `n` of member `g` reaches the parent on this chip with the effects of a cell 0 (10 R336): it may
bring the parent's operation into progress, or be discarded. `again`: one that was discarded comes again once there is room (log
entry 172). -/
def State.offerUp (s : State) (g n : Nat) (again : Bool) : State :=
  match s.group? g with
  | none => s
  | some x => match x.op? n, x.parent.bind (s.localMember x.gid) with
    | some o, some p => match s.group? p, o.upHdr with
      | some y, some hdr =>
        let room := (y.op? n).isSome || s.opRoom y (y.stagingNeed (hCtype hdr) (hFmt hdr) (hCount hdr))
        if o.offered || y.broken || (again && !room) then s else
        match y.children.findIdx? (fun e => e.handle == localEdge && e.rank == x.rank) with
        | none => s
        | some i => match s.collUp p y i n hdr with
          | (s, true) => s.modGroup g (fun x => x.modOp n (fun o =>
              { o with sent := o.sent ++ [{ handle := localEdge, down := false, seq := 0, len := 0, covered := true }] }))
          | (s, false) => s
      | _, _ => s
    | _, _ => s

/-- Every member of an instance whose descriptors wait for staging tries again, and so do the local children's messages. -/
def State.enterAll (s : State) (i : Nat) : State :=
  let s := (s.col.groups.filter (fun g => g.2.inst == i && !g.2.queued.isEmpty)).foldl (fun s g => s.enterQueued g.1 8) s
  s.col.groups.foldl (fun s g => g.2.ops.foldl (fun s o =>
    if o.upHdr.isSome && !o.offered then s.offerUp g.1 o.opnum true else s) s) s

end Sys2Proof.Machine
end

