-- ==== Sys2Proof/Machine/BreakOps.lean ====
section
/-! DEFINITION. What breaks: a group member, and a connection (06 R203, R218, R603, 10 R352). -/

namespace Sys2Proof.Machine

/-- The ROOT field of a header, and FMT: zero where the operation has none (10 R344). -/
def CollOp.hdrRoot (o : CollOp) : Nat := if o.ctype = ctREDUCE ∨ o.ctype = ctBROADCAST then o.root else 0
def CollOp.hdrFmt (o : CollOp) : Nat := if o.ctype = ctREDUCE ∨ o.ctype = ctALLREDUCE then o.fmt else 0

/-- The pinned behaviour level (20 R550). -/
def State.level (s : State) : Nat := s.fld F.MGT_LEVEL_PINNED

/-- The header of an ABORT message (10 R344, R352): `origin` set the status; MEMBERS_IN of an up message is free (log entry
153). -/
def State.abortHdr (s : State) (x : Group) (o : CollOp) (down : Bool) (status origin : Nat) : Nat :=
  payOf [(0, 1, o.ctype * 16 + o.operator), (1, 1, b2n down * 128 + 3 * 32 + b2n (o.hasRoot && !down) * 16 + 8),
    (2, 1, x.level), (3, 1, status), (4, 4, o.hdrFmt), (8, 4, o.count), (12, 4, o.hdrRoot), (16, 2, s.level),
    (18, 1, o.disagree), (20, 4, if down then x.members else Config.freeChoice s.draws), (24, 4, origin),
    (28, 4, o.nonfinite)]

/-- A collective message on an edge's connection (10 R336, R344). -/
def collMsg (h gid opnum : Nat) (origin : MsgOrigin) (hdr data len : Nat) (avail : Option Nat) : TxMsg :=
  { handle := h, typ := tyCOLLECTIVE, origin := origin, len := 32 + len, extImm := gid + opnum * 2 ^ 32,
    extLength := 32 + len, inline := some (hdr + data * 256 ^ 32), avail := avail }

/-- ABORT on one edge, if its connection is still OPEN (10 R352). -/
def State.sendAbort (s : State) (g : Nat) (x : Group) (o : CollOp) (e : Edge) (down : Bool) (status origin : Nat) :
    State :=
  if e.handle != localEdge && (s.conn? e.handle).any (fun k => k.st == .opened) then
    (s.drawn.accept (collMsg e.handle x.gid o.opnum (.collective g o.opnum down) (s.abortHdr x o down status origin) 0 0
      none)).1
  else s

/-- A message of a member that breaks and that is not whole goes, so that the ABORT after it can leave; of one that has a SEQ
already the bytes that are missing are free (10 R352; log entry 173). -/
def State.cutMsgs (s : State) (g : Nat) : State :=
  let part := fun (m : TxMsg) => (match m.origin with | .collective j _ _ => j == g | _ => false) &&
    m.avail.any (fun a => decide (a < m.len))
  let msgs := s.xpt.msgs.filter (fun x => !(part x.2 && x.2.seq.isNone))
  let whole := fun (m : TxMsg) => { m with avail := none, inline := m.inline.map (fun x =>
    x % 256 ^ m.avail.getD 0 + Config.freeChoice s.draws * 256 ^ m.avail.getD 0) }
  if !s.xpt.msgs.any (fun x => part x.2) then s else
  ({ s with xpt := { s.xpt with msgs := Map.mapV msgs (fun _ m => if part m then whole m else m) } } : State).drawn

/-- The completion body of an operation that ends with its member's break: the bytes placed so far, and what the down message
said, if it has come (10 R348, R352). -/
def CollOp.brokenBody (o : CollOp) : Nat :=
  match o.downHdr with
  | some h => collBody o.placed o.opnum (hDisagree h) (hOrigin h) (hNonfinite h)
  | none => collBody o.placed o.opnum 0 0 0

/-- One member becomes BROKEN: its operations complete with the status and ABORT goes out for each (10 R352); descriptors of
other members that waited for its staging go on (10 R342). -/
def State.breakMember (s : State) (g : Nat) (x : Group) (status origin : Nat) : State :=
  let s := ((s.bump Reg.CTL_COLL_BROKEN).cutMsgs g).modGroup g (fun x => { x with broken := true, ops := [], queued := [] })
  let s := x.ops.foldl (fun s o =>
    let s := s.taskEnd (.tree g o.opnum)
    let s := match o.slot with
      | some z => s.finishSlot z status o.brokenBody
      | none => s
    let s := x.parent.toList.foldl (fun s e => s.sendAbort g x o e false status origin) s
    x.children.foldl (fun s e => s.sendAbort g x o e true status origin) s) s
  let s := (x.queued.map (·.1)).foldl (fun s z => s.finishSlot z status
    (collBody 0 (((s.slot? z).map (fun y => cOpnum y.desc)).getD 0) 0 0 0)) s
  s.enterAll x.inst

/-- Members break one after another, each with the rank that set its status. Between members of one chip there is no connection
to break: a local neighbour follows, operations in progress or not (10 R336, R344, R352, R353; log entry 172). -/
def State.breakGroups (s : State) (status : Nat) : Nat → List (Nat × Option Nat) → State
  | 0, _ => s
  | _, [] => s
  | n + 1, (g, who) :: gs =>
    match s.group? g with
    | none => s.breakGroups status n gs
    | some x =>
      if x.broken then s.breakGroups status n gs else
      let origin := who.getD x.rank
      let near := (x.parent.toList ++ x.children).filterMap (fun e =>
        (s.localMember x.gid e).map (fun l => (l, some origin)))
      (s.breakMember g x status origin).breakGroups status n (gs ++ near)

/-- Members that break by themselves: each sets its own status. -/
def ownBreaks (gs : List Nat) : List (Nat × Option Nat) := gs.map (fun g => (g, none))

/-- A bound on the members that can break in a row. -/
def State.breakFuel (s : State) : Nat := (s.col.groups.length + 1) * (s.col.groups.length + 1)

/-- Group member `g` becomes BROKEN by an ABORT whose status `origin` set. -/
def State.breakGroup (s : State) (g status origin : Nat) : State := s.breakGroups status s.breakFuel [(g, some origin)]

/-- The receives that messages of connection `h` have taken and that cannot be filled any more complete with status `st` (06
R237, log entry 126): those of messages above WM, of which `k` is the context, and of requests whose pull has not ended. -/
def State.loseRecvs (s : State) (h : Nat) (k : Conn) (st : Nat) : State :=
  let s := k.rx.foldl (fun s m => match m.typ == tySEND, m.target with
    | true, .buffer _ _ _ (some z) =>
      s.finishSlot z (if m.status = 0 then st else m.status) (recvFail (if m.status = 0 then st else m.status) m.eff k.peerEp k.peerInst)
    | _, _ => s) s
  (s.mat.store.filter (fun e => e.2.handle == h && (e.2.rts || !e.2.covered))).foldl (fun s e => match e.2.bound with
    | some _ => s.finishStored e.1 e.2 (if e.2.status = 0 then st else e.2.status) 0
    | none => if e.2.covered then s else s.freeEntry e.1) s

/-- A connection becomes BROKEN with a status: every descriptor on it completes with it, in order, its messages go, its
waiters at the unit are withdrawn, and the groups with an edge on it break (06 R203, R218, 09 R322, 10 R352). -/
def State.breakConn (s : State) (h status : Nat) : State :=
  match s.conn? h with
  | none => s
  | some k =>
    if k.st = .broken then s else
    let zs := s.slotsOn h
    let gs := s.groupsOn h
    let s := s.withdrawAll (fun w => w.master.via && w.master.who == h)
    let s := s.modConn h (fun k => { k with
      st := .broken, brokeWith := status, segs := [], switching := none, rx := [], recs := [], pulls := 0 })
    let s : State := { s with xpt := { s.xpt with msgs := s.xpt.msgs.filter (fun x => x.2.handle != h) } }
    let us := s.obj.slots.filter (fun x => x.2.phase == .unit && (unitFields x.2.desc).handle == h)
    let s := us.foldl (fun s x => s.freeSlot x.1) s
    let s := zs.foldl (fun s z => s.finishSlot z status (bytesBody 0)) s
    let s := s.loseRecvs h k status
    s.breakGroups status s.breakFuel (ownBreaks gs)

end Sys2Proof.Machine
end

