-- ==== Sys2Proof/Machine/RecvOps.lean ====
section
/-! DEFINITION. The receiving end of the Ahning transport, with matching: classification, segment records, the hold
store, known messages, placement, completion of segments, failures (06 R203-R214, 07 R241-R261, R272, 08 R287-R300). -/

namespace Sys2Proof.Machine

/-- How far SEQ `a` lies after `b`. -/
def dist (a b : Nat) : Nat := (a + 65536 - b % 65536) % 65536

/-- The rows of 06 R206. -/
inductive SeqClass where
  | duplicate
  | accepted
  | beyond
  deriving DecidableEq, Repr

/-- The classification of SEQ `q` (06 R206). -/
def Conn.classify (k : Conn) (q : Nat) : SeqClass :=
  let d := dist q k.wm
  let f := dist k.front k.wm
  if d = 0 ∨ 32768 < d ∨ d ≤ f then .duplicate
  else if d ≤ min (f + 4096) 32768 then (if k.sel.contains q then .duplicate else .accepted)
  else .beyond

/-- The message that SEQ `q` belongs to, if it is known (06 R211). -/
def Conn.msgFor (k : Conn) (q : Nat) : Option RxMsg := k.rx.find? (fun m => dist q m.seq < segsOf m.len)
def Conn.rec? (k : Conn) (q : Nat) : Option SegRec := k.recs.find? (fun r => r.seq == q)

/-- Changes a message, a segment record. -/
def Conn.modRx (k : Conn) (q : Nat) (f : RxMsg → RxMsg) : Conn :=
  { k with rx := k.rx.map (fun m => if m.seq = q then f m else m) }
def Conn.modRec (k : Conn) (q : Nat) (f : SegRec → SegRec) : Conn :=
  { k with recs := k.recs.map (fun r => if r.seq = q then f r else r) }

/-- Every SEQ from WM + 1 to `q` - 1 is known: the messages in order leave no gap (06 R211, 07 R255). -/
def knownUpTo : List RxMsg → Nat → Nat → Bool
  | [], e, q => e == q
  | m :: t, e, q => if e = q then true else if m.seq = e then knownUpTo t ((e + segsOf m.len) % 65536) q else false
def Conn.inOrder (k : Conn) : List RxMsg := sortBy (fun m => dist m.seq k.wm) k.rx
def Conn.known (k : Conn) (q : Nat) : Bool := knownUpTo k.inOrder ((k.wm + 1) % 65536) q

/-- A message is complete but for the conditions of its own (06 R212, 07 R258): the bytes counted as placed reach its
length. -/
def RxMsg.full (m : RxMsg) : Bool := m.placed == m.len && m.target != .unknown

/-- A fence holds the message: it has FENCE and an earlier one is not complete (06 R214). -/
def Conn.fenced (k : Conn) (m : RxMsg) : Bool :=
  m.fence && !(k.known m.seq && k.rx.all (fun x => dist m.seq k.wm ≤ dist x.seq k.wm || x.full || x.status != 0))

/-- Segment records and held cells of an instance (06 R210). -/
def State.recsOf (s : State) (i : Nat) : Nat := ((s.xpt.conns.filter (fun k => k.2.inst == i)).map (fun k => k.2.recs.length)).sum
def State.heldCells (s : State) (i : Nat) : Nat :=
  ((s.xpt.conns.filter (fun k => k.2.inst == i)).map (fun k => (k.2.recs.map (fun r => r.held.length)).sum)).sum

/-- Fields of the cell 0 of a SEND (07 R243). -/
def sContext (c : Cell) : Nat := c.pb 8 2
def sRlen (c : Cell) : Nat := c.pb 10 4
def sRts (c : Cell) : Bool := (c.pb 14 1).testBit 4
def sProto (c : Cell) : Nat := c.pb 14 1 % 16

/-- Fields of a POST_RECV (07 R245). -/
def pMatch (e : Entry) : Nat := bytesLE e 28 8
def pIgnore (e : Entry) : Nat := bytesLE e 36 8
def pContext (e : Entry) : Nat := bytesLE e 44 2
def pProto (e : Entry) : Nat := bytesLE e 46 1 % 16
def pAny (e : Entry) : Bool := (bytesLE e 46 1).testBit 4
def pSrc (e : Entry) : Nat := bytesLE e 47 3 % 2 ^ 17
def pSrcIns (e : Entry) : Nat := bytesLE e 47 3 / 2 ^ 17
def pLkey (e : Entry) : Nat := bytesLE e 50 4
def pLaddr (e : Entry) : Nat := bytesLE e 54 6

/-- A message as matching sees it: its scope, its source, its effective bits. -/
structure Envelope where
  inst : Nat
  pd : Nat
  proto : Nat
  context : Nat
  src : Nat
  ins : Nat
  eff : Nat
  deriving DecidableEq, Repr

/-- The domain of the work queue of a receive. -/
def State.recvPd (s : State) (z : Nat) : Nat :=
  ((s.slot? z).bind (fun x => s.queue? x.queue)).map (·.pd) |>.getD 0

/-- Receive `z` matches the message (07 R241, R250). -/
def State.matchesRecv (s : State) (z : Nat) (m : Envelope) : Bool :=
  match s.slot? z with
  | none => false
  | some x =>
    let e := x.desc
    slotInst z == m.inst && s.recvPd z == m.pd && pProto e == m.proto && pContext e == m.context &&
      (pAny e || (pSrc e == m.src && pSrcIns e == m.ins)) &&
      ((pMatch e ^^^ m.eff) &&& (2 ^ 64 - 1 - pIgnore e)) == 0

/-- The stamp of a receive. -/
def State.stampOf (s : State) (z : Nat) : Nat := ((s.slot? z).map (·.stamp)).getD 0

/-- A receive is hashed (07 R251). -/
def State.hashed (s : State) (e : Entry) : Bool := !pAny e && pIgnore e &&& s.fmtMask (pProto e) == 0

/-- The entries that a message examines: the receives of its bin, and the wildcard list of its scope (07 R251); of
these, the ones up to the match (log entry 22). -/
def State.examined (s : State) (m : Envelope) (z : Nat) : Bool :=
  match s.slot? z with
  | none => false
  | some x =>
    slotInst z == m.inst && s.recvPd z == m.pd && pProto x.desc == m.proto && pContext x.desc == m.context &&
      (!s.hashed x.desc || (pSrc x.desc == m.src && pSrcIns x.desc == m.ins &&
        pMatch x.desc &&& s.fmtMask m.proto == m.eff &&& s.fmtMask m.proto))

/-- The receive that the message takes: the lowest stamp among those it matches (07 R252); overflow entries read are
counted (R277). -/
def State.takeRecv (s : State) (m : Envelope) : State × Option Nat :=
  if !s.fmtValid m.proto then (s, none) else
  let c := sortBy s.stampOf ((s.mat.posted.map (·.1)).filter (fun z => s.matchesRecv z m))
  let top := match c with | z :: _ => s.stampOf z | [] => 2 ^ 64
  let ovf := (s.mat.posted.filter (fun x => x.2.isNone && s.examined m x.1 && decide (s.stampOf x.1 ≤ top))).length
  let s := s.bumpBy Reg.CTL_MATCH_OVF_READ ovf
  match c with
  | [] => (s, none)
  | z :: _ =>
    let s := s.countMatch.modSlot z (fun x => { x with phase := .running })
    ({ s with mat := { s.mat with posted := Map.erase s.mat.posted z } }, some z)

/-- Header entries and data blocks of an instance's share of the unexpected store, and those in use (07 R259). -/
def State.headerShare (s : State) : Nat := 4194304 / max 1 s.nInst
def State.blockShare (s : State) : Nat := (if s.smallMem then 15773696 else 24424448) / max 1 s.nInst
def StoreEntry.blocks (x : StoreEntry) : Nat := if x.rts then 0 else ceilDiv x.len 1024
def State.headersUsed (s : State) (i : Nat) : Nat := (s.mat.store.filter (fun e => e.2.inst == i)).length
def State.blocksUsed (s : State) (i : Nat) : Nat := ((s.mat.store.filter (fun e => e.2.inst == i)).map (fun e => e.2.blocks)).sum

/-- A message can be stored (07 R260). -/
def State.storeRoom (s : State) (i blocks : Nat) : Bool :=
  decide (s.headersUsed i < s.headerShare ∧ s.blocksUsed i + blocks ≤ s.blockShare)

/-- A pull waits for its turn (07 R266): its entry is bound. On a connection that has broken since, or is gone, no pull can be
made: the receive completes with what broke it (06 R218, R237; log entry 126). -/
def State.queuePull (s : State) (e : Nat) : State :=
  match s.entry? e with
  | none => s
  | some x => match s.conn? x.handle with
    | none => s.finishStored e x stUNREACHABLE 0
    | some k =>
      if k.st = .broken then s.finishStored e x k.brokeWith 0
      else ({ s with mat := { s.mat with pullWait := s.mat.pullWait ++ [e] } } : State).pullTask x.handle

/-- The cell 0 of a SEND meets the matching point (07 R250-R261): its target, or none where the store has no room for
it. -/
def State.matchSend (s : State) (h : Nat) (k : Conn) (c : Cell) : State × RxTarget :=
  let p := (sProto (c))
  let env : Envelope := { inst := k.inst, pd := k.pd, proto := p, context := (sContext (c)), src := k.peerEp,
                          ins := k.peerInst, eff := s.effective p c.extMatch k.peerEp k.peerInst }
  let rts := (sRts (c))
  let len := if rts then (sRlen (c)) else c.extLength
  let entry : StoreEntry := { inst := k.inst, handle := h, pd := k.pd, proto := p, context := (sContext (c)),
                              src := k.peerEp, srcIns := k.peerInst, bits := c.extMatch, seq := c.seq, len := len, rts := rts,
                              key := c.extKey, offset := c.extOffset, eff := env.eff }
  let cand := s.fmtValid p && (s.mat.posted.any (fun x => s.matchesRecv x.1 env))
  if (!cand || rts) && !s.memReady then (s, .unknown)
  else if (!cand || rts) && !s.storeRoom k.inst entry.blocks then (s.bump Reg.CTL_MATCH_UNEXP_FULL, .unknown)
  else
    let id := s.mat.nextStore
    let put := fun (s : State) (x : StoreEntry) =>
      ({ s with mat := { s.mat with store := Map.set s.mat.store id x, nextStore := id + 1 } } : State)
    match s.takeRecv env with
    | (s, some z) =>
      if rts then ((put s { entry with bound := some (z, s.stampOf z) }).queuePull id, .store id)
      else match s.slot? z with
        | some x => (s, .buffer k.inst (pLaddr x.desc) (dLength x.desc) (some z))
        | none => (s, .discard)
    | (s, none) =>
      let s := (s.bump Reg.CTL_MATCH_STORED).countMatch
      let s := if s.fmtValid p then s else s.bump Reg.CTL_MATCH_BADPROTO
      (put s { entry with counted := true }, .store id)

/-- A READ_RESP fails at the initiator: the READ, or the pull, completes with the status when its READ_REQ is covered
(08 R289, 07 R269). -/
def State.noteReadFail (s : State) (h q status : Nat) : State :=
  (s.msgsOf h).foldl (fun s x => if x.2.typ = tyREADREQ ∧ x.2.seq = some q ∧ x.2.status = 0 then
    match x.2.origin with
    | .pull e => s.modEntry e (fun y => { y with status := status })
    | _ => s.modMsg x.1 (fun m => { m with status := status })
    else s) s

/-- The buffer of the receive that took stored message `e`, which fails with it (08 R300, R602). -/
def State.boundTarget (s : State) (e : Nat) : RxTarget :=
  match (s.entry? e).bind (fun x => x.bound.bind (fun b => (s.slot? b.1).map (fun y => (b.1, y)))) with
  | some (z, y) => .buffer (slotInst z) (pLaddr y.desc) (dLength y.desc) (some z)
  | none => .discard

/-- A message fails at this end with a status: nothing more of it is placed, its cells are marked received, its segments
count as complete and placed (08 R287, R294). A stored SEND is freed; a receive or READ it was for fails with it. -/
def State.failMsg (s : State) (h q status : Nat) : State :=
  match (s.conn? h).bind (fun k => k.rx.find? (fun m => m.seq == q)) with
  | none => s
  | some m =>
    if m.status ≠ 0 then s else
    let s := if m.typ = tyREADRESP then s.noteReadFail h (m.cell0.extImm % 65536) status else s
    let qs := (List.range (segsOf m.len)).map (fun i => (q + i) % 65536)
    let tgt := match m.target with
      | .buffer a b c d => RxTarget.buffer a b c d
      | .store e => s.boundTarget e
      | _ => .discard
    let s := match m.target with
      | .store e => s.freeEntry e
      | _ => s
    let marked := fun (x : Nat) => (((s.conn? h).bind (fun k => k.rec? x)).map (·.marked)).getD 0
    let acks := (qs.zip (List.range qs.length)).map (fun x =>
      ({ typ := tyACK, kind := kACK, segDone := true, dseq := x.1, cells := segCells m.len x.2, marked := marked x.1 } : CtlSay))
    let s := s.modConn h (fun k => { k.modRx q (fun m => { m with status := status, placed := m.len, target := tgt }) with
      recs := k.recs.filter (fun r => !qs.contains r.seq),
      sel := k.sel ++ qs.filter (fun x => !k.sel.contains x && !decide (dist x k.wm ≤ dist k.front k.wm)) })
    acks.foldl (fun s a => s.sayCtl h a) s

/-- F advances over every segment whose bit is set (06 R212). -/
def advanceFront : Nat → Nat → List Nat → Nat × List Nat
  | 0, f, sel => (f, sel)
  | n + 1, f, sel =>
    let q := (f + 1) % 65536
    if sel.contains q then advanceFront n q (sel.filter (· != q)) else (f, sel)
def State.moveFront (s : State) (h : Nat) : State :=
  s.modConn h (fun k => let r := advanceFront (k.sel.length + 1) k.front k.sel; { k with front := r.1, sel := r.2 })

/-- FAULT goes out for the failed message at WM + 1 (08 R294 step 2). -/
def State.faultCheck (s : State) (h : Nat) : State :=
  match s.conn? h with
  | none => s
  | some k => match k.rx.find? (fun m => m.seq == (k.wm + 1) % 65536 && m.status != 0 && !m.faultSent) with
    | none => s
    | some m =>
      let s := s.modConn h (fun k => k.modRx m.seq (fun m => { m with faultSent := true }))
      (s.bump Reg.CTL_RMA_FAULT_SENT).sayRma h rcFAULT m.seq m.status 0 0

/-- The message bytes that a cell carries, as a little-endian number. -/
def cellData (c : Cell) (seg idx : Nat) : Nat := if seg = 0 ∧ idx = 0 then c.pay.toNat / 256 ^ 32 else c.pay.toNat

/-- Writes the pieces into which the range from `va` on was split. -/
def State.writePieces (s : State) (i va : Nat) : List (Nat × Nat) → Nat → State
  | [], _ => s
  | (a, n) :: t, x => (s.dataWrite i va a n (x % 256 ^ n)).writePieces i (va + n) t (x / 256 ^ n)

/-- A run of bytes joins the runs that are here; runs that meet are one (10 R345). -/
def addRun (l : List (Nat × Nat)) (off n : Nat) : List (Nat × Nat) :=
  let near := l.filter (fun r => r.1 ≤ off + n && off ≤ r.1 + r.2)
  let lo := near.foldl (fun m r => min m r.1) off
  let hi := near.foldl (fun m r => max m (r.1 + r.2)) (off + n)
  sortBy (·.1) ((lo, hi - lo) :: l.filter (fun r => !(r.1 ≤ off + n && off ≤ r.1 + r.2)))

/-- The bytes from 0 to `n` are all here. -/
def runsHold (l : List (Nat × Nat)) (n : Nat) : Bool := n == 0 || l.any (fun r => r.1 == 0 && n ≤ r.2)

/-- The bytes of a cell of a collective message go to staging (10 R345): a child's up message, or the parent's down
message; the data starts at message byte 32. -/
def CollOp.stage (o : CollOp) (kid : Option Nat) (off n x : Nat) : CollOp :=
  match kid with
  | some i => { o with kids := Map.mod o.kids i (fun m =>
      { m with data := if m.dropped then m.data else putBytes m.data (off - 32) n x, runs := addRun m.runs (off - 32) n }) }
  | none => { o with downData := putBytes o.downData (off - 32) n x, downRuns := addRun o.downRuns (off - 32) n }
/-- What placing one cell does. -/
inductive Placed where
  | yes
  | wait
  | fail (status : Nat)
  deriving DecidableEq, Repr

/-- Places the bytes of one cell of a known message (06 R210, 07 R272). -/
def State.placeBytes (s : State) (h : Nat) (m : RxMsg) (c : Cell) : State × Placed :=
  let seg := dist c.seq m.seq
  let off := cellOffset seg c.idx
  let n := cellBytes m.len seg c.idx
  let x := cellData c seg c.idx
  match m.target with
  | .unknown => (s, .wait)
  | .buffer i va size _ =>
    let k := min n (size - off)
    if k = 0 then (s, .yes) else
    match s.access (.cell h c.seq c.idx) (s.connTile h) i (va + off) k true with
    | (s, .ready l) => (s.writePieces i (va + off) l x, .yes)
    | (s, .wait) => (s, .wait)
    | (s, .fail st) => (s, .fail st)
  | .store e => (s.modEntry e (fun y => { y with data := putBytes y.data off n x }), .yes)
  | .staging g op =>
    let kid := (s.group? g).bind (fun y => (y.children.findIdx? (fun e => e.handle == h)))
    let down := (m.cell0.pb 33 1).testBit 7
    if n = 0 ∨ (seg = 0 ∧ c.idx = 0) then (s, .yes)
    else (s.modGroup g (fun y => y.modOp op (fun o => o.stage (if down then none else kid) off n x)), .yes)
  | .request => (s, .yes)
  | .discard => (s, .yes)

/-- A segment whose cells are all placed is complete (06 R212): its bit is set, its record freed, ACK with SEG_DONE sent;
with MSG_DONE if its message is complete by it. -/
def State.completeSeg (s : State) (h q : Nat) : State :=
  match s.conn? h with
  | none => s
  | some k => match k.rec? q, k.msgFor q with
    | some r, some m =>
      let cells := segCells m.len (dist q m.seq)
      if r.map % 2 ^ cells ≠ 2 ^ cells - 1 ∨ !r.held.isEmpty ∨ (k.encrypt && !r.tagOk) ∨ m.target = .unknown then s
      else
        let done := m.full
        let last := (m.seq + segsOf m.len - 1) % 65536
        let s := s.modConn h (fun k =>
          { k.modRx m.seq (fun m => if q = last then { m with lastMarked := r.marked } else m) with
            recs := k.recs.filter (fun x => x.seq != q), sel := k.sel ++ [q] })
        let t := m.deliveredAt.getD s.t
        let s := s.sayCtl h { typ := tyACK, kind := kACK, segDone := true, dseq := q, cells := cells, marked := r.marked,
                              msgDone := done && q == last, dtime := if done && q == last then t else 0 }
        let s := if done && q != last then s.sayCtl h { typ := tyACK, kind := kACK, segDone := true, dseq := last,
                                                        cells := segCells m.len (segsOf m.len - 1), msgDone := true,
                                                        marked := m.lastMarked, dtime := t } else s
        s.moveFront h
    | _, _ => s

/-- One held cell is placed, if its message and target are known and no fence holds it. -/
def State.settleCell (s : State) (h : Nat) (c : Cell) : State :=
  match s.conn? h with
  | none => s
  | some k => match k.msgFor c.seq with
    | none => s
    | some m =>
      if m.target = .unknown ∨ k.fenced m then s else
      let off := cellBytes m.len (dist c.seq m.seq) c.idx
      match s.placeBytes h m c with
      | (s, .wait) => s
      | (s, .fail st) => (((s.bump Reg.CTL_RMA_XLT_FAULT).failMsg h m.seq st).moveFront h).faultCheck h
      | (s, .yes) =>
        let s := (s.countInst k.inst 3 off).modConn h (fun k => (k.modRec c.seq (fun r => { r with held := dropFirst c r.held })).modRx m.seq
          (fun m => { m with placed := m.placed + off,
                             deliveredAt := if m.placed + off = m.len then some s.t else m.deliveredAt }))
        s.completeSeg h c.seq

/-- A segment record goes: its map is cleared, its held cells go, and what it placed is not counted as placed any more
(06 R210, 16 R475). -/
def State.forgetRec (s : State) (h q : Nat) : State :=
  s.modConn h (fun k =>
    match k.rec? q, k.msgFor q with
    | some r, some m =>
      let seg := dist q m.seq
      let n := (((List.range (segCells m.len seg)).filter (fun i => r.map.testBit i && !r.held.any (fun c => c.idx == i))).map
        (fun i => cellBytes m.len seg i)).sum
      { k.modRx m.seq (fun m => { m with placed := m.placed - n }) with recs := k.recs.filter (fun x => x.seq != q) }
    | _, _ => { k with recs := k.recs.filter (fun x => x.seq != q) })

/-- The cell 0 of a SEND that waits for its order meets the matching point once it may (07 R255). Where the store has no
room for it, it is discarded before any effect (R260). -/
def State.settleMatch (s : State) (h : Nat) : State :=
  match s.conn? h with
  | none => s
  | some k =>
    match k.inOrder.find? (fun m => m.typ == tySEND && m.target == .unknown && (!m.ordering || (k.known m.seq &&
        k.rx.all (fun x => x.typ != tySEND || x.target != .unknown || dist m.seq k.wm ≤ dist x.seq k.wm ||
          (sContext (x.cell0)) != (sContext (m.cell0)))))) with
    | none => s
    | some m =>
      match s.matchSend h k m.cell0 with
      | (s, .unknown) => s.modConn h (fun k => { k.modRec m.seq (fun r => { r with
            map := r.map &&& (2 ^ 16384 - 2), marked := r.marked - b2n m.cell0.cm, held := r.held.filter (fun c => c.idx != 0) }) with
          rx := k.rx.filter (fun x => x.seq != m.seq) })
      | (s, t) => s.modConn h (fun k => k.modRx m.seq (fun m => { m with
          target := t, eff := s.effective (sProto m.cell0) m.cell0.extMatch k.peerEp k.peerInst }))

end Sys2Proof.Machine
end

