-- ==== Sys2Proof/Machine/CollOps.lean ====
section
/-! DEFINITION. The shared operations of collectives: headers, lengths, staging, operations in progress, agreement, spans,
the down phase (10 R336-R359). -/

namespace Sys2Proof.Machine

/-- The member of this chip and the child number that a child's message on connection `h` is for (10 R336). -/
def State.upTarget (s : State) (gid h : Nat) : Option (Nat × Nat) :=
  s.col.groups.findSome? (fun g => if g.2.gid = gid then
    (g.2.children.findIdx? (fun e => e.handle == h)).map (fun i => (g.1, i)) else none)

/-- The member of this chip that the parent's message on connection `h` is for. -/
def State.downTarget (s : State) (gid h : Nat) : Option Nat :=
  (s.col.groups.find? (fun g => g.2.gid == gid && g.2.parent.any (fun e => e.handle == h))).map (·.1)

/-- The cell 0 of a collective message on connection `h` (10 R336, R344): its target, or none where it is discarded
before any effect. A message for a group that has no member here yet is discarded so (log entry 26). -/
def State.collCell (s : State) (h : Nat) (c : Cell) : State × Option RxTarget :=
  let hdr := c.pb 32 32
  let gid := c.pb 8 4
  let opnum := c.pb 12 4
  if hAbort hdr then (s, some .discard)
  else if hDown hdr then
    match s.downTarget gid h with
    | none => (s, none)
    | some g => match s.group? g with
      | none => (s, none)
      | some x => if x.broken || (x.op? opnum).isNone then (s, some .discard) else
        (s.modGroup g (fun x => x.modOp opnum (fun o => { o with downHdr := some hdr })), some (.staging g opnum))
  else
    match s.upTarget gid h with
    | none => (s, none)
    | some (g, kid) => match s.group? g with
      | none => (s, none)
      | some x => if x.broken then (s, some .discard) else
        match s.collUp g x kid opnum hdr with
        | (s, true) => (s, some (.staging g opnum))
        | (s, false) => (s, none)

/-- The DISAGREE bits that a child's header sets at this member (10 R349). -/
def State.disagreeOf (s : State) (x : Group) (o : CollOp) (e : Edge) (h : Nat) : Nat :=
  b2n (hBlevel h != s.level) + 2 * b2n (hCount h != o.count) +
  4 * b2n (hCtype h != o.ctype || opField (hCtype h) (hOperator h) != o.operator || hFmt h != o.hdrFmt) + 8 * b2n (hRoot h != o.hdrRoot) +
  16 * b2n (hLevel h != x.level + 1 || hMembers h != e.subtree)

/-- Of two outcomes with their ORIGIN, the one that prevails (10 R351). -/
def worse (a b : Nat × Nat) : Nat × Nat :=
  if a.1 = 0 then b else if b.1 = 0 then a
  else if a.1 = stMISMATCH && b.1 != stMISMATCH then a
  else if b.1 = stMISMATCH && a.1 != stMISMATCH then b
  else if b.2 < a.2 then b else a

/-- A header (10 R344). -/
def State.collHdr (s : State) (x : Group) (o : CollOp) (down withData : Bool) (members : Nat) : Nat :=
  let wire := if !withData then 3
    else if !down && o.ctype != ctBROADCAST && o.mode == cmCOMPRESSED then 2
    else if !down && o.ctype != ctBROADCAST && o.mode == cmEXACT && !x.children.isEmpty then 1 else 0
  payOf [(0, 1, o.ctype * 16 + o.operator), (1, 1, b2n down * 128 + wire * 32 + b2n (o.hasRoot && !down) * 16),
    (2, 1, x.level), (3, 1, o.status), (4, 4, o.hdrFmt), (8, 4, o.count), (12, 4, o.hdrRoot), (16, 2, s.level),
    (18, 1, o.disagree), (20, 4, members), (24, 4, if o.status = 0 then 0 else o.origin), (28, 4, o.nonfinite)]

/-- The member's up message carries data (10 R343). -/
def CollOp.upData (o : CollOp) : Bool :=
  o.status == 0 && (o.ctype == ctREDUCE || o.ctype == ctALLREDUCE || (o.ctype == ctBROADCAST && o.hasRoot)) && o.count != 0

/-- The member forms or receives a result to pass on (10 R343). -/
def CollOp.hasResult (o : CollOp) : Bool := o.status == 0 && o.ctype != ctBARRIER && o.count != 0

/-- The down message to a child carries data (10 R343). -/
def CollOp.downTo (o : CollOp) (m : ChildMsg) : Bool :=
  o.hasResult && (o.ctype != ctREDUCE || hHasRoot m.hdr)

/-- This member places a result (10 R343). -/
def CollOp.places (o : CollOp) (rank : Nat) : Bool :=
  o.hasResult && (o.ctype == ctALLREDUCE || (o.ctype == ctREDUCE && o.root == rank) ||
    (o.ctype == ctBROADCAST && o.root != rank))

/-- The bytes of the result. -/
def CollOp.resultLen (o : CollOp) : Nat := o.count * o.elem

/-- Elements of a span: 4 KiB of elements (10 R345). -/
def CollOp.spanElems (o : CollOp) : Nat := 4096 / o.elem

/-- The blocks of a COMPRESSED contribution from element `lo` on, `n` elements (10 R358, R359). -/
def ownBlock (ty data lo n : Nat) : List (Option Int) :=
  (List.range 32).map (fun i => if i < n then cValue ty (elemAt data (elemBytes ty) (lo + i)) else some 0)

/-- One block combined: the sum of the own block, quantised, and the children's, with the elements this chip marked in
its own quantisation (10 R359). -/
def combineBlock (ty own b n : Nat) (kids : List Nat) : List (Option Int) × Nat :=
  let q := quantise (ownBlock ty own (32 * b) n)
  (kids.foldl (fun acc d => addBlocks acc (dequantise (elemAt d 33 b))) (dequantise q), marksOf q)

/-- Elements `lo` to `lo + n - 1` combined as they travel up from this member, or as the result at the root, with the
elements marked here and the elements marked in the result (10 R355-R359). -/
def combineSpan (o : CollOp) (leaf root : Bool) (kids : List (Edge × ChildMsg)) (lo n : Nat) : Nat × Nat × Nat :=
  let ty := fmtType o.fmt
  let e := o.elem
  let md := fmtRound o.fmt
  if o.ctype = ctBROADCAST then
    let src := match kids.find? (fun k => hHasRoot k.2.hdr) with
      | some k => k.2.data
      | none => o.own
    (src / 256 ^ lo % 256 ^ n, 0, 0)
  else if o.mode = cmEXACT then
    let accs := (List.range n).map (fun i =>
      kids.foldl (fun (a : Acc) k => a.add (if k.1.subtree = 1 then accOf ty (elemAt k.2.data e (lo + i))
        else accUnpack ty (elemAt k.2.data (accBytes ty) (lo + i)))) (accOf ty (elemAt o.own e (lo + i))))
    if root then (packElems e (accs.map (Acc.result ty md)), 0, 0)
    else if leaf then (o.own / 256 ^ (e * lo) % 256 ^ (e * n), 0, 0)
    else (packElems (accBytes ty) (accs.map (Acc.pack ty)), 0, 0)
  else if o.mode = cmCOMPRESSED then
    let bs := (List.range (ceilDiv n 32)).map (fun b =>
      combineBlock ty o.own (lo / 32 + b) (min 32 (n - 32 * b)) (kids.map (·.2.data)))
    let own := (bs.map (·.2)).sum
    if root then
      let els := ((bs.map (·.1)).flatten).take n
      (packElems e (els.map (cResult ty md)), own, (els.filter Option.isNone).length)
    else if leaf then
      (packElems 33 ((List.range (ceilDiv n 32)).map (fun b => quantise (ownBlock ty o.own (lo + 32 * b) (min 32 (n - 32 * b))))), own, 0)
    else
      let qs := bs.map (fun b => (quantise b.1, (b.1.filter Option.isNone).length))
      (packElems 33 (qs.map (·.1)), own + (qs.map (fun q => marksOf q.1 - q.2)).sum, 0)
  else
    (packElems e ((List.range n).map (fun i =>
      kids.foldl (fun a k => nativeStep ty o.operator md (fmtFtz o.fmt) a (elemAt k.2.data e (lo + i)))
        (elemAt o.own e (lo + i)))), 0, 0)

/-- A message to an edge grows by `n` bytes of data from `off` on; `hdr` is its header if that is settled now. -/
def State.growMsg (s : State) (id off n x : Nat) (hdr : Option Nat) : State :=
  s.modMsg id (fun m =>
    let old := putBytes (m.inline.getD 0) (32 + off) n x
    { m with inline := some (match hdr with | some h => putBytes old 0 32 h | none => old),
             avail := m.avail.map (fun _ => 32 + off + n) })

/-- A message of operation `n` of member `g` goes out on an edge's connection. One that a replay brought back with its SEQ is
filled again; one whose SEQ the neighbour's WM covers is not sent again (10 R354). -/
def State.sendColl (s : State) (g : Nat) (o : CollOp) (down : Bool) (m : TxMsg) : State × Option Nat :=
  match s.xpt.msgs.find? (fun x => x.2.origin == .collective g o.opnum down && x.2.handle == m.handle) with
  | some (id, _) => (s.modMsg id (fun y => { y with inline := m.inline, avail := m.avail }), some id)
  | none =>
    if o.sent.any (fun r => r.handle == m.handle && r.down == down) then (s, none) else
    let r := s.accept m
    (r.1, some r.2)

/-- The down message to one child: with `avail` bytes of its data, or without data (10 R343, R345). A child on this chip has the
header in its operation. -/
def State.downTo (s : State) (g : Nat) (x : Group) (o : CollOp) (e : Edge) (avail : Option Nat) : State :=
  let hdr := s.collHdr x o true avail.isSome x.members
  match s.localMember x.gid e with
  | some l => if avail = some 0 then s else
    s.modGroup l (fun y => y.modOp o.opnum (fun p => { p with downHdr := some hdr }))
  | none =>
    let r := s.sendColl g o true (collMsg e.handle x.gid o.opnum (.collective g o.opnum true) hdr 0
      (if avail.isSome then o.resultLen else 0) avail)
    r.1.modGroup g (fun y => y.modOp o.opnum (fun p => { p with down := p.down ++ r.2.toList }))

/-- The down messages that carry data come into being, with `avail` bytes to send; their header is their cell 0, which goes
first (10 R345; log entry 174). -/
def State.openDown (s : State) (g : Nat) (x : Group) (o : CollOp) (kids : List (Edge × ChildMsg)) (avail : Nat) : State :=
  (kids.filter (fun k => o.downTo k.2)).foldl (fun s k => s.downTo g x o k.1 (some avail)) s

/-- The headers without data go to the other children once the last span has gone, in record order (10 R345). -/
def State.closeDown (s : State) (g : Nat) (x : Group) (o : CollOp) (kids : List (Edge × ChildMsg)) : State :=
  (kids.filter (fun k => !o.downTo k.2)).foldl (fun s k => s.downTo g x o k.1 none) s

/-- `n` bytes of the result from `off` on go to every child that receives data (10 R345). -/
def State.forwardDown (s : State) (g : Nat) (x : Group) (o : CollOp) (kids : List (Edge × ChildMsg)) (off n d : Nat) : State :=
  let ids := ((s.group? g).bind (fun y => (y.op? o.opnum).map (·.down))).getD []
  let s := ids.foldl (fun s id => match s.msg? id with
    | some m => if m.avail.isSome then s.growMsg id off n d none else s
    | none => s) s
  kids.foldl (fun s k => match s.localMember x.gid k.1 with
    | some l => if o.downTo k.2 then s.modGroup l (fun y => y.modOp o.opnum (fun p =>
        { p with downData := putBytes p.downData off n d, downRuns := addRun p.downRuns off n })) else s
    | none => s) s

/-- What placing part of a result met. -/
inductive CollPlace where
  | done (s : State)
  | wait (s : State)

/-- `n` bytes of the result from `off` on are placed at DADDR, if this member places (10 R346). -/
def State.placeResult (s : State) (g : Nat) (x : Group) (o : CollOp) (off n d : Nat) : CollPlace :=
  match o.slot.bind s.slot? with
  | none => .done s
  | some z =>
    if !o.places x.rank || o.placeSt != 0 || n == 0 then .done s else
    match s.access (.coll g o.opnum) (s.servingTile (ownerTile g)) x.inst (cDaddr z.desc + off) n true with
    | (s, .ready l) => .done (((s.countInst x.inst 3 n).writePieces x.inst (cDaddr z.desc + off) l d).modGroup g (fun y => y.modOp o.opnum (fun p =>
        { p with placed := p.placed + n })))
    | (s, .wait) => .wait s
    | (s, .fail st) => .done (s.modGroup g (fun y => y.modOp o.opnum (fun p => { p with placeSt := st })))

/-- The member completes the operation (10 R345, R348). -/
def State.completeOp (s : State) (g : Nat) (x : Group) (o : CollOp) : State :=
  let s := ((s.bump Reg.CTL_COLL_OPS).taskEnd (.tree g o.opnum)).modGroup g (fun y => { y with ops := y.ops.filter (fun p => p.opnum != o.opnum) })
  let s := if o.lost then s.bump Reg.MEM_LOST else s
  let s := match o.slot with
    | some z => s.finishSlot z (if o.status = 0 then o.placeSt else o.status)
        (collBody o.placed o.opnum o.disagree o.origin o.nonfinite)
    | none => s
  s.enterAll x.inst

end Sys2Proof.Machine
end

