-- ==== Sys2Proof/Machine/CryptOps.lean ====
section
/-! DEFINITION. Connection encryption: nonces, the cipher over cells, tags, key epochs (08 R296-R305). -/

namespace Sys2Proof.Machine

/-- DIR of the nonce (08 R297) for a sender's and a receiver's endpoint and instance. -/
def dirBit (ep inst peerEp peerInst : Nat) : Nat := b2n (decide (peerEp * 128 + peerInst < ep * 128 + inst))

/-- The nonce of a segment (08 R297). -/
def mkNonce (epoch dir kidx rhandle : Nat) : Nat := epoch % 256 * 2 ^ 88 + dir * 2 ^ 87 + kidx % 2 ^ 48 * 2 ^ 32 + rhandle % 2 ^ 32

/-- The key epoch that covers a SEQ above WM of the peer's direction (08 R301): the newest with a boundary, since a boundary is
never above WM + 1 when it is recorded. -/
def Conn.rxEpoch (k : Conn) : Option KeyEpoch := k.keys.reverse.find? (fun e => !e.spent && e.rxFrom.isSome)

/-- The key epoch that covers a SEQ of the own direction above the peer's WM. -/
def Conn.txEpoch (k : Conn) : Option KeyEpoch := k.keys.reverse.find? (fun e => !e.spent && e.txFrom.isSome)

/-- KIDX of a received and of a sent segment (08 R297). -/
def Conn.rxKidx (k : Conn) (e : KeyEpoch) (q : Nat) : Nat := e.rxCount + dist q (k.wm + 1)
def Conn.txKidx (k : Conn) (e : KeyEpoch) (q : Nat) : Nat := e.txCount - dist k.nextSeq q

/-- The payload byte order of a block: byte 0 first. -/
def blockOf (pay : BitVec 512) (b : Nat) : Nat := ofBytesBE ((List.range 16).map (fun i => bytesLE pay (16 * b + i) 1))

/-- A little-endian payload from four big-endian blocks. -/
def payBlocks (l : List Nat) : Nat :=
  (List.range 64).foldl (fun a i => a + (l.getD (i / 16) 0) / 256 ^ (15 - i % 16) % 256 * 256 ^ i) 0

/-- Counter block `j` of a nonce (08 R296). -/
def ctrBlock (nonce j : Nat) : BitVec 128 := BitVec.ofNat 128 (nonce * 2 ^ 32 + (1 + j) % 2 ^ 32)

/-- The cipher over the payload of cell `idx`: encryption and decryption alike (08 R296). -/
def cryptPay (key : BitVec 256) (nonce idx : Nat) (pay : BitVec 512) : BitVec 512 :=
  BitVec.ofNat 512 (payBlocks ((List.range 4).map (fun b =>
    (aes256 key (ctrBlock nonce (4 * idx + b + 1))).toNat ^^^ blockOf pay b)))

/-- The additional data of a segment (08 R296). -/
def aadOf (dst src cls typ seq ins gen : Nat) : BitVec 128 :=
  BitVec.ofNat 128 (dst % 2 ^ 17 * 2 ^ 111 + src % 2 ^ 17 * 2 ^ 94 + cls % 8 * 2 ^ 91 + typ % 16 * 2 ^ 87 +
    seq % 65536 * 2 ^ 71 + ins % 128 * 2 ^ 64 + gen % 256 * 2 ^ 56)

/-- The tag of a segment over its ciphertext payloads in IDX order (08 R298). -/
def tagOf (key : BitVec 256) (nonce : Nat) (aad : BitVec 128) (cts : List (BitVec 512)) : BitVec 128 :=
  let h := aes256 key 0#128
  let blocks := (cts.map (fun c => (List.range 4).map (fun b => BitVec.ofNat 128 (blockOf c b)))).flatten
  let len := BitVec.ofNat 128 (128 * 2 ^ 64 + cts.length * 512)
  ((aad :: blocks ++ [len]).foldl (fun a b => ghashStep h a b) 0#128) ^^^ aes256 key (ctrBlock nonce 0)

/-- The tag that a received segment ought to have, by its header (08 R298). -/
def State.rxTag (s : State) (h : Nat) (k : Conn) (e : KeyEpoch) (c : Cell) (r : SegRec) : BitVec 128 :=
  let n := mkNonce e.epoch (dirBit k.peerEp k.peerInst s.addr k.inst) (k.rxKidx e r.seq) h
  tagOf e.key n (aadOf c.dst c.src c.cls c.typ r.seq c.ins c.gen) ((sortBy (·.1) r.ct).map (·.2))

/-- A received cell in clear. -/
def State.clearCell (s : State) (h : Nat) (k : Conn) (e : KeyEpoch) (c : Cell) : Cell :=
  let n := mkNonce e.epoch (dirBit k.peerEp k.peerInst s.addr k.inst) (k.rxKidx e c.seq) h
  { c with pay := cryptPay e.key n c.idx c.pay }

/-- The bytes of cell `idx` of segment `q`, which it has placed, are overwritten with zero; false where the access has to
wait. -/
def State.zeroCell (s : State) (h : Nat) (m : RxMsg) (q idx : Nat) : State × Bool :=
  let seg := dist q m.seq
  let off := cellOffset seg idx
  let n := cellBytes m.len seg idx
  match m.target with
  | .buffer i va size _ =>
    let k := min n (size - off)
    if k = 0 then (s, true) else
    match s.access (.zero h q) (s.connTile h) i (va + off) k true with
    | (s, .ready l) => (s.writePieces i (va + off) l 0, true)
    | (s, .wait) => (s, false)
    | (s, .fail _) => (s, true)
  | .store e => (s.modEntry e (fun y => { y with data := putBytes y.data off n 0 }), true)
  | _ => (s, true)

/-- The bytes that segment `q`, with record `r`, has placed are overwritten with zero, in the buffer or in the store (08 R300);
false where that has to be tried again. -/
def State.zeroSegment (s : State) (h : Nat) (m : RxMsg) (r : SegRec) : State × Bool :=
  ((List.range (segCells m.len (dist r.seq m.seq))).filter (fun i => r.map.testBit i && !r.held.any (fun c => c.idx == i))).foldl
    (fun a i => let b := a.1.zeroCell h m r.seq i; (b.1, a.2 && b.2)) (s, true)

/-- The tag of segment `q` is checked once its cells have all arrived (08 R299, R300). -/
def State.checkTag (s : State) (h q : Nat) : State :=
  match s.conn? h with
  | none => s
  | some k => match k.rec? q, k.msgFor q, k.rxEpoch with
    | some r, some m, some e =>
      let cells := segCells m.len (dist q m.seq)
      match r.tag with
      | none => s
      | some t =>
        if r.tagOk ∨ r.map % 2 ^ cells ≠ 2 ^ cells - 1 then s
        else if s.rxTag h k e m.cell0 r = t then
          (s.modConn h (fun k => k.modRec q (fun r => { r with tagOk := true }))).completeSeg h q
        else match s.zeroSegment h m r with
          | (s, true) => (((s.bump Reg.CTL_RMA_DECRYPT_FAIL).failMsg h m.seq stDECRYPT).moveFront h).faultCheck h
          | (s, false) => s
    | _, _, _ => s

/-- The older of two key epochs retires once both directions have passed its end (08 R302). A boundary, once recorded, is at
most one above the watermark of its direction, so both watermarks have then passed it. -/
def State.retireKey (s : State) (h : Nat) : State :=
  s.modConn h (fun k => match k.keys with
    | [_, e] => if e.txFrom.isSome && e.rxFrom.isSome then { k with keys := [e] } else k
    | _ => k)

/-- The own direction of an encrypted connection may send segment `q`: a handshake covers it, none is under way, and KIDX
is below 2^48 (08 R301, R303, R304). -/
def Conn.mayEncrypt (k : Conn) (q : Nat) : Bool :=
  !k.encrypt || (k.switching.isNone &&
    match k.txEpoch with
    | some e => decide (k.txKidx e q < 2 ^ 48)
    | none => false)

/-- INSTALL_KEY of `e` takes hold: the boundary, and KEY_SWITCH (08 R301). -/
def State.installKey (s : State) (h e : Nat) (key : BitVec 256) : State :=
  match s.conn? h with
  | none => s
  | some k =>
    let b := (k.peerWm + 1) % 65536
    let ke : KeyEpoch := { epoch := e, key := key }
    let s := s.modConn h (fun k => { k with
      keys := (k.keys ++ [ke]).drop (k.keys.length - 1), switching := some (e, b) })
    if k.st = .closed then (s.needContext h).openIfWork h
    else if k.st = .opened then s.sayRma h rcKEYSWITCH b 0 e 0 else s

/-- One round: a match if one is ready, every held cell that can be placed, then the tags that are still to be checked. -/
def State.settleRound (s : State) (h : Nat) : State :=
  let s := s.settleMatch h
  match s.conn? h with
  | none => s
  | some k =>
    let s := ((k.recs.map (·.held)).flatten).foldl (fun s c => s.settleCell h c) s
    ((k.recs.filter (fun r => k.encrypt && r.tag.isSome && !r.tagOk)).map (·.seq)).foldl (fun s q => s.checkTag h q) s

/-- Whatever arrivals and completions allow on connection `h` is done; `n` bounds the rounds. -/
def State.settle (s : State) (h : Nat) : Nat → State
  | 0 => s
  | n + 1 => (s.settleRound h).settle h n
def State.settleAll (s : State) (h : Nat) : State :=
  s.settle h (((s.conn? h).map (fun k => k.rx.length + 1)).getD 0)

/-- Accesses that waited on a translation of instance `i` go on (11 R373). -/
def State.retryInst (s : State) (i : Nat) : State :=
  (s.xpt.conns.filter (fun k => k.2.inst == i && k.2.recs.any (fun r => !r.held.isEmpty || r.tag.isSome))).foldl
    (fun s k => s.settleAll k.1) s

end Sys2Proof.Machine
end

