-- ==== Sys2Proof/Machine/Transport.lean ====
section
/-! DEFINITION. The meanings of the commands of the Ahning transport that a control cell or a timer brings (06 R198-R220,
08 R293). -/

namespace Sys2Proof.Machine

open Host (Outcome)

/-- The context is not on die: a miss, and the cell waits for the swap (06 R199). -/
def State.waitContext (s : State) (h : Nat) (c : Cell) : State :=
  let s := s.needContext h
  { s with rt := { s.rt with delivered := s.rt.delivered ++ [{ inp := none, cell := c }] } }

/-- A KIND, or an OP of RMA_CTRL, that is not assigned (06 R208, 08 R293). -/
def badKind (c : Cell) : Bool :=
  let k := c.pb 8 1
  (c.typ == tyACK && !(k == kACK || k == kSTATUS)) ||
  (c.typ == tyNOTICE && (k == 0 || 5 < k || (k == kRMACTRL && (c.pb 16 1 == 0 || 7 < c.pb 16 1))))

/-- A control cell of a type and kind reaches its context (06 R207, 12 R394); one of an unassigned kind is discarded. -/
def State.withCtl (s : State) (c : Cell) (typ kind : Nat) (f : State → Nat → Conn → State) : State :=
  if c.typ ≠ typ then s
  else if badKind c then s.receive c id
  else if c.pb 8 1 ≠ kind then s
  else s.receive c (fun s =>
    let h := c.pb 0 4
    match s.conn? h with
    | none => s.bump Reg.CTL_XPT_NOCTX
    | some k =>
      if c.src ≠ k.peerEp ∨ c.ins ≠ k.peerInst ∨ s.stale k then s.bump Reg.CTL_XPT_NOCTX
      else if !s.onDie h then s.waitContext h c
      else f (s.needContext h) h k)

/-- An RMA_CTRL cell of an operation reaches its context (08 R293). -/
def State.withRma (s : State) (c : Cell) (op : Nat) (f : State → Nat → Conn → State) : State :=
  if !badKind c && c.pb 16 1 != op then s else s.withCtl c tyNOTICE kRMACTRL f

/-- Fields of a control cell (06 R207). -/
def ccGen (c : Cell) : Nat := c.pb 9 1
def ccWm (c : Cell) : Nat := c.pb 12 2
def ccDseq (c : Cell) : Nat := c.pb 14 2
def ccFront (c : Cell) : Nat := c.pb 28 2

/-- An end learns the peer's generation and watermark and is OPEN (06 R201, R202, R219). SEQ values that a replay kept
stay; the others come after the peer's watermark (R233 step 5). -/
def State.enterOpen (s : State) (h gen wm front : Nat) : State :=
  match s.conn? h with
  | none => s
  | some k =>
    let seqd := (s.msgsOf h).filter (fun x => x.2.seq.isSome)
    let ahead := !seqd.isEmpty && decide (dist k.nextSeq (wm + 1) ≤ 32768)
    let s := s.modConn h (fun k => { k with
      st := .opened, openGen := s.gen k.inst, peerGen := some gen, w := 16384, expiries := 0, progress := s.t,
      peerFront := front,
      nextSeq := if ahead then k.nextSeq else (wm + 1) % 65536,
      peerWm := if seqd.isEmpty then wm else k.peerWm,
      switching := k.switching.map (fun x => (x.1, (wm + 1) % 65536)) })
    let s := if seqd.isEmpty then s else s.applyWm h wm
    match k.switching with
    | some (e, _) => s.sayRma h rcKEYSWITCH ((wm + 1) % 65536) 0 e 0
    | none => s

/-- The peer of an OPEN connection opens again: it has lost its segments above WM (06 R233), and the locks held through
the connection are abandoned (09 R330). What becomes of segments that SEG_DONE has reported R202 does not say: the model takes
them as not done and sends every cell again that was sent (log entry 170). -/
def State.peerReset (s : State) (h wm : Nat) : State :=
  let s := s.modConn h (fun k => { k with
    peerFront := wm, segs := k.segs.map (fun g => { g with done := false, again := [(0, g.next)], tagSent := false }) })
  s.abandonConn h false

/-- OPEN reaches its context (06 R202). -/
def State.takeOpen (s : State) (c : Cell) : State :=
  let h := c.pb 0 4
  match s.conn? h with
  | none => s.bump Reg.CTL_XPT_NOCTX
  | some k =>
    if c.src ≠ k.peerEp ∨ c.ins ≠ k.peerInst ∨ c.pb 4 4 ≠ k.peerHandle ∨ s.stale k ∨
        ¬(c.cls = k.cls ∨ (c.cls = 6 ∧ k.cls = 7)) then s.bump Reg.CTL_XPT_NOCTX
    else if !s.onDie h then s.waitContext h c
    else
      let s := s.needContext h
      let s := s.modConn h (fun k => { k with peerGen := some (ccGen c) })
      let s := s.sayCtl h { typ := tyNOTICE, kind := kOPENACK }
      match k.st with
      | .broken => s
      | .opened => ((s.applyWm h (ccWm c)).peerReset h (ccWm c)).jrnlConn h
      | _ => (s.enterOpen h (ccGen c) (ccWm c) (ccWm c)).jrnlConn h

/-- OPEN (06 R202). -/
def execOpenConn (c : Cell) (v : View) (s : State) : Outcome State Fault Refusal :=
  let s := s.see v
  .next (if c.typ ≠ tyNOTICE ∨ c.pb 8 1 ≠ kOPEN then s else s.receive c (fun s => s.takeOpen c))

/-- OPEN_ACK (06 R202, R208): the opener enters OPEN from the watermark it carries; to an end that is OPEN it is
progress and a watermark. -/
def execOpenAck (c : Cell) (v : View) (s : State) : Outcome State Fault Refusal :=
  .next ((s.see v).withCtl c tyNOTICE kOPENACK (fun s h k =>
    match k.st with
    | .opening => (s.enterOpen h (ccGen c) (ccWm c) (ccFront c)).jrnlConn h
    | .opened => ((s.applyWm h (ccWm c)).applyFront h (ccFront c)).progressOn h
    | _ => s))

/-- DTIME of an ACK with MSG_DONE is kept with the message that ends at DSEQ (05 R188). -/
def State.noteDtime (s : State) (h q t : Nat) : State :=
  (s.msgsOf h).foldl (fun s x => if x.2.last = some q then s.modMsg x.1 (fun m => { m with dtime := some t }) else s) s

/-- ACK (06 R212, R215, R216, R220). -/
def execAck (c : Cell) (v : View) (s : State) : Outcome State Fault Refusal :=
  .next ((s.see v).withCtl c tyACK kACK (fun s h k =>
    if k.st ≠ .opened then s else
    let s := if (c.pb 10 1).testBit 1 then s.noteDtime h (ccDseq c) (c.pb 16 8) else s
    let s := if (c.pb 10 1).testBit 0 then s.segDone h (ccDseq c) (c.pb 24 2) (c.pb 26 2) else s
    ((s.applyWm h (ccWm c)).applyFront h (ccFront c)).retireKey h))

/-- Index and length of the lowest run of cells of `n` that `map` does not hold (06 R209). -/
def lowestGap (map n : Nat) : Option (Nat × Nat) :=
  match (List.range n).find? (fun i => !map.testBit i) with
  | none => none
  | some f => some (f, ((List.range (n - f)).takeWhile (fun i => !map.testBit (f + i))).length)

/-- A STATUS entry (06 R209). -/
def statusEnt (q first count : Nat) (none done : Bool) : Nat :=
  q % 65536 + first % 16384 * 2 ^ 16 + count % 32768 * 2 ^ 30 + b2n none * 2 ^ 45 + b2n done * 2 ^ 46 + 2 ^ 47

/-- The STATUS entry of segment `q` (06 R209, 08 R299). -/
def Conn.statusOf (k : Conn) (q : Nat) : Nat :=
  if k.classify q = .duplicate then statusEnt q 0 0 false true else
  let cells := match k.msgFor q with
    | some m => segCells m.len (dist q m.seq)
    | none => 16384
  match k.rec? q with
  | none => statusEnt q 0 cells true false
  | some r =>
    if r.map = 0 then statusEnt q 0 cells true false else
    match lowestGap r.map cells with
    | some (f, n) => statusEnt q f n false false
    | none => if k.encrypt && !r.tagOk then statusEnt q (cells - 1) 1 false false else statusEnt q 0 0 false true

/-- The SEQ values that the VALID entries of a PROBE name (06 R209). -/
def probed (c : Cell) : List Nat :=
  ((List.range 4).filter (fun i => (c.pb (32 + 8 * i) 8).testBit 16)).map (fun i => c.pb (32 + 8 * i) 2)

/-- FAULT goes out again for every failed message that STATUS names a segment of (08 R294 step 3). -/
def State.faultAgain (s : State) (h : Nat) (k : Conn) (qs : List Nat) : State :=
  (k.rx.filter (fun m => m.status != 0 && m.faultSent && !m.confirmed && qs.any (fun q => decide (dist q m.seq < segsOf m.len)))).foldl
    (fun s m => (s.bump Reg.CTL_RMA_FAULT_SENT).sayRma h rcFAULT m.seq m.status 0 0) s

/-- PROBE (06 R209): STATUS answers with an entry for each segment named. An end that is not OPEN does not answer: that of a
BROKEN end would keep its peer from finding the connection UNREACHABLE (08 R305); of a CLOSED end see `openAgain` (log entry
168). -/
def execProbe (c : Cell) (s : State) : Outcome State Fault Refusal :=
  .next (s.withCtl c tyNOTICE kPROBE (fun s h k =>
    if k.st ≠ .opened then s.openAgain h k else
    let qs := probed c
    let list := (qs.zip (List.range 4)).foldl (fun a x => a + k.statusOf x.1 * 256 ^ (8 * x.2)) 0
    (s.sayCtl h { typ := tyACK, kind := kSTATUS, list := list }).faultAgain h k qs))

/-- What one STATUS entry asks for (06 R217); cells that were never sent are not asked again. -/
def State.takeEntry (s : State) (h e : Nat) : State :=
  let q := e % 65536
  if !e.testBit 47 then s
  else if e.testBit 46 then s.segKnown h q
  else s.modConn h (fun k => { k with segs := k.segs.map (fun g =>
    if g.seq ≠ q ∨ g.done then g
    else if e.testBit 45 then { g with again := [(0, g.next)] }
    else
      let f := nbits e 29 16
      let n := min (nbits e 44 30) (g.next - f)
      if n = 0 then g else { g with again := [(f, n)] }) })

/-- STATUS (06 R216, R217). -/
def execStatus (c : Cell) (v : View) (s : State) : Outcome State Fault Refusal :=
  .next ((s.see v).withCtl c tyACK kSTATUS (fun s h k =>
    if k.st ≠ .opened then s else
    let s := (List.range 4).foldl (fun s i => s.takeEntry h (c.pb (32 + 8 * i) 8)) s
    ((s.applyWm h (ccWm c)).applyFront h (ccFront c)).progressOn h))

/-- The peer's WM has passed the first SEQ of message `m`. -/
def Conn.begun (k : Conn) (m : TxMsg) : Bool := m.seq.any (fun q => decide (dist k.peerWm q < 32768))

/-- The SEQ that SOURCE_FAULT names: the first of the message, or of what is left of it where the peer, which held no cell 0,
has taken the failure as one of one segment (08 R602, log entry 23). -/
def Conn.faultSeq (k : Conn) (m : TxMsg) : Nat := if k.begun m then (k.peerWm + 1) % 65536 else m.seq.getD 0

/-- The messages of connection `h` whose source data could not be read and for which no FAULT has come (08 R602). -/
def State.sourceFailed (s : State) (h : Nat) : List TxMsg :=
  ((s.msgsOf h).map (·.2)).filter (fun m => m.stopped && m.seq.isSome &&
    (!m.reported || (s.conn? h).any (fun k => k.begun m)))

/-- PROBE names up to four of the oldest segments not known to be complete (06 R217). -/
def State.sayProbe (s : State) (h : Nat) (k : Conn) : State :=
  let qs := ((k.segs.filter (fun g => !g.done && g.next != 0)).map (·.seq)).take 4
  if qs.isEmpty then s else
  let list := (qs.zip (List.range 4)).foldl (fun a x => a + (x.1 + 65536) * 256 ^ (8 * x.2)) 0
  (s.bump Reg.CTL_XPT_PROBE).sayCtl h { typ := tyNOTICE, kind := kPROBE, list := list }

/-- The timer of connection `h` expires without progress (06 R216-R218, 08 R301, R602). -/
def State.timerExpiry (s : State) (h : Nat) : State :=
  match s.conn? h with
  | none => s
  | some k =>
    if !(k.timerRuns || !(s.sourceFailed h).isEmpty) then s
    else if s.fld (F.CTL_XPT_RETRY_RETRY_LIMIT k.cls) ≤ k.expiries + 1 then
      (s.bump Reg.CTL_XPT_UNREACH).breakConn h stUNREACHABLE
    else
      let s := s.modConn h (fun k => { k with expiries := k.expiries + 1, lastCell := s.t })
      if k.st = .opening then s.sayCtl h { typ := tyNOTICE, kind := kOPEN } else
      let s := match k.switching with
        | some (e, b) => s.sayRma h rcKEYSWITCH b 0 e 0
        | none => s
      let s := (s.sourceFailed h).foldl (fun s m => s.sayRma h rcSOURCEFAULT (k.faultSeq m) stINTEGRITY 0 0) s
      s.sayProbe h k

/-- RETRANSMISSION_TIMER (06 R216). -/
def execRetransmissionTimer (h : Word) (v : View) (s : State) : Outcome State Fault Refusal :=
  .next ((s.see v).timerExpiry h.toNat)

/-- REMOTE_GENERATION (06 R203): the connection breaks, and the locks held through it are abandoned (09 R330). -/
def execRemoteGeneration (c : Cell) (v : View) (s : State) : Outcome State Fault Refusal :=
  .next ((s.see v).withCtl c tyNOTICE kREMOTEGEN (fun s h _ => (s.breakConn h stREMOTEGEN).abandonConn h true))

/-- A free on-die entry of instance `i` (06 R198). Which one is free (log entry 31). -/
def State.freeEntryOf (s : State) (i : Nat) : Option Nat :=
  let used := (s.xpt.conns.filter (fun k => k.2.inst == i)).filterMap (fun k => match k.2.place with
    | .onDie n => some n
    | .backup n => some n
    | _ => none)
  let n := 65536 / max 1 s.nInst
  pickBelow n n (Config.freeChoice s.draws) (fun x => !used.contains x && s.tileActive (s.ctxTile i x))

/-- The least recently used on-die context of instance `i`, with its entry (06 R199). -/
def State.lruOf (s : State) (i : Nat) : Option (Nat × Nat) :=
  let l := (s.xpt.conns.filter (fun k => k.2.inst == i)).filterMap (fun k => match k.2.place with
    | .onDie n => if s.tileActive (s.ctxTile i n) then some (k.2.used, k.1, n) else none
    | _ => none)
  ((sortBy (fun x => x.1) l).head?).map (·.2)

/-- The entry whose backup copy holds the context, if its tile is ACTIVE (01 R15, 17 R503). -/
def State.homeOf (s : State) (k : Conn) : Option Nat :=
  match k.place with
  | .backup n => if s.tileActive (s.ctxTile k.inst n) then some n else none
  | _ => none

/-- The missing context of `h` takes an on-die entry, and what that entry held takes its slot (06 R199). The connection
records follow their contexts (R225). -/
def State.swapIn (s : State) (h : Nat) : State :=
  match s.conn? h with
  | none => s
  | some k =>
    if s.onDie h || (s.sleepingTile h).isSome || !s.memReady then s else
    match s.homeOf k <|> s.freeEntryOf k.inst with
    | some n => (s.drawn.modConn h (fun c => { c with place := .onDie n, used := s.t })).jrnlConn h
    | none => match s.lruOf k.inst with
      | none => s
      | some (g, n) =>
        let s := s.modConn g (fun c => { c with place := k.place })
        ((s.modConn h (fun c => { c with place := .onDie n, used := s.t })).jrnlConn g).jrnlConn h

/-- CONTEXT_SWAP_COMPLETE (06 R199). -/
def execContextSwapComplete (h : Word) (s : State) : Outcome State Fault Refusal :=
  .next (if s.xpt.swaps.contains h.toNat then
    (({ s with xpt := { s.xpt with swaps := s.xpt.swaps.filter (· != h.toNat) } } : State).swapIn h.toNat).openIfWork h.toNat
    else s)

end Sys2Proof.Machine
end

