-- ==== Sys2Proof/Machine/Rma.lean ====
section
/-! DEFINITION. The meanings of the RMA_CTRL cells and of a failed source read (08 R293-R304, R602). -/

namespace Sys2Proof.Machine

open Host (Outcome)

/-- A notice of instance `i`'s notice queue that nothing waits for: it is written, or waits in the device; with no usable
queue it is discarded (08 R290-R292). -/
def State.postNotice (s : State) (i : Nat) (c : Cqe) : State :=
  if s.noticeUsable i then
    let q := s.noticeQueue i
    let s := if (s.queue? q).any (fun x => !(x.waiting.isEmpty && 0 < x.room)) then s.bump Reg.CTL_RMA_NOTICE_WAIT else s
    s.post q c .none
  else s.bump Reg.CTL_RMA_NOTICE_LOST

/-- An IMM_NOTICE (08 R291). -/
def immNotice (status typ h imm bytes seq : Nat) : Cqe :=
  BitVec.ofNat 256 (payOf [(0, 1, status), (1, 1, 0x10), (2, 1, typ), (4, 4, h), (8, 8, imm), (16, 4, bytes), (20, 2, seq)])

/-- The sending end records a failure that FAULT reports, by what it holds (08 R294 step 4, 07 R269, 09 R312). Of a READ_RESP it
only counts the failure; in which counter the spec does not say (log entry 171). -/
def State.recordFault (s : State) (h id st : Nat) (m : TxMsg) : State :=
  if m.reported then s else
  let s := s.modMsg id (fun m => { m with status := st, reported := true })
  match m.origin with
  | .desc z => s.finishSlot z st (bytesBody 0)
  | .pull e => s.modEntry e (fun x => { x with status := st })
  | .readResp _ _ =>
    match s.conn? h with
    | some k => if st = stDECRYPT then s.postNotice k.inst (immNotice stDECRYPT m.typ h 0 0 (m.seq.getD 0))
      else s.bump Reg.CTL_RMA_XLT_FAULT
    | none => s
  | _ => s

/-- The message on connection `h` whose first SEQ is `q`. -/
def State.msgAt (s : State) (h q : Nat) : Option (Nat × TxMsg) := (s.msgsOf h).find? (fun x => x.2.seq == some q)

/-- FAULT (08 R294 steps 4 and 5): its WM is applied, the failure is recorded once, and FAULT_CONFIRM answers. -/
def execFault (c : Cell) (v : View) (s : State) : Outcome State Fault Refusal :=
  .next ((s.see v).withRma c rcFAULT (fun s h k =>
    if k.st = .broken then s else
    let s := s.applyWm h (ccWm c)
    let s := match s.msgAt h (ccDseq c) with
      | some (id, m) => s.recordFault h id (c.pb 17 1) m
      | none => s
    (s.sayRma h rcCONFIRM (ccDseq c) 0 0 0).progressOn h))

/-- FAULT_CONFIRM (08 R294 step 6): the failed message counts as complete. -/
def execFaultConfirm (c : Cell) (s : State) : Outcome State Fault Refusal :=
  .next (s.withRma c rcCONFIRM (fun s h _ =>
    s.modConn h (fun k => k.modRx (ccDseq c) (fun m => if m.faultSent then { m with confirmed := true } else m))))

/-- The READ_REQ that message `m` of connection `h` answers cannot be served: it fails with `st`, by which the READ, or the pull
and its SEND, end (07 R268, 08 R295, R602). -/
def State.failServed (s : State) (h st : Nat) (m : TxMsg) : State :=
  match m.origin with
  | .readResp q _ => (((s.bump Reg.CTL_RMA_XLT_FAULT).failMsg h q st).moveFront h).faultCheck h
  | _ => s

/-- The source data of message `id` cannot be read (08 R602 steps 1 and 2); before a SEQ is assigned the descriptor
completes at once. -/
def State.sourceLost (s : State) (id : Nat) : State :=
  match s.msg? id with
  | none => s
  | some m =>
    if m.stopped then s else
    match m.seq with
    | some _ =>
      let s := (s.modMsg id (fun m => { m with stopped := true })).failServed m.handle stINTEGRITY m
      s.sayRma m.handle rcSOURCEFAULT (((s.conn? m.handle).map (fun k => k.faultSeq m)).getD 0) stINTEGRITY 0 0
    | none =>
      let s := s.dropMsg id
      match m.origin with
      | .desc z => s.finishSlot z stINTEGRITY (bytesBody 0)
      | _ => s.failServed m.handle stINTEGRITY m

/-- A read of the source data of message `id` fails at its host port. `timeout`: the read had no completion, else its data
was poisoned (18 R525). -/
def State.sourceReadFail (s : State) (id : Nat) (timeout : Bool) : State :=
  match s.msg? id with
  | none => s
  | some m =>
    let i := ((s.conn? m.handle).map (·.inst)).getD 0
    (s.raise (blkHPT (s.portOf i)) (if timeout then 3 else 2) (s.fnOf i)).sourceLost id

/-- SOURCE_READ_FAIL (08 R602). -/
def execSourceReadFail (id : Nat) (timeout : Bool) (v : View) (s : State) : Outcome State Fault Refusal :=
  .next ((s.see v).sourceReadFail id timeout)

/-- The receiving end fails the message with INTEGRITY (08 R602 step 3). A message whose cell 0 has not arrived is taken
as one segment of unknown type; a SOURCE_FAULT that comes again has FAULT sent again (log entry 23). -/
def State.takeSourceFault (s : State) (h q : Nat) (c : Cell) : State :=
  match s.conn? h with
  | none => s
  | some k =>
    if k.st ≠ .opened then s else
    match k.rx.find? (fun m => m.seq == q) with
    | some m =>
      if m.status ≠ 0 then (if m.faultSent && !m.confirmed then
        (s.bump Reg.CTL_RMA_FAULT_SENT).sayRma h rcFAULT q m.status 0 0 else s)
      else (((s.bump Reg.CTL_RMA_XLT_FAULT).failMsg h q stINTEGRITY).moveFront h).faultCheck h |>.settleAll h
    | none =>
      if k.classify q ≠ .accepted ∨ (k.msgFor q).isSome then s else
      let m : RxMsg := { seq := q, typ := 0, len := 0, cell0 := c }
      let s := s.modConn h (fun k => { k with rx := k.rx ++ [m] })
      (((s.bump Reg.CTL_RMA_XLT_FAULT).failMsg h q stINTEGRITY).moveFront h).faultCheck h |>.settleAll h

/-- SOURCE_FAULT (08 R602). -/
def execSourceFault (c : Cell) (s : State) : Outcome State Fault Refusal :=
  .next (s.withRma c rcSOURCEFAULT (fun s h _ => s.takeSourceFault h (ccDseq c) c))

/-- TAG (08 R299): the tag is kept with the segment's record and checked once every cell is there. -/
def execTag (c : Cell) (s : State) : Outcome State Fault Refusal :=
  .next (s.withRma c rcTAG (fun s h k =>
    if k.st ≠ .opened ∨ !k.encrypt then s else
    let t := BitVec.ofNat 128 (ofBytesBE ((List.range 16).map (fun i => c.pb (32 + i) 1)))
    let s := s.modConn h (fun k => k.modRec (ccDseq c) (fun r => if r.tagOk then r else { r with tag := some t }))
    (s.checkTag h (ccDseq c)).settleAll h))

/-- The receiving end takes the boundary `b` of epoch `e` (08 R301 step 3). Incomplete segments, all of which lie from `b` on, are
received again under the new epoch; what their messages have met stays. -/
def State.takeKeySwitch (s : State) (h e b : Nat) : State :=
  match s.conn? h with
  | none => s
  | some k =>
    if !k.encrypt then s.bump Reg.CTL_RMA_NO_KEY
    else if !k.keys.any (fun x => x.epoch == e && !x.spent) then s
    else
      let s := if k.keys.any (fun x => x.epoch == e && x.rxFrom == some b) then s else
        let s := k.recs.foldl (fun s r => s.forgetRec h r.seq) s
        s.modConn h (fun k => { k with
          keys := k.keys.map (fun x => if x.epoch = e then { x with rxFrom := some b, rxCount := dist (k.wm + 1) b } else x) })
      (s.sayRma h rcKEYACK b 0 e 0).retireKey h

/-- KEY_SWITCH (08 R301, R305). -/
def execKeySwitch (c : Cell) (s : State) : Outcome State Fault Refusal :=
  .next (s.withRma c rcKEYSWITCH (fun s h _ => s.takeKeySwitch h (c.pb 18 1) (ccDseq c)))

/-- KEY_SWITCH_ACK (08 R301 step 4): segments from the boundary on go out under the new epoch. -/
def execKeySwitchAck (c : Cell) (s : State) : Outcome State Fault Refusal :=
  .next (s.withRma c rcKEYACK (fun s h k =>
    if k.switching ≠ some (c.pb 18 1, ccDseq c) then s else
    let b := ccDseq c
    let e := c.pb 18 1
    let s := s.modConn h (fun k => { k with
      switching := none,
      keys := k.keys.map (fun x => if x.epoch = e then { x with txFrom := some b, txCount := dist k.nextSeq b } else x),
      segs := k.segs.map (fun g => if dist g.seq b < 32768 && !g.done then
        { g with again := if g.next = 0 then [] else [(0, g.next)], tagSent := false, ct := [] } else g) })
    ((s.bump Reg.CTL_RMA_KEY_SWITCH).progressOn h).retireKey h))

/-- NO_KEY (08 R304): the installed key is spent, and that of the epoch before is gone, as after a replay. -/
def execNoKey (c : Cell) (s : State) : Outcome State Fault Refusal :=
  .next (s.withRma c rcNOKEY (fun s h _ =>
    s.modConn h (fun k => { k with switching := none,
                                   keys := (k.keys.drop (k.keys.length - 1)).map (fun e => { e with spent := true }) })))

end Sys2Proof.Machine
end

