-- ==== Sys2Proof/Machine/Target.lean ====
section
/-! DEFINITION. The meanings of the commands of the receiving end: an arriving data cell, and the advance of WM
(06 R203-R214, 07 R255-R261, 08 R287-R292, 09 R314, R315, R317). -/

namespace Sys2Proof.Machine

open Host (Outcome)

/-- The rendezvous SEND that has not completed and that a pull names by RTS_SEQ: its slot (07 R268). -/
def State.rdvSend (s : State) (h q : Nat) : Option (Nat × Slot) :=
  s.obj.slots.find? (fun x => x.2.rdv && x.2.phase == .running && dHandle x.2.desc == h && x.2.seq == some q)

/-- Local address and key of a descriptor with the body of 07 R242 or 08 R283. -/
def dLaddr (e : Entry) : Nat := bytesLE e 40 6
def dLkey (e : Entry) : Nat := bytesLE e 48 4

/-- READ_LEN and the pull word of a READ_REQ (08 R288, 07 R267). -/
def rqLen (c : Cell) : Nat := c.pb 32 4
def rqPull (c : Cell) : Bool := c.extImm.testBit 63

/-- What the check of a cell 0 gives (08 R287, 07 R268). -/
inductive Admit where
  /-- The message is known; `target` may still be unknown. -/
  | take (t : RxTarget) (key : Option Nat)
  | fail (status : Nat) (counted : Bool)
  /-- Discarded before any effect: the transport sends it again. -/
  | drop
  deriving DecidableEq, Repr

/-- The check of a READ_REQ (08 R287, 07 R268, R271). -/
def State.admitRead (s : State) (h : Nat) (k : Conn) (c : Cell) : Admit :=
  let ok := rqLen c == 0 || s.keyOk k.inst c.extKey (some k.pd) (some acREMOTER) c.extOffset (rqLen c)
  if rqPull c then
    match s.rdvSend h (c.extImm % 65536) with
    | none => .take .request none
    | some (_, x) =>
      let off := dLaddr x.desc - (s.region k.inst (dLkey x.desc)).vbase
      if c.extKey != dLkey x.desc || c.extOffset != off || dLength x.desc < rqLen c then .fail stPROTECTION false
      else if ok then .take .request (if rqLen c = 0 then none else some c.extKey) else .fail stPROTECTION true
  else if ok then .take .request (if rqLen c = 0 then none else some c.extKey) else .fail stPROTECTION true

/-- Where the data of a READ_RESP goes, by its REQ_SEQ (08 R289, 07 R266). -/
def State.admitResp (s : State) (h : Nat) (k : Conn) (c : Cell) : Admit :=
  match s.msgAt h (c.extImm % 65536) with
  | none => .take .discard none
  | some (_, m) =>
    if m.typ ≠ tyREADREQ then .take .discard none else
    match m.origin with
    | .desc z => match s.slot? z with
      | some x => .take (.buffer k.inst (dLaddr x.desc) (dLength x.desc) (some z)) none
      | none => .take .discard none
    | .pull e => match (s.entry? e).bind (fun y => y.bound.bind (fun b => (s.slot? b.1).map (fun x => (b.1, x)))) with
      | some (z, x) => .take (.buffer k.inst (pLaddr x.desc) (dLength x.desc) (some z)) none
      | none => .take .discard none
    | _ => .take .discard none

/-- The check of a cell 0 by its type. -/
def State.admitCell (s : State) (h : Nat) (k : Conn) (c : Cell) : State × Admit :=
  let n := c.extLength
  let s := if ((c.typ = tyWRITE ∨ c.typ = tyWRITEIMM) ∧ n ≠ 0) ∨ (c.typ = tyREADREQ ∧ rqLen c ≠ 0) then s.lookKey else s
  if c.typ = tyWRITE ∨ c.typ = tyWRITEIMM then
    if c.typ = tyWRITEIMM && !s.noticeUsable k.inst then (s, .fail stPROTECTION true)
    else if n != 0 && !s.keyOk k.inst c.extKey (some k.pd) (some acREMOTEW) c.extOffset n then (s, .fail stPROTECTION true)
    else (s, .take (.buffer k.inst ((s.region k.inst c.extKey).vbase + c.extOffset) n none)
      (if n = 0 then none else some c.extKey))
  else if c.typ = tyREADREQ then (s, s.admitRead h k c)
  else if c.typ = tyREADRESP then (s, s.admitResp h k c)
  else if c.typ = tyATOMICREQ ∨ (c.typ = tyLOCKREQ ∧ c.extImm % 4 ≠ 3) then
    (if (s.newSlot k.inst).isNone then (s.bump Reg.ATU_SLOT_WAIT, .drop) else (s, .take .request none))
  else if c.typ = tyCOLLECTIVE then
    match s.collCell h c with
    | (s, some t) => (s, .take t none)
    | (s, none) => (s, .drop)
  else if c.typ = tySEND then (s, .take .unknown none)
  else (s, .take .request none)

/-- The message of a cell 0 (06 R211, R214, 07 R255), for instance `i`, whose notice queue is tested now (08 R290). -/
def State.rxMsgOf (s : State) (i : Nat) (c : Cell) (t : RxTarget) (key : Option Nat) : RxMsg :=
  { seq := c.seq, typ := c.typ, len := c.extLength, cell0 := c, fence := c.fnc, target := t, key := key,
    note := if s.noticeUsable i then some (s.noticeQueue i) else none,
    ordering := c.typ == tySEND && s.fmtOrdered (sProto c) }

/-- A cell 0 whose message is not known yet is checked, and its message becomes known; false where the cell is
discarded. -/
def State.meet (s : State) (h : Nat) (k : Conn) (c : Cell) : State × Bool :=
  if c.idx ≠ 0 ∨ !c.isFirst ∨ (k.msgFor c.seq).isSome then (s, true) else
  match s.admitCell h k c with
  | (s, .drop) => (s, false)
  | (s, .take t key) => (s.modConn h (fun k => { k with rx := k.rx ++ [s.rxMsgOf k.inst c t key] }), true)
  | (s, .fail st counted) =>
    let s := s.modConn h (fun k => { k with rx := k.rx ++ [s.rxMsgOf k.inst c .discard none] })
    let s := if counted then s.bump Reg.CTL_RMA_KEY_FAULT else s
    (((s.failMsg h c.seq st).moveFront h).faultCheck h, true)

/-- The cell is no longer held, and its IDX not received: the hold store has no room for it (06 R210). A cell 0 that
waited to be matched takes its message with it. -/
def State.unhold (s : State) (h : Nat) (c : Cell) : State :=
  (s.bump Reg.CTL_XPT_HOLD_DROP).modConn h (fun k =>
    { k.modRec c.seq (fun r => { r with held := dropFirst c r.held, map := r.map - 2 ^ c.idx, marked := r.marked - b2n c.cm, ct := Map.erase r.ct c.idx }) with
      rx := if c.idx = 0 then k.rx.filter (fun m => !(m.seq == c.seq && m.target == .unknown)) else k.rx })

/-- The cell waits to be matched, and is counted so once (07 R255). -/
def State.countHeld (s : State) (h : Nat) (c : Cell) : State :=
  match (s.conn? h).bind (fun k => k.rx.find? (fun m => m.seq == c.seq)) with
  | some m => if c.idx = 0 && m.ordering && m.target == .unknown && m.cell0 == c then s.bump Reg.CTL_MATCH_HELD else s
  | none => s

/-- A cell that is new in its segment record is placed or held (06 R210). -/
def State.landCell (s : State) (h : Nat) (k : Conn) (c : Cell) : State :=
  let plain := match k.encrypt, k.rxEpoch with
    | true, some e => s.clearCell h k e c
    | _, _ => c
  if (k.msgFor c.seq).any (fun m => decide (segCells m.len (dist c.seq m.seq) ≤ c.idx)) then s else
  match s.meet h k plain with
  | (s, false) => s
  | (s, true) =>
    let s := s.modConn h (fun k => k.modRec c.seq (fun r => { r with
      map := r.map ||| 2 ^ c.idx, marked := r.marked + b2n c.cm, held := r.held ++ [plain],
      ct := if k.encrypt then Map.set r.ct c.idx c.pay else r.ct }))
    let s := if k.encrypt then s.checkTag h c.seq else s
    let s := s.settleAll h
    let stays := ((s.conn? h).bind (fun k => k.rec? c.seq)).any (fun r => r.held.contains plain)
    if stays && decide (1048576 / max 1 s.nInst < s.heldCells k.inst) then s.unhold h plain else s.countHeld h plain

/-- A new segment record. -/
def State.newRec (s : State) (h q : Nat) : State := s.modConn h (fun k => { k with recs := k.recs ++ [{ seq := q }] })

/-- The record of instance `i` whose segment lies furthest above its own connection's F, but for those of a segment
F + 1: its connection and SEQ (06 R210). -/
def State.furthest (s : State) (i : Nat) : Option (Nat × Nat) :=
  let l := ((s.xpt.conns.filter (fun k => k.2.inst == i)).map (fun k =>
    (k.2.recs.filter (fun r => dist r.seq k.2.front != 1)).map (fun r => (dist r.seq k.2.front, k.1, r.seq)))).flatten
  ((sortBy (fun x => 65536 - x.1) l).head?).map (·.2)

/-- A record is reclaimed, and counted (06 R210). -/
def State.reclaim (s : State) (h q : Nat) : State := (s.bump Reg.CTL_XPT_SEG_DROP).forgetRec h q

/-- An accepted cell (06 R210). -/
def State.acceptCell (s : State) (h : Nat) (k : Conn) (c : Cell) : State :=
  match k.rec? c.seq with
  | some r => if r.map.testBit c.idx then s.bump Reg.CTL_XPT_DUP else s.landCell h k c
  | none =>
    if s.recsOf k.inst < 65536 / max 1 s.nInst then (s.newRec h c.seq).landCell h k c
    else if dist c.seq k.front ≠ 1 then s.bump Reg.CTL_XPT_SEG_DROP
    else match s.furthest k.inst with
      | some (g, q) =>
        let s := s.reclaim g q
        (s.newRec h c.seq).landCell h ((s.conn? h).getD k) c
      | none => s.bump Reg.CTL_XPT_SEG_DROP

/-- A data cell of an OPEN connection, by its SEQ (06 R206, 08 R304). -/
def State.classCell (s : State) (h : Nat) (k : Conn) (c : Cell) : State :=
  match k.classify c.seq with
  | .duplicate => (s.bump Reg.CTL_XPT_DUP).sayCtl h { typ := tyACK, kind := kACK }
  | .beyond => s.bump Reg.CTL_XPT_OOW
  | .accepted =>
    if k.encrypt && k.rxEpoch.isNone then (s.bump Reg.CTL_RMA_NO_KEY).sayRma h rcNOKEY c.seq 0 0 0
    else s.acceptCell h k c

/-- The checks of a data cell, in their order (06 R203, 12 R394, 15 R461). -/
def State.dataCell (s : State) (c : Cell) : State :=
  if isCtlTyp c.typ then s else
  match s.connBy c.src c.ins c.cls with
  | none => s.bump Reg.CTL_XPT_NOCTX
  | some (h, k) =>
    if !s.onDie h then s.waitContext h c
    else if k.st ≠ .opened then (s.bump Reg.CTL_XPT_NOCTX).openAgain h k
    else if s.stale k then
      (if c.typ = tyLOCKRESP then s.bump Reg.CTL_XPT_NOCTX else s.sayCtl h { typ := tyNOTICE, kind := kREMOTEGEN })
    else if k.peerGen ≠ some c.gen then s.bump Reg.CTL_XPT_GEN_DROP
    else if !s.fnUp (s.portOf k.inst) (s.fnOf k.inst) then s.bump (Reg.HPT_SUSPEND_DROP (s.portOf k.inst))
    else (s.needContext h).classCell h k c

/-- DATA_CELL (06 R203, R206, R210). -/
def execDataCell (c : Cell) (s : State) : Outcome State Fault Refusal :=
  .next (if isMsgTyp c.typ then s.receive c (fun s => s.dataCell c)
    else if isCtlTyp c.typ then s else s.receive c id)

/-- A completion or notice that the advance over a message issues (06 R213, 07 R258, R268, 08 R291, 09 R312, R317). -/
inductive Due where
  | slot (z status body : Nat)
  /-- A notice, and its queue if that was usable when the message was checked (08 R290). -/
  | note (q : Option Nat) (c : Cqe)
  deriving DecidableEq, Repr

/-- It is a notice. -/
def Due.isNote : Due → Bool
  | .note _ _ => true
  | .slot _ _ _ => false

/-- The outstanding descriptor of opcode `lo` to `hi` on connection `h` whose message has SEQ `q`. -/
def State.slotAt (s : State) (h q lo hi : Nat) : Option Nat :=
  (s.obj.slots.find? (fun x => x.2.phase == .running && dHandle x.2.desc == h && x.2.seq == some q &&
    lo ≤ dOpcode x.2.desc && dOpcode x.2.desc ≤ hi)).map (·.1)

/-- The body of the completion of an ATOMIC or a lock operation (09 R312). -/
def atomicBody (word waiters : Nat) : Nat := payOf [(0, 8, word), (8, 2, waiters)]

/-- The lock that a lock word names at the end that owns it: the one that connection `h` was granted by that word, as 2^48 RKEY +
ROFFSET; of several the message does not say which, and none of them names a lock that this end does not know (log entry
27). -/
def State.lockNamed (s : State) (h word : Nat) : Nat :=
  let l := (((s.conn? h).map (·.locks)).getD []).filter (fun x => x.2 == word)
  match l[Config.freeChoice s.draws % max 1 l.length]? with
  | some x => x.1
  | none => (Config.freeWord s.draws).toNat % 2 ^ 48 + (Config.freeWord (s.draws + 1)).toNat % 2 ^ 32 * 2 ^ 48

/-- The inheritance notice that a LOCK_RESP with INHERIT brings (09 R327). The message names the new level and the lock
word. -/
def State.inheritCqe (s : State) (h : Nat) (c : Cell) : Cqe :=
  let w := c.pb 32 8
  let l := s.lockNamed h w
  BitVec.ofNat 256 (payOf [(0, 1, stSUCCESS), (1, 1, 0x20), (2, 1, nbits c.extImm 26 24), (3, 1, 1), (4, 4, h),
    (8, 6, l), (14, 2, w), (16, 4, l / 2 ^ 48)])

/-- The notice of a message that failed its tag (08 R291). -/
def tagNote (h : Nat) (m : RxMsg) : List Due :=
  if m.status = stDECRYPT then [.note m.note (immNotice stDECRYPT m.typ h 0 0 m.seq)] else []

/-- What the message's end completes once WM advances over it; a tag failure that no completion of a receive or a READ reports
has a notice (08 R291). -/
def State.dueOf (s : State) (h : Nat) (k : Conn) (m : RxMsg) : List Due :=
  let bad := m.status != 0
  if m.typ = tySEND then
    match m.target with
    | .buffer _ _ size (some z) =>
      if bad then [.slot z m.status (recvFail m.status m.eff k.peerEp k.peerInst)]
      else [.slot z (if size < m.len then stTRUNCATED else stSUCCESS) (recvBody (min m.len size) m.eff k.peerEp k.peerInst)]
    | _ => tagNote h m
  else if m.typ = tyATOMICRESP then
    match s.slotAt h (m.cell0.extImm % 65536) opATOMIC opATOMIC with
    | some z => .slot z (if bad then m.status else stSUCCESS) (if bad then 0 else atomicBody (m.cell0.pb 32 8) 0) :: tagNote h m
    | none => tagNote h m
  else if m.typ = tyLOCKRESP then
    if m.cell0.extImm.testBit 63 then (if bad then tagNote h m else [.note m.note (s.inheritCqe h m.cell0)])
    else match s.slotAt h (m.cell0.extImm % 65536) opACQUIRE opRELEASE with
      | some z =>
        if bad then .slot z m.status 0 :: tagNote h m
        else
          let st := nbits m.cell0.extImm 23 16
          [.slot z st (atomicBody (if st = stSUCCESS ∨ st = stABANDONED then m.cell0.pb 32 8 else 0)
            (nbits m.cell0.extImm 47 32))]
      | none => tagNote h m
  else if m.typ = tyREADREQ && rqPull m.cell0 then
    match s.rdvSend h (m.cell0.extImm % 65536) with
    | some (z, _) => .slot z (if bad then m.status else stSUCCESS) (bytesBody (if bad then 0 else rqLen m.cell0)) :: tagNote h m
    | none => tagNote h m
  else if m.typ = tyREADRESP then []
  else if m.typ = tyWRITEIMM && !bad then [.note m.note (immNotice stSUCCESS m.typ h m.cell0.extImm m.len m.seq)]
  else tagNote h m

/-- Queue `q` is a completion queue of instance `i` still. -/
def State.noteCq (s : State) (i q : Nat) : Bool := s.isCq q && s.instOfQueue q == i

/-- The queue in which a due completion needs a free entry. -/
def State.dueQueue (s : State) (k : Conn) (d : Due) : Option Nat :=
  match d with
  | .note q _ => q.filter (s.noteCq k.inst)
  | .slot z st _ => match s.slot? z with
    | some x => if st = stSUCCESS && !dSignal x.desc && dOpcode x.desc ≤ 5 then none else some x.cq
    | none => none

/-- A message is complete by its own conditions (06 R212, R213, 08 R289, R294, 09 R316, 10 R345, R352). -/
def Conn.ready (k : Conn) (m : RxMsg) : Bool :=
  if m.status != 0 then m.confirmed else
  let last := m.seq + segsOf m.len - 1
  m.full && decide (dist last k.wm ≤ dist k.front k.wm) &&
    (m.served || !(m.typ == tyREADREQ || m.typ == tyATOMICREQ || m.typ == tyLOCKREQ ||
      (m.typ == tyCOLLECTIVE && hAbort (m.cell0.pb 32 32))))

/-- The queues in which what is due needs free entries, one for each. -/
def State.dueQueues (s : State) (k : Conn) (d : List Due) : List Nat := d.filterMap (s.dueQueue k)

/-- Each queue has room for as many entries as it is named. -/
def State.roomFor (s : State) (qs : List Nat) : Bool := qs.all (fun q => decide (qs.count q ≤ s.roomOf q))

/-- The messages that WM can advance over now, in order, each with what it completes; entries of completion queues that
earlier ones take are `used`. -/
def State.advanceList (s : State) (h : Nat) (k : Conn) (p : RxMsg → Bool) : List RxMsg → Nat → List Nat → List (RxMsg × List Due)
  | [], _, _ => []
  | m :: t, e, used =>
    if m.seq ≠ e ∨ !k.ready m ∨ !p m then [] else
    let d := s.dueOf h k m
    let qs := s.dueQueues k d ++ used
    if s.roomFor qs then (m, d) :: s.advanceList h k p t ((m.seq + segsOf m.len) % 65536) qs else []

/-- A notice for queue `q`, whose test was made when cell 0 was checked: it is written or, if the queue has been destroyed
since or there was none, lost (08 R290). -/
def State.issueNote (s : State) (k : Conn) (q : Option Nat) (c : Cqe) : State × List (Option Nat × CompSrc) :=
  match q.filter (s.noteCq k.inst) with
  | some q => s.postIn q c .none
  | none => (s.bump Reg.CTL_RMA_NOTICE_LOST, [])

/-- A notice that waits for room is counted once (08 R292). -/
def State.noteWait (s : State) (h : Nat) : State :=
  match s.conn? h with
  | none => s
  | some k => match k.rx.find? (fun m => m.seq == (k.wm + 1) % 65536) with
    | none => s
    | some m =>
      if !k.ready m || m.waited then s else
      if (s.dueOf h k m).any (fun d => d.isNote && (s.dueQueue k d).any (fun q => s.roomOf q == 0)) then
        (s.bump Reg.CTL_RMA_NOTICE_WAIT).modConn h (fun k => k.modRx m.seq (fun m => { m with waited := true }))
      else s

/-- A lock operation of this end changes what it holds through the connection (03 R97): a grant adds the lock with its word, a
release takes it out. -/
def State.noteLock (s : State) (x : Slot) (st word : Nat) : State :=
  let w := bytesLE x.desc 34 4 * 2 ^ 48 + bytesLE x.desc 28 6
  let h := dHandle x.desc
  if dOpcode x.desc = opACQUIRE ∧ (st = stSUCCESS ∨ st = stABANDONED) then
    s.modConn h (fun k => { k with locks := k.locks ++ [(w, word)] })
  else if dOpcode x.desc = opRELEASE ∧ (st = stSUCCESS ∨ st = stINTEGRITY) then
    s.modConn h (fun k => { k with locks := (match k.locks.find? (fun l => l.1 == w) with | some l => dropFirst l k.locks | none => k.locks) })
  else s

/-- What is due is issued, within its write group. -/
def State.issueDue (s : State) (k : Conn) (d : Due) : State × List (Option Nat × CompSrc) :=
  match d with
  | .note q c => s.issueNote k q c
  | .slot z st body =>
    let s := match s.slot? z with
      | some x =>
        if dOpcode x.desc = opPOSTRECV ∧ st = stTRUNCATED then s.bump Reg.CTL_MATCH_TRUNC
        else s.noteLock x st (body % 2 ^ 64)
      | none => s
    s.finishIn z st body

/-- The completions and notices of a group, then what they owe (06 R226). -/
def State.issueGroup (s : State) (k : Conn) (l : List Due) : State :=
  let r := l.foldl (fun (a : State × List (Option Nat × CompSrc)) d =>
    let b := a.1.issueDue k d
    (b.1, a.2 ++ b.2)) (s, [])
  r.1.endGroup r.2

/-- A stored message that WM covers counts in UNMATCHED (07 R258, R265). -/
def State.coverStored (s : State) (h : Nat) (m : RxMsg) : State :=
  match m.target with
  | .store e => match s.entry? e with
    | some x =>
      let s := s.modEntry e (fun x => { x with covered := true })
      if x.counted then s.modConn h (fun k => { k with unmatched := k.unmatched + 1 }) else s
    | none => s
  | _ => s

/-- WM advances over messages at the front of connection `h` that `p` selects, in one write group (06 R213). -/
def State.advanceWm (s : State) (h : Nat) (p : RxMsg → Bool) : State :=
  match s.conn? h with
  | none => s
  | some k =>
    if k.st ≠ .opened ∨ s.stale k then s else
    let l := s.advanceList h k p k.inOrder ((k.wm + 1) % 65536) []
    match l.getLast? with
    | none => s.noteWait h
    | some (m, _) =>
      let wm := (m.seq + segsOf m.len + 65535) % 65536
      let gone := l.map (fun x => x.1.seq)
      let free := (l.filter (fun x => x.1.typ == tyLOCKRESP && x.1.cell0.extImm.testBit 63)).length
      let s := l.foldl (fun s x => s.coverStored h x.1) s
      let s := s.modConn h (fun k => { k.countRx (dist wm k.wm) with
        wm := wm, front := if dist k.front k.wm < dist wm k.wm then wm else k.front,
        rx := k.rx.filter (fun x => !gone.contains x.seq) })
      let s := s.countGroup.jrnlConn h
      let s := ({ s with draws := s.draws + 2 * free } : State).issueGroup k (l.map (·.2)).flatten
      ((s.sayCtl h { typ := tyACK, kind := kACK }).faultCheck h).retireKey h |>.noteWait h

/-- WM_ADVANCE (06 R213). -/
def execWmAdvance (h : Word) (v : View) (s : State) : Outcome State Fault Refusal :=
  .next ((s.see v).advanceWm h.toNat (fun _ => true))

end Sys2Proof.Machine
end

