-- ==== Sys2Proof/Machine/TakeOps.lean ====
section
/-! DEFINITION. Taking a work descriptor: the order of its checks, the time checks, the policer, and what a descriptor does
when it starts (02 R52-R64, 05 R187-R193, 07 R242-R246, R254, R274, 10 R337-R342, 13 R401-R407). -/

namespace Sys2Proof.Machine

/-- A descriptor sends a message on the connection that HANDLE names (02 R58). -/
def sends (op : Nat) : Bool := op == opSEND || (opWRITE ≤ op && op ≤ opRELEASE)

/-- An opcode of the table (02 R58). -/
def assignedOp (op : Nat) : Bool := (opSEND ≤ op && op ≤ opCANCEL) || op == opNOP

/-- Fields of a SEND, and of the bodies of 08 R283 and 09 R310. -/
def sMatch (e : Entry) : Nat := bytesLE e 28 8
def sCtx (e : Entry) : Nat := bytesLE e 36 2
def sProtoD (e : Entry) : Nat := bytesLE e 38 1 % 16
def wRoffset (e : Entry) : Nat := bytesLE e 28 6
def wRkey (e : Entry) : Nat := bytesLE e 36 4
def wImm (e : Entry) : Nat := bytesLE e 52 8
def aRoffset (e : Entry) : Nat := bytesLE e 28 6
def aRkey (e : Entry) : Nat := bytesLE e 34 4
def aOp (e : Entry) : Nat := bytesLE e 38 1 % 4
def aPrio (e : Entry) : Nat := bytesLE e 38 1 % 8
def aOperandA (e : Entry) : Nat := bytesLE e 40 8
def aOperandB (e : Entry) : Nat := bytesLE e 48 8
def aTag (e : Entry) : Nat := bytesLE e 40 2

/-- Fields of a CANCEL_RECV (07 R274). -/
def xQueue (e : Entry) : Nat := bytesLE e 28 2
def xIndex (e : Entry) : Nat := bytesLE e 30 2
def xCookie (e : Entry) : Nat := bytesLE e 32 8

/-- Fields of entry `p` of the protocol table (07 R263). -/
def State.eagerMax (s : State) (p : Nat) : Nat := s.mat.protocols / 256 ^ (8 * p) % 2 ^ 32
def State.rdvOff (s : State) (p : Nat) : Bool := (s.mat.protocols / 256 ^ (8 * p + 4) % 256).testBit 0

/-- A SEND goes out as a rendezvous request (07 R244). -/
def State.isRdv (s : State) (e : Entry) : Bool :=
  dOpcode e == opSEND && !s.rdvOff (sProtoD e) && s.eagerMax (sProtoD e) < dLength e && dLength e != 0

/-- VALID of a reduction-format entry (10 R361), and whether an operator combines with its mode and type (R338). -/
def fmtUsable (f : Nat) : Bool := f.testBit 7
def combines (operator f : Nat) : Bool :=
  if fmtMode f = cmNATIVE then operator ≤ 2 || (operator ≤ 5 && fmtType f ≤ 3) else operator == 0

/-- A COLLECTIVE holds an unassigned value, or names a foreign group (10 R337, R339). -/
def State.collBad (s : State) (i pd : Nat) (e : Entry) : Bool :=
  match s.group? (dHandle e) with
  | none => true
  | some g =>
    let t := cCtype e
    let red := t == ctREDUCE || t == ctALLREDUCE
    let f := s.redFmt (cFormat e)
    g.inst != i || g.pd != pd || 3 < t || (red && 5 < cOperator e) || (red && !fmtUsable f) ||
      (red && !combines (cOperator e) f) || ((t == ctREDUCE || t == ctBROADCAST) && g.members ≤ cRoot e) ||
      (g.op? (cOpnum e)).any (fun o => o.slot.isSome) ||
      g.queued.any (fun z => (s.slot? z.1).any (fun x => cOpnum x.desc == cOpnum e))

/-- The first check of R52: an unassigned value, or a foreign handle. -/
def State.badFields (s : State) (i pd : Nat) (e : Entry) : Bool :=
  let op := dOpcode e
  !assignedOp op || dTkind e == 3 || dColour e == 3 ||
    (sends op && !(s.conn? (dHandle e)).any (fun k => k.inst == i && k.pd == pd)) ||
    (op == opSEND && !s.fmtValid (sProtoD e)) || (op == opPOSTRECV && !s.fmtValid (pProto e)) ||
    (op == opATOMIC && aOp e == 3) || (op == opCOLLECTIVE && s.collBad i pd e) ||
    (op == opCANCEL && s.instOfQueue (xQueue e) != i)

/-- A local range passes 2^48 (02 R63). Both ranges of a COLLECTIVE count (log entry 28). -/
def rangePasses (addr n : Nat) : Bool := decide (2 ^ 48 < addr + n)

/-- LENGTH, a count or the local range breaks a limit (02 R62, R63, 10 R340). -/
def State.badLength (s : State) (e : Entry) : Bool :=
  let op := dOpcode e
  let n := dLength e
  if op = opATOMIC ∨ op = opACQUIRE ∨ op = opRELEASE then n != 8
  else if op = opCANCEL ∨ op = opNOP then n != 0
  else if op = opPOSTRECV then rangePasses (pLaddr e) n
  else if op = opCOLLECTIVE then
    let t := cCtype e
    let f := s.redFmt (cFormat e)
    (t == ctBARRIER && n != 0) || (t == ctBROADCAST && 67108864 < n) ||
      ((t == ctREDUCE || t == ctALLREDUCE) && (4194304 < n || n % elemOf t f != 0)) ||
      rangePasses (cSaddr e) n || rangePasses (cDaddr e) n ||
      (s.group? (dHandle e)).any (fun g => s.stagingShare < g.stagingNeed t f (n / elemOf t f))
  else rangePasses (dLaddr e) n

/-- The minimal spray set toward an endpoint, by the stamped route epoch (04 R125, R139). -/
def State.minimalSet (s : State) (dst : Nat) : Nat :=
  sprayOf (s.rtable s.stamp) (if dst / 512 = s.addr / 512 then 256 + dst % 512 else dst / 512)

/-- The link that a launch toward `dst` needs and that is not FULL yet; `ok` = false where the set holds no link that is
up at all (05 R193). -/
def State.launchLink (s : State) (cls dst : Nat) : Bool × Option Nat :=
  if dst = s.addr then (true, none) else
  let set := s.minimalSet dst
  if !(s.eligiblePorts cls set).isEmpty then (true, none)
  else match (List.range 1024).find? (fun p => set.testBit p && s.laneExists p && s.linkOf p == p &&
      (s.linkState p == lkUP || (cls == 6 && s.linkRuns p))) with
    | some p => (true, some p)
    | none => (false, none)

/-- The tiles that a descriptor of work queue `q` needs for its launch (05 R193). -/
def State.launchTiles (s : State) (q : Nat) (e : Entry) : List Nat :=
  s.servingTile (q % 64) :: (if sends (dOpcode e) then [s.servingTile (s.connTile (dHandle e))]
    else if dOpcode e = opCOLLECTIVE then [s.servingTile (ownerTile (dHandle e))] else [])

/-- The worst-case exit times of 17 R479 and 14 R443. -/
def tileExit (st : Nat) : Nat := if st = psACTIVE then 0 else if st = psDOZE then us 1 else us 40
def linkExit (ph : Nat) : Nat := if ph = phFULL then 0 else if ph = phHALF then ns 200 else us 30

/-- The connection on which a descriptor's start sends: its own, or, of a COLLECTIVE at a member without children, the one to the
parent, on which the start injects the up message (05 R193, 10 R347; log entry 161). -/
def State.startConn (s : State) (e : Entry) : Option Conn :=
  if sends (dOpcode e) then s.conn? (dHandle e)
  else if dOpcode e = opCOLLECTIVE then (s.group? (dHandle e)).bind (fun x =>
    if x.children.isEmpty then x.parent.bind (fun p => s.conn? p.handle) else none)
  else none

/-- The link toward the peer that a descriptor's start needs, if it sends. -/
def State.linkNeed (s : State) (e : Entry) : Bool × Option Nat :=
  match s.startConn e with
  | some k => s.launchLink k.cls k.peerEp
  | none => (true, none)

/-- The time in which tile `u` can be ACTIVE, a change in progress included. A lane is FULL no earlier than its tile is ACTIVE (17
R479). -/
def State.exitTime (s : State) (u : Nat) : Nat :=
  max (tileExit (s.tileState u)) (if s.tileChanging u then tileExit (s.tileTarget u) else 0)

/-- Everything a launch needs can be ACTIVE and FULL in time (05 R193). -/
def State.reachable (s : State) (q : Nat) (e : Entry) : Bool :=
  let t := max (((s.launchTiles q e).map s.exitTime).foldl max 0) (match (s.linkNeed e).2 with
    | some p => linkExit (s.fld (F.LNG_LANE_STATUS_PHASE p)) + s.exitTime (tileOf p)
    | none => 0)
  (s.linkNeed e).1 && decide (s.t + t + us 2 ≤ dTime e)

/-- Launches of the chip, or of instance `i`, that have not started. -/
def State.heldLaunches (s : State) : List (Nat × Slot) := s.obj.slots.filter (fun x => x.2.phase == .launch)

/-- The time check of a launch (02 R60, 05 R192, R193). -/
def State.launchOk (s : State) (i q : Nat) (e : Entry) : Bool :=
  let t := dTime e
  let near := s.heldLaunches.filter (fun x => decide (dTime x.2.desc ≤ t + ns 4 ∧ t ≤ dTime x.2.desc + ns 4))
  s.synced && decide (s.t + us 2 ≤ t) && near.length < 64 &&
    (s.heldLaunches.filter (fun x => slotInst x.1 == i)).length < 16384 / max 1 s.nInst && s.reachable q e

/-- Cells accepted toward peer `dst` on class 7 and not yet sent (05 R187). -/
def State.transitBacklog (s : State) (dst : Nat) : Nat :=
  (s.xpt.msgs.map (fun m => match s.conn? m.2.handle with
    | some k => if k.cls = 7 ∧ k.peerEp = dst then
        cellsOf m.2.len - ((k.segs.filter (fun g => g.msg == m.1)).map (·.next)).sum
      else 0
    | none => 0)).sum

/-- The record that carries slot `n` for a destination: of the pending epoch from its tide on (05 R187). -/
def State.slotRec (s : State) (dst a n : Nat) : Option XRec :=
  match s.pendingSched with
  | some e => if s.tim.schedSwitchAt ≤ slotStart n then (s.recFor e dst).map (·.2) else (s.recFor a dst).map (·.2)
  | none => (s.recFor a dst).map (·.2)

/-- The terms of a record: the latency in use, and PB. -/
def XRec.lat (r : XRec) : Nat × Nat := (if r.pfail then r.pb else r.p, r.pb)

/-- The deadline admission of 05 R187. -/
def State.deadlineOk (s : State) (dst len t : Nat) : Bool :=
  match s.activeSched with
  | none => false
  | some a => match (s.recFor a dst).map (·.2) with
    | none => false
    | some r =>
      if !s.synced || (r.pfail && r.bfail) then false else
      let j := ceilDiv (s.transitBacklog dst + cellsOf len) 60
      let lo := ceilDiv (s.t + us 2) (ns 320)
      let hi := 4096 * (tideNo s.t + 2)
      let own := ((List.range (hi - lo)).map (lo + ·)).filterMap (fun n => match s.slotRec dst a n with
        | some x => if (if x.pfail then x.ownsBackup (n % 4096) else x.ownsPrimary (n % 4096)) then some (n, x) else none
        | none => none)
      let used := own.take j
      match used[j - 1]? with
      | none => false
      | some (n, _) =>
        let p := (used.map (fun u => u.2.lat.1)).foldl max 0
        let pb := (used.map (fun u => u.2.lat.2)).foldl max 0
        decide (slotStart n + ns 300 + ns p + ns pb + us 8 ≤ t)

/-- The fourth check of R52: a launch or a deadline that fails its time check (02 R60, R61, 07 R264). -/
def State.badTime (s : State) (i q : Nat) (e : Entry) : State × Bool :=
  if dTkind e = 1 then (s, !s.launchOk i q e)
  else if dTkind e = 2 then
    let op := dOpcode e
    match s.conn? (dHandle e) with
    | some k =>
      if !(op == opSEND || op == opWRITE || op == opWRITEIMM) || k.cls != 7 || s.isRdv e then
        (if s.synced then s else s.bump Reg.TIM_NOT_ADMITTED, true)
      else if s.deadlineOk k.peerEp (dLength e) (dTime e) then (s, false)
      else (s.bump Reg.TIM_NOT_ADMITTED, true)
    | none => (if s.synced then s else s.bump Reg.TIM_NOT_ADMITTED, true)
  else (s, false)

/-- The counted length that a descriptor is charged (13 R401, R402); none where it is not policed. -/
def State.counted (s : State) (e : Entry) : Option Nat :=
  let op := dOpcode e
  let c := fun (l n : Nat) => some (l + n * s.fld F.INJ_CTRL_OVH_CELL + s.fld F.INJ_CTRL_OVH_MSG)
  if op = opSEND ∨ op = opWRITE ∨ op = opWRITEIMM then c (dLength e) (cellsOf (dLength e))
  else if op = opREAD then c 8 1
  else if op = opATOMIC then c 16 1
  else if op = opACQUIRE ∨ op = opRELEASE then c 0 1
  else none

/-- A policer's bucket sizes, in units of 1/16000 byte (13 R403, R404). -/
def State.polCbs (s : State) (i c : Nat) : Nat := (s.rd (Reg.INJ_POL_CBS i c)).toNat * 64 * 16000
def State.polPbs (s : State) (i c : Nat) : Nat := (s.rd (Reg.INJ_POL_PBS i c)).toNat * 64 * 16000

/-- The policer step of 13 R404: red is `none`, yellow `some true`, green `some false`. -/
def State.colour (s : State) (i c b pre : Nat) : State × Option Bool :=
  if !s.flag (F.INJ_POL_CTRL_ENABLE i c) then (s.occur bkINJ 0x11 [c, 8] 1, some false) else
  let k := 8 * i + c
  let cbs := s.polCbs i c
  let pbs := s.polPbs i c
  let u := Map.getD s.inj.buckets k { tc := cbs, tp := pbs, last := s.t }
  let d := s.t - u.last
  let tc := min cbs (u.tc + s.fld (F.INJ_POL_CTRL_CIR i c) * d)
  let tp := min pbs (u.tp + s.fld (F.INJ_POL_PIR_PIR i c) * d)
  let need := b * 16000
  let aware := s.flag (F.INJ_POL_CTRL_AWARE i c)
  let put := fun (s : State) (a b : Nat) =>
    ({ s with inj := { s.inj with buckets := Map.set s.inj.buckets k { tc := a, tp := b, last := s.t } } } : State)
  if (aware && pre = 2) ∨ tp < need then ((put s tc tp).bump (Reg.INJ_POL_RED i c) |>.occur bkINJ 0x13 [c, 8] 1, none)
  else if (aware && pre = 1) ∨ tc < need then ((put s tc (tp - need)).bump (Reg.INJ_POL_YELLOW i c) |>.occur bkINJ 0x12 [c, 8] 1, some true)
  else ((put s (tc - need) (tp - need)).bump (Reg.INJ_POL_GREEN i c) |>.occur bkINJ 0x11 [c, 8] 1, some false)

/-- The policer's verdict on a descriptor (13 R402-R407). -/
def State.police (s : State) (i : Nat) (e : Entry) : State × Option Bool :=
  match s.counted e, s.conn? (dHandle e) with
  | some b, some k => s.colour i k.cls b (dColour e)
  | _, _ => (s, some false)

/-- What the checks of R52 say: a refusal, or acceptance with its colour. -/
inductive Verdict where
  | refuse (status : Nat)
  | accept (yel : Bool)
  deriving DecidableEq, Repr

/-- The checks of R52, in their order. -/
def State.judge (s : State) (q : Nat) (x : Queue) (e : Entry) : State × Verdict :=
  if s.badFields x.inst x.pd e then (s, .refuse stPROTECTION)
  else if dOpcode e = opCOLLECTIVE ∧ (cCtype e = ctREDUCE ∨ cCtype e = ctALLREDUCE) ∧ s.part.reduce = false then
    (s, .refuse stABSENT)
  else if s.badLength e then (s, .refuse stLENGTH)
  else match s.badTime x.inst q e with
    | (s, true) => (s, .refuse stNOTADMITTED)
    | (s, false) => match s.police x.inst e with
      | (s, none) => (s, .refuse stRATE)
      | (s, some y) => (s, .accept y)

/-- Posted-receive entries of an instance (07 R253), on die and in all, and those in use. -/
def State.onDieShare (s : State) : Nat := 262144 / max 1 s.nInst
def State.postedShare (s : State) : Nat := 262144 / max 1 s.nInst + 16777216 / max 1 s.nInst
def State.onDieUsed (s : State) (i : Nat) : Nat := (s.mat.posted.filter (fun x => slotInst x.1 == i && x.2.isSome)).length

/-- The match slice that takes the on-die entry of receive `z`: the first from that of its slot number on whose tile is ACTIVE
and which holds fewer than 4,096 entries (01 R14, log entry 21). -/
def State.sliceFor (s : State) (z : Nat) : Option Nat :=
  ((List.range 64).map (fun j => (z + j) % 64)).find? (fun t =>
    s.tileActive t && decide ((s.mat.posted.filter (fun x => x.2 == some t)).length < 4096))

/-- A receive holds its entry from its acceptance on, a held launch included (07 R246). -/
def State.postedUsed (s : State) (i : Nat) : Nat :=
  (s.mat.posted.filter (fun x => slotInst x.1 == i)).length +
    (s.heldLaunches.filter (fun x => slotInst x.1 == i && dOpcode x.2.desc == opPOSTRECV)).length

/-- The earliest stored message that receive `z` matches, not bound yet (07 R254). -/
def State.storedFor (s : State) (z : Nat) : Option (Nat × StoreEntry) :=
  s.mat.store.find? (fun x => x.2.bound.isNone && s.fmtValid x.2.proto &&
    s.matchesRecv z { inst := x.2.inst, pd := x.2.pd, proto := x.2.proto, context := x.2.context, src := x.2.src,
                      ins := x.2.srcIns, eff := s.effOf x.2 })

/-- A receive is posted: its buffer is checked, the store searched, else it is filed (07 R246, R253, R254). -/
def State.fileRecv (s : State) (z : Nat) (x : Slot) : State :=
  let e := x.desc
  let i := slotInst z
  let s := if dLength e = 0 then s else s.lookKey
  if dLength e != 0 && !s.localOk i (pLkey e) (s.recvPd z) (some acLOCALW) (pLaddr e) (dLength e) then
    s.finishSlot z stPROTECTION 0
  else match s.storedFor z with
    | some (m, y) =>
      let s := (s.countMatch).modEntry m (fun y => { y with bound := some (z, x.stamp), eff := s.effOf y })
      let s := s.modSlot z (fun x => { x with phase := .running })
      if y.rts then s.queuePull m else s
    | none =>
      let s := s.modSlot z (fun x => { x with phase := .posted })
      let die := if s.onDieUsed i < s.onDieShare then s.sliceFor z else none
      { s with mat := { s.mat with posted := Map.set s.mat.posted z die } }

/-- CANCEL_RECV (07 R274): the named receive, if it is filed, completes with ABORTED first. -/
def State.cancelRecv (s : State) (z : Nat) (e : Entry) : State :=
  let hit := s.mat.posted.find? (fun y => (s.slot? y.1).any (fun x =>
    slotInst y.1 == slotInst z && x.queue == xQueue e && x.index == xIndex e && dCookie x.desc == xCookie e))
  let s := match hit with
    | some (k, _) =>
      let s : State := { s.bump Reg.CTL_MATCH_CANCEL with mat := { s.mat with posted := Map.erase s.mat.posted k } }
      s.finishSlot k stABORTED 0
    | none => s
  s.finishSlot z stSUCCESS (bytesBody 0)

/-- The message of a descriptor that sends (07 R243, 08 R283, R288, 09 R313, R321). -/
def State.msgOf (s : State) (z : Nat) (x : Slot) (i : Nat) : TxMsg :=
  let e := x.desc
  let op := dOpcode e
  let base : TxMsg := { handle := dHandle e, typ := tySEND, origin := .desc z, len := 0, fence := dFence e, yel := x.yel,
                        deadline := if dTkind e = 2 then some (dTime e) else none }
  if op = opSEND then
    let word := sCtx e + (if x.rdv then dLength e * 2 ^ 16 else 0) + (sProtoD e + b2n x.rdv * 16) * 2 ^ 48
    if x.rdv then { base with extMatch := sMatch e, extImm := word, extKey := dLkey e,
                              extOffset := dLaddr e - (s.region i (dLkey e)).vbase }
    else { base with len := dLength e, extMatch := sMatch e, extImm := word, extLength := dLength e, src := dLaddr e }
  else if op = opWRITE ∨ op = opWRITEIMM then
    { base with typ := if op = opWRITE then tyWRITE else tyWRITEIMM, len := dLength e, extLength := dLength e,
                extImm := if op = opWRITE then 0 else wImm e, extKey := wRkey e, extOffset := wRoffset e, src := dLaddr e }
  else if op = opREAD then
    { base with typ := tyREADREQ, len := 8, extLength := 8, extKey := wRkey e, extOffset := wRoffset e,
                inline := some (dLength e) }
  else if op = opATOMIC then
    { base with typ := tyATOMICREQ, len := 16, extLength := 16, extImm := aOp e, extKey := aRkey e,
                extOffset := aRoffset e, inline := some (aOperandA e + aOperandB e * 2 ^ 64) }
  else
    { base with typ := tyLOCKREQ, extKey := aRkey e, extOffset := aRoffset e, inline := some 0,
                extImm := (if op = opACQUIRE then 1 + aPrio e * 2 ^ 8 else 2) + aTag e * 2 ^ 16 }

/-- The local key of a descriptor that sends passes over its local range (08 R285, 07 R265). -/
def State.localPasses (s : State) (i pd : Nat) (x : Slot) : Bool :=
  let e := x.desc
  let op := dOpcode e
  if dLength e = 0 || opREAD < op then true
  else s.localOk i (dLkey e) pd
    (if op = opREAD then some acLOCALW else if x.rdv then some acREMOTER else none) (dLaddr e) (dLength e)

/-- A descriptor that sends starts: its connection is looked at, its local key checked, and its message accepted. -/
def State.startSend (s : State) (z : Nat) (x : Slot) : State :=
  match s.conn? (dHandle x.desc) with
  | none => s.finishSlot z stUNREACHABLE (bytesBody 0)
  | some k =>
    if k.st = .broken then s.finishSlot z k.brokeWith (bytesBody 0)
    else if s.stale k then s.finishSlot z stREMOTEGEN (bytesBody 0)
    else
      let s := if dLength x.desc = 0 ∨ opREAD < dOpcode x.desc then s else s.lookKey
      if !s.localPasses k.inst k.pd x then s.finishSlot z stPROTECTION (bytesBody 0)
      else (s.accept (s.msgOf z x k.inst)).1

/-- A descriptor starts (02 R58, R60). A COLLECTIVE is then ready to run (10 R347). -/
def State.startDesc (s : State) (z : Nat) : State :=
  match s.slot? z with
  | none => s
  | some x =>
    let op := dOpcode x.desc
    let s := s.modSlot z (fun x => { x with phase := .running })
    if sends op then s.startSend z x
    else if op = opPOSTRECV then s.fileRecv z x
    else if op = opCANCEL then s.cancelRecv z x.desc
    else if op = opCOLLECTIVE then s.treeTask (dHandle x.desc) (cOpnum x.desc)
    else s.finishSlot z stSUCCESS (bytesBody 0)

/-- Launch `x` may start now (05 R191, R192): the chip's own time has reached TIME; without LOCKED or HOLDOVER a launch that a
replay posted again starts only in the 4 ns that R191 gives, and one whose TIME has passed waits. -/
def State.launchMayStart (s : State) (x : Slot) : Bool :=
  s.timeState != tsUNSET && decide (dTime x.desc ≤ s.t) &&
    (s.synced || !x.replayed || decide (s.t ≤ dTime x.desc + ns 4))

/-- Held launch `x` of slot `z` starts (05 R191, R192): outside LOCKED and HOLDOVER the start is counted. -/
def State.startLaunch (s : State) (z : Nat) (x : Slot) : State :=
  if x.phase ≠ .launch ∨ s.launchMayStart x = false then s else
  let s := if s.synced then s else s.bump Reg.TIM_LAUNCH_UNSYNC
  ((s.modSlot z (fun x => { x with startedAt := s.t })).occur bkTIM 0x14 [0] 1).startDesc z

/-- The launch of slot `z` starts, if it is one that may (05 R191, R192). -/
def State.launchNow (s : State) (z : Nat) : State :=
  match s.slot? z with
  | some x => s.startLaunch z x
  | none => s

/-- The chip is LOCKED: the launches that a replay posted again and whose TIME has passed start (05 R192). -/
def State.lateLaunches (s : State) : State :=
  (s.heldLaunches.filter (fun x => x.2.replayed)).foldl (fun s x => s.launchNow x.1) s

/-- A COLLECTIVE joins its group's operation, or waits for one (10 R342, R350, R352). -/
def State.joinGroup (s : State) (z : Nat) (e : Entry) : State :=
  let g := dHandle e
  match s.group? g with
  | none => s
  | some x =>
    if x.broken then s.finishSlot z stUNREACHABLE (collBody 0 (cOpnum e) 0 0 0) else
    let red := cCtype e == ctREDUCE || cCtype e == ctALLREDUCE
    let f := if red then s.redFmt (cFormat e) else 0
    let s := (s.modGroup g (fun x => { x with queued := x.queued ++ [(z, f)] })).enterQueued g 8
    if (s.group? g).any (fun x => x.queued.any (fun y => y.1 == z)) then s.bump Reg.CTL_COLL_STAGE_WAIT else s

/-- The tiles and the link of a launch are raised (05 R193). -/
def State.raiseFor (s : State) (q : Nat) (e : Entry) : State :=
  let s := (s.launchTiles q e).foldl (fun s u => if s.tileActive u && !s.tileChanging u then s else s.wakeEvent u wcLAUNCH) s
  match (s.linkNeed e).2 with
  | some p => s.startExitOf p wcLAUNCH
  | none => s

/-- A refusal (02 R52, R53): its completion first, then the OWN clear; without room both wait. -/
def State.refuseTake (s : State) (q z st : Nat) (k : Slot) : State :=
  let s : State := { s with obj := { s.obj with slots := Map.set s.obj.slots z { k with phase := .refused } } }
  let s := s.modQueue q (fun x => { x with blocked := true })
  let s := ((s.occurCtl 0x12).countGroup).countInst (slotInst z) 1 1
  s.post k.cq (k.cqe st false (bytesBody 0)) (.slot z)

/-- The descriptor names a BROKEN connection: it completes at once, a launch too (06 R603). -/
def State.onBroken (s : State) (e : Entry) : Bool :=
  sends (dOpcode e) && (s.conn? (dHandle e)).any (fun k => k.st == .broken)

/-- An acceptance (06 R226, R229): the slot record, POSITION, the OWN clear; then the start, unless it is a launch. -/
def State.acceptTake (s : State) (q z : Nat) (x : Queue) (k : Slot) : State :=
  let st := (s.inst x.inst).stamp
  let k := { k with stamp := st, phase := if dTkind k.desc = 1 then SlotPhase.launch else SlotPhase.running }
  let s := s.modInst x.inst (fun y => { y with stamp := st + 1 })
  let s : State := { s with obj := { s.obj with slots := Map.set s.obj.slots z k } }
  let s := ((s.occurCtl 0x11).countGroup).countInst (slotInst z) 0 1
  let s := if dTkind k.desc = 2 then s.occur bkTIM 0x13 [0] 1 else s
  let s := s.jrnlSlot z
  let s := ((s.modQueue q (fun x => { x with pos := ringNext x.log2 x.pos })).jrnlPos q).clearOwn q k.index
  let s := if dOpcode k.desc = opCOLLECTIVE then s.joinGroup z k.desc else s
  if dTkind k.desc = 1 ∧ s.onBroken k.desc = false then (if dTime k.desc < s.t + us 50 then s.raiseFor q k.desc else s)
  else s.startDesc z

/-- A DESTROY_QUEUE of queue `q` is in progress (02 R70). -/
def State.destroying (s : State) (q : Nat) : Bool :=
  s.obj.adm.any (fun r => match r.2.wait with | .destroy n _ => n == q | _ => false)

/-- The entry at queue `q`'s position can be taken now: OWN is set, the queue is served, and it holds nothing back. -/
def State.takeable (s : State) (q : Nat) (x : Queue) (e : Entry) (op : Nat) : Bool :=
  x.work && q != 0 && dOwn e && (dOpcode e == op || !assignedOp (dOpcode e)) && !x.blocked && s.served x.inst &&
    !s.halted && !s.flag F.CTL_JRNL_CTRL_REPLAY && !s.destroying q

/-- A take holds a reservation on the bound completion queue (02 R52, R54); the free value that picked its slot is drawn. -/
def State.reserveTake (s : State) (q : Nat) (x : Queue) : State :=
  ((s.drawn.modQueue x.cq (fun c => { c with reserved := c.reserved + 1 })).modQueue q (fun y => { y with found := y.found - 1, postWait := false })).occurCtl
    0x10

/-- The slot that a take of `e` fills. -/
def State.takeSlot (s : State) (q : Nat) (x : Queue) (e : Entry) : Slot :=
  { desc := e, queue := q, index := x.pos, cq := x.cq, acceptedAt := s.t, rdv := s.isRdv e }

/-- The checks of R52 are made, and the descriptor is refused or accepted into slot `z`. -/
def State.takeInto (s : State) (q z : Nat) (x : Queue) (e : Entry) : State :=
  let k := s.takeSlot q x e
  match (s.reserveTake q x).judge q x e with
  | (s, .refuse st) => s.refuseTake q z st k
  | (s, .accept y) => s.acceptTake q z x { k with yel := y }

/-- The take of a descriptor (02 R52-R54, R56): with no free reservation, slot or posted-receive entry it stays
device-held; a tile that is not ACTIVE is woken. -/
def State.take (s : State) (q op : Nat) (e : Entry) : State :=
  match s.queue? q with
  | none => s
  | some x =>
    if !s.takeable q x e op then s
    else if !s.tileActive (s.servingTile (q % 64)) then s.wakeQueue q
    else
      let full := (s.queue? x.cq).all (fun c => 2 ^ c.log2 ≤ c.reserved)
      if full then s
      else if dOpcode e = opPOSTRECV ∧ s.postedShare ≤ s.postedUsed x.inst then
        (if x.postWait then s else (s.modQueue q (fun y => { y with postWait := true })).bump Reg.CTL_MATCH_POST_WAIT)
      else match s.newSlot x.inst with
        | none => s
        | some z => s.takeInto q z x e

end Sys2Proof.Machine
end

