-- ==== Sys2Proof/Machine/AdminOps.lean ====
section
/-! DEFINITION. Admin commands: the take, what in-progress commands name, the order of their statuses, the journal's
configuration records, the completion (03 R81-R90, 06 R226, R232). -/

namespace Sys2Proof.Machine

/-- Admin status codes (03 R84). -/
def adBAD : Nat := 0x20
def adNORESOURCE : Nat := 0x21
def adINUSE : Nat := 0x22
def adNOTFOUND : Nat := 0x23
def adINSTANCE : Nat := 0x24
def adORDER : Nat := 0x25
def adTABLE : Nat := 0x26
def adTIDE : Nat := 0x27
def adWATCH : Nat := 0x28
def adHOSTREAD : Nat := 0x29
def adEPOCHBUSY : Nat := 0x2A
def adNOTIME : Nat := 0x2B
def adKEYEPOCH : Nat := 0x2C

/-- The place of a status in the order of 03 R85. -/
def adminRank (c : Nat) : Nat :=
  if c = adBAD then 1 else if c = stABSENT then 2 else if c = adNOTFOUND then 3 else if c = adINSTANCE then 4
  else if c = adORDER then 5 else if c = adWATCH then 6 else if c = adINUSE ∨ c = adEPOCHBUSY ∨ c = adKEYEPOCH then 7
  else if c = adNOTIME ∨ c = adTIDE then 8 else if c = adNORESOURCE then 9 else 10

/-- The status of the first rule broken; 0 for none (03 R85). -/
def firstBroken (l : List (Bool × Nat)) : Nat :=
  match sortBy adminRank ((l.filter (·.1)).map (·.2)) with
  | [] => 0
  | c :: _ => c

/-- Fields of an admin command (03 R81). -/
def aCode (e : Entry) : Nat := bytesLE e 0 1
def aFence (e : Entry) : Bool := bit e 8
def aObject (e : Entry) : Nat := bytesLE e 4 4
def aCookie (e : Entry) : Nat := bytesLE e 8 8
def aBody (e : Entry) (b n : Nat) : Nat := bytesLE e b n

/-- ACODE values (03 R90). -/
def acCREATEQUEUE : Nat := 0x01
def acDESTROYQUEUE : Nat := 0x02
def acCREATEPD : Nat := 0x03
def acDESTROYPD : Nat := 0x04
def acREGISTER : Nat := 0x05
def acDEREGISTER : Nat := 0x06
def acCREATECONN : Nat := 0x07
def acDESTROYCONN : Nat := 0x08
def acINSTALLKEY : Nat := 0x09
def acCREATEGROUP : Nat := 0x0A
def acDESTROYGROUP : Nat := 0x0B
def acLOADROUTE : Nat := 0x0C
def acLOADSCHED : Nat := 0x0D
def acSWITCH : Nat := 0x0E
def acINVALIDATE : Nat := 0x0F
def acCONFIGURE : Nat := 0x10
def acSETINSTANCES : Nat := 0x11
def acRESETINSTANCE : Nat := 0x12
def acARMLOG : Nat := 0x13
def acLOADTABLE : Nat := 0x14

/-- The instances in which a key is current (03 R95). A key does not say its instance. -/
def State.keyHolders (s : State) (key : Nat) : List Nat :=
  (List.range s.nInst).filter (fun i => (s.region i key).valid && (s.region i key).variant == key % 256 &&
    decide (key / 256 < 2 ^ (s.inst i).regionLog2))

/-- The instance whose key a DEREGISTER_REGION names: of several, the spec does not say which (log entry 30). -/
def State.keyInst (s : State) (key : Nat) : Option Nat :=
  let l := s.keyHolders key
  l[Config.freeChoice s.draws % max 1 l.length]?

/-- The instance of a handle (03 R96, 10 R333). -/
def handleInst (h : Nat) : Nat := h / 2 ^ 25

/-- What a command names for 03 R86, as (kind, number): 0 an instance (128 for all), 1 a queue, 2 a domain, 3 a key,
4 a connection, 5 a group, 6 the route epochs, 7 the schedule epochs, 8 a table. -/
def State.adminNames (s : State) (e : Entry) : List (Nat × Nat) :=
  let c := aCode e
  let o := aObject e
  let pdInst := ((Map.get? s.obj.pds (o % 65536)).map (fun i => (0, i))).toList
  if c = acCREATEQUEUE then (1, o % 65536) :: (0, s.instOfQueue (o % 65536)) ::
    (if (aBody e 16 1).testBit 7 then [] else [(2, aBody e 18 2), (1, aBody e 20 2)])
  else if c = acDESTROYQUEUE then [(1, o % 65536), (0, s.instOfQueue (o % 65536))]
  else if c = acDESTROYPD ∨ c = acREGISTER ∨ c = acCREATECONN then (2, o % 65536) :: pdInst
  else if c = acDEREGISTER then (3, o) :: ((s.keyInst o).map (fun i => (0, i))).toList
  else if c = acDESTROYCONN ∨ c = acINSTALLKEY then [(4, o), (0, handleInst o)]
  else if c = acDESTROYGROUP then [(5, o), (0, handleInst o)]
  else if c = acLOADROUTE then [(6, 0)]
  else if c = acLOADSCHED then [(7, 0)]
  else if c = acSWITCH then [(6 + o % 2, 0)]
  else if c = acSETINSTANCES then [(0, 128)]
  else if c = acLOADTABLE then [(8, o % 16)]
  else if c = acCREATEPD ∨ c = acCREATEGROUP ∨ c = acINVALIDATE ∨ c = acCONFIGURE ∨ c = acRESETINSTANCE ∨ c = acARMLOG then
    [(0, o % 128)]
  else []

/-- Two names are of one object. -/
def nameClash (a b : Nat × Nat) : Bool := a.1 == b.1 && (a.2 == b.2 || (a.1 == 0 && (a.2 == 128 || b.2 == 128)))

/-- The command waits: behind a fence, an object that a command in progress names, or 64 in progress (03 R86). -/
def State.adminHeld (s : State) (e : Entry) : Bool :=
  (aFence e && !s.obj.adm.isEmpty) || 64 ≤ s.obj.adm.length ||
    s.obj.adm.any (fun r => r.2.names.any (fun a => (s.adminNames e).any (nameClash a)))

/-- What running a command gives: the state, its status and RESULT, and what it waits for. -/
structure AdminRun where
  st : State
  status : Nat := 0
  result : Nat := 0
  wait : AdminWait := .ready

/-- A command that breaks a rule has no effect (03 R83); else it runs. -/
def State.adminCheck (s : State) (l : List (Bool × Nat)) (run : AdminRun) : AdminRun :=
  if firstBroken l = 0 then run else { st := s, status := firstBroken l }

/-- An instance number in OBJECT is out of range (12 R384). -/
def State.noInst (s : State) (i : Nat) : Bool := decide (s.nInst ≤ i)

/-- The record number `r` of the admin journal (06 R232). -/
def adminOff (r : Nat) : Nat := 0x1000 + 64 * r

/-- A command is put in progress in record `r` with its outcome; it names `ns`. Tile 0 runs it as a task of its engines (01
R20, R22). -/
def State.putAdmin (a : AdminRun) (r index : Nat) (e : Entry) (sb : Bool) (ns : List (Nat × Nat)) : State :=
  let x : AdminRec := { entry := e, index := index, status := a.status, result := a.result, wait := a.wait, sideband := sb, names := ns }
  ({ a.st with obj := { a.st.obj with adm := Map.set a.st.obj.adm r x } } : State).taskStart 0 (.admin r)

/-- An assigned ACODE. -/
def assignedAcode (c : Nat) : Bool := 1 ≤ c && c ≤ 0x14

/-- Runs a command of code `code`; one of an unassigned code is ADM_BAD_COMMAND (03 R90). -/
def State.adminRun (s : State) (e : Entry) (run : State → AdminRun) : AdminRun :=
  if assignedAcode (aCode e) then run s else { st := s, status := adBAD }

/-- A free admin record (06 R232). Which of the 64 is free (log entry 31). -/
def State.freeAdm (s : State) : Option Nat := Map.pickFree s.obj.adm 0 64 (Config.freeChoice s.draws)

/-- The admin command at the position is taken and started (03 R82, R86, 06 R226): its journal record, then the OWN
clear. Tile 0 runs it, and is woken for it (01 R22). Whether a work descriptor taken before the completion is visible observes
the command's effect is undefined (R88): that most effects here hold from the take on is the model's choice (log entry 162). -/
def State.adminTake (s : State) (code : Nat) (e : Entry) (run : State → AdminRun) : State :=
  match s.queue? 0 with
  | none => s
  | some x =>
    if !(dOwn e && (aCode e == code || !assignedAcode (aCode e)) && s.flag F.CTL_AQ_CTRL_ENABLE && s.ownerServed &&
        !s.halted && !s.flag F.CTL_JRNL_CTRL_REPLAY) then s
    else if s.adminHeld e || (s.queue? acqKey).all (fun c => 2 ^ c.log2 ≤ c.reserved) then s
    else if !s.tileActive (s.servingTile 0) then s.wakeQueue 0
    else match s.freeAdm with
      | none => s
      | some r =>
        let s := s.drawn.modQueue acqKey (fun c => { c with reserved := c.reserved + 1 })
        let s := s.countGroup.jrnlChip (adminOff r) 64 e.toNat
        let s := (s.modQueue 0 (fun x => { x with pos := ringNext x.log2 x.pos, found := x.found - 1 })).clearOwn 0 x.pos
        State.putAdmin (s.adminRun e run) r x.pos e false (s.adminNames e)

/-- Configuration records of the chip area (06 R232). The spec states what they hold and neither how it is laid out nor which of
the 32 records holds what: both are free (log entry 29). -/
def cfgOff (n : Nat) : Nat := 0x2000 + 64 * (Config.recordPlace n % 32)
def State.jrnlCfg (s : State) (n : Nat) (e : Entry) (result : Nat) : State :=
  s.jrnlChip (cfgOff n) 64 (Config.recordOf 0 <| payOf [(0, 20, aBody e 16 20), (24, 8, result), (32, 4, aObject e), (63, 1, 0x80)])
def State.jrnlInstCfg (s : State) (i : Nat) : State :=
  let x := s.inst i
  s.jrnlChip (0x4000 + 128 * i) 128 (Config.recordOf 1 <| payOf [(0, 44, x.cfgBody), (48, 1, s.gen i), (56, 8, x.logBase),
    (64, 1, x.logLog2 + b2n (s.flag (F.CTL_INST_LOG_ARMED i)) * 128), (127, 1, b2n x.configured * 128)])
def State.jrnlGroup (s : State) (h : Nat) (e : Entry) (live : Bool) : State :=
  s.jrnlChip (0x8000 + 64 * (h % 4096)) 64 (if live then
    Config.recordOf 2 <| payOf [(0, 24, aBody e 16 24), (24, 8, h), (32, 4, aObject e), (63, 1, 0x80)] else 0)
def State.jrnlPd (s : State) (pd i : Nat) (live : Bool) : State :=
  s.jrnlChip (0x48000 + 16 * pd) 16 (if live then Config.recordOf 3 <| payOf [(0, 4, i), (4, 8, pd), (15, 1, 0x80)] else 0)

/-- The header of an area (06 R228). -/
def State.areaHeader (s : State) (i lost : Nat) (chip : Bool) : Nat :=
  payOf [(0, 4, 0x414A4E31), (4, 2, 1), (6, 1, s.nInst), (7, 1, if chip then 0xFF else i), (8, 8, s.part.chipId.toNat),
    (16, 1, if chip then 0 else s.gen i), (20, 4, lost)]

/-- The queue record of queue `q` (06 R230). Where the queue is gone VALID alone is cleared: CREATE stays, since a replay
finds in it the completion queue of the descriptors that still run (02 R70, log entry 163). -/
def State.jrnlQueue (s : State) (q : Nat) : State :=
  match s.queue? q with
  | some x => s.jrnlInst x.inst (s.queueOff q) 64 x.record
  | none => s.jrnlInst (s.instOfQueue q) (s.queueOff q) 1 0

/-- The headers of the chip area and of instance `i`'s area are written (06 R228): when a queue is created and when N or the
instance is set, since the spec gives no moment (log entry 72). -/
def State.jrnlHeaders (s : State) (i : Nat) : State :=
  (s.jrnlChip 0 32 (s.areaHeader 0 0 true)).jrnlInst i 0 32 (s.areaHeader i 0 false)

/-- A region entry as it stands in the region table (08 R279). -/
def Region.entry (r : Region) : Nat :=
  payOf [(0, 8, r.vbase), (8, 8, r.len), (16, 1, b2n r.valid * 128 + r.access), (17, 1, r.variant), (18, 2, r.pd)]

/-- Entry `x` of instance `i` in its region table follows the cache (08 R279). -/
def State.writeRegion (s : State) (i x : Nat) : State :=
  s.instWrite i ((s.inst i).regionBase + 32 * x) 32 (Map.getD s.obj.regions (i * 2 ^ 24 + x) {}).entry

/-- The connection record of a place of instance `i` is cleared (06 R225, R226). -/
def State.clearConnRecord (s : State) (i : Nat) (p : CtxPlace) : State :=
  match p with
  | .onDie n => s.jrnlInst i (s.connOff n) 64 0
  | .backup n => s.jrnlInst i (s.connOff n) 64 0
  | .gddr n => s.jrnlInst i (s.connOff (65536 / max 1 s.nInst + n)) 64 0
  | .spill n => if s.journals then s.instWrite i ((s.inst i).spillBase + 576 * n + 512) 64 0 else s

/-- The record that a command which waited leaves with its completion: a deregistered entry of the region table, or the
cleared record of a freed context (08 R279, 06 R226). -/
def State.waitDone (s : State) (w : AdminWait) : State :=
  match w with
  | .key i key => s.writeRegion i (key / 256)
  | .freed i p => s.clearConnRecord i p
  | _ => s

/-- The configuration record that a completed command leaves (06 R226). Until then the records and the region table show
nothing of it, so that a replay runs the command again as if for the first time (03 R89). -/
def State.jrnlDone (s : State) (x : AdminRec) : State :=
  let e := x.entry
  let c := aCode e
  let o := aObject e
  if x.status ≠ 0 then s
  else if c = acCREATEQUEUE then (s.jrnlHeaders (s.instOfQueue (o % 65536))).jrnlQueue (o % 65536)
  else if c = acDESTROYQUEUE then s.jrnlQueue (o % 65536)
  else if c = acCREATEPD then s.jrnlPd x.result (o % 128) true
  else if c = acDESTROYPD then s.jrnlPd (o % 65536) 0 false
  else if c = acREGISTER then s.writeRegion ((Map.get? s.obj.pds (o % 65536)).getD 0) (x.result / 256)
  else if c = acDEREGISTER ∨ c = acDESTROYCONN then s.waitDone x.wait
  else if c = acCREATECONN then s.jrnlConn x.result
  else if c = acINSTALLKEY then s.jrnlConn o
  else if c = acCREATEGROUP then s.jrnlGroup x.result e true
  else if c = acDESTROYGROUP then s.jrnlGroup o e false
  else if c = acLOADROUTE then s.jrnlCfg (8 + o % 2) e 0
  else if c = acLOADSCHED then s.jrnlCfg (10 + o % 2) e 0
  else if c = acSWITCH then s.jrnlCfg (14 + 2 * (o % 2) + o / 2 % 2) e 0
  else if c = acSETINSTANCES then (s.jrnlChip 0 32 (s.areaHeader 0 0 true)).jrnlCfg 12 e 0
  else if c = acCONFIGURE then (s.jrnlHeaders (o % 128)).jrnlInstCfg (o % 128)
  else if c = acARMLOG then s.jrnlInstCfg (o % 128)
  else if c = acRESETINSTANCE then
    (s.jrnlInstCfg (o % 128)).jrnlInst (o % 128) 0 32 (s.areaHeader (o % 128) 0 false)
  else if c = acLOADTABLE then s.jrnlCfg (o % 16) e 0
  else s

/-- The completion of an admin command (03 R82). -/
def adminCqe (x : AdminRec) : Cqe :=
  mkCqe x.status (aCode x.entry) false 0 x.index (aCookie x.entry) (if x.status = 0 then x.result else 0)

/-- The command in record `r` is finished: configuration record, record cleared, completion (06 R226). One that came over
the sideband answers there (20 R563). -/
def State.adminFinish (s : State) (r : Nat) (x : AdminRec) : State :=
  let s := ((s.countGroup.jrnlDone x).jrnlChip (adminOff r) 64 0).taskEnd (.admin r)
  if x.sideband then
    { s with obj := { s.obj with adm := Map.erase s.obj.adm r },
             lastRead := .sideband x.status (if x.status = 0 then x.result else 0) 8 }
  else
    let s : State := { s with obj := { s.obj with adm := Map.mod s.obj.adm r (fun y => { y with wait := .done }) } }
    s.post acqKey (adminCqe x) (.admin r)

/-- A device reset is asked for; it begins once the host writes are acknowledged (20 R545, 06 R227). -/
def State.askReset (s : State) : State := { s with mgt := { s.mgt with resetDue := true } }

/-- A write of `w` to `MGT_CTRL` by the control owner, or over the sideband port (20 R545, R565). -/
def State.mgtCtrlWrite (s : State) (w : Word) : State :=
  let s := s.setFld F.MGT_CTRL_SB_WRITE (bits w 30 30)
  if bit w 31 then s.askReset else s

/-- A sideband command is in progress: the control owner's write of `MGT_CTRL` waits for it (20 R565). -/
def State.sbBusy (s : State) : Bool := s.obj.adm.any (fun r => r.2.sideband)

/-- The control owner writes `w` to `MGT_CTRL`: while a sideband command is in progress the write waits (20 R565). -/
def State.ownerCtrlWrite (s : State) (w : Word) : State :=
  if s.sbBusy then { s with mgt := { s.mgt with ctrlWait := some w } } else s.mgtCtrlWrite w

/-- The write of `MGT_CTRL` that waited is applied once no sideband command is in progress (20 R565). -/
def State.handOverCtrl (s : State) : State :=
  match s.mgt.ctrlWait with
  | none => s
  | some w => if s.sbBusy then s else ({ s with mgt := { s.mgt with ctrlWait := none } } : State).mgtCtrlWrite w

end Sys2Proof.Machine
end

