-- ==== Sys2Proof/Machine/Admin.lean ====
section
/-! DEFINITION. The meanings of the admin commands for queues, domains, regions, connections, keys and groups (03 R91-R99,
02 R70-R74, 10 R333-R335). -/

namespace Sys2Proof.Machine

open Host (Outcome)

/-- A descriptor slot that is not a unit slot still belongs to queue `q` (02 R73). -/
def State.queuePending (s : State) (q : Nat) : Bool := s.obj.slots.any (fun x => x.2.queue == q && x.2.phase != .unit)

/-- The ring base is aligned to the smaller of the ring size and 4 KiB (02 R37). -/
def ringAligned (base size : Nat) : Bool := base % min size 4096 == 0

/-- A queue of instance `i` as bytes 16-31 of its CREATE_QUEUE give it (03 R91, 06 R230). -/
def queueAs (i b : Nat) : Queue :=
  let work := !b.testBit 7
  { work := work, inst := i, coherent := b.testBit 6, split := b.testBit 5, log2 := b % 32, k := b / 2 ^ 8 % 32,
    pd := if work then b / 2 ^ 16 % 65536 else 0, cq := if work then b / 2 ^ 32 % 65536 else 0, base := b / 2 ^ 64 % 2 ^ 64,
    create := b }

/-- CREATE_QUEUE (03 R91, 06 R224, 12 R387, 16 R474). -/
def State.createQueue (s : State) (e : Entry) : AdminRun :=
  let q := aObject e % 65536
  let b := aBody e 16 1
  let work := !b.testBit 7
  let coh := b.testBit 6
  let lg := b % 32
  let k := aBody e 17 1 % 32
  let pd := aBody e 18 2
  let cq := aBody e 20 2
  let base := aBody e 24 8
  let i := s.instOfQueue q
  let x := queueAs i (aBody e 16 16)
  s.adminCheck
    [(q == 0 || lg < 4 || 16 < lg || (!coh && (k == 0 || 20 < k)) ||
        !ringAligned base (2 ^ lg * (if work then 64 else 32)), adBAD),
     (work && (!s.isCq cq || !Map.has s.obj.pds pd), adNOTFOUND),
     (work && (s.instOfQueue cq != i || Map.get? s.obj.pds pd != some i), adINSTANCE),
     (!s.mapped i || (work && !s.journals) || !s.flag F.MEM_HOST_BASE_VALID, adORDER),
     (coh && !s.portCache (s.portOf i), adWATCH),
     ((s.queue? q).isSome || s.queuePending q, adINUSE)]
    { st := (State.pollBudget { s with obj := { s.obj with queues := Map.set s.obj.queues q x } }).setFloor q }

/-- CREATE_QUEUE. -/
def execCreateQueue (e : Entry) (s : State) : Outcome State Fault Refusal :=
  .next (s.adminTake acCREATEQUEUE e (fun s => s.createQueue e))

/-- The queue is gone: no further access to its ring (02 R70). -/
def State.removeQueue (s : State) (q : Nat) : State :=
  State.pollBudget { s with obj := { s.obj with queues := Map.erase s.obj.queues q },
                            hpt := { s.hpt with reread := s.hpt.reread.filter (· != q) } }

/-- DESTROY_QUEUE (03 R92, 02 R70-R74); `ring`: the entries with OWN = 1 that one lap from the position found. The first is a
refused one where its completion still waits: it has been taken. A completion queue goes at once, under the conditions tested. -/
def State.destroyQueue (s : State) (e : Entry) (ring : List Entry) : AdminRun :=
  let q := aObject e % 65536
  let busy := match s.queue? q with
    | some x => !x.work && (s.obj.queues.any (fun y => y.2.work && y.1 != 0 && y.2.cq == q) || x.reserved != 0 ||
        !x.waiting.isEmpty)
    | none => false
  let left := match s.queue? q with
    | some x => if x.work then (((List.range (2 ^ x.log2)).map (fun j => (x.pos + j) % 2 ^ x.log2)).zip
        (ring.takeWhile dOwn)).drop (b2n x.blocked) else []
    | none => []
  s.adminCheck [(q == 0, adBAD), ((s.queue? q).isNone, adNOTFOUND), (busy, adINUSE)]
    (if s.isCq q then { st := s.removeQueue q } else { st := s, wait := .destroy q left })

/-- DESTROY_QUEUE. -/
def execDestroyQueue (e : Entry) (ring : List Entry) (s : State) : Outcome State Fault Refusal :=
  .next (s.adminTake acDESTROYQUEUE e (fun s => s.destroyQueue e ring))

/-- Step 1 of 02 R70: each entry found completes with ABORTED and ACCEPTED = 0, and is returned, in ring order; the rest
when it cannot go on. -/
def State.abortEntries (s : State) (q : Nat) : List (Nat × Entry) → State × List (Nat × Entry)
  | [] => (s, [])
  | (j, e) :: t =>
    match s.queue? q with
    | none => (s, [])
    | some x =>
      if x.blocked || (s.queue? x.cq).all (fun c => 2 ^ c.log2 ≤ c.reserved) then (s, (j, e) :: t) else
      match s.newSlot x.inst with
      | none => (s, (j, e) :: t)
      | some z =>
        let s := s.drawn.modQueue x.cq (fun c => { c with reserved := c.reserved + 1 })
        let k : Slot := { desc := e, queue := q, index := j, cq := x.cq, acceptedAt := s.t }
        (s.refuseTake q z stABORTED k).abortEntries q t

/-- Step 2 of 02 R70: accepted descriptors that have not started complete with ABORTED; an operation of a group that only the
descriptor had brought into progress ends with it, and what waited for its room goes on (10 R342, R348). -/
def State.abortUnstarted (s : State) (q : Nat) : State :=
  let zs := s.obj.slots.filter (fun x => x.2.queue == q && (x.2.phase == .launch || x.2.phase == .posted))
  zs.foldl (fun s x =>
    let s : State := { s with mat := { s.mat with posted := Map.erase s.mat.posted x.1 } }
    let s : State := { s with col := { s.col with groups := Map.mapV s.col.groups (fun _ g => { g with
      ops := (g.ops.map (fun o => if o.slot = some x.1 then { o with slot := none } else o)).filter
        (fun o => o.slot.isSome || !o.kids.isEmpty || o.downHdr.isSome || o.upHdr.isSome),
      queued := g.queued.filter (fun y => y.1 != x.1) }) } }
    let e := x.2.desc
    let s := s.finishSlot x.1 stABORTED (if dOpcode e = opCOLLECTIVE then collBody 0 (cOpnum e) 0 0 0 else bytesBody 0)
    if dOpcode e = opCOLLECTIVE then s.enterAll (slotInst x.1) else s) s

/-- CREATE_PD (03 R93). Which number it gets is free (log entry 31). -/
def State.createPd (s : State) (e : Entry) : AdminRun :=
  let i := aObject e % 128
  let free := Map.pickFree s.obj.pds 0 65536 (Config.freeChoice s.draws)
  let n := free.getD 0
  s.adminCheck [(s.noInst i, adBAD), (!s.mapped i, adORDER), (free.isNone, adNORESOURCE)]
    { st := ({ s with obj := { s.obj with pds := Map.set s.obj.pds n i } } : State).drawn, result := n }

/-- CREATE_PD. -/
def execCreatePd (e : Entry) (s : State) : Outcome State Fault Refusal :=
  .next (s.adminTake acCREATEPD e (fun s => s.createPd e))

/-- A domain is used by a queue, region, connection or group (03 R93). -/
def State.pdUsed (s : State) (d : Nat) : Bool :=
  s.obj.queues.any (fun x => x.2.work && x.1 != 0 && x.2.pd == d) || s.obj.regions.any (fun r => r.2.valid && r.2.pd == d) ||
    s.xpt.conns.any (fun k => k.2.pd == d) || s.col.groups.any (fun g => g.2.pd == d)

/-- DESTROY_PD (03 R93). -/
def State.destroyPd (s : State) (e : Entry) : AdminRun :=
  let d := aObject e % 65536
  s.adminCheck [(!Map.has s.obj.pds d, adNOTFOUND), (s.pdUsed d, adINUSE)]
    { st := { s with obj := { s.obj with pds := Map.erase s.obj.pds d } } }

/-- DESTROY_PD. -/
def execDestroyPd (e : Entry) (s : State) : Outcome State Fault Refusal :=
  .next (s.adminTake acDESTROYPD e (fun s => s.destroyPd e))

/-- Region `x` of instance `i` changes in the cache (08 R279); its entry of the table is written with the completion. -/
def State.setRegion (s : State) (i x : Nat) (r : Region) : State :=
  { s with obj := { s.obj with regions := Map.set s.obj.regions (i * 2 ^ 24 + x) r } }

/-- The lowest index of instance `i` that holds no region (03 R94): one of the first n + 1, where n are in use. -/
def State.freeRegion (s : State) (i : Nat) : Option Nat :=
  let used := (s.obj.regions.filter (fun r => r.1 / 2 ^ 24 == i && r.2.valid)).length
  ((List.range (used + 1)).find? (fun x => !(s.region i (x * 256)).valid)).filter
    (fun x => decide (x < min (2 ^ (s.inst i).regionLog2) 0xFFFFFF))

/-- REGISTER_REGION (03 R94). -/
def State.registerRegion (s : State) (e : Entry) : AdminRun :=
  let d := aObject e % 65536
  let i := (Map.get? s.obj.pds d).getD 0
  let vb := aBody e 16 6
  let len := aBody e 24 8
  let want := aBody e 33 3
  let any := want = 0xFFFFFF
  let x := if any then (s.freeRegion i).getD 0 else want
  let old := s.region i (x * 256)
  let variant := if old.used then (old.variant + 1) % 256 else 0
  let r : Region := { vbase := vb, len := len, valid := true, access := aBody e 32 1 % 32, variant := variant, pd := d,
                      used := true }
  s.adminCheck
    [(len == 0 || 2 ^ 48 - vb < len, adBAD),
     (!Map.has s.obj.pds d, adNOTFOUND),
     (!s.mapped i || !(s.inst i).configured, adORDER),
     (!any && want < 2 ^ (s.inst i).regionLog2 && old.valid, adINUSE),
     ((any && (s.freeRegion i).isNone) || (!any && 2 ^ (s.inst i).regionLog2 ≤ want), adNORESOURCE)]
    { st := s.setRegion i x r, result := x * 256 + variant }

/-- REGISTER_REGION. -/
def execRegisterRegion (e : Entry) (s : State) : Outcome State Fault Refusal :=
  .next (s.adminTake acREGISTER e (fun s => s.registerRegion e))

/-- The local keys that a descriptor uses. -/
def localKeys (e : Entry) : List Nat :=
  let op := dOpcode e
  if dLength e = 0 then []
  else if op = opPOSTRECV then [pLkey e]
  else if op = opCOLLECTIVE then [cSkey e, cDkey e]
  else if op = opSEND ∨ op = opWRITE ∨ op = opWRITEIMM ∨ op = opREAD then [dLkey e] else []

/-- The descriptor in slot `z` has passed the check of its local keys, and has not completed (08 R282): a launch makes it at its
start, a COLLECTIVE with its tree step (10 R341). -/
def State.passedKeys (s : State) (z : Nat) (x : Slot) : Bool :=
  (x.phase == .running || x.phase == .posted) && x.due.isNone && (dOpcode x.desc != opCOLLECTIVE ||
    s.col.groups.any (fun g => g.2.ops.any (fun o => o.slot == some z && o.stepped)))

/-- A use of a key of instance `i` is in flight (08 R282): of a descriptor, or of a message whose cell 0 has passed it. -/
def State.keyInUse (s : State) (i key : Nat) : Bool :=
  s.obj.slots.any (fun x => slotInst x.1 == i && s.passedKeys x.1 x.2 && (localKeys x.2.desc).contains key) ||
    s.xpt.conns.any (fun k => k.2.inst == i && k.2.rx.any (fun m => m.key == some key))

/-- DEREGISTER_REGION (03 R95, 08 R279, R282). -/
def State.deregisterRegion (s : State) (e : Entry) : AdminRun :=
  let key := aObject e
  match s.keyInst key with
  | none => { st := s, status := adNOTFOUND }
  | some i => { st := (s.setRegion i (key / 256) { s.region i key with valid := false }).drawn, wait := .key i key }

/-- DEREGISTER_REGION. -/
def execDeregisterRegion (e : Entry) (s : State) : Outcome State Fault Refusal :=
  .next (s.adminTake acDEREGISTER e (fun s => s.deregisterRegion e))

/-- A place for a new context of instance `i`: on die, else a GDDR7 slot, else a spill slot (06 R198), whose index has 25 bits
as that of the handle has. Which one of a kind is free (`d`, log entry 31). An on-die entry of a tile that is not ACTIVE takes
the context in its backup copy, after the GDDR7 slots and before the spill slots (log entry 164). -/
def State.freePlace (s : State) (i d : Nat) : Option CtxPlace :=
  let mine := (s.xpt.conns.filter (fun k => k.2.inst == i)).map (fun k => k.2.place)
  let n := max 1 s.nInst
  let count := mine.length + 1
  let free := fun (x : Nat) => !mine.contains (.onDie x) && !mine.contains (.backup x)
  match pickBelow (65536 / n) (65536 / n) d (fun x => free x && s.tileActive (s.ctxTile i x)) with
  | some x => some (.onDie x)
  | none => match pickBelow (4194304 / n) count d (fun x => !mine.contains (.gddr x)) with
    | some x => some (.gddr x)
    | none => match pickBelow (65536 / n) (65536 / n) d free with
      | some x => some (.backup x)
      | none => (pickBelow (min (s.inst i).spillCtx (2 ^ 25)) count d (fun x => !mine.contains (.spill x))).map CtxPlace.spill

/-- CREATE_CONNECTION (03 R96, 06 R196, 08 R306, 16 R471). Which handle it gets is free (log entry 31). -/
def State.createConnection (s : State) (e : Entry) : AdminRun :=
  let d := aObject e % 65536
  let i := (Map.get? s.obj.pds d).getD 0
  let p := aBody e 16 4
  let ep := p % 2 ^ 17
  let pi := p / 2 ^ 17 % 128
  let cls := p / 2 ^ 24 % 8
  let enc := (aBody e 24 1).testBit 0
  let share := min (4259840 / max 1 s.nInst + (s.inst i).spillCtx) (2 ^ 25)
  let idx := Map.pickFree s.xpt.conns (i * 2 ^ 25) share (Config.freeChoice s.draws)
  let place := s.freePlace i (Config.freeChoice (s.draws + 1))
  let keyed := (s.xpt.conns.filter (fun k => k.2.inst == i && k.2.encrypt)).length
  let h := idx.getD 0
  let k : Conn := { inst := i, pd := d, peerEp := ep, peerInst := pi, cls := cls, peerHandle := aBody e 20 4,
                    encrypt := enc, place := place.getD (.onDie 0), used := s.t }
  s.adminCheck
    [(enc && !s.part.crypt, stABSENT), (!Map.has s.obj.pds d, adNOTFOUND), (!s.mapped i, adORDER),
     ((s.connBy ep pi cls).isSome, adINUSE), (idx.isNone || place.isNone || (enc && 65536 / max 1 s.nInst ≤ keyed), adNORESOURCE)]
    { st := ({ s with xpt := { s.xpt with conns := Map.set s.xpt.conns h k } } : State).drawn.drawn, result := h }

/-- CREATE_CONNECTION. -/
def execCreateConnection (e : Entry) (s : State) : Outcome State Fault Refusal :=
  .next (s.adminTake acCREATECONN e (fun s => s.createConnection e))

/-- A context is freed, with what was to be sent on it; the groups with an edge on it break (10 R352). -/
def State.freeConn (s : State) (h : Nat) : State :=
  let gs := s.groupsOn h
  let s := (s.withdrawAll (fun w => w.master.via && w.master.who == h))
  let us := s.obj.slots.filter (fun x => x.2.phase == .unit && (unitFields x.2.desc).handle == h)
  let s := us.foldl (fun s x => s.freeSlot x.1) s
  let s := match s.conn? h with
    | some k => s.loseRecvs h k stUNREACHABLE
    | none => s
  let s := s.breakGroups stUNREACHABLE s.breakFuel (ownBreaks gs)
  { s with xpt := { s.xpt with conns := Map.erase s.xpt.conns h, msgs := s.xpt.msgs.filter (fun m => m.2.handle != h),
                               swaps := s.xpt.swaps.filter (· != h) } }

/-- DESTROY_CONNECTION (03 R97). -/
def State.destroyConnection (s : State) (e : Entry) : AdminRun :=
  let h := aObject e
  let busy := !(s.slotsOn h).isEmpty || (s.conn? h).any (fun k => !k.locks.isEmpty) ||
    s.atu.held.any (fun x => x.2.owner.via && x.2.owner.who == h)
  s.adminCheck [((s.conn? h).isNone, adNOTFOUND), (busy, adINUSE)]
    { st := s.freeConn h, wait := .freed (handleInst h) (((s.conn? h).map (·.place)).getD (.onDie 0)) }

/-- DESTROY_CONNECTION. -/
def execDestroyConnection (e : Entry) (s : State) : Outcome State Fault Refusal :=
  .next (s.adminTake acDESTROYCONN e (fun s => s.destroyConnection e))

/-- INSTALL_KEY (03 R98, 08 R301, R302). The key takes hold at the completion. -/
def State.installKeyRun (s : State) (e : Entry) : AdminRun :=
  let h := aObject e
  let n := aBody e 16 1
  let key := BitVec.ofNat 256 (ofBytesBE ((List.range 32).map (fun i => aBody e (24 + i) 1)))
  s.adminCheck
    [(!s.part.crypt, stABSENT), ((s.conn? h).isNone, adNOTFOUND), ((s.conn? h).any (fun k => !k.encrypt), adORDER),
     ((s.conn? h).any (fun k => k.installed.any (fun y => n != (y.epoch + 1) % 256)), adKEYEPOCH)]
    { st := s, wait := .install h n key }

/-- INSTALL_KEY. -/
def execInstallKey (e : Entry) (s : State) : Outcome State Fault Refusal :=
  .next (s.adminTake acINSTALLKEY e (fun s => s.installKeyRun e))

/-- An entry of a tree record (10 R334). -/
def treeEdge (t n : Nat) : Edge :=
  let w := t / 256 ^ (64 + 16 * n)
  { ep := w % 2 ^ 17, inst := w / 2 ^ 17 % 128, rank := w / 2 ^ 32 % 2 ^ 32, handle := w / 2 ^ 64 % 2 ^ 32,
    subtree := w / 2 ^ 96 % 2 ^ 32 }

/-- A reserved bit of the tree record is set (10 R334). -/
def treeReserved (t kids : Nat) : Bool :=
  t / 2 ^ 116 % 16 != 0 || t / 2 ^ 124 % 16 != 0 || t / 2 ^ 135 % 2 ^ 25 != 0 || t / 2 ^ 192 % 2 ^ 320 != 0 ||
    (List.range (kids + 1)).any (fun n => t / 256 ^ (64 + 16 * n) / 2 ^ 24 % 256 != 0) ||
    t / 256 ^ 64 / 2 ^ 96 % 2 ^ 32 != 0

/-- The member of instance `i` that a tree record gives (10 R333, R334). -/
def treeGroup (i gid members rank t : Nat) : Group :=
  let level := t / 2 ^ 112 % 16
  { inst := i, gid := gid, members := members, rank := rank, pd := t / 2 ^ 96 % 2 ^ 16, level := level,
    height := t / 2 ^ 120 % 16, subtree := t / 2 ^ 160 % 2 ^ 32, parent := if level = 0 then none else some (treeEdge t 0),
    children := (List.range (min (t / 2 ^ 128 % 128) 64)).map (fun n => treeEdge t (n + 1)) }

/-- CREATE_GROUP (03 R99, 10 R333-R335); `tree` is what the read of the tree record returned. Which of the 4,096 records it gets
is free (log entry 31). -/
def State.createGroup (s : State) (e : Entry) (tree : HostRead) : AdminRun :=
  let i := aObject e % 128
  let gid := aBody e 16 4
  let members := aBody e 20 4
  let rank := aBody e 24 4
  let len := aBody e 36 4
  let lenBad := len < 80 || 1104 < len || len % 16 != 0
  let t := match tree with | .data d => d | .error => 0
  let kids := t / 2 ^ 128 % 128
  let level := t / 2 ^ 112 % 16
  let height := t / 2 ^ 120 % 16
  let sub := t / 2 ^ 160 % 2 ^ 32
  let pd := t / 2 ^ 96 % 2 ^ 16
  let parent := treeEdge t 0
  let zeroParent := t / 256 ^ 64 % 2 ^ 128 == 0
  let children := (List.range (min kids 64)).map (fun n => treeEdge t (n + 1))
  let edges := (if level = 0 then [] else [parent]) ++ children
  let read := tree != .error && !lenBad
  let named := edges.filter (fun g => g.handle != localEdge)
  let ranks := edges.map (·.rank)
  let bad := t % 2 ^ 32 != gid || t / 2 ^ 32 % 2 ^ 32 != members || t / 2 ^ 64 % 2 ^ 32 != rank || 64 < kids ||
    len != 64 + 16 * (kids + 1) || 8 < height || height < level || (zeroParent != (level == 0)) ||
    (children.map (·.subtree)).sum + 1 != sub || (level == 0 && sub != members) ||
    !decide (ranks.Nodup) ||
    named.any (fun g => (s.conn? g.handle).any (fun k => k.peerEp != g.ep || k.peerInst != g.inst)) || treeReserved t kids
  let idx := pickBelow 4096 4096 (Config.freeChoice s.draws) (fun n => !s.col.groups.any (fun g => g.1 % 4096 == n))
  let h := i * 2 ^ 25 + idx.getD 0
  s.adminCheck
    [(s.noInst i || members == 0 || 131072 < members || members ≤ rank || lenBad, adBAD),
     (read && (!Map.has s.obj.pds pd || named.any (fun g => (s.conn? g.handle).isNone)), adNOTFOUND),
     (read && (Map.get? s.obj.pds pd != some i || named.any (fun g => (s.conn? g.handle).any (fun k => k.inst != i))),
       adINSTANCE),
     (!s.mapped i, adORDER),
     (s.col.groups.any (fun g => g.2.gid == gid && g.2.rank == rank), adINUSE),
     (idx.isNone, adNORESOURCE), (!read && !lenBad, adHOSTREAD), (read && bad, adTABLE)]
    { st := ({ s with col := { s.col with groups := Map.set s.col.groups h (treeGroup i gid members rank t) } } : State).drawn,
      result := h }

/-- CREATE_GROUP. -/
def execCreateGroup (e : Entry) (tree : HostRead) (s : State) : Outcome State Fault Refusal :=
  .next (s.adminTake acCREATEGROUP e (fun s => s.createGroup e tree))

/-- DESTROY_GROUP (03 R99): no COLLECTIVE on it may be outstanding; staging that children's messages held is free. -/
def State.destroyGroup (s : State) (e : Entry) : AdminRun :=
  let g := aObject e
  let busy := (s.group? g).any (fun x => !x.queued.isEmpty || x.ops.any (fun o => o.slot.isSome)) ||
    s.obj.slots.any (fun z => dOpcode z.2.desc == opCOLLECTIVE && dHandle z.2.desc == g &&
      (z.2.phase == .launch || z.2.phase == .running))
  let gone : State := { s with col := { s.col with groups := Map.erase s.col.groups g } }
  s.adminCheck [((s.group? g).isNone, adNOTFOUND), (busy, adINUSE)] { st := gone.enterAll (handleInst g) }

/-- DESTROY_GROUP. -/
def execDestroyGroup (e : Entry) (s : State) : Outcome State Fault Refusal :=
  .next (s.adminTake acDESTROYGROUP e (fun s => s.destroyGroup e))

end Sys2Proof.Machine
end

