-- ==== Sys2Proof/Machine/Atu.lean ====
section
/-! DEFINITION. The atomic and lock unit: requests of connections, the lock window, operations on words (09). -/

namespace Sys2Proof.Machine

open Host (Outcome)

/-- The word after an atomic operation (09 R311). -/
def atomicNew (op old a b : Nat) : Nat :=
  if op = 0 then (if old = a then b else old) else if op = 1 then (old + a) % 2 ^ 64 else a

/-- The request at the front of connection `h` that the unit acts on next: of type `typ`, complete, its tag verified
(09 R314, R316). -/
def State.headReq (s : State) (h typ : Nat) : Option (Conn × RxMsg) :=
  match s.conn? h with
  | none => none
  | some k =>
    if k.st ≠ .opened ∨ s.stale k then none else
    match k.rx.find? (fun m => m.seq == (k.wm + 1) % 65536) with
    | none => none
    | some m =>
      if m.typ = typ && m.status == 0 && !m.served && m.full && !k.recs.any (fun r => r.seq == m.seq) then some (k, m)
      else none

/-- A request fails its check: no effect, no response (09 R314, 08 R294). -/
def State.failReq (s : State) (h q st : Nat) : State := ((s.failMsg h q st).moveFront h).faultCheck h

/-- The request `q` of connection `h` has passed the check of its key, whose use is in flight from then on (08 R282). -/
def State.passKey (s : State) (h q key : Nat) : State := s.modConn h (fun k => k.modRx q (fun m => { m with key := some key }))

/-- An operation of connection `h` for its request `q` is under way. -/
def State.reqBusy (s : State) (h q : Nat) : Bool :=
  s.atu.ops.any (fun o => o.kind == .atomic h q || o.kind == .acquire h q || o.kind == .release h q)

/-- The unit slot `z` records a response, which is then sent; WM advances over the request (09 R316). The slot's NEW is
still to be written if `write` names a GDDR7 word. -/
def State.respond (s : State) (h q z : Nat) (u : UnitFields) : State :=
  ((s.modUnit z (fun _ => u)).advanceOver h q).sendUnit z

/-- An operation on the word at `addr` for the request `q` of connection `h`: the unit slot is held, and on a host word the
operation goes out (09 R315, R316). -/
def State.hostOp (s : State) (kind : UnitKind) (h i key off addr prio tag : Nat) (act : WordAct) (next : Option Waiter) : State :=
  match s.holdUnit i { kind := 0, handle := h } with
  | (s, none) => s
  | (s, some z) => s.startOp { kind := kind, inst := i, key := key, offset := off, addr := addr, prio := prio, tag := tag,
                               slot := some z, act := act, next := next }

/-- What an atomic operation asks of a host word (09 R311). -/
def atomicAct (op a b : Nat) : WordAct := if op = 0 then .cas a b else if op = 1 then .add a else .swap a

/-- A response on a GDDR7 word that is written: PENDING until then (09 R316). -/
def State.gddrDone (s : State) (kind : UnitKind) (h q i key off addr g new : Nat) (u : UnitFields) : State :=
  match s.takeUnit i { u with pending := true, reqSeq := q, handle := h, new := new, maddr := g } with
  | (s, none) => s
  | (s, some z) =>
    ((s.advanceOver h q).startOp { kind := kind, inst := i, key := key, offset := off, addr := addr, slot := some z,
                                   write := some (g, new) }).sendUnit z

/-- The unit acts on the ATOMIC_REQ at the front of connection `h` (09 R311, R314, R316, R331). -/
def State.atomicReq (s : State) (h : Nat) : State :=
  match s.headReq h tyATOMICREQ with
  | none => s
  | some (k, m) =>
    if s.reqBusy h m.seq then s else
    if !s.onDie h then s.needContext h else
    let c := m.cell0
    let i := k.inst
    match s.wordCheck (.request h m.seq) (s.connTile h) i c.extKey (some k.pd) acATOMIC c.extOffset with
    | (s, .wait) => s
    | (s, .fail st) => s.failReq h m.seq st
    | (s, .ok a) =>
      let op := c.extImm % 4
      if op = 3 ∨ (s.heldAt i a).isSome = true then s.failReq h m.seq stPROTECTION
      else if s.wordBusy i a || (s.newSlot i).isNone then s
      else match s.gddrAt i a with
        | some g =>
          let old := ramRead s.ram.cells g 8
          s.countOp.gddrDone (.atomic h m.seq) h m.seq i c.extKey c.extOffset a g
            (atomicNew op old (c.pb 32 8) (c.pb 40 8)) { kind := usATOMIC, result := old, rimm := m.seq }
        | none =>
          if !s.fnUp (s.portOf i) (s.fnOf i) then s
          else if !s.pathOpen i then (s.pathFail i).failReq h m.seq stPROTECTION
          else (s.passKey h m.seq c.extKey).hostOp (.atomic h m.seq) h i c.extKey c.extOffset a 0 0
            (atomicAct op (c.pb 32 8) (c.pb 40 8)) none

/-- ATOMIC_REQ (09 R316). -/
def execAtomicReq (h : Word) (v : View) (s : State) : Outcome State Fault Refusal :=
  .next ((s.see v).atomicReq h.toNat)

/-- The fields of a LOCK_REQ (09 R313). -/
def lqLop (c : Cell) : Nat := c.extImm % 4
def lqPrio (c : Cell) : Nat := nbits c.extImm 10 8
def lqTag (c : Cell) : Nat := nbits c.extImm 31 16

/-- A LOCK_RESP to request `q`, with no operation on the word. -/
def State.lockAnswer (s : State) (i h q st word waiters : Nat) : State :=
  match s.takeUnit i { kind := usLOCK, reqSeq := q, handle := h, result := word, rimm := lockImm q st waiters } with
  | (s, none) => s
  | (s, some z) => (s.advanceOver h q).sendUnit z

/-- Master `a` waits for hold `n` at the tail of its priority (09 R319, R329). -/
def State.joinHold (s : State) (n : Nat) (w : Waiter) : State :=
  (s.modHeld n (fun x => { x with waiters := x.waiters ++ [w] })).levelCheck n

/-- Whether an acquire of the word at `addr` by master `a` can go ahead, waits, or fails (09 R319). -/
inductive Claim where
  | take
  | queue (n : Nat)
  | fail (status waiters : Nat)
  deriving DecidableEq, Repr

/-- The registry's answer to an acquire (09 R319, R332). -/
def State.claim (s : State) (i addr : Nat) (a : Master) : State × Claim :=
  match s.heldAt i addr with
  | some (n, x) =>
    if x.owner = a then (s, .fail stPROTECTION x.waiters.length)
    else if 16384 ≤ s.waiterCount then (s.bump Reg.ATU_WAIT_LIMIT, .fail stWAITLIMIT x.waiters.length)
    else ((s.occur bkATU 0x11 [0] 1).registryStep addr, .queue n)
  | none =>
    if 65536 ≤ s.atu.held.length then (s.bump Reg.ATU_TABLE_FULL, .fail stTABLEFULL 0) else (s, .take)

/-- The word that a grant to a master makes of value `v`, and the status of the grant (09 R319). -/
def State.grantWord (s : State) (a : Master) (prio v : Nat) : Nat × Nat :=
  let ab := v.testBit 63 || v.testBit 62
  (s.ownerWord a prio ab, if ab then stABANDONED else stSUCCESS)

/-- The word joins the registry with its owner; a word that was LOCKED by a stranger is counted (09 R319). -/
def State.addHeld (s : State) (i key off addr : Nat) (a : Master) (prio v : Nat) : State :=
  let x : Held := { inst := i, key := key, offset := off, addr := addr, owner := a, prio := prio,
                    word := (s.grantWord a prio v).1, level := prio, grant := s.atu.grants }
  let s := if v.testBit 63 then s.mismatch key else s
  { s.countOp.occur bkATU 0x12 [0] 1 with atu := { s.atu with
      held := Map.set s.atu.held s.atu.nextHeld x, nextHeld := s.atu.nextHeld + 1, grants := s.atu.grants + 1 } }

/-- The unit acts on an ACQUIRE of connection `h` (09 R319, R322). -/
def State.acquireReq (s : State) (h : Nat) (k : Conn) (m : RxMsg) (a : Nat) : State :=
  let c := m.cell0
  let i := k.inst
  let w : Master := { via := true, inst := i, who := h, tag := lqTag c }
  let p := lqPrio c
  match s.claim i a w with
  | (s, .fail st n) => s.lockAnswer i h m.seq st 0 n
  | (s, .queue n) =>
    let u : UnitFields := { kind := usLOCK, waiting := true, reqSeq := m.seq, handle := h, key := c.extKey,
                            offset := c.extOffset, prio := p, tag := lqTag c }
    match s.takeUnit i u with
    | (s, none) => s
    | (s, some z) => (s.advanceOver h m.seq).joinHold n { master := w, prio := p, slot := some z }
  | (s, .take) =>
    match s.gddrAt i a with
    | some g =>
      let v := ramRead s.ram.cells g 8
      let r := s.grantWord w p v
      (s.addHeld i c.extKey c.extOffset a w p v).gddrDone (.acquire h m.seq) h m.seq i c.extKey c.extOffset a g r.1
        { kind := usLOCK, result := r.1, rimm := lockImm m.seq r.2 0 }
    | none =>
      if !s.fnUp (s.portOf i) (s.fnOf i) then s
      else if !s.pathOpen i then (s.pathFail i).lockAnswer i h m.seq stPROTECTION 0 0
      else s.hostOp (.acquire h m.seq) h i c.extKey c.extOffset a p (lqTag c) (.acquire (s.ownerWord w p false)) none

/-- The word that a release leaves: the next owner's, or 0 (09 R320). -/
def State.releaseWord (s : State) (x : Held) : Nat :=
  match nextWaiter x.waiters with
  | some w => s.ownerWord w.master w.prio false
  | none => 0

/-- Waiters left on hold `n` once the next owner has it. -/
def leftWaiters (x : Held) : Nat := x.waiters.length - 1

/-- The hold passes on by a release (09 R320). -/
def State.releaseDone (s : State) (n : Nat) (x : Held) : State := s.handOver n x (nextWaiter x.waiters) stSUCCESS

/-- The unit acts on a RELEASE of connection `h` (09 R320). -/
def State.releaseReq (s : State) (h : Nat) (k : Conn) (m : RxMsg) (a : Nat) : State :=
  let c := m.cell0
  let i := k.inst
  let w : Master := { via := true, inst := i, who := h, tag := lqTag c }
  match s.heldAt i a with
  | none => s.lockAnswer i h m.seq stPROTECTION 0 0
  | some (n, x) =>
    if x.owner ≠ w then s.lockAnswer i h m.seq stPROTECTION 0 x.waiters.length else
    match s.gddrAt i a with
    | some g =>
      if ramRead s.ram.cells g 8 ≠ x.word then ((s.mismatch x.key).failHeld n x stINTEGRITY).lockAnswer i h m.seq stINTEGRITY 0 0
      else
        (s.releaseDone n x).gddrDone (.release h m.seq) h m.seq i c.extKey c.extOffset a g (s.releaseWord x)
          { kind := usLOCK, result := x.word, rimm := lockImm m.seq stSUCCESS (leftWaiters x) }
    | none =>
      if !s.fnUp (s.portOf i) (s.fnOf i) then s
      else if !s.pathOpen i then (s.pathFail i).lockAnswer i h m.seq stPROTECTION 0 x.waiters.length
      else s.hostOp (.release h m.seq) h i c.extKey c.extOffset a 0 (lqTag c) (.cas x.word (s.releaseWord x))
        (nextWaiter x.waiters)

/-- The unit acts on the LOCK_REQ at the front of connection `h`, if its LOP is `lop`; an unassigned LOP fails the check
(09 R313, R314). -/
def State.lockReq (s : State) (h lop : Nat) (act : State → Conn → RxMsg → Nat → State) : State :=
  match s.headReq h tyLOCKREQ with
  | none => s
  | some (k, m) =>
    let c := m.cell0
    if lqLop c = 0 then s.failReq h m.seq stPROTECTION
    else if lqLop c ≠ lop ∨ s.reqBusy h m.seq then s else
    if !s.onDie h then s.needContext h else
    match s.wordCheck (.request h m.seq) (s.connTile h) k.inst c.extKey (some k.pd) acLOCK c.extOffset with
    | (s, .wait) => s
    | (s, .fail st) => s.failReq h m.seq st
    | (s, .ok a) => if s.wordBusy k.inst a || (s.newSlot k.inst).isNone then s else act (s.passKey h m.seq c.extKey) k m a

/-- ACQUIRE (09 R319). -/
def execAcquire (h : Word) (v : View) (s : State) : Outcome State Fault Refusal :=
  .next ((s.see v).lockReq h.toNat 1 (fun s k m a => s.acquireReq h.toNat k m a))

/-- RELEASE (09 R320). -/
def execRelease (h : Word) (v : View) (s : State) : Outcome State Fault Refusal :=
  .next ((s.see v).lockReq h.toNat 2 (fun s k m a => s.releaseReq h.toNat k m a))

/-- The ABANDON_ALL at the front of connection `h` (09 R313, R330): WM advances over it. -/
def State.abandonReq (s : State) (h : Nat) : State :=
  match s.headReq h tyLOCKREQ with
  | none => s
  | some (_, m) => if lqLop m.cell0 = 3 then (s.abandonConn h true).advanceOver h m.seq else s

/-- ABANDON_ALL (09 R330). -/
def execAbandonAll (h : Word) (v : View) (s : State) : Outcome State Fault Refusal :=
  .next ((s.see v).abandonReq h.toNat)

/-- Fields of a lock-window slot (09 R323). -/
def State.lkKey (s : State) (i n : Nat) : Nat := (s.rd (Reg.ATU_LK_KEY i n)).toNat
def State.lkTag (s : State) (i n : Nat) : Nat := s.fld (F.ATU_LK_CTRL_TAG i n)
def State.lkPrio (s : State) (i n : Nat) : Nat := s.fld (F.ATU_LK_CTRL_PRIO i n)
def State.lkOffset (s : State) (i n : Nat) : Nat := s.fld (F.ATU_LK_OFFSET_OFFSET i n)
def State.lkState (s : State) (i n : Nat) : Nat := s.fld (F.ATU_LK_STATUS_STATE i n)

/-- The master that slot `n` of instance `i` is (09 R323). -/
def State.lkMaster (s : State) (i n : Nat) : Master := { via := false, inst := i, who := n, tag := s.lkTag i n }

/-- The acquire by slot `n` of instance `i` goes on (09 R319, R324): its STATE is WAITING while its outcome is not known. -/
def State.slotAcquire (s : State) (i n : Nat) : State :=
  let key := s.lkKey i n
  let off := s.lkOffset i n
  let p := s.lkPrio i n
  let a := s.lkMaster i n
  match s.wordCheck (.slot (i * 256 + n)) (s.servingTile (n % 64)) i key none acLOCK off with
  | (s, .wait) => s
  | (s, .fail st) => s.slotOutcome i n st 0
  | (s, .ok w) =>
    if s.wordBusy i w then s else
    match s.claim i w a with
    | (s, .fail st _) => s.slotOutcome i n st 0
    | (s, .queue h) => s.joinHold h { master := a, prio := p }
    | (s, .take) =>
      match s.gddrAt i w with
      | some g =>
        let v := ramRead s.ram.cells g 8
        let r := s.grantWord a p v
        let s := s.addHeld i key off w a p v
        ({ s with ram := { s.ram with cells := ramWrite s.ram.cells g 8 r.1 } } : State).slotOutcome i n r.2 0
      | none =>
        if !s.fnUp (s.portOf i) (s.fnOf i) then s
        else if !s.pathOpen i then (s.pathFail i).slotOutcome i n stPROTECTION 0
        else s.startOp { kind := .slotAcquire (i * 256 + n), inst := i, key := key, offset := off, addr := w, prio := p, tag := s.lkTag i n,
                         act := .acquire (s.ownerWord a p false) }

/-- Slot `n` of instance `i` waits for a hold, or an operation of its own is under way. -/
def State.slotPlaced (s : State) (i n : Nat) : Bool :=
  s.atu.held.any (fun x => x.2.waiters.any (fun w => !w.master.via && w.master.inst == i && w.master.who == n)) ||
    s.atu.ops.any (fun o => o.kind == .slotAcquire (i * 256 + n) && !o.gone)

/-- Acquires of window slots that could not go on yet try again, in the order in which they came (09 R309, R324). -/
def State.retrySlots (s : State) : State :=
  let wants := fun (s : State) (k : Nat) => s.lkState (k / 256) (k % 256) = lsWAITING && !s.slotPlaced (k / 256) (k % 256)
  let s := s.atu.arrivals.foldl (fun s k => if wants s k then s.slotAcquire (k / 256) (k % 256) else s) s
  { s with atu := { s.atu with arrivals := s.atu.arrivals.filter (fun k => wants s k) } }

/-- A read of ATU_LK_ACQUIRE of slot `n` of instance `i` (09 R324, R328): the read stalls until its outcome is known. -/
def State.lkRead (s : State) (i n : Nat) : State :=
  let k := i * 256 + n
  let st := s.lkState i n
  if st = lsHELD then
    { s with lastRead := .data (s.portOf i) (BitVec.ofNat 64 (lrHELD * 2 ^ 56)) 8 }
  else
    let s : State := { s with atu := { s.atu with reading := Map.set s.atu.reading k s.t, idleSince := Map.erase s.atu.idleSince k } }
    if st = lsGRANTED then (s.setFld (F.ATU_LK_STATUS_STATE i n) lsHELD).slotReturn i n
    else
      let s := s.setFld (F.ATU_LK_STATUS_STATE i n) lsWAITING
      let s : State := if s.atu.arrivals.contains k then s else { s with atu := { s.atu with arrivals := s.atu.arrivals ++ [k] } }
      s.retrySlots

/-- The window of instance `i` is there: the instance exists and is mapped (12 R384, R388). -/
def State.windowOpen (s : State) (i : Nat) : Bool := decide (i < s.nInst) && s.mapped i

/-- ATU_LK_ACQUIRE (09 R324). -/
def execAtuLkAcquire (i : InstId) (n : Fin 256) (v : View) (s : State) : Outcome State Fault Refusal :=
  .next (let s := s.see v
    if s.windowOpen i.val then s.lkRead i.val n.val else s)

/-- The outcome of a release by slot `n` (09 R325). -/
def State.slotReleased (s : State) (i n st : Nat) : State := s.setFld (F.ATU_LK_STATUS_LAST i n) (resultOf st)

/-- The release by slot `n` of instance `i` of hold `h` (09 R320, R325). -/
def State.slotRelease (s : State) (i n h : Nat) (x : Held) : State :=
  let o : UnitOp := { kind := .slotRelease (i * 256 + n), inst := i, key := x.key, offset := x.offset, addr := x.addr,
                      tag := x.owner.tag }
  if s.wordBusy i x.addr then s.startOp o else
  match s.gddrAt i x.addr with
  | some g =>
    if ramRead s.ram.cells g 8 ≠ x.word then ((s.mismatch x.key).failHeld h x stINTEGRITY).slotReleased i n stINTEGRITY
    else
      let w := s.releaseWord x
      let s : State := { s with ram := { s.ram with cells := ramWrite s.ram.cells g 8 w } }
      (s.releaseDone h x).slotReleased i n stSUCCESS
  | none => if !s.pathOpen i then (s.pathFail i).slotReleased i n stPROTECTION
    else s.startOp { o with act := .cas x.word (s.releaseWord x), next := nextWaiter x.waiters }

/-- The hold of slot `n` of instance `i` that is named by a key, an offset and a tag (09 R323, R325). -/
def State.holdBy (s : State) (i n key off tag : Nat) : Option (Nat × Held) :=
  s.atu.held.find? (fun x => x.2.owner == { via := false, inst := i, who := n, tag := tag } && x.2.inst == i && x.2.key == key &&
    x.2.offset == off)

/-- The hold that slot `n` of instance `i` names. -/
def State.slotHold (s : State) (i n : Nat) : Option (Nat × Held) :=
  s.holdBy i n (s.lkKey i n) (s.lkOffset i n) (s.lkTag i n)

/-- The hold that operation `o` of a slot is for. -/
def State.opHold (s : State) (k : Nat) (o : UnitOp) : Option (Nat × Held) := s.holdBy (k / 256) (k % 256) o.key o.offset o.tag

/-- The wait of slot `n` of instance `i` is withdrawn (09 R324, R325). -/
def State.slotWithdraw (s : State) (i n : Nat) : State :=
  match s.atu.held.find? (fun x => x.2.waiters.any (fun w => !w.master.via && w.master.inst == i && w.master.who == n)) with
  | some (h, _) => s.withdraw h (fun w => !w.master.via && w.master.inst == i && w.master.who == n)
  | none =>
    let s := (s.slotResult i n lrWITHDRAWN 0).setFld (F.ATU_LK_STATUS_STATE i n) lsIDLE
    let k := i * 256 + n
    ({ s with atu := { s.atu with
        idleSince := Map.erase s.atu.idleSince k, arrivals := s.atu.arrivals.filter (· != k),
        ops := s.atu.ops.map (fun o => if o.kind = .slotAcquire k then { o with gone := true } else o) } } : State).slotReturn i n

/-- A write to ATU_LK_RELEASE (09 R325). -/
def State.lkWrite (s : State) (i n : Nat) : State :=
  let st := s.lkState i n
  if st = lsIDLE then s
  else if st = lsWAITING then s.slotWithdraw i n
  else
    let s := s.setFld (F.ATU_LK_STATUS_STATE i n) lsIDLE
    match s.slotHold i n with
    | some (h, x) => s.slotRelease i n h x
    | none => s.slotReleased i n stPROTECTION

/-- ATU_LK_RELEASE (09 R325). -/
def execAtuLkRelease (i : InstId) (n : Fin 256) (v : View) (s : State) : Outcome State Fault Refusal :=
  .next (let s := s.see v
    if s.windowOpen i.val then s.lkWrite i.val n.val else s)

/-- LK_ACQUIRE_RETRY: a stalled read has waited 40 us (09 R324). -/
def execLkAcquireRetry (i : InstId) (n : Fin 256) (s : State) : Outcome State Fault Refusal :=
  .next (let k := i.val * 256 + n.val
    if Map.has s.atu.reading k && s.lkState i.val n.val == lsWAITING then
      let s := ((s.bump Reg.ATU_RETRY).slotResult i.val n.val lrRETRY 0).slotReturn i.val n.val
      { s with atu := { s.atu with idleSince := Map.set s.atu.idleSince k s.t } }
    else s)

/-- LK_SLOT_WITHDRAW: a slot has been WAITING for 1 ms without a read (09 R324). -/
def execLkSlotWithdraw (i : InstId) (n : Fin 256) (v : View) (s : State) : Outcome State Fault Refusal :=
  .next (let s := s.see v
    let k := i.val * 256 + n.val
    if s.lkState i.val n.val == lsWAITING && !Map.has s.atu.reading k then
      let held := s.atu.held.any (fun x => x.2.waiters.any (fun w => !w.master.via && w.master.inst == i.val && w.master.who == n.val))
      let s := if held then s else s.bump Reg.ATU_WITHDRAWN
      s.slotWithdraw i.val n.val
    else s)

/-- Operation `o` is over. -/
def State.opOver (s : State) (o : UnitOp) : State := { s with atu := { s.atu with ops := dropFirst o s.atu.ops } }

/-- Operation `o` on a host word is over, and so is its use of a line (15 R457). -/
def State.hostOpOver (s : State) (o : UnitOp) : State :=
  (s.opOver o).freeLine (s.portOf o.inst) (s.fnOf o.inst) o.addr true

/-- The operations that wait for the word at `addr` start one after another, until one is under way (09 R309): releases by
window slots, abandonments, a hand-over. -/
def State.nextOps (s : State) (i addr : Nat) : Nat → State
  | 0 => s
  | n + 1 =>
    if s.wordBusy i addr then s else
    match s.atu.ops.find? (fun o => o.inst == i && o.addr == addr) with
    | none => s
    | some o =>
      let s := s.opOver o
      (match o.kind with
        | .abandon h => s.abandonGo h
        | .pass h => s.passOn h
        | .slotRelease k => match s.opHold k o with
          | some (h, x) => s.slotRelease (k / 256) (k % 256) h x
          | none => s.slotReleased (k / 256) (k % 256) stPROTECTION
        | _ => s).nextOps i addr n
def State.nextOp (s : State) (i addr : Nat) : State := s.nextOps i addr s.atu.ops.length

/-- What the tries of an acquire on a host word found (09 R319): the value whose CAS took the word, and the number of
tries that found it changed. -/
def casTries : Nat → List (Nat × Nat) → Nat → Option Nat × Nat
  | 0, _, bad => (none, bad)
  | _, [], bad => (none, bad)
  | n + 1, (v, w) :: t, bad => if v = w then (some v, bad) else casTries n t (bad + 1)

/-- What an operation found ends it: a release or an atomic operation makes one try, an acquire tries until one finds the value
it read, at most 8 times (09 R319). -/
def triesOver (kind : UnitKind) (tries : List (Nat × Nat)) : Bool :=
  match kind with
  | .acquire _ _ => 8 ≤ tries.length || tries.any (fun t => t.1 == t.2)
  | .slotAcquire _ => 8 ≤ tries.length || tries.any (fun t => t.1 == t.2)
  | _ => !tries.isEmpty

/-- Tries that found the word changed are counted. -/
def State.countBad (s : State) (key : Nat) : Nat → State
  | 0 => s
  | n + 1 => (s.mismatch key).countBad key n

/-- The held unit slot of an operation is free again without having been used. -/
def State.unholdUnit (s : State) (o : UnitOp) : State :=
  match o.slot with
  | some z => { s with obj := { s.obj with slots := Map.erase s.obj.slots z } }
  | none => s

/-- The host word's operation `o` has been made (09 R316, R319, R320, R328); `tries` gives, for each read and CAS, the value
read and the value found, and for the other operations the value found. -/
def State.wordOpDone (s : State) (o : UnitOp) (tries : List (Nat × Nat)) (ur : Bool) : State :=
  let found := match tries with | (_, w) :: _ => w | [] => 0
  let bad := fun (s : State) => s.pathFail o.inst
  match o.kind with
  | .late => (s.unholdUnit o).bump Reg.CTL_INST_LATE_DROP
  | .atomic h q =>
    if ur then ((bad s).unholdUnit o).failReq h q stPROTECTION else
    match o.slot with
    | some z => s.countOp.respond h q z { kind := usATOMIC, reqSeq := q, handle := h, result := found, rimm := q }
    | none => s
  | .acquire h q =>
    match o.slot with
    | none => s
    | some z =>
      let a : Master := { via := true, inst := o.inst, who := h, tag := o.tag }
      let u := fun (st w : Nat) => ({ kind := usLOCK, reqSeq := q, handle := h, result := w, rimm := lockImm q st 0 } : UnitFields)
      if ur then (bad s).respond h q z (u stPROTECTION 0) else
      match casTries 8 tries 0 with
      | (none, n) => (s.countBad o.key n).respond h q z (u stINTEGRITY 0)
      | (some v, n) =>
        let r := s.grantWord a o.prio v
        ((s.countBad o.key n).addHeld o.inst o.key o.offset o.addr a o.prio v).respond h q z (u r.2 r.1)
  | .release h q =>
    match o.slot, s.heldAt o.inst o.addr with
    | some z, some (n, x) =>
      let u := fun (st w c : Nat) => ({ kind := usLOCK, reqSeq := q, handle := h, result := w, rimm := lockImm q st c } : UnitFields)
      if ur then (bad s).respond h q z (u stPROTECTION 0 x.waiters.length)
      else if found ≠ x.word then ((s.mismatch x.key).failHeld n x stINTEGRITY).respond h q z (u stINTEGRITY 0 0)
      else (s.wordGiven n x o.next stSUCCESS).respond h q z (u stSUCCESS x.word (leftWaiters x))
    | _, _ => s.unholdUnit o
  | .slotAcquire k =>
    let i := k / 256
    let n := k % 256
    let a : Master := { via := false, inst := i, who := n, tag := o.tag }
    let wants := s.lkState i n = lsWAITING && !o.gone
    if ur then (let s := bad s; if wants then s.slotOutcome i n stPROTECTION 0 else s) else
    match casTries 8 tries 0 with
    | (none, m) => let s := s.countBad o.key m; if wants then s.slotOutcome i n stINTEGRITY 0 else s
    | (some v, m) =>
      let s := (s.countBad o.key m).addHeld o.inst o.key o.offset o.addr a o.prio v
      if wants then s.slotOutcome i n (s.grantWord a o.prio v).2 0
      else match s.opHold k o with
        | some (h, _) => s.passOn h
        | none => s
  | .slotRelease k =>
    match s.opHold k o with
    | some (n, x) =>
      if ur then (bad s).slotReleased (k / 256) (k % 256) stPROTECTION
      else if found ≠ x.word then ((s.mismatch x.key).failHeld n x stINTEGRITY).slotReleased (k / 256) (k % 256) stINTEGRITY
      else (s.wordGiven n x o.next stSUCCESS).slotReleased (k / 256) (k % 256) stSUCCESS
    | none => s
  | .pass n =>
    match Map.get? s.atu.held n with
    | some x =>
      if ur then (bad s).failHeld n x stPROTECTION
      else if found ≠ x.word then (s.mismatch x.key).failHeld n x stINTEGRITY
      else s.wordGiven n x o.next (if x.word.testBit 62 then stABANDONED else stSUCCESS)
    | none => s
  | .abandon n =>
    match Map.get? s.atu.held n with
    | some x =>
      if ur then (bad s).failHeld n x stPROTECTION
      else if found ≠ x.word then (s.mismatch x.key).failHeld n x stINTEGRITY
      else s.wordGiven n x o.next stABANDONED
    | none => s

/-- The `k`-th operation of the unit, if it is on a host word and has gone out: none ends while the link is down (15 R461). -/
def State.hostOpAt (s : State) (k : Nat) : Option UnitOp :=
  (s.atu.ops[k]?).filter (fun o => o.issued && o.write.isNone && s.portUp (s.portOf o.inst) &&
    !s.keptAt (s.portOf o.inst) (s.fnOf o.inst) o.addr true)

/-- HOST_WORD_OP_DONE (09 R316). -/
def execHostWordOpDone (k : Nat) (tries : List (Nat × Nat)) (ur : Bool) (v : View) (s : State) : Outcome State Fault Refusal :=
  .next (let s := s.see v
    match s.hostOpAt k with
    | none => s
    | some o => if ur || triesOver o.kind tries then (((s.hostOpOver o).wordOpDone o tries ur).nextOp o.inst o.addr).retrySlots
      else s)

/-- The write of NEW is issued, and PENDING cleared, if the unit slot is still there (09 R316). -/
def State.pendingDone (s : State) (o : UnitOp) : State :=
  match o.write with
  | none => s
  | some (g, w) =>
    let s : State := { s with ram := { s.ram with cells := ramWrite s.ram.cells g 8 w } }
    match o.slot with
    | some z => if (s.slot? z).any (fun x => x.phase == .unit && (unitFields x.desc).pending) then
        s.modUnit z (fun u => { u with pending := false }) else s
    | none => s

/-- PENDING_WRITE_DONE: the oldest write of the unit to a GDDR7 word, the `k`-th operation (09 R316). -/
def execPendingWriteDone (k : Nat) (v : View) (s : State) : Outcome State Fault Refusal :=
  .next (let s := s.see v
    match (s.atu.ops[k]?).filter (fun o => o.write.isSome) with
    | none => s
    | some o => (((s.opOver o).pendingDone o).nextOp o.inst o.addr).retrySlots)

/-- ATOMIC_RESP (09 R317): WM advances over it, and its descriptor completes. -/
def execAtomicResp (h : Word) (v : View) (s : State) : Outcome State Fault Refusal :=
  .next ((s.see v).advanceWm h.toNat (fun m => m.typ == tyATOMICRESP))

/-- LOCK_RESP (09 R317, R327). -/
def execLockResp (h : Word) (v : View) (s : State) : Outcome State Fault Refusal :=
  .next ((s.see v).advanceWm h.toNat (fun m => m.typ == tyLOCKRESP))

end Sys2Proof.Machine
end

