-- ==== Sys2Proof/Machine/TableOps.lean ====
section
/-! DEFINITION. Images and loadable tables: their checks, and the loads into epochs and tables (03 R100, R107, 04 R125,
R126, 05 R168, 06 R221, 07 R247, R248, R263, 10 R361, 14 R433, 17 R490-R492). -/

namespace Sys2Proof.Machine

/-- The CRC-32 of an image of `len` bytes. -/
def imageCrc (len img : Nat) : Nat := crcBytesLE len img 0xFFFFFFFF ^^^ 0xFFFFFFFF

/-- A route image may be loaded (04 R126). -/
def routeImageOk (img : Nat) : Bool := (List.range 512).all (fun m => !nmOf img (256 + m))

/-- A schedule image may be loaded (05 R168): every value is assigned, and no two input ports name one output port for
one slot index. -/
def schedImageOk (img : Nat) : Bool :=
  (List.range 4096).all (fun k =>
    let l := (List.range 1024).map (fun i => schedEntry img i k)
    l.all (fun v => decide (v < 1024) || v == enDELIVER || v == enNONE) && decide ((l.filter (· < 1024)).Nodup))

/-- The length of a route image and of a schedule image (03 R100). -/
def imageLen (kind : Nat) : Nat := if kind = 0 then 98400 else 5767168

/-- The state of epoch `e` of a kind: 0 route, 1 schedule. -/
def State.epochOf (s : State) (kind e : Nat) : Nat := if kind = 0 then s.repoch e else s.sepoch e
def State.setEpochOf (s : State) (kind e n : Nat) : State := if kind = 0 then s.setRepoch e n else s.setSepoch e n

/-- Epoch `e` of a kind holds image `img` and is IDLE; its PLAN_ID goes into the digest (03 R100, 20 R553). -/
def State.holdImage (s : State) (kind e img plan : Nat) : State :=
  let s := s.setEpochOf kind e esIDLE
  let p := BitVec.ofNat 32 plan
  if kind = 0 then
    if e = 0 then { s.wr Reg.MGT_PLAN_ROUTE0 p with rt := { s.rt with table0 := img } }
    else { s.wr Reg.MGT_PLAN_ROUTE1 p with rt := { s.rt with table1 := img } }
  else if e = 0 then { s.wr Reg.MGT_PLAN_SCHED0 p with tim := { s.tim with sched0 := img } }
  else { s.wr Reg.MGT_PLAN_SCHED1 p with tim := { s.tim with sched1 := img } }

/-- The load of an image into epoch `e` of a kind (03 R100, 04 R141): a wrong length fails at once, without a read. -/
def State.loadEpoch (s : State) (kind e len crc plan : Nat) (img : HostRead) : AdminRun :=
  let st := s.epochOf kind e
  if st != esEMPTY && st != esIDLE then { st := s, status := adEPOCHBUSY }
  else if len ≠ imageLen kind then { st := s.setEpochOf kind e esEMPTY, status := adTABLE }
  else match img with
    | .error => { st := s.setEpochOf kind e esEMPTY, status := adHOSTREAD }
    | .data d =>
      let x := d % 256 ^ len
      if imageCrc len x ≠ crc ∨ (if kind = 0 then routeImageOk x else schedImageOk x) = false then
        { st := s.setEpochOf kind e esEMPTY, status := adTABLE }
      else { st := s.holdImage kind e x plan }

/-- Table numbers (03 R107). -/
def tbMATCH : Nat := 1
def tbPROTOCOL : Nat := 2
def tbCURVE : Nat := 3
def tbPOWER : Nat := 4
def tbEQ : Nat := 5
def tbREDUCTION : Nat := 6

/-- The length that each table's chapter gives. -/
def tableLen (t : Nat) : Nat :=
  if t = tbMATCH ∨ t = tbPOWER then 256 else if t = tbCURVE then 1024 else 128

/-- Byte `b` of an image. -/
def imgByte (img b : Nat) : Nat := img / 256 ^ b % 256

/-- A match-format entry breaks a rule (07 R247, R248). -/
def matchEntryBad (x : Nat) : Bool :=
  decide (4 ≤ imgByte x 8) || decide (64 ≤ imgByte x 9) || decide (24 < imgByte x 10) || x / 256 ^ 11 % 256 ^ 5 != 0 ||
    decide (64 < imgByte x 9 + imgByte x 10)

/-- A protocol entry breaks a rule (07 R263). -/
def protocolEntryBad (x : Nat) : Bool :=
  decide (1048544 < x % 2 ^ 32) || decide (2 ≤ imgByte x 4) || imgByte x 5 == 0 || x / 256 ^ 6 % 256 ^ 2 != 0

/-- A reduction-format entry breaks a rule (10 R361). -/
def formatEntryBad (x : Nat) : Bool :=
  let ty := imgByte x 0 % 8
  let md := imgByte x 1 % 4
  let valid := decide (128 ≤ imgByte x 0)
  imgByte x 0 / 8 % 16 != 0 || decide (4 ≤ imgByte x 1) || decide (4 ≤ imgByte x 2) || decide (2 ≤ imgByte x 3) ||
    x / 256 ^ 4 % 256 ^ 4 != 0 ||
    (valid && (md == 3 || (md == cmEXACT && !(ty == 6 || ty == 7)) ||
      (md == cmCOMPRESSED && !(ty == 4 || ty == 5 || ty == 6)) ||
      (imgByte x 3 == 1 && md != 0) || (decide (ty < 4) && (imgByte x 2 != 0 || imgByte x 3 != 0))))

/-- An equaliser entry breaks a rule (14 R433). -/
def eqEntryBad (x : Nat) : Bool :=
  imgByte x 0 / 32 % 4 != 0 || decide (24 < imgByte x 0 % 32) || decide (8 ≤ imgByte x 1) || x / 256 ^ 2 % 256 ^ 2 != 0

/-- The actions of sequence `q` in the order of the reset contents (17 R491-R493). -/
def seqOrder (q : Nat) : List Nat :=
  if q = 0 then [acQUIESCE, acLANES, acDRAIN, acGATE]
  else if q = 1 then [acQUIESCE, acLANES, acDRAIN, acEVICT, acCHECK, acCLAMP, acGATE, acRETAIN, acPOWEROFF]
  else if q = 2 then [acUNGATE, acRESUME]
  else [acPOWERON, acRETAINEXIT, acRESETLOGIC, acUNCLAMP, acUNGATE, acVERIFY, acRESUME]

/-- The worst-case time of an action of an exit, in ns (17 R491). -/
def exitTime (a : Nat) : Nat :=
  if a = acPOWERON then 20000 else if a = acRETAINEXIT then 2000 else if a = acRESETLOGIC then 1000
  else if a = acUNCLAMP ∨ a = acUNGATE then 200 else if a = acVERIFY then 3000 else if a = acRESUME then 400 else 0

/-- A sequence of a power-sequencing table breaks a rule (17 R492). -/
def powerSeqBad (img q : Nat) : Bool :=
  let step := fun k => (imgByte img (64 * q + 4 * k), imgByte img (64 * q + 4 * k + 1),
    img / 256 ^ (64 * q + 4 * k + 2) % 65536)
  let all := (List.range 16).map step
  let body := all.takeWhile (fun x => x.1 != acEND)
  let pos := (all.findIdx? (fun x => x.1 == acCLAMP || x.1 == acGATE)).getD 16
  let time := (body.map (fun x => exitTime x.1 + 40 * x.2.2)).sum
  all.any (fun x => x.2.1 % 128 != 0 || !(x.1 == acEND || x.1 == acPAUSE || (seqOrder q).contains x.1)) ||
    body.length == 16 || (body.map (·.1)).filter (· != acPAUSE) != seqOrder q ||
    (if q < 2 then (all.drop (pos + 1)).any (fun x => decide (128 ≤ x.2.1)) else all.any (fun x => decide (128 ≤ x.2.1))) ||
    (q == 2 && decide (800 < time)) || (q == 3 && decide (39800 < time))

/-- The contents of table `t` break its rules. -/
def tableBad (t img : Nat) : Bool :=
  if t = tbMATCH then (List.range 16).any (fun p => matchEntryBad (img / 256 ^ (16 * p)))
  else if t = tbPROTOCOL then (List.range 16).any (fun p => protocolEntryBad (img / 256 ^ (8 * p)))
  else if t = tbCURVE then (List.range 256).any (fun n => imgByte img (4 * n + 2) != 0)
  else if t = tbPOWER then (List.range 4).any (powerSeqBad img)
  else if t = tbEQ then (List.range 32).any (fun n => eqEntryBad (img / 256 ^ (4 * n))) ||
    !(List.range 32).any (fun n => decide (128 ≤ imgByte img (4 * n)))
  else (List.range 16).any (fun f => formatEntryBad (img / 256 ^ (8 * f)))

/-- A match-format entry that is in use would change (07 R248). -/
def State.formatInUse (s : State) (img : Nat) : Bool :=
  (List.range 16).any (fun p => s.fmtValid p && s.mat.formats / 256 ^ (16 * p) % 256 ^ 16 != img / 256 ^ (16 * p) % 256 ^ 16 &&
    (s.mat.posted.any (fun x => (s.slot? x.1).any (fun z => pProto z.desc == p)) ||
      s.mat.store.any (fun e => e.2.proto == p)))

/-- Table `t` holds `img`. -/
def State.setTable (s : State) (t img : Nat) : State :=
  if t = tbMATCH then { s with mat := { s.mat with formats := img } }
  else if t = tbPROTOCOL then { s with mat := { s.mat with protocols := img } }
  else if t = tbCURVE then { s with xpt := { s.xpt with curve := img } }
  else if t = tbPOWER then { s with pwr := { s.pwr with table := img } }
  else if t = tbEQ then { s with lnk := { s.lnk with eqTable := img } }
  else { s with col := { s.col with formats := img } }

/-- The load of table `t` (03 R107). -/
def State.loadTable (s : State) (t len crc : Nat) (img : HostRead) : AdminRun :=
  if t = 0 ∨ 6 < t then { st := s, status := adBAD }
  else if t = tbREDUCTION ∧ s.part.reduce = false then { st := s, status := stABSENT }
  else match img with
    | .error => { st := s, status := if len = tableLen t then adHOSTREAD else adTABLE }
    | .data d =>
      let x := d % 256 ^ len
      if t = tbMATCH ∧ s.formatInUse x = true then { st := s, status := adINUSE }
      else if len ≠ tableLen t ∨ imageCrc len x ≠ crc ∨ tableBad t x = true then { st := s, status := adTABLE }
      else { st := s.setTable t x }

end Sys2Proof.Machine
end

