-- ==== Sys2Proof/Machine/AdminTables.lean ====
section
/-! DEFINITION. The meanings of the admin commands for epochs, translation, instances, the page log and tables, of the
completion of an admin command, and of starting and stopping the admin queue (03 R79, R80, R87, R100-R107, 11 R381,
R383, 12 R384-R397). -/

namespace Sys2Proof.Machine

open Host (Outcome)

/-- LOAD_ROUTE and LOAD_SCHEDULE (03 R100). -/
def State.loadImage (s : State) (kind : Nat) (e : Entry) (img : HostRead) : AdminRun :=
  s.loadEpoch kind (aObject e % 2) (aBody e 24 4) (aBody e 28 4) (aBody e 32 4) img

/-- LOAD_ROUTE; `img` is what the read of the image returned. -/
def execLoadRoute (e : Entry) (img : HostRead) (s : State) : Outcome State Fault Refusal :=
  .next (s.adminTake acLOADROUTE e (fun s => s.loadImage 0 e img))

/-- LOAD_SCHEDULE; `img` is what the read of the image returned. -/
def execLoadSchedule (e : Entry) (img : HostRead) (s : State) : Outcome State Fault Refusal :=
  .next (s.adminTake acLOADSCHED e (fun s => s.loadImage 1 e img))

/-- SWITCH_EPOCH (03 R101, 04 R141). -/
def State.switchEpoch (s : State) (e : Entry) : AdminRun :=
  let kind := aObject e % 2
  let ep := aObject e / 2 % 2
  let T := aBody e 16 8
  s.adminCheck
    [(T % 0x1400000 != 0, adBAD),
     (s.epochOf kind ep != esIDLE || s.epochOf kind (1 - ep) == esPENDING, adEPOCHBUSY),
     (!s.hasTime, adNOTIME), (decide (T < s.t + us 100), adTIDE)]
    { st := if kind = 0 then s.switchRoute ep T else s.switchSched ep T, wait := .switch kind ep }

/-- SWITCH_EPOCH. -/
def execSwitchEpoch (e : Entry) (s : State) : Outcome State Fault Refusal :=
  .next (s.adminTake acSWITCH e (fun s => s.switchEpoch e))

/-- INVALIDATE_TRANSLATION (03 R103, 11 R381). -/
def State.invalidateRun (s : State) (e : Entry) : AdminRun :=
  let i := aObject e % 128
  s.adminCheck [(s.noInst i, adBAD)]
    { st := s.invalidate i (aBody e 16 8) (aBody e 24 8), wait := .translations i none }

/-- INVALIDATE_TRANSLATION. -/
def execInvalidateTranslation (e : Entry) (s : State) : Outcome State Fault Refusal :=
  .next (s.adminTake acINVALIDATE e (fun s => s.invalidateRun e))

/-- Instance `i` has a region registered; contexts that it has spilled (03 R102). -/
def State.hasRegion (s : State) (i : Nat) : Bool := s.obj.regions.any (fun r => r.1 / 2 ^ 24 == i && r.2.valid)
def State.spilled (s : State) (i : Nat) : Nat :=
  (s.xpt.conns.filter (fun k => k.2.inst == i && (match k.2.place with | .spill _ => true | _ => false))).length

/-- CONFIGURE_INSTANCE (03 R102, 11 R383): a changed root or WALK takes effect at the completion. A new region table
holds no region and no VARIANT yet, since software zeroed it (08 R279). -/
def State.configureRun (s : State) (e : Entry) : AdminRun :=
  let i := aObject e % 128
  let x := s.inst i
  let root := aBody e 16 8
  let walk := (aBody e 24 1).testBit 0
  let rb := aBody e 32 8
  let rl := aBody e 40 1 % 32
  let sp := aBody e 48 8
  let sc := aBody e 56 4
  let moved := rb != x.regionBase || rl != x.regionLog2
  let turned := root != x.xltRoot || walk != x.walk
  let s1 := s.modInst i (fun x => { x with regionBase := rb, regionLog2 := rl, spillBase := sp, spillCtx := sc,
                                           cfgBody := aBody e 16 44 })
  let kept := if moved then s1.obj.regions.filter (fun r => r.1 / 2 ^ 24 != i) else s1.obj.regions
  let s2 : State := { s1 with obj := { s1.obj with regions := kept } }
  s.adminCheck
    [(s.noInst i || root % 4096 != 0 || sp % 4096 != 0 || 24 < rl, adBAD),
     ((moved && s.hasRegion i) || sc < s.spilled i, adINUSE)]
    { st := if turned then s2.invalidate i 0 0 else s2,
      wait := .translations i (if turned then some (root, walk) else none) }

/-- CONFIGURE_INSTANCE. -/
def execConfigureInstance (e : Entry) (s : State) : Outcome State Fault Refusal :=
  .next (s.adminTake acCONFIGURE e (fun s => s.configureRun e))

/-- SET_INSTANCES (03 R94, R104, 12 R384, R387). -/
def State.setInstancesRun (s : State) (e : Entry) : AdminRun :=
  let n := aObject e % 256
  let any := s.obj.queues.any (fun q => q.1 != 0 && q.1 != acqKey) || !s.obj.pds.isEmpty ||
    s.obj.regions.any (fun r => r.2.valid) || !s.xpt.conns.isEmpty || !s.col.groups.isEmpty
  let s1 := s.setFld F.CTL_INSTANCES_N n
  let insts := Map.mapV s1.obj.insts (fun _ x => { x with configured := false })
  let s2 : State := { s1 with obj := { s1.obj with insts := insts } }
  s.adminCheck [(!([1, 2, 4, 8, 16, 32, 64, 128].contains n), adBAD), (any, adORDER)]
    { st := ((List.range 128).foldl (fun s i => if n ≤ i then s.setFld (F.CTL_INST_MAP_VALID i) 0 else s) s2).markPorts }

/-- SET_INSTANCES. -/
def execSetInstances (e : Entry) (s : State) : Outcome State Fault Refusal :=
  .next (s.adminTake acSETINSTANCES e (fun s => s.setInstancesRun e))

/-- The lock-window slots of instance `i` hold and await nothing any more; stalled reads return WITHDRAWN (09 R330). -/
def State.idleSlots (s : State) (i : Nat) : State :=
  (List.range 256).foldl (fun s n =>
    let s := if Map.has s.atu.reading (i * 256 + n) then (s.slotResult i n lrWITHDRAWN 0).slotReturn i n else s
    if s.fld (F.ATU_LK_STATUS_STATE i n) = lsIDLE then s else s.setFld (F.ATU_LK_STATUS_STATE i n) lsIDLE) s

/-- The completions and notices of instance `i` that wait for an entry are discarded as late (12 R394). -/
def State.dropWaiting (s : State) (i : Nat) : State :=
  s.obj.queues.foldl (fun s q =>
    if q.1 = 0 ∨ q.1 = acqKey ∨ q.2.inst ≠ i ∨ q.2.waiting.isEmpty then s
    else (s.bumpBy Reg.CTL_INST_LATE_DROP q.2.waiting.length).modQueue q.1 (fun x => { x with waiting := [] })) s

/-- The placements, completions and notices of instance `i` that are kept and were never issued are discarded as late, with the
entries it was to return (12 R393, R394). -/
def State.dropKept (s : State) (i : Nat) : State :=
  let ws := s.hpt.results.filter (fun w => w.inst == i)
  let s := s.bumpBy Reg.CTL_INST_LATE_DROP (ws.map (·.count)).sum
  { s with hpt := { s.hpt with kept := ws.foldl (fun l w => dropFirst w.out l) s.hpt.kept,
                               results := s.hpt.results.filter (fun w => w.inst != i),
                               uses := s.hpt.uses.filter (fun u => u.inst != i) } }

/-- The table updates and unit operations of instance `i` that are kept and were never issued end, and their results are
discarded (12 R394; log entry 177). -/
def State.dropTasks (s : State) (i : Nat) : State :=
  let at_ := fun (a : Nat) (word : Bool) => s.hpt.kept.any (HostOut.isAt (s.portOf i) (s.fnOf i) a word)
  let us := s.xlt.updates.filter (fun u => u.miss.inst == i && at_ u.ptr false)
  let os := s.atu.ops.filter (fun o => o.inst == i && o.kind == .late && o.issued && o.write.isNone && at_ o.addr true)
  let mine := fun (o : HostOut) => us.any (fun u => o.isAt (s.portOf i) (s.fnOf i) u.ptr false) ||
    os.any (fun x => o.isAt (s.portOf i) (s.fnOf i) x.addr true)
  let s : State := { s with xlt := { s.xlt with updates := s.xlt.updates.filter (fun u => !us.contains u) },
                            hpt := { s.hpt with kept := s.hpt.kept.filter (fun o => !mine o) } }
  let s := us.foldl (fun s u => s.taskEnd u.miss.task) (s.bumpBy Reg.CTL_INST_LATE_DROP us.length)
  os.foldl (fun s o => ((s.opOver o).wordOpDone o [] false).nextOp i o.addr) s

/-- The pulls and tree steps of instance `i` in progress, as engine tasks. -/
def State.workTasks (s : State) (i : Nat) : List TaskId :=
  (s.pwr.tasks.map (·.task)).filter (fun k => match k with
    | .pull e => (s.entry? e).any (fun x => x.inst == i)
    | .tree g _ => (s.group? g).any (fun x => x.inst == i)
    | _ => false)

/-- What instance `i`'s receive path has not issued yet (12 R394): cells that are held, completions and notices of messages that are
complete, completions of receives that a stored message holds, and completions held back for the order of their queue (log entry
175). -/
def State.unissued (s : State) (i : Nat) : Nat :=
  let own := s.xpt.conns.filter (fun k => k.2.inst == i)
  (own.map (fun k => (k.2.recs.map (fun r => r.held.length)).sum)).sum +
    (own.map (fun k => ((k.2.rx.filter (fun m => k.2.ready m)).map (fun m => (s.dueOf k.1 k.2 m).length)).sum)).sum +
    (s.mat.store.filter (fun e => e.2.inst == i && e.2.bound.isSome && !s.pwr.tasks.any (fun x => x.task = .pull e.1))).length +
    (s.obj.slots.filter (fun z => slotInst z.1 == i && z.2.due.isSome)).length

/-- The engine tasks and the events of instance `i` that come late are discarded and counted (12 R394). -/
def State.dropLate (s : State) (i : Nat) : State :=
  let ks := s.workTasks i
  ks.foldl (fun s k => s.taskEnd k) (s.bumpBy Reg.CTL_INST_LATE_DROP (ks.length + s.unissued i))

/-- The descriptor slots of instance `i` are free in its journal (12 R392; log entry 175). -/
def State.clearSlots (s : State) (i : Nat) : State :=
  (s.obj.slots.filter (fun z => slotInst z.1 == i && z.2.phase != .refused)).foldl (fun s z =>
    s.jrnlInst i (s.slotOff (slotNo' z.1) + 64) 1 0) s

/-- The work of instance `i` is dropped: its slots, receives, stored messages, outgoing messages, and what its
connections had in progress (12 R392, R394). No completion is written for it. -/
def State.dropWork (s : State) (i : Nat) : State :=
  let mine := fun (z : Nat) => slotInst z == i
  let s := (s.dropLate i).clearSlots i
  let s : State := { s with
    obj := { s.obj with slots := s.obj.slots.filter (fun x => !mine x.1) },
    mat := { s.mat with posted := s.mat.posted.filter (fun x => !mine x.1),
                        store := s.mat.store.filter (fun e => e.2.inst != i),
                        pullWait := s.mat.pullWait.filter (fun e => (s.entry? e).all (fun x => x.inst != i)) },
    atu := { s.atu with ops := s.atu.ops.map (fun o => match o.kind with
      | .abandon _ => o
      | _ => if o.inst = i then { o with kind := .late } else o) } }
  { s with xpt := { s.xpt with
    msgs := s.xpt.msgs.filter (fun m => (s.conn? m.2.handle).all (fun k => k.inst != i)),
    conns := Map.mapV s.xpt.conns (fun _ k => if k.inst ≠ i then k else
      { k with rx := [], recs := [], segs := [], sel := [], pulls := 0, unmatched := 0, switching := none }) } }

/-- Instance `i` begins to be reset (12 R392): the generation, the stop of its queues, its connections, groups, locks and
waiters, and the marks of its walks. -/
def State.resetBegin (s : State) (i : Nat) : State :=
  let s := (s.setFld (F.CTL_INST_STATE_GEN i) ((s.gen i + 1) % 256)).setFlag (F.CTL_INST_STATE_RESETTING i) true
  let s := (((s.dropWaiting i).dropKept i).dropWork i).dropTasks i
  let s := s.xpt.conns.foldl (fun s c =>
    if c.2.inst ≠ i then s
    else if c.2.st = .opened then s.sayCtl c.1 { typ := tyNOTICE, kind := kREMOTEGEN }
    else if c.2.st = .broken then s
    else s.modConn c.1 (fun k => { k with st := .broken, brokeWith := stREMOTEGEN })) s
  let s := s.breakGroups stREMOTEGEN s.breakFuel (ownBreaks ((s.col.groups.filter (fun g => g.2.inst == i)).map (·.1)))
  let ws := (s.atu.held.filter (fun x => x.2.inst == i)).map (·.1)
  let s := ws.foldl (fun s n => s.withdraw n (fun _ => true)) s
  let s := (s.abandonAll (fun x => x.inst == i)).idleSlots i
  let late := fun (m : Miss) => if m.inst = i then { m with marked := true } else m
  { s with xlt := { s.xlt with misses := s.xlt.misses.map late,
                               updates := s.xlt.updates.map (fun u => { u with miss := late u.miss }) } }

/-- Resets of instance `i` that completed in the last millisecond (12 R391). -/
def State.resetsNow (s : State) (i : Nat) : Nat :=
  ((s.inst i).resetTimes.filter (fun t => decide (s.t < t + us 1000))).length

/-- What the reset of instance `i` waits for has ended (12 R391, R392). -/
def State.resetReady (s : State) (i : Nat) : Bool :=
  !s.stalled (s.portOf i) && !s.hpt.again.any (fun o => o.key == fnKey (s.portOf i) (s.fnOf i)) &&
    !s.xlt.misses.any (fun m => m.inst == i) && !s.xlt.updates.any (fun u => u.miss.inst == i) &&
    !s.atu.ops.any (fun o => o.inst == i) && decide (s.resetsNow i < 255)

/-- The reset of instance `i` ends (12 R392): translations, extents, the log, the queues and the regions. -/
def State.resetEnd (s : State) (i : Nat) : State :=
  let s : State := { s with hpt := { s.hpt with
    acked := Map.set s.hpt.acked (fnKey (s.portOf i) (s.fnOf i)) s.hpt.issued.length } }
  let s := (s.invalidate i 0 0).clearInstCounters i
  let s := (List.range 16).foldl (fun s n => s.setFlag (F.XLT_EXT_CTRL_VALID i n) false) s
  let s := s.setFlag (F.CTL_INST_LOG_ARMED i) false
  let qs := (s.obj.queues.filter (fun q => q.1 != 0 && q.1 != acqKey && q.2.inst == i)).map (·.1)
  let s := qs.foldl (fun s q => (s.removeQueue q).jrnlQueue q) s
  let rs := s.obj.regions.filter (fun r => r.1 / 2 ^ 24 == i && r.2.valid)
  let s := rs.foldl (fun s r => (s.setRegion i (r.1 % 2 ^ 24) { r.2 with valid := false }).writeRegion i (r.1 % 2 ^ 24)) s
  let times := (s.inst i).resetTimes.filter (fun t => decide (s.t < t + us 1000)) ++ [s.t]
  let s := s.modInst i (fun x => { x with resetTimes := times })
  s.setFlag (F.CTL_INST_STATE_RESETTING i) false

/-- RESET_INSTANCE (03 R105, 12 R392). -/
def State.resetRun (s : State) (e : Entry) : AdminRun :=
  let i := aObject e % 128
  s.adminCheck [(s.noInst i, adBAD)] { st := s.resetBegin i, result := (s.gen i + 1) % 256, wait := .reset i }

/-- RESET_INSTANCE. -/
def execResetInstance (e : Entry) (s : State) : Outcome State Fault Refusal :=
  .next (s.adminTake acRESETINSTANCE e (fun s => s.resetRun e))

/-- ARM_PAGE_LOG (03 R106, 12 R397). -/
def State.armRun (s : State) (e : Entry) : AdminRun :=
  let i := aObject e % 128
  let off := (aBody e 24 1).testBit 7
  let lg := aBody e 24 1 % 32
  let base := aBody e 16 8
  s.adminCheck
    [(s.noInst i || (!off && (lg < 4 || 20 < lg || base % min (2 ^ lg * 8) 4096 != 0)), adBAD)]
    { st := s, wait := .arm i (if off then none else some (base, lg)) }

/-- ARM_PAGE_LOG. -/
def execArmPageLog (e : Entry) (s : State) : Outcome State Fault Refusal :=
  .next (s.adminTake acARMLOG e (fun s => s.armRun e))

/-- The log of instance `i` is armed, replaced or disarmed (03 R106, 12 R397): before arming, software set OWN in every
record. -/
def State.arm (s : State) (i : Nat) (log : Option (Nat × Nat)) : State :=
  match log with
  | none => s.setFlag (F.CTL_INST_LOG_ARMED i) false
  | some (b, n) =>
    (s.modInst i (fun x => { x with logBase := b, logLog2 := n, logRoom := 2 ^ n })).wr (Reg.CTL_INST_LOG i) 0x80000000#32

/-- LOAD_TABLE; `img` is what the read of the image returned (03 R107). -/
def execLoadTable (e : Entry) (img : HostRead) (s : State) : Outcome State Fault Refusal :=
  .next (s.adminTake acLOADTABLE e (fun s => s.loadTable (aObject e % 16) (aBody e 24 4) (aBody e 28 4) img))

/-- The destruction of queue `q` goes as far as it can (02 R70): the entries found, then the accepted descriptors that
have not started, then the queue. What is left to abort, or none when the queue is gone. -/
def State.destroyOn (s : State) (q : Nat) (left : List (Nat × Entry)) : State × Option (List (Nat × Entry)) :=
  match s.abortEntries q left with
  | (s, []) =>
    if (s.queue? q).any (fun x => x.blocked) then (s, some []) else ((s.abortUnstarted q).removeQueue q, none)
  | (s, l) => (s, some l)

/-- What the command in record `r` waits for is looked at: the state after it, and whether it is over (03 R87, R90). -/
def State.adminGoOn (s : State) (r : Nat) (x : AdminRec) : State × Bool :=
  match x.wait with
  | .ready => (s, true)
  | .done => (s, false)
  | .key i key => (s, !s.keyInUse i key)
  | .freed _ _ => (s, true)
  | .translations i root =>
    if !s.usesEnded i then (s, false) else
    let s := match root with
      | some (b, w) => (s.modInst i (fun x => { x with xltRoot := b, walk := w })).invalidate i 0 0
      | none => s
    (if aCode x.entry = acCONFIGURE then s.modInst i (fun x => { x with configured := true }) else s, true)
  | .destroy q left => match s.destroyOn q left with
    | (s, none) => (s, true)
    | (s, some l) => ({ s with obj := { s.obj with adm := Map.mod s.obj.adm r (fun y => { y with wait := .destroy q l }) } }, false)
  | .switch kind e => (s, s.epochOf kind e != esPENDING)
  | .install h n key =>
    let s := s.retireKey h
    if (s.conn? h).all (fun k => k.keys.length ≤ 1) then (s.installKey h n key, true) else (s, false)
  | .reset i => if s.resetReady i then (s.resetEnd i, true) else (s, false)
  | .arm i log => (s.arm i log, true)

/-- The entry of a RESET_INSTANCE of instance `i` (03 R105). -/
def resetEntry (i : Nat) : Entry := BitVec.ofNat 512 (acRESETINSTANCE + i * 2 ^ 32)

/-- The reset of instance `i` by a Function Level Reset goes on as far as it can: begun where it waited for another, or
ended (15 R462, R463). It writes no completion. -/
def State.flrGoOn (s : State) (i : Nat) : State :=
  match Map.get? s.obj.flr i with
  | none => s
  | some false =>
    if s.flag (F.CTL_INST_STATE_RESETTING i) then s else
    let s := s.resetBegin i
    { s with obj := { s.obj with flr := Map.set s.obj.flr i true } }
  | some true =>
    if !s.resetReady i then s else
    let s := s.resetEnd i
    let s : State := { s with obj := { s.obj with flr := Map.erase s.obj.flr i } }
    s.jrnlDone { entry := resetEntry i, index := 0 }

/-- ADMIN_COMPLETE: the command in record `r` finishes if its work has ended (03 R87, 06 R226); from 64 on, the reset of
instance `r - 64` by an FLR (log entry 41). -/
def execAdminComplete (r : Nat) (v : View) (s : State) : Outcome State Fault Refusal :=
  .next (let s := s.see v
    if 64 ≤ r then s.flrGoOn (r - 64) else
    match Map.get? s.obj.adm r with
    | none => s
    | some x =>
      if !s.taskRuns (.admin r) then s else
      match s.adminGoOn r x with
      | (s, true) => (s.adminFinish r x).handOverCtrl
      | (s, false) => s)

/-- The settings of a write to CTL_AQ_CTRL break a rule (03 R79). -/
def State.aqBad (s : State) (w : Word) : Bool :=
  let ok := fun n => decide (4 ≤ n ∧ n ≤ 16)
  !ok (bits w 9 5) || !ok (bits w 14 10) || bits w 19 15 == 0 || decide (20 < bits w 19 15) ||
    (bit w 20 && !s.portCache s.owner)

/-- The admin rings come into being, with their positions at 0 (03 R79, R80). -/
def State.aqStart (s : State) : State :=
  let c := s.rd Reg.CTL_AQ_CTRL
  let work : Queue := { work := true, coherent := bit c 20, log2 := bits c 9 5, k := bits c 19 15, cq := acqKey,
                        base := (s.rd64 Reg.CTL_AQ_BASE).toNat }
  let comp : Queue := { work := false, coherent := bit c 20, split := bit c 21, log2 := bits c 14 10, k := bits c 19 15,
                        base := (s.rd64 Reg.CTL_ACQ_BASE).toNat }
  ((State.pollBudget { s with obj := { s.obj with queues := Map.set (Map.set s.obj.queues 0 work) acqKey comp } }).setFloor
    0).setFloor acqKey

/-- A write of CTL_AQ_CTRL (03 R79, R80). ENABLE set again while commands are in progress finds the ring positions reset, as the
clearing left them to be (log entry 165). -/
def State.aqCtrlWrite (s : State) (w : Word) : State :=
  let on := s.flag F.CTL_AQ_CTRL_ENABLE
  let busy := !s.obj.adm.isEmpty
  let c := s.rd Reg.CTL_AQ_CTRL
  if on then (if bit w 31 then s else s.aqStop)
  else if busy then (if bit w 31 && !s.aqBad c then (s.setFld F.CTL_AQ_CTRL_ENABLE 1).aqRewind else s)
  else
    let c' := setBits (setBits c 21 5 (bits w 21 5)) 31 31 (b2n (bit w 31))
    if !bit w 31 then s.wr Reg.CTL_AQ_CTRL c'
    else if s.aqBad w then s
    else (s.wr Reg.CTL_AQ_CTRL c').aqStart

/-- AQ_ENABLE: a write of CTL_AQ_CTRL with ENABLE = 1 (03 R79). -/
def execAqEnable (w : Word) (s : State) : Outcome State Fault Refusal := 
  .next (s.setup (s.aqCtrlWrite (w ||| 0x80000000#32)))

/-- AQ_DISABLE: a write of CTL_AQ_CTRL with ENABLE = 0 (03 R80). -/
def execAqDisable (w : Word) (s : State) : Outcome State Fault Refusal := 
  .next (s.setup (s.aqCtrlWrite (w &&& 0x7FFFFFFF#32)))

end Sys2Proof.Machine
end

