-- ==== Sys2Proof/Machine/Collective.lean ====
section
/-! DEFINITION. The meanings of the commands of collective operations: the tree step, a span, the down message, an abort
(10 R341-R352). -/

namespace Sys2Proof.Machine

open Host (Outcome)

/-- This member contributes data (10 R341). -/
def CollOp.contributes (o : CollOp) (rank : Nat) : Bool :=
  o.count != 0 && (o.ctype == ctREDUCE || o.ctype == ctALLREDUCE || (o.ctype == ctBROADCAST && o.root == rank))

/-- This member would place a result (10 R341, R343). -/
def CollOp.receives (o : CollOp) (rank : Nat) : Bool := ({ o with status := 0 } : CollOp).places rank

/-- What reading the own contribution gives (10 R341). -/
inductive Contribution where
  | ok (data : Nat)
  | wait
  | fail (status : Nat)
  deriving DecidableEq, Repr

/-- The checks of the local ranges, and the reading of the contribution: `data` is what the read returned. -/
def State.contribution (s : State) (g : Nat) (x : Group) (o : CollOp) (e : Entry) (data : HostRead) : State × Contribution :=
  let n := dLength e
  let src := o.contributes x.rank
  let s := if src then s.lookKey else s
  let s := if o.receives x.rank then s.lookKey else s
  let bad := (src && !s.localOk x.inst (cSkey e) x.pd none (cSaddr e) n) ||
    (o.receives x.rank && !s.localOk x.inst (cDkey e) x.pd (some acLOCALW) (cDaddr e) n)
  if bad then (s, .fail stPROTECTION)
  else if !src then (s, .ok 0)
  else match s.access (.coll g o.opnum) (s.servingTile (ownerTile g)) x.inst (cSaddr e) n false with
    | (s, .wait) => (s, .wait)
    | (s, .fail st) => (s, .fail st)
    | (s, .ready l) => if !s.readable x.inst l then (s, .wait) else match data with
      | .error => (s, .fail stINTEGRITY)
      | .data d => (s, .ok (d % 256 ^ n))

/-- The elements marked by the quantisation of the whole own contribution (10 R359). -/
def ownMarks (o : CollOp) (own : Nat) : Nat :=
  if o.mode = cmCOMPRESSED ∧ o.ctype ≠ ctBROADCAST then
    ((List.range (ceilDiv o.count 32)).map (fun b =>
      marksOf (quantise (ownBlock (fmtType o.fmt) own (32 * b) (min 32 (o.count - 32 * b)))))).sum
  else 0

/-- The operation after agreement and the merging of outcomes (10 R349, R351); `st` is the member's own outcome. -/
def State.agreed (s : State) (x : Group) (o : CollOp) (kids : List (Edge × ChildMsg)) (own st : Nat) : CollOp × Bool :=
  let seen := 1 + (kids.map (fun k => hMembers k.2.hdr)).sum
  let bits := kids.foldl (fun b k => b ||| s.disagreeOf x o k.1 k.2.hdr) 0 |||
    (if x.parent.isNone && seen != x.members then 16 else 0)
  let mine := if bits ≠ 0 then stMISMATCH else st
  let out := kids.foldl (fun a k => worse a (hStatus k.2.hdr, hOrigin k.2.hdr)) (mine, x.rank)
  let drop := (kids.zip (List.range kids.length)).filter (fun k => s.disagreeOf x o k.1.1 k.1.2.hdr != 0)
  ({ o with
      own := own, stepped := true, status := out.1, origin := if out.1 = 0 then 0 else out.2,
      disagree := kids.foldl (fun b k => b ||| hDisagree k.2.hdr) bits,
      nonfinite := (kids.map (fun k => hNonfinite k.2.hdr)).sum + ownMarks o own,
      hasRoot := ((o.ctype == ctREDUCE || o.ctype == ctBROADCAST) && o.root == x.rank) || kids.any (fun k => hHasRoot k.2.hdr),
      kids := drop.foldl (fun m k => Map.mod m k.2 (fun c => { c with dropped := true, data := 0 })) o.kids }, bits != 0)

/-- The own up message goes out: its header now, its data span by span (10 R345). To a parent on this chip it passes on
die (10 R336). -/
def State.sendUp (s : State) (g : Nat) (x : Group) (o : CollOp) (e : Edge) (seen : Nat) : State :=
  let hdr := s.collHdr x o false o.upData seen
  let s := s.modGroup g (fun y => y.modOp o.opnum (fun p => { p with upHdr := some hdr }))
  if e.handle = localEdge then s.offerUp g o.opnum false
  else
    let len := if o.upData then o.upLen o.count x.children.isEmpty else 0
    let r := s.sendColl g o false (collMsg e.handle x.gid o.opnum (.collective g o.opnum false) hdr 0 len
      (if o.upData then some 32 else none))
    r.1.modGroup g (fun y => y.modOp o.opnum (fun p => { p with up := r.2 }))

/-- The root's outcome: with data to form, the down messages that carry it open; else every one goes out without data and the
member completes (10 R345). The header of a COMPRESSED result waits for its NONFINITE. -/
def State.rootOutcome (s : State) (g : Nat) (x : Group) (o : CollOp) (kids : List (Edge × ChildMsg)) : State :=
  let s := s.modGroup g (fun y => y.modOp o.opnum (fun p => { p with opened := true }))
  if o.hasResult then s.openDown g x o kids (if o.mode = cmCOMPRESSED then 0 else 32)
  else (s.closeDown g x o kids).completeOp g x o

/-- The own contribution is read, unless it has been (10 R341, R347): the state after, and whether it is in hand. -/
def State.readOwn (s : State) (g : Nat) (x : Group) (o : CollOp) (e : Entry) (data : HostRead) : State × Bool :=
  if o.got.isSome then (s, true)
  else if !s.tileActive (s.servingTile (ownerTile g)) then (s.needTile (ownerTile g), false)
  else match s.contribution g x o e data with
    | (s, .wait) => (s, false)
    | (s, c) => (s.modGroup g (fun y => y.modOp o.opnum (fun p => { p with
        got := some (match c with | .ok d => (d, 0) | .fail st => (0, st) | .wait => (0, 0)) })), true)

/-- The member's contribution may be read: its descriptor has started, or it is a launch in the 2 µs before its TIME (10
R347). -/
def State.mayRead (s : State) (z : Slot) : Bool :=
  z.phase == .running || (z.phase == .launch && s.timeState != tsUNSET && decide (dTime z.desc ≤ s.t + us 2))

/-- The tree step proper (10 R345): agreement, the merged outcome, and the up message, or the root's outcome. -/
def State.stepOp (s : State) (g n : Nat) : State :=
  match s.group? g with
  | none => s
  | some x => match x.op? n with
    | none => s
    | some o => match s.kidViews x o, o.got with
      | some kids, some (own, fail) =>
        let r := s.agreed x o kids own (if fail ≠ 0 then fail else if o.bad then stINTEGRITY else 0)
        let s := if r.2 then s.bump Reg.CTL_COLL_MISMATCH else s
        let s := (s.modGroup g (fun y => y.modOp n (fun _ => r.1))).taskEnd (.tree g n)
        match x.parent with
        | some e => s.sendUp g x r.1 e (1 + (kids.map (fun k => hMembers k.2.hdr)).sum)
        | none => s.rootOutcome g x r.1 kids
      | _, _ => s

/-- The member's tree step (10 R345): its own descriptor is taken and started, every child's cell 0 is in hand, and an engine
runs it; before that, the contribution is read (10 R347). After it, an up message that the parent on this chip discarded comes
again. -/
def State.treeStep (s : State) (g n : Nat) (data : HostRead) : State :=
  match s.group? g with
  | none => s
  | some x => match x.op? n with
    | none => s
    | some o => match o.slot.bind s.slot? with
      | none => s
      | some z =>
        if x.broken then s
        else if o.stepped then (if o.upHdr.isSome then s.offerUp g n false else s)
        else if !s.mayRead z then s
        else
          let s := s.treeTask g n
          if !s.taskRuns (.tree g n) then s else
          match s.readOwn g x o z.desc data with
          | (s, false) => s
          | (s, true) => if z.phase = .running then s.stepOp g n else s

/-- TREE_STEP (10 R345). -/
def execTreeStep (g : Word) (n : Word) (data : HostRead) (v : View) (s : State) : Outcome State Fault Refusal :=
  .next ((s.see v).treeStep g.toNat n.toNat data)

/-- Every input holds the elements up to `m` (10 R345). -/
def CollOp.inputsHold (o : CollOp) (kids : List (Edge × ChildMsg)) (m : Nat) : Bool :=
  kids.all (fun k => if o.ctype = ctBROADCAST ∧ hHasRoot k.2.hdr = false then true
    else runsHold k.2.runs (o.upLen m (k.1.subtree == 1)))

/-- A span of a member that is not the root is combined and sent (10 R345). -/
def State.spanUp (s : State) (g : Nat) (x : Group) (o : CollOp) (kids : List (Edge × ChildMsg)) (n : Nat) : State :=
  let leaf := x.children.isEmpty
  let off := o.upLen o.spans leaf
  let len := o.upLen (o.spans + n) leaf - off
  let r := combineSpan o leaf false kids o.spans n
  let s := s.bumpBy Reg.CTL_COLL_NONFINITE r.2.1
  let s := s.modGroup g (fun y => y.modOp o.opnum (fun p =>
    { p with spans := o.spans + n, sum := putBytes p.sum off len r.1 }))
  match o.up with
  | some id => s.growMsg id off len r.1 none
  | none => s

/-- The root's last span: a COMPRESSED result goes to the children with its header; the headers without data follow, and the
member completes (10 R345). -/
def State.rootEnd (s : State) (g : Nat) (x : Group) (o : CollOp) (kids : List (Edge × ChildMsg)) : State :=
  let s := if o.mode ≠ cmCOMPRESSED then s else
    let hdr := s.collHdr x o true true x.members
    let s := s.forwardDown g x o kids 0 o.resultLen o.sum
    let s := o.down.foldl (fun s id => match s.msg? id with
      | some m => if m.avail.isSome then (s.growMsg id 0 0 0 (some hdr)).modMsg id (fun m =>
          { m with avail := some (32 + o.resultLen) }) else s
      | none => s) s
    kids.foldl (fun s k => match s.localMember x.gid k.1 with
      | some l => if o.downTo k.2 then s.modGroup l (fun y => y.modOp o.opnum (fun p => { p with downHdr := some hdr })) else s
      | none => s) s
  let s := s.closeDown g x o kids
  match (s.group? g).bind (fun y => y.op? o.opnum) with
  | some p => s.completeOp g x p
  | none => s

/-- A span of the root is formed, placed and sent to the children (10 R345). -/
def State.spanRoot (s : State) (g : Nat) (x : Group) (o : CollOp) (kids : List (Edge × ChildMsg)) (n : Nat) : State :=
  let off := o.spans * o.elem
  let len := n * o.elem
  let r := combineSpan o x.children.isEmpty true kids o.spans n
  match s.placeResult g x o off len r.1 with
  | .wait s => s
  | .done s =>
    let s := s.bumpBy Reg.CTL_COLL_NONFINITE r.2.1
    let s := s.modGroup g (fun y => y.modOp o.opnum (fun p =>
      { p with spans := o.spans + n, sum := putBytes p.sum off len r.1,
               nonfinite := (if o.spans = 0 then 0 else p.nonfinite) + r.2.2 }))
    let s := if o.mode = cmCOMPRESSED then s else s.forwardDown g x o kids off len r.1
    if o.spans + n < o.count then s else
    match (s.group? g).bind (fun y => y.op? o.opnum) with
    | some p => s.rootEnd g x p kids
    | none => s

/-- The next span of the operation, once every input holds it (10 R345). -/
def State.spanCombine (s : State) (g n : Nat) : State :=
  match s.group? g with
  | none => s
  | some x => match x.op? n with
    | none => s
    | some o => match s.kidViews x o with
      | none => s
      | some kids =>
        let m := min o.spanElems (o.count - o.spans)
        let due := if x.parent.isSome then o.upData else o.hasResult
        if x.broken || !o.stepped || !due || m == 0 || !o.inputsHold kids (o.spans + m) then s
        else if x.parent.isSome then s.spanUp g x o kids m
        else s.spanRoot g x o kids m

/-- SPAN_COMBINE (10 R345). -/
def execSpanCombine (g : Word) (n : Word) (v : View) (s : State) : Outcome State Fault Refusal :=
  .next ((s.see v).spanCombine g.toNat n.toNat)

/-- What of the down message's data is here from its start on. -/
def CollOp.downHere (o : CollOp) : Nat := ((o.downRuns.find? (fun r => r.1 == 0)).map (·.2)).getD 0

/-- The member takes over the outcome that the down message carries (10 R351). -/
def CollOp.takeOutcome (o : CollOp) (hdr : Nat) : CollOp :=
  { o with status := hStatus hdr, origin := hOrigin hdr, disagree := hDisagree hdr, nonfinite := hNonfinite hdr }

/-- `m` more bytes of the down message, `d` from them on, have been placed: they go on to the children, and the operation
completes with the last of its `total` bytes (10 R345, R346). -/
def State.downPlaced (s : State) (g : Nat) (x : Group) (o : CollOp) (kids : List (Edge × ChildMsg)) (m d total : Nat) : State :=
  let s := if m = 0 then s else s.forwardDown g x o kids o.handled m d
  let s := s.modGroup g (fun y => y.modOp o.opnum (fun p => { p with handled := o.handled + m }))
  if o.handled + m < total then s else
  let s := s.closeDown g x o kids
  match (s.group? g).bind (fun y => y.op? o.opnum) with
  | some p => s.completeOp g x p
  | none => s

/-- The parent's down message is handled as far as it is here, once the own up message has gone whole (10 R345, R346). -/
def State.downMessage (s : State) (g n : Nat) : State :=
  match s.group? g with
  | none => s
  | some x => match x.op? n with
    | none => s
    | some o => match o.downHdr, s.kidViews x o with
      | some hdr, some kids =>
        if x.broken || !o.stepped || (o.upData && o.spans != o.count) then s else
        let o := o.takeOutcome hdr
        let s := s.modGroup g (fun y => y.modOp n (fun p => { p.takeOutcome hdr with opened := true }))
        let s := if o.opened then s else s.openDown g x o kids 32
        let total := if hWire hdr = 3 then 0 else o.resultLen
        let m := min o.downHere total - o.handled
        let d := o.downData / 256 ^ o.handled
        match if m = 0 then CollPlace.done s else s.placeResult g x o o.handled m d with
        | .wait s => s
        | .done s => s.downPlaced g x o kids m d total
      | _, _ => s

/-- DOWN_MESSAGE (10 R345). -/
def execDownMessage (g : Word) (n : Word) (v : View) (s : State) : Outcome State Fault Refusal :=
  .next ((s.see v).downMessage g.toNat n.toNat)

/-- The oldest message with ABORT on connection `h` that has not been acted on. -/
def State.abortOn (s : State) (h : Nat) : Option RxMsg :=
  (s.conn? h).bind (fun k => k.inOrder.find? (fun m =>
    m.typ == tyCOLLECTIVE && hAbort (m.cell0.pb 32 32) && !m.served && m.status == 0))

/-- An ABORT is received (10 R352): the member it is for becomes BROKEN with its STATUS. -/
def State.takeAbort (s : State) (h : Nat) : State :=
  match s.abortOn h with
  | none => s
  | some m =>
    let c := m.cell0
    let hdr := c.pb 32 32
    let s := s.modConn h (fun k => k.modRx m.seq (fun m => { m with served := true }))
    let g := if hDown hdr then s.downTarget (c.pb 8 4) h else (s.upTarget (c.pb 8 4) h).map (·.1)
    match g with
    | some g => s.breakGroup g (hStatus hdr) (hOrigin hdr)
    | none => s

/-- COLLECTIVE_ABORT (10 R352). -/
def execCollectiveAbort (h : Word) (v : View) (s : State) : Outcome State Fault Refusal :=
  .next (((s.see v).takeAbort h.toNat).advanceWm h.toNat (fun m => m.typ == tyCOLLECTIVE))

end Sys2Proof.Machine
end

