-- ==== Sys2Proof/Machine/Xlt.lean ====
section
/-! DEFINITION. The miss task, the atomic update of a table entry, the extents and the device list (11 R369-R379). -/

namespace Sys2Proof.Machine

open Host (Outcome)

/-- The end of a walk. -/
inductive WalkEnd where
  /-- A leaf: its level, its bus address and its value. -/
  | leaf (level ptr : Nat) (e : Word64)
  | fault (status level : Nat)
  /-- A table read returned an error. -/
  | failed
  /-- Reads are still outstanding. -/
  | more
  deriving DecidableEq, Repr

/-- Log2 of the page that a leaf at a level maps (11 R369). -/
def leafLog2 (level : Nat) : Nat := if level = 3 then 30 else if level = 2 then 21 else 12

/-- ADDR of a table entry (11 R370). -/
def entryAddr (e : Word64) : Nat := e.toNat / 4096 % 2 ^ 40 * 4096

/-- An entry is invalid at a level (11 R371). -/
def entryInvalid (level : Nat) (e : Word64) : Bool :=
  let leaf := e.getLsbD 1
  !e.getLsbD 0 || e.toNat / 2 ^ 52 != 0 || (leaf && level == 4) || (!leaf && level == 1) ||
    (leaf && level == 3 && entryAddr e % 2 ^ 30 != 0) || (leaf && level == 2 && entryAddr e % 2 ^ 21 != 0)

/-- The index of `va` at a level (11 R369). -/
def tableIndex (level va : Nat) : Nat := va / 2 ^ (12 + 9 * (level - 1)) % 512

/-- The walk from the entry at bus address `ptr` of a level, on what its reads returned; also how many entries were read
(11 R369-R372). -/
def State.walk (s : State) (i va : Nat) : Nat → Nat → List HostRead → Nat → Nat × WalkEnd
  | 0, _, _, n => (n, .fault stTRANSLATION 1)
  | l + 1, ptr, reads, n =>
    if s.inDevice i ptr 8 true then (n, .fault stDEVICE (l + 1)) else
    match reads with
    | [] => (n, .more)
    | .error :: _ => (n, .failed)
    | .data w :: rest =>
      let e : Word64 := BitVec.ofNat 64 w
      if entryInvalid (l + 1) e then (n + 1, .fault stTRANSLATION (l + 1))
      else if e.getLsbD 1 then
        if s.inDevice i (entryAddr e) (2 ^ leafLog2 (l + 1)) false then (n + 1, .fault stDEVICE (l + 1))
        else (n + 1, .leaf (l + 1) ptr e)
      else s.walk i va l (entryAddr e + 8 * tableIndex l va) rest (n + 1)

/-- The walk of a task: from the top, or from where an update found a change (11 R375). Its reads wait while the function may
issue none (15 R461). -/
def State.walkOf (s : State) (m : Miss) (reads : List HostRead) : Nat × WalkEnd :=
  let reads := if s.fnUp (s.portOf m.inst) (s.fnOf m.inst) then reads else []
  match m.resume with
  | some (l, ptr) => s.walk m.inst m.va l ptr reads 0
  | none => s.walk m.inst m.va 4 ((s.inst m.inst).xltRoot + 8 * tableIndex 4 m.va) reads 0

/-- An entry is loaded into the slice, in place of the least recently used one of 512 (11 R373). -/
def State.loadTlb (s : State) (tile : Nat) (e : TlbEntry) : State :=
  let l := (s.slice tile).filter (fun x => !(x.inst == e.inst && x.vbase == e.vbase && x.log2 == e.log2))
  let l := if l.length < 512 then l else l.drop (l.length - 511)
  { s with xlt := { s.xlt with tlb := Map.set s.xlt.tlb tile (l ++ [e]) } }

/-- The TLB entry of a leaf (11 R374). -/
def leafEntry (m : Miss) (ptr log2 : Nat) (e : Word64) : TlbEntry :=
  { inst := m.inst, vbase := m.va / 2 ^ log2 * 2 ^ log2, log2 := log2, addr := entryAddr e, write := e.getLsbD 2,
    dirty := e.getLsbD 4, ptr := ptr, leaf := e }

/-- The task `m` ends in a fault, with those that wait on it (11 R368). -/
def State.walkFault (s : State) (m : Miss) (status level : Nat) : State :=
  (s.xltFault m.tile m.inst m.va status level m.write).failWaits m status

/-- The task `m` has its leaf: ACCESSED is set first where it is clear, then the slice is loaded (11 R373). -/
def State.walkLeaf (s : State) (m : Miss) (level ptr : Nat) (e : Word64) : State :=
  let g := leafLog2 level
  if e.getLsbD 3 then s.loadTlb m.tile (leafEntry m ptr g e) else
    match s.flagUpdate { miss := m, dirty := false, ptr := ptr, expected := e, log2 := g } with
    | (s, true) => s
    | (s, false) => s.walkFault m stTRANSLATION level

/-- The walk of the task `m` is over. -/
def State.missOver (s : State) (m : Miss) : State :=
  { s with xlt := { s.xlt with misses := dropFirst m s.xlt.misses } }

/-- The task `m` ends, unless its update of ACCESSED is still to come; the accesses that waited go on (11 R373). -/
def State.missRetry (s : State) (m : Miss) : State :=
  let live := s.xlt.misses.any (fun x => x.task = m.task) || s.xlt.updates.any (fun u => !u.dirty && u.miss.task = m.task)
  ((if live then s else s.taskEnd m.task).retrySlots).retryInst m.inst

/-- The result of a task of instance `i` is discarded: its accesses walk again, or the instance is being reset (11 R381,
12 R394). -/
def State.lateTask (s : State) (i : Nat) : State :=
  if s.flag (F.CTL_INST_STATE_RESETTING i) then s.bump Reg.CTL_INST_LATE_DROP else s

/-- Table entries read by a walk. -/
def State.countReads (s : State) (n : Nat) : State := (s.bumpBy Reg.XLT_WALK_READ n).occur bkXLT 0x11 [0] n

/-- The end of the task `m`, on what its reads returned (11 R370-R373, R379). LEVEL of a walk refused before it reads an entry is free
(log entry 45). -/
def State.missDone (s : State) (m : Miss) (reads : List HostRead) : State :=
  if m.marked then (s.missOver m).lateTask m.inst
  else if !s.flag F.XLT_CTRL_DEVLIST_LOCK then
    ((s.missOver m).drawn.walkFault m stDEVICE (Config.freeChoice s.draws % 8)).raiseStanding blkXLT 1 0
  else
    match s.walkOf m reads with
    | (_, .more) => s
    | (n, .failed) =>
      let s := (s.missOver m).countReads n
      (s.raise (blkHPT (s.portOf m.inst)) 2 (s.fnOf m.inst)).failWaits m stINTEGRITY
    | (n, .fault st l) => ((s.missOver m).countReads n).walkFault m st l
    | (n, .leaf l ptr e) => ((s.missOver m).countReads n).walkLeaf m l ptr e

/-- TRANSLATION_MISS (11 R373). -/
def execTranslationMiss (t : TileId) (i : InstId) (va : Nat) (reads : List HostRead) (s : State) :
    Outcome State Fault Refusal :=
  .next (match s.missFor t.val i.val va with
    | some m => if s.taskRuns m.task then (s.missDone m reads).missRetry m else s
    | none => s)

/-- The update met a change that no rule allows (11 R375). -/
def updateRaced (expected found : Word64) : Bool := ((expected ^^^ found) &&& ~~~ 0xFF8#64) != 0#64

/-- The slice entry at the pointer `ptr` is changed, or dropped. -/
def State.modTlb (s : State) (tile i ptr : Nat) (f : TlbEntry → Option TlbEntry) : State :=
  let l := (s.slice tile).filterMap (fun e => if e.inst = i ∧ e.ptr = ptr then f e else some e)
  { s with xlt := { s.xlt with tlb := Map.set s.xlt.tlb tile l } }

/-- An update of ACCESSED ends; `found` is the entry it found (11 R373, R375). -/
def State.accessedDone (s : State) (u : FlagUpdate) (found : Word64) : State :=
  if u.miss.marked then s.lateTask u.miss.inst
  else if updateRaced u.expected found then
    let s := s.bump Reg.XLT_RACE
    let m : Miss := { u.miss with resume := some (if u.log2 = 30 then 3 else if u.log2 = 21 then 2 else 1, u.ptr) }
    { s with xlt := { s.xlt with misses := s.xlt.misses ++ [m] } }
  else s.loadTlb u.miss.tile (leafEntry u.miss u.ptr u.log2 (found ||| 8#64))

/-- An update of DIRTY ends; `room` is how many records of the page log the chip finds free from its position on
(11 R374, R375, 12 R398). A result that an invalidation or a reset marked leaves the slice as it is; the record of the page
that was marked in the table is due all the same (12 R392). -/
def State.dirtyDone (s : State) (u : FlagUpdate) (found : Word64) (room : Nat) : State :=
  let s := s.lateTask u.miss.inst
  let modTlb := fun (s : State) (f : TlbEntry → Option TlbEntry) =>
    if u.miss.marked then s else s.modTlb u.miss.tile u.miss.inst u.ptr f
  if updateRaced u.expected found then modTlb (s.bump Reg.XLT_RACE) (fun _ => none)
  else
    let s := modTlb (s.bump Reg.XLT_DIRTY_SET) (fun e => some { e with dirty := true, leaf := found ||| 16#64 })
    (s.modInst u.miss.inst (fun x => { x with logRoom := room })).logPage u.miss.inst (entryAddr u.expected) u.log2

/-- The end of an update: the host answered Unsupported Request, or the value it found (11 R375, 18 R525). -/
def State.updateDone (s : State) (u : FlagUpdate) (found : Word64) (ur : Bool) (room : Nat) : State :=
  let s : State := { s with xlt := { s.xlt with updates := dropFirst u s.xlt.updates } }
  let s := s.freeLine (s.portOf u.miss.inst) (s.fnOf u.miss.inst) u.ptr false
  if ur then
    let s := (s.atomicUr (s.portOf u.miss.inst) (s.fnOf u.miss.inst)).raise blkXLT 0 0
    if u.miss.marked then s.lateTask u.miss.inst else
    s.walkFault u.miss stTRANSLATION (if u.dirty then 0 else if u.log2 = 30 then 3 else if u.log2 = 21 then 2 else 1)
  else if u.dirty then s.dirtyDone u found room else s.accessedDone u found

/-- The update has gone out, and the link is up for its completion (15 R461). -/
def State.updateOut (s : State) (u : FlagUpdate) : Bool :=
  let i := u.miss.inst
  s.portUp (s.portOf i) && !s.keptAt (s.portOf i) (s.fnOf i) u.ptr false

/-- FLAG_UPDATE_DONE (11 R375). -/
def execFlagUpdateDone (k : Nat) (found : Word64) (ur : Bool) (room : Nat) (s : State) : Outcome State Fault Refusal :=
  .next (match s.xlt.updates[k]? with
    | some u => if s.updateOut u then (s.updateDone u found ur room).missRetry u.miss else s
    | none => s)

/-- A write of `w` to XLT_EXT_CTRL of extent `n` of instance `i` (11 R378). -/
def State.extCtrlWrite (s : State) (i n : Nat) (w : Word) : State :=
  if s.flag (F.XLT_EXT_CTRL_VALID i n) then s.setFlag (F.XLT_EXT_CTRL_VALID i n) (bit w 31)
  else
    let s := s.setFlag (F.XLT_EXT_CTRL_WRITE i n) (bit w 1)
    if !bit w 31 then s else
    let (vb, len, pb) := s.extent i n
    let bad := len == 0 || decide (2 ^ 48 < vb + len ∨ 2 ^ 52 < pb + len) || s.inDevice i pb len false
    (s.setFlag (F.XLT_EXT_CTRL_VALID i n) (!bad)).setFlag (F.XLT_EXT_CTRL_ERR i n) bad

/-- EXTENT_VALID_SET (11 R378): the word written, taken with VALID = 1. -/
def execExtentValidSet (i : InstId) (n : Fin 16) (w : Word) (s : State) : Outcome State Fault Refusal :=
  .next (if s.windowOpen i.val then s.extCtrlWrite i.val n.val (w ||| 0x80000000#32) else s)

/-- A write of `w` to XLT_CTRL (11 R379): DEVLIST_LOCK sets and stays, and ends the standing DEVLIST_OPEN. -/
def State.xltCtrlWrite (s : State) (w : Word) : State :=
  let s := s.setFld F.XLT_CTRL_UPD_COH (w.toNat % 256)
  if bit w 31 then (s.setFlag F.XLT_CTRL_DEVLIST_LOCK true).endStanding blkXLT 1 else s

/-- DEVLIST_LOCK (11 R379): the word written, taken with DEVLIST_LOCK = 1. -/
def execDevlistLock (w : Word) (s : State) : Outcome State Fault Refusal := 
  .next (s.setup (s.xltCtrlWrite (w ||| 0x80000000#32)))

/-- XLT_FAULT_INFO_READ by requester `who` (11 R368). -/
def execXltFaultInfoRead (who : Fin 9) (s : State) : Outcome State Fault Refusal :=
  .next (let v := s.rd Reg.XLT_FAULT_INFO
    ({ s with lastRead := .data who.val (v.setWidth 64) 4 } : State).setFlag F.XLT_FAULT_INFO_VALID false)

end Sys2Proof.Machine
end

