-- ==== Sys2Proof/Machine/HostPort.lean ====
section
/-! DEFINITION. Instances and functions, the host ports' links and resets, requests that fail (12 R387-R389, 15
R450-R463, 18 R517, R525 HPT). -/

namespace Sys2Proof.Machine

open Host (Outcome)

/-- The link is up with Bus Master Enable set (18 R525 LINK_DOWN): on each mapped function, or on the physical one where
none is mapped. -/
def State.linkServed (s : State) (p : Nat) : Bool :=
  let fs := (List.range 128).filter (fun i => s.mapped i && s.portOf i == p)
  s.portUp p && (if fs.isEmpty then s.fnUp p 0 else fs.all (fun i => s.fnUp p (s.fnOf i)))

/-- Instance `i` holds a queue, domain, region, connection or group (12 R387). -/
def State.holdsObject (s : State) (i : Nat) : Bool :=
  s.obj.queues.any (fun q => q.1 != 0 && q.1 != acqKey && q.2.inst == i) || s.obj.pds.any (fun d => d.2 == i) ||
    s.obj.regions.any (fun r => r.1 / 2 ^ 24 == i && r.2.valid) || s.xpt.conns.any (fun c => c.2.inst == i) ||
    s.col.groups.any (fun g => g.2.inst == i)

/-- A write of `w` to CTL_INST_MAP of instance `i` (12 R387). -/
def State.instMapWrite (s : State) (i : Nat) (w : Word) : State :=
  if s.holdsObject i then s else
  let p := bits w 10 8
  let f := bits w 4 0
  let taken := (List.range 128).any (fun j => j != i && s.mapped j && s.portOf j == p && s.fnOf j == f)
  if 16 < f ∨ taken = true ∨ s.nInst ≤ i then s.setFlag (F.CTL_INST_MAP_ERR i) true
  else
    let old := s.portOf i
    let s := s.wr (Reg.CTL_INST_MAP i) (BitVec.ofNat 32 (b2n (bit w 31) * 2 ^ 31 + p * 256 + f))
    if s.portUp old || s.portUp p then (s.markSuspended old).markSuspended p else s

/-- INST_MAP_WRITE (12 R387). -/
def execInstMapWrite (i : InstId) (w : Word) (s : State) : Outcome State Fault Refusal :=
  .next (s.setup (s.instMapWrite i.val w))

/-- A request by AtomicOp that is kept, and whose function is not enabled to make it, fails as an Unsupported Request would (15
R456). -/
def State.keptFails (s : State) (o : HostOut) : State :=
  match o with
  | .write .. => s
  | .flagCas p f a _ _ _ =>
    match s.xlt.updates.find? (fun u => s.portOf u.miss.inst == p && s.fnOf u.miss.inst == f && u.ptr == a) with
    | none => s
    | some u => (s.updateDone u 0 true 0).missRetry u.miss
  | .wordOp p f a _ _ =>
    match s.atu.ops.find? (fun x => x.issued && x.write.isNone && s.portOf x.inst == p && s.fnOf x.inst == f && x.addr == a) with
    | none => s
    | some x => ((s.hostOpOver x).wordOpDone x [] true).nextOp x.inst x.addr

/-- The requests by AtomicOp that are kept for function `f` of port `p` fail: AtomicOp Requester Enable is clear (15 R456). -/
def State.failAtomics (s : State) (p f : Nat) : State :=
  let atomic := fun (o : HostOut) => o.key == fnKey p f && !(o.overCache (s.portCache p)).coherent && (match o with
    | .write .. => false
    | _ => true)
  let out := (s.hpt.again ++ s.hpt.kept).filter atomic
  out.foldl State.keptFails { s with hpt := { s.hpt with again := s.hpt.again.filter (fun o => !atomic o),
                                                         kept := s.hpt.kept.filter (fun o => !atomic o) } }

/-- What a host sets in the configuration space of function `f` of port `p`; a function that may issue again gets its
kept writes out (12 R389, 15 R456, R461 step 4). -/
def State.fnConfig (s : State) (p f : Nat) (c : FnCfg) : State :=
  if 16 < f ∨ s.portUp p = false then s else
  let on := c.bme && !(s.fnCfg p f).bme
  let s : State := { s with hpt := { s.hpt with fns := Map.set s.hpt.fns (fnKey p f) c } }
  let s := if f = 0 then s.setFlag (F.HPT_STATUS_ATOMIC_EN p) c.atomicEn else s
  let s := if on && !c.atomicEn && !s.halted then s.failAtomics p f else s
  let s := if on && !s.halted then s.reissue (fnKey p f) else s
  let s := s.markSuspended p
  let s := if s.linkServed p then s.endStanding (blkHPT p) 0 else s
  s.retrySlots

/-- BUS_MASTER_ENABLE_CHANGE (12 R389): what the host has set in the function now. -/
def execBusMasterEnableChange (p : PortId) (f : Fin 17) (bme atomicEn : Bool) (bars : List (Nat × Nat)) (s : State) :
    Outcome State Fault Refusal :=
  .next (s.fnConfig p.val f.val { bme := bme, atomicEn := atomicEn, bars := bars })

/-- The last `n` writes among the requests that `mine` selects, in their order. -/
def lastWrites (mine : HostOut → Bool) (n : Nat) (l : List HostOut) : List HostOut :=
  let w := l.filter (fun o => mine o && (match o with
    | .write .. => true
    | _ => false))
  w.drop (w.length - n)

/-- A host-word operation had no completion when the link went down: it fails with INTEGRITY; a lock word leaves the
registry, and its waiters fail (15 R461 step 5). -/
def State.opLost (s : State) (o : UnitOp) : State :=
  let s := s.opOver o
  let drop := fun (s : State) => match s.heldAt o.inst o.addr with
    | some (n, x) => s.failHeld n x stINTEGRITY
    | none => s
  let s := match o.kind with
    | .late => s.unholdUnit o
    | .atomic h q => (s.unholdUnit o).failReq h q stINTEGRITY
    | .acquire h q => (s.unholdUnit o).failReq h q stINTEGRITY
    | .release h q => ((drop s).unholdUnit o).failReq h q stINTEGRITY
    | .slotAcquire k => if s.lkState (k / 256) (k % 256) = lsWAITING then
        s.slotOutcome (k / 256) (k % 256) stINTEGRITY 0 else s
    | .slotRelease k => (drop s).slotReleased (k / 256) (k % 256) stINTEGRITY
    | .abandon _ => drop s
    | .pass _ => drop s
  s.nextOp o.inst o.addr

/-- What the loss of port `p`'s link does to the locks and waits of the instances mapped to it (15 R461 step 2, 09
R330). -/
def State.portLocks (s : State) (p : Nat) : State :=
  let mine := fun (i : Nat) => s.mapped i && s.portOf i == p
  let s := s.withdrawAll (fun w => !w.master.via && mine w.master.inst)
  let s := s.abandonAll (fun x => !x.owner.via && mine x.owner.inst)
  let s := ((List.range 128).filter mine).foldl (fun s i => s.idleSlots i) s
  let s : State := { s with atu := { s.atu with reading := s.atu.reading.filter (fun x => !mine (x.1 / 256)),
                                                idleSince := s.atu.idleSince.filter (fun x => !mine (x.1 / 256)) } }
  s.xpt.conns.foldl (fun s c => if mine c.2.inst then s.sendAbandonAll c.1 else s) s

/-- The requests of port `p` that are issued again once it is served: the last `n` writes, which had no
acknowledgement, and the table updates without a completion (15 R461 steps 1, 5). -/
def State.keepAgain (s : State) (p n : Nat) : State :=
  let cas := (s.xlt.updates.filter (fun u => s.portOf u.miss.inst == p)).map (fun u =>
    let f := s.fnOf u.miss.inst
    HostOut.flagCas p f u.ptr u.expected.toNat (u.expected.toNat ||| (if u.dirty then 16 else 8))
      ((s.fld F.XLT_CTRL_UPD_COH).testBit p && s.portCache p))
  let open_ := (s.hpt.issued.zipIdx.filter (fun x => decide (Map.getD s.hpt.acked x.1.key 0 ≤ x.2))).map (·.1)
  let wait := s.hpt.lineWait.filter (fun o => o.port == p && (match o with
    | .wordOp .. => true
    | _ => false))
  { s with hpt := { s.hpt with
    again := s.hpt.again ++ lastWrites (fun o => o.port == p) n open_ ++
      cas.filter (fun o => !(s.hpt.again ++ s.hpt.kept).any (fun x => x.overCache false == o.overCache false)),
    kept := s.hpt.kept ++ wait,
    lines := s.hpt.lines.filter (fun o => o.port != p),
    lineWait := s.hpt.lineWait.filter (fun o => o.port != p) } }

/-- The data link of port `p` goes down; `n` writes of it had no acknowledgement (15 R460, R461). -/
def State.portDown (s : State) (p n : Nat) : State :=
  if !s.portUp p then s else
  let lost := s.atu.ops.filter (fun o => o.issued && o.write.isNone && s.portOf o.inst == p &&
    !s.keptAt p (s.fnOf o.inst) o.addr true)
  let s := s.keepAgain p n
  let s : State := { s with hpt := { s.hpt with fns := s.hpt.fns.filter (fun x => x.1 / 32 != p) } }
  let refused := s.flag (F.HPT_STATUS_MEM_REFUSED p)
  let s := ((lost.foldl (fun s o => s.opLost o) s).portLocks p).bump (Reg.HPT_PORT_RESET p)
  let s : State := { s with hpt := { s.hpt with hdm := Map.erase s.hpt.hdm p } }
  let s := s.wr (Reg.HPT_STATUS p) (BitVec.ofNat 32 (b2n refused * 2 ^ 19))
  (s.markSuspended p).raiseStanding (blkHPT p) 0 0

/-- HOST_PORT_RESET (15 R460, R461). -/
def execHostPortReset (p : PortId) (unacked : Nat) (v : View) (s : State) : Outcome State Fault Refusal :=
  .next ((s.see v).portDown p.val unacked)

/-- The instance that is mapped to function `f` of port `p`. -/
def State.instAt (s : State) (p f : Nat) : Option Nat :=
  (List.range 128).find? (fun i => s.mapped i && s.portOf i == p && s.fnOf i == f)

/-- The configuration space of function `f` of port `p` returns to its reset values; with the physical function, VF Enable
clears too. -/
def State.fnReset (s : State) (p f : Nat) : State :=
  let left := if f = 0 then s.hpt.fns.filter (fun x => x.1 / 32 != p) else Map.erase s.hpt.fns (fnKey p f)
  let s : State := { s with hpt := { s.hpt with fns := left } }
  let s := if f = 0 then s.setFlag (F.HPT_STATUS_ATOMIC_EN p) false else s
  s.markSuspended p

/-- The reset of an instance for an FLR begins, unless another reset of it is in progress (15 R462, R463). -/
def State.flrBegin (s : State) (i : Nat) : State :=
  if s.flag (F.CTL_INST_STATE_RESETTING i) then
    { s with obj := { s.obj with flr := Map.set s.obj.flr i false } }
  else
    let s := s.resetBegin i
    { s with obj := { s.obj with flr := Map.set s.obj.flr i true } }

/-- A Function Level Reset of function `f` of port `p` (15 R462). -/
def State.flrDo (s : State) (p f : Nat) : State :=
  if s.portUp p = false ∨ 16 < f then s else
  let s := if p = s.owner ∧ f = 0 ∧ s.flag F.CTL_AQ_CTRL_ENABLE = true then s.aqStop else s
  let s := s.fnReset p f
  match s.instAt p f with
  | some i => (s.bump (Reg.HPT_FLR p)).flrBegin i
  | none => s

/-- FLR (15 R462). -/
def execFlr (p : PortId) (f : Fin 17) (v : View) (s : State) : Outcome State Fault Refusal :=
  .next ((s.see v).flrDo p.val f.val)

/-- A write of `w` to HPT_CTRL of port `p`, of which `n` writes have no acknowledgement (15 R454, R458, R463). -/
def State.hptCtrlWrite (s : State) (p : Nat) (w : Word) (n : Nat) : State :=
  let was := s.flag (F.HPT_CTRL_DISABLE p)
  let off := if p = s.owner then was else bit w 31
  let c := b2n off * 2 ^ 31 + b2n (bit w 30) * 2 ^ 30 + b2n (bit w 29 && s.part.gddr) * 2 ^ 29 + bits w 19 16 * 2 ^ 16
  let s := s.wr (Reg.HPT_CTRL p) (BitVec.ofNat 32 c)
  if off then (if was then s else (s.portDown p n).setFld (F.HPT_STATUS_MODE p) 3)
  else
    let s := if was then s.setFld (F.HPT_STATUS_MODE p) 0 else s
    if bit w 28 then s.portDown p n else s

/-- HPT_DISABLE (15 R454): the word written, taken with DISABLE = 1. -/
def execHptDisable (p : PortId) (w : Word) (unacked : Nat) (v : View) (s : State) : Outcome State Fault Refusal :=
  .next (let s := s.see v
    s.setup (s.hptCtrlWrite p.val (w ||| 0x80000000#32) unacked))

/-- HPT_RETRAIN (15 R451, R463): the word written, taken with RETRAIN = 1; the bit clears when training starts. -/
def execHptRetrain (p : PortId) (w : Word) (unacked : Nat) (v : View) (s : State) : Outcome State Fault Refusal :=
  .next (let s := s.see v
    s.setup (s.hptCtrlWrite p.val (w ||| 0x10000000#32) unacked))

/-- The fault message is sent where one is due, the control owner's link is up, and the last is 1 us old (18 R517). -/
def State.sendMsi (s : State) : State :=
  let late := match s.flt.msiLast with
    | some t => decide (t + us 1 ≤ s.t)
    | none => true
  if s.flt.msiDue && s.portUp s.owner && late then
    { s with flt := { s.flt with msiDue := false, msiLast := some s.t, msiSent := s.flt.msiSent + 1 } }
  else s

/-- The GDDR7 area behind the windows (15 R458, 16 R470). -/
def State.windowArea (s : State) : Nat := if s.smallMem then 2 ^ 30 else 2 ^ 31

/-- The link of port `p` trains as PCI Express or, where it was offered and its rate and width allow it, as CXL; the window is
granted or refused (15 R450, R451, R458). Host ports train from the end of step 3 of the start-up, unless SB_ONLY is set
(20 R543, R544). -/
def State.portTrained (s : State) (p : Nat) (cxl : Bool) (rate width : Nat) (cache : Bool) (base : Nat) : State :=
  if s.portUp p || s.flag (F.HPT_CTRL_DISABLE p) || s.part.sbOnly || s.fld F.MGT_STATUS_STEP < 4 then s else
  let cxl := cxl && s.flag (F.HPT_CTRL_CXL_OFFER p) && rate == 6 && (width == 16 || width == 8)
  let size := min 8 (s.fld (F.HPT_CTRL_MEM_SIZE p)) * 2 ^ 28
  let used := (s.hpt.hdm.map (fun x => x.2.2)).sum
  let asked := cxl && s.part.gddr && s.flag (F.HPT_CTRL_CXLMEM_EN p)
  let ok := asked && size != 0 && decide (used + size ≤ s.windowArea)
  let s := s.wr (Reg.HPT_STATUS p) (BitVec.ofNat 32 ((if cxl then 2 else 1) * 2 ^ 30 + rate * 2 ^ 27 + width * 2 ^ 22 +
    b2n (cxl && cache) * 2 ^ 21 + b2n ok * 2 ^ 20 + b2n (asked && !ok) * 2 ^ 19))
  let s : State := if ok then { s with hpt := { s.hpt with hdm := Map.set s.hpt.hdm p (base, size) } } else s
  (s.markSuspended p).sendMsi

/-- HOST_PORT_LINK_UP (15 R458, 18 R517): PCI Express or CXL, the RATE code, log2 of the width, whether CXL.cache is active,
and the committed host base of the window. -/
def execHostPortLinkUp (p : PortId) (cxl : Bool) (rate : Fin 6) (width : Fin 5) (cache : Bool) (base : Word64) (s : State) :
    Outcome State Fault Refusal :=
  .next (s.portTrained p.val cxl (rate.val + 1) (2 ^ width.val) cache base.toNat)

/-- The function whose write on port `p` stands: one that has issued a write there; which of several is free (log entry 178). -/
def State.stallFn (s : State) (p : Nat) : Nat :=
  match (s.hpt.issued.filterMap (fun o => match o with
    | .write q f _ _ _ => if q = p then some f else none
    | _ => none)).eraseDups with
  | [] => 0
  | [f] => f
  | fs => fs.getD (Config.freeChoice s.draws % fs.length) 0

/-- A write of port `p` has been unacknowledged for 1 ms, or the stalled write has been acknowledged (18 R525). -/
def State.writeStall (s : State) (p : Nat) (acked : Bool) : State :=
  if acked then (s.endStanding (blkHPT p) 1).markSuspended p
  else if s.portUp p then (s.drawn.raiseStanding (blkHPT p) 1 (s.stallFn p)).markSuspended p else s

/-- WRITE_STALL (18 R525). -/
def execWriteStall (p : PortId) (acked : Bool) (s : State) : Outcome State Fault Refusal := .next (s.writeStall p.val acked)

/-- A read of function `f` of port `p` has failed (18 R525 POISON, CPL_TIMEOUT). What needed it learns so from its own
command, which carries what the read returned (log entry 40). -/
def State.readFailed (s : State) (p f : Nat) (timeout : Bool) : State :=
  if s.portUp p then s.raise (blkHPT p) (if timeout then 3 else 2) f else s

/-- CPL_TIMEOUT (18 R525). -/
def execCplTimeout (p : PortId) (f : Fin 17) (s : State) : Outcome State Fault Refusal := .next (s.readFailed p.val f.val true)

/-- POISON (18 R525). -/
def execPoison (p : PortId) (f : Fin 17) (s : State) : Outcome State Fault Refusal := .next (s.readFailed p.val f.val false)

/-- ATOMIC_UR (15 R456): an operation on a host word, the `k`-th of the unit, is completed with Unsupported Request. -/
def execAtomicUr (k : Nat) (v : View) (s : State) : Outcome State Fault Refusal :=
  .next (let s := s.see v
    match s.hostOpAt k with
    | none => s
    | some o => (((s.hostOpOver o).wordOpDone o [] true).nextOp o.inst o.addr).retrySlots)

end Sys2Proof.Machine
end

