-- ==== Sys2Proof/Machine/Match.lean ====
section
/-! DEFINITION. The meanings of the commands that finish a match: the copy of an unexpected message, the start of a pull,
the service of a READ_REQ (07 R262, R266-R271, 08 R288, R289). -/

namespace Sys2Proof.Machine

open Host (Outcome)

/-- A covered eager message is copied to the receive that is bound to it (07 R262). -/
def State.copyStored (s : State) (e : Nat) : State :=
  match s.entry? e with
  | none => s
  | some x =>
    if x.rts || !x.covered then s else
    match x.bound.bind (fun b => s.slot? b.1) with
    | none => s
    | some z =>
      let size := dLength z.desc
      let n := min x.len size
      let st := if size < x.len then stTRUNCATED else stSUCCESS
      if x.status ≠ 0 then (if x.lost then s.bump Reg.MEM_LOST else s).finishStored e x x.status 0
      else if n = 0 then s.finishStored e x st 0 else
      if (s.conn? x.handle).isSome && !s.onDie x.handle then s.needContext x.handle else
      match s.access (.copy e) (s.connTile x.handle) x.inst (pLaddr z.desc) n true with
      | (s, .ready l) => (s.writePieces x.inst (pLaddr z.desc) l x.data).finishStored e x st n
      | (s, .wait) => s
      | (s, .fail st) => s.finishStored e x st 0

/-- UNEXPECTED_COPY (07 R262). -/
def execUnexpectedCopy (e : Nat) (v : View) (s : State) : Outcome State Fault Refusal :=
  .next ((s.see v).copyStored e)

/-- A matched request starts its pull, if it is the next of its connection and PULL_LIMIT allows (07 R266, R267). -/
def State.startPull (s : State) (e : Nat) : State :=
  match s.entry? e with
  | none => s
  | some x =>
    if s.nextPull x.handle ≠ some e then s else
    match s.conn? x.handle, x.bound.bind (fun b => s.slot? b.1) with
    | some k, some z =>
      if k.st = .broken ∨ s.pullLimit x.proto ≤ k.pulls then s else
      let s := s.pullTask x.handle
      if !s.taskRuns (.pull e) then s else
      let m : TxMsg := { handle := x.handle, typ := tyREADREQ, origin := .pull e, len := 8, extLength := 8,
                         extImm := x.seq + 2 ^ 63, extKey := x.key, extOffset := x.offset,
                         inline := some (min x.len (dLength z.desc)) }
      let s := (s.bump Reg.CTL_MATCH_PULLS).modConn x.handle (fun k => { k with pulls := k.pulls + 1 })
      let s := s.modEntry e (fun y => { y with pulling := true })
      let s : State := { s with mat := { s.mat with pullWait := s.mat.pullWait.filter (· != e) } }
      (((s.accept m).1).taskEnd (.pull e)).pullTask x.handle
    | _, _ => s

/-- PULL_START (07 R266). -/
def execPullStart (e : Nat) (s : State) : Outcome State Fault Refusal := .next (s.startPull e)

/-- A checked READ_REQ whose one segment is complete and that no response answers yet. -/
def State.toServe (s : State) (h : Nat) (k : Conn) : Option RxMsg :=
  k.inOrder.find? (fun m => m.typ == tyREADREQ && m.status == 0 && !m.served && m.full &&
    !k.recs.any (fun r => r.seq == m.seq) &&
    !(s.msgsOf h).any (fun x => match x.2.origin with | .readResp q _ => q == m.seq | _ => false))

/-- The oldest such READ_REQ is served: its READ_RESP is accepted for sending; a pull whose SEND has completed is
answered with SERVED (07 R268, R271, 08 R289). -/
def State.serveRead (s : State) (h : Nat) : State :=
  match s.conn? h with
  | none => s
  | some k => match s.toServe h k with
    | none => s
    | some m =>
      let c := m.cell0
      let snd := if rqPull c then s.rdvSend h (c.extImm % 65536) else none
      if rqPull c && snd.isNone then
        let r : TxMsg := { handle := h, typ := tyREADRESP, origin := .readResp m.seq none, len := 0,
                           extImm := m.seq + 2 ^ 63, inline := some 0 }
        ((s.accept r).1).modConn h (fun k => k.modRx m.seq (fun m => { m with served := true }))
      else
        let n := rqLen c
        let r : TxMsg := { handle := h, typ := tyREADRESP, origin := .readResp m.seq (snd.map (·.1)), len := n,
                           extImm := m.seq, extLength := n, src := (s.region k.inst c.extKey).vbase + c.extOffset }
        (s.accept r).1

/-- READ_REQ (08 R289, 07 R268, R271). -/
def execReadReq (h : Word) (v : View) (s : State) : Outcome State Fault Refusal :=
  .next ((((s.see v).serveRead h.toNat)).advanceWm h.toNat (fun m => m.typ == tyREADREQ))

end Sys2Proof.Machine
end

