-- ==== Sys2Proof/Machine/Gauges.lean ====
section
/-! DEFINITION. Registers that show what the block holds at the moment of the read: gauges, states of drains, the running
time. They have no storage of their own (03, 04 R148, 05 R152, 07, 09, 10, 15, 17, 20). -/

namespace Sys2Proof.Machine

/-- What the register word at `a` shows, if it is one of these. -/
def State.gauge (s : State) (a : Nat) : Option Nat :=
  if a = Reg.CTL_AQ_ACTIVE then some s.obj.adm.length
  else if a = Reg.CTL_AQ_CTRL then some (setBits (s.rd a) 30 30 (b2n s.obj.adm.isEmpty)).toNat
  else if a = Reg.CTL_ROUTE_INFLIGHT0 then some (s.drainLevel 0 * 2 ^ 24 + (s.heldOf 0).length)
  else if a = Reg.CTL_ROUTE_INFLIGHT1 then some (s.drainLevel 1 * 2 ^ 24 + (s.heldOf 1).length)
  else if a = Reg.CTL_RMA_REGION_MISS then some s.cnt.regionMiss
  else if a = Reg.CTL_MATCH_ONDIE then some (s.mat.posted.filter (fun x => x.2.isSome)).length
  else if a = Reg.CTL_MATCH_OVERFLOW then some (s.mat.posted.filter (fun x => x.2.isNone)).length
  else if a = Reg.CTL_MATCH_UNEXP then some s.mat.store.length
  else if a = Reg.CTL_MATCH_BLOCKS then some ((s.mat.store.map (fun e => e.2.blocks)).sum)
  else if a = Reg.ATU_HELD then some s.atu.held.length
  else if a = Reg.ATU_WAITING then some s.waiterCount
  else if a = Reg.CTL_COLL_GROUPS then some s.col.groups.length
  else if a = Reg.CTL_COLL_STAGING then some ((s.col.groups.map (fun g => (g.2.ops.map (·.need)).sum)).sum)
  else if a = Reg.TIM_NOW_LO then some (s.t % 2 ^ 32)
  else if a = Reg.TIM_NOW_HI then some (s.t / 2 ^ 32)
  else if a = Reg.PWR_STATUS then
    some (setBits (s.rd a) 6 0 ((List.range 64).filter (fun t => s.tileState t == psACTIVE)).length).toNat
  else if a = Reg.MGT_STATUS then
    some (setBits (s.rd a) 26 24 (if s.joined then 0 else s.joinWait)).toNat
  else if a = Reg.MGT_FLT_PIN then
    some (setBits (s.rd a) 30 30 (b2n !(s.flag F.MGT_FLT_PIN_DRIVE || s.flag F.MGT_FLT_PIN_STICKY || s.flt.pulse))).toNat
  else none

/-- The register word at `a` as it stands. -/
def State.look (s : State) (a : Nat) : Word :=
  match s.gauge a with
  | some n => BitVec.ofNat 32 n
  | none => s.rd a

end Sys2Proof.Machine
end

