-- ==== Sys2Proof/Machine/ReqOps.lean ====
section
/-! DEFINITION. The requesters of set-up space: host ports 0-7 and, as 8, the sideband port. Each has latches and held
halves of its own (21 R569). -/

namespace Sys2Proof.Machine

/-- The record of requester `who`. -/
def State.requester (s : State) (who : Nat) : Requester := Map.getD s.req who {}
def State.modRequester (s : State) (who : Nat) (f : Requester → Requester) : State :=
  { s with req := Map.set s.req who (f (s.requester who)) }

/-- A read by `who` answers `n` bytes of value `v`. -/
def State.answer (s : State) (who n v : Nat) : State := { s with lastRead := .data who (BitVec.ofNat 64 v) n }

/-- The word at `a` is latched for `who`. -/
def State.latchFor (s : State) (who a : Nat) (w : Word) : State :=
  s.modRequester who (fun r => { r with latch := Map.set r.latch a w })

/-- What `who` reads at `a`: the latched word, which the read uses up, else the word `w` as it stands. -/
def State.latched (s : State) (who a : Nat) (w : Word) : State × Word :=
  match Map.get? (s.requester who).latch a with
  | some x => (s.modRequester who (fun r => { r with latch := Map.erase r.latch a }), x)
  | none => (s, w)

/-- A read of the low half at `a` of a 64-bit register answers it and latches the high half (21 R569). -/
def State.readLow (s : State) (who a : Nat) (lo hi : Word) : State := (s.latchFor who (a + 4) hi).answer who 4 lo.toNat

end Sys2Proof.Machine
end

