-- ==== Sys2Proof/Machine/Counters.lean ====
section
/-! DEFINITION. The counters' own commands and the reader of dumps: the counting clock, the registers of the programmable
counters, the snapshot at a tide and the ring (19). -/

namespace Sys2Proof.Machine

open Host (Outcome)

/-- A cell waits for a credit on lane `l`'s link: it is queued, its class may go, and its pool has none (19 R534). -/
def State.creditWait (s : State) (l : Nat) : Bool :=
  let p := s.linkOf l
  l == p && (s.queueOf p).any (fun h =>
    let k := s.link p
    let pool := if h.cell.cls = 6 then 7 else if h.inp.isSome && !h.cell.linkLocal then h.cell.hop + 1 else h.cell.hop
    (s.linkState p == lkUP || h.cell.cls == 6) &&
      (Map.getD k.total pool 0 + 8192 - Map.getD k.spent pool 0 % 8192) % 8192 == 0)

/-- The conditions of bank `b` that hold now, with those told from outside (19 R531, R534). -/
def State.conditions (s : State) (b : Nat) (outside : List (Nat × Nat)) : List (Nat × Nat) :=
  let own : List (Nat × Nat) :=
    if b = bkTIM then (if s.timeState = tsLOCKED then [] else [(0x15, 0)])
    else if b = bkPWR then (if s.flag F.PWR_STATUS_PLL_RUN then [] else [(0x13, 0)])
    else if 69 ≤ b ∧ b < 133 then
      let l := fun (i : Nat) => 16 * (b - 69) + i
      ((List.range 16).filter (fun i => s.creditWait (l i))).map (fun i => (0x15, i)) ++
        ((List.range 16).filter (fun i => s.laneExists (l i) &&
          s.fld (F.LNG_LANE_STATUS_PHASE (l i)) == phFULL)).map (fun i => (0x16, i))
    else if 5 ≤ b ∧ b < 69 then
      (if s.pwr.tasks.any (fun x => bkTIL x.tile == b && !x.slot) then [(0x13, 0)] else []) ++
        outside.filter (fun x => x.1 == 0x16 || x.1 == 0x17)
    else outside.filter (fun x => eventIsCondition b x.1)
  (1, 0) :: own

/-- A counter of a condition advances in one cycle: LEVEL while it holds, EDGE when it becomes true (19 R531). -/
def clockOne (m : List (Nat × ProgCtr)) (k b : Nat) (now last : List (Nat × Nat)) : List (Nat × ProgCtr) :=
  match Map.get? m k with
  | none => m
  | some x =>
    let m := Map.set m k { x with seen := false }
    let e := (x.event, x.sub)
    if !x.counts || !eventIsCondition b x.event || !now.contains e then m
    else if x.level || (x.event != 1 && !last.contains e) then advance 8 m k 1
    else m

/-- The events that no other command of the model reports (19 R534): TLB hits, host reads, GDDR7 accesses and flash
bytes. -/
def outsideEvent (b ev : Nat) : Bool :=
  (decide (5 ≤ b ∧ b < 69) && ev == 0x14) || (decide (133 ≤ b ∧ b < 141) && (ev == 0x10 || ev == 0x12)) ||
  (b == bkMEM && (ev == 0x10 || ev == 0x11 || ev == 0x12)) || (b == bkMGT && ev == 0x11)

/-- The SUB values that name an occurrence with SUB value `x` of bank `b`: those of one unit, and the one for all. -/
def subsOf (b x : Nat) : List Nat := if b = bkMEM then [x, 12] else [x]

/-- One cycle of the counting clock of bank `b` (19 R531, R532). -/
def State.countingClock (s : State) (b : Nat) (outside : List (Nat × Nat)) (occs : List (Nat × Nat × Nat)) : State :=
  if !s.counting b then s else
  let now := s.conditions b outside
  let last := Map.getD s.cnt.last b []
  let prog := (List.range 8).foldl (fun m c => clockOne m (8 * b + c) b now last) s.cnt.prog
  let s : State := { s with cnt := { s.cnt with prog := prog, last := Map.set s.cnt.last b now } }
  (occs.filter (fun o => outsideEvent b o.1)).foldl (fun s o => s.occur b o.1 (subsOf b o.2.1) o.2.2) s

/-- COUNTING_CLOCK (19 R531). -/
def execCountingClock (b : Fin 146) (conds : List (Nat × Nat)) (occs : List (Nat × Nat × Nat)) (s : State) :
    Outcome State Fault Refusal :=
  .next (s.countingClock b.val conds occs)

/-- The part has bank `b` (19 R529, 21 R567). -/
def State.bankExists (s : State) (b : Nat) : Bool := s.part.lanesHi || b < 101 || 133 ≤ b

/-- Counter `c` of bank `b`. -/
def State.ctr (s : State) (b c : Nat) : ProgCtr := if s.bankExists b then Map.getD s.cnt.prog (8 * b + c) {} else {}
def State.setCtr (s : State) (b c : Nat) (x : ProgCtr) : State :=
  { s with cnt := { s.cnt with prog := Map.put s.cnt.prog (8 * b + c) {} x } }

/-- A read of `CNT_VAL` of counter `c` of bank `b`: a latched value comes first, and the counter above is latched if it is
chained (19 R532). -/
def State.cntValRead (s : State) (who b c : Nat) : State :=
  let r := s.latched who (Reg.CNT_VAL b c) (s.ctr b c).val
  let s := if c < 7 && bit (s.ctr b (c + 1)).sel 29 then r.1.latchFor who (Reg.CNT_VAL b (c + 1)) (s.ctr b (c + 1)).val
    else r.1
  s.answer who 4 r.2.toNat

/-- CNT_VAL_READ (19 R532). -/
def execCntValRead (who : Fin 9) (b : Fin 146) (c : Fin 8) (s : State) : Outcome State Fault Refusal :=
  .next (s.cntValRead who.val b.val c.val)

/-- A write of `w` to `CNT_SEL` (19 R530). -/
def State.cntSelWrite (s : State) (b c : Nat) (w : Word) : State :=
  if !s.bankExists b then s else
  let x := s.ctr b c
  let ok := eventAssigned b (bits w 7 0) (bits w 23 16)
  let keep : Word := if ok then 0#32 else x.sel &&& 0x00FF00FF#32
  let new : Word := if ok then w &&& 0x00FF00FF#32 else 0#32
  let chain : Word := if c = 0 then 0#32 else w &&& 0x20000000#32
  let ovf : Word := x.sel &&& ~~~ w &&& 0x10000000#32
  s.setCtr b c { x with sel := (w &&& 0xC0000000#32) ||| chain ||| ovf ||| new ||| keep, seen := false }

/-- CNT_SEL_WRITE (19 R530). -/
def execCntSelWrite (b : Fin 146) (c : Fin 8) (w : Word) (s : State) : Outcome State Fault Refusal :=
  .next (s.setup (s.cntSelWrite b.val c.val w))

/-- A write of `w` to `CNT_VAL`: it preloads the count (19 R530). -/
def State.cntValWrite (s : State) (b c : Nat) (w : Word) : State :=
  if s.bankExists b then s.setCtr b c { s.ctr b c with val := w } else s

/-- `CNT_RING_CFG` is valid: slots of 2^16 to 2^22 bytes, 2 to 2^10 of them (19, CNT_RING_CFG). -/
def State.ringCfgOk (s : State) : Bool :=
  let l := s.fld F.CNT_RING_CFG_SLOT_LOG2
  let n := s.fld F.CNT_RING_CFG_NSLOTS_LOG2
  decide (16 ≤ l ∧ l ≤ 22 ∧ 1 ≤ n ∧ n ≤ 10)

/-- A write of `w` to `CNT_CTRL` (19, CNT_CTRL): ENABLE needs a valid ring, and starts it at position 0 and SEQ 0. -/
def State.cntCtrlWrite (s : State) (w : Word) : State :=
  let was := s.flag F.CNT_CTRL_ENABLE
  let s := s.setFlag F.CNT_CTRL_FREEZE (bit w 30)
  let s := if bits w 15 0 = 0 then s else s.setFld F.CNT_CTRL_K (bits w 15 0)
  let on := bit w 31 && (was || s.ringCfgOk)
  let s := s.setFlag F.CNT_CTRL_ENABLE on
  if on && !was then
    { s.setFld F.CNT_RING_POS_POSITION 0 with cnt := { s.cnt with seq := 0, skipped := 0, prevTide := 0 } }
  else s

/-- CNT_CTRL_ENABLE (19 R538): the word written to `CNT_CTRL`. -/
def execCntCtrlEnable (w : Word) (s : State) : Outcome State Fault Refusal := .next (s.setup (s.cntCtrlWrite w))

/-- The five fault counters of a block. -/
def fltCounts (blk : Nat) : List Nat := (List.range 5).map (fun i => blk + 0xF024 + 4 * i)

/-- Every fixed counter of set-up space, in ascending address order (19 R541, 21 R576). -/
def fixedAddrs : List Nat :=
  fltCounts blkID ++
  ([Reg.CTL_POLL_STRETCH, Reg.CTL_CQ_WAIT] ++ (List.range 8).map (fun i => Reg.CTL_DROP_EPOCH + 4 * i) ++
    (List.range 10).map (fun i => Reg.CTL_XPT_DUP + 4 * i) ++ (List.range 14).map (fun i => Reg.CTL_MATCH_ONDIE + 4 * i) ++
    (List.range 9).map (fun i => Reg.CTL_RMA_KEY_FAULT + 4 * i) ++ [Reg.CTL_COLL_GROUPS] ++
    (List.range 6).map (fun i => Reg.CTL_COLL_OPS + 4 * i) ++ [Reg.CTL_INST_LATE_DROP]) ++ fltCounts blkCTL ++
  Reg.PWR_PLL_STOPS :: ((List.range 64).map (fun t => (List.range 7).map (fun i => Reg.PWR_TILE_ENTRIES t + 4 * i) ++
    (List.range 8).map (fun i => Reg.PWR_TILE_REFUSED t (i + 1)))).flatten ++ fltCounts blkPWR ++
  (List.range 8).map (fun i => Reg.TIM_OUTLIER_COUNT + 4 * i) ++ fltCounts blkTIM ++
  ((List.range 64).map (fun t => fltCounts (blkTIL t))).flatten ++
  ((List.range 64).map (fun g => ((List.range 16).map (fun i =>
    (List.range 11).map (fun j => Reg.LNG_FEC_CORR (16 * g + i) + 4 * j))).flatten ++ fltCounts (blkLNG g))).flatten ++
  ((List.range 8).map (fun p => (List.range 4).map (fun j => Reg.HPT_PORT_RESET p + 4 * j) ++ fltCounts (blkHPT p))).flatten ++
  (List.range 4).map (fun j => Reg.MEM_CORRECTED + 4 * j) ++ fltCounts blkMEM ++
  [Reg.ATU_HELD, Reg.ATU_WAITING] ++ (List.range 10).map (fun j => Reg.ATU_OPS + 4 * j) ++ fltCounts blkATU ++
  (List.range 7).map (fun j => Reg.XLT_MISS + 4 * j) ++ fltCounts blkXLT ++
  (List.range 4).map (fun j => Reg.INJ_FORFEIT + 4 * j) ++ ((List.range 1024).map (fun n =>
    [Reg.INJ_POL_GREEN (n / 8) (n % 8), Reg.INJ_POL_YELLOW (n / 8) (n % 8), Reg.INJ_POL_RED (n / 8) (n % 8)])).flatten ++
    fltCounts blkINJ ++
  Reg.MGT_DIGEST_DISAGREE :: fltCounts blkMGT ++ [Reg.MGT_FLT_PULSES]

/-- The gauges among the fixed counters. -/
def gaugeCounts : List Nat :=
  [Reg.CTL_RMA_REGION_MISS, Reg.CTL_MATCH_ONDIE, Reg.CTL_MATCH_OVERFLOW, Reg.CTL_MATCH_UNEXP, Reg.CTL_MATCH_BLOCKS,
    Reg.CTL_COLL_GROUPS, Reg.ATU_HELD, Reg.ATU_WAITING]

/-- The record of a queue in a dump (13 R417). -/
def Queue.sampleRecord (x : Queue) (q : Nat) : Nat :=
  payOf ([(0, 2, q), (2, 1, b2n (!x.work) * 0x80 + b2n x.sampled * 0x40)] ++
    (if x.sampled then [(4, 3, x.depthLast), (8, 3, x.depthMax), (12, 4, x.delayMax)] else []))

/-- The queue's samples begin again (13 R417). -/
def Queue.clearSamples (x : Queue) : Queue := { x with sampled := false, depthLast := 0, depthMax := 0, delayMax := 0 }

/-- The samples of a dump that is skipped carry over (19 R542). -/
def Queue.restoreSamples (x : Queue) (r : Nat) : Queue :=
  if !(r / 2 ^ 16 % 2 ^ 8).testBit 6 then x else
  { x with sampled := true,
           depthLast := if x.sampled then x.depthLast else r / 256 ^ 4 % 256 ^ 3,
           depthMax := max x.depthMax (r / 256 ^ 8 % 256 ^ 3),
           delayMax := max x.delayMax (r / 256 ^ 12 % 256 ^ 4) }

/-- The reader latches everything at the tide at time `T` (19 R538). -/
def State.snapshot (s : State) (T : Nat) : State :=
  let qs := s.obj.queues.filter (fun q => q.1 != acqKey)
  let d : Dump := {
    tide := T, tstate := s.timeState,
    regs := gaugeCounts.foldl (fun m a => Map.set m a (s.look a)) s.regs,
    prog := s.cnt.prog, hist := s.cnt.hist, queues := qs.map (fun q => (q.1, q.2.sampleRecord q.1)) }
  let s := qs.foldl (fun s q => s.modQueue q.1 Queue.clearSamples) s
  { s with cnt := { s.cnt with dump := some d } }

/-- A dump that fell due is skipped (19 R542): counted, and in the header of the next one. -/
def State.skipDump (s : State) (a : Nat) : State :=
  let s := (s.bump a).occur bkCNT 0x11 [0] 1
  { s with cnt := { s.cnt with skipped := min 0xFFFFFFFF (s.cnt.skipped + 1) } }

/-- A dump is lost for want of room or of a link (19 R542, 18 R525). -/
def State.loseDump (s : State) : State := (s.skipDump Reg.CNT_SKIP_FULL).raise blkCNT 0 0

/-- A dump falls due at the tide at time `T` of frame `f`, or not (19 R538, R542). -/
def State.dumpDue (s : State) (T f : Nat) : State :=
  if !s.flag F.CNT_CTRL_ENABLE || !s.hasTime || f % max 1 (s.fld F.CNT_CTRL_K) != 0 then s
  else if s.flag F.PWR_STATUS_CHIP_ECLIPSE then s.skipDump Reg.CNT_SKIP_ECLIPSE
  else if s.cnt.dump.isSome || !s.portUp s.owner then s.loseDump
  else s.snapshot T

/-- N_FIXED, and the length of a dump (19 R540). -/
def nFixed : Nat := 16142
def Dump.length (d : Dump) : Nat := 5760 + 4 * nFixed + 16 * d.queues.length

/-- The sections of a dump, as (byte in the slot, length, contents) (19 R541). -/
def State.dumpSections (s : State) (d : Dump) : List (Nat × Nat × Nat) :=
  [(64, 4672, packLE 4 ((List.range 1168).map (fun k =>
      if s.bankExists (k / 8) then (Map.getD d.prog k {}).val.toNat else 0))),
   (4736, 1024, packLE 4 ((List.range 256).map (fun k => Map.getD d.hist k 0))),
   (5760, 4 * nFixed, packLE 4 (fixedAddrs.map (fun a => (Map.getD d.regs a (regDefault s.part a)).toNat))),
   (5760 + 4 * nFixed, 16 * d.queues.length, packLE 16 ((sortBy (·.1) d.queues).map (·.2)))]

/-- The header of a dump; its OWN is 0 (19 R540). -/
def State.dumpHeader (s : State) (d : Dump) : Nat :=
  payOf [(0, 4, 0x444D5043), (4, 2, 1), (6, 1, d.tstate), (8, 8, s.part.chipId.toNat), (16, 8, d.tide), (24, 4, s.cnt.seq),
    (28, 4, s.cnt.skipped), (32, 8, s.cnt.prevTide), (40, 4, nFixed), (44, 4, d.queues.length), (48, 4, d.length),
    (52, 3, s.addr)]

/-- The latched dump is written: sections first, the header last; the histograms give up what it reported (19 R536,
R539). -/
def State.writeDump (s : State) (d : Dump) : State :=
  let pos := s.fld F.CNT_RING_POS_POSITION
  let a := s.fld F.CNT_RING_BASE_BASE * 4096 + pos * 2 ^ s.fld F.CNT_RING_CFG_SLOT_LOG2
  let s' := (s.dumpSections d).foldl (fun s x => if x.2.1 = 0 then s else s.chipWrite (a + x.1) x.2.1 x.2.2) s
  let s' := s'.chipWrite a 64 (s.dumpHeader d)
  let s' := s'.setFld F.CNT_RING_POS_POSITION ((pos + 1) % 2 ^ s.fld F.CNT_RING_CFG_NSLOTS_LOG2)
  let s' := (s'.bump Reg.CNT_DUMPS).occur bkCNT 0x10 [0] 1
  let hist := d.hist.foldl (fun m x => Map.put m x.1 0 (Map.getD m x.1 0 - x.2)) s'.cnt.hist
  { s' with cnt := { s'.cnt with dump := none, hist := hist, seq := (s'.cnt.seq + 1) % 2 ^ 32, skipped := 0,
                                 prevTide := d.tide } }

/-- The reader comes to write the latched dump, into a slot whose header has OWN as told (19 R539, R542). -/
def State.dumpWrite (s : State) (own : Bool) : State :=
  match s.cnt.dump with
  | none => s
  | some d =>
    if own && d.length ≤ 2 ^ s.fld F.CNT_RING_CFG_SLOT_LOG2 && s.portUp s.owner then s.writeDump d
    else
      let s := d.queues.foldl (fun s q => s.modQueue q.1 (fun x => x.restoreSamples q.2)) s
      ({ s with cnt := { s.cnt with dump := none } } : State).loseDump

/-- DUMP_WRITE (19 R539, R542). -/
def execDumpWrite (own : Bool) (s : State) : Outcome State Fault Refusal := .next (s.dumpWrite own)

end Sys2Proof.Machine
end

