-- ==== Sys2Proof/Machine/FaultCmds.lean ====
section
/-! DEFINITION. The meanings of the commands of the fault registers, of the interrupt and of ERR_N (18). A halted chip still
takes writes to fault registers, and sends the message of its fault (R523). -/

namespace Sys2Proof.Machine

open Host (Outcome)

/-- `blk` is the base of a block that the part has, so its fault registers exist (18 R511). -/
def State.hasFaults (s : State) (blk : Nat) : Bool :=
  fltBlock (blk + 0xF008) == some blk && !absent s.part (blk + 0xF008)

/-- The bits that `_FLT_INFO` can hold for source `i` of a block (18 R527). -/
def infoMask (blk i : Nat) : Nat :=
  if 29 ≤ i then 0xFFFF
  else if blk = blkCTL then 0xFFFF
  else if blk = blkPWR then 0xFF3F
  else if blk = blkTIM then 0xFFFF
  else if 0x100000 ≤ blk ∧ blk < 0x500000 then 0x1FFFFFF
  else if 0x600000 ≤ blk ∧ blk < 0xA00000 then 0x3FF
  else if 0xA00000 ≤ blk ∧ blk < 0xA80000 then 0x1F
  else if blk = blkMEM then 0x3F
  else if blk = blkATU then 0xFFFFFFFF
  else if blk = blkMGT then 0xFFFFFF
  else 0

/-- The forced raise of sources `is`, of one write, as one raise at the highest of their classes (18 R513, R514, R516). A
masked source only sets its STATUS bit; one raised less than 1 us ago is merged. What INFO holds is free. -/
def State.forceSources (s : State) (blk : Nat) (is : List Nat) : State :=
  match is with
  | [] => s
  | i :: _ => s.drawn.raiseTogether blk is ((Config.freeWord s.draws).toNat &&& infoMask blk i) true

/-- FLT_FORCE (18 R516): a write to `_FLT_FORCE` of block `blk`. -/
def execFltForce (blk : Nat) (w : Word) (s : State) : Outcome State Fault Refusal :=
  .next (if s.hasFaults blk then
    s.forceSources blk ((List.range 32).filter (fun i => bit w i && srcClass blk i != 0)) else s)

/-- FLT_STATUS_CLEAR (18 R520). -/
def execFltStatusClear (blk : Nat) (w : Word) (s : State) : Outcome State Fault Refusal :=
  .next (if s.hasFaults blk then s.clearStatus blk w else s)

/-- FLT_UNACK_CLEAR (18 R512, R520). -/
def execFltUnackClear (blk : Nat) (w : Word) (s : State) : Outcome State Fault Refusal :=
  .next (if s.hasFaults blk then s.clearUnack blk w else s)

/-- FLT_FIRST_CLEAR (18 R512). -/
def execFltFirstClear (blk : Nat) (w : Word) (s : State) : Outcome State Fault Refusal :=
  .next (if s.hasFaults blk then s.clearFirst blk w else s)

/-- MSI_X_MESSAGE (18 R517): a message that waits is sent, at least 1 us after the last and while the control owner's link is
up. -/
def execMsiXMessage (s : State) : Outcome State Fault Refusal := .next s.sendMsi

/-- ERR_N_PULSE_END (18 R518): the running pulse ends; where none runs, 2 us have passed since the end of the last, and the
pulse that waits starts. -/
def execErrNPulseEnd (s : State) : Outcome State Fault Refusal :=
  .next (
    if s.flt.pulse then { s with flt := { s.flt with pulse := false, pulseEnd := some s.t } }
    else if s.flt.pulseNext then s.startPulse else s)

/-- A running engine task of tile `t` has been in progress for more than 10 ms (18 R525). -/
def State.watchdog (s : State) (t eng : Nat) : State :=
  if s.tileState t = psACTIVE ∨ s.tileState t = psDOZE then s.raise (blkTIL t) 5 eng else s

/-- ENGINE_WATCHDOG (18 R525): engine `eng` of tile `t`. -/
def execEngineWatchdog (t : TileId) (eng : Fin 4) (s : State) : Outcome State Fault Refusal :=
  .next (s.watchdog t.val eng.val)

end Sys2Proof.Machine
end

