-- ==== Sys2Proof/Machine/Inject.lean ====
section
/-! DEFINITION. The injection scheduler: the policers, the grant of chunks, the samples of the queues (13 R403-R417). -/

namespace Sys2Proof.Machine

open Host (Outcome)

/-- A write to a policer would leave it enabled with settings that R407 forbids. -/
def polBad (on : Bool) (cir pir cbs pbs : Nat) : Bool := on && (decide (pir < cir) || cbs == 0 || pbs == 0)

/-- The settings of the policer of instance `i` and class `c`: ENABLE, CIR, PIR, CBS, PBS. -/
def State.polNow (s : State) (i c : Nat) : Bool × Nat × Nat × Nat × Nat :=
  (s.flag (F.INJ_POL_CTRL_ENABLE i c), s.fld (F.INJ_POL_CTRL_CIR i c), s.fld (F.INJ_POL_PIR_PIR i c),
    (s.rd (Reg.INJ_POL_CBS i c)).toNat, (s.rd (Reg.INJ_POL_PBS i c)).toNat)

/-- Tokens above the bucket sizes in force are cut (13 R407). -/
def State.cutTokens (s : State) (i c : Nat) : State :=
  { s with inj := { s.inj with buckets := Map.mod s.inj.buckets (8 * i + c) (fun b =>
      { b with tc := min b.tc (s.polCbs i c), tp := min b.tp (s.polPbs i c) }) } }

/-- A write of `w` to INJ_POL_CTRL (13 R403, R407): it fills the buckets when ENABLE sets, and discards them when it
clears. -/
def State.polCtrlWrite (s : State) (i c : Nat) (w : Word) : State :=
  let (was, _, pir, cbs, pbs) := s.polNow i c
  let on := bit w 31
  if polBad on (bits w 19 0) pir cbs pbs then s.setFlag (F.INJ_POL_CTRL_ERR i c) true
  else
    let s := s.wr (Reg.INJ_POL_CTRL i c) (BitVec.ofNat 32 (b2n on * 2 ^ 31 + b2n (bit w 30) * 2 ^ 30 + bits w 19 0))
    let b := if on then (if was then s.inj.buckets else
        Map.set s.inj.buckets (8 * i + c) { tc := s.polCbs i c, tp := s.polPbs i c, last := s.t })
      else Map.erase s.inj.buckets (8 * i + c)
    { s with inj := { s.inj with buckets := b } }

/-- A write of `w` to INJ_POL_PIR (`n` = 1), INJ_POL_CBS (2) or INJ_POL_PBS (3) (13 R407). -/
def State.polWrite (s : State) (i c n : Nat) (w : Word) : State :=
  let (on, cir, pir, cbs, pbs) := s.polNow i c
  let bad := polBad on cir (if n = 1 then bits w 19 0 else pir) (if n = 2 then w.toNat else cbs)
    (if n = 3 then w.toNat else pbs)
  if bad then s.setFlag (F.INJ_POL_CTRL_ERR i c) true
  else
    let s := s.setFlag (F.INJ_POL_CTRL_ERR i c) false
    let s := if n = 1 then s.setFld (F.INJ_POL_PIR_PIR i c) (bits w 19 0)
      else if n = 2 then s.wr (Reg.INJ_POL_CBS i c) w else s.wr (Reg.INJ_POL_PBS i c) w
    s.cutTokens i c

/-- POL_ENABLE: a write of `w` to INJ_POL_CTRL (13 R403). -/
def execPolEnable (i : InstId) (c : ClassId) (w : Word) (s : State) : Outcome State Fault Refusal :=
  .next (s.setup (s.polCtrlWrite i.val c.val w))

/-- POL_WRITE: a write of `w` to INJ_POL_CTRL, PIR, CBS or PBS, `n` = 0-3 (13 R407). -/
def execPolWrite (i : InstId) (c : ClassId) (n : Fin 4) (w : Word) (s : State) : Outcome State Fault Refusal :=
  .next (s.setup (if n.val = 0 then s.polCtrlWrite i.val c.val w else s.polWrite i.val c.val n.val w))

/-- A chunk that could be granted (13 R408). -/
structure Chunk where
  inst : Nat
  cls : Nat
  handle : Nat
  id : Nat
  /-- Its segment's number in the message, its first cell and how many. -/
  seg : Nat
  first : Nat
  count : Nat
  /-- Cells sent before are sent again (06 R217). -/
  again : Bool
  yel : Bool
  launch : Bool
  deriving DecidableEq, Repr

/-- Cells of segment `seg` from `first` on whose bytes are here to send, at most `n` (10 R345). -/
def TxMsg.cellsHere (m : TxMsg) (seg first n : Nat) : Nat :=
  match m.avail with
  | none => n
  | some a => ((List.range n).filter (fun i => cellOffset seg (first + i) + cellBytes m.len seg (first + i) ≤ a)).length

/-- The message is a launch whose first chunk is still to be granted (13 R413): a descriptor's, or the up message of a launched
COLLECTIVE at a member without children (10 R347). -/
def State.dueLaunch (s : State) (m : TxMsg) : Bool :=
  let launched := fun (z : Nat) => (s.slot? z).any (fun x => dTkind x.desc == 1)
  m.seq.isNone && match m.origin with
    | .desc z => launched z
    | .collective g n false => (s.group? g).any (fun x => x.children.isEmpty && (x.op? n).any (fun o => o.slot.any launched))
    | _ => false

/-- A segment of message `id` still has cells to send. -/
def Conn.unsentSeg (k : Conn) (id : Nat) : Option SendSeg :=
  k.segs.find? (fun g => g.msg == id && !g.done && decide (g.next < g.cells))

/-- The first message of connection `h` with cells not sent yet. -/
def State.unsent (s : State) (h : Nat) (k : Conn) : Option (Nat × TxMsg) :=
  (s.msgsOf h).find? (fun x => !x.2.stopped && (x.2.seq.isNone || (k.unsentSeg x.1).isSome))

/-- Room under W for cells sent for the first time; class 7 has no window limit (06 R219, 05 R182). -/
def Conn.windowRoom (k : Conn) : Nat := if k.cls = 7 then 16384 else k.w / 256 - k.inFlight

/-- The chunk that connection `h` asks to send again, if any: no cell goes beyond F + 4,096 (06 R205, R217, 08 R301). -/
def State.againChunk (s : State) (h : Nat) (k : Conn) : Option Chunk :=
  match k.segs.find? (fun g => !g.done && !g.again.isEmpty && k.mayEncrypt g.seq && decide (dist g.seq k.peerFront ≤ 4096) &&
      (s.msg? g.msg).any (fun m => !m.stopped)) with
  | none => none
  | some g =>
    match g.again, s.msg? g.msg with
    | (f, n) :: _, some m =>
      some { inst := k.inst, cls := k.cls, handle := h, id := g.msg, seg := g.seg, first := f,
             count := min n (64 - f % 64), again := true, yel := m.yel, launch := false }
    | _, _ => none

/-- The chunk of connection `h` that is ready to be sent for the first time (13 R409, 06 R205, R219, 08 R301). -/
def State.newChunk (s : State) (h : Nat) (k : Conn) : Option Chunk :=
  match s.unsent h k with
  | none => none
  | some (id, m) =>
    let g : SendSeg := match k.unsentSeg id with
      | some g => g
      | none => { seq := k.nextSeq, msg := id, seg := 0, cells := segCells m.len 0 }
    let ok := (m.seq.isSome || s.canAssign k m.len) && decide (dist g.seq k.peerFront ≤ 4096) && k.mayEncrypt g.seq
    let n := m.cellsHere g.seg g.next (min (min (64 - g.next % 64) (g.cells - g.next)) k.windowRoom)
    if ok && n != 0 then
      some { inst := k.inst, cls := k.cls, handle := h, id := id, seg := g.seg, first := g.next, count := n,
             again := false, yel := m.yel, launch := s.dueLaunch m }
    else none

/-- The message bytes that a chunk carries, from where (04 R116, 13 R408). -/
def Chunk.start (c : Chunk) : Nat := cellOffset c.seg c.first
def Chunk.bytes (c : Chunk) (m : TxMsg) : Nat := ((List.range c.count).map (fun i => cellBytes m.len c.seg (c.first + i))).sum

/-- The tile that reads a message's source data (11 R604). -/
def State.sourceTile (s : State) (m : TxMsg) : Nat :=
  match m.origin with
  | .desc z => match s.slot? z with
    | some x => s.servingTile (x.queue % 64)
    | none => 0
  | _ => s.connTile m.handle

/-- The source of message `id` cannot be translated (11 R368): a descriptor completes with the status, a READ_REQ that it
answers fails; what has a SEQ already is reported to the other end as 08 R602 reports a failed read (log entry 54). -/
def State.sourceXltFail (s : State) (id st : Nat) (m : TxMsg) : State :=
  match m.seq with
  | some q => (((s.modMsg id (fun m => { m with stopped := true })).failServed m.handle st m).recordFault m.handle id st m).sayRma
      m.handle rcSOURCEFAULT q stINTEGRITY 0 0
  | none =>
    let s := s.dropMsg id
    match m.origin with
    | .desc z => s.finishSlot z st (bytesBody 0)
    | _ => s.failServed m.handle st m

/-- A chunk's source range is translated: the chunk is ready, waits for a translation or for its host port, or its message fails
(11 R366, 15 R461). -/
def State.chunkSource (s : State) (c : Chunk) : State × Bool :=
  match s.msg? c.id with
  | none => (s, false)
  | some m =>
    if m.inline.isSome || c.bytes m == 0 then (s, true) else
    match s.access (.source c.id) (s.sourceTile m) c.inst (m.src + c.start) (c.bytes m) false with
    | (s, .ready l) => (s, s.readable c.inst l)
    | (s, .wait) => (s, false)
    | (s, .fail st) => (s.sourceXltFail c.id st m, false)

/-- The chunk that connection `h` has ready; a context that is not on die is asked for (13 R409, 06 R199). Classes 0-5 wait
for JOINED (20 R558, log entry 55). On a stale connection nothing is left to send but the ABORTs of the instance's groups (12
R392). -/
def State.connChunk (s : State) (h : Nat) : State × Option Chunk :=
  match s.conn? h with
  | none => (s, none)
  | some k =>
    if k.st = .closed then (s.openIfWork h, none)
    else if k.st ≠ .opened ∨ k.cls = 7 ∨ (k.cls < 6 ∧ s.flag F.MGT_STATUS_JOINED = false) then (s, none)
    else
      let c := match s.againChunk h k with
        | some c => some c
        | none => s.newChunk h k
      match c with
      | none => (s, none)
      | some c =>
        if !s.onDie h then ((if s.xpt.swaps.contains h then s else s.needContext h), none) else
        match s.chunkSource c with
        | (s, true) => (s, some c)
        | (s, false) => (s, none)

/-- The ready chunks of all connections (13 R409). -/
def State.readyChunks (s : State) : State × List Chunk :=
  s.xpt.conns.foldl (fun a x => match a.1.connChunk x.1 with
    | (s, some c) => (s, a.2 ++ [c])
    | (s, none) => (s, a.2)) (s, [])

/-- The backlog of class `c` of instance `i` in cells (13 R412). -/
def State.backlog (s : State) (i c : Nat) : Nat :=
  (s.xpt.msgs.map (fun x => match s.conn? x.2.handle with
    | some k => if k.inst = i ∧ k.cls = c then
        (if x.2.seq.isNone then cellsOf x.2.len
         else ((k.segs.filter (fun g => g.msg == x.1 && !g.done)).map (fun g => g.cells - g.next)).sum) else 0
    | none => 0)).sum

/-- The chunk of class `c` of instance `i` that is next among `l`, and how many yellow ones it passes (13 R412). -/
def State.classNext (s : State) (l : List Chunk) (i c : Nat) : Option (Chunk × Nat) :=
  let r := sortBy (fun (x : Chunk) => x.id) (l.filter (fun x => x.inst == i && x.cls == c))
  let d := s.fld F.INJ_CTRL_YEL_DEPTH
  match r with
  | [] => none
  | x :: _ =>
    if d = 0 ∨ s.backlog i c < d then some (x, 0) else
    match r.find? (fun y => !y.yel) with
    | some y => some (y, (r.takeWhile (fun z => z.yel)).length)
    | none => some (x, 0)

/-- The charge of a chunk (13 R408). -/
def State.charge (s : State) (c : Chunk) : Nat :=
  let b := ((s.msg? c.id).map (fun m => c.bytes m)).getD 0
  b + c.count * s.fld F.INJ_CTRL_OVH_CELL +
    (if c.seg = 0 ∧ c.first = 0 ∧ c.again = false then s.fld F.INJ_CTRL_OVH_MSG else 0)

/-- The quantum of class `c` (13 R411). -/
def State.classQuantum (s : State) (c : Nat) : Nat :=
  let w := if c = 0 then s.fld F.INJ_WEIGHT0_W0 else if c = 1 then s.fld F.INJ_WEIGHT0_W1
    else if c = 2 then s.fld F.INJ_WEIGHT0_W2 else if c = 3 then s.fld F.INJ_WEIGHT0_W3 else s.fld F.INJ_WEIGHT1_W4
  max 1 w * 1024

/-- A class's deficit goes to 0 (13 R411): whether that forfeits one. -/
def Inject.clearClass (j : Inject) (k : Nat) : Inject × Nat :=
  ({ j with classDef := Map.put j.classDef k 0 0 }, b2n (Map.getD j.classDef k 0 != 0))

/-- The round over classes 0-4 of instance `i`: the class granted, the deficits after it, deficits forfeited (13 R411). -/
def State.classRound (s : State) (l : List Chunk) (i : Nat) : Nat → Inject → Nat → Option (Nat × Inject × Nat)
  | 0, _, _ => none
  | fuel + 1, j, lost =>
    let c := Map.getD j.classCur i 0 % 5
    let k := 8 * i + c
    let onward := fun (j : Inject) =>
      ({ j with classCur := Map.set j.classCur i ((c + 1) % 5), classFresh := Map.set j.classFresh i true } : Inject)
    match s.classNext l i c with
    | none =>
      let r := j.clearClass k
      s.classRound l i fuel (onward r.1) (lost + r.2)
    | some (x, _) =>
      let d := Map.getD j.classDef k 0 + (if Map.getD j.classFresh i true then s.classQuantum c else 0)
      let j := { j with classDef := Map.put j.classDef k 0 d, classFresh := Map.set j.classFresh i false }
      if s.charge x ≤ d then
        some (c, { j with classDef := Map.put j.classDef k 0 (d - s.charge x) }, lost)
      else s.classRound l i fuel (onward j) lost

/-- The class that instance `i` is served in, with the class deficits after it and those forfeited (13 R410). -/
def State.pickClass (s : State) (l : List Chunk) (i : Nat) (j : Inject) : Option (Nat × Inject × Nat) :=
  if (s.classNext l i 6).isSome then some (6, j, 0)
  else if (s.classNext l i 5).isSome then some (5, j, 0)
  else if l.any (fun x => x.inst == i) then s.classRound l i 150 j 0 else none

/-- The round over instances: the instance and class granted, the deficits after it, deficits forfeited (13 R410). -/
def State.instRound (s : State) (l : List Chunk) : Nat → Inject → Nat → Option (Chunk × Nat × Inject × Nat)
  | 0, _, _ => none
  | fuel + 1, j, lost =>
    let i := j.cur
    let next := if i + 1 < s.nInst then i + 1 else 0
    let d := Map.getD j.instDef i 0
    match s.pickClass l i j with
    | none =>
      s.instRound l fuel { j with cur := next, fresh := true, instDef := Map.put j.instDef i 0 0 } (lost + b2n (d != 0))
    | some (c, j', gone) =>
      let d := d + (if j.fresh then 4096 else 0)
      match s.classNext l i c with
      | none => none
      | some (x, passed) =>
        if s.charge x ≤ d then
          some (x, passed, { j' with fresh := false, instDef := Map.put j'.instDef i 0 (d - s.charge x) }, lost + gone)
        else s.instRound l fuel { j with cur := next, fresh := true, instDef := Map.put j.instDef i 0 d } lost

/-- After a grant, a class and an instance with no ready chunk left forfeit their deficits (13 R411). -/
def State.settleDeficits (s : State) (l : List Chunk) (x : Chunk) : State :=
  let j := s.inj
  let (j, a) := if x.cls < 5 && !l.any (fun y => y.inst == x.inst && y.cls == x.cls) then j.clearClass (8 * x.inst + x.cls)
    else (j, 0)
  let d := Map.getD j.instDef x.inst 0
  if l.any (fun y => y.inst == x.inst) then ({ s with inj := j } : State).bumpBy Reg.INJ_FORFEIT a
  else ({ s with inj := { j with instDef := Map.put j.instDef x.inst 0 0 } } : State).bumpBy Reg.INJ_FORFEIT (a + b2n (d != 0))

/-- The payload of a cell of message `m`: the extension and the data (04 R114, R116, R117). -/
def cellPay (m : TxMsg) (seg idx data : Nat) : Nat :=
  if seg = 0 ∧ idx = 0 then
    payOf [(0, 8, m.extMatch), (8, 8, m.extImm), (16, 4, m.extLength), (20, 4, m.extKey), (24, 8, m.extOffset)] +
      data % 256 ^ cellBytes m.len 0 0 * 256 ^ 32
  else data % 256 ^ cellBytes m.len seg idx

/-- Cell `idx` of segment `g` goes to the router, encrypted if the connection is (04 R109, R139, 08 R296). -/
def State.sendMsgCell (s : State) (h : Nat) (k : Conn) (m : TxMsg) (g : SendSeg) (idx data : Nat) : State :=
  let last := decide (g.seg + 1 = segsOf m.len ∧ idx + 1 = g.cells)
  let hd : Hdr := { dst := k.peerEp, src := s.addr, cls := k.cls, epo := s.stamp, typ := m.typ, seq := g.seq, idx := idx,
                    ins := k.inst, gen := s.gen k.inst, first := g.seg == 0 && idx == 0, last := last, yel := m.yel,
                    fnc := m.fence }
  let clear := BitVec.ofNat 512 (cellPay m g.seg idx data)
  match k.encrypt, k.txEpoch with
  | true, some e =>
    let n := mkNonce e.epoch (dirBit s.addr k.inst k.peerEp k.peerInst) (k.txKidx e g.seq) k.peerHandle
    let ct := cryptPay e.key n idx clear
    let s := s.modConn h (fun k => { k with segs := k.segs.map (fun x =>
      if x.seq = g.seq then { x with ct := if Map.has x.ct idx then x.ct else Map.set x.ct idx ct, key := e.epoch } else x) })
    s.inject (mkCell hd ct.toNat)
  | _, _ => s.inject (mkCell hd clear.toNat)

/-- A number of 16 bytes with its bytes in the other order. -/
def swap16 (x : Nat) : Nat := ofBytesBE ((List.range 16).map (fun i => x / 256 ^ i % 256))

/-- The TAG of segment `q` of connection `h` follows its highest-index cell (08 R298, R299). -/
def State.sendTag (s : State) (h q : Nat) (typ : Nat) : State :=
  match s.conn? h with
  | none => s
  | some k =>
    match k.segs.find? (fun g => g.seq == q), k.txEpoch with
    | some g, some e =>
      if !k.encrypt || g.ct.length != g.cells then s else
      let n := mkNonce e.epoch (dirBit s.addr k.inst k.peerEp k.peerInst) (k.txKidx e q) k.peerHandle
      let t := tagOf e.key n (aadOf k.peerEp s.addr k.cls typ q k.inst (s.gen k.inst)) ((sortBy (·.1) g.ct).map (·.2))
      let s := s.modConn h (fun k => { k with segs := k.segs.map (fun x => if x.seq = q then { x with tagSent := true } else x) })
      s.sayRma h rcTAG q 0 e.epoch (swap16 t.toNat)
    | _, _ => s

/-- The cells of a run of segment `q`, with `data` the bytes from the run's start on. -/
def State.sendCells (s : State) (h : Nat) (m : TxMsg) (q first count data : Nat) : State :=
  (List.range count).foldl (fun s i =>
    match s.conn? h with
    | none => s
    | some k => match k.segs.find? (fun g => g.seq == q) with
      | none => s
      | some g =>
        s.sendMsgCell h k m g (first + i) (data / 256 ^ (cellOffset g.seg (first + i) - cellOffset g.seg first))) s

/-- What is recorded of the cells sent: the segment's next cell, or the rest of the run to send again (06 R216, R217). -/
def SendSeg.sent (g : SendSeg) (t first count : Nat) (again : Bool) : SendSeg :=
  let g := { g with lastSent := t }
  if !again then { g with next := first + count }
  else match g.again with
    | (f, n) :: l => { g with again := if n ≤ count then l else (f + count, n - count) :: l }
    | [] => g

/-- The cells of chunk `c` of segment `q` go out. -/
def State.sendRun (s : State) (c : Chunk) (m : TxMsg) (q data : Nat) : State :=
  let s := s.sendCells c.handle m q c.first c.count data
  let s := if c.again then
      ((s.bumpBy Reg.CTL_XPT_RESEND c.count).occur bkCTL 0x19 [0] c.count).countInst c.inst 6 c.count
    else s
  let s := s.countInst c.inst 2 (c.bytes m)
  let s := s.modConn c.handle (fun k => { k with
    lastCell := s.t,
    segs := k.segs.map (fun g => if g.seq = q then g.sent s.t c.first c.count c.again else g) })
  if c.first + c.count = segCells m.len c.seg then s.sendTag c.handle q m.typ else s

/-- A granted chunk goes out: the data is read, its message gets its SEQ if it has none, the cells are built; a failed read ends
the message, before it has a SEQ where it is the first (06 R204, 13 R408, 08 R602). -/
def State.sendChunk (s : State) (c : Chunk) (data : HostRead) : State :=
  let s := s.needContext c.handle
  let lost := data == .error && (s.msg? c.id).any (fun m => m.inline.isNone && c.bytes m != 0)
  let s := if !lost && (s.msg? c.id).any (fun m => m.seq.isNone) then s.assignSeq c.id else s
  match s.msg? c.id with
  | none => s
  | some m =>
    let q := (m.seq.getD 0 + c.seg) % 65536
    match m.inline, data with
    | some x, _ => s.sendRun c m q (x / 256 ^ c.start)
    | none, .data x => s.sendRun c m q x
    | none, .error => if c.bytes m = 0 then s.sendRun c m q 0 else s.sourceReadFail c.id false

/-- A control cell goes out, stamped and sealed (13 R414, 04 R139). -/
def State.sendCtl (s : State) (c : CtlCell) : State :=
  let s : State := { s with inj := { s.inj with ctl := dropFirst c s.inj.ctl } }
  s.inject (mkCell { dst := c.dst, src := s.addr, cls := c.cls, epo := s.stamp, typ := c.typ, ins := c.ins, gen := c.gen,
                     first := true, last := true } c.pay)

/-- The control cell that goes next: classes 0-5 wait for JOINED. -/
def State.nextCtl (s : State) : Option CtlCell :=
  s.inj.ctl.find? (fun c => c.cls == 6 || s.flag F.MGT_STATUS_JOINED)

/-- A chunk is granted. -/
def State.countChunk (s : State) (c : Chunk) : State := (s.bump Reg.INJ_CHUNKS).occur bkINJ 0x10 [c.cls, 8] 1

/-- One grant of the arbiter (13 R410-R414); `data` is what the read of the chunk's source returned. -/
def State.grant (s : State) (data : HostRead) : State :=
  if s.halted || !s.addressed then s else
  let (s, l) := s.readyChunks
  match l.find? (fun c => c.launch) with
  | some c =>
    let s := ((s.countChunk c).bump Reg.INJ_LAUNCH_GRANT).sendChunk c data
    let (s, l) := s.readyChunks
    s.settleDeficits l c
  | none =>
    match s.nextCtl with
    | some c => s.sendCtl c
    | none =>
      if l.isEmpty then s else
      match s.instRound l (12 * max 1 s.nInst) s.inj 0 with
      | none => s
      | some (c, passed, j, lost) =>
        let s := ({ s with inj := j } : State).bumpBy Reg.INJ_FORFEIT lost
        let s := (s.bumpBy Reg.INJ_YEL_DEFER passed).countChunk c
        let s := s.sendChunk c data
        let (s, l) := s.readyChunks
        s.settleDeficits l c

/-- CHUNK_GRANT (13 R410). -/
def execChunkGrant (data : HostRead) (v : View) (s : State) : Outcome State Fault Refusal := .next ((s.see v).grant data)

/-- The descriptors of work queue `q` whose last chunk has not been granted (13 R416), by the time they were accepted. -/
def State.waitingSends (s : State) (q : Nat) : List Nat :=
  s.xpt.msgs.filterMap (fun x => match x.2.origin with
    | .desc z => match s.slot? z, s.conn? x.2.handle with
      | some y, some k =>
        if y.queue = q && (x.2.seq.isNone || (k.unsentSeg x.1).isSome) then some y.acceptedAt else none
      | _, _ => none
    | _ => none)

/-- The sample of a queue (13 R416): depth and head delay in nanoseconds. -/
def State.sampleOf (s : State) (q : Nat) (x : Queue) : Nat × Nat :=
  let l := if x.work then s.waitingSends q else x.waiting.map (·.since)
  (l.length, match l with
    | [] => 0
    | a :: t => (s.t - t.foldl min a) / 16)

/-- Every queue is sampled where the slot calls for it (13 R416). -/
def State.sampleQueues (s : State) : State :=
  let k := min 4096 (s.fld F.INJ_SAMPLE_K)
  if k = 0 || !s.hasTime || slotNo s.t % k != 0 then s else
  s.obj.queues.foldl (fun s y => if y.1 = acqKey then s else
    let (d, w) := s.sampleOf y.1 y.2
    s.modQueue y.1 (fun x => { x with sampled := true, depthLast := d, depthMax := max x.depthMax d,
                                      delayMax := max x.delayMax (min w 0xFFFFFFFF) })) s

/-- QUEUE_SAMPLE (13 R416). -/
def execQueueSample (s : State) : Outcome State Fault Refusal := .next s.sampleQueues

end Sys2Proof.Machine
end

