-- ==== Sys2Proof/Machine/Links.lean ====
section
/-! DEFINITION. The meanings of the commands of lanes and links (14). Each is a state with the command's effect; an
event that the state does not allow (a word for a link that is down, a timer of nothing) changes nothing. -/

namespace Sys2Proof.Machine

open Host (Outcome)

/-- A cell may be sent next on link `p`: the link carries its class, and its pool has a credit (14 R439, R446). -/
def State.sendable (s : State) (p : Nat) (h : HeldCell) : Bool :=
  let k := s.link p
  let hop := if h.inp.isSome && !h.cell.linkLocal then h.cell.hop + 1 else h.cell.hop
  let pool := if h.cell.cls = 6 then 7 else hop
  (s.linkState p == lkUP || h.cell.cls == 6) &&
    decide (0 < (Map.getD k.total pool 0 + 8192 - Map.getD k.spent pool 0 % 8192) % 8192)

/-- The next cell in the order of 04 R137. -/
def State.nextCell (s : State) (p : Nat) : Option HeldCell :=
  let q := (s.queueOf p).filter (s.sendable p)
  let deep := decide (s.fld F.CTL_ROUTE_CTRL_MARK_DEPTH ≤ s.qlen p)
  let pick := fun (sel : HeldCell → Bool) =>
    match q.find? sel with
    | none => none
    | some h => if deep && h.cell.yel then
        some ((q.find? (fun x => sel x && x.cell.cls == h.cell.cls && !x.cell.yel)).getD h) else some h
  match pick (fun h => h.cell.cls == 6) with
  | some h => some h
  | none => match pick (fun h => h.cell.cls == 5) with
    | some h => some h
    | none => pick (fun h => decide (h.cell.cls ≤ 4))

/-- Sends one new numbered cell of link `p` (14 R436, R439, 04 R133, R136). A forwarded cell whose CRC fails is counted as it
passes (04 R121). -/
def State.sendCell (s : State) (p : Nat) (h : HeldCell) : State × Cell :=
  let c := if h.inp.isSome && !h.cell.linkLocal then h.cell.withHop (h.cell.hop + 1) else h.cell
  let pool := if c.cls = 6 then 7 else c.hop
  let s := { s with rt := { s.rt with outQ := Map.set s.rt.outQ p (dropFirst h (s.queueOf p)) } }
  let s := s.modLink p (fun k => { k with
    retry := k.retry ++ [(k.txNext, c)], txNext := (k.txNext + 1) % 4096,
    spent := Map.set k.spent pool ((Map.getD k.spent pool 0 + 1) % 8192) })
  let s := if h.detour then s.bump Reg.CTL_NM_PICKS else s
  let s := if h.inp.isSome && !c.crcOk then s.bump Reg.CTL_CRC_FWD else s
  (s.release h, c)

/-- Fills up to `n` cell positions with replayed and new cells (14 R438, R440). -/
def State.fillCells (s : State) (p : Nat) : Nat → List Cell → State × List Cell
  | 0, acc => (s, acc)
  | n + 1, acc =>
    let k := s.link p
    match k.replay with
    | x :: rest => (s.modLink p (fun k => { k with replay := rest })).fillCells p n (acc ++ [x.2])
    | [] =>
      if k.phaseDue.isSome then (s, acc) else
      match s.nextCell p with
      | none => (s, acc)
      | some h =>
        if 2048 ≤ k.retry.length then
          (if k.stalled then s else
            (s.modLink p (fun k => { k with stalled := true })).bump (Reg.LNG_RETRY_FULL p), acc)
        else
          let r := s.sendCell p h
          r.1.fillCells p n (acc ++ [r.2])

/-- A MARK waits for a field of link `p`. -/
def State.markWaits (s : State) (p : Nat) : Bool := (s.link p).words.any (fun w => wordKind w == wMARK)

/-- The next window mark of output `p` asks for a field, once its time comes within this codeword, every transit cell of an
earlier time has been sent, and no other mark waits (05 R169, R172). -/
def State.raiseMark (s : State) (p : Nat) : State :=
  match Map.getD s.tim.markOut p [] with
  | [] => s
  | m :: rest =>
    if s.t + ns 20 ≤ m.1 || s.markWaits p || (Map.getD s.tim.transitOut p []).any (fun d => decide (d.at_ < m.1)) then s else
    ({ s with tim := { s.tim with markOut := Map.set s.tim.markOut p rest } } : State).say p (mkWord wMARK m.2)

/-- The transit cells of output `p` whose cell time comes within this codeword and whose mark has been sent, at most four (05
R169, R172, 14 R423). -/
def State.takeTransit (s : State) (p : Nat) : State × List Cell :=
  let q := Map.getD s.tim.transitOut p []
  let open_ := fun (d : DueCell) => !s.markWaits p && (Map.getD s.tim.markOut p []).all (fun m => decide (d.at_ < m.1))
  let due := (q.filter (fun d => decide (d.at_ < s.t + ns 20) && open_ d)).take 4
  ({ s with tim := { s.tim with transitOut := Map.set s.tim.transitOut p (q.filter (fun d => !due.contains d)) } },
    due.map (·.cell))

/-- Where a waiting word stands in the order of 14 R430: smaller goes first. -/
def wordRank (w : LinkWord) : Nat :=
  let k := wordKind w
  if k = wNAK || k = wREPLAY then 0
  else if k = wMARK then 1
  else if k = wTSRESP || k = wTSDATA then 2
  else if k = wPHASE || k = wWAKE || k = wTSREQ then 3
  else if k = wACK || k = wCREDIT then 4
  else 5

/-- The word may go in this lane's field: MARK and timestamps only on the lowest lane (14 R431, R435); ACK and CREDIT
not in stuff overrun, and with a stuff debt of 10 or more only at the minimum rates (14 R427, R430). -/
def State.wordFits (s : State) (l p : Nat) (overrun : Bool) (w : LinkWord) : Bool :=
  let k := wordKind w
  let d := (s.lane l).debtTx
  if k = wMARK || k = wTSREQ || k = wTSRESP || k = wTSDATA then l == p
  else if k = wACK then !overrun && (decide (d < 10) || decide (7 ≤ (s.link p).ackAge))
  else if k = wCREDIT then !overrun && (decide (d < 10) || decide (15 ≤ Map.getD (s.link p).creditAge (bits w 15 13) 0))
  else true

/-- The first word of the lowest rank that fits. -/
def State.nextWord (s : State) (l p : Nat) (overrun : Bool) : Option LinkWord :=
  let ws := (s.link p).words.filter (s.wordFits l p overrun)
  ([0, 1, 2, 3, 4].filterMap (fun r => ws.find? (fun w => wordRank w == r))).head?

/-- What sending a word does beside its bits: the time stamps of 14 R431 and the rates of R430. -/
def State.wordSent (s : State) (l p : Nat) (w : LinkWord) : State :=
  let k := wordKind w
  let s := s.modLink p (fun r => { r with words := dropFirst w r.words })
  if k = wTSREQ then { s with tim := { s.tim with t1 := s.t } }
  else if k = wTSRESP then
    let t2 := Map.getD s.tim.t2 p 0
    let t3 := s.t
    let s := { s with tim := { s.tim with t2 := Map.erase s.tim.t2 p } }
    [t2 % 65536, t2 / 65536 % 65536, t3 % 65536, t3 / 65536 % 65536].foldl (fun s d => s.modLink p (fun r =>
      { r with words := r.words ++ [mkWord wTSDATA d] })) s
  else if k = wACK then s.modLink p (fun r => { r with ackAge := 0 })
  else if k = wCREDIT then s.modLink p (fun r => { r with creditAge := Map.set r.creditAge (bits w 15 13) 0 })
  else if k = wTRAIN then s.modLane l (fun r => { r with trainTx := s.nextTrain l r.trainTx })
  else s

/-- The codeword's control word, or none for IDLE (14 R429, R430, R445, R448). -/
def State.pickWord (s : State) (l p : Nat) (overrun : Bool) : Option LinkWord :=
  if 0 < (s.link p).downLeft then some (mkWord wDOWN 0)
  else if s.linkState l = lkTRAINING then some (s.trainWord l)
  else s.nextWord l p overrun

/-- The stuff debt after a codeword that inserted `stuffed` symbols, and the entry to or end of overrun (14 R425-R427).
D never exceeds 40. -/
def State.stuff (s : State) (l stuffed : Nat) : State :=
  let d := min 40 ((s.lane l).debtTx + stuffed)
  let s := (s.bumpBy (Reg.LNG_STUFF l) stuffed).modLane l (fun k => { k with debtTx := d })
  if 40 ≤ d && !s.flag (F.LNG_LANE_STATUS_OVERRUN l) then
    ((s.setFld (F.LNG_LANE_STATUS_OVERRUN l) 1).bump (Reg.LNG_STUFF_OVERRUN l)).raise (blkLNG (l / 16)) 18 l
  else if d < 10 then s.setFld (F.LNG_LANE_STATUS_OVERRUN l) 0 else s

/-- The control field of a codeword: a word is sent, or an IDLE field is punctured if D ≥ 10 (14 R426). -/
def State.sendField (s : State) (l p : Nat) (w : Option LinkWord) : State :=
  match w with
  | some w => s.wordSent l p w
  | none => if 10 ≤ (s.lane l).debtTx then s.modLane l (fun k => { k with debtTx := k.debtTx - 10 }) else s

/-- The lane sends codewords: its link is in training, runs in FULL or is leaving HALF or NEW, or has LINK_DOWN still to
send. -/
def State.transmits (s : State) (l : Nat) : Bool :=
  let p := s.linkOf l
  decide (0 < (s.link p).downLeft) || s.linkState l == lkTRAINING ||
    (s.linkRuns l && (s.fld (F.LNG_LANE_STATUS_PHASE l) == phFULL || (s.link p).exitFrom.isSome))

/-- The link word of a codeword of lane `l` of link `p`, and the counts that go with it (14 R426-R431, 04 R137). -/
def State.codewordField (s : State) (l p : Nat) : State × Option LinkWord :=
  let s := if l = p && s.linkFull p then s.raiseMark p else s
  let w := s.pickWord l p (s.flag (F.LNG_LANE_STATUS_OVERRUN l))
  let down := decide (0 < (s.link p).downLeft)
  ((s.sendField l p w).modLink p (fun k => { k with
    ackAge := if w.map wordKind = some wACK then 0 else k.ackAge + 1,
    creditAge := k.creditAge.map (fun x => (x.1, x.2 + 1)),
    silent := if down then k.downLeft == 1 else k.silent, downLeft := k.downLeft - 1 }), w)

/-- A REPLAY word waits for a field of link `p`: the cells that it announces, and all that follow, go after it (14 R438). -/
def State.replayWaits (s : State) (p : Nat) : Bool := (s.link p).words.any (fun w => wordKind w == wREPLAY)

/-- The cells that a codeword of lane `l` of link `p` carries, transit cells first, if it carries any (14 R421-R425, R438). -/
def State.codewordCells (s : State) (l p : Nat) (carries : Bool) : State × List Cell :=
  let r1 := if carries && l = p then s.takeTransit p else (s, [])
  let r2 := if carries && !s.replayWaits p then r1.1.fillCells p (4 - r1.2.length) r1.2 else r1
  let s := (r2.1.occurLane l 0x13 (r2.2.length - r1.2.length)).occurLane l 0x14 r1.2.length
  let s := s.occur (bkTIL (tileOf l)) 0x11 [0] r2.2.length
  (if r2.2.isEmpty then s else s.modLane l (fun k => { k with lastCell := some s.t }), r2.2)

/-- One codeword of lane `l` (14 R421-R431, R436-R440, 04 R137). Whether its field is punctured and whether it is sent in stuff
overrun depend on the debt that the codewords before it left (R426, R427). -/
def State.codewordSend (s : State) (l stuffed : Nat) : State :=
  let p := s.linkOf l
  if !s.laneExists l || !s.transmits l then s else
  let carries := s.linkFull p && !s.flag (F.LNG_LANE_STATUS_OVERRUN l) && !decide (0 < (s.link p).downLeft)
  let f := s.codewordField l p
  let r := f.1.codewordCells l p carries
  let s : State := { r.1 with lnk := { r.1.lnk with line := r.1.lnk.line ++ [{ lane := l, cells := r.2, word := f.2 }] } }
  ((s.stuff l stuffed).applyPhase p).drain

/-- CODEWORD_SEND (14 R421). -/
def execCodewordSend (l : LaneId) (stuffed : Nat) (s : State) : Outcome State Fault Refusal :=
  .next (s.codewordSend l.val stuffed)

/-- Takes one cell of classes 0-6 in LSEQ order (14 R437, R438). -/
def State.takeCell (s : State) (p : Nat) (c : Cell) : State :=
  let k := s.link p
  if k.nakAt.isSome then s
  else if k.rxSeq ≠ k.rxNext then s.modLink p (fun k => { k with rxSeq := (k.rxSeq + 1) % 4096 })
  else
    let s := s.modLink p (fun k => { k with rxSeq := (k.rxSeq + 1) % 4096, rxNext := (k.rxNext + 1) % 4096 })
    let h : HeldCell := { inp := some p, cell := c }
    if c.linkLocal then { s with rt := { s.rt with delivered := s.rt.delivered ++ [h] } }
    else { s with rt := { s.rt with held := s.rt.held ++ [h] } }

/-- The cells of a good codeword: transit cells wait for their own command, the others are taken in order. -/
def State.takeCells (s : State) (l p : Nat) (cs : List Cell) : State :=
  let s := cs.foldl (fun s c =>
    if c.cls = 7 then
      if l = p then { s with tim := { s.tim with transitIn := s.tim.transitIn ++ [(p, c)] } } else s
    else s.takeCell p c) s
  if cs.isEmpty then s else
    let s := s.modLane l (fun k => { k with lastCell := some s.t })
    if cs.any (fun c => c.cls != 7) then s.sayAck p else s

/-- A word of an unassigned kind or value (14 R429). -/
def badWord (w : LinkWord) : Bool :=
  let k := wordKind w
  12 < k || (k == wPHASE && bits w 15 14 == 3) || (k == wTRAIN && 6 < bits w 15 12)

/-- The control word of a good codeword. -/
def State.takeWord (s : State) (l p : Nat) (w : LinkWord) : State :=
  if wordKind w = wIDLE then s
  else if badWord w then s.bump (Reg.LNG_CTRL_BAD l)
  else s.modLink p (fun k => { k with rxWords := k.rxWords ++ [w] })

/-- An uncorrectable codeword on lane `l` (14 R432, R438, R448, 05 R170). -/
def State.uncorrectable (s : State) (l p : Nat) : State :=
  let s := (s.bump (Reg.LNG_FEC_UNCORR l)).occurLane l 0x11 1
  if !s.linkRuns p then s else
  let s := { s with tim := { s.tim with windows := Map.erase s.tim.windows p } }
  let s := if (s.link p).nakAt.isSome then s else
    (s.modLink p (fun k => { k with nakAt := some s.t })).say p (mkWord wNAK (s.link p).rxNext)
  let s := s.modLink p (fun k => { k with uncAt := k.uncAt.filter (fun x => decide (s.t ≤ x + us 1)) ++ [s.t] })
  if 4 ≤ (s.link p).uncAt.length then s.linkLost p else s

/-- One codeword received on lane `l` (14 R421, R425-R430, R437, R438). The form without the field is tried only while the debt that
the codewords before it left is 10 or more (R426); `unstuffed` counts the stuff symbols removed, after the correction of R428. -/
def State.codeword (s : State) (l : Nat) (good : Bool) (cells : List Cell) (w : LinkWord)
    (corrected slip : Bool) (unstuffed : Nat) (punctured : Bool) : State :=
  if !s.laneExists l || s.linkState l == lkDOWN then s else
  let p := s.linkOf l
  let good := good && (!punctured || decide (10 ≤ (s.lane l).debtRx))
  let s := s.modLane l (fun k => { k with
    debtRx := min 40 (k.debtRx + unstuffed) - (if good && punctured then 10 else 0) })
  if !good then s.uncorrectable l p else
  let s := if corrected then (s.bump (Reg.LNG_FEC_CORR l)).occurLane l 0x10 1 else s
  let s := if slip then s.bump (Reg.LNG_SLIP l) else s
  let s := if s.linkRuns p then (s.occur (bkTIL (tileOf l)) 0x10 [0] cells.length).takeCells l p cells else s
  if punctured then s else s.takeWord l p w

/-- CODEWORD (14 R421). -/
def execCodeword (l : LaneId) (good : Bool) (cells : List Cell) (w : LinkWord) (corrected slip : Bool)
    (unstuffed : Nat) (punctured : Bool) (s : State) : Outcome State Fault Refusal :=
  .next (s.codeword l.val good cells w corrected slip unstuffed punctured)

/-- NAK_REPEAT (14 R438): the NAK is sent again until a REPLAY arrives. -/
def execNakRepeat (l : LaneId) (s : State) : Outcome State Fault Refusal :=
  let p := s.linkOf l.val
  .next (if s.linkRuns p && (s.link p).nakAt.isSome then s.say p (mkWord wNAK (s.link p).rxNext) else s)

/-- NO_REPLAY_TIMEOUT (14 R448): no REPLAY within 800 ns of the first NAK. -/
def execNoReplayTimeout (l : LaneId) (s : State) : Outcome State Fault Refusal :=
  let p := s.linkOf l.val
  .next (if (s.link p).nakAt.isSome then s.linkLost p else s)

/-- A NAK asks for replay from `n` (14 R438). NEXT equal to the number of the next new cell asks for a replay of
nothing (log entry 15). -/
def State.takeNak (s : State) (p n : Nat) : State :=
  let k := s.link p
  if k.retry.any (fun x => x.1 == n) || n == k.txNext then
    ((s.modLink p (fun k => { k with replay := k.retry.dropWhile (fun x => x.1 != n) })).say p
      (mkWord wREPLAY n)).bump (Reg.LNG_REPLAY p) |>.occurLane p 0x12 1
  else s.linkLost p

/-- NAK (14 R438, R448). -/
def execNak (l : LaneId) (next : BitVec 12) (s : State) : Outcome State Fault Refusal :=
  let p := s.linkOf l.val
  let s := s.heard p (mkWord wNAK next.toNat)
  .next (if s.linkRuns p then s.takeNak p next.toNat else s)

/-- REPLAY (14 R438): cells count from LSEQ again; REPLAY(NEXT) ends the discarding. -/
def execReplay (l : LaneId) (lseq : BitVec 12) (s : State) : Outcome State Fault Refusal :=
  let p := s.linkOf l.val
  let s := s.heard p (mkWord wREPLAY lseq.toNat)
  let k := s.link p
  .next (if !s.linkRuns p then s
    else if k.nakAt.isSome && lseq.toNat != k.rxNext then s
    else s.modLink p (fun k => { k with nakAt := none, rxSeq := lseq.toNat }))

/-- The buffered cells that an ACK of NEXT = `n` leaves (14 R437). -/
def ackRest (k : Link) (n : Nat) : List (Nat × Cell) :=
  if n = k.txNext then [] else if k.retry.any (fun x => x.1 == n) then k.retry.dropWhile (fun x => x.1 != n) else k.retry

/-- LINK_ACK (14 R437, R440, R441, R443). -/
def execLinkAck (l : LaneId) (next : BitVec 12) (s : State) : Outcome State Fault Refusal :=
  let p := s.linkOf l.val
  let s := s.heard p (mkWord wACK next.toNat)
  .next (if !s.linkRuns p then s else
    let s := s.modLink p (fun k => { k with
      retry := ackRest k next.toNat,
      replay := k.replay.filter (fun x => (ackRest k next.toNat).any (fun y => y.1 == x.1)),
      stalled := k.stalled && decide (2048 ≤ (ackRest k next.toNat).length),
      gotAck := k.exitFrom.isSome })
    (s.applyPhase p).exitCheck p)

/-- CREDIT (14 R439, R443). -/
def execCredit (l : LaneId) (data : BitVec 16) (s : State) : Outcome State Fault Refusal :=
  let p := s.linkOf l.val
  let s := s.heard p (mkWord wCREDIT data.toNat)
  .next (if !s.linkRuns p then s else
    (s.modLink p (fun k => { k with
      total := Map.set k.total (bits data 15 13) (bits data 12 0), gotCredit := k.exitFrom.isSome })).exitCheck p)

/-- A write of PHASE_REQ of lane `l`, which acts on the lowest lane of a link only (14 R449). -/
def State.phaseReqWrite (s : State) (l n : Nat) : State :=
  let s := s.setFld (F.LNG_LANE_CTRL_PHASE_REQ l) n
  if s.linkOf l = l then s.requestPhase l n wcPATTERN else s

/-- PHASE_REQ (14 R442): from a write of the register, or from the power controller. -/
def execPhaseReq (l : LaneId) (target : Fin 3) (power : Bool) (s : State) : Outcome State Fault Refusal :=
  .next (if !s.laneExists l.val then s
    else if power then s.requestPhase l.val target.val wcPATTERN
    else s.setup (s.phaseReqWrite l.val target.val))

/-- PHASE (14 R442). -/
def execPhase (l : LaneId) (data : BitVec 16) (s : State) : Outcome State Fault Refusal :=
  let p := s.linkOf l.val
  let s := s.heard p (mkWord wPHASE data.toNat)
  .next (if s.linkFull p then s.takePhase p data else s)

/-- WAKE (14 R444). A WAKE that names a lane already FULL, or one that does not exist, is ignored. -/
def execWake (l : LaneId) (data : BitVec 16) (s : State) : Outcome State Fault Refusal :=
  let n := bits data 9 0
  let s := s.heard (s.linkOf l.val) (mkWord wWAKE data.toNat)
  .next (if s.laneExists n then s.startExitOf (s.linkOf n) wcWORD else s)

/-- WAKE_PATTERN (14 R443). -/
def execWakePattern (l : LaneId) (s : State) : Outcome State Fault Refusal :=
  .next (if s.laneExists l.val then s.startExitOf (s.linkOf l.val) wcPATTERN else s)

/-- LANE_EXIT_TIMEOUT (14 R443): the exit ends in full training. -/
def execLaneExitTimeout (l : LaneId) (s : State) : Outcome State Fault Refusal :=
  let p := s.linkOf l.val
  .next (if (s.link p).exitFrom.isSome then (s.leaveLink p).askTraining (s.linkLanes p) else s)

/-- RETRAIN (14 R445): the write of `LNG_LANE_CTRL` with RETRAIN set. -/
def execRetrain (l : LaneId) (w : Word) (s : State) : Outcome State Fault Refusal := 
  .next (s.setup (s.laneCtrlWrite l.val w))

/-- TRAIN (14 R445). -/
def execTrain (l : LaneId) (data : BitVec 16) (eq : Fin 32) (eqValid : Bool) (s : State) :
    Outcome State Fault Refusal :=
  .next ((s.heard l.val (mkWord wTRAIN data.toNat)).takeTrain l.val data eq.val eqValid)

/-- TRAINING_TIMEOUT (14 R447). -/
def execTrainingTimeout (l : LaneId) (s : State) : Outcome State Fault Refusal :=
  .next (if s.linkState l.val = lkTRAINING then s.trainFail l.val else s)

/-- TRAINING_RETRY (14 R447). -/
def execTrainingRetry (l : LaneId) (s : State) : Outcome State Fault Refusal :=
  .next (if s.linkState l.val = lkDOWN then s.startTraining [l.val] else s)

/-- LINK_LOST (14 R448): loss of signal or of receiver lock. -/
def execLinkLost (l : LaneId) (s : State) : Outcome State Fault Refusal := .next (s.linkLost (s.linkOf l.val))

/-- LINK_DOWN (14 R448). -/
def execLinkDown (l : LaneId) (s : State) : Outcome State Fault Refusal :=
  let p := s.linkOf l.val
  .next ((s.heard p (mkWord wDOWN 0)).linkLost p)

/-- LANE_ENABLE (14 R445, R447): the write of `LNG_LANE_CTRL` that changes ENABLE. -/
def execLaneEnable (l : LaneId) (w : Word) (s : State) : Outcome State Fault Refusal := 
  .next (s.setup (s.laneCtrlWrite l.val w))

end Sys2Proof.Machine
end

