-- ==== Sys2Proof/Machine/Restore.lean ====
section
/-! DEFINITION. A connection comes back from its journal record: what its sending and its receiving end keep (06 R233,
07 R270, 08 R304, 10 R354, 16 R475). -/

namespace Sys2Proof.Machine

/-- The SEQ values that a journal kept: each message with one, as (SEQ, id, length). -/
def State.keptSeqs (s : State) (h : Nat) : List (Nat × Nat × Nat) :=
  (s.msgsOf h).filterMap (fun x => x.2.seq.map (fun q => (q, x.1, x.2.len)))

/-- The sending end of connection `h` after its context was rebuilt: nothing is known to have arrived; messages that have a
SEQ keep it, and wait to be sent again (06 R233 step 5). -/
def State.resetSending (s : State) (h : Nat) : State :=
  let l := s.keptSeqs h
  match l.find? (fun a => l.all (fun b => decide (dist b.1 a.1 < 32768))) with
  | none => s.modConn h (fun k => { k with segs := [] })
  | some a =>
    let ends := l.map (fun b => dist b.1 a.1 + segsOf b.2.2)
    s.modConn h (fun k => { k with
      peerWm := (a.1 + 65535) % 65536, nextSeq := (a.1 + ends.foldl max 0) % 65536,
      segs := ((sortBy (fun b => dist b.1 a.1) l).map (fun b => segList b.2.1 b.1 b.2.2)).flatten })

/-- A connection as its record gives it (06 R231, R233 steps 4 and 6): CLOSED, its frontier at WM, its selective map and
segment records gone; no key boundary survives, so every key is spent (08 R304). -/
def Conn.restored (k : Conn) : Conn :=
  { k with st := .closed, brokeWith := 0, front := k.wm, sel := [], rx := [], recs := [], segs := [], assigned := [],
           w := 16384, baseFrame := 0, baseCur := none, basePrev := none, lastCut := none, expiries := 0, pulls := 0,
           switching := none, keys := k.keys.map (fun e => { e with spent := true, txFrom := none, rxFrom := none }) }

/-- Receives are posted again, in STAMP order; each searches the store (07 R254, R270). -/
def State.repostRecvs (s : State) (zs : List Nat) : State :=
  (sortBy s.stampOf zs).foldl (fun s z => match s.slot? z with
    | some x => s.fileRecv z x
    | none => s) s

/-- The receives that messages above WM of connection `h` had matched (07 R270). -/
def State.matchedAbove (s : State) (h : Nat) (k : Conn) : List Nat :=
  k.rx.filterMap (fun m => if m.typ = tySEND then (match m.target with | .buffer _ _ _ z => z | _ => none) else none) ++
    ((s.mat.store.filter (fun e => e.2.handle == h && !e.2.covered)).filterMap (fun e => e.2.bound.map (·.1)))

/-- Entries of the unexpected store above WM of connection `h` are discarded (06 R233 step 6). -/
def State.dropUncovered (s : State) (h : Nat) : State :=
  let gone := (s.mat.store.filter (fun e => e.2.handle == h && !e.2.covered)).map (·.1)
  gone.foldl (fun s e => s.freeEntry e) s

/-- The collective data that messages above WM of connection `h` had brought is discarded (10 R354); an operation that only
they had brought into progress goes. -/
def State.dropStaged (s : State) (h : Nat) (k : Conn) : State :=
  k.rx.foldl (fun s m => match m.target with
    | .staging g n =>
      s.modGroup g (fun x =>
        let kid := x.children.findIdx? (fun e => e.handle == h)
        let x := x.modOp n (fun o => if hDown (m.cell0.pb 32 32) then { o with downHdr := none, downData := 0, downRuns := [] }
          else match kid with
            | some i => { o with kids := Map.erase o.kids i }
            | none => o)
        { x with ops := x.ops.filter (fun o => o.slot.isSome || !o.kids.isEmpty) })
    | _ => s) s

/-- What this end was sending on connection `h` and no slot records: a pull goes back to wait for its turn, a READ_RESP
is asked for again (07 R270, R271). -/
def State.dropUnrecorded (s : State) (h : Nat) : State :=
  (s.msgsOf h).foldl (fun s x => match x.2.origin with
    | .pull e => ((s.dropMsg x.1).modEntry e (fun y => { y with pulling := false, status := 0 })).queuePull e
    | .readResp _ _ => s.dropMsg x.1
    | _ => s) s

/-- The context of connection `h` is rebuilt from its journal record while the chip runs (16 R475): it returns to CLOSED and
opens again by 06 R202. -/
def State.rebuildConn (s : State) (h : Nat) : State :=
  match s.conn? h with
  | none => s
  | some k =>
    let zs := s.matchedAbove h k
    let s := (((s.dropStaged h k).dropUncovered h).dropUnrecorded h).modConn h Conn.restored
    let s := s.resetSending h
    ((s.repostRecvs zs).needContext h).openIfWork h

end Sys2Proof.Machine
end

