-- ==== Sys2Proof/Machine/Memory.lean ====
section
/-! DEFINITION. The meanings of the commands of the GDDR7 controller: training, errors, the failure of a device, the host area,
and host accesses to the CXL.mem windows (16, 15 R459). -/

namespace Sys2Proof.Machine

open Host (Outcome)

/-- A write of `w` to `MEM_CTRL` (16 R472, R474). ENABLE and RATE hold while ENABLE is 1, DENSITY also while the host area is
valid; DENSITY sets `MEM_HOST_SIZE`. Clearing ENABLE stops the controller (log entry 80). -/
def State.memCtrlWrite (s : State) (w : Word) : State :=
  if !s.part.gddr then s else
  let on := s.flag F.MEM_CTRL_ENABLE
  let s := if on then s else s.setFld F.MEM_CTRL_RATE (bits w 0 0)
  let s := if on || s.flag F.MEM_HOST_BASE_VALID then s else
    (s.setFld F.MEM_CTRL_DENSITY (bits w 4 4)).setFld F.MEM_HOST_SIZE_SIZE (if bit w 4 then 2880 else 1920)
  let s := s.setFld F.MEM_CTRL_ENABLE (bits w 31 31)
  if bit w 31 then s else s.setFld F.MEM_STATUS_TRAINED 0

/-- MEM_ENABLE (16 R472). -/
def execMemEnable (w : Word) (s : State) : Outcome State Fault Refusal := .next (s.setup (s.memCtrlWrite w))

/-- A write of `v` to `MEM_HOST_BASE` (16 R474): BASE holds while VALID is 1, and VALID cannot be cleared while any queue
other than queue 0 exists. -/
def State.memHostBaseWrite (s : State) (v : Word64) : State :=
  let valid := s.flag F.MEM_HOST_BASE_VALID
  let base := if valid then (s.rd64 Reg.MEM_HOST_BASE).toNat / 2 ^ 30 else v.toNat / 2 ^ 30
  let others := s.obj.queues.any (fun q => q.1 != 0 && q.1 != acqKey)
  let keep := v.getLsbD 0 || (valid && others)
  s.wr64 Reg.MEM_HOST_BASE (BitVec.ofNat 64 (base * 2 ^ 30 + b2n keep))

/-- MEM_HOST_BASE_WRITE (16 R474). -/
def execMemHostBaseWrite (v : Word64) (s : State) : Outcome State Fault Refusal := .next (s.setup (s.memHostBaseWrite v))

/-- The failed device, if there is one. -/
def State.failedDev (s : State) : Option Nat :=
  let d := s.fld F.MEM_STATUS_FAILED_DEV
  if d = 15 then none else some d

/-- The controller runs, and device `d` is in service. -/
def State.devRuns (s : State) (d : Nat) : Bool :=
  s.part.gddr && s.flag F.MEM_STATUS_TRAINED && s.failedDev != some d

/-- A line of a window is lost with its device: what it holds is open, and the host reads it poisoned (16 R475). -/
def State.loseLine (s : State) (p n : Nat) : State :=
  let k := p * 2 ^ 31 + 64 * n
  let put := fun (s : State) j =>
    ({ s.drawn with ram := { s.ram with cells := ramWrite s.ram.cells (k + 8 * j) 8 (Config.freeWord s.draws).toNat } } : State)
  let s := (List.range 8).foldl put s
  { s with ram := { s.ram with poisoned := (k / 64) :: s.ram.poisoned.filter (· != k / 64) } }

/-- The key record of connection `h` is rebuilt from its connection record: with an older epoch held too, its keys are spent
(16 R475, 08 R304). -/
def State.rebuildKey (s : State) (h : Nat) : State :=
  s.modConn h (fun k => if k.keys.length ≤ 1 then k else
    { k with switching := none, keys := k.keys.map (fun e => { e with spent := true }) })

/-- Staging of an operation cannot be read, or is lost (16 R468, R475): the member completes with INTEGRITY. -/
def State.spoilStaging (s : State) (g n : Nat) (lost : Bool) : State :=
  s.modGroup g (fun x => x.modOp n (fun o =>
    { o with bad := true, lost := o.lost || lost, placeSt := if o.stepped then stINTEGRITY else o.placeSt }))

/-- What was on the failed device is restored area by area (16 R475). -/
def State.restoreAreas (s : State) (l : MemLoss) : State :=
  let s := l.entries.foldl (fun s e => s.modEntry e (fun x => if x.rts then x else { x with status := stINTEGRITY, lost := true })) s
  let s := l.ops.foldl (fun s o => s.spoilStaging o.1.toNat o.2.toNat true) s
  let s := l.segs.foldl (fun s r => s.forgetRec r.1.toNat r.2.toNat) s
  let s := l.keys.foldl (fun s h => s.rebuildKey h.toNat) s
  let s := l.conns.foldl (fun s h => s.rebuildConn h.toNat) s
  l.lines.foldl (fun s r => s.loseLine r.1.val r.2) s

/-- Uncorrectable reads of device `d` within the last microsecond, the newest first. -/
def State.recentReads (s : State) (d : Nat) : List (Nat × Nat × Bool) :=
  s.ram.unc.filter (fun r => r.1 == d && decide (s.t < r.2.1 + us 1))

/-- CONTAINED was unacknowledged before the first of the recent reads of device `d`, or now if there is none. -/
def State.unackBefore (s : State) (d : Nat) : Bool :=
  match (s.recentReads d).getLast? with
  | some r => r.2.2
  | none => s.unacked blkMEM fcCONTAINED

/-- Device `d` is marked failed, and its rebuild starts (16 R475, R476). -/
def State.markFailed (s : State) (d : Nat) : State :=
  (((s.setFld F.MEM_STATUS_FAILED_DEV d).setFld F.MEM_STATUS_DEGRADED 1).setFld F.MEM_STATUS_REBUILDING 1).stand blkMEM 2

/-- Device `d` is declared failed (16 R475-R477). `unack`: CONTAINED was unacknowledged before the first raise that the
declaration absorbs (18 R514). -/
def State.deviceFailed (s : State) (d : Nat) (unack : Bool) (l : MemLoss) : State :=
  match s.failedDev with
  | some f => if f = d then s else s.raise blkMEM 3 d
  | none => ((s.markFailed d).raiseWith blkMEM 2 d false unack).restoreAreas l

/-- The devices `ds` fail their training at one instant: one raise (16 R475-R477, 18 R514). -/
def State.devicesFailed (s : State) (ds : List Nat) (l : MemLoss) : State :=
  match s.failedDev, ds with
  | none, d :: rest =>
    match rest.find? (· != d) with
    | some e => ((s.markFailed d).raiseTogether blkMEM [2, 3] e false).restoreAreas l
    | none => s.deviceFailed d (s.unackBefore d) l
  | _, _ => ds.foldl (fun s d => s.deviceFailed d (s.unackBefore d) l) s

/-- MEM_TRAINED (16 R472, R475): training ends; `fails`: the devices that failed it. -/
def execMemTrained (fails : List (Fin 12)) (loss : MemLoss) (s : State) : Outcome State Fault Refusal :=
  .next (
    if !s.part.gddr || !s.flag F.MEM_CTRL_ENABLE || s.flag F.MEM_STATUS_TRAINED then s else
    (s.setFld F.MEM_STATUS_TRAINED 1).devicesFailed (fails.map (·.val)) loss)

/-- The work that needed data which cannot be read ends with INTEGRITY (16 R468). -/
def State.endWork (s : State) (w : MemWork) : State :=
  match w with
  | .none => s
  | .source id => s.sourceLost id
  | .stored e => s.modEntry e (fun x => if x.rts then x else { x with status := stINTEGRITY })
  | .staging g n => s.spoilStaging g.toNat n.toNat false
  | .request h q =>
    ((((s.bump Reg.CTL_RMA_XLT_FAULT).failMsg h.toNat q.toNat stINTEGRITY).moveFront h.toNat).faultCheck h.toNat).settleAll h.toNat
  | .slot z =>
    match s.slot? z with
    | none => s
    | some x =>
      if x.phase = .posted ∨ x.phase = .launch then
        let s : State := { s with mat := { s.mat with posted := Map.erase s.mat.posted z } }
        s.finishSlot z stINTEGRITY (bytesBody 0)
      else s
  | .context h => s.breakConn h.toNat stINTEGRITY

/-- UNCORRECTABLE_READ (16 R468, R475): on channel `chan` of device `dev`. The fourth one confined to a device within a
microsecond declares it failed. -/
def execUncorrectableRead (dev : Fin 12) (chan : Fin 4) (work : MemWork) (loss : MemLoss) (v : View) (s : State) :
    Outcome State Fault Refusal :=
  .next (
    let s := s.see v
    let d := dev.val
    if !s.devRuns d then s else
    let before := s.unacked blkMEM fcCONTAINED
    let s := (s.bump Reg.MEM_UNCORRECTED).raise blkMEM 1 (d + 16 * chan.val)
    let s := s.endWork work
    let live := s.ram.unc.filter (fun r => decide (s.t < r.2.1 + us 1))
    let s : State := { s with ram := { s.ram with unc := (d, s.t, before) :: live } }
    if 4 ≤ (s.recentReads d).length then s.deviceFailed d (s.unackBefore d) loss else s)

/-- REBUILD_DONE (16 R476). -/
def execRebuildDone (s : State) : Outcome State Fault Refusal :=
  .next (if s.part.gddr then s.setFld F.MEM_STATUS_REBUILDING 0 else s)

/-- PATROL_SCRUB (16 R467, R468): all of memory is read; `corrected`: device and channel of every read that was
corrected. -/
def execPatrolScrub (corrected : List (Fin 12 × Fin 4)) (s : State) : Outcome State Fault Refusal :=
  .next (corrected.foldl (fun s c => if s.devRuns c.1.val then
    (s.bump Reg.MEM_CORRECTED).raise blkMEM 0 (c.1.val + 16 * c.2.val) else s) s)

/-- MEM_TEMPERATURE_READ (16 R469): `temps`: each device and its reading in degrees C. -/
def execMemTemperatureRead (temps : List (Fin 12 × BitVec 8)) (s : State) : Outcome State Fault Refusal :=
  .next (if s.part.gddr && s.flag F.MEM_STATUS_TRAINED then
    { s with ram := { s.ram with hot := temps.any (fun t => s.devRuns t.1.val && decide (85 ≤ t.2.toNat)) } } else s)

/-- PERIODIC_RETRAINING (16 R469, R475): of device `dev`; `ok` = 0: it failed. -/
def execPeriodicRetraining (dev : Fin 12) (ok : Bool) (loss : MemLoss) (s : State) : Outcome State Fault Refusal :=
  .next (
    if !s.devRuns dev.val then s else
    let s := s.bump Reg.MEM_RETRAIN
    if ok then s else s.deviceFailed dev.val (s.unackBefore dev.val) loss)

/-- The bytes of `data` that `mask` selects are written at key `k`. -/
def writeMasked (m : List (Nat × BitVec 8)) (k : Nat) (data : BitVec 512) (mask : Word64) : List (Nat × BitVec 8) :=
  (List.range 64).foldl (fun m i => if mask.getLsbD i then Map.put m (k + i) 0#8 (data.extractLsb' (8 * i) 8) else m) m

/-- The host of port `p` reads or writes line `n` of its window (15 R459, 16 R475). It waits while memory is not ready. -/
def State.hostLine (s : State) (p n : Nat) (wr : Option (BitVec 512 × Word64)) : State :=
  match s.window p with
  | none => s
  | some (_, size) =>
    if size ≤ 64 * n || !s.portUp p || !s.memReady then s else
    let k := p * 2 ^ 31 + 64 * n
    match wr with
    | some (d, m) => { s with ram := { s.ram with
        cells := writeMasked s.ram.cells k d m, poisoned := s.ram.poisoned.filter (· != k / 64) } }
    | none =>
      let a := if s.ram.poisoned.contains (k / 64) then ReadAnswer.poison p
        else ReadAnswer.line p (BitVec.ofNat 512 (ramRead s.ram.cells k 64))
      { s with lastRead := a }

/-- CXL_MEM_HOST_ACCESS (15 R459): `line` counts 64-byte lines from the window's base; a write carries the line and the mask of
the bytes it writes. -/
def execCxlMemHostAccess (p : PortId) (line : Nat) (wr : Option (BitVec 512 × Word64)) (s : State) :
    Outcome State Fault Refusal :=
  .next (s.hostLine p.val line wr)

end Sys2Proof.Machine
end

