-- ==== Sys2Proof/Machine/Tide.lean ====
section
/-! DEFINITION. What a chip does at a tide, the running of its time and its steps (05 R157, R166, R176, R179, R606,
04 R141, R144, 20 R553-R559). -/

namespace Sys2Proof.Machine

/-- Route epoch `e` becomes ACTIVE at the tide at time `T` (04 R141, R144): STAMP changes, the other epoch retires, FORCED
clears, and the markers for `e` are forgotten. -/
def State.activateRoute (s : State) (e T : Nat) : State :=
  let o := 1 - e
  let s := if s.repoch o = esACTIVE then
      { s.setRepoch o esRETIRING with rt := { s.rt with retireFrom := T } } else s
  let s := ((s.setRepoch e esACTIVE).setFld F.CTL_ROUTE_EPOCH_STAMP e).setFld F.CTL_ROUTE_EPOCH_FORCED 0
  { s with rt := { s.rt with drainIn := s.rt.drainIn.filter (fun m => m.1 != e),
                             drainOut := s.rt.drainOut.filter (fun m => m.1 != e) } }

/-- A PENDING route epoch whose tide has come. -/
def State.routeTide (s : State) (e : Nat) : State :=
  if s.repoch e = esPENDING ∧ s.rt.switchAt ≤ s.t then (s.activateRoute e s.rt.switchAt).drain else s

/-- Record `r` of an image conflicts: an entry names its output for one of its slot indices (05 R179). -/
def recordConflict (img : Nat) (r : XRec) : Bool :=
  (List.range 1024).any (fun i =>
    r.slots.any (fun k => schedEntry img i k == r.out || schedEntry img i ((k + r.bofs) % 4096) == r.bout))

/-- The valid records of epoch `e` are checked against its table (05 R179). -/
def State.conflictCheck (s : State) (e : Nat) : State :=
  ((s.validRecs e).filter (fun r => recordConflict (s.sched e) r.2)).foldl (fun s r =>
    (s.setXrec e r.1 { s.xrec e r.1 with valid := false }).bump Reg.TIM_XSRC_CONFLICT) s

/-- Cells that were to be sent again in a backup slot of a replaced epoch go back to their segments, as runs to send
again in the windows of the new one, `e`, whose reads made ahead stand (05 R177, R183, R185). -/
def State.resendLater (s : State) (e : Nat) : State :=
  let cells := (s.tim.resend.map (fun x => x.2.2)).flatten
  let s : State := { s with tim := { s.tim with resend := [], ready := s.tim.ready.filter (fun x => x.1 / 4096 == e) } }
  cells.foldl (fun s c => s.modConn c.handle (fun k => { k with segs := k.segs.map (fun g =>
    if g.seq = c.seq then { g with again := g.again ++ [(c.idx, 1)] } else g) })) s

/-- Schedule epoch `e` becomes ACTIVE at the tide at time `T` (05 R176, R177, R179, R185). -/
def State.activateSched (s : State) (e T : Nat) : State :=
  let o := 1 - e
  let s := if s.sepoch o = esACTIVE then
      { s.setSepoch o esRETIRING with tim := { s.tim with schedRetireFrom := T } } else s
  let s := (s.setSepoch e esACTIVE).setFld F.TIM_SCHED_EPOCH_STAMP e
  let s := s.resendLater e
  let s : State := { s with tim := { s.tim with
    recs := Map.mapV s.tim.recs (fun _ r => { r with pfail := false, bfail := false }) } }
  (s.endStanding blkTIM 5).conflictCheck e

/-- A PENDING schedule epoch whose tide has come. -/
def State.schedTide (s : State) (e : Nat) : State :=
  if s.sepoch e = esPENDING ∧ s.tim.schedSwitchAt ≤ s.t then s.activateSched e s.tim.schedSwitchAt else s

/-- The chip is ready to lock: 16 good exchanges in a row, or a root locked to 10 MHz with PPS aligned (05 R161, R163). -/
def State.lockReady (s : State) : Bool :=
  (s.timeState == tsACQUIRING || s.timeState == tsOUTLIER) &&
    (if s.isRoot then s.flag F.TIM_STATUS_TIME_IN_OK && s.tim.aligned
     else decide (16 ≤ s.fld F.TIM_STATUS_GOOD))

/-- The chip's own switch to the declared epoch of a kind, for the tide at time `T` (20 R559, 03 R101). -/
def State.autoSwitch (s : State) (kind e plan declared T : Nat) : State :=
  if s.epochOf kind e = esIDLE ∧ plan = declared ∧ s.epochOf kind (1 - e) ≠ esPENDING then
    (if kind = 0 then s.switchRoute e T else s.switchSched e T)
  else s

/-- AUTO at a tide, toward the tide at time `T` (20 R559). -/
def State.autoTide (s : State) (T : Nat) : State :=
  if s.joined || !s.flag F.MGT_PROFILE_CTRL_AUTO || !s.profileValid || s.timeState != tsLOCKED then s else
  let re := s.fld F.MGT_PROFILE_CTRL_REPOCH
  let se := s.fld F.MGT_PROFILE_CTRL_SEPOCH
  let s := s.autoSwitch 0 re (s.routePlan re) (s.rd Reg.MGT_PROFILE_RPLAN).toNat T
  if s.flag F.MGT_PROFILE_CTRL_SVALID then
    s.autoSwitch 1 se (s.schedPlan se) (s.rd Reg.MGT_PROFILE_SPLAN).toNat T
  else s

/-- The dump that falls due at tide `f`, the last one acted on being `last`: a crossed dump tide counts once, the others in
SKIPPED (05 R606, 19 R538). -/
def State.tideDump (s : State) (last f : Nat) : State :=
  let k := max 1 (s.fld F.CNT_CTRL_K)
  let d := f / k * k
  if d ≤ last ∨ s.flag F.CNT_CTRL_ENABLE = false ∨ s.hasTime = false then s else
  let s : State := { s with cnt := { s.cnt with skipped := min 0xFFFFFFFF (s.cnt.skipped + (f / k - last / k - 1)) } }
  s.dumpDue (d * 0x1400000) d

/-- Everything that takes effect at a tide: the last tide at or before the chip's time, unless it has been acted on
(05 R166, R606). -/
def State.atTide (s : State) : State :=
  let f := tideNo s.t
  let last := s.tim.lastTide
  if f ≤ last then s else
  let T := f * 0x1400000
  let s : State := { s with tim := { s.tim with lastTide := f } }
  let s : State := { s with mgt := { s.mgt with rootId := s.rd64 Reg.MGT_ROOT_ID } }
  let s := if s.lockReady then (s.setTime tsLOCKED).lateLaunches else s
  let s := (((s.routeTide 0).routeTide 1).schedTide 0).schedTide 1
  let s := (s.autoTide (T + 0x1400000)).progress
  (s.tideDigest T).tideDump last f

/-- The chip's time is stepped to `t` (05 R157, R606): a step forward across tides counts as reaching the last of them. -/
def State.stepTo (s : State) (t : Nat) : State :=
  ({ s with now := BitVec.ofNat 64 t, tim := { s.tim with slew := 0 } } : State).atTide

/-- While the chip PLLs are stopped, the coarse count alone runs, and the time goes on by whole crystal periods of 40 ns
(01 R28). -/
def State.tickCoarse (s : State) : State :=
  let c := s.tim.coarse + 1
  if c < ns 40 then { s with draws := s.draws + 1, tim := { s.tim with coarse := c } }
  else { s with now := BitVec.ofNat 64 ((s.t / ns 40 + 1) * ns 40), draws := s.draws + 1, tim := { s.tim with coarse := 0 } }

/-- The time is slewed: not in HOLDOVER, but at a root whose TIME_IN has returned (05 R157, R159, R163). -/
def State.slews (s : State) : Bool :=
  s.tim.slew != 0 && (s.timeState != tsHOLDOVER || (s.isRoot && s.flag F.TIM_STATUS_TIME_IN_OK))

/-- A time in HOLDOVER runs at the last steered rate (05 R159, R160). -/
def State.holds (s : State) : Bool := s.timeState == tsHOLDOVER && !s.slews

/-- The time runs by a sixteenth of a nanosecond, and slews by at most four units in a microsecond; how fast within that
the spec leaves open (05 R157; log entry 4). In HOLDOVER it keeps the last steered rate instead (R159). -/
def State.tickFine (s : State) : State :=
  let m := s.t / us 1
  let used := if m = s.tim.slewUs then s.tim.slewUsed else 0
  let adj := s.slews && used < 4 && Config.freeSlew s.draws
  let acc := if s.holds then s.tim.drift + s.tim.rate else 0
  let off := decide (us 1000 ≤ acc.natAbs)
  let d : Int := if adj then (if 0 < s.tim.slew then 1 else -1) else if off then (if 0 < acc then 1 else -1) else 0
  { s with now := s.now + 1#64 + BitVec.ofInt 64 d, draws := s.draws + 1,
           tim := { s.tim with slew := if adj then s.tim.slew - d else s.tim.slew, slewUsed := used + b2n adj, slewUs := m,
                               drift := if off then acc - d * us 1000 else acc } }

/-- One sixteenth of a nanosecond passes. -/
def State.tick (s : State) : State := if s.flag F.PWR_STATUS_PLL_RUN then s.tickFine else s.tickCoarse

end Sys2Proof.Machine
end

