-- ==== Sys2Proof/Machine/Time.lean ====
section
/-! DEFINITION. The meanings of the commands of the fabric-time unit (05 R152-R164, R176, 14 R431, 22 R590). -/

namespace Sys2Proof.Machine

open Host (Outcome)

/-- TIDE (05 R606). -/
def execTide (s : State) : Outcome State Fault Refusal := .next s.atTide

/-- A RETIRING schedule epoch becomes IDLE (05 R176). -/
def State.retireSched (s : State) (e : Nat) : State := if s.sepoch e = esRETIRING then s.setSepoch e esIDLE else s

/-- SCHEDULE_EPOCH_RETIRE (05 R176). -/
def execScheduleEpochRetire (s : State) : Outcome State Fault Refusal := .next ((s.retireSched 0).retireSched 1)

/-- The link that the chip follows can carry an exchange: FULL, and not in quarantine (05 R156). -/
def State.exchangeLink (s : State) : Option Nat :=
  let p := s.followed
  if s.follows && s.laneExists p && s.linkOf p == p && s.linkFull p && s.linkState p == lkUP then some p else none

/-- An exchange is missed (05 R161): the count of good ones restarts, and the third in a row loses the parent. -/
def State.exchangeMissed (s : State) : State :=
  let s := { s.setGood 0 with tim := { s.tim with xchg := none, missed := s.tim.missed + 1 } }
  if 3 ≤ s.tim.missed then s.parentLost else s

/-- An exchange starts: TS_REQ waits on the parent's link. One still without its answer is missed (05 R156, 14 R431). -/
def State.startExchange (s : State) : State :=
  match s.exchangeLink with
  | none => s
  | some _ =>
    let s := if s.tim.xchg.isSome then s.exchangeMissed else s
    match s.exchangeLink with
    | none => s
    | some p =>
      let n := (s.tim.xchgNo + 1) % 256
      ({ s with tim := { s.tim with xchgNo := n, xchg := some n, t4 := none } } : State).say p (mkWord wTSREQ n)

/-- TS_EXCHANGE (05 R156). -/
def execTsExchange (s : State) : Outcome State Fault Refusal := .next s.startExchange

/-- EXCHANGE_MISSED (05 R161). -/
def execExchangeMissed (s : State) : Outcome State Fault Refusal :=
  .next (if s.tim.xchg.isSome then s.exchangeMissed else s)

/-- TS_REQ (14 R431, 05 R156): a chip whose time is not UNSET answers, and records when the request came. -/
def execTsReq (l : LaneId) (num : BitVec 8) (s : State) : Outcome State Fault Refusal :=
  let p := s.linkOf l.val
  let s := s.heard p (mkWord wTSREQ num.toNat)
  .next (if !s.linkFull p || s.timeState == tsUNSET then s else
    ({ s with tim := { s.tim with t2 := Map.set s.tim.t2 p s.t } } : State).say p (mkWord wTSRESP num.toNat))

/-- TS_RESP (14 R431): t4 of the exchange it answers. -/
def execTsResp (l : LaneId) (num : BitVec 8) (s : State) : Outcome State Fault Refusal :=
  let p := s.linkOf l.val
  let s := s.heard p (mkWord wTSRESP num.toNat)
  .next (if s.followed == p && s.follows && s.tim.xchg == some num.toNat then
      { s with tim := { s.tim with t4 := some s.t } } else s)

/-- The time whose bits [31:0] are `lo` and which lies nearest to time `t`: the child restores bits [63:32] from its own
time (14 R431; log entry 61). -/
def restoreTime (t lo : Nat) : Int :=
  let c := t / 2 ^ 32 * 2 ^ 32 + lo
  if c + 2 ^ 31 < t then c + 2 ^ 32 else if t + 2 ^ 31 ≤ c then (c : Int) - 2 ^ 32 else c

/-- Half of a difference in sixteenths; which way an odd one rounds the spec leaves open (05 R156; log entry 62). -/
def halfOf (d : Int) (up : Bool) : Int := if d % 2 = 0 then d / 2 else if up then -((-d) / 2) else d / 2

/-- Offset and delay of the exchange (05 R156). -/
def State.measure (s : State) (t2 t3 : Nat) : Int × Int :=
  let x2 := restoreTime s.t t2
  let x3 := restoreTime s.t t3
  let a : Int := toSigned 16 (s.fld F.TIM_ASYM_ASYM)
  let out := x2 - s.tim.t1
  let back := (s.tim.t4.getD 0 : Int) - x3
  let up := Config.freeChoice s.draws % 2 == 1
  (halfOf (out - back - a) up, halfOf (out + back) up)

/-- Whether an exchange that ends with `offset` steps the time, and the state that it then has (05 R157, R160, R161). -/
def State.stepsBy (s : State) (offset : Int) : Option Nat :=
  let st := s.timeState
  if st = tsUNSET then some tsACQUIRING
  else if st = tsACQUIRING ∨ st = tsOUTLIER then (if s.tim.stepDue || outOffset offset then some st else none)
  else if outOffset offset then some tsOUTLIER else none

/-- The time is steered: `o` is to be slewed, and in HOLDOVER waits until it ends. The rate that the chip then runs at is
free, within the 1 ns per ms by which R159 bounds the error of one that holds it (05 R157, R159; log entry 4). -/
def State.steer (s : State) (o : Int) : State :=
  let r : Int := (Config.freeChoice s.draws % 33 : Nat) - 16
  { s.drawn with tim := { s.tim with slew := o, rate := if s.timeState = tsHOLDOVER then s.tim.rate else r } }

/-- The end of an exchange (05 R157, R160, R161). After the four exchanges of R159 the link goes back to the phase that its
register asks for. -/
def State.exchangeDone (s : State) (offset : Int) : State :=
  let back := s.tim.raised == 1
  let first := s.timeState == tsUNSET || !s.tim.held
  let s : State := { s with tim := { s.tim with xchg := none, missed := 0, held := true, raised := s.tim.raised - 1,
                                                stepped := s.tim.stepped || first } }
  let s := if back then s.requestPhase s.followed (s.fld (F.LNG_LANE_CTRL_PHASE_REQ s.followed)) wcSOFTWARE else s
  match s.stepsBy offset with
  | some st =>
    let s : State := { s.setGood 0 with tim := { s.tim with stepDue := false } }
    (s.setTime st).stepTo ((s.t : Int) + offset).toNat
  | none =>
    let s := s.steer offset
    if goodOffset offset then
      let s : State := { s.setGood (s.fld F.TIM_STATUS_GOOD + 1) with tim := { s.tim with lastGood := some s.t } }
      if s.timeState = tsHOLDOVER ∧ 4 ≤ s.fld F.TIM_STATUS_GOOD then (s.setTime tsLOCKED).progress else s
    else s.setGood 0

/-- The last TS_DATA of an exchange: TIM_OFFSET and TIM_DELAY hold its results (05 R156). A delay that the register's 24
bits cannot hold is a free value (log entry 62). -/
def State.finishExchange (s : State) (t2 t3 : Nat) : State :=
  let (offset, delay) := s.measure t2 t3
  let shown := if 0 ≤ delay ∧ delay < 2 ^ 24 then delay.toNat else (Config.freeWord s.draws).toNat
  let s := s.drawn.wr Reg.TIM_OFFSET (BitVec.ofInt 32 offset)
  let s := (s.setFld F.TIM_DELAY_DELAY shown).occur bkTIM 0x10 [0] 1
  s.exchangeDone offset

/-- TS_DATA (14 R431): the fourth word has come. -/
def execTsData (l : LaneId) (t2 : Word) (t3 : Word) (s : State) : Outcome State Fault Refusal :=
  let p := s.linkOf l.val
  .next (if s.follows && s.followed == p && s.tim.xchg.isSome && s.tim.t4.isSome then s.finishExchange t2.toNat t3.toNat
    else s)

/-- HOLDOVER_LIMIT (05 R157, R161): 1 ms in HOLDOVER; the time is kept, and stepped at the next exchange. -/
def execHoldoverLimit (s : State) : Outcome State Fault Refusal :=
  .next (if s.follows && s.timeState == tsHOLDOVER then
    { (s.setGood 0).setTime tsOUTLIER with tim := { s.tim with holdFrom := none, stepDue := true } } else s)

/-- HOLDOVER_LINK_RAISE (05 R159): the parent's link, held in HALF or NEW, goes to FULL for four exchanges. -/
def execHoldoverLinkRaise (s : State) : Outcome State Fault Refusal :=
  let p := s.followed
  .next (if s.follows && s.linkRuns p && !s.linkFull p then
    ({ s with tim := { s.tim with raised := 4 } } : State).startExitOf p wcSOFTWARE else s)

/-- A whole second of fabric time, and the one nearest to time `t` (05 R163). -/
def second : Nat := ns 1000000000
def nearestSecond (t : Nat) : Nat := (t + second / 2) / second * second

/-- A PPS edge at a root that is locked to the 10 MHz reference (05 R163): SET_ARM loads the time; a root that has left
UNSET steps once; else it slews toward the whole second. -/
def State.ppsAlign (s : State) : State :=
  let o : Int := (nearestSecond s.t : Int) - s.t
  let s : State :=
    if s.timeState = tsACQUIRING ∧ s.tim.stepped = false then
      let z := s.stepTo (nearestSecond s.t)
      { z with tim := { z.tim with stepped := true, aligned := true, held := true } }
    else { s.steer o with tim := { (s.steer o).tim with aligned := goodOffset o } }
  if s.timeState = tsHOLDOVER ∧ s.tim.aligned then (s.setTime tsLOCKED).progress else s

/-- The check of TIME_IN: TIME_IN_OK after three consecutive edges that meet it (22 R590). -/
def State.ppsCount (s : State) (valid : Bool) : State :=
  let n := if valid then min 3 (s.tim.ppsEdges + 1) else 0
  let s : State := { s with tim := { s.tim with ppsEdges := n } }
  if n = 3 then (s.setFlag F.TIM_STATUS_TIME_IN_OK true).endStanding blkTIM 2 else s

/-- SET_ARM loads TIM_SET at the edge (05 R163). -/
def State.loadSet (s : State) : State :=
  let t := (s.rd Reg.TIM_SET_HI ++ s.rd Reg.TIM_SET_LO).toNat
  let s := (s.setFlag F.TIM_CTRL_SET_ARM false).stepTo t
  { s with tim := { s.tim with stepped := true, aligned := t % second == 0, held := true } }

/-- A PPS edge (05 R161, R163, 22 R590). -/
def State.ppsEdge (s : State) (valid : Bool) : State :=
  if s.role = roleFOLLOWER then s else
  let s := s.ppsCount valid
  if !s.isRoot then s else
  let s := if s.timeState = tsUNSET ∧ valid = true then
      { s.setTime tsACQUIRING with tim := { s.tim with held := true, stepped := s.flag F.TIM_STATUS_ACTING_ROOT } } else s
  if s.role = roleROOT ∧ s.flag F.TIM_CTRL_SET_ARM = true then s.loadSet
  else if s.flag F.TIM_STATUS_TIME_IN_OK then s.ppsAlign else s

/-- PPS_EDGE (05 R163). -/
def execPpsEdge (valid : Bool) (s : State) : Outcome State Fault Refusal := .next (s.ppsEdge valid)

/-- TIME_IN is lost (05 R161, R163, 22 R590): TIME_IN_OK is 0; a LOCKED root goes into HOLDOVER, and
both faults are one raise (18 R514). -/
def State.timeInLost (s : State) : State :=
  if s.role = roleFOLLOWER then s else
  let had := s.flag F.TIM_STATUS_TIME_IN_OK
  let s : State := { s.setFlag F.TIM_STATUS_TIME_IN_OK false with tim := { s.tim with ppsEdges := 0, aligned := false } }
  if had && s.isRoot then
    if s.timeState = tsLOCKED then
      ((s.startHoldover.stand blkTIM 0).stand blkTIM 2).raiseTogether blkTIM [0, 2] 0 false
    else s.raiseStanding blkTIM 2 0
  else s

/-- TIME_IN_LOST (22 R590). -/
def execTimeInLost (s : State) : Outcome State Fault Refusal := .next s.timeInLost

/-- PPS_EDGE_LATE (22 R590). -/
def execPpsEdgeLate (s : State) : Outcome State Fault Refusal := .next s.timeInLost

/-- STANDBY_TAKEOVER (05 R164): without a step; a standby that never had time now acquires it from TIME_IN. -/
def execStandbyTakeover (s : State) : Outcome State Fault Refusal :=
  .next (if s.role == roleSTANDBY && !s.flag F.TIM_STATUS_ACTING_ROOT && s.flag F.TIM_STATUS_TIME_IN_OK then
      let s := (s.setFlag F.TIM_STATUS_ACTING_ROOT true).raiseStanding blkTIM 3 0
      let s := if s.timeState = tsUNSET then s.setTime tsACQUIRING else s
      { s with tim := { s.tim with xchg := none, missed := 0, stepped := true, aligned := false, held := true } }
    else s)

/-- A write of `w` to `TIM_CTRL` (05 R161, R162, R164): it ends the alternate and the acting root; a new role or parent
starts the time anew. -/
def State.timCtrlWrite (s : State) (w : Word) : State :=
  let role := if bits w 31 30 = 3 then s.role else bits w 31 30
  let changed := role != s.role || bits w 9 0 != s.fld F.TIM_CTRL_PARENT_PORT
  let s := ((s.setFld F.TIM_CTRL_ROLE role).setFld F.TIM_CTRL_ALT_EN (b2n (bit w 28))).setFld F.TIM_CTRL_ALT_PORT (bits w 25 16)
  let s := (s.setFld F.TIM_CTRL_PARENT_PORT (bits w 9 0)).setFlag F.TIM_CTRL_SET_ARM
    (role == roleROOT && (bit w 29 || s.flag F.TIM_CTRL_SET_ARM))
  let s := ((s.setFlag F.TIM_STATUS_ON_ALT false).setFlag F.TIM_STATUS_ACTING_ROOT false).endStanding blkTIM 3
  let s : State := if role = roleFOLLOWER then
      { s.setFlag F.TIM_STATUS_TIME_IN_OK false with tim := { s.tim with ppsEdges := 0 } } else s
  let s : State := { s with tim := { s.tim with xchg := none } }
  if !changed then s else
  let s : State := { s.setGood 0 with tim := { s.tim with missed := 0, aligned := false } }
  if s.timeState = tsUNSET then s
  else if !s.tim.held then s.setTime tsUNSET
  else { s.setTime tsACQUIRING with tim := { s.tim with holdFrom := none, stepDue := true } }

/-- TIM_CTRL_WRITE (05 R161). -/
def execTimCtrlWrite (w : Word) (s : State) : Outcome State Fault Refusal := .next (s.setup (s.timCtrlWrite w))

/-- SET_ARM (05 R163): the write of `TIM_CTRL` that sets it. -/
def execSetArm (w : Word) (s : State) : Outcome State Fault Refusal :=
  .next (s.setup (s.timCtrlWrite (w ||| 0x20000000#32)))

/-- A read of `TIM_NOW_LO` by `who` (05 R152). -/
def State.timNowRead (s : State) (who : Nat) : State :=
  s.readLow who Reg.TIM_NOW_LO (s.now.extractLsb' 0 32) (s.now.extractLsb' 32 32)

/-- TIM_NOW_READ (05 R152). -/
def execTimNowRead (who : Fin 9) (s : State) : Outcome State Fault Refusal := .next (s.timNowRead who.val)

/-- TIME_OUT_PULSE (05 R153, 22 R591): held low while UNSET. -/
def execTimeOutPulse (s : State) : Outcome State Fault Refusal :=
  .next (if s.timeState = tsUNSET then s else { s with tim := { s.tim with timeOut := s.tim.timeOut + 1 } })

end Sys2Proof.Machine
end

