-- ==== Sys2Proof/Machine/Work.lean ====
section
/-! DEFINITION. The meanings of the commands of work queues: polling, ring reads, takes, launches (02, 05 R191-R193). -/

namespace Sys2Proof.Machine

open Host (Outcome)

/-- The ring of queue `q` is read: a work ring through its instance's function, the admin rings through the control
owner's physical function; a suspended queue is not read (02 R38, 03 R76, 12 R389). -/
def State.ringServed (s : State) (q : Nat) (x : Queue) : Bool :=
  !s.halted && (if q = 0 then s.flag F.CTL_AQ_CTRL_ENABLE && s.ownerServed
    else if q = acqKey then s.ownerServed else s.served x.inst)

/-- The connections whose WM waits for an entry of completion queue `q` (06 R213): the next message is ready, and the queue
has no room for what it completes. -/
def State.wmWaits (s : State) (q : Nat) : List Nat :=
  (s.xpt.conns.filter (fun c => c.2.st == .opened && !s.stale c.2 &&
    c.2.rx.any (fun m => m.seq == (c.2.wm + 1) % 65536 && c.2.ready m &&
      decide (s.roomOf q < (s.dueQueues c.2 (s.dueOf c.1 c.2 m)).count q)))).map (·.1)

/-- The entry at the position is watched: always on a work queue, on a completion queue while a completion or an advance of WM
waits for it (02 R47, 06 R213). -/
def State.watched (s : State) (q : Nat) (x : Queue) : Bool := x.work || !x.waiting.isEmpty || !(s.wmWaits q).isEmpty

/-- A read of completion ring `q` found `n` entries free: waiting completions that have room are written, then the advances of
WM that waited are made (02 R55, 06 R213). -/
def State.ringRoom (s : State) (q : Nat) (x : Queue) (n : Nat) : State :=
  let hs := s.wmWaits q
  let s := (s.modQueue q (fun x => { x with room := n })).flushCq q x.waiting.length
  hs.foldl (fun s h => s.advanceWm h (fun _ => true)) s

/-- What a read of the ring found: `n` entries with OWN = 1 from the position on (02 R46-R48). Work found for a tile that is
not ACTIVE wakes it (17 R484). While the PLLs are stopped, what was found of a completion ring waits for their restart (02
R50). -/
def State.ringRead (s : State) (q : Nat) (x : Queue) (n : Nat) : State :=
  let s : State := { s with hpt := { s.hpt with reread := s.hpt.reread.filter (· != q) } }
  if x.work then
    let s := s.modQueue q (fun x => { x with found := n })
    if n = 0 then s
    else if !s.flag F.PWR_STATUS_PLL_RUN || !s.tileActive (s.servingTile (q % 64)) then s.wakeQueue q else s
  else if s.flag F.PWR_STATUS_PLL_RUN then s.ringRoom q x n
  else
    let s := s.modQueue q (fun x => { x with room := n })
    if n = 0 then s else s.wakeQueue q

/-- A poll: it counts as stretched if it was issued at the interval of a floor above the queue's own code; the floor that is
in force now sets the next interval (02 R49-R51). -/
def State.poll (s : State) (q n : Nat) (running : Bool) : State :=
  match s.queue? q with
  | none => s
  | some x =>
    if x.coherent || !s.watched q x || !s.ringServed q x || s.flag F.PWR_STATUS_PLL_RUN != running then s else
    let s := if x.k < x.floor then s.bump Reg.CTL_POLL_STRETCH else s
    ((s.setFloor q).occurCtl 0x14).ringRead q x n

/-- After a restart of the PLLs the woken queues are read at once (02 R50): what the reads made meanwhile found of the
completion rings serves what waits for them. -/
def State.readWoken (s : State) : State :=
  s.obj.queues.foldl (fun s q => match s.queue? q.1 with
    | some x => if x.work || x.room = 0 || !s.watched q.1 x || !s.ringServed q.1 x then s else s.ringRoom q.1 x x.room
    | none => s) s

/-- POLL (02 R47). -/
def execPoll (q : Nat) (n : Nat) (s : State) : Outcome State Fault Refusal := .next (s.poll q n true)

/-- AON_POLL (02 R50). -/
def execAonPoll (q : Nat) (n : Nat) (s : State) : Outcome State Fault Refusal := .next (s.poll q n false)

/-- The re-read of a COHERENT queue's line. While the PLLs are stopped any snoop is a wake event (02 R50). -/
def State.snoop (s : State) (q n : Nat) : State :=
  match s.queue? q with
  | none => s
  | some x =>
    if !x.coherent || !s.watched q x || !s.ringServed q x then s else
    let s := s.occurCtl 0x15
    let s := if !s.flag F.PWR_STATUS_PLL_RUN && n = 0 then s.wakeQueue q else s
    s.ringRead q x n

/-- SNOOP (02 R47, R50). -/
def execSnoop (q : Nat) (n : Nat) (s : State) : Outcome State Fault Refusal := .next (s.snoop q n)

/-- A ring read fails (02 R601): it counts as not made, and its host port raises POISON or CPL_TIMEOUT; on a COHERENT
queue and for a completion check read it is made again after 64 us. A failed read of the admin work ring is AQ_READ
(18 R525). -/
def State.ringError (s : State) (q : Nat) (timeout : Bool) : State :=
  match s.queue? q with
  | none => s
  | some x =>
    if q = 0 then
      (if s.flag F.CTL_AQ_CTRL_ENABLE then (s.raise blkCTL 0 x.pos).aqStop else s)
    else
      let p := if q = acqKey then s.owner else s.portOf x.inst
      let f := if q = acqKey then 0 else s.fnOf x.inst
      let s := s.raise (blkHPT p) (if timeout then 3 else 2) f
      if (x.coherent || !x.work) && !s.hpt.reread.contains q then
        { s with hpt := { s.hpt with reread := s.hpt.reread ++ [q] } } else s

/-- RING_READ_ERROR (02 R601). -/
def execRingReadError (q : Nat) (timeout : Bool) (s : State) : Outcome State Fault Refusal := .next (s.ringError q timeout)

/-- RING_REREAD_TIMER (02 R601): the entry is read again; while the ring is not served, the re-read goes on waiting. -/
def execRingRereadTimer (q : Nat) (n : Nat) (s : State) : Outcome State Fault Refusal :=
  .next (match s.queue? q with
    | none => s
    | some x => if s.hpt.reread.contains q && s.ringServed q x then s.ringRead q x n else s)

/-- CQ_ENTRY_RETURNED (02 R55): waiting completions are written in order into the entries returned. -/
def execCqEntryReturned (q : Nat) (n : Nat) (s : State) : Outcome State Fault Refusal :=
  .next (match s.queue? q with
    | none => s
    | some x => if x.work || !s.watched q x || !s.ringServed q x then s else s.ringRead q x n)

/-- SEND (07 R242-R244, R265). -/
def execSend (q : QueueId) (e : Entry) (v : View) (s : State) : Outcome State Fault Refusal :=
  .next ((s.see v).take q.val opSEND e)

/-- POST_RECV (07 R245, R246, R254). -/
def execPostRecv (q : QueueId) (e : Entry) (v : View) (s : State) : Outcome State Fault Refusal :=
  .next ((s.see v).take q.val opPOSTRECV e)

/-- WRITE (08 R283, R285). -/
def execWriteMsg (q : QueueId) (e : Entry) (v : View) (s : State) : Outcome State Fault Refusal :=
  .next ((s.see v).take q.val opWRITE e)

/-- WRITE_IMM (08 R283, R286). -/
def execWriteImm (q : QueueId) (e : Entry) (v : View) (s : State) : Outcome State Fault Refusal :=
  .next ((s.see v).take q.val opWRITEIMM e)

/-- READ (08 R284, R288). -/
def execReadMsg (q : QueueId) (e : Entry) (v : View) (s : State) : Outcome State Fault Refusal :=
  .next ((s.see v).take q.val opREAD e)

/-- ATOMIC (09 R310, R313). -/
def execAtomic (q : QueueId) (e : Entry) (v : View) (s : State) : Outcome State Fault Refusal :=
  .next ((s.see v).take q.val opATOMIC e)

/-- LOCK_ACQUIRE (09 R321). -/
def execLockAcquire (q : QueueId) (e : Entry) (v : View) (s : State) : Outcome State Fault Refusal :=
  .next ((s.see v).take q.val opACQUIRE e)

/-- LOCK_RELEASE (09 R321). -/
def execLockRelease (q : QueueId) (e : Entry) (v : View) (s : State) : Outcome State Fault Refusal :=
  .next ((s.see v).take q.val opRELEASE e)

/-- COLLECTIVE (10 R337-R342). -/
def execCollective (q : QueueId) (e : Entry) (v : View) (s : State) : Outcome State Fault Refusal :=
  .next ((s.see v).take q.val opCOLLECTIVE e)

/-- CANCEL_RECV (07 R274). -/
def execCancelRecv (q : QueueId) (e : Entry) (v : View) (s : State) : Outcome State Fault Refusal :=
  .next ((s.see v).take q.val opCANCEL e)

/-- NOP (02 R58). -/
def execNop (q : QueueId) (e : Entry) (v : View) (s : State) : Outcome State Fault Refusal :=
  .next ((s.see v).take q.val opNOP e)

/-- LAUNCH_POWER_RAISE (05 R193). -/
def execLaunchPowerRaise (k : Nat) (s : State) : Outcome State Fault Refusal :=
  .next (match s.slot? k with
    | some x => if x.phase = .launch then s.raiseFor x.queue x.desc else s
    | none => s)

/-- LAUNCH_START (05 R191, R192): a held launch starts. -/
def execLaunchStart (k : Nat) (v : View) (s : State) : Outcome State Fault Refusal := .next ((s.see v).launchNow k)

end Sys2Proof.Machine
end

