-- ==== Sys2Proof/Machine/Power.lean ====
section
/-! DEFINITION. The meanings of the commands of the power controller: requests and refusals, the sequences with their abort
points, retention, temperature, the whole-chip eclipse (17 R479-R509). -/

namespace Sys2Proof.Machine

open Host (Outcome)

/-- The rows of the retention budget (17 R500): the reading up to which a row holds, and the current of a bank in tenths of a
milliampere. -/
def retentionRows : List (Nat × Nat) := [(45, 10), (65, 20), (75, 28), (85, 34), (95, 44), (105, 55)]

/-- The most banks within 32 mA at a reading (17 R500). -/
def banksAllowed (temp : Nat) : Nat :=
  match retentionRows.find? (fun r => decide (temp ≤ r.1)) with
  | some r => min 8 (320 / r.2)
  | none => 0

/-- The number of banks that a selection names. -/
def banksIn (sel : Nat) : Nat := ((List.range 8).filter sel.testBit).length

/-- The links whose lowest lane lies in tile `t`. -/
def State.tileLinks (s : State) (t : Nat) : List Nat := s.linkIds.filter (fun p => tileOf p == t)

/-- An engine task is in progress on tile `t`, in a slot or in the queue (01 R20, R21, R23). -/
def State.engineBusy (s : State) (t : Nat) : Bool := s.pwr.tasks.any (fun x => x.tile == t)

/-- The cell store of tile `t` holds a cell (01 R17). -/
def State.storeHolds (s : State) (t : Nat) : Bool :=
  let mine := fun (c : HeldCell) => match c.inp with | some l => tileOf l == t | none => false
  s.rt.held.any mine || s.rt.delivered.any mine || s.rt.outQ.any (fun q => q.2.any mine) ||
    s.tim.transitIn.any (fun c => tileOf c.1 == t) ||
    s.tim.transitOut.any (fun q => q.2.any (fun d => match d.inp with | some l => tileOf l == t | none => false))

/-- A cell was sent or received on a lane of tile `t` within the last 2 us. -/
def State.lanesBusy (s : State) (t : Nat) : Bool :=
  (List.range 16).any (fun i => match (s.lane (16 * t + i)).lastCell with
    | some x => decide (s.t < x + us 2)
    | none => false)

/-- A held launch needs tile `t` within 50 us (05 R193). -/
def State.launchDue (s : State) (t : Nat) : Bool :=
  s.heldLaunches.any (fun x => decide (dTime x.2.desc ≤ s.t + us 50) &&
    ((s.launchTiles x.2.queue x.2.desc).contains t ||
      (match (s.linkNeed x.2.desc).2 with | some p => tileOf p == t | none => false)))

/-- The posted receives of the match slice of tile `t` do not fit in the free overflow entries of their instances
(07 R253, 17 R488). -/
def State.overflowFull (s : State) (t : Nat) : Bool :=
  (List.range s.nInst).any (fun i =>
    let mine := s.mat.posted.filter (fun x => slotInst x.1 == i)
    decide (16777216 / max 1 s.nInst < (mine.filter (fun x => x.2.isNone || x.2 == some t)).length))

/-- The first refuser of an entry to state `r` (17 R488). -/
def State.refuser (s : State) (t r : Nat) : Option Nat :=
  let deep := r != psDOZE
  ([(1, s.engineBusy t), (2, s.lanesBusy t || s.storeHolds t),
    (3, ((List.range 16).map (fun k => s.linkOf (16 * t + k))).any (fun p => s.heldLink p || (deep && s.inSchedule p))), (4, deep && s.launchDue t),
    (5, r == psECLIPSE && decide (banksAllowed (s.fld (F.PWR_TILE_TEMP_TEMP t)) < banksIn (s.fld (F.PWR_TILE_CTRL_RET_SEL t)))),
    (6, deep && t == 0 && (r == psOFF || (s.queue? 0).any (fun q => q.found != 0))),
    (7, deep && s.col.groups.any (fun g => s.servingTile (ownerTile g.1) == t && !g.2.ops.isEmpty)),
    (8, deep && s.overflowFull t)].find? (fun (x : Nat × Bool) => x.2)).map (·.1)

/-- The links of tile `t` that LANES of sequence `q` still has to bring down: not DOWN, and neither in HALF (sequence 0 only)
nor in NEW (17 R491, 01 R27). -/
def State.lanesLeft (s : State) (t q : Nat) : List Nat :=
  ((List.range 16).map (16 * t + ·)).filter (fun l => s.linkOf l == l && s.linkState l != lkDOWN &&
    !(s.linkRuns l && (s.fld (F.LNG_LANE_STATUS_PHASE l) == phNEW || (q == 0 && s.fld (F.LNG_LANE_STATUS_PHASE l) == phHALF))))

/-- LANES starts (17 R491): the tile's links go down to the phase of the sequence, and their phases before are kept. A link in
HALF, which carries no word, goes to NEW at this end at once (log entry 92). -/
def State.beginLanes (s : State) (t q : Nat) : State :=
  let ps := s.tileLinks t
  let before := fun p => if s.fld (F.LNG_LANE_STATUS_PHASE p) = phCHANGING then phFULL else s.fld (F.LNG_LANE_STATUS_PHASE p)
  let s := s.modTile t (fun x => { x with phases := ps.map (fun p => (p, before p)) })
  ps.foldl (fun s p =>
    let ph := s.fld (F.LNG_LANE_STATUS_PHASE p)
    if ph = phFULL then s.requestPhase p (if q = 0 then phHALF else phNEW) 0
    else if q ≠ 0 ∧ ph = phHALF ∧ s.holdsPhase p phNEW = false then s.setLinkPhase p phNEW
    else s) s

/-- LANES has links left to bring down: it asks again for those that have come to FULL, and a link that the schedule keeps
(05 R194) acts as a wake event (17 R489). -/
def State.lanesWait (s : State) (t q : Nat) : State :=
  let left := s.lanesLeft t q
  let s := left.foldl (fun s p =>
    if s.linkFull p && (s.link p).phaseAsk.isNone && (s.link p).phaseDue.isNone then
      s.requestPhase p (if q = 0 then phHALF else phNEW) 0
    else s) s
  if (s.tile t).wake.isNone && left.any (fun p => s.holdsPhase p (if q = 0 then phHALF else phNEW)) then s.wakeEvent t 3 else s

/-- Step `k` of the running sequence begins (17 R490). -/
def State.beginStep (s : State) (t q k : Nat) : State :=
  let s := s.setFld (F.PWR_TILE_STATUS_STEP t) k
  if seqAction (s.tile t).table q k = acLANES then s.beginLanes t q else s

/-- An entry to state `r` starts, unless a refuser applies (17 R488). -/
def State.startEntry (s : State) (t r : Nat) : State :=
  match s.refuser t r with
  | some n => ((s.bump (Reg.PWR_TILE_REFUSED t n)).setFld (F.PWR_TILE_STATUS_LAST_CAUSE t) n).occur bkPWR 0x12 [t, 64] 1
  | none =>
    let q := if r = psDOZE then 0 else 1
    let s := s.startSeq t q r r 0
    let sel := if r = psECLIPSE then s.fld (F.PWR_TILE_CTRL_RET_SEL t) else 0
    let s := s.modTile t (fun x => { x with sel := sel, brown := false, phases := [] })
    s.beginStep t q (nextStep (s.tile t).table q r 16 0)

/-- A request for state `r` of tile `t`, not a wake event (17 R480, R485): `cause` is LAST_CAUSE for a request for
ACTIVE. -/
def State.requestTile (s : State) (t r cause : Nat) : State :=
  if s.tileChanging t then
    if s.tileTarget t = r then s.bump (Reg.PWR_TILE_DROPPED t)
    else if s.tileLatched t && (s.tile t).latchWake.isSome then s.bump (Reg.PWR_TILE_DROPPED t)
    else (s.latchReq t r none).modTile t (fun x => { x with latchBy := cause })
  else if s.tileState t = r then s.bump (Reg.PWR_TILE_DROPPED t)
  else if r = psACTIVE then s.startExit t psACTIVE cause
  else if s.tileState t = psACTIVE then s.startEntry t r
  else s.startExit t r 0

/-- The latched request is issued as a new one (17 R485). -/
def State.issueLatch (s : State) (t : Nat) : State :=
  if s.tileChanging t || !s.tileLatched t then s else
  let r := s.fld (F.PWR_TILE_STATUS_LATCH_STATE t)
  let x := s.tile t
  let s := ((s.setFld (F.PWR_TILE_STATUS_LATCHED t) 0).setFld (F.PWR_TILE_STATUS_LATCH_STATE t) 0).modTile t
    (fun x => { x with latchWake := none })
  match x.latchWake with
  | some c => s.wakeEvent t c
  | none => s.requestTile t r x.latchBy

/-- The retention bank, in its tile, of on-die entry `n` of instance `i` (17 R500). -/
def State.bankOfEntry (s : State) (i n : Nat) : Nat := (i * (65536 / max 1 s.nInst) + n) / 64 / 128

/-- The banks of tile `t` that `mask` names lose their contexts; the backup copies stay (17 R482, R501). -/
def State.loseBanks (s : State) (t mask : Nat) : State :=
  { s with xpt := { s.xpt with conns := s.xpt.conns.map (fun x => match x.2.place with
      | .onDie n => if s.ctxTile x.2.inst n = t ∧ mask.testBit (s.bankOfEntry x.2.inst n) = true then
          (x.1, { x.2 with place := .backup n }) else x
      | _ => x) } }

/-- The posted receives of the match slice of tile `t` move to overflow (17 R491 EVICT). -/
def State.evictPosted (s : State) (t : Nat) : State :=
  { s with mat := { s.mat with posted := s.mat.posted.map (fun x => if x.2 = some t then (x.1, none) else x) } }

/-- An entry is complete: the tile is in state `r` (17 R479, R481, R482). -/
def State.entryDone (s : State) (t r : Nat) : State :=
  let s := ((s.setFld (F.PWR_TILE_STATUS_STATE t) r).bump (Reg.PWR_TILE_ENTRIES t)).occur bkPWR 0x10 [t, 64] 1
  if r = psDOZE then s else
  let keep := (s.tile t).sel
  let s := (s.loseBanks t (255 - keep)).setFld (F.PWR_TILE_STATUS_RET_VALID t) keep
  let s : State := { s with xlt := { s.xlt with tlb := Map.erase s.xlt.tlb t } }
  let s := if r = psOFF then (List.range 16).foldl (fun s i =>
      let l := 16 * t + i
      (if s.linkOf l = l then s.linkOffHere l else s).modLane l (fun k => { k with due := false })) s else s
  s.pllCheck

/-- Tile `t` takes tasks again, and the training that waited for it starts (01 R21, R27). -/
def State.tileBack (s : State) (t : Nat) : State :=
  (s.startTraining (((List.range 16).map (16 * t + ·)).filter (fun l => (s.lane l).due))).dispatch t

/-- RESUME (17 R480, R491): the tile is ACTIVE. After OFF its links train again. -/
def State.resumeTile (s : State) (t : Nat) : State :=
  let off := s.tileState t = psOFF
  let s := (s.setFld (F.PWR_TILE_STATUS_STATE t) psACTIVE).setFld (F.PWR_TILE_STATUS_RET_VALID t) 0
  let s := if off then s.startTraining ((List.range 16).map (16 * t + ·)) else s
  ((s.tileLinks t).foldl (fun s p => s.exitCheck p) s).tileBack t

/-- VERIFY (17 R501-R503): `codes` are the check codes of banks 0-7 as recomputed. -/
def State.verifyBanks (s : State) (t : Nat) (codes : List Word) : State :=
  let x := s.tile t
  let bad := (List.range 8).filter (fun b => x.sel.testBit b &&
    (x.brown || codes[b]? != some (s.rd (Reg.PWR_BANK_CODE (8 * t + b)))))
  let mask := (bad.map (2 ^ ·)).sum
  let s := s.setFld (F.PWR_TILE_STATUS_RET_VALID t) (x.sel - mask)
  if bad.isEmpty then s else
  let s := ((s.bumpBy (Reg.PWR_TILE_CHECK_FAIL t) bad.length).loseBanks t mask).modTile t (fun x => { x with reload := mask })
  s.raise (blkTIL t) 0 (mask + 256 * b2n x.brown)

/-- The end of a sequence: the second half of a change between two states that are not ACTIVE, then the latch (17 R480,
R485). -/
def State.finishChange (s : State) (t : Nat) : State :=
  let r := s.tileTarget t
  let final := (s.tile t).final
  let s := ((s.setFld (F.PWR_TILE_STATUS_CHANGING t) 0).setFld (F.PWR_TILE_STATUS_STEP t) 0).modTile t
    (fun x => { x with seqNo := none, phases := [], wake := none })
  let s := if r = psACTIVE then s else s.entryDone t r
  let s := if r = psACTIVE ∧ final ≠ psACTIVE then s.startEntry t final else s
  s.issueLatch t

/-- The entry is unwound (17 R494): links go back to their phases, and the tile is ACTIVE. -/
def State.unwind (s : State) (t cause : Nat) : State :=
  let ps := (s.tile t).phases
  let s := ((s.bump (Reg.PWR_TILE_ABORTS t)).setFld (F.PWR_TILE_STATUS_LAST_CAUSE t) cause).occur bkPWR 0x11 [t, 64] 1
  let s := ((s.setFld (F.PWR_TILE_STATUS_CHANGING t) 0).setFld (F.PWR_TILE_STATUS_TARGET t) psACTIVE).setFld
    (F.PWR_TILE_STATUS_STEP t) 0
  let s := s.modTile t (fun x => { x with seqNo := none, phases := [], wake := none })
  let s := ps.foldl (fun s p => (s.modLink p.1 (fun k => { k with phaseAsk := none })).requestPhase p.1 p.2 cause) s
  (s.tileBack t).issueLatch t

/-- The step after step `k`: the end, an abort test, or the next action (17 R490, R494). -/
def State.nextAction (s : State) (t q k : Nat) : State :=
  let x := s.tile t
  let n := nextStep x.table q (s.tileTarget t) 16 (k + 1)
  if 16 ≤ n ∨ seqAction x.table q n = acEND then s.finishChange t
  else match x.wake with
    | some c => if seqAbort x.table q n then s.unwind t c else s.beginStep t q n
    | none => s.beginStep t q n

/-- What a finished step has done (17 R491). -/
def State.stepEffect (s : State) (t a : Nat) (codes : List Word) : State :=
  if a = acEVICT then s.evictPosted t
  else if a = acCHECK then (List.range 8).foldl (fun s b => match codes[b]? with
    | some c => if (s.tile t).sel.testBit b then s.wr (Reg.PWR_BANK_CODE (8 * t + b)) c else s
    | none => s) s
  else if a = acVERIFY then s.verifyBanks t codes
  else if a = acRESUME then s.resumeTile t
  else s

/-- The running step of tile `t` finishes (17 R491). DRAIN ends only once nothing is left, and LANES once the links are in
HALF or NEW (01 R27), unless a wake unwinds it (R494); without power good the chip halts (18 R525). -/
def State.stepDone (s : State) (t : Nat) (codes : List Word) (good : Bool) : State :=
  match (s.tile t).seqNo with
  | none => s
  | some q =>
    let k := s.fld (F.PWR_TILE_STATUS_STEP t)
    let a := seqAction (s.tile t).table q k
    if !s.tileChanging t || (a == acDRAIN && (s.engineBusy t || s.storeHolds t)) then s
    else if a == acLANES && !(s.lanesLeft t q).isEmpty then
      let s := s.lanesWait t q
      if (s.tile t).wake.isSome && seqAbort (s.tile t).table q (nextStep (s.tile t).table q (s.tileTarget t) 16 (k + 1)) then
        s.nextAction t q k
      else s
    else if a == acPOWERON && !good then s.raise blkPWR 0 t
    else (s.stepEffect t a codes).nextAction t q k

/-- SEQUENCE_STEP_DONE (17 R491, R494). -/
def execSequenceStepDone (t : TileId) (codes : List Word) (powerGood : Bool) (s : State) : Outcome State Fault Refusal :=
  .next (s.stepDone t.val codes powerGood)

/-- PWR_TILE_REQ (17 R485): a write of `w`. -/
def execPwrTileReq (t : TileId) (w : Word) (sideband : Bool) (s : State) : Outcome State Fault Refusal :=
  .next (s.setup (s.requestTile t.val (bits w 1 0) (if sideband then wcSIDEBAND else wcSOFTWARE)))

/-- WAKE_EVENT (17 R484, R485, R489): a wake event, or, during an entry, a refuser's condition with its code. -/
def execWakeEvent (t : TileId) (cause : BitVec 8) (s : State) : Outcome State Fault Refusal :=
  let c := cause.toNat
  let entering := s.tileChanging t.val && s.tileTarget t.val != psACTIVE
  .next (if (0x10 ≤ c && c ≤ 0x17) || (1 ≤ c && c ≤ 8 && entering) then s.wakeEvent t.val c else s)

/-- STANDING_RETURN (17 R487): IDLE has passed while the tile was ACTIVE and no refuser applied. -/
def execStandingReturn (t : TileId) (s : State) : Outcome State Fault Refusal :=
  let r := s.fld (F.PWR_TILE_CTRL_STANDING t.val)
  .next (if r = psACTIVE ∨ s.fld F.PWR_CTRL_IDLE = 0 ∨ s.tileState t.val ≠ psACTIVE ∨ s.tileChanging t.val = true then s
    else s.requestTile t.val r wcSOFTWARE)

/-- What the time was known by is forgotten: it is to be acquired again (05 R161). -/
def State.acquireAgain (s : State) : State :=
  { s with tim := { s.tim with xchg := none, missed := 0, aligned := false, holdFrom := none, stepDue := true, coarse := 0 } }

/-- PLL_LOCK (17 R508, 05 R161): the restarted PLLs have locked; the time is acquired again, from any state. -/
def execPllLock (s : State) : Outcome State Fault Refusal :=
  .next (
    if !s.pwr.pllStarting then s else
    let s : State := { s with pwr := { s.pwr with pllStarting := false } }
    let s := (s.setFld F.PWR_STATUS_PLL_RUN 1).setFld F.PWR_STATUS_CHIP_ECLIPSE 0
    (((s.setGood 0).setTime tsACQUIRING).acquireAgain).readWoken)

/-- BANK_RELOAD (17 R503): the contexts of a bank that VERIFY invalidated are back from their backup copies. -/
def execBankReload (t : TileId) (b : Fin 8) (s : State) : Outcome State Fault Refusal :=
  .next (
    if !(s.tile t.val).reload.testBit b.val || !s.tileActive t.val || !s.memReady then s else
    let s := s.modTile t.val (fun x => { x with reload := x.reload - 2 ^ b.val })
    { s with xpt := { s.xpt with conns := s.xpt.conns.map (fun x => match x.2.place with
        | .backup n => if s.ctxTile x.2.inst n = t.val ∧ s.bankOfEntry x.2.inst n = b.val then
            (x.1, { x.2 with place := .onDie n }) else x
        | _ => x) } })

/-- The temperature faults of the chip after a reading, one raise where it is both (18 R514, R525). -/
def State.thermalFaults (s : State) (t temp : Nat) : State :=
  let hot := (List.range 64).any (fun u => decide (100 ≤ s.fld (F.PWR_TILE_TEMP_TEMP u)))
  let warns := decide (100 ≤ temp) && !s.flt.standing.contains (fltKey blkPWR 1)
  let s := if hot then (if warns then s.stand blkPWR 1 else s) else s.endStanding blkPWR 1
  s.raiseTogether blkPWR ((if warns then [1] else []) ++ (if 115 ≤ temp then [2] else [])) (t + 256 * temp) false

/-- The selection of a tile in ECLIPSE, or on its way there, no longer fits the budget at the reading (17 R489, R502). -/
def State.thermalWake (s : State) (t temp : Nat) : State :=
  if banksAllowed temp < banksIn (s.tile t).sel then
    if s.tileState t = psECLIPSE ∧ s.tileChanging t = false then (s.bump (Reg.PWR_TILE_THERMAL_WAKE t)).wakeEvent t wcTHERMAL
    else if s.tileChanging t = true ∧ s.tileTarget t = psECLIPSE then s.wakeEvent t 5
    else s
  else s

/-- THERMAL_SAMPLE (17 R500, R502). -/
def execThermalSample (t : TileId) (temp : BitVec 8) (s : State) : Outcome State Fault Refusal :=
  let n := temp.toNat
  let s := (s.setFld (F.PWR_TILE_TEMP_TEMP t.val) n).setFld (F.PWR_TILE_TEMP_ALLOWED t.val) (banksAllowed n)
  .next ((s.thermalFaults t.val n).thermalWake t.val n)

/-- BROWNOUT (17 R502). -/
def execBrownout (t : TileId) (s : State) : Outcome State Fault Refusal :=
  .next ((s.setFld (F.PWR_TILE_TEMP_BROWNOUT t.val) 1).modTile t.val (fun x => { x with brown := true }))

end Sys2Proof.Machine
end

