-- ==== Sys2Proof/Machine/Routes.lean ====
section
/-! DEFINITION. The meanings of the commands of routing (04). -/

namespace Sys2Proof.Machine

open Host (Outcome)

/-- A write of `CTL_ENDPOINT` (04 R122): the address is written once after each device reset. -/
def State.endpointWrite (s : State) (w : Word) : State :=
  if s.addressed then s else s.wr Reg.CTL_ENDPOINT ((w &&& 0x1FFFF#32) ||| 0x80000000#32)

/-- ENDPOINT_WRITE (04 R122). -/
def execEndpointWrite (w : Word) (s : State) : Outcome State Fault Refusal := 
  .next (s.setup (s.endpointWrite w))

/-- ROUTE (04 R127): the chip handles one cell that it holds. -/
def execRoute (k : Nat) (s : State) : Outcome State Fault Refusal :=
  .next (match s.rt.held[k]? with
    | none => s
    | some h => ({ s with rt := { s.rt with held := s.rt.held.eraseIdx k } }).routeCell h)

/-- The chip keeps a marker for an epoch that is ACTIVE or RETIRING, and makes what progress it allows (04 R144). -/
def State.takeDrain (s : State) (p : Nat) (c : Cell) : State :=
  let e := c.pb 0 1 % 2
  let h := c.pb 1 1 % 16
  if s.repoch e = esACTIVE ∨ s.repoch e = esRETIRING then
    let m := (e, h, p)
    let s := if s.rt.drainIn.contains m then s else { s with rt := { s.rt with drainIn := s.rt.drainIn ++ [m] } }
    s.drainEpoch e
  else s

/-- DRAIN (04 R144). A routed one, which R600 does not have, is taken with no effect (log entry 158). -/
def execDrain (l : LaneId) (c : Cell) (s : State) : Outcome State Fault Refusal :=
  .next (s.receiveMgmt c mgDRAIN (fun s => if c.linkLocal then s.takeDrain (s.linkOf l.val) c else s))

/-- The forced retirement of epoch `e` (04 R144, R141). -/
def State.forceRetire (s : State) (e : Nat) : State :=
  if s.repoch e ≠ esRETIRING then s else
  let s := s.dropStamped e
  let s := (List.range (s.fld F.CTL_ROUTE_CTRL_HOP_LIMIT + 1)).foldl (fun s h => s.sendDrain e h) s
  (s.setFld F.CTL_ROUTE_EPOCH_FORCED 1).setRepoch e esIDLE

/-- FORCED_RETIREMENT (04 R144): 50 us after the tide of the switch. -/
def execForcedRetirement (s : State) : Outcome State Fault Refusal := .next ((s.forceRetire 0).forceRetire 1)

end Sys2Proof.Machine
end

