-- ==== Sys2Proof/Machine/StartUp.lean ====
section
/-! DEFINITION. The meanings of the commands of power, start-up, reset, agreement and the test access port (20 R543-R561, 21
R570, 22 R585-R595, 18 R521-R523). -/

namespace Sys2Proof.Machine

open Host (Outcome)

/-- POWER_UP (20 R543, R544, 22 R594): PWR_GOOD rises. The straps are sampled the first time after VDD_AON came up. -/
def execPowerUp (owner : Fin 8) (sbOnly : Bool) (sbAddr : Fin 16) (s : State) : Outcome State Fault Refusal :=
  .next (
    if s.mgt.pwrGood then s else
    let s : State := if s.mgt.sampled then s else
      { s with part := { s.part with ownerSel := owner, sbOnly := sbOnly, sbAddr := sbAddr } }
    let s : State := { s with mgt := { s.mgt with pwrGood := true, vddAon := true, sampled := true } }
    s.setFld F.MGT_STATUS_STEP 2)

/-- The chip can take step `k` of the start-up: PWR_GOOD and RESET_N are high and no sticky FATAL is held (20 R544, 18 R522,
22 R585). -/
def State.atStep (s : State) (k : Nat) : Bool :=
  s.mgt.pwrGood && s.mgt.resetN && !s.flag F.MGT_FLT_PIN_STICKY && !s.mgt.resetDue && s.fld F.MGT_STATUS_STEP == k

/-- The flash header breaks a rule of 20 R547, with the address of the field that does. -/
def headerFault (x : Nat) : Option Nat :=
  if x % 2 ^ 32 ≠ 0x4E584246 then some 0
  else if x / 256 ^ 4 % 65536 ≠ 1 then some 4
  else if imageCrc 256 (x % 256 ^ 12 + x / 256 ^ 16 % 256 ^ 240 * 256 ^ 16) ≠ x / 256 ^ 12 % 2 ^ 32 then some 12
  else none

/-- An image entry of the header covers behaviour level `pin` (20 R548). -/
def levelCovered (x pin : Nat) : Bool :=
  (List.range (x / 256 ^ 8 % 16)).any (fun j =>
    let e := x / 256 ^ (16 + 16 * j)
    decide (e % 65536 ≤ pin ∧ pin ≤ e / 65536 % 65536))

/-- The firmware load of step 2 (20 R546-R548, R550, R605, 21 R574, R575). The image of level 1 has version 1. -/
def State.firmwareLoad (s : State) (flash : HostRead) (readErr : Option (BitVec 24)) (sigOk : Bool) (version : BitVec 16) : State :=
  if !s.atStep 2 then s else
  match flash with
  | .error => s.raise blkMGT 2 ((readErr.getD 0).toNat)
  | .data d =>
    let x := d % 256 ^ 256
    let pin := x / 256 ^ 6 % 65536
    match headerFault x with
    | some a => s.raise blkMGT 2 a
    | none =>
      if pin < 1 ∨ s.fld F.ID_LEVELS_HIGHEST < pin ∨ levelCovered x pin = false then s.raise blkMGT 3 0
      else match readErr with
        | some a => s.raise blkMGT 2 a.toNat
        | none =>
          if !sigOk then s.raise blkMGT 0 0 else
          let s := (s.wr Reg.MGT_LEVEL (BitVec.ofNat 32 (pin * 65536 + if pin = 1 then 1 else version.toNat))).wr Reg.ID_FORMATS 0x01010101#32
          { s.setFld F.MGT_STATUS_STEP 3 with mgt := { s.mgt with fwRunning := true } }

/-- FIRMWARE_LOAD (20 R546-R548): `flash` is what the read of the 256-byte header returned; `readErr` the flash address of a
read that failed or timed out; the signature's check; the version of the image. -/
def execFirmwareLoad (flash : HostRead) (readErr : Option (BitVec 24)) (sigOk : Bool) (version : BitVec 16) (s : State) :
    Outcome State Fault Refusal :=
  .next (s.firmwareLoad flash readErr sigOk version)

/-- SELF_TEST (20 R549): it passes, and every enabled lane trains (R544 step 4); or test step `n` fails. -/
def execSelfTest (fail : Option (BitVec 8)) (s : State) : Outcome State Fault Refusal :=
  .next (
    if !s.atStep 3 then s else
    match fail with
    | some n => s.raise blkMGT 1 n.toNat
    | none => ((s.setFld F.MGT_STATUS_STEP 4).startTraining (List.range 1024)).progress)

/-- A message's inputs in the staging of an operation, which survive a device reset (10 R354). -/
def CollOp.inputs (o : CollOp) : CollOp :=
  { opnum := o.opnum, need := o.need, kids := o.kids, sent := o.sent, downHdr := o.downHdr, downData := o.downData, downRuns := o.downRuns,
    bad := o.bad, lost := o.lost }

/-- What memory keeps of the block's work through a device reset: what WM does not cover is not kept, since it is sent again
(06 R233 step 6, 10 R354); a completion of a refused descriptor is not, since its entry is taken again (06 R226). -/
def State.keep (s : State) : Kept :=
  let s := s.xpt.conns.foldl (fun s c => s.dropStaged c.1 c.2) s
  let live := fun (w : WaitingCqe) => match w.src with
    | .slot k => (s.slot? k).all (fun z => z.phase != .refused)
    | .admin _ => false
    | _ => true
  { store := s.mat.store.filter (fun e => e.2.covered), nextStore := s.mat.nextStore,
    ops := s.col.groups.map (fun g => (g.1, g.2.ops.map CollOp.inputs)),
    held := s.atu.held, nextHeld := s.atu.nextHeld,
    waiting := s.obj.queues.map (fun q => (q.1, q.2.waiting.filter live)) }

/-- Instances that a port of `late` serves (06 R227). A port with requests that wait for its function has writes without an
acknowledgement. -/
def State.lateInsts (s : State) (late : List Nat) : List Nat :=
  let ports := late ++ (s.hpt.again ++ s.hpt.kept).filterMap (fun o => match o with
    | .write p _ _ _ _ => some p
    | _ => none)
  (List.range s.nInst).filter (fun i => s.mapped i && ports.contains (s.portOf i))

/-- A device reset (20 R545, 21 R570, 18 R521, R522, 16 R473, R477, 17 R498). The registers return to their reset values but for
the fault registers and the marks of a failed device; the always-on count of time goes on in steps of 40 ns (01 R28); what
memory holds stays. -/
def State.deviceReset (s : State) (late : List Nat) : State :=
  let sticky := !s.flt.sticky.isEmpty
  let failed := s.rd Reg.MEM_STATUS &&& 0x4000000F#32
  let pin := 0x40000003 + (if sticky then 0x30000000 else 0)
  let r : State :=
    { part := s.part, now := BitVec.ofNat 64 (s.t - s.t % ns 40), draws := s.draws, pending := s.pending,
      regs := s.regs.filter (fun x => (fltBlock x.1).isSome),
      flt := { last := s.flt.last, sticky := s.flt.sticky, standing := s.flt.standing.filter (· == fltKey blkMEM 2),
               msiSent := s.flt.msiSent, msiLast := s.flt.msiLast },
      tim := { lastTide := s.tim.lastTide, timeOut := s.tim.timeOut }, lnk := { line := s.lnk.line },
      hpt := { issued := s.hpt.issued },
      ram := { cells := s.ram.cells, poisoned := s.ram.poisoned, copies := s.ram.copies },
      kept := s.keep,
      mgt := { pwrGood := s.mgt.pwrGood, resetN := s.mgt.resetN, vddAon := s.mgt.vddAon, sampled := s.mgt.sampled,
               tap := s.mgt.tap, failover := s.lateInsts late } }
  let r := (allBlocks.foldl (fun r b => r.resetFaultBlock b) r).wr Reg.MGT_FLT_PIN (BitVec.ofNat 32 pin)
  let r := if s.part.gddr then r.wr Reg.MEM_STATUS failed else r
  r.setFld F.MGT_STATUS_STEP 2

/-- PWR_GOOD_FALL (22 R594): as at the start of a device reset, and everything outside the always-on domain is held in
reset. `late`: ports whose writes were not all acknowledged within 1 ms. -/
def execPwrGoodFall (late : List PortId) (s : State) : Outcome State Fault Refusal :=
  .next (
    if !s.mgt.pwrGood then s else
    let s := (s.deviceReset (late.map (·.val))).setFld F.MGT_STATUS_STEP 1
    { s with mgt := { s.mgt with pwrGood := false } })

/-- RESET_N (22 R585): held low for 1 us, or high again. While PWR_GOOD is low it is ignored. -/
def execResetN (low : Bool) (s : State) : Outcome State Fault Refusal :=
  .next (
    let s : State := { s with mgt := { s.mgt with resetN := !low } }
    if low && s.mgt.pwrGood then s.askReset else s)

/-- DEV_RESET (20 R545): the word written to `MGT_CTRL`, taken with DEV_RESET = 1. -/
def execDevReset (w : Word) (s : State) : Outcome State Fault Refusal :=
  .next (s.setup (s.mgtCtrlWrite (w ||| 0x80000000#32)))

/-- DEVICE_RESET_BEGIN (20 R545, 06 R227): every host write is acknowledged, or 1 ms has passed, with the ports in `late` still
without. -/
def execDeviceResetBegin (late : List PortId) (s : State) : Outcome State Fault Refusal :=
  .next (if s.mgt.resetDue then s.deviceReset (late.map (·.val)) else s)

/-- DIGEST (20 R555, R556): `c` is a cell delivered on the link of lane `l`. -/
def execDigest (l : LaneId) (c : Cell) (s : State) : Outcome State Fault Refusal :=
  .next (s.receiveMgmt c mgDIGEST (fun s => if c.linkLocal then (s.takeDigest (s.linkOf l.val) c).progress else s))

/-- The newest DIGEST cell that waits for an answer on link `p` is sent again, with the record it carried (20 R555). -/
def State.digestAgain (s : State) (p : Nat) : State :=
  match (s.agree p).waits.head? with
  | none => s
  | some w =>
    let r0 := (((s.agree p).own.find? (fun o => o.1 == w.1)).map (·.2)).getD (s.recordAt w.1)
    s.sendRecord p w.1 false r0

/-- DIGEST_RETRY (20 R555): 100 us without an answer. -/
def execDigestRetry (l : LaneId) (s : State) : Outcome State Fault Refusal := .next (s.digestAgain (s.linkOf l.val))

/-- DIGEST_TIMEOUT (20 R555): 1 ms without an answer. -/
def execDigestTimeout (l : LaneId) (s : State) : Outcome State Fault Refusal :=
  .next (
    let p := s.linkOf l.val
    if (s.agree p).waits.isEmpty || !s.linkRuns p then s else s.quarantine p)

/-- A write of `w` to `MGT_PROFILE_CTRL` (20 R557): accepted while the chip has not joined; one that sets VALID needs the
endpoint address to be locked. VALID going to 1 starts the exchange with TIDE = 0 (R555). -/
def State.profileCtrlWrite (s : State) (w : Word) : State :=
  if s.joined then s
  else if bit w 31 && !s.addressed then s.setFlag F.MGT_PROFILE_CTRL_ERR true
  else
    let was := s.profileValid
    let err := s.flag F.MGT_PROFILE_CTRL_ERR && !bit w 31
    let s := s.wr Reg.MGT_PROFILE_CTRL ((w &&& 0xA0000007#32) ||| BitVec.ofNat 32 (b2n err * 2 ^ 30))
    let s := if was || !bit w 31 then s else
      s.linkIds.foldl (fun s p => if s.linkState p == lkQUARANTINE && !(s.agree p).zero then s.sendDigest p 0 false else s) s
    s.progress

/-- PROFILE_VALID (20 R557): the word written to `MGT_PROFILE_CTRL`, taken with VALID = 1. -/
def execProfileValid (w : Word) (s : State) : Outcome State Fault Refusal :=
  .next (s.setup (s.profileCtrlWrite (w ||| 0x80000000#32)))

/-- The chip without power: what fuses hold stays, and the model's own logs (18 R521, R522, 16 R477, 20 R543). -/
def State.unpowered (s : State) : State :=
  { part := s.part, draws := s.draws, pending := s.pending, lnk := { line := s.lnk.line }, hpt := { issued := s.hpt.issued },
    mgt := { vddAon := false, resetN := s.mgt.resetN, tap := s.mgt.tap } }

/-- VDD_AON_REMOVAL (18 R521, R522): VDDQ_MEM is removed with it. -/
def execVddAonRemoval (s : State) : Outcome State Fault Refusal := .next s.unpowered

/-- RAIL_OUT_OF_RANGE (22 R592, R594, R595): the `rail`-th row of R592. With PWR_GOOD high the chip's state is undefined, and the
model stops. With PWR_GOOD low the rails may go; without VDDQ_MEM or VDD_IO the contents of GDDR7 are lost, and without VDD_AON
everything is. -/
def execRailOutOfRange (rail : Fin 7) (s : State) : Outcome State Fault Refusal :=
  if s.mgt.pwrGood then .fault .railOutOfRange
  else .next (
    if rail.val = 5 then s.unpowered
    else if (rail.val = 4 ∨ rail.val = 6) ∧ s.part.gddr = true then { s with ram := {}, kept := {} }
    else s)

/-- TEST_ACCESS_INSTRUCTION (22 R587): any instruction but BYPASS and IDCODE takes effect only while RESET_N is low. -/
def execTestAccessInstruction (i : TapInstr) (s : State) : Outcome State Fault Refusal :=
  .next (match i with
    | .bypass => { s with mgt := { s.mgt with tap := .bypass } }
    | .idcode => { s with mgt := { s.mgt with tap := .idcode },
                          lastRead := .idcode (BitVec.ofNat 32 (s.part.stepMinor % 16 * 2 ^ 28 + 0x1024C9B)) }
    | .other n => { s with mgt := { s.mgt with tap := if s.mgt.resetN then .bypass else .other n } })

end Sys2Proof.Machine
end

