-- ==== Sys2Proof/Machine/Transit.lean ====
section
/-! DEFINITION. The meanings of the commands of transits: source records, windows, switching, the report of a lost path and
the readiness of lanes (05 R165-R185, R194, R195). -/

namespace Sys2Proof.Machine

open Host (Outcome)

/-- The record that TIM_XSRC_DATA0-4 spell, with the failures that record `old` has (05, TIM_XSRC_DATA). -/
def State.xsrcData (s : State) (old : XRec) : XRec :=
  { valid := s.flag F.TIM_XSRC_DATA0_VALID, pfail := old.pfail, bfail := old.bfail, dst := s.fld F.TIM_XSRC_DATA0_DST,
    out := s.fld F.TIM_XSRC_DATA1_OUT, bout := s.fld F.TIM_XSRC_DATA1_BOUT, first := s.fld F.TIM_XSRC_DATA3_FIRST,
    stride := s.fld F.TIM_XSRC_DATA2_STRIDE, count := s.fld F.TIM_XSRC_DATA2_COUNT, bofs := s.fld F.TIM_XSRC_DATA3_BOFS,
    p := s.fld F.TIM_XSRC_DATA4_P, pb := s.fld F.TIM_XSRC_DATA4_PB }

/-- A record put into TIM_XSRC_DATA0-4. -/
def State.showXsrc (s : State) (r : XRec) : State :=
  let w := fun (n : Nat) => BitVec.ofNat 32 n
  ((((s.wr Reg.TIM_XSRC_DATA0 (w (b2n r.valid * 2 ^ 31 + b2n r.pfail * 2 ^ 30 + b2n r.bfail * 2 ^ 29 + r.dst))).wr
    Reg.TIM_XSRC_DATA1 (w (r.bout * 2 ^ 16 + r.out))).wr Reg.TIM_XSRC_DATA2 (w (r.count * 2 ^ 16 + r.stride))).wr
    Reg.TIM_XSRC_DATA3 (w (r.bofs * 2 ^ 16 + r.first))).wr Reg.TIM_XSRC_DATA4 (w (r.pb * 2 ^ 16 + r.p))

/-- The write of record `n` of epoch `e` is refused (05 R180, R195). -/
def State.xsrcRefused (s : State) (e n : Nat) (r : XRec) : Bool :=
  let inUse := s.sepoch e != esEMPTY && s.sepoch e != esIDLE
  inUse || (r.valid && (!(decide (1 ≤ r.count ∧ r.count ≤ 4096)) || !(decide (1 ≤ r.stride ∧ r.stride ≤ 4096)) ||
    decide (4095 < r.first + (r.count - 1) * r.stride) || !(decide (18 ≤ r.bofs ∧ r.bofs ≤ 24)) ||
    !(decide (1 ≤ r.p ∧ r.p ≤ 1280)) || !(decide (1 ≤ r.pb ∧ r.pb ≤ 1280)) || r.out == r.bout ||
    (s.validRecs e).any (fun x => x.1 != n && x.2.dst == r.dst)))

/-- A write of `w` to `TIM_XSRC_CMD` (05 R180, R195): GO runs the access, which is done at once. -/
def State.xsrcCmdWrite (s : State) (w : Word) : State :=
  let e := bits w 12 12
  let n := bits w 11 0
  let s := ((s.setFlag F.TIM_XSRC_CMD_WRITE (bit w 29)).setFld F.TIM_XSRC_CMD_EPOCH e).setFld F.TIM_XSRC_CMD_INDEX n
  if !bit w 31 then s
  else if !bit w 29 then s.showXsrc (s.xrec e n)
  else
    let r := s.xsrcData (s.xrec e n)
    if s.xsrcRefused e n r then s.setFlag F.TIM_XSRC_CMD_ERR true
    else (s.setXrec e n r).setFlag F.TIM_XSRC_CMD_ERR false

/-- XSRC_READ (05 R180): the word written, taken with GO = 1 and WRITE = 0. -/
def execXsrcRead (w : Word) (s : State) : Outcome State Fault Refusal :=
  .next (s.setup (s.xsrcCmdWrite ((w ||| 0x80000000#32) &&& ~~~ 0x20000000#32)))

/-- XSRC_WRITE (05 R195): the word written, taken with GO = 1 and WRITE = 1. -/
def execXsrcWrite (w : Word) (s : State) : Outcome State Fault Refusal :=
  .next (s.setup (s.xsrcCmdWrite (w ||| 0xA0000000#32)))

/-- Record `n` of epoch `e`, if it owns absolute slot `slot`: a record that has switched uses its backup slots (05 R180, R182,
R185). -/
def State.ownedIn (s : State) (e : Option Nat) (n slot : Nat) : Option (Nat × XRec) :=
  match e with
  | none => none
  | some e =>
    let r := s.xrec e n
    if r.valid && (if r.pfail then r.ownsBackup (slot % 4096) else r.ownsPrimary (slot % 4096)) then some (e, r) else none

/-- Record `n` of the ACTIVE epoch, if it owns the slot. -/
def State.ownedSlot (s : State) (n slot : Nat) : Option (Nat × XRec) := s.ownedIn s.activeSched n slot

/-- The schedule epoch that will be ACTIVE at time `t`, as it is known now (05 R176). -/
def State.schedAt (s : State) (t : Nat) : Option Nat :=
  match s.pendingSched with
  | some e => if s.tim.schedSwitchAt ≤ t then some e else s.activeSched
  | none => s.activeSched

/-- The next run of at most `most` cells for the transit to `dst`: of the message accepted first among those of its
connections (05 R181, R182). -/
def State.transitChunk (s : State) (dst most : Nat) : Option Chunk :=
  let l := s.xpt.conns.filterMap (fun x =>
    if x.2.cls = 7 && x.2.peerEp == dst && x.2.st == .opened && !s.stale x.2 && s.onDie x.1 then
      (match s.againChunk x.1 x.2 with
        | some c => some c
        | none => s.newChunk x.1 x.2)
    else none)
  (sortBy (fun (c : Chunk) => c.id) l).head?.map (fun c => { c with count := min c.count most })

/-- The runs of cells that a window of the transit to `dst` takes next, `most` cells in all; `fuel` bounds the runs. -/
def State.windowRuns (s : State) (dst : Nat) : Nat → Nat → List Chunk
  | 0, _ => []
  | fuel + 1, most =>
    if most = 0 then [] else
    match s.transitChunk dst most with
    | none => []
    | some c => c :: (s.sendChunk c (.data 0)).windowRuns dst fuel (most - c.count)

/-- The payload reads of a window are issued: the sources of what its transit sends next are translated, contexts that are
not on die asked for (05 R183, 06 R199, 11 R366). A window after the tide of a pending switch is of the new epoch. -/
def State.windowRead (s : State) (n slot : Nat) : State :=
  match s.ownedIn (s.schedAt (slotStart slot)) n slot with
  | none => s
  | some (e, r) =>
    let hs := (s.xpt.conns.filter (fun x => x.2.cls == 7 && x.2.peerEp == r.dst && !s.onDie x.1)).map (·.1)
    let s := hs.foldl (fun s h => if s.xpt.swaps.contains h then s else s.needContext h) s
    let s := (s.windowRuns r.dst 60 60).foldl (fun s c => (s.chunkSource c).1) s
    { s with tim := { s.tim with ready := s.tim.ready.filter (· != (4096 * e + n, slot)) ++ [(4096 * e + n, slot)] } }

/-- WINDOW_PAYLOAD_READ (05 R183). -/
def execWindowPayloadRead (n : Fin 4096) (slot : Nat) (s : State) : Outcome State Fault Refusal :=
  .next (if s.joined && s.synced then s.windowRead n.val slot else s)

/-- Runs of cells go out until `most` are sent, nothing is ready, or the data ends. -/
def State.fillWindow (s : State) (dst most : Nat) : List HostRead → State
  | [] => s
  | d :: t =>
    if most = 0 then s else
    match s.transitChunk dst most with
    | none => s
    | some c => match s.chunkSource c with
      | (s, false) => s
      | (s, true) => (s.sendChunk c d).fillWindow dst (most - c.count) t

/-- Cells that the backup instance of a slot carries again are put first among what their segments send again
(05 R185). -/
def State.resendFirst (s : State) (l : List CellRef) : State :=
  l.reverse.foldl (fun s c => if s.cellAcked c then s else
    s.modConn c.handle (fun k => { k with segs := k.segs.map (fun g =>
      if g.seq = c.seq then { g with again := (c.idx, 1) :: g.again } else g) })) s

/-- A class-7 cell is discarded and its path reported to the window's source (05 R165, R172, R184). -/
def State.dropTransit (s : State) (c : Cell) (e k p : Nat) : State :=
  (s.bump Reg.TIM_TRANSIT_DROP).reportDown c.src e k p

/-- A class-7 cell is discarded because another holds its output (05 R172); `info` is the record and its epoch (18 R527). -/
def State.collide (s : State) (info : Nat) : State := (s.bump Reg.TIM_COLLIDE).raise blkTIM 6 info

/-- A class-7 cell built here for the window of record `info` takes output `p` at time `t`, or is discarded because another holds
it then (05 R172). -/
def State.putTransit (s : State) (p t : Nat) (c : Cell) (info : Nat) : State :=
  match s.claimOutput p t c none with
  | some s => s
  | none => s.collide info

/-- The cells built for a window of record `n` leave the router's hold: one in each cell time of the slot (05 R169). -/
def State.emitWindow (s : State) (p e k n slot : Nat) (cells : List Cell) : State :=
  (cells.zip (List.range cells.length)).foldl (fun s x =>
    if s.synced then s.putTransit p (slotStart slot + ns (5 * x.2)) x.1 (4096 * e + n) else s.dropTransit x.1 e k p) s

/-- A window of record `n` of epoch `e` in its slot (05 R169, R177, R182, R185): the cells to be sent again, then what the
transit's queue holds, at most 60; the mark goes first, and no mark goes with no cells. -/
def State.sendWindow (s : State) (e n slot : Nat) (r : XRec) (data : List HostRead) : State :=
  let key := (4096 * e + n, slot)
  let k := slot % 4096
  let p := if r.pfail then r.bout else r.out
  let redo := ((s.tim.resend.filter (fun x => x.1 == key.1 && x.2.1 == slot)).map (fun x => x.2.2)).flatten
  let s : State := { s with tim := { s.tim with
    ready := s.tim.ready.filter (· != key),
    resend := s.tim.resend.filter (fun x => !(x.1 == key.1 && x.2.1 == slot)) } }
  let had := s.rt.held.length
  let s := (s.resendFirst redo).fillWindow r.dst 60 data
  let new := s.rt.held.drop had
  let cells := (new.filter (fun h => h.cell.cls == 7)).map (·.cell)
  let s : State := { s with rt := { s.rt with held := s.rt.held.take had ++ new.filter (fun h => h.cell.cls != 7) } }
  if cells.isEmpty then s else
  let s := if s.synced then (s.markLater p (slotStart slot) (4096 * e + k)).rememberWindow p s.addr e k else s
  let w : SentWindow := {
    epoch := e, index := n, slot := slot, backup := r.pfail, at_ := slotStart slot,
    cells := cells.filterMap (fun c => (s.xpt.conns.find? (fun x =>
      x.2.cls == 7 && x.2.peerEp == c.dst && x.2.inst == c.ins && x.2.segs.any (fun g => g.seq == c.seq))).map
        (fun x => { handle := x.1, seq := c.seq, idx := c.idx })) }
  let s : State := { s with tim := { s.tim with
    begun := s.tim.begun.filter (fun b => decide (s.t < b.at_ + us 8)) ++ [w] } }
  ((s.occur bkTIM 0x11 [0] 1).occur bkTIM 0x12 [0] cells.length).emitWindow p e k n slot cells

/-- An owned slot begins: its window leaves if its payload has been read and its output can carry it (05 R182, R183,
R128). -/
def State.windowSource (s : State) (n slot : Nat) (data : List HostRead) : State :=
  match s.ownedSlot n slot with
  | none => s
  | some (e, r) =>
    let p := if r.pfail then r.bout else r.out
    if !s.joined || !s.tim.ready.contains (4096 * e + n, slot) || (s.synced && !s.eligible 7 p) then s
    else s.sendWindow e n slot r data

/-- WINDOW_SOURCE (05 R182). -/
def execWindowSource (n : Fin 4096) (slot : Nat) (data : List HostRead) (s : State) : Outcome State Fault Refusal :=
  .next (s.windowSource n.val slot data)

/-- A window mark on the link whose lowest lane is `p` (05 R170, R172). -/
def State.takeMark (s : State) (p : Nat) (d : BitVec 16) : State :=
  let e := bits d 12 12
  let k := bits d 11 0
  let o := s.windowEntry e p k
  let w : Window := { epoch := e, label := k, count := 0, entry := o }
  let s : State := { s with tim := { s.tim with windows := Map.set s.tim.windows p w } }
  if o < 1024 && s.eligible 7 o then s.markLater o (s.t + ns 85) (4096 * e + k) else s

/-- MARK (05 R172). -/
def execMark (l : LaneId) (data : BitVec 16) (s : State) : Outcome State Fault Refusal :=
  let p := s.linkOf l.val
  let s := s.heard p (mkWord wMARK data.toNat)
  .next (if s.linkFull p then s.takeMark p data else s)

/-- A class-7 cell of window `w` on input `p`, by R172. HOP rises by one, up to 14 (05 R173), and a failed CRC is counted as the
cell passes (04 R121). Which record of its source a discarded cell's window has is not known here: a free value (log entry 178). -/
def State.switchTransit (s : State) (p : Nat) (w : Window) (c : Cell) : State :=
  let o := w.entry
  if !s.synced then s.dropTransit c w.epoch w.label o
  else if o = enDELIVER then
    { s with rt := { s.rt with delivered := s.rt.delivered ++ [{ inp := some p, cell := c }] } }
  else if !(decide (o < 1024) && s.laneExists o && s.linkOf o == o) then s.bump Reg.TIM_TRANSIT_DROP
  else if !s.eligible 7 o then s.dropTransit c w.epoch w.label o
  else
    let s := s.rememberWindow o c.src w.epoch w.label
    match s.claimOutput o (s.t + ns 85) (c.withHop (min 14 (c.hop + 1))) (some p) with
    | some s => if c.crcOk then s else s.bump Reg.CTL_CRC_FWD
    | none => s.drawn.collide (4096 * w.epoch + (Config.freeWord s.draws).toNat % 4096)

/-- A class-7 cell that arrived on link `p` (05 R165, R170, R172). -/
def State.takeTransitCell (s : State) (p : Nat) (c : Cell) : State :=
  if !s.tim.transitIn.contains (p, c) then s else
  let s : State := { s with tim := { s.tim with transitIn := dropFirst (p, c) s.tim.transitIn } }
  match Map.get? s.tim.windows p with
  | none => s.bump Reg.TIM_TRANSIT_DROP
  | some w =>
    if 60 ≤ w.count then s.bump Reg.TIM_TRANSIT_DROP else
    let s : State := { s with tim := { s.tim with windows := Map.set s.tim.windows p { w with count := w.count + 1 } } }
    s.switchTransit p w c

/-- TRANSIT_CELL (05 R172). -/
def execTransitCell (l : LaneId) (c : Cell) (s : State) : Outcome State Fault Refusal :=
  .next (s.takeTransitCell (s.linkOf l.val) c)

/-- A TRANSIT_DOWN notice names epoch `e` and label `k` (05 R185): the records that own it as a primary slot switch; of
those that own it as a backup slot, BFAIL is set. -/
def State.transitDown (s : State) (e k : Nat) : State :=
  let l := s.validRecs e
  let s := (l.filter (fun r => r.2.ownsPrimary k)).foldl (fun s r => s.backupSwitch e r.1) s
  (l.filter (fun r => r.2.ownsBackup k)).foldl (fun s r => s.backupFailed e r.1) s

/-- TRANSIT_DOWN (05 R185). -/
def execTransitDown (c : Cell) (s : State) : Outcome State Fault Refusal :=
  .next (s.receiveMgmt c mgTRANSITDOWN (fun s => s.transitDown (c.pb 0 1 % 2) (c.pb 2 2 % 4096)))

/-- LANE_HOLD (05 R194): the hold of a link in the schedule begins, which brings it to FULL, or ends. -/
def execLaneHold (l : LaneId) (hold : Bool) (s : State) : Outcome State Fault Refusal :=
  let p := s.linkOf l.val
  .next (if hold then
      (if s.inSchedule p && !s.heldLink p then
        ({ s with tim := { s.tim with holds := s.tim.holds ++ [p] } } : State).startExitOf p wcSCHEDULE else s)
    else { s with tim := { s.tim with holds := s.tim.holds.filter (· != p) } })

/-- SCHEDULE_WAKE (17 R506, 05 R194): ahead of a hold, the tile leaves DOZE and the link HALF. -/
def execScheduleWake (l : LaneId) (s : State) : Outcome State Fault Refusal :=
  let p := s.linkOf l.val
  .next (if s.inSchedule p && s.linkRuns p then
      let s := if s.tileActive (tileOf p) && !s.tileChanging (tileOf p) then s else s.wakeEvent (tileOf p) wcSCHEDULE
      if s.linkFull p then s else s.startExitOf p wcSCHEDULE
    else s)

end Sys2Proof.Machine
end

