-- ==== Sys2Proof/Machine/SetupSpace.lean ====
section
/-! DEFINITION. Reads and writes of set-up space and of the instance windows: what each register does with a write, the two
halves of 64-bit registers, access sizes (21 R566-R572, 00 R8, and the register tables of the chapters). -/

namespace Sys2Proof.Machine

open Host (Outcome)

/-- The first address of the instance windows in this model's numbering. -/
def windowBase : Nat := 0x100000000

/-- An access by `who` to `a` reaches the block: over a port whose link is up, or over the sideband port; a window is that of
the instance mapped to a function of the port (03 R76, 12 R388, 21 R568, R572). -/
def State.reaches (s : State) (who a : Nat) : Bool :=
  if a < 0x1000000 then who == 8 || (who < 8 && s.portUp who)
  else
    let i := (a - windowBase) / 0x10000
    windowBase ≤ a && i < 128 && who < 8 && s.portUp who && s.windowOpen i && s.portOf i == who

/-- The FATAL sources of a block, as bits: they cannot be masked (18 R512, R515). -/
def fatalBits (blk : Nat) : Word :=
  BitVec.ofNat 32 ((List.range 32).foldl (fun acc i => if srcClass blk i = fcFATAL then acc + 2 ^ i else acc) 0)

/-- A write to a fault register of block `b` (18 R512, R516, R519). -/
def State.faultWrite (s : State) (b a : Nat) (w : Word) : State :=
  if a = Reg.FLT_STATUS b then s.clearStatus b w
  else if a = Reg.FLT_MASK b then s.wr a (w &&& ~~~ fatalBits b)
  else if a = Reg.FLT_FORCE b then s.forceSources b ((List.range 32).filter (fun i => bit w i && srcClass b i != 0))
  else if a = Reg.FLT_UNACK b then s.clearUnack b w
  else if a = Reg.FLT_INT b then s.wr a (w &&& 7#32)
  else if a = Reg.FLT_FIRST b then s.clearFirst b w
  else if a = Reg.MGT_FLT_PIN then (s.setFld F.MGT_FLT_PIN_DRIVE (bits w 31 31)).setFld F.MGT_FLT_PIN_PULSE_MIN (bits w 1 0)
  else s

/-- A write by the access codes alone (00 R8). -/
def State.plainWrite (s : State) (r : RegRow) (a : Nat) (w : Word) : State :=
  let rw := BitVec.ofNat 32 r.rw
  let old := s.rd a
  s.wr a ((old &&& ~~~ rw &&& ~~~ (w &&& BitVec.ofNat 32 r.w1c)) ||| (w &&& rw) ||| (w &&& BitVec.ofNat 32 r.w1s))

/-- A write to `CTL_ROUTE_CTRL` (04): HOP_LIMIT takes 1 to 6. -/
def State.routeCtrlWrite (s : State) (w : Word) : State :=
  let old := s.rd Reg.CTL_ROUTE_CTRL
  let hop := if bits w 31 29 = 0 ∨ bits w 31 29 = 7 then bits old 31 29 else bits w 31 29
  s.wr Reg.CTL_ROUTE_CTRL (setBits (w &&& 0xFFFFF7FF#32) 31 29 hop)

/-- A write to `CTL_XPT_RETRY` of class `c` (06): RETRY_LIMIT is not 0, RTO lies in 60 to 100,000. -/
def State.retryWrite (s : State) (c : Nat) (w : Word) : State :=
  let old := s.rd (Reg.CTL_XPT_RETRY c)
  let lim := if bits w 31 24 = 0 then bits old 31 24 else bits w 31 24
  s.wr (Reg.CTL_XPT_RETRY c) (BitVec.ofNat 32 (lim * 2 ^ 24 + max 60 (min 100000 (bits w 16 0))))

/-- A write to `ATU_HOST_PATH` (09 R308): the field of a port that would take 3 stays as it is. -/
def State.hostPathWrite (s : State) (w : Word) : State :=
  let old := s.rd Reg.ATU_HOST_PATH
  s.wr Reg.ATU_HOST_PATH ((List.range 8).foldl (fun acc p =>
    let v := bits w (2 * p + 1) (2 * p)
    setBits acc (2 * p + 1) (2 * p) (if v = 3 then bits old (2 * p + 1) (2 * p) else v)) 0#32)

/-- Queues other than queue 0 exist. -/
def State.otherQueues (s : State) : Bool := s.obj.queues.any (fun q => q.1 != 0 && q.1 != acqKey)

/-- A write to `CTL_JRNL_CTRL` (06 R233): ENABLE holds while other queues exist; REPLAY starts with journals enabled and the
admin queue stopped. -/
def State.jrnlCtrlWrite (s : State) (w : Word) : State :=
  let s := s.setFld F.CTL_JRNL_CTRL_FAILOVER (bits w 29 29)
  let s := if s.otherQueues then s else s.setFld F.CTL_JRNL_CTRL_ENABLE (bits w 31 31)
  if bit w 30 && s.flag F.CTL_JRNL_CTRL_ENABLE && !s.flag F.CTL_AQ_CTRL_ENABLE then s.setFld F.CTL_JRNL_CTRL_REPLAY 1 else s

/-- A write to `PWR_TILE_CTRL` of tile `t` (17): tile 0 has no standing state 3. -/
def State.tileCtrlWrite (s : State) (t : Nat) (w : Word) : State :=
  let st := if t = 0 ∧ bits w 25 24 = 3 then s.fld (F.PWR_TILE_CTRL_STANDING t) else bits w 25 24
  (s.setFld (F.PWR_TILE_CTRL_STANDING t) st).setFld (F.PWR_TILE_CTRL_RET_SEL t) (bits w 23 16)

/-- A slot of the lock window takes KEY, CTRL and OFFSET while it is IDLE (09 R323). -/
def State.slotIdle (s : State) (i n : Nat) : Bool := s.lkState i n == lsIDLE

/-- A write of `w` to the 32-bit register at `a`, which row `r` describes with indices `i` and `j`, by `who`. -/
def State.regWrite (s : State) (who a : Nat) (r : RegRow) (i j : Nat) (w : Word) : State :=
  let b := r.base
  if b = Reg.CTL_AQ_CTRL then s.aqCtrlWrite w
  else if b = Reg.CTL_ENDPOINT then s.endpointWrite w
  else if b = Reg.CTL_ROUTE_CTRL then s.routeCtrlWrite w
  else if b = Reg.CTL_XPT_RETRY 0 then s.retryWrite i w
  else if b = Reg.CTL_JRNL_CTRL then s.jrnlCtrlWrite w
  else if b = Reg.CTL_INST_MAP 0 then s.instMapWrite i w
  else if b = Reg.PWR_TILE_CTRL 0 then s.tileCtrlWrite i w
  else if b = Reg.PWR_TILE_REQ 0 then s.requestTile i (bits w 1 0) (if who = 8 then wcSIDEBAND else wcSOFTWARE)
  else if b = Reg.TIM_CTRL then s.timCtrlWrite w
  else if b = Reg.TIM_XSRC_CMD then s.xsrcCmdWrite w
  else if b = Reg.CNT_SEL 0 0 then s.cntSelWrite i j w
  else if b = Reg.CNT_VAL 0 0 then s.cntValWrite i j w
  else if b = Reg.CNT_CTRL then s.cntCtrlWrite w
  else if b = Reg.CNT_RING_CFG then (if s.flag F.CNT_CTRL_ENABLE then s else s.plainWrite r a w)
  else if b = Reg.LNG_LANE_CTRL 0 then s.laneCtrlWrite (16 * i + j) w
  else if b = Reg.HPT_CTRL 0 then s.hptCtrlWrite i w 0
  else if b = Reg.MEM_CTRL then s.memCtrlWrite w
  else if b = Reg.XLT_CTRL then s.xltCtrlWrite w
  else if b = Reg.INJ_POL_CTRL 0 0 then s.polCtrlWrite i j w
  else if b = Reg.INJ_POL_PIR 0 0 then s.polWrite i j 1 w
  else if b = Reg.INJ_POL_CBS 0 0 then s.polWrite i j 2 w
  else if b = Reg.INJ_POL_PBS 0 0 then s.polWrite i j 3 w
  else if b = Reg.MGT_CTRL then (if who < 8 then s.ownerCtrlWrite w else s.mgtCtrlWrite w)
  else if b = Reg.MGT_PROFILE_CTRL then s.profileCtrlWrite w
  else if b = Reg.MGT_PROFILE_RPLAN ∨ b = Reg.MGT_PROFILE_SPLAN then (if s.joined then s else (s.plainWrite r a w).progress)
  else if b = Reg.ATU_LK_KEY 0 0 ∨ b = Reg.ATU_LK_CTRL 0 0 then (if s.slotIdle i j then s.plainWrite r a w else s)
  else if b = Reg.ATU_LK_RELEASE 0 0 then s.lkWrite i j
  else if b = Reg.XLT_EXT_CTRL 0 0 then s.extCtrlWrite i j w
  else if b = Reg.ATU_HOST_PATH then s.hostPathWrite w
  else s.plainWrite r a w

/-- A write of `v` to the 64-bit register whose low half is at `a` (21 R569). -/
def State.wideWrite (s : State) (r : RegRow) (i j a : Nat) (v : Word64) : State :=
  let b := r.base
  let kept := s.wr64 a ((s.rd64 a &&& ~~~ BitVec.ofNat 64 r.rw) ||| (v &&& BitVec.ofNat 64 r.rw))
  if b = Reg.CTL_AQ_BASE ∨ b = Reg.CTL_ACQ_BASE then
    (if s.flag F.CTL_AQ_CTRL_ENABLE || !s.obj.adm.isEmpty then s else kept)
  else if b = Reg.CTL_JRNL_CHIP ∨ b = Reg.CTL_JRNL_INST 0 then (if s.journals then s else kept)
  else if b = Reg.CNT_RING_BASE then (if s.flag F.CNT_CTRL_ENABLE then s else kept)
  else if b = Reg.MEM_HOST_BASE then s.memHostBaseWrite v
  else if b = Reg.XLT_DEV_BASE 0 ∨ b = Reg.XLT_DEV_LIM 0 then (if s.flag F.XLT_CTRL_DEVLIST_LOCK then s else kept)
  else if b = Reg.ATU_LK_OFFSET 0 0 then (if s.slotIdle i j then kept else s)
  else if b = Reg.XLT_EXT_VBASE 0 0 ∨ b = Reg.XLT_EXT_LENGTH 0 0 ∨ b = Reg.XLT_EXT_PBASE 0 0 then
    (if s.flag (F.XLT_EXT_CTRL_VALID i j) then s else kept)
  else if b = Reg.MGT_ROOT_ID then
    (if s.joined then kept else { kept with mgt := { kept.mgt with rootId := v } })
  else kept

/-- The held half of `who` is dropped. -/
def State.dropHalf (s : State) (who : Nat) : State := s.modRequester who (fun r => { r with held := none })

/-- A halted chip takes writes to fault registers alone in set-up space (18 R523). -/
def State.writable (s : State) (a : Nat) : Bool := !s.halted || windowBase ≤ a

/-- A write of 4 bytes at `a` by `who` (21 R567, R569): the low half of a 64-bit register is held until its high half comes;
a high half alone leaves the low half as it is. -/
def State.write4 (s : State) (who a : Nat) (w : Word) : State :=
  let held := (s.requester who).held
  let s := s.dropHalf who
  if absent s.part a then s else
  match fltBlock a with
  | some b => s.faultWrite b a w
  | none =>
    match regAt a with
    | none => s
    | some (r, i, j, hi) =>
      if !s.writable a then s
      else if !r.wide then s.regWrite who a r i j w
      else if !hi then s.modRequester who (fun x => { x with held := some (a, w) })
      else
        let lo := match held with
          | some (b, l) => if b + 4 = a then l else s.rd (a - 4)
          | none => s.rd (a - 4)
        s.wideWrite r i j (a - 4) (w ++ lo)

/-- A write of 8 bytes at `a` by `who`: one 64-bit register, or two of 32 bits, the lower first (21 R568, R569). -/
def State.write8 (s : State) (who a : Nat) (v : Word64) : State :=
  match regAt a with
  | some (r, i, j, false) =>
    if r.wide then
      let s := s.dropHalf who
      if absent s.part a || !s.writable a then s else s.wideWrite r i j a v
    else (s.write4 who a (v.extractLsb' 0 32)).write4 who (a + 4) (v.extractLsb' 32 32)
  | _ => (s.write4 who a (v.extractLsb' 0 32)).write4 who (a + 4) (v.extractLsb' 32 32)

/-- A write of the low `n` bytes of `v` at `a` by `who` (21 R568). -/
def State.accessWrite (s : State) (who a n : Nat) (v : Word64) : State :=
  if !s.reaches who a || a % max 1 n != 0 then s
  else if n = 4 then s.write4 who a (v.extractLsb' 0 32)
  else if n = 8 then s.write8 who a v
  else s

/-- The word at `a` as a read finds it, without the read's own effects. The counters of 19 have their home outside the register
file; write-only fields were never stored. -/
def State.wordAt (s : State) (a : Nat) : Word :=
  if absent s.part a then 0#32 else
  match regAt a with
  | none => 0#32
  | some (r, i, j, hi) =>
    if r.base = Reg.CNT_SEL 0 0 then (s.ctr i j).sel
    else if r.base = Reg.CNT_VAL 0 0 then (s.ctr i j).val
    else if r.base = Reg.CNT_HIST 0 0 then BitVec.ofNat 32 (Map.getD s.cnt.hist (32 * i + j) 0)
    else if r.base = Reg.CNT_INST_S 0 0 then
      BitVec.ofNat 32 (Map.getD s.cnt.inst (8 * i + j) 0 / (if hi then 2 ^ 32 else 1))
    else if r.base = Reg.CNT_INST_HIST 0 0 0 then BitVec.ofNat 32 (Map.getD s.cnt.instHist (256 * i + j) 0)
    else s.look a

/-- The word that the last read answered. -/
def State.answered (s : State) : Word :=
  match s.lastRead with
  | .data _ v _ => v.setWidth 32
  | _ => 0#32

/-- A read of 4 bytes at `a` by `who`, with its effects: the latches of 05 R152, 19 R532 and 21 R569, and the read of
`XLT_FAULT_INFO` that clears its VALID (11 R368). -/
def State.read4 (s : State) (who a : Nat) : State × Word :=
  if a = Reg.TIM_NOW_LO then
    let s := s.timNowRead who
    (s, s.answered)
  else if a = Reg.TIM_NOW_HI then s.latched who a (s.look a)
  else if a = Reg.XLT_FAULT_INFO then (s.setFlag F.XLT_FAULT_INFO_VALID false, s.rd a)
  else match regAt a with
    | none => (s, 0#32)
    | some (r, i, j, hi) =>
      if absent s.part a then (s, 0#32)
      else if r.base = Reg.CNT_VAL 0 0 then
        let s := s.cntValRead who i j
        (s, s.answered)
      else if r.wide && hi then s.latched who a (s.wordAt a)
      else if r.wide then (s.latchFor who (a + 4) (s.wordAt (a + 4)), s.wordAt a)
      else (s, s.wordAt a)

/-- The slot whose `ATU_LK_ACQUIRE` has its low half in the aligned 4 bytes at `a`. -/
def acquireSlot (a : Nat) : Option (Nat × Nat) :=
  match regAt a with
  | some (r, i, j, false) => if r.base = Reg.ATU_LK_ACQUIRE 0 0 then some (i, j) else none
  | _ => none

/-- A read of `n` bytes at `a` by `who`, and its answer (21 R568, R569). A read of `ATU_LK_ACQUIRE` is the lock window's
(09 R324), and answers all 8 bytes. -/
def State.accessRead (s : State) (who a n : Nat) : State :=
  if who < 8 ∧ s.portUp who = false then s
  else if !(n == 1 || n == 2 || n == 4 || n == 8) || a % max 1 n != 0 then { s with lastRead := .unsupported who }
  else if !s.reaches who a then s.answer who n 0
  else
    let a4 := a - a % 4
    match acquireSlot a4 with
    | some (i, j) => s.lkRead i j
    | none =>
      if n = 8 then
        match regAt a with
        | some (r, _, _, false) =>
          if r.wide then s.answer who 8 (s.wordAt (a + 4) ++ s.wordAt a).toNat
          else
            let x := s.read4 who a
            let y := x.1.read4 who (a + 4)
            y.1.answer who 8 (y.2 ++ x.2).toNat
        | _ =>
          let x := s.read4 who a
          let y := x.1.read4 who (a + 4)
          y.1.answer who 8 (y.2 ++ x.2).toNat
      else
        let x := s.read4 who a4
        x.1.answer who n (x.2.toNat / 256 ^ (a % 4) % 256 ^ n)

/-- REGISTER_WRITE (00 R8, 21 R568): a write of `n` bytes at `a` by host port 0-7. `a` counts from the base of set-up space; the
window of instance `i` lies at 2^32 + 65536 i. -/
def execRegisterWrite (p : PortId) (a n : Nat) (v : Word64) (view : View) (s : State) : Outcome State Fault Refusal :=
  .next ((s.see view).accessWrite p.val a n v)

/-- LOW_HALF_READ (21 R568, R569): a read of `n` bytes at `a` by host port 0-7; of the low half of a 64-bit register, it latches
the high half. -/
def execLowHalfRead (p : PortId) (a n : Nat) (view : View) (s : State) : Outcome State Fault Refusal :=
  .next ((s.see view).accessRead p.val a n)

end Sys2Proof.Machine
end

