-- ==== Sys2Proof/Machine/Sideband.lean ====
section
/-! DEFINITION. The meanings of the commands of the sideband port, and of the hand-over of set-up space (20 R562-R565). An
operand `ok` = 0 stands for a message that is malformed: a wrong CRC-8, length or command byte. -/

namespace Sys2Proof.Machine

open Host (Outcome)

/-- Status bytes of the sideband port beside the admin codes (20 R563). -/
def sbREFUSED : Nat := 0x40
def sbMALFORMED : Nat := 0x41
def sbNOFW : Nat := 0x42

/-- The sideband answers a status byte alone. -/
def State.sbStatus (s : State) (n : Nat) : State := { s with lastRead := .sideband n 0 0 }

/-- A malformed command is discarded (20 R563, 18 R525). -/
def State.sbBad (s : State) : State := (s.raise blkMGT 4 0).sbStatus sbMALFORMED

/-- A sideband command is executed, and counted (19 R534). -/
def State.sbCount (s : State) : State := s.occur bkMGT 0x10 [0] 1

/-- The port takes a command: it runs from VDD_AON, and answers one that is well formed (20 R562, R563). `writes`: it is one of
those that need SB_WRITE = 1 (R565). -/
def State.sbTake (s : State) (ok writes : Bool) (run : State → State) : State :=
  if !s.mgt.vddAon then s
  else if !ok then s.sbBad
  else if writes && !s.flag F.MGT_CTRL_SB_WRITE then s.sbStatus sbREFUSED
  else run s

/-- REG_READ (20 R563). -/
def execRegRead (ok : Bool) (a : BitVec 24) (s : State) : Outcome State Fault Refusal :=
  .next (s.sbTake (ok && a.toNat % 4 == 0) false (fun s =>
    let x := s.sbCount.read4 8 a.toNat
    { x.1 with lastRead := .sideband 0 x.2.toNat 4 }))

/-- REG_WRITE (20 R563, R565): writes to fault registers need no SB_WRITE. -/
def execRegWrite (ok : Bool) (a : BitVec 24) (w : Word) (v : View) (s : State) : Outcome State Fault Refusal :=
  .next (
    let s := s.see v
    s.sbTake (ok && a.toNat % 4 == 0) (fltBlock a.toNat).isNone (fun s => (s.sbCount.write4 8 a.toNat w).sbStatus 0))

/-- What IMAGE_OPEN names: 0 a route epoch, 1 a schedule epoch, 2 a table, with its number (20 R563). -/
def sbTarget (t : Nat) : Option (Nat × Nat) :=
  if t ≤ 1 then some (0, t)
  else if t = 0x10 ∨ t = 0x11 then some (1, t - 0x10)
  else if 0x21 ≤ t ∧ t ≤ 0x26 then some (2, t - 0x20)
  else none

/-- IMAGE_OPEN (20 R563, 03 R100). -/
def State.imageOpen (s : State) (kind n len crc plan : Nat) : State :=
  let busy := kind < 2 && s.epochOf kind n != esEMPTY && s.epochOf kind n != esIDLE
  if busy then s.sbStatus adEPOCHBUSY else
  let s := if kind < 2 then s.setEpochOf kind n esEMPTY else s
  let o : SbImage := { kind := kind, number := n, len := len, crc := crc, plan := plan }
  ({ s with mgt := { s.mgt with sbOpen := some o } } : State).sbStatus 0

/-- A command of the sideband port that writes finds the chip halted: it is not valid then (18 R523). -/
def State.sbLive (s : State) (run : State → State) : State := if s.halted then s.sbStatus adORDER else run s

/-- IMAGE_OPEN. -/
def execImageOpen (ok : Bool) (target : BitVec 8) (len crc plan : Word) (s : State) : Outcome State Fault Refusal :=
  .next (s.sbTake (ok && (sbTarget target.toNat).isSome) true (fun s => s.sbCount.sbLive (fun s =>
    match sbTarget target.toNat with
    | some (k, n) => s.imageOpen k n len.toNat crc.toNat plan.toNat
    | none => s)))

/-- The bytes that an open image is written into: the table of the epoch itself, or the staging buffer (20 R563). -/
def State.imageBytes (s : State) (o : SbImage) : Nat :=
  if o.kind = 0 then (if o.number = 0 then s.rt.table0 else s.rt.table1)
  else if o.kind = 1 then (if o.number = 0 then s.tim.sched0 else s.tim.sched1)
  else s.mgt.stage
def State.setImageBytes (s : State) (o : SbImage) (x : Nat) : State :=
  if o.kind = 0 then { s with rt := if o.number = 0 then { s.rt with table0 := x } else { s.rt with table1 := x } }
  else if o.kind = 1 then { s with tim := if o.number = 0 then { s.tim with sched0 := x } else { s.tim with sched1 := x } }
  else { s with mgt := { s.mgt with stage := x } }

/-- IMAGE_DATA (20 R563): only an EMPTY or IDLE epoch is ever written, and the writing leaves it EMPTY (03 R100, 04 R141,
R147). -/
def State.imageData (s : State) (off : Nat) (data : List (BitVec 8)) : State :=
  match s.mgt.sbOpen with
  | none => s.sbStatus adORDER
  | some o =>
    if (if o.kind < 2 then imageLen o.kind else 1024) < off + data.length then s.sbStatus adBAD
    else if o.kind < 2 && s.epochOf o.kind o.number != esEMPTY && s.epochOf o.kind o.number != esIDLE then s.sbStatus adEPOCHBUSY
    else ((if o.kind < 2 then s.setEpochOf o.kind o.number esEMPTY else s).setImageBytes o (putBytes (s.imageBytes o) off data.length (packLE 1 (data.map (·.toNat))))).sbStatus 0

/-- IMAGE_DATA: 1 to 240 bytes. -/
def execImageData (ok : Bool) (off : Word) (data : List (BitVec 8)) (s : State) : Outcome State Fault Refusal :=
  .next (s.sbTake (ok && 1 ≤ data.length && data.length ≤ 240) true (fun s => s.sbCount.sbLive (fun s =>
    s.imageData off.toNat data)))

/-- The number of the configuration record of an epoch or a table (06 R232; log entry 29). -/
def SbImage.recordNo (o : SbImage) : Nat := if o.kind = 0 then 8 + o.number else if o.kind = 1 then 10 + o.number else o.number

/-- A loaded image is kept in the copy area, and its record names the sideband as its source (20 R564). -/
def State.keepCopy (s : State) (o : SbImage) (img : Nat) : State :=
  let r := o.recordNo
  let s : State := { s with ram := { s.ram with copies := Map.set s.ram.copies r (o.len, o.crc, o.plan, img) } }
  s.jrnlChip (cfgOff r) 64 (Config.recordOf 0 <| payOf [(8, 4, o.len), (12, 4, o.crc), (16, 4, o.plan), (32, 4, o.number), (62, 1, 1), (63, 1, 0x80)])

/-- IMAGE_CLOSE (20 R563, R564): the checks and effects of the load. -/
def State.imageClose (s : State) : State :=
  match s.mgt.sbOpen with
  | none => s.sbStatus adORDER
  | some o =>
    let s : State := { s with mgt := { s.mgt with sbOpen := none } }
    let img := s.imageBytes o
    let a := if o.kind < 2 then s.loadEpoch o.kind o.number o.len o.crc o.plan (.data img)
      else s.loadTable o.number o.len o.crc (.data img)
    if a.status = 0 then (a.st.keepCopy o (img % 256 ^ o.len)).sbStatus 0 else a.st.sbStatus a.status

/-- IMAGE_CLOSE. -/
def execImageClose (ok : Bool) (s : State) : Outcome State Fault Refusal :=
  .next (s.sbTake ok true (fun s =>
    if !s.mgt.fwRunning then s.sbStatus sbNOFW else s.sbCount.sbLive (fun s => s.imageClose)))

/-- A command that would read host memory (20 R563): the loads, the tree record, the ring of a work queue. -/
def State.readsHost (s : State) (e : Entry) : Bool :=
  let c := aCode e
  c == acCREATEGROUP || c == acLOADROUTE || c == acLOADSCHED || c == acLOADTABLE ||
    (c == acDESTROYQUEUE && (s.queue? (aObject e % 65536)).any (·.work))

/-- The command of an entry, run by its code, for one that reads no host memory. -/
def State.runByCode (s : State) (e : Entry) : AdminRun :=
  let c := aCode e
  if c = acCREATEQUEUE then s.createQueue e
  else if c = acDESTROYQUEUE then s.destroyQueue e []
  else if c = acCREATEPD then s.createPd e
  else if c = acDESTROYPD then s.destroyPd e
  else if c = acREGISTER then s.registerRegion e
  else if c = acDEREGISTER then s.deregisterRegion e
  else if c = acCREATECONN then s.createConnection e
  else if c = acDESTROYCONN then s.destroyConnection e
  else if c = acINSTALLKEY then s.installKeyRun e
  else if c = acDESTROYGROUP then s.destroyGroup e
  else if c = acSWITCH then s.switchEpoch e
  else if c = acINVALIDATE then s.invalidateRun e
  else if c = acCONFIGURE then s.configureRun e
  else if c = acSETINSTANCES then s.setInstancesRun e
  else if c = acRESETINSTANCE then s.resetRun e
  else if c = acARMLOG then s.armRun e
  else { st := s, status := adORDER }

/-- ADMIN (20 R563): the command is put in progress in an admin record, on tile 0 and under 03 R86; ADMIN_COMPLETE answers it. -/
def State.sbAdmin (s : State) (e : Entry) : State :=
  if s.readsHost e then s.sbStatus adORDER
  else if s.adminHeld e || s.flag F.CTL_JRNL_CTRL_REPLAY then s
  else if !s.tileActive (s.servingTile 0) then s.wakeEvent (s.servingTile 0) wcSIDEBAND
  else match s.freeAdm with
    | none => s
    | some r =>
      let s := s.drawn.sbCount.countGroup.jrnlChip (adminOff r) 64 e.toNat
      State.putAdmin (s.adminRun e (fun s => s.runByCode e)) r 0 e true (s.adminNames e)

/-- ADMIN. -/
def execAdmin (ok : Bool) (e : Entry) (v : View) (s : State) : Outcome State Fault Refusal :=
  .next (
    let s := s.see v
    s.sbTake ok true (fun s =>
      if !s.mgt.fwRunning then s.sbStatus sbNOFW else s.sbLive (fun s => s.sbAdmin e)))

/-- DEVICE_RESET (20 R545, R563): it begins after the response has been read. -/
def execDeviceReset (ok : Bool) (s : State) : Outcome State Fault Refusal :=
  .next (s.sbTake ok false (fun s => s.sbCount.askReset.sbStatus 0))

/-- SB_WRITE (20 R565): the control owner writes `w` to `MGT_CTRL` without DEV_RESET. -/
def execSbWrite (w : Word) (s : State) : Outcome State Fault Refusal :=
  .next (s.setup (s.ownerCtrlWrite (w &&& 0x7FFFFFFF#32)))

end Sys2Proof.Machine
end

