-- ==== Sys2Proof/Machine/Replay.lean ====
section
/-! DEFINITION. The meaning of JOURNAL_REPLAY: what a replay checks, restores, posts again and runs (06 R228-R236, 03 R89,
07 R270, 08 R304, 09 R316, R330, 10 R354). -/

namespace Sys2Proof.Machine

open Host (Outcome)

/-- The values of CTL_JRNL_CTRL.RESULT (06). -/
def rpOK : Nat := 1
def rpHEADER : Nat := 2
def rpREAD : Nat := 3
def rpIMAGE : Nat := 4

/-- A header breaks a check of 06 R233 step 1: MAGIC, VERSION, N, and CHIP_ID except under FAILOVER. -/
def State.headerBad (s : State) (n h : Nat) : Bool :=
  h % 2 ^ 32 != 0x414A4E31 || h / 2 ^ 32 % 65536 != 1 || h / 2 ^ 48 % 256 != n ||
    (!s.flag F.CTL_JRNL_CTRL_FAILOVER && h / 2 ^ 64 % 2 ^ 64 != s.part.chipId.toNat)

/-- An image as the replay reads it: from IMAGE_ADDR, or from its copy (06 R232, 20 R564). -/
def State.imageRead (s : State) (m : JImage) : HostRead :=
  if m.sideband then
    let o : SbImage := { kind := m.kind, number := m.number, len := m.len, crc := m.crc, plan := m.plan }
    match Map.get? s.ram.copies o.recordNo with
    | some c => .data c.2.2.2
    | none => .data 0
  else m.img

/-- The bytes of an image, as the replay restores it. -/
def State.imageOf (s : State) (m : JImage) : Nat :=
  match s.imageRead m with
  | .data d => d % 256 ^ m.len
  | .error => 0

/-- The RESULT that ends a replay before it restores anything, if one does (06 R233 steps 1 and 2). -/
def State.replayFault (s : State) (r : Journal) : Option Nat :=
  if r.headers.any (s.headerBad r.n) then some rpHEADER
  else if r.readErr || r.images.any (fun m => s.imageRead m == .error) || r.groups.any (fun g => g.tree == .error) then some rpREAD
  else if r.images.any (fun m => imageCrc m.len (s.imageOf m) != m.crc) then some rpIMAGE
  else none

/-- Instance `i` is recovered by the failover rule (06 R227, R236). -/
def State.failed (s : State) (i : Nat) : Bool := s.flag F.CTL_JRNL_CTRL_FAILOVER || s.mgt.failover.contains i

/-- An instance record (06 R232, 12 R390): the generation advances at a failover alone. -/
def State.putInst (s : State) (x : JInst) : State :=
  let b := x.body
  let s := s.modInst x.inst (fun y => { y with
    configured := x.configured, cfgBody := b, xltRoot := b % 2 ^ 64, walk := b.testBit 64, regionBase := b / 256 ^ 16 % 2 ^ 64,
    regionLog2 := b / 256 ^ 24 % 32, spillBase := b / 256 ^ 32 % 2 ^ 64, spillCtx := b / 256 ^ 40 % 2 ^ 32 })
  let s := s.setFld (F.CTL_INST_STATE_GEN x.inst) ((x.gen + b2n (s.failed x.inst)) % 256)
  match x.log with
  | none => s
  | some l => (s.arm x.inst (some l)).modInst x.inst (fun y => { y with logRoom := x.logRoom })

/-- An epoch has its image back, or a table (06 R233 step 2). -/
def State.putImage (s : State) (m : JImage) : State :=
  if m.kind < 2 then s.holdImage m.kind m.number (s.imageOf m) m.plan else s.setTable m.number (s.imageOf m)

/-- An epoch takes its state again (06 R233 step 2). One that was PENDING with a tide in the past is not switched to (03 R89): it is
IDLE. -/
def State.putEpoch (s : State) (x : JEpoch) : State :=
  if x.state = esACTIVE then
    (s.setEpochOf x.kind x.number esACTIVE).setFld (if x.kind = 0 then F.CTL_ROUTE_EPOCH_STAMP else F.TIM_SCHED_EPOCH_STAMP) x.number
  else if x.state = esPENDING ∧ s.t < x.switchAt then
    (if x.kind = 0 then s.switchRoute x.number x.switchAt else s.switchSched x.number x.switchAt)
  else if x.state = esRETIRING then
    let s := s.setEpochOf x.kind x.number esRETIRING
    if x.kind = 0 then { s with rt := { s.rt with retireFrom := x.switchAt } }
    else { s with tim := { s.tim with schedRetireFrom := x.switchAt } }
  else if x.state = esEMPTY then s.setEpochOf x.kind x.number esEMPTY
  else s.setEpochOf x.kind x.number esIDLE

/-- A group member with what staging kept of its operations; a failed-over instance keeps nothing (10 R354). -/
def State.putGroup (s : State) (g : JGroup) : State :=
  let t := match g.tree with | .data d => d | .error => 0
  let i := aObject g.entry % 128
  let x := treeGroup i (aBody g.entry 16 4) (aBody g.entry 20 4) (aBody g.entry 24 4) t
  let ops := if s.failed i then [] else Map.getD s.kept.ops g.handle []
  { s with col := { s.col with groups := Map.set s.col.groups g.handle { x with ops := ops } } }

/-- An entry of a region table is read back (08 R279); one that holds zero has never been registered (03 R94). -/
def State.putRegion (s : State) (i x w : Nat) : State :=
  let r : Region := { vbase := w % 2 ^ 48, len := w / 2 ^ 64 % 2 ^ 64, valid := w.testBit 135, access := w / 2 ^ 128 % 32,
                      variant := w / 2 ^ 136 % 256, pd := w / 2 ^ 144 % 65536, used := w != 0 }
  { s with obj := { s.obj with regions := Map.set s.obj.regions (i * 2 ^ 24 + x) r } }

/-- Step 2 of 06 R233. -/
def State.restoreConfig (s : State) (r : Journal) : State :=
  let s := s.setFld F.CTL_INSTANCES_N r.n
  let s := r.insts.foldl State.putInst s
  let s := r.images.foldl State.putImage s
  let s := r.epochs.foldl State.putEpoch s
  let s : State := { s with obj := { s.obj with pds := r.pds.foldl (fun m p => Map.set m p.1 p.2) s.obj.pds } }
  let s := r.groups.foldl State.putGroup s
  r.regions.foldl (fun s x => s.putRegion x.1 x.2.1 x.2.2) s

/-- A queue comes back at its POSITION, with the completions that waited for it (06 R230, R233 step 4, 16 R470). -/
def State.putQueue (s : State) (q rec64 : Nat) : State :=
  if !rec64.testBit 7 then s else
  let i := s.instOfQueue q
  let x := queueAs i (rec64 / 2 ^ 64 % 2 ^ 128)
  let w := if s.failed i then [] else Map.getD s.kept.waiting q []
  { s with obj := { s.obj with queues := Map.set s.obj.queues q { x with pos := rec64 / 2 ^ 32 % 65536, waiting := w } } }

/-- A connection comes back CLOSED, with F at WM, and with its key spent (06 R231, R233 steps 4 and 6, 08 R304). At a failover
one that had been open comes back OPEN under the generation before, and so stale: its peer sees REMOTE_GENERATION (06 R203,
R236, 12 R395). -/
def State.putConn (s : State) (c : JConn) : State :=
  let b := c.bytes
  if !b.testBit 7 then s else
  let i := handleInst c.handle
  let p := b / 2 ^ 32 % 2 ^ 32
  let die := 65536 / max 1 s.nInst
  let place : CtxPlace := if c.spill then .spill c.place else if c.place < die then .onDie c.place else .gddr (c.place - die)
  let wm := b / 2 ^ 16 % 65536
  let keys := match c.key with
    | some y => [{ epoch := b / 256 ^ 12 % 256, key := y, spent := true : KeyEpoch }]
    | none => []
  let k : Conn := { inst := i, pd := c.pd, peerEp := p % 2 ^ 17, peerInst := p / 2 ^ 17 % 128, cls := p / 2 ^ 24 % 8,
                    peerHandle := b / 2 ^ 64 % 2 ^ 32, encrypt := b.testBit 6,
                    st := if s.failed i && b.testBit 5 then .opened else .closed,
                    openGen := if s.failed i then (s.gen i + 255) % 256 else s.gen i,
                    peerGen := if b.testBit 5 then some (b / 256 % 256) else none, place := place, used := s.t, wm := wm,
                    front := wm, unmatched := if s.failed i then 0 else b / 256 ^ 48 % 2 ^ 32, keys := keys }
  { s with xpt := { s.xpt with conns := Map.set s.xpt.conns c.handle k } }

/-- Step 4 of 06 R233. -/
def State.restoreWork (s : State) (r : Journal) : State :=
  let s := r.queues.foldl (fun s q => s.putQueue q.1 q.2) s
  (r.conns.foldl State.putConn s).pollBudget

/-- The completion queue of work queue `q`, as its record holds it; the record keeps that when the queue is destroyed (02 R74;
log entry 163). -/
def recordCq (r : Journal) (q : Nat) : Nat :=
  match r.queues.find? (fun x => x.1 == q) with
  | some x => (queueAs 0 (x.2 / 2 ^ 64 % 2 ^ 128)).cq
  | none => 0

/-- A valid slot as its record gives it (06 R229, 09 R315). -/
def State.slotAs (s : State) (r : Journal) (b : Nat) : Slot :=
  let e := BitVec.ofNat 512 b
  let q := b / 256 ^ 66 % 65536
  let unit := q = 0 ∧ b / 256 ^ 68 % 65536 = 0xFFFF
  { desc := e, queue := q, index := b / 256 ^ 68 % 65536, cq := ((s.queue? q).map (·.cq)).getD (recordCq r q),
    stamp := b / 256 ^ 72 % 2 ^ 64, phase := if unit then SlotPhase.unit else SlotPhase.running,
    seq := if b.testBit 518 then some (b / 256 ^ 70 % 65536) else none, acceptedAt := s.t, rdv := !unit && s.isRdv e }

/-- The key of a descriptor slot. -/
def slotKey (i n : Nat) : Nat := i * 1048576 + n

/-- A valid slot takes its place again, and its reservation (02 R54); its instance's stamps go on after it. -/
def State.putSlot (s : State) (r : Journal) (z b : Nat) : State :=
  if !b.testBit 519 then s else
  let x := s.slotAs r b
  let x := if (s.queue? x.cq).any (fun c => c.waiting.any (fun w => w.src == .slot z)) && x.phase != .unit then
    { x with phase := SlotPhase.done } else x
  let s : State := { s with obj := { s.obj with slots := Map.set s.obj.slots z x } }
  let s := s.modInst (slotInst z) (fun y => { y with stamp := max y.stamp (x.stamp + 1) })
  if x.phase = .unit then s else s.modQueue x.cq (fun c => { c with reserved := c.reserved + 1 })

/-- At a failover a valid slot completes with UNREACHABLE and ACCEPTED = 1; a unit slot is discarded (06 R236, 09 R330). -/
def State.failSlot (s : State) (z : Nat) : State :=
  match s.slot? z with
  | none => s
  | some x =>
    if x.phase = .unit then s.freeSlot z
    else s.finishSlot z stUNREACHABLE (if dOpcode x.desc = opCOLLECTIVE then collBody 0 (cOpnum x.desc) 0 0 0 else bytesBody 0)

/-- The slots of the journal that are restored, in STAMP order. -/
def State.slotsBack (s : State) (r : Journal) (failed : Bool) : List Nat :=
  sortBy s.stampOf ((r.slots.map (fun x => slotKey x.1 x.2.1)).filter (fun z =>
    (s.slot? z).isSome && s.failed (slotInst z) == failed))

/-- The entries of the unexpected store that survive: those at or below WM, with their bindings (07 R270). -/
def State.restoreStore (s : State) : State :=
  let live := s.kept.store.filter (fun e => !s.failed e.2.inst && (s.conn? e.2.handle).isSome)
  let back := Map.mapV live (fun _ e => { e with
    bound := e.bound.filter (fun b => (s.slot? b.1).any (fun x => x.stamp == b.2)), pulling := false,
    status := if e.lost then e.status else 0 })
  let s : State := { s with mat := { s.mat with store := back, nextStore := s.kept.nextStore } }
  back.foldl (fun s e => if e.2.rts && e.2.bound.isSome then s.queuePull e.1 else s) s

/-- A surviving entry holds receive `z`. -/
def State.boundEntry (s : State) (z : Nat) : Bool := s.mat.store.any (fun e => e.2.bound.any (fun b => b.1 == z))

/-- Messages that slot `z` began keep the SEQ of its record. -/
def State.keepSeq (s : State) (z : Nat) (seq : Option Nat) : State :=
  match seq with
  | none => s
  | some q => { s with xpt := { s.xpt with msgs := Map.mapV s.xpt.msgs (fun _ m =>
      if m.origin = .desc z ∨ m.origin = .unit z then { m with seq := some q } else m) } }

/-- A unit slot: NEW goes to the word while PENDING is set; a WAITING request waits for its hold again, by the address of the
word; any other response is sent again (09 R315, R316, R330). -/
def State.repostUnit (s : State) (z : Nat) (x : Slot) : State :=
  let u := unitFields x.desc
  let s := if u.pending then
      let s : State := { s with ram := { s.ram with cells := ramWrite s.ram.cells u.maddr 8 u.new } }
      s.modUnit z (fun u => { u with pending := false })
    else s
  if u.waiting then
    let i := slotInst z
    let m : Master := { via := true, inst := i, who := u.handle, tag := u.tag }
    match s.atu.held.find? (fun h => h.2.inst == i && (s.region i h.2.key).vbase + h.2.offset == (s.region i u.key).vbase + u.offset) with
    | some (n, _) => s.modHeld n (fun h => { h with waiters := h.waiters ++ [{ master := m, prio := u.prio, slot := some z }] })
    | none => s
  else s.sendUnit z

/-- One valid slot is posted again (06 R233 step 5, 07 R270, 09 R330, 10 R354). A launch that has no SEQ has not started. -/
def State.repost (s : State) (z : Nat) : State :=
  match s.slot? z with
  | none => s
  | some x =>
    let op := dOpcode x.desc
    if x.phase = .done then s
    else if x.phase = .unit then (s.repostUnit z x).keepSeq z x.seq
    else if op = opPOSTRECV ∧ s.boundEntry z = true then s
    else
      let s := if op = opCOLLECTIVE then s.joinGroup z x.desc else s
      if dTkind x.desc = 1 ∧ x.seq.isNone = true then s.modSlot z (fun y => { y with phase := .launch, replayed := true })
      else (s.startDesc z).keepSeq z x.seq

/-- The registry comes back, without its waiters: those of slots are withdrawn, those of connections return from their unit
slots (09 R330). -/
def State.restoreHeld (s : State) : State :=
  let live := Map.mapV (s.kept.held.filter (fun h => !s.failed h.2.inst)) (fun _ h => { h with waiters := [] })
  { s with atu := { s.atu with held := live, nextHeld := s.kept.nextHeld } }

/-- Once the waiters are back: the holds of slots are abandoned, and the levels of the others follow (09 R326, R330). -/
def State.settleHeld (s : State) : State :=
  let s := s.abandonAll (fun h => !h.owner.via)
  s.atu.held.foldl (fun s h => s.levelCheck h.1) s

/-- The collective messages whose SEQ staging kept are there again, to be filled by the repeated run (10 R354). -/
def State.restoreColl (s : State) : State :=
  s.col.groups.foldl (fun s g => g.2.ops.foldl (fun s o => o.sent.foldl (fun s r =>
    if r.covered || r.handle == localEdge || !(s.conn? r.handle).any (fun k => k.st == .closed) then s else
    let m := collMsg r.handle g.2.gid o.opnum (.collective g.1 o.opnum r.down) 0 0 (r.len - 32) (some 0)
    { s with xpt := { s.xpt with msgs := Map.set s.xpt.msgs s.xpt.nextMsg { m with seq := some r.seq, acceptedAt := s.t },
                                 nextMsg := s.xpt.nextMsg + 1 } }) s) s) s

/-- The slots, the store and the registry are back where they were (06 R233 steps 5 and 6); under the failover rule the slots end
instead (06 R236). -/
def State.restoreSlots (s : State) (r : Journal) : State :=
  let s := r.slots.foldl (fun s x => s.putSlot r (slotKey x.1 x.2.1) x.2.2) s
  let s := (s.slotsBack r true).foldl State.failSlot s
  s.restoreStore.restoreHeld.restoreColl

/-- The work of the slots goes on: each is posted again in STAMP order (06 R233 step 5). -/
def State.repostSlots (s : State) (r : Journal) : State :=
  let s := (s.slotsBack r false).foldl State.repost s
  s.xpt.conns.foldl (fun s c => s.resetSending c.1) s.settleHeld

/-- The sum of UNMATCHED over instance `i`'s connection records (06 R236). -/
def lostOf (r : Journal) (i : Nat) : Nat :=
  ((r.conns.filter (fun c => handleInst c.handle == i && c.bytes.testBit 7)).map (fun c => c.bytes / 256 ^ 48 % 2 ^ 32)).sum

/-- An instance that was failed over has LOST in its header and its generation in its record (06 R228, R236). -/
def State.recordLost (s : State) (r : Journal) (i : Nat) : State :=
  if !s.failed i then s else
  let s := s.jrnlInst i 0 32 (s.areaHeader i (lostOf r i) false)
  let s := s.jrnlInstCfg i
  (r.conns.filter (fun c => handleInst c.handle == i)).foldl (fun s c => s.jrnlConn c.handle) s

/-- The command of an admin record is run, with what its reads return (03 R89). -/
def State.replayCommand (s : State) (x : JAdmin) : AdminRun :=
  let e := x.entry
  let c := aCode e
  if c = acCREATEGROUP then s.createGroup e x.read
  else if c = acLOADROUTE then s.loadImage 0 e x.read
  else if c = acLOADSCHED then s.loadImage 1 e x.read
  else if c = acLOADTABLE then s.loadTable (aObject e % 16) (aBody e 24 4) (aBody e 28 4) x.read
  else if c = acDESTROYQUEUE then s.destroyQueue e x.ring
  else if c = acSWITCH then
    let kind := aObject e % 2
    let ep := aObject e / 2 % 2
    let T := aBody e 16 8
    if T ≤ s.t then { st := s, status := adTIDE }
    else if s.epochOf kind ep = esPENDING then { st := s, wait := .switch kind ep }
    else s.switchEpoch e
  else s.runByCode e

/-- An admin record is run again, or writes the completion that waited (06 R233 step 3, 03 R89, 02 R56). -/
def State.replayAdmin (s : State) (x : JAdmin) : State :=
  let s := s.modQueue acqKey (fun c => { c with reserved := c.reserved + 1 })
  match x.done with
  | some d => State.putAdmin { st := s, status := d.1, result := d.2 } x.number x.index x.entry false (s.adminNames x.entry)
  | none => State.putAdmin (s.adminRun x.entry (fun s => s.replayCommand x)) x.number x.index x.entry false (s.adminNames x.entry)

/-- Step 3 of 06 R233: the admin rings serve the completions, as the registers set them. The commands run once the objects that
they name are back, and before any slot is posted again (log entry 71). -/
def State.restoreAdmin (s : State) (r : Journal) : State :=
  if r.admin.isEmpty then s else
  let s := if s.aqBad (s.rd Reg.CTL_AQ_CTRL) then s else s.aqStart
  (sortBy (·.number) r.admin).foldl State.replayAdmin s

/-- The end of a replay with RESULT `n` (06 R233). -/
def State.replayEnd (s : State) (n : Nat) : State :=
  (s.setFld F.CTL_JRNL_CTRL_RESULT n).setFld F.CTL_JRNL_CTRL_REPLAY 0

/-- Every engine of every ACTIVE tile has a part of the replay (01 R20; log entry 154). -/
def State.replayTasks (s : State) : State :=
  ((List.range 64).filter s.tileActive).foldl (fun s t => s.occur (bkTIL t) 0x12 [0] 4) s

/-- What lies between the checks and the end of a replay (06 R233, R236). -/
def State.restoreAll (s : State) (r : Journal) (v : View) : State :=
  let s := ((s.replayTasks.restoreConfig r).restoreWork r).see v
  let s := ((s.restoreSlots r).restoreAdmin r).repostSlots r
  let s := (List.range r.n).foldl (fun s i => s.recordLost r i) s
  s.see v

/-- A connection with work to do opens again: its context is asked for first, if it is not on die (06 R199, R233). -/
def State.openWork (s : State) (h : Nat) : State :=
  if (s.msgsOf h).isEmpty || !(s.conn? h).any (fun k => k.st == .closed) then s else (s.needContext h).openIfWork h

/-- A replay, once it has started (06 R233-R236). -/
def State.replay (s : State) (r : Journal) (v : View) : State :=
  match s.replayFault r with
  | some n => (s.raise blkCTL (if n = rpHEADER then 1 else 2) n).replayEnd n
  | none =>
    let s := (s.restoreAll r v).replayEnd rpOK
    let s : State := { s with kept := {}, mgt := { s.mgt with failover := [] } }
    (s.xpt.conns.foldl (fun s c => s.openWork c.1) s).progress

/-- JOURNAL_REPLAY (06 R233): the word written to `CTL_JRNL_CTRL`, taken with REPLAY = 1. -/
def execJournalReplay (w : Word) (r : Journal) (v : View) (s : State) : Outcome State Fault Refusal :=
  .next (
    let s := s.setup (s.jrnlCtrlWrite (w ||| 0x40000000#32))
    if s.flag F.CTL_JRNL_CTRL_REPLAY then s.replay r v else s)

end Sys2Proof.Machine
end

