-- ==== Sys2Proof/Machine/Dispatch.lean ====
section
/-! DEFINITION. The one dispatch from a command to its meaning. -/

namespace Sys2Proof.Machine

/-- The effect of a command on everything but the queue. -/
def exec (i : Instr) (s : State) : Host.Outcome State Fault Refusal :=
  match i with
  | .poll q n => Sys2Proof.Machine.execPoll q n s
  | .aonPoll q n => Sys2Proof.Machine.execAonPoll q n s
  | .snoop q n => Sys2Proof.Machine.execSnoop q n s
  | .ringReadError q timeout => Sys2Proof.Machine.execRingReadError q timeout s
  | .ringRereadTimer q n => Sys2Proof.Machine.execRingRereadTimer q n s
  | .cqEntryReturned q n => Sys2Proof.Machine.execCqEntryReturned q n s
  | .send q e v => Sys2Proof.Machine.execSend q e v s
  | .postRecv q e v => Sys2Proof.Machine.execPostRecv q e v s
  | .writeMsg q e v => Sys2Proof.Machine.execWriteMsg q e v s
  | .writeImm q e v => Sys2Proof.Machine.execWriteImm q e v s
  | .readMsg q e v => Sys2Proof.Machine.execReadMsg q e v s
  | .atomic q e v => Sys2Proof.Machine.execAtomic q e v s
  | .lockAcquire q e v => Sys2Proof.Machine.execLockAcquire q e v s
  | .lockRelease q e v => Sys2Proof.Machine.execLockRelease q e v s
  | .collective q e v => Sys2Proof.Machine.execCollective q e v s
  | .cancelRecv q e v => Sys2Proof.Machine.execCancelRecv q e v s
  | .nop q e v => Sys2Proof.Machine.execNop q e v s
  | .launchPowerRaise k => Sys2Proof.Machine.execLaunchPowerRaise k s
  | .launchStart k v => Sys2Proof.Machine.execLaunchStart k v s
  | .createQueue e => Sys2Proof.Machine.execCreateQueue e s
  | .destroyQueue e ring => Sys2Proof.Machine.execDestroyQueue e ring s
  | .createPd e => Sys2Proof.Machine.execCreatePd e s
  | .destroyPd e => Sys2Proof.Machine.execDestroyPd e s
  | .registerRegion e => Sys2Proof.Machine.execRegisterRegion e s
  | .deregisterRegion e => Sys2Proof.Machine.execDeregisterRegion e s
  | .createConnection e => Sys2Proof.Machine.execCreateConnection e s
  | .destroyConnection e => Sys2Proof.Machine.execDestroyConnection e s
  | .installKey e => Sys2Proof.Machine.execInstallKey e s
  | .createGroup e tree => Sys2Proof.Machine.execCreateGroup e tree s
  | .destroyGroup e => Sys2Proof.Machine.execDestroyGroup e s
  | .loadRoute e img => Sys2Proof.Machine.execLoadRoute e img s
  | .loadSchedule e img => Sys2Proof.Machine.execLoadSchedule e img s
  | .switchEpoch e => Sys2Proof.Machine.execSwitchEpoch e s
  | .invalidateTranslation e => Sys2Proof.Machine.execInvalidateTranslation e s
  | .configureInstance e => Sys2Proof.Machine.execConfigureInstance e s
  | .setInstances e => Sys2Proof.Machine.execSetInstances e s
  | .resetInstance e => Sys2Proof.Machine.execResetInstance e s
  | .armPageLog e => Sys2Proof.Machine.execArmPageLog e s
  | .loadTable e img => Sys2Proof.Machine.execLoadTable e img s
  | .adminComplete r v => Sys2Proof.Machine.execAdminComplete r v s
  | .aqEnable w => Sys2Proof.Machine.execAqEnable w s
  | .aqDisable w => Sys2Proof.Machine.execAqDisable w s
  | .endpointWrite w => Sys2Proof.Machine.execEndpointWrite w s
  | .route k => Sys2Proof.Machine.execRoute k s
  | .codewordSend l stuffed => Sys2Proof.Machine.execCodewordSend l stuffed s
  | .tide => Sys2Proof.Machine.execTide s
  | .drain l c => Sys2Proof.Machine.execDrain l c s
  | .forcedRetirement => Sys2Proof.Machine.execForcedRetirement s
  | .scheduleEpochRetire => Sys2Proof.Machine.execScheduleEpochRetire s
  | .tsExchange => Sys2Proof.Machine.execTsExchange s
  | .tsReq l num => Sys2Proof.Machine.execTsReq l num s
  | .tsResp l num => Sys2Proof.Machine.execTsResp l num s
  | .tsData l t2 t3 => Sys2Proof.Machine.execTsData l t2 t3 s
  | .exchangeMissed => Sys2Proof.Machine.execExchangeMissed s
  | .holdoverLimit => Sys2Proof.Machine.execHoldoverLimit s
  | .holdoverLinkRaise => Sys2Proof.Machine.execHoldoverLinkRaise s
  | .ppsEdge valid => Sys2Proof.Machine.execPpsEdge valid s
  | .setArm w => Sys2Proof.Machine.execSetArm w s
  | .timeInLost => Sys2Proof.Machine.execTimeInLost s
  | .standbyTakeover => Sys2Proof.Machine.execStandbyTakeover s
  | .timCtrlWrite w => Sys2Proof.Machine.execTimCtrlWrite w s
  | .timNowRead who => Sys2Proof.Machine.execTimNowRead who s
  | .timeOutPulse => Sys2Proof.Machine.execTimeOutPulse s
  | .xsrcRead w => Sys2Proof.Machine.execXsrcRead w s
  | .xsrcWrite w => Sys2Proof.Machine.execXsrcWrite w s
  | .windowPayloadRead n slot => Sys2Proof.Machine.execWindowPayloadRead n slot s
  | .windowSource n slot data => Sys2Proof.Machine.execWindowSource n slot data s
  | .mark l data => Sys2Proof.Machine.execMark l data s
  | .transitCell l c => Sys2Proof.Machine.execTransitCell l c s
  | .transitDown c => Sys2Proof.Machine.execTransitDown c s
  | .laneHold l hold => Sys2Proof.Machine.execLaneHold l hold s
  | .scheduleWake l => Sys2Proof.Machine.execScheduleWake l s
  | .openConn c v => Sys2Proof.Machine.execOpenConn c v s
  | .openAck c v => Sys2Proof.Machine.execOpenAck c v s
  | .dataCell c => Sys2Proof.Machine.execDataCell c s
  | .wmAdvance h v => Sys2Proof.Machine.execWmAdvance h v s
  | .ack c v => Sys2Proof.Machine.execAck c v s
  | .probe c => Sys2Proof.Machine.execProbe c s
  | .status c v => Sys2Proof.Machine.execStatus c v s
  | .retransmissionTimer h v => Sys2Proof.Machine.execRetransmissionTimer h v s
  | .remoteGeneration c v => Sys2Proof.Machine.execRemoteGeneration c v s
  | .contextSwapComplete h => Sys2Proof.Machine.execContextSwapComplete h s
  | .writeStall p acked => Sys2Proof.Machine.execWriteStall p acked s
  | .journalReplay w r v => Sys2Proof.Machine.execJournalReplay w r v s
  | .unexpectedCopy e v => Sys2Proof.Machine.execUnexpectedCopy e v s
  | .pullStart e => Sys2Proof.Machine.execPullStart e s
  | .readReq h v => Sys2Proof.Machine.execReadReq h v s
  | .sourceReadFail id timeout v => Sys2Proof.Machine.execSourceReadFail id timeout v s
  | .sourceFault c => Sys2Proof.Machine.execSourceFault c s
  | .fault c v => Sys2Proof.Machine.execFault c v s
  | .faultConfirm c => Sys2Proof.Machine.execFaultConfirm c s
  | .tag c => Sys2Proof.Machine.execTag c s
  | .keySwitch c => Sys2Proof.Machine.execKeySwitch c s
  | .keySwitchAck c => Sys2Proof.Machine.execKeySwitchAck c s
  | .noKey c => Sys2Proof.Machine.execNoKey c s
  | .atomicReq h v => Sys2Proof.Machine.execAtomicReq h v s
  | .acquire h v => Sys2Proof.Machine.execAcquire h v s
  | .release h v => Sys2Proof.Machine.execRelease h v s
  | .abandonAll h v => Sys2Proof.Machine.execAbandonAll h v s
  | .hostWordOpDone k tries ur v => Sys2Proof.Machine.execHostWordOpDone k tries ur v s
  | .pendingWriteDone k v => Sys2Proof.Machine.execPendingWriteDone k v s
  | .atomicResp h v => Sys2Proof.Machine.execAtomicResp h v s
  | .lockResp h v => Sys2Proof.Machine.execLockResp h v s
  | .atuLkAcquire inst n v => Sys2Proof.Machine.execAtuLkAcquire inst n v s
  | .atuLkRelease inst n v => Sys2Proof.Machine.execAtuLkRelease inst n v s
  | .lkAcquireRetry inst n => Sys2Proof.Machine.execLkAcquireRetry inst n s
  | .lkSlotWithdraw inst n v => Sys2Proof.Machine.execLkSlotWithdraw inst n v s
  | .treeStep g n data v => Sys2Proof.Machine.execTreeStep g n data v s
  | .spanCombine g n v => Sys2Proof.Machine.execSpanCombine g n v s
  | .downMessage g n v => Sys2Proof.Machine.execDownMessage g n v s
  | .collectiveAbort h v => Sys2Proof.Machine.execCollectiveAbort h v s
  | .translationMiss t inst va reads => Sys2Proof.Machine.execTranslationMiss t inst va reads s
  | .flagUpdateDone k found ur room => Sys2Proof.Machine.execFlagUpdateDone k found ur room s
  | .extentValidSet inst n w => Sys2Proof.Machine.execExtentValidSet inst n w s
  | .devlistLock w => Sys2Proof.Machine.execDevlistLock w s
  | .xltFaultInfoRead who => Sys2Proof.Machine.execXltFaultInfoRead who s
  | .instMapWrite inst w => Sys2Proof.Machine.execInstMapWrite inst w s
  | .busMasterEnableChange p f bme atomicEn bars => Sys2Proof.Machine.execBusMasterEnableChange p f bme atomicEn bars s
  | .chunkGrant data v => Sys2Proof.Machine.execChunkGrant data v s
  | .polEnable inst c w => Sys2Proof.Machine.execPolEnable inst c w s
  | .polWrite inst c n w => Sys2Proof.Machine.execPolWrite inst c n w s
  | .queueSample => Sys2Proof.Machine.execQueueSample s
  | .codeword l good cells w corrected slip unstuffed punctured => Sys2Proof.Machine.execCodeword l good cells w corrected slip unstuffed punctured s
  | .nakRepeat l => Sys2Proof.Machine.execNakRepeat l s
  | .noReplayTimeout l => Sys2Proof.Machine.execNoReplayTimeout l s
  | .nak l next => Sys2Proof.Machine.execNak l next s
  | .replay l lseq => Sys2Proof.Machine.execReplay l lseq s
  | .linkAck l next => Sys2Proof.Machine.execLinkAck l next s
  | .credit l data => Sys2Proof.Machine.execCredit l data s
  | .phaseReq l target power => Sys2Proof.Machine.execPhaseReq l target power s
  | .phase l data => Sys2Proof.Machine.execPhase l data s
  | .wake l data => Sys2Proof.Machine.execWake l data s
  | .wakePattern l => Sys2Proof.Machine.execWakePattern l s
  | .laneExitTimeout l => Sys2Proof.Machine.execLaneExitTimeout l s
  | .retrain l w => Sys2Proof.Machine.execRetrain l w s
  | .train l data eq eqValid => Sys2Proof.Machine.execTrain l data eq eqValid s
  | .trainingTimeout l => Sys2Proof.Machine.execTrainingTimeout l s
  | .trainingRetry l => Sys2Proof.Machine.execTrainingRetry l s
  | .linkLost l => Sys2Proof.Machine.execLinkLost l s
  | .linkDown l => Sys2Proof.Machine.execLinkDown l s
  | .hostPortReset p unacked v => Sys2Proof.Machine.execHostPortReset p unacked v s
  | .flr p f v => Sys2Proof.Machine.execFlr p f v s
  | .hptDisable p w unacked v => Sys2Proof.Machine.execHptDisable p w unacked v s
  | .hptRetrain p w unacked v => Sys2Proof.Machine.execHptRetrain p w unacked v s
  | .cplTimeout p f => Sys2Proof.Machine.execCplTimeout p f s
  | .poison p f => Sys2Proof.Machine.execPoison p f s
  | .atomicUr k v => Sys2Proof.Machine.execAtomicUr k v s
  | .memEnable w => Sys2Proof.Machine.execMemEnable w s
  | .memTrained fails loss => Sys2Proof.Machine.execMemTrained fails loss s
  | .memHostBaseWrite v => Sys2Proof.Machine.execMemHostBaseWrite v s
  | .uncorrectableRead dev chan work loss v => Sys2Proof.Machine.execUncorrectableRead dev chan work loss v s
  | .rebuildDone => Sys2Proof.Machine.execRebuildDone s
  | .patrolScrub corrected => Sys2Proof.Machine.execPatrolScrub corrected s
  | .memTemperatureRead temps => Sys2Proof.Machine.execMemTemperatureRead temps s
  | .pwrTileReq t w sideband => Sys2Proof.Machine.execPwrTileReq t w sideband s
  | .wakeEvent t cause => Sys2Proof.Machine.execWakeEvent t cause s
  | .standingReturn t => Sys2Proof.Machine.execStandingReturn t s
  | .sequenceStepDone t codes powerGood => Sys2Proof.Machine.execSequenceStepDone t codes powerGood s
  | .pllLock => Sys2Proof.Machine.execPllLock s
  | .bankReload t b => Sys2Proof.Machine.execBankReload t b s
  | .thermalSample t temp => Sys2Proof.Machine.execThermalSample t temp s
  | .brownout t => Sys2Proof.Machine.execBrownout t s
  | .fltForce blk w => Sys2Proof.Machine.execFltForce blk w s
  | .fltStatusClear blk w => Sys2Proof.Machine.execFltStatusClear blk w s
  | .fltUnackClear blk w => Sys2Proof.Machine.execFltUnackClear blk w s
  | .fltFirstClear blk w => Sys2Proof.Machine.execFltFirstClear blk w s
  | .msiXMessage => Sys2Proof.Machine.execMsiXMessage s
  | .errNPulseEnd => Sys2Proof.Machine.execErrNPulseEnd s
  | .dumpWrite own => Sys2Proof.Machine.execDumpWrite own s
  | .cntValRead who b c => Sys2Proof.Machine.execCntValRead who b c s
  | .cntSelWrite b c w => Sys2Proof.Machine.execCntSelWrite b c w s
  | .cntCtrlEnable w => Sys2Proof.Machine.execCntCtrlEnable w s
  | .powerUp owner sbOnly sbAddr => Sys2Proof.Machine.execPowerUp owner sbOnly sbAddr s
  | .firmwareLoad flash readErr sigOk version => Sys2Proof.Machine.execFirmwareLoad flash readErr sigOk version s
  | .selfTest fail => Sys2Proof.Machine.execSelfTest fail s
  | .pwrGoodFall late => Sys2Proof.Machine.execPwrGoodFall late s
  | .resetN low => Sys2Proof.Machine.execResetN low s
  | .devReset w => Sys2Proof.Machine.execDevReset w s
  | .deviceResetBegin late => Sys2Proof.Machine.execDeviceResetBegin late s
  | .digest l c => Sys2Proof.Machine.execDigest l c s
  | .digestRetry l => Sys2Proof.Machine.execDigestRetry l s
  | .digestTimeout l => Sys2Proof.Machine.execDigestTimeout l s
  | .profileValid w => Sys2Proof.Machine.execProfileValid w s
  | .regRead ok a => Sys2Proof.Machine.execRegRead ok a s
  | .regWrite ok a w v => Sys2Proof.Machine.execRegWrite ok a w v s
  | .imageOpen ok target len crc plan => Sys2Proof.Machine.execImageOpen ok target len crc plan s
  | .imageData ok off data => Sys2Proof.Machine.execImageData ok off data s
  | .imageClose ok => Sys2Proof.Machine.execImageClose ok s
  | .admin ok e v => Sys2Proof.Machine.execAdmin ok e v s
  | .deviceReset ok => Sys2Proof.Machine.execDeviceReset ok s
  | .sbWrite w => Sys2Proof.Machine.execSbWrite w s
  | .registerWrite p a n v view => Sys2Proof.Machine.execRegisterWrite p a n v view s
  | .ppsEdgeLate => Sys2Proof.Machine.execPpsEdgeLate s
  | .engineWatchdog t eng => Sys2Proof.Machine.execEngineWatchdog t eng s
  | .periodicRetraining dev ok loss => Sys2Proof.Machine.execPeriodicRetraining dev ok loss s
  | .vddAonRemoval => Sys2Proof.Machine.execVddAonRemoval s
  | .railOutOfRange rail => Sys2Proof.Machine.execRailOutOfRange rail s
  | .hostPortLinkUp p cxl rate width cache base => Sys2Proof.Machine.execHostPortLinkUp p cxl rate width cache base s
  | .laneEnable l w => Sys2Proof.Machine.execLaneEnable l w s
  | .cxlMemHostAccess p line wr => Sys2Proof.Machine.execCxlMemHostAccess p line wr s
  | .countingClock b conds occs => Sys2Proof.Machine.execCountingClock b conds occs s
  | .lowHalfRead p a n view => Sys2Proof.Machine.execLowHalfRead p a n view s
  | .testAccessInstruction inst => Sys2Proof.Machine.execTestAccessInstruction inst s

end Sys2Proof.Machine
end

