-- ==== Sys2Proof/Machine/Step.lean ====
section
/-! DEFINITION. One step of the block: the command at the front of the queue, or a sixteenth of a nanosecond of fabric time
when none waits. -/

namespace Sys2Proof.Machine

/-- One step. An empty queue lets 1/16 ns pass (05 R150; DESIGN CHOICE, log entry 73). -/
def step (s : State) : Host.Outcome State Fault Refusal :=
  match s.pending with
  | [] => .next s.tick
  | c :: rest => exec c { s with pending := rest }

/-- `s` with the command that a word of the table spells at the front of its queue: no row of the table has bits, so that no
word spells a command (log entry 74). -/
def State.withFetchWord (s : State) (nbits w : Nat) : State :=
  match Sys2Proof.decodeTableWord nbits w with
  | some c => { s with pending := c :: s.pending }
  | none => s

end Sys2Proof.Machine
end

