-- ==== Sys2Proof/Safety.lean ====
section
/-! DEFINITION. What counts as a safe state and a safe run of the block. -/

namespace Sys2Proof.Machine

/-- What one part's fuses fix (00 R2, R4, 21 R573): no command changes it. -/
def Part.fuses (p : Part) : (Bool × Bool × Bool × Bool) × Word64 × Nat × Nat × Nat :=
  ((p.reduce, p.crypt, p.gddr, p.lanesHi), p.chipId, p.stepMajor, p.stepMinor, p.highest)

/-- The memory of the CXL.mem windows is in its canonical form. -/
def State.memOk (s : State) : Prop := Memory.wf s.ram.cells = true

/-- The register file is in its canonical form: addresses rise strictly. -/
def State.regsOk (s : State) : Prop := Map.rising s.regs = true

/-- What no command changes, from `s` to `t`: what the part's fuses fix, the queue of the commands that wait, and the
canonical forms of the register file and of the windows' memory. -/
structure State.Keeps (s t : State) : Prop where
  fuses : t.part.fuses = s.part.fuses
  pending : t.pending = s.pending
  regsOk : s.regsOk → t.regsOk
  memOk : s.memOk → t.memOk

/-- What most commands leave alone beside that: fabric time, what a replay can still take, the bytes of the windows' memory, and
the straps as sampled. -/
structure State.Steady (s t : State) : Prop where
  time : t.now = s.now
  kept : t.kept = s.kept
  bytes : t.ram.cells = s.ram.cells
  part : t.part = s.part

/-- The commands that are not steady: those that may write bytes of the windows' memory, change fabric time, begin a device
reset or sample the straps. -/
def unsteady : Instr → Bool
  | .resetInstance _ | .adminComplete _ _ | .codewordSend _ _ | .tsData _ _ _ | .ppsEdge _ | .openConn _ _ | .dataCell _
  | .remoteGeneration _ _ | .journalReplay _ _ _ | .unexpectedCopy _ _ | .sourceFault _ | .tag _ | .abandonAll _ _
  | .hostWordOpDone _ _ _ _ | .pendingWriteDone _ _ | .lkSlotWithdraw _ _ _ | .atuLkAcquire _ _ _ | .atuLkRelease _ _ _ | .spanCombine _ _ _
  | .downMessage _ _ _ | .translationMiss _ _ _ _ | .flagUpdateDone _ _ _ _ | .busMasterEnableChange _ _ _ _ _
  | .linkAck _ _ | .hostPortReset _ _ _ | .flr _ _ _ | .hptDisable _ _ _ _ | .hptRetrain _ _ _ _ | .atomicUr _ _
  | .memTrained _ _ | .uncorrectableRead _ _ _ _ _ | .powerUp _ _ _ | .pwrGoodFall _ | .deviceResetBegin _
  | .regWrite _ _ _ _ | .admin _ _ _ | .registerWrite _ _ _ _ _ | .periodicRetraining _ _ _ | .vddAonRemoval
  | .railOutOfRange _ | .cxlMemHostAccess _ _ _ | .lowHalfRead _ _ _ _ => true
  | _ => false

/-- The commands of links, routing, fabric time, power, start-up, faults, counters and registers that leave the ends alone: no
connection, work object, match list, group, word operation, translation, host port or injection state is theirs to change. -/
def chipCommand : Instr → Bool
  | .launchPowerRaise _ | .endpointWrite _ | .route _ | .drain _ _ | .forcedRetirement | .scheduleEpochRetire
  | .tsExchange | .tsReq _ _ | .tsResp _ _ | .exchangeMissed | .holdoverLimit | .holdoverLinkRaise | .setArm _
  | .timeInLost | .standbyTakeover | .timCtrlWrite _ | .timNowRead _ | .timeOutPulse | .xsrcRead _ | .xsrcWrite _
  | .mark _ _ | .transitCell _ _ | .transitDown _ | .laneHold _ _ | .scheduleWake _ | .writeStall _ _
  | .extentValidSet _ _ _ | .devlistLock _ | .xltFaultInfoRead _ | .instMapWrite _ _ | .codeword _ _ _ _ _ _ _ _
  | .nakRepeat _ | .noReplayTimeout _ | .nak _ _ | .replay _ _ | .phaseReq _ _ _ | .phase _ _ | .wake _ _ | .wakePattern _
  | .laneExitTimeout _ | .retrain _ _ | .trainingTimeout _ | .trainingRetry _ | .linkLost _ | .linkDown _
  | .cplTimeout _ _ | .poison _ _ | .memEnable _ | .memHostBaseWrite _ | .rebuildDone | .patrolScrub _ | .pwrTileReq _ _ _
  | .wakeEvent _ _ | .standingReturn _ | .thermalSample _ _ | .brownout _ | .fltForce _ _
  | .fltStatusClear _ _ | .fltUnackClear _ _ | .fltFirstClear _ _ | .msiXMessage | .errNPulseEnd | .cntValRead _ _ _
  | .cntSelWrite _ _ _ | .cntCtrlEnable _ | .powerUp _ _ _ | .firmwareLoad _ _ _ _ | .selfTest _ | .resetN _ | .devReset _
  | .digestTimeout _ | .regRead _ _ | .imageOpen _ _ _ _ _ | .imageData _ _ _ | .deviceReset _ | .sbWrite _
  | .ppsEdgeLate | .engineWatchdog _ _ | .laneEnable _ _ | .countingClock _ _ _ | .testAccessInstruction _ => true
  | _ => false

/-- The commands that write no register: what they change lies outside the register file. -/
def quietCommand : Instr → Bool
  | .timNowRead _ | .tsReq _ _ | .tsResp _ _ | .timeOutPulse | .mark _ _ | .replay _ _ | .nakRepeat _
  | .memTemperatureRead _ | .msiXMessage | .cntSelWrite _ _ _ | .cntValRead _ _ _ | .countingClock _ _ _ | .resetN _
  | .contextSwapComplete _ | .cxlMemHostAccess _ _ _ | .testAccessInstruction _ | .bankReload _ _ | .queueSample => true
  | _ => false

/-- The commands that take a work descriptor, each with the OPCODE it takes (02 R58). -/
def takeCommands (q : QueueId) (e : Entry) (v : View) : List (Nat × Instr) :=
  [(opSEND, .send q e v), (opPOSTRECV, .postRecv q e v), (opWRITE, .writeMsg q e v), (opWRITEIMM, .writeImm q e v),
   (opREAD, .readMsg q e v), (opATOMIC, .atomic q e v), (opACQUIRE, .lockAcquire q e v), (opRELEASE, .lockRelease q e v),
   (opCOLLECTIVE, .collective q e v), (opCANCEL, .cancelRecv q e v), (opNOP, .nop q e v)]

/-- The commands that take an admin command, each with its ACODE and what running it does (03 R90); `ring` and `img` are what the
reads of a ring, a tree record or an image returned. -/
def adminCommands (e : Entry) (ring : List Entry) (img : HostRead) : List (Nat × Instr × (State → AdminRun)) :=
  [(acCREATEQUEUE, .createQueue e, fun s => s.createQueue e),
   (acDESTROYQUEUE, .destroyQueue e ring, fun s => s.destroyQueue e ring),
   (acCREATEPD, .createPd e, fun s => s.createPd e),
   (acDESTROYPD, .destroyPd e, fun s => s.destroyPd e),
   (acREGISTER, .registerRegion e, fun s => s.registerRegion e),
   (acDEREGISTER, .deregisterRegion e, fun s => s.deregisterRegion e),
   (acCREATECONN, .createConnection e, fun s => s.createConnection e),
   (acDESTROYCONN, .destroyConnection e, fun s => s.destroyConnection e),
   (acINSTALLKEY, .installKey e, fun s => s.installKeyRun e),
   (acCREATEGROUP, .createGroup e img, fun s => s.createGroup e img),
   (acDESTROYGROUP, .destroyGroup e, fun s => s.destroyGroup e),
   (acLOADROUTE, .loadRoute e img, fun s => s.loadImage 0 e img),
   (acLOADSCHED, .loadSchedule e img, fun s => s.loadImage 1 e img),
   (acSWITCH, .switchEpoch e, fun s => s.switchEpoch e),
   (acINVALIDATE, .invalidateTranslation e, fun s => s.invalidateRun e),
   (acCONFIGURE, .configureInstance e, fun s => s.configureRun e),
   (acSETINSTANCES, .setInstances e, fun s => s.setInstancesRun e),
   (acRESETINSTANCE, .resetInstance e, fun s => s.resetRun e),
   (acARMLOG, .armPageLog e, fun s => s.armRun e),
   (acLOADTABLE, .loadTable e img, fun s => s.loadTable (aObject e % 16) (aBody e 24 4) (aBody e 28 4) img)]

/-- The ordinary take of a work descriptor of opcode `op` (02 R52-R54): the entry at the position of the served queue `x`, on an
ACTIVE tile, with a free reservation on its completion queue `c`, a free slot `z`, and room for a receive. -/
structure State.Takes (s : State) (q : QueueId) (e : Entry) (op : Nat) (x c : Queue) (z : Nat) : Prop where
  opcode : dOpcode e = op
  queue : s.queue? q.val = some x
  entry : s.takeable q.val x e op = true
  tile : s.tileActive (s.servingTile (q.val % 64)) = true
  cq : s.queue? x.cq = some c
  room : c.reserved < 2 ^ c.log2
  posted : op = opPOSTRECV → s.postedUsed x.inst < s.postedShare
  slot : s.newSlot x.inst = some z

/-- A descriptor passes the checks of 02 R52. -/
structure State.Passes (s : State) (q : QueueId) (x : Queue) (e : Entry) : Prop where
  fields : s.badFields x.inst x.pd e = false
  option : dOpcode e = opCOLLECTIVE → cCtype e = ctREDUCE ∨ cCtype e = ctALLREDUCE → s.part.reduce = true
  length : s.badLength e = false
  time : (s.badTime x.inst q.val e).2 = false
  colour : (s.police x.inst e).2 ≠ none

/-- The ordinary take of an admin command of ACODE `code` into record `r` (03 R82, R86, 06 R226). -/
structure State.TakesAdmin (s : State) (code : Nat) (e : Entry) (r : Nat) (x c : Queue) : Prop where
  acode : aCode e = code
  queue : s.queue? 0 = some x
  own : dOwn e = true
  enabled : s.flag F.CTL_AQ_CTRL_ENABLE = true
  served : s.ownerServed = true
  running : s.halted = false
  live : s.flag F.CTL_JRNL_CTRL_REPLAY = false
  alone : s.adminHeld e = false
  ring : s.queue? acqKey = some c
  room : c.reserved < 2 ^ c.log2
  tile : s.tileActive (s.servingTile 0) = true
  record : s.freeAdm = some r

/-- The outcome of the command in admin record `r`: its status, its RESULT and what it waits for. -/
def State.adminOutcome (s : State) (r : Nat) : Option (Nat × Nat × AdminWait) :=
  (Map.get? s.obj.adm r).map (fun a => (a.status, a.result, a.wait))

/-- The front command, if there is one, is not taken while the spec leaves the chip's state undefined (22 R595). -/
def State.railsOk (s : State) : Prop :=
  ∀ r rest, s.pending = Instr.railOutOfRange r :: rest → s.mgt.pwrGood = false

/-- A step is taken. -/
def State.runs (s : State) : Prop := ∃ t, step s = .next t

/-- A cell that the checks at its destination let through: link-local, or addressed to this chip (04 R113, R121, R122). -/
structure State.Delivers (s : State) (c : Cell) : Prop where
  here : c.linkLocal = true ∨ (s.addressed = true ∧ c.dst = s.addr)
  sound : c.crcOk = true
  format : badFormat c = false
  form : badLocal c = false

/-- A control cell of a type and kind that reaches the context of connection `h`, which is on die (06 R207, 12 R394). -/
structure State.ReachesConn (s : State) (c : Cell) (typ kind h : Nat) (k : Conn) : Prop extends s.Delivers c where
  type : c.typ = typ
  known : badKind c = false
  kind : c.pb 8 1 = kind
  handle : c.pb 0 4 = h
  conn : s.conn? h = some k
  peer : c.src = k.peerEp ∧ c.ins = k.peerInst
  current : s.stale k = false
  here' : s.onDie h = true

/-- A management cell of a kind that reaches the management logic (04 R600). -/
structure State.Manages (s : State) (c : Cell) (kind : Nat) : Prop extends s.Delivers c where
  type : c.typ = tyMGMT
  known : badMgmt c = false
  kind : c.pb 63 1 = kind

end Sys2Proof.Machine
end

