-- ==== Sys2Proof/Certificates/Slice0/Obligations.lean ====
section
/-! DEFINITION. The statements for the provers. -/

open Sys2Proof Sys2Proof.Machine

/-- A command at the front of the queue is run on the state with the queue's rest (the model's rule). With no command waiting,
a sixteenth of a nanosecond passes: no register changes, and outside HOLDOVER with nothing left to slew the time moves by one
(log entry 73); while the PLLs are stopped it moves by whole crystal periods. -/
def Obligations.StepTakesTheFront : Prop :=
  (∀ (c : Instr) (rest : List Instr) (s : State),
    step { s with pending := c :: rest } = exec c { s with pending := rest }) ∧
  ∀ s : State, s.pending = [] → ∃ t, step s = .next t ∧ t.regs = s.regs ∧ t.pending = [] ∧ t.xpt = s.xpt ∧ t.ram = s.ram ∧
    (s.flag F.PWR_STATUS_PLL_RUN = true → s.timeState ≠ tsHOLDOVER → s.tim.slew = 0 → t.now = s.now + 1#64 ∧ t.tim.slew = 0) ∧
    (s.flag F.PWR_STATUS_PLL_RUN = false → t.now = s.now ∨ t.now = BitVec.ofNat 64 ((s.t / ns 40 + 1) * ns 40))

/-- Every step keeps the canonical forms of the register file and of the memory of the CXL.mem windows. It changes nothing
that the part's fuses fix, and takes one command from the queue and nothing else. -/
def Obligations.EveryStepKeepsTheCanonicalForms : Prop :=
  ∀ s t : State, step s = .next t → (s.regsOk → t.regsOk) ∧ (s.memOk → t.memOk) ∧ t.part.fuses = s.part.fuses ∧
    t.pending = s.pending.tail

/-- The state after reset has them; no command waits, the chip is at step 1 of the start-up without power good, has no time,
no link and no host port up, every tile is ACTIVE and every register reads its reset value. Where the spec leaves it open,
this is the model's choice: log entries 1 and 106. -/
def Obligations.ResetHasTheCanonicalForms : Prop :=
  State.reset.regsOk ∧ State.reset.memOk ∧ State.reset.pending = [] ∧ State.reset.fld F.MGT_STATUS_STEP = 1 ∧
    State.reset.mgt.pwrGood = false ∧ State.reset.timeState = tsUNSET ∧ State.reset.halted = false ∧
    (∀ p, State.reset.linkRuns p = false) ∧ (∀ p, State.reset.portUp p = false) ∧
    (∀ t : TileId, State.reset.tileState t.val = psACTIVE) ∧ ∀ a, State.reset.rd a = regDefault State.reset.part a

/-- But for the commands that may store to the windows, move fabric time, begin a reset or sample the straps, a command leaves
fabric time, every byte of the windows' memory, the straps and what a replay can take as they were. The quiet commands leave
every register as it was. -/
def Obligations.SteadyCommandsLeaveTimeAndMemory : Prop :=
  ∀ (c : Instr) (s t : State), exec c s = .next t →
    (unsteady c = false →
      t.now = s.now ∧ t.part = s.part ∧ t.kept = s.kept ∧ ∀ a, Map.getD t.ram.cells a 0#8 = Map.getD s.ram.cells a 0#8) ∧
    (quietCommand c = true → ∀ a, t.rd a = s.rd a)

/-- The commands of links, routing, fabric time, power, start-up, faults, counters and single registers leave the ends as they
were: connections and messages, work objects, matching, groups, word operations, GDDR7, injection, translation and host ports.
-/
def Obligations.ChipCommandsLeaveTheEndsAlone : Prop :=
  ∀ (c : Instr) (s t : State), chipCommand c = true → exec c s = .next t →
    t.xpt = s.xpt ∧ t.obj = s.obj ∧ t.mat = s.mat ∧ t.col = s.col ∧ t.atu = s.atu ∧ t.ram = s.ram ∧ t.inj = s.inj ∧
      t.xlt = s.xlt ∧ t.hpt = s.hpt

/-- R595: with PWR_GOOD high a rail out of its range leaves the chip's state undefined, and the model stops; with PWR_GOOD low
it goes on. -/
def Obligations.RailOutOfRangeStopsWhilePowerIsGood : Prop :=
  ∀ (r : Fin 7) (s : State),
    (s.mgt.pwrGood = true → exec (.railOutOfRange r) s = .fault .railOutOfRange) ∧
    (s.mgt.pwrGood = false → ∃ t, exec (.railOutOfRange r) s = .next t ∧ t.pending = s.pending ∧
      (r.val = 5 → t.mgt.vddAon = false ∧ t.regs = [] ∧ t.ram.cells = []) ∧
      (r.val ≠ 4 → r.val ≠ 5 → r.val ≠ 6 → t = s))

/-- R46, R47, R50: a poll of a work ring keeps how many entries it found with OWN = 1, and counts as stretched exactly when
the floor at which it was issued lies above the queue's code, and the floor in force then sets its next interval; on a
COHERENT queue the re-read after a snoop is no poll. Where the spec leaves it open, this is the model's choice: log entry 176.
-/
def Obligations.PollingReadsTheWorkRing : Prop :=
  ∀ (q n : Nat) (s : State) (x : Queue), s.queue? q = some x → x.work = true → s.ringServed q x = true →
    (x.coherent = false → s.flag F.PWR_STATUS_PLL_RUN = true → ∃ t, exec (.poll q n) s = .next t ∧
      (t.queue? q).map (·.found) = some n ∧
      (n = 0 → t.rd Reg.CTL_POLL_STRETCH =
        s.rd Reg.CTL_POLL_STRETCH + if x.k < x.floor then 1#32 else 0#32) ∧
      (t.queue? q).map (·.floor) = some (s.fld F.CTL_POLL_FLOOR_FLOOR)) ∧
    (x.coherent = false → s.flag F.PWR_STATUS_PLL_RUN = false → ∃ t, exec (.aonPoll q n) s = .next t ∧
      (t.queue? q).map (·.found) = some n ∧
      (n = 0 → t.rd Reg.CTL_POLL_STRETCH =
        s.rd Reg.CTL_POLL_STRETCH + if x.k < x.floor then 1#32 else 0#32) ∧
      (t.queue? q).map (·.floor) = some (s.fld F.CTL_POLL_FLOOR_AON_FLOOR)) ∧
    (x.coherent = true → ∃ t, exec (.snoop q n) s = .next t ∧ (t.queue? q).map (·.found) = some n ∧
      (n = 0 → s.flag F.PWR_STATUS_PLL_RUN = true → t.regs = s.regs)) ∧
    (s.hpt.reread.contains q = true → ∃ t, exec (.ringRereadTimer q n) s = .next t ∧
      (t.queue? q).map (·.found) = some n ∧ t.hpt.reread = s.hpt.reread.filter (· != q))

/-- R601: a ring read that fails takes, writes and changes nothing in the queue; on a COHERENT queue and for a completion
check read it is made again. R55: a completion that waits is written into the entry returned, in order: with one entry free,
the first that waits goes out, and the position moves by one. -/
def Obligations.RingsFailAndReturnEntries : Prop :=
  (∀ (q : Nat) (timeout : Bool) (s : State) (x : Queue), s.queue? q = some x → q ≠ 0 →
    ∃ t, exec (.ringReadError q timeout) s = .next t ∧ t.obj.queues = s.obj.queues ∧ t.obj.slots = s.obj.slots ∧
      ((x.coherent = true ∨ x.work = false) → q ∈ t.hpt.reread)) ∧
  ∀ (q : Nat) (s : State) (x : Queue) (w : WaitingCqe) (rest : List WaitingCqe), s.queue? q = some x → x.work = false →
    x.waiting = w :: rest → w.src = .none → s.ringServed q x = true → s.flag F.PWR_STATUS_PLL_RUN = true → s.wmWaits q = [] →
    ∃ t, exec (.cqEntryReturned q 1) s = .next t ∧ (t.queue? q).map (·.waiting) = some rest ∧
      (t.queue? q).map (·.room) = some 0 ∧ (t.queue? q).map (·.pos) = some (ringNext x.log2 x.pos)

/-- R52, R53: a descriptor at the position of a served work queue, with a free reservation, slot and (for a POST_RECV) entry,
on an ACTIVE tile, is taken by the checks of R52; for each of the eleven opcodes. -/
def Obligations.DescriptorsAreTaken : Prop :=
  ∀ (q : QueueId) (e : Entry) (v : View) (s : State) (x c : Queue) (z : Nat),
    ∀ p ∈ takeCommands q e v, dOpcode e = p.1 →
      (s.see v).queue? q.val = some x → (s.see v).takeable q.val x e p.1 = true →
      (s.see v).tileActive ((s.see v).servingTile (q.val % 64)) = true →
      (s.see v).queue? x.cq = some c → c.reserved < 2 ^ c.log2 →
      (p.1 = opPOSTRECV → (s.see v).postedUsed x.inst < (s.see v).postedShare) → (s.see v).newSlot x.inst = some z →
      exec p.2 s = .next ((s.see v).takeInto q.val z x e)

/-- R53: a refused descriptor sends no cell, places no data and is bound to nothing: connections and messages, matching,
groups, lanes, GDDR7 and the unit are as they were. -/
def Obligations.RefusedDescriptorHasNoEffect : Prop :=
  ∀ (q z st : Nat) (x : Queue) (e : Entry) (s : State), (((s.reserveTake q x).judge q x e).2 = .refuse st) →
    (s.takeInto q z x e).xpt = s.xpt ∧ (s.takeInto q z x e).mat = s.mat ∧ (s.takeInto q z x e).col = s.col ∧
      (s.takeInto q z x e).ram = s.ram ∧ (s.takeInto q z x e).atu = s.atu ∧ (s.takeInto q z x e).lnk = s.lnk ∧
      (s.takeInto q z x e).rt = s.rt ∧ (s.takeInto q z x e).xlt = s.xlt

/-- R58, R60, R64, R204, 07 R243, R244, 08 R283, R288, 09 R313, R321: a descriptor that sends, whose take and checks are the
ordinary ones, on a connection that is not BROKEN: its slot holds it, and the position of its queue moves on. A launch is
held. Any other starts: its one message, of the type and fields that the descriptor gives, is accepted for its connection.
Where the spec leaves it open, this is the model's choice: log entry 162. -/
def Obligations.SendingDescriptorsStart : Prop :=
  ∀ (q : QueueId) (e : Entry) (v : View) (s : State) (x c : Queue) (z : Nat) (k : Conn),
    ∀ p ∈ ([(opSEND, tySEND, .send q e v), (opWRITE, tyWRITE, .writeMsg q e v), (opWRITEIMM, tyWRITEIMM, .writeImm q e v),
        (opREAD, tyREADREQ, .readMsg q e v), (opATOMIC, tyATOMICREQ, .atomic q e v),
        (opACQUIRE, tyLOCKREQ, .lockAcquire q e v), (opRELEASE, tyLOCKREQ, .lockRelease q e v)] : List (Nat × Nat × Instr)),
      (s.see v).Takes q e p.1 x c z → (s.see v).Passes q x e → (s.see v).conn? (dHandle e) = some k → k.st ≠ .broken →
      (dTkind e = 1 → ∃ t, exec p.2.2 s = .next t ∧ (t.slot? z).map (fun y => (y.desc, y.phase)) = some (e, .launch) ∧
        (t.queue? q.val).map (·.pos) = some (ringNext x.log2 x.pos)) ∧
      (dTkind e ≠ 1 → (s.see v).stale k = false →
        (s.see v).localPasses k.inst k.pd ((s.see v).takeSlot q.val x e) = true →
        ∃ t m, exec p.2.2 s = .next t ∧ (t.slot? z).map (fun y => (y.desc, y.phase)) = some (e, .running) ∧
          (t.queue? q.val).map (·.pos) = some (ringNext x.log2 x.pos) ∧ Map.get? t.xpt.msgs s.xpt.nextMsg = some m ∧
          (m.handle, m.typ, m.origin, m.fence) = (dHandle e, p.2.1, .desc z, dFence e) ∧
          (p.1 = opSEND → m.extMatch = sMatch e ∧
            ((s.see v).isRdv e = false → m.len = dLength e ∧ m.src = dLaddr e) ∧
            ((s.see v).isRdv e = true → m.len = 0 ∧ m.extKey = dLkey e)) ∧
          (p.1 = opWRITE ∨ p.1 = opWRITEIMM →
            (m.len, m.src, m.extKey, m.extOffset) = (dLength e, dLaddr e, wRkey e, wRoffset e)) ∧
          (p.1 = opWRITEIMM → m.extImm = wImm e) ∧
          (p.1 = opREAD → (m.len, m.inline, m.extKey, m.extOffset) = (8, some (dLength e), wRkey e, wRoffset e)) ∧
          (p.1 = opATOMIC → (m.len, m.inline, m.extKey, m.extOffset, m.extImm) =
            (16, some (aOperandA e + aOperandB e * 2 ^ 64), aRkey e, aRoffset e, aOp e)) ∧
          (p.1 = opACQUIRE → (m.len, m.extKey, m.extOffset, m.extImm) =
            (0, aRkey e, aRoffset e, 1 + aPrio e * 2 ^ 8 + aTag e * 2 ^ 16)) ∧
          (p.1 = opRELEASE → (m.len, m.extKey, m.extOffset, m.extImm) =
            (0, aRkey e, aRoffset e, 2 + aTag e * 2 ^ 16)))

/-- R58, 07 R253, R254, R274, 10 R342: the descriptors that send nothing, with the ordinary take and checks. A NOP ends at
once, and its reservation with it. A POST_RECV is filed, or takes the earliest stored message that it matches. A CANCEL_RECV
takes out the receive that it names, if it is filed, and ends. A COLLECTIVE joins its group's operation where there is room
for it. Where the spec leaves it open, this is the model's choice: log entries 21 and 161. -/
def Obligations.OtherDescriptorsRun : Prop :=
  ∀ (q : QueueId) (e : Entry) (v : View) (s : State) (x c : Queue) (z : Nat), (s.see v).Passes q x e →
    ((s.see v).Takes q e opNOP x c z → dTkind e ≠ 1 → x.cq ≠ q.val → (∀ w ∈ s.obj.slots, w.2.due = none) →
      (dSignal e = false → ∃ t, exec (.nop q e v) s = .next t ∧ t.slot? z = none ∧
        (t.queue? q.val).map (·.pos) = some (ringNext x.log2 x.pos) ∧
        (t.queue? x.cq).map (fun y => (y.reserved, y.pos)) = some (c.reserved, c.pos)) ∧
      (dSignal e = true → c.waiting = [] → 0 < c.room → ∃ t, exec (.nop q e v) s = .next t ∧ t.slot? z = none ∧
        (t.queue? q.val).map (·.pos) = some (ringNext x.log2 x.pos) ∧
        (t.queue? x.cq).map (fun y => (y.reserved, y.pos)) = some (c.reserved, ringNext c.log2 c.pos))) ∧
    ((s.see v).Takes q e opPOSTRECV x c z → dTkind e ≠ 1 →
      dLength e = 0 ∨ (s.see v).localOk x.inst (pLkey e) x.pd (some acLOCALW) (pLaddr e) (dLength e) = true → ∀ u : State,
      ({ s.see v with obj := { (s.see v).obj with
          slots := Map.set (s.see v).obj.slots z ((s.see v).takeSlot q.val x e) } } : State) = u →
      (u.storedFor z = none → ∃ t, exec (.postRecv q e v) s = .next t ∧ Map.has t.mat.posted z = true ∧
        (t.slot? z).map (fun y => (y.desc, y.phase)) = some (e, .posted) ∧
        (t.queue? q.val).map (·.pos) = some (ringNext x.log2 x.pos)) ∧
      ∀ m y, u.storedFor z = some (m, y) → y.rts = false → ∃ t, exec (.postRecv q e v) s = .next t ∧
        (t.entry? m).map (fun y => y.bound.map (·.1)) = some (some z) ∧
        (t.slot? z).map (fun y => (y.desc, y.phase)) = some (e, .running) ∧
        (t.queue? q.val).map (·.pos) = some (ringNext x.log2 x.pos)) ∧
    ((s.see v).Takes q e opCANCEL x c z → dTkind e ≠ 1 → dSignal e = false → Map.get? s.mat.posted z = none → ∀ hit,
      s.mat.posted.find? (fun y => (s.slot? y.1).any (fun w => slotInst y.1 == slotInst z && w.queue == xQueue e &&
        w.index == xIndex e && dCookie w.desc == xCookie e)) = hit →
      (hit = none → ∃ t, exec (.cancelRecv q e v) s = .next t ∧ t.slot? z = none ∧ t.mat = s.mat) ∧
      ∀ k d, hit = some (k, d) → ∃ t, exec (.cancelRecv q e v) s = .next t ∧ t.slot? z = none ∧
        Map.get? t.mat.posted k = none ∧ t.rd Reg.CTL_MATCH_CANCEL = s.rd Reg.CTL_MATCH_CANCEL + 1#32) ∧
    ∀ (g : Group) (f : Nat), (s.see v).Takes q e opCOLLECTIVE x c z → (s.see v).group? (dHandle e) = some g →
      g.broken = false → g.queued = [] →
      (if cCtype e = ctREDUCE ∨ cCtype e = ctALLREDUCE then s.redFmt (cFormat e) else 0) = f →
      (g.op? (cOpnum e)).isSome = true ∨
        s.opRoom g (g.stagingNeed (cCtype e) f (dLength e / elemOf (cCtype e) f)) = true →
      ∃ t, exec (.collective q e v) s = .next t ∧
        ((t.group? (dHandle e)).bind (fun y => y.op? (cOpnum e))).map (·.slot) = some (some z) ∧
        (t.slot? z).map (fun y => (y.desc, y.phase)) = some (e, if dTkind e = 1 then .launch else .running) ∧
        (t.queue? q.val).map (·.pos) = some (ringNext x.log2 x.pos)

/-- R58, R191-R193: ahead of its TIME the tiles that a launch needs are raised. A held launch starts when it may: the chip has
time, which has reached TIME, and outside LOCKED and HOLDOVER a launch that a replay posted again is not late. Outside LOCKED
and HOLDOVER the start is counted. A held NOP without SIGNAL ends there, and its slot is free. A launch that may not start yet
stays held. Where the spec leaves it open, this is the model's choice: log entries 150 and 161. -/
def Obligations.HeldLaunchesStart : Prop :=
  ∀ (k : Nat) (v : View) (s : State) (x : Slot), s.slot? k = some x → x.phase = .launch →
    exec (.launchPowerRaise k) s = .next (s.raiseFor x.queue x.desc) ∧
    (∀ u, s.servingTile (x.queue % 64) = u → s.tileState u ≠ psOFF → s.tileState u ≠ psACTIVE → s.tileChanging u = false →
      ∃ t, exec (.launchPowerRaise k) s = .next t ∧ t.tileChanging u = true ∧ t.tileTarget u = psACTIVE ∧
        t.fld (F.PWR_TILE_STATUS_LAST_CAUSE u) = wcLAUNCH) ∧
    (s.launchMayStart x = false → exec (.launchStart k v) s = .next (s.see v)) ∧
    (s.timeState ≠ tsUNSET → dTime x.desc ≤ s.t → (s.synced = false → x.replayed = true → s.t ≤ dTime x.desc + ns 4) →
      s.launchMayStart x = true ∧ ∃ t, exec (.launchStart k v) s = .next t ∧
      (dOpcode x.desc = opNOP → dSignal x.desc = false → t.slot? k = none ∧
        t.rd Reg.TIM_LAUNCH_UNSYNC = s.rd Reg.TIM_LAUNCH_UNSYNC + if s.synced then 0#32 else 1#32))

/-- R82, R86, 06 R226: an admin command at the position of the enabled admin queue, not held back, with room on its completion
ring and a free record, is put in progress in that record; for each ACODE. -/
def Obligations.AdminCommandsAreTaken : Prop :=
  ∀ (e : Entry) (ring : List Entry) (img : HostRead) (s : State) (x c : Queue) (r : Nat),
    ∀ p ∈ adminCommands e ring img, aCode e = p.1 →
      s.queue? 0 = some x → dOwn e = true → s.flag F.CTL_AQ_CTRL_ENABLE = true → s.ownerServed = true → s.halted = false →
      s.flag F.CTL_JRNL_CTRL_REPLAY = false → s.adminHeld e = false → s.queue? acqKey = some c → c.reserved < 2 ^ c.log2 →
      s.tileActive (s.servingTile 0) = true → s.freeAdm = some r →
      ∃ t a, exec p.2.1 s = .next t ∧ Map.get? t.obj.adm r = some a ∧ a.entry = e ∧ a.index = x.pos ∧ a.sideband = false

/-- R83: a command whose STATUS is not SUCCESS has no effect on device state; a failed load alone leaves its epoch EMPTY. -/
def Obligations.FailedAdminCommandsHaveNoEffect : Prop :=
  ∀ (e : Entry) (ring : List Entry) (img : HostRead) (s : State),
    (∀ p ∈ adminCommands e ring img, p.1 ≠ acLOADROUTE → p.1 ≠ acLOADSCHED → (p.2.2 s).status ≠ stSUCCESS → (p.2.2 s).st = s) ∧
    (∀ kind, kind ≤ 1 → (s.loadImage kind e img).status ≠ stSUCCESS →
      (s.loadImage kind e img).st = s ∨
        (((s.loadImage kind e img).status = adTABLE ∨ (s.loadImage kind e img).status = adHOSTREAD) ∧
          (s.epochOf kind (aObject e % 2) = esEMPTY ∨ s.epochOf kind (aObject e % 2) = esIDLE) ∧
          (s.loadImage kind e img).st = s.setEpochOf kind (aObject e % 2) esEMPTY ∧
          (s.loadImage kind e img).st.epochOf kind (aObject e % 2) = esEMPTY))

/-- R91-R93, R94-R99, R334: an admin command for a queue, domain, region, connection, key or group, taken as usual and
breaking no rule, makes or frees its object, or waits for what its completion needs; its record holds SUCCESS and its RESULT.
Where the spec leaves it open, this is the model's choice: log entries 31, 162, 163 and 164. -/
def Obligations.ObjectsAreMadeAndFreed : Prop :=
  ∀ (e : Entry) (ring : List Entry) (img : HostRead) (s : State) (r : Nat) (x c : Queue),
    (∀ q i lg, s.TakesAdmin acCREATEQUEUE e r x c → aObject e % 65536 = q → s.instOfQueue q = i → aBody e 16 1 % 32 = lg →
      q ≠ 0 → 4 ≤ lg → lg ≤ 16 →
      (aBody e 16 1).testBit 6 = true ∨ (1 ≤ aBody e 17 1 % 32 ∧ aBody e 17 1 % 32 ≤ 20) →
      ringAligned (aBody e 24 8) (2 ^ lg * if (aBody e 16 1).testBit 7 then 32 else 64) = true →
      ((aBody e 16 1).testBit 7 = false → s.isCq (aBody e 20 2) = true ∧ s.instOfQueue (aBody e 20 2) = i ∧
        Map.get? s.obj.pds (aBody e 18 2) = some i ∧ s.journals = true) →
      s.mapped i = true → s.flag F.MEM_HOST_BASE_VALID = true →
      ((aBody e 16 1).testBit 6 = true → s.portCache (s.portOf i) = true) → s.queue? q = none → s.queuePending q = false →
      ∃ t, exec (.createQueue e) s = .next t ∧ t.adminOutcome r = some (stSUCCESS, 0, .ready) ∧
        (t.queue? q).map (fun y => { y with floor := 0 }) = some (queueAs i (aBody e 16 16))) ∧
    (∀ q y, s.TakesAdmin acDESTROYQUEUE e r x c → aObject e % 65536 = q → q ≠ 0 → s.queue? q = some y →
      (y.work = true → ∃ t left, exec (.destroyQueue e ring) s = .next t ∧
        t.adminOutcome r = some (stSUCCESS, 0, .destroy q left) ∧ (t.queue? q).isSome = true) ∧
      (y.work = false → y.reserved = 0 → y.waiting = [] →
        (∀ w ∈ s.obj.queues, w.2.work = true → w.1 ≠ 0 → w.2.cq ≠ q) →
        ∃ t, exec (.destroyQueue e ring) s = .next t ∧ t.adminOutcome r = some (stSUCCESS, 0, .ready) ∧ t.queue? q = none)) ∧
    (∀ i, s.TakesAdmin acCREATEPD e r x c → aObject e % 128 = i → i < s.nInst → s.mapped i = true →
      (∃ n, n < 65536 ∧ Map.get? s.obj.pds n = none) →
      ∃ t n, exec (.createPd e) s = .next t ∧ t.adminOutcome r = some (stSUCCESS, n, .ready) ∧ n < 65536 ∧
        Map.get? s.obj.pds n = none ∧ Map.get? t.obj.pds n = some i) ∧
    (∀ d, s.TakesAdmin acDESTROYPD e r x c → aObject e % 65536 = d → Map.has s.obj.pds d = true → s.pdUsed d = false →
      ∃ t, exec (.destroyPd e) s = .next t ∧ t.adminOutcome r = some (stSUCCESS, 0, .ready) ∧
        Map.get? t.obj.pds d = none) ∧
    (∀ d i n, s.TakesAdmin acREGISTER e r x c → aObject e % 65536 = d → Map.get? s.obj.pds d = some i →
      aBody e 24 8 ≠ 0 → aBody e 24 8 ≤ 2 ^ 48 - aBody e 16 6 → s.mapped i = true → (s.inst i).configured = true →
      (if aBody e 33 3 = 0xFFFFFF then s.freeRegion i = some n else aBody e 33 3 = n ∧ n < 2 ^ (s.inst i).regionLog2 ∧
        (s.region i (n * 256)).valid = false) →
      ∃ t w, exec (.registerRegion e) s = .next t ∧ t.adminOutcome r = some (stSUCCESS, n * 256 + w.variant, .ready) ∧
        t.region i (n * 256) = w ∧
        (w.valid, w.vbase, w.len, w.pd, w.access) = (true, aBody e 16 6, aBody e 24 8, d, aBody e 32 1 % 32) ∧
        w.variant = if (s.region i (n * 256)).used then ((s.region i (n * 256)).variant + 1) % 256 else 0) ∧
    (s.TakesAdmin acDEREGISTER e r x c → s.keyHolders (aObject e) ≠ [] →
      ∃ t i, exec (.deregisterRegion e) s = .next t ∧ i ∈ s.keyHolders (aObject e) ∧
        t.adminOutcome r = some (stSUCCESS, 0, .key i (aObject e)) ∧ (t.region i (aObject e)).valid = false) ∧
    (∀ d i p, s.TakesAdmin acCREATECONN e r x c → aObject e % 65536 = d → Map.get? s.obj.pds d = some i →
      aBody e 16 4 = p → s.mapped i = true →
      s.connBy (p % 2 ^ 17) (p / 2 ^ 17 % 128) (p / 2 ^ 24 % 8) = none →
      (∃ n, n < min (4259840 / max 1 s.nInst + (s.inst i).spillCtx) (2 ^ 25) ∧ Map.get? s.xpt.conns (i * 2 ^ 25 + n) = none) →
      (∀ n, (s.freePlace i n).isSome = true) →
      ((aBody e 24 1).testBit 0 = true → s.part.crypt = true ∧
        (s.xpt.conns.filter (fun k => k.2.inst == i && k.2.encrypt)).length < 65536 / max 1 s.nInst) →
      ∃ t h k, exec (.createConnection e) s = .next t ∧ t.adminOutcome r = some (stSUCCESS, h, .ready) ∧
        s.conn? h = none ∧ t.conn? h = some k ∧
        (k.inst, k.pd, k.peerEp, k.peerInst, k.cls, k.peerHandle, k.encrypt, k.st) =
          (i, d, p % 2 ^ 17, p / 2 ^ 17 % 128, p / 2 ^ 24 % 8, aBody e 20 4, (aBody e 24 1).testBit 0, .closed)) ∧
    (∀ h k, s.TakesAdmin acDESTROYCONN e r x c → aObject e = h → s.conn? h = some k → s.slotsOn h = [] → k.locks = [] →
      (∀ w ∈ s.atu.held, w.2.owner.via = true → w.2.owner.who ≠ h) →
      ∃ t, exec (.destroyConnection e) s = .next t ∧
        t.adminOutcome r = some (stSUCCESS, 0, .freed (handleInst h) k.place) ∧ t.conn? h = none) ∧
    (∀ h k n, s.TakesAdmin acINSTALLKEY e r x c → aObject e = h → s.part.crypt = true → s.conn? h = some k →
      k.encrypt = true → aBody e 16 1 = n → (∀ y, k.installed = some y → n = (y.epoch + 1) % 256) →
      ∃ t, exec (.installKey e) s = .next t ∧ t.adminOutcome r = some (stSUCCESS, 0,
        .install h n (BitVec.ofNat 256 (ofBytesBE ((List.range 32).map (fun i => aBody e (24 + i) 1)))))) ∧
    (∀ tree, s.TakesAdmin acCREATEGROUP e r x c → img = .data tree → (s.createGroup e img).status = stSUCCESS →
      ∃ t h, exec (.createGroup e img) s = .next t ∧ t.adminOutcome r = some (stSUCCESS, h, .ready) ∧ s.group? h = none ∧
        t.group? h = some (treeGroup (aObject e % 128) (aBody e 16 4) (aBody e 20 4) (aBody e 24 4) tree)) ∧
    ∀ g y, s.TakesAdmin acDESTROYGROUP e r x c → aObject e = g → s.group? g = some y → y.queued = [] →
      (∀ o ∈ y.ops, o.slot = none) →
      (∀ z ∈ s.obj.slots, dOpcode z.2.desc = opCOLLECTIVE → dHandle z.2.desc = g →
        z.2.phase ≠ .launch ∧ z.2.phase ≠ .running) →
      ∃ t, exec (.destroyGroup e) s = .next t ∧ t.adminOutcome r = some (stSUCCESS, 0, .ready) ∧ t.group? g = none

/-- R100-R107, 11 R381: an admin command for an epoch, translations, an instance, the page log or a table, taken as usual and
breaking no rule, has its effect, or waits for what its completion needs; its record holds SUCCESS and its RESULT. Where the
spec leaves it open, this is the model's choice: log entries 139 and 162. -/
def Obligations.EpochsInstancesAndTablesAreSet : Prop :=
  ∀ (e : Entry) (img : HostRead) (d : Nat) (s : State) (r : Nat) (x c : Queue), img = .data d →
    (∀ p ∈ ([(0, acLOADROUTE, .loadRoute e img), (1, acLOADSCHED, .loadSchedule e img)] : List (Nat × Nat × Instr)),
      ∀ m, s.TakesAdmin p.2.1 e r x c → s.epochOf p.1 (aObject e % 2) = esEMPTY ∨ s.epochOf p.1 (aObject e % 2) = esIDLE →
      aBody e 24 4 = imageLen p.1 → d % 256 ^ imageLen p.1 = m → imageCrc (imageLen p.1) m = aBody e 28 4 →
      (if p.1 = 0 then routeImageOk m else schedImageOk m) = true →
      ∃ t, exec p.2.2 s = .next t ∧ t.adminOutcome r = some (stSUCCESS, 0, .ready) ∧
        t.epochOf p.1 (aObject e % 2) = esIDLE ∧
        (if p.1 = 0 then t.rtable (aObject e % 2) else t.sched (aObject e % 2)) = m) ∧
    (∀ kind ep T, s.TakesAdmin acSWITCH e r x c → aObject e % 2 = kind → aObject e / 2 % 2 = ep → aBody e 16 8 = T →
      T % 0x1400000 = 0 → s.epochOf kind ep = esIDLE → s.epochOf kind (1 - ep) ≠ esPENDING → s.hasTime = true →
      s.t + us 100 ≤ T →
      ∃ t, exec (.switchEpoch e) s = .next t ∧ t.adminOutcome r = some (stSUCCESS, 0, .switch kind ep) ∧
        t.epochOf kind ep = esPENDING ∧ (if kind = 0 then t.rt.switchAt else t.tim.schedSwitchAt) = T) ∧
    (∀ i, s.TakesAdmin acINVALIDATE e r x c → aObject e % 128 = i → i < s.nInst →
      ∃ t, exec (.invalidateTranslation e) s = .next t ∧ t.adminOutcome r = some (stSUCCESS, 0, .translations i none) ∧
        ∀ u, ∀ y ∈ t.slice u, y ∈ s.slice u ∧ (y.inst = i → aBody e 24 8 ≠ 0 ∧
          overlaps y.vbase (2 ^ y.log2) (aBody e 16 8) (aBody e 24 8) = false)) ∧
    (∀ i, s.TakesAdmin acCONFIGURE e r x c → aObject e % 128 = i → i < s.nInst → aBody e 16 8 % 4096 = 0 →
      aBody e 48 8 % 4096 = 0 → aBody e 40 1 % 32 ≤ 24 → s.hasRegion i = false → s.spilled i ≤ aBody e 56 4 →
      ∃ t w, exec (.configureInstance e) s = .next t ∧ t.adminOutcome r = some (stSUCCESS, 0, .translations i w) ∧
        ((t.inst i).regionBase, (t.inst i).regionLog2, (t.inst i).spillBase, (t.inst i).spillCtx) =
          (aBody e 32 8, aBody e 40 1 % 32, aBody e 48 8, aBody e 56 4) ∧
        (w = some (aBody e 16 8, (aBody e 24 1).testBit 0) ∨
          (w = none ∧ ((s.inst i).xltRoot, (s.inst i).walk) = (aBody e 16 8, (aBody e 24 1).testBit 0)))) ∧
    (∀ n, s.TakesAdmin acSETINSTANCES e r x c → aObject e % 256 = n → n ∈ [1, 2, 4, 8, 16, 32, 64, 128] →
      (∀ q ∈ s.obj.queues, q.1 = 0 ∨ q.1 = acqKey) → s.obj.pds = [] → (∀ w ∈ s.obj.regions, w.2.valid = false) →
      s.xpt.conns = [] → s.col.groups = [] →
      ∃ t, exec (.setInstances e) s = .next t ∧ t.adminOutcome r = some (stSUCCESS, 0, .ready) ∧ t.nInst = n ∧
        ∀ i, i < 128 → t.mapped i = if i < n then s.mapped i else false) ∧
    (∀ i, s.TakesAdmin acRESETINSTANCE e r x c → aObject e % 128 = i → i < s.nInst →
      ∃ t, exec (.resetInstance e) s = .next t ∧ t.adminOutcome r = some (stSUCCESS, (s.gen i + 1) % 256, .reset i) ∧
        (s.xpt = {} → s.col.groups = [] → s.atu = {} →
          t.gen i = (s.gen i + 1) % 256 ∧ t.flag (F.CTL_INST_STATE_RESETTING i) = true)) ∧
    (∀ i lg b, s.TakesAdmin acARMLOG e r x c → aObject e % 128 = i → i < s.nInst → aBody e 24 1 % 32 = lg → aBody e 16 8 = b →
      ((aBody e 24 1).testBit 7 = true → ∃ t, exec (.armPageLog e) s = .next t ∧
        t.adminOutcome r = some (stSUCCESS, 0, .arm i none)) ∧
      ((aBody e 24 1).testBit 7 = false → 4 ≤ lg → lg ≤ 20 → b % min (2 ^ lg * 8) 4096 = 0 →
        ∃ t, exec (.armPageLog e) s = .next t ∧ t.adminOutcome r = some (stSUCCESS, 0, .arm i (some (b, lg))))) ∧
    ∀ n m, s.TakesAdmin acLOADTABLE e r x c → aObject e % 16 = n → 1 ≤ n → n ≤ 6 → (n = tbREDUCTION → s.part.reduce = true) →
      aBody e 24 4 = tableLen n → d % 256 ^ tableLen n = m → imageCrc (tableLen n) m = aBody e 28 4 → tableBad n m = false →
      (n = tbMATCH → s.formatInUse m = false) →
      ∃ t, exec (.loadTable e img) s = .next t ∧ t.adminOutcome r = some (stSUCCESS, 0, .ready) ∧
        (n = tbMATCH → t.mat.formats = m) ∧ (n = tbPROTOCOL → t.mat.protocols = m) ∧ (n = tbCURVE → t.xpt.curve = m) ∧
        (n = tbPOWER → t.pwr.table = m) ∧ (n = tbEQ → t.lnk.eqTable = m) ∧ (n = tbREDUCTION → t.col.formats = m)

/-- 03 R82, R87, 06 R226: a command whose work has ended leaves its record; over the sideband it answers there, else its
completion is written if the ring has room. A switch waits for its tide. With the completion a destroyed queue is gone (R92),
an installed key is there (R98), the page log is armed or disarmed (R106), a changed root holds (R102), and a reset instance
is reset (R105). 03 R79, R80: enabling the admin queue with good settings makes its two rings, at position 0, with the sizes
written; with bad settings, or while it is enabled, nothing changes. Clearing ENABLE stops it, and with nothing in progress
its position is 0. A halted chip ignores both. Where the spec leaves it open, this is the model's choice: log entries 99, 115,
154 and 165. -/
def Obligations.AdminQueueRunsAndCompletes : Prop :=
  (∀ (r : Nat) (v : View) (s : State) (x : AdminRec), r < 64 → Map.get? (s.see v).obj.adm r = some x →
    (x.wait = .ready → x.sideband = true → (s.see v).taskRuns (.admin r) = true → ∃ t, exec (.adminComplete r v) s = .next t ∧ Map.get? t.obj.adm r = none ∧
      t.lastRead = .sideband x.status (if x.status = 0 then x.result else 0) 8) ∧
    (∀ c, x.wait = .ready → x.sideband = false → (s.see v).taskRuns (.admin r) = true → (s.see v).queue? acqKey = some c → c.waiting = [] → 0 < c.room →
      ∃ t, exec (.adminComplete r v) s = .next t ∧ Map.get? t.obj.adm r = none ∧
        (t.queue? acqKey).map (·.reserved) = some (c.reserved - 1)) ∧
    (∀ kind e, x.wait = .switch kind e → (s.see v).epochOf kind e = esPENDING →
      exec (.adminComplete r v) s = .next (s.see v)) ∧
    ((s.see v).taskRuns (.admin r) = true →
      (∀ q c, x.wait = .destroy q [] → q ≠ acqKey → (s.see v).queue? q = some c → c.blocked = false →
        (∀ z ∈ s.obj.slots, z.2.queue ≠ q) → ∃ t, exec (.adminComplete r v) s = .next t ∧ t.queue? q = none) ∧
      (∀ h n key k, x.wait = .install h n key → (s.see v).conn? h = some k → k.keys.length ≤ 1 →
        ∃ t, exec (.adminComplete r v) s = .next t ∧ (t.conn? h).bind Conn.installed = some { epoch := n, key := key }) ∧
      (∀ i b n, i < 128 → x.wait = .arm i (some (b, n)) → ∃ t, exec (.adminComplete r v) s = .next t ∧
        t.flag (F.CTL_INST_LOG_ARMED i) = true ∧ ((t.inst i).logBase, (t.inst i).logLog2) = (b, n)) ∧
      (∀ i, i < 128 → x.wait = .arm i none → ∃ t, exec (.adminComplete r v) s = .next t ∧
        t.flag (F.CTL_INST_LOG_ARMED i) = false) ∧
      (∀ i root walk, x.wait = .translations i (some (root, walk)) → (s.see v).usesEnded i = true →
        ∃ t, exec (.adminComplete r v) s = .next t ∧ ((t.inst i).xltRoot, (t.inst i).walk) = (root, walk)) ∧
      (∀ i, i < 128 → x.wait = .reset i → (s.see v).resetReady i = true → ∃ t, exec (.adminComplete r v) s = .next t ∧
        t.flag (F.CTL_INST_STATE_RESETTING i) = false))) ∧
  ∀ (w : Word) (s : State),
    (s.halted = true → exec (.aqEnable w) s = .next s ∧ exec (.aqDisable w) s = .next s) ∧
    (s.halted = false → s.flag F.CTL_AQ_CTRL_ENABLE = false → s.obj.adm = [] →
      (s.aqBad (w ||| 0x80000000#32) = true → exec (.aqEnable w) s = .next s) ∧
      (s.aqBad (w ||| 0x80000000#32) = false → ∃ t, exec (.aqEnable w) s = .next t ∧ t.flag F.CTL_AQ_CTRL_ENABLE = true ∧
        (t.queue? 0).map (fun q => (q.pos, q.log2, q.k, q.coherent)) = some (0, bits w 9 5, bits w 19 15, bit w 20) ∧
        (t.queue? acqKey).map (fun q => (q.pos, q.log2, q.coherent, q.split)) =
          some (0, bits w 14 10, bit w 20, bit w 21))) ∧
    (s.halted = false → s.flag F.CTL_AQ_CTRL_ENABLE = true → exec (.aqEnable w) s = .next s ∧
      ∃ t, exec (.aqDisable w) s = .next t ∧ t.flag F.CTL_AQ_CTRL_ENABLE = false ∧ t.obj.adm = s.obj.adm ∧
        (s.obj.adm = [] → (t.queue? 0).map (·.pos) = (s.queue? 0).map (fun _ => 0)))

/-- R122, R127-R130, R132: the address is written once after a device reset, and by nothing else here. A held cell that is
link-local or for this chip is delivered; one that cannot be routed is discarded and counted by its cause: no address, a route
epoch that is not routable, the hop limit. One that is routed goes to the end of the queue of an eligible port of the image
that its epoch holds, with at most CM set; else no queue changes. Where the spec leaves it open, this is the model's choice:
log entries 158 and 159. -/
def Obligations.HeldCellsAreDeliveredOrCounted : Prop :=
  (∀ (w : Word) (s : State), (s.halted = true ∨ s.addressed = true → exec (.endpointWrite w) s = .next s) ∧
    (s.halted = false → s.addressed = false → ∃ t, exec (.endpointWrite w) s = .next t ∧ t.addr = bits w 16 0 ∧
      t.addressed = true ∧ (∀ a, a ≠ Reg.CTL_ENDPOINT → t.rd a = s.rd a) ∧ { t with regs := s.regs } = s)) ∧
  ∀ (k : Nat) (s : State) (h : HeldCell), s.rt.held[k]? = some h → ∃ t, exec (.route k) s = .next t ∧
    t.rt.held = s.rt.held.eraseIdx k ∧
    (h.cell.linkLocal = true ∨ (s.addressed = true ∧ h.cell.dst = s.addr) →
      t.rt.delivered = s.rt.delivered ++ [h] ∧ t.regs = s.regs) ∧
    (h.cell.linkLocal = false → s.addressed = false →
      t.rt.delivered = s.rt.delivered ∧ t.rd Reg.CTL_DROP_NOROUTE = s.rd Reg.CTL_DROP_NOROUTE + 1#32) ∧
    (h.cell.linkLocal = false → s.addressed = true → h.cell.dst ≠ s.addr → t.rt.delivered = s.rt.delivered ∧
      (routableSt (s.repoch h.cell.epo) = false → t.rt.outQ = s.rt.outQ ∧
        t.rd Reg.CTL_DROP_EPOCH = s.rd Reg.CTL_DROP_EPOCH + 1#32) ∧
      (routableSt (s.repoch h.cell.epo) = true → s.fld F.CTL_ROUTE_CTRL_HOP_LIMIT ≤ h.cell.hop → t.rt.outQ = s.rt.outQ ∧
        t.rd Reg.CTL_DROP_HOP = s.rd Reg.CTL_DROP_HOP + 1#32)) ∧
    (t.rt.outQ ≠ s.rt.outQ → ∃ p n d c, s.eligible h.cell.cls p = true ∧ (sprayOf (s.rtable h.cell.epo) n).testBit p = true ∧
      (c = h.cell ∨ c = h.cell.withCM) ∧
      t.rt.outQ = Map.set s.rt.outQ p (s.queueOf p ++ [{ h with cell := c, detour := d }]))

/-- R144: a drain marker for an epoch that is ACTIVE or RETIRING is kept; one for another is discarded. At the bound a
RETIRING epoch becomes IDLE with FORCED set, and no cell stamped with it is held or queued; an epoch that is not RETIRING is
left alone. R606: a chip acts on each tide at most once; its time is not changed by it. R176: a RETIRING schedule epoch
becomes IDLE, and nothing but the epochs' states changes. Where the spec leaves it open, this is the model's choice: log entry
158. -/
def Obligations.EpochsDrainOrAreRetired : Prop :=
  (∀ (s : State),
    (∀ (l : LaneId) (c : Cell), s.Manages c mgDRAIN → c.linkLocal = true → ∃ t, exec (.drain l c) s = .next t ∧
      (s.repoch (c.pb 0 1 % 2) = esACTIVE ∨ s.repoch (c.pb 0 1 % 2) = esRETIRING →
        (c.pb 0 1 % 2, c.pb 1 1 % 16, s.linkOf l.val) ∈ t.rt.drainIn) ∧
      (s.repoch (c.pb 0 1 % 2) ≠ esACTIVE → s.repoch (c.pb 0 1 % 2) ≠ esRETIRING →
        t.rt.drainIn = s.rt.drainIn ∧ t.regs = s.regs)) ∧
    ∃ t, exec .forcedRetirement s = .next t ∧ ∀ e, e < 2 →
      (s.repoch e = esRETIRING → t.repoch e = esIDLE ∧ t.flag F.CTL_ROUTE_EPOCH_FORCED = true ∧ t.stampedHere e = []) ∧
      (s.repoch e ≠ esRETIRING → t.repoch e = s.repoch e)) ∧
  ∀ (s : State), (tideNo s.t ≤ s.tim.lastTide → exec .tide s = .next s) ∧
    (s.tim.lastTide < tideNo s.t → ∃ t, exec .tide s = .next t ∧ t.tim.lastTide = tideNo s.t ∧ t.now = s.now ∧
      t.mgt.rootId = s.rd64 Reg.MGT_ROOT_ID ∧ exec .tide t = .next t) ∧
    ∃ t, exec .scheduleEpochRetire s = .next t ∧ { t with regs := s.regs } = s ∧ ∀ e, e < 2 →
      t.sepoch e = if s.sepoch e = esRETIRING then esIDLE else s.sepoch e

/-- R152: a read of TIM_NOW_LO returns bits [31:0] of the fabric time and latches bits [63:32] into TIM_NOW_HI for the
requester; nothing else changes. -/
def Obligations.FabricTimeIsReadInTwoHalves : Prop :=
  ∀ (who : Fin 9) (s : State), ∃ t, exec (.timNowRead who) s = .next t ∧
    t.lastRead = .data who.val (BitVec.ofNat 64 (s.now.extractLsb' 0 32).toNat) 4 ∧
    Map.get? (t.requester who.val).latch Reg.TIM_NOW_HI = some (s.now.extractLsb' 32 32) ∧
    { t with req := s.req, lastRead := s.lastRead } = s

/-- R156, 14 R431: an exchange starts with TS_REQ on the link that the chip follows; a chip that has time answers TS_REQ with
TS_RESP and records when it came; TS_RESP of the exchange gives t4. -/
def Obligations.TimestampsAreExchanged : Prop :=
  ∀ (s : State),
    (s.exchangeLink = none → exec .tsExchange s = .next s) ∧
    (∀ p, s.exchangeLink = some p → s.tim.xchg = none → ∃ t, exec .tsExchange s = .next t ∧
      t.tim.xchg = some ((s.tim.xchgNo + 1) % 256) ∧ mkWord wTSREQ ((s.tim.xchgNo + 1) % 256) ∈ (t.link p).words) ∧
    (∀ (l : LaneId) (n : BitVec 8), ∃ t, exec (.tsReq l n) s = .next t ∧ t.regs = s.regs ∧
      (s.linkFull (s.linkOf l.val) = true → s.timeState ≠ tsUNSET →
        mkWord wTSRESP n.toNat ∈ (t.link (s.linkOf l.val)).words ∧ Map.get? t.tim.t2 (s.linkOf l.val) = some s.t) ∧
      (s.timeState = tsUNSET → t.tim = s.tim)) ∧
    ∀ (l : LaneId) (n : BitVec 8), s.followed = s.linkOf l.val → s.follows = true → s.tim.xchg = some n.toNat →
      ∃ t, exec (.tsResp l n) s = .next t ∧ t.tim = { s.tim with t4 := some s.t } ∧ t.regs = s.regs

/-- R156, R157, R160: an exchange that steps nothing shows its offset, leaves it to be slewed, and counts as good or restarts
the count. An exchange that steps puts the time at the parent's. Where the spec leaves it open, this is the model's choice:
log entries 4, 61 and 62. -/
def Obligations.ExchangesSlewOrStepTheTime : Prop :=
  ∀ (l : LaneId) (t2 t3 : Word) (s : State), s.follows = true → s.followed = s.linkOf l.val → s.tim.xchg.isSome = true →
    s.tim.t4.isSome = true →
    (s.stepsBy (s.measure t2.toNat t3.toNat).1 = none → s.timeState ≠ tsHOLDOVER → s.tim.raised ≠ 1 →
      ∃ t, exec (.tsData l t2 t3) s = .next t ∧ t.now = s.now ∧ t.tim.xchg = none ∧ t.tim.missed = 0 ∧
        t.rd Reg.TIM_OFFSET = BitVec.ofInt 32 (s.measure t2.toNat t3.toNat).1 ∧
        t.tim.slew = (s.measure t2.toNat t3.toNat).1 ∧ t.timeState = s.timeState ∧
        t.fld F.TIM_STATUS_GOOD = (if goodOffset (s.measure t2.toNat t3.toNat).1 then min 255 (s.fld F.TIM_STATUS_GOOD + 1) else 0)) ∧
    (s.stepsBy (s.measure t2.toNat t3.toNat).1 ≠ none → ∃ t, exec (.tsData l t2 t3) s = .next t ∧
      t.now = BitVec.ofNat 64 ((s.t : Int) + (s.measure t2.toNat t3.toNat).1).toNat)

/-- R161: a missed exchange restarts the count of good ones; the third in a row takes a LOCKED chip that follows a parent into
HOLDOVER. After 1 ms of HOLDOVER such a chip is an OUTLIER, its time kept. R159: the parent's link goes to FULL for four
exchanges. Where the spec leaves it open, this is the model's choice: log entry 69. -/
def Obligations.LosingTheParentIsNoticed : Prop :=
  ∀ (s : State),
    (s.tim.xchg = none → exec .exchangeMissed s = .next s) ∧
    (s.tim.xchg.isSome = true → s.tim.missed < 2 → ∃ t, exec .exchangeMissed s = .next t ∧ t.tim.xchg = none ∧
      t.tim.missed = s.tim.missed + 1 ∧ t.fld F.TIM_STATUS_GOOD = 0 ∧ t.timeState = s.timeState) ∧
    (s.tim.xchg.isSome = true → 2 ≤ s.tim.missed → s.follows = true → s.timeState = tsLOCKED →
      ∃ t, exec .exchangeMissed s = .next t ∧ t.tim.holdFrom = some s.t ∧ t.tim.missed = 0 ∧ t.timeState = tsHOLDOVER) ∧
    (s.follows = true → s.timeState = tsHOLDOVER → ∃ t, exec .holdoverLimit s = .next t ∧ t.timeState = tsOUTLIER ∧
      t.tim.stepDue = true ∧ t.tim.holdFrom = none ∧ t.now = s.now) ∧
    (s.follows = true → s.linkRuns s.followed = true → s.linkFull s.followed = false →
      ∃ t, exec .holdoverLinkRaise s = .next t ∧ t.tim = { s.tim with raised := 4 })

/-- R163, R164, 22 R590: SET_ARM loads the time at a PPS edge of the root; at the first edge of a root that has left UNSET its
time steps to the nearest whole second, and at the others it is slewed there; a FOLLOWER takes no notice of TIME_IN; its loss,
or a late edge, clears TIME_IN_OK; the standby takes over without a step. Where the spec leaves it open, this is the model's
choice: log entry 63. -/
def Obligations.TimeInSteersTheRoot : Prop :=
  ∀ (s : State),
    (∀ valid, s.role = roleFOLLOWER → exec (.ppsEdge valid) s = .next s) ∧
    (∀ valid, s.role = roleROOT → s.flag F.TIM_CTRL_SET_ARM = true → ∃ t, exec (.ppsEdge valid) s = .next t ∧
      t.now = s.rd Reg.TIM_SET_HI ++ s.rd Reg.TIM_SET_LO ∧ t.tim.stepped = true) ∧
    (s.role = roleROOT → s.flag F.TIM_CTRL_SET_ARM = false → s.flag F.TIM_STATUS_TIME_IN_OK = true → s.timeState ≠ tsUNSET →
      ∃ t, exec (.ppsEdge true) s = .next t ∧
        (s.timeState = tsACQUIRING → s.tim.stepped = false → t.now = BitVec.ofNat 64 (nearestSecond s.t) ∧ t.tim.stepped = true) ∧
        (s.timeState ≠ tsACQUIRING ∨ s.tim.stepped = true → t.now = s.now ∧ t.tim.slew = (nearestSecond s.t : Int) - s.t ∧
          t.tim.aligned = goodOffset ((nearestSecond s.t : Int) - s.t))) ∧
    (s.role = roleFOLLOWER → exec .timeInLost s = .next s ∧ exec .ppsEdgeLate s = .next s) ∧
    (s.role ≠ roleFOLLOWER → ∃ t, exec .timeInLost s = .next t ∧ exec .ppsEdgeLate s = .next t ∧
      t.flag F.TIM_STATUS_TIME_IN_OK = false ∧ t.tim.ppsEdges = 0 ∧ t.tim.aligned = false ∧
      (s.flag F.TIM_STATUS_TIME_IN_OK = true → s.isRoot = true → s.timeState = tsLOCKED → t.timeState = tsHOLDOVER)) ∧
    (s.role = roleSTANDBY → s.flag F.TIM_STATUS_ACTING_ROOT = false → s.flag F.TIM_STATUS_TIME_IN_OK = true →
      ∃ t, exec .standbyTakeover s = .next t ∧ t.flag F.TIM_STATUS_ACTING_ROOT = true ∧ t.now = s.now ∧
        (s.timeState ≠ tsUNSET → t.timeState = s.timeState))

/-- R161, R162, R164: a write of TIM_CTRL returns the chip to its parent port and ends the acting root; a new parent port
starts the time anew, from ACQUIRING, or from UNSET where no time is held. SET_ARM arms a root. R153: TIME_OUT pulses at a
whole second, and is held low while UNSET. Where the spec leaves it open, this is the model's choice: log entry 64. -/
def Obligations.TimeControlIsWritten : Prop :=
  ∀ (w : Word) (s : State),
    (s.halted = true → exec (.timCtrlWrite w) s = .next s ∧ exec (.setArm w) s = .next s) ∧
    (s.halted = false → ∃ t, exec (.timCtrlWrite w) s = .next t ∧ t.now = s.now ∧ t.tim.xchg = none ∧
      t.flag F.TIM_STATUS_ON_ALT = false ∧ t.flag F.TIM_STATUS_ACTING_ROOT = false ∧
      t.fld F.TIM_CTRL_PARENT_PORT = bits w 9 0 ∧ (bits w 31 30 ≠ 3 → t.role = bits w 31 30) ∧
      (bits w 9 0 ≠ s.fld F.TIM_CTRL_PARENT_PORT → t.fld F.TIM_STATUS_GOOD = 0 ∧
        t.timeState = if s.timeState = tsUNSET ∨ s.tim.held = false then tsUNSET else tsACQUIRING)) ∧
    (s.halted = false → bits w 31 30 = roleROOT → ∃ t, exec (.setArm w) s = .next t ∧
      t.flag F.TIM_CTRL_SET_ARM = true ∧ t.role = roleROOT) ∧
    (s.timeState = tsUNSET → exec .timeOutPulse s = .next s) ∧
    (s.timeState ≠ tsUNSET → exec .timeOutPulse s = .next { s with tim := { s.tim with timeOut := s.tim.timeOut + 1 } })

/-- R180, R195: a read of a source record shows it in TIM_XSRC_DATA0-4; a write puts it there unless it is refused, which ERR
tells, and changes no other record. Where the spec leaves it open, this is the model's choice: log entry 144. -/
def Obligations.SourceRecordsAreReadAndWritten : Prop :=
  ∀ (w : Word) (s : State),
    (s.halted = true → exec (.xsrcRead w) s = .next s ∧ exec (.xsrcWrite w) s = .next s) ∧
    (s.halted = false →
      (∃ t, exec (.xsrcRead w) s = .next t ∧ t.tim = s.tim ∧
        t.rd Reg.TIM_XSRC_DATA2 = BitVec.ofNat 32 ((s.xrec (bits w 12 12) (bits w 11 0)).count * 2 ^ 16 +
          (s.xrec (bits w 12 12) (bits w 11 0)).stride) ∧
        t.rd Reg.TIM_XSRC_DATA3 = BitVec.ofNat 32 ((s.xrec (bits w 12 12) (bits w 11 0)).bofs * 2 ^ 16 +
          (s.xrec (bits w 12 12) (bits w 11 0)).first)) ∧
      ∃ t, exec (.xsrcWrite w) s = .next t ∧ ∀ r, s.xsrcData (s.xrec (bits w 12 12) (bits w 11 0)) = r →
        (s.xsrcRefused (bits w 12 12) (bits w 11 0) r = true → t.tim = s.tim ∧ t.flag F.TIM_XSRC_CMD_ERR = true) ∧
        (s.xsrcRefused (bits w 12 12) (bits w 11 0) r = false → t.xrec (bits w 12 12) (bits w 11 0) = r ∧
          t.flag F.TIM_XSRC_CMD_ERR = false ∧
          ∀ m, m ≠ 4096 * bits w 12 12 + bits w 11 0 → Map.getD t.tim.recs m {} = Map.getD s.tim.recs m {}))

/-- R169, R182, R183: the payload of a slot that the record owns, in the schedule epoch of that slot, is read ahead of its
window; the window then leaves, once, and the mark of one that carries a cell is to be sent from the start of its slot. A slot
that the record does not own has none. Where the spec leaves it open, this is the model's choice: log entry 143. -/
def Obligations.WindowsAreReadAheadAndLeaveOnce : Prop :=
  ∀ (n : Fin 4096) (slot : Nat) (data : List HostRead) (s : State),
    (s.ownedIn (s.schedAt (slotStart slot)) n.val slot = none → exec (.windowPayloadRead n slot) s = .next s) ∧
    (s.ownedSlot n.val slot = none → exec (.windowSource n slot data) s = .next s) ∧
    (∀ e r, s.ownedIn (s.schedAt (slotStart slot)) n.val slot = some (e, r) → s.joined = true → s.synced = true →
      ∃ t, exec (.windowPayloadRead n slot) s = .next t ∧ (4096 * e + n.val, slot) ∈ t.tim.ready) ∧
    ∀ e r p, s.ownedSlot n.val slot = some (e, r) → s.joined = true → (if r.pfail then r.bout else r.out) = p →
      (s.tim.ready.contains (4096 * e + n.val, slot) = false → exec (.windowSource n slot data) s = .next s) ∧
      (s.tim.ready.contains (4096 * e + n.val, slot) = true → s.eligible 7 p = true →
        ∃ t, exec (.windowSource n slot data) s = .next t ∧ (4096 * e + n.val, slot) ∉ t.tim.ready ∧
          ∀ u, s.tim.resend = [] → u.synced = true → ({ s with tim := { s.tim with
              ready := s.tim.ready.filter (· != (4096 * e + n.val, slot)) } } : State).fillWindow r.dst 60 data = u →
            (u.rt.held.drop s.rt.held.length).any (fun h => h.cell.cls == 7) = true →
            (slotStart slot, 4096 * e + slot % 4096) ∈ Map.getD t.tim.markOut p [])

/-- R170, R172: a mark opens the window of its link, with the schedule's entry for it, and is to go on 85 ns later where that
entry sends the window; a transit cell of a window that ends here is delivered, one outside a window is discarded and counted.
R185: a TRANSIT_DOWN switches a valid record that owns the label to its backup. -/
def Obligations.TransitCellsFollowTheirWindow : Prop :=
  ∀ (l : LaneId) (s : State),
    (∀ d : BitVec 16, s.linkFull (s.linkOf l.val) = true → ∃ t, exec (.mark l d) s = .next t ∧
      ∀ o, s.windowEntry (bits d 12 12) (s.linkOf l.val) (bits d 11 0) = o →
        Map.get? t.tim.windows (s.linkOf l.val) =
          some { epoch := bits d 12 12, label := bits d 11 0, count := 0, entry := o } ∧
        (o < 1024 → s.eligible 7 o = true →
          (s.t + ns 85, 4096 * bits d 12 12 + bits d 11 0) ∈ Map.getD t.tim.markOut o [])) ∧
    (∀ c, s.tim.transitIn.contains (s.linkOf l.val, c) = true →
      (Map.get? s.tim.windows (s.linkOf l.val) = none → ∃ t, exec (.transitCell l c) s = .next t ∧ t.rt = s.rt ∧
        t.rd Reg.TIM_TRANSIT_DROP = s.rd Reg.TIM_TRANSIT_DROP + 1#32) ∧
      ∀ w, Map.get? s.tim.windows (s.linkOf l.val) = some w → w.count < 60 → s.synced = true →
        w.entry = enDELIVER →
        ∃ t, exec (.transitCell l c) s = .next t ∧ t.regs = s.regs ∧
          t.rt = { s.rt with delivered := s.rt.delivered ++ [{ inp := some (s.linkOf l.val), cell := c }] }) ∧
    ∀ c n r, s.Manages c mgTRANSITDOWN → Map.get? s.tim.recs (4096 * (c.pb 0 1 % 2) + n) = some r → n < 4096 →
      r.valid = true → r.ownsPrimary (c.pb 2 2 % 4096) = true →
      ∃ t, exec (.transitDown c) s = .next t ∧ (t.xrec (c.pb 0 1 % 2) n).pfail = true

/-- R194: a link in the schedule is held, and released; at its hold and ahead of it a link that has left FULL is on its way
back. -/
def Obligations.LanesInTheScheduleAreHeld : Prop :=
  ∀ (l : LaneId) (s : State),
    (∃ t, exec (.laneHold l true) s = .next t ∧ (s.linkFull (s.linkOf l.val) = true → t.regs = s.regs) ∧
      (s.inSchedule (s.linkOf l.val) = true → t.heldLink (s.linkOf l.val) = true) ∧
      (s.inSchedule (s.linkOf l.val) = false → t = s) ∧
      (s.inSchedule (s.linkOf l.val) = true → s.heldLink (s.linkOf l.val) = false → s.linkRuns (s.linkOf l.val) = true →
        s.fld (F.LNG_LANE_STATUS_PHASE (s.linkOf l.val)) = phHALF → s.tileActive (tileOf (s.linkOf l.val)) = true →
        s.tileChanging (tileOf (s.linkOf l.val)) = false → (t.link (s.linkOf l.val)).exitFrom = some phHALF)) ∧
    (∃ t, exec (.laneHold l false) s = .next t ∧ t.heldLink (s.linkOf l.val) = false ∧
      { t with tim := s.tim } = s) ∧
    (s.inSchedule (s.linkOf l.val) = false → exec (.scheduleWake l) s = .next s) ∧
    (s.inSchedule (s.linkOf l.val) = true → s.linkRuns (s.linkOf l.val) = true →
      s.fld (F.LNG_LANE_STATUS_PHASE (s.linkOf l.val)) = phHALF → s.tileActive (tileOf (s.linkOf l.val)) = true →
      s.tileChanging (tileOf (s.linkOf l.val)) = false →
      ∃ t, exec (.scheduleWake l) s = .next t ∧ (t.link (s.linkOf l.val)).exitFrom = some phHALF)

/-- R201, R202, R219: OPEN at an end that is CLOSED or OPENING, and OPEN_ACK at one that is OPENING, make it OPEN with the
generation and the watermark that the cell carries. A BROKEN end stays BROKEN. Where the spec leaves it open, this is the
model's choice: log entry 170. -/
def Obligations.OpeningEndsInOpen : Prop :=
  ∀ (c : Cell) (v : View) (s : State) (k : Conn),
    ((c.typ = tyNOTICE ∧ c.pb 8 1 = kOPEN) → s.Delivers c → s.conn? (c.pb 0 4) = some k → c.src = k.peerEp → c.ins = k.peerInst →
      c.pb 4 4 = k.peerHandle → s.stale k = false → (c.cls = k.cls ∨ (c.cls = 6 ∧ k.cls = 7)) → s.onDie (c.pb 0 4) = true →
      (k.st = .broken → ∃ t, exec (.openConn c v) s = .next t ∧ (t.conn? (c.pb 0 4)).map (·.st) = some .broken) ∧
      ((k.st = .closed ∨ k.st = .opening) → k.switching = none → (∀ x ∈ s.msgsOf (c.pb 0 4), x.2.seq = none) →
        ∃ t, exec (.openConn c v) s = .next t ∧
          (t.conn? (c.pb 0 4)).map (fun k => (k.st, k.peerGen, k.nextSeq, k.w)) =
            some (.opened, some (ccGen c), (ccWm c + 1) % 65536, 16384))) ∧
    (s.ReachesConn c tyNOTICE kOPENACK (c.pb 0 4) k → k.st = .opening → k.switching = none →
      (∀ x ∈ s.msgsOf (c.pb 0 4), x.2.seq = none) →
      ∃ t, exec (.openAck c v) s = .next t ∧
        (t.conn? (c.pb 0 4)).map (fun k => (k.st, k.peerGen, k.nextSeq, k.w)) =
          some (.opened, some (ccGen c), (ccWm c + 1) % 65536, 16384))

/-- R205, R209, R216, R217: a watermark that lies above the last one and at or below the last SEQ assigned becomes the peer's,
from ACK and from STATUS alike; any other changes nothing; STATUS is progress. A PROBE is answered with STATUS, on the
connection's own control class. Where the spec leaves it open, this is the model's choice: log entries 169 and 170. -/
def Obligations.WatermarksMoveOnlyForward : Prop :=
  ∀ (c : Cell) (v : View) (s : State) (h : Nat) (k : Conn) (wm : Nat),
    (if 0 < (ccWm c + 65536 - k.peerWm) % 65536 ∧ (ccWm c + 65536 - k.peerWm) % 65536 ≤ k.outstanding then ccWm c
      else k.peerWm) = wm →
    (k.st = .opened → s.ReachesConn c tyACK kACK h k → ∃ t, exec (.ack c v) s = .next t ∧
      (t.conn? h).map (·.peerWm) = some wm) ∧
    (k.st = .opened → s.ReachesConn c tyACK kSTATUS h k → ∃ t, exec (.status c v) s = .next t ∧
      (t.conn? h).map (fun k => (k.peerWm, k.expiries, k.progress)) = some (wm, 0, s.t)) ∧
    (k.st = .opened → s.ReachesConn c tyNOTICE kPROBE h k → ∃ t y, exec (.probe c) s = .next t ∧ t.inj.ctl[s.inj.ctl.length]? = some y ∧
      y.typ = tyACK ∧ y.dst = k.peerEp ∧ y.cls = k.ctlCls ∧ y.ins = k.inst ∧ y.gen = s.gen k.inst)

/-- R216-R218, R203: a timer that does not run does nothing; at the retry limit, and at REMOTE_GENERATION, the connection is
BROKEN; an OPENING end below the limit sends OPEN again. R199: a missed context takes a free on-die entry once its swap is
complete. Where the spec leaves it open, this is the model's choice: log entries 21 and 126. -/
def Obligations.ConnectionsBreakOrTryAgain : Prop :=
  ∀ (v : View) (s : State) (k : Conn),
    (∀ h : Word, (s.see v).conn? h.toNat = some k →
      (k.timerRuns = false → (s.see v).sourceFailed h.toNat = [] → exec (.retransmissionTimer h v) s = .next (s.see v)) ∧
      (k.timerRuns = true → s.fld (F.CTL_XPT_RETRY_RETRY_LIMIT k.cls) ≤ k.expiries + 1 →
        ∃ t, exec (.retransmissionTimer h v) s = .next t ∧ (t.conn? h.toNat).map (·.st) = some .broken) ∧
      (k.st = .opening → k.expiries + 1 < s.fld (F.CTL_XPT_RETRY_RETRY_LIMIT k.cls) →
        ∃ t y, exec (.retransmissionTimer h v) s = .next t ∧ (t.conn? h.toNat).map (·.expiries) = some (k.expiries + 1) ∧
          t.inj.ctl = s.inj.ctl ++ [y] ∧ y.typ = tyNOTICE ∧ y.dst = k.peerEp)) ∧
    (∀ c h, s.ReachesConn c tyNOTICE kREMOTEGEN h k → ∃ t, exec (.remoteGeneration c v) s = .next t ∧
      (t.conn? h).map (·.st) = some .broken) ∧
    ∀ h : Word, (h.toNat ∉ s.xpt.swaps → exec (.contextSwapComplete h) s = .next s) ∧
      ∀ p n, h.toNat ∈ s.xpt.swaps → s.conn? h.toNat = some k → k.place = .gddr p → s.memReady = true →
        s.freeEntryOf k.inst = some n → ∃ t, exec (.contextSwapComplete h) s = .next t ∧
          (t.conn? h.toNat).map (·.place) = some (.onDie n) ∧ h.toNat ∉ t.xpt.swaps

/-- R203, R206, R210, 12 R394: a data cell without a context, for an end that is not OPEN, or of another generation is
discarded and counted (a CLOSED end that has been open opens again: log entry 168); a duplicate is counted and acknowledged;
one beyond the window is counted; the first of a new segment, whose message is not known yet, is held in a record of its own.
R213: WM advances over the complete message at WM + 1, which leaves the connection, and ACK goes out; a connection that is not
OPEN, or has no message, advances over nothing. -/
def Obligations.DataCellsAreClassified : Prop :=
  (∀ (h : Word) (v : View) (s : State) (k : Conn), (s.see v).conn? h.toNat = some k →
    (k.st ≠ .opened ∨ s.stale k = true ∨ k.rx = [] → exec (.wmAdvance h v) s = .next (s.see v)) ∧
    (∀ m, k.st = .opened → s.stale k = false → k.rx = [m] → m.seq = (k.wm + 1) % 65536 → m.typ = tyWRITE → m.status = 0 →
      (∀ e, m.target ≠ .store e) → k.ready m = true →
      ∃ t y, exec (.wmAdvance h v) s = .next t ∧
        (t.conn? h.toNat).map (fun k => (k.wm, k.rx)) = some ((m.seq + segsOf m.len + 65535) % 65536, []) ∧
        t.inj.ctl = s.inj.ctl ++ [y] ∧ y.typ = tyACK ∧ y.dst = k.peerEp)) ∧
  ∀ (c : Cell) (s : State), isMsgTyp c.typ = true → s.Delivers c →
    (s.connBy c.src c.ins c.cls = none → ∃ t, exec (.dataCell c) s = .next t ∧ t.xpt = s.xpt ∧
      t.rd Reg.CTL_XPT_NOCTX = s.rd Reg.CTL_XPT_NOCTX + 1#32) ∧
    ∀ h k, s.connBy c.src c.ins c.cls = some (h, k) → Map.rising s.xpt.conns = true → s.onDie h = true →
      (k.st ≠ .opened → ∃ t, exec (.dataCell c) s = .next t ∧
        t.rd Reg.CTL_XPT_NOCTX = s.rd Reg.CTL_XPT_NOCTX + 1#32 ∧
        (k.st = .closed → k.peerGen.isSome = true → ∃ y, (t.conn? h).map (·.st) = some .opening ∧
          t.inj.ctl = s.inj.ctl ++ [y] ∧ y.typ = tyNOTICE ∧ y.dst = k.peerEp) ∧
        (¬(k.st = .closed ∧ k.peerGen.isSome = true) → t.xpt = s.xpt)) ∧
      (k.st = .opened → s.stale k = false → k.peerGen ≠ some c.gen → ∃ t, exec (.dataCell c) s = .next t ∧ t.xpt = s.xpt ∧
        t.rd Reg.CTL_XPT_GEN_DROP = s.rd Reg.CTL_XPT_GEN_DROP + 1#32) ∧
      (k.st = .opened → s.stale k = false → k.peerGen = some c.gen → s.fnUp (s.portOf k.inst) (s.fnOf k.inst) = true →
        (k.classify c.seq = .duplicate → ∃ t y, exec (.dataCell c) s = .next t ∧ t.inj.ctl = s.inj.ctl ++ [y] ∧
          y.typ = tyACK ∧ y.dst = k.peerEp ∧ t.rd Reg.CTL_XPT_DUP = s.rd Reg.CTL_XPT_DUP + 1#32) ∧
        (k.classify c.seq = .beyond → ∃ t, exec (.dataCell c) s = .next t ∧ t.inj = s.inj ∧
          t.rd Reg.CTL_XPT_OOW = s.rd Reg.CTL_XPT_OOW + 1#32) ∧
        (k.classify c.seq = .accepted → k.encrypt = false → k.rx = [] → k.recs = [] → c.idx ≠ 0 →
          s.recsOf k.inst < 65536 / max 1 s.nInst → s.heldCells k.inst < 1048576 / max 1 s.nInst →
          ∃ t, exec (.dataCell c) s = .next t ∧ t.regs = s.regs ∧
            (t.conn? h).map (·.recs) = some [{ seq := c.seq, map := 2 ^ c.idx, marked := b2n c.cm, held := [c] }]))

/-- R231, R233: a replay ends with RESULT and REPLAY = 0; one that a check ends restores nothing (the model's reading of steps
1 and 2: log entry 90). A queue comes back at its POSITION, a connection CLOSED, with its WM, its frontier there, and its
peer. Where the spec leaves it open, this is the model's choice: log entries 71, 90 and 116. -/
def Obligations.ReplayEndsWithItsResult : Prop :=
  ∀ (w : Word) (r : Journal) (v : View) (s z : State), s.setup (s.jrnlCtrlWrite (w ||| 0x40000000#32)) = z →
    (z.flag F.CTL_JRNL_CTRL_REPLAY = false → exec (.journalReplay w r v) s = .next z) ∧
    (z.flag F.CTL_JRNL_CTRL_REPLAY = true → ∃ t, exec (.journalReplay w r v) s = .next t ∧
      t.flag F.CTL_JRNL_CTRL_REPLAY = false ∧
      (∀ n, z.replayFault r = some n → t.fld F.CTL_JRNL_CTRL_RESULT = n ∧ t.obj = z.obj ∧ t.xpt = z.xpt ∧ t.atu = z.atu ∧
        t.kept = z.kept) ∧
      (z.replayFault r = none → t.fld F.CTL_JRNL_CTRL_RESULT = rpOK ∧ t.kept = {}) ∧
      ∀ q x c, z.replayFault r = none → r = { n := r.n, headers := r.headers, queues := [(q, x)], conns := [c] } →
        z.kept = {} → z.obj.slots = [] → z.xpt = {} → z.atu = {} → z.col.groups = [] → z.failed (handleInst c.handle) = false →
        (x.testBit 7 = true → (t.queue? q).map (·.pos) = some (x / 2 ^ 32 % 65536)) ∧
        (c.bytes.testBit 7 = true → (t.conn? c.handle).map (fun k => (k.st, k.wm, k.front, k.peerEp, k.peerHandle)) =
          some (.closed, c.bytes / 2 ^ 16 % 65536, c.bytes / 2 ^ 16 % 65536, c.bytes / 2 ^ 32 % 2 ^ 17,
            c.bytes / 2 ^ 64 % 2 ^ 32)))

/-- 07 R262, R266, R267, 08 R289: the copy of a stored message frees its entry; a pull that its limit allows starts, and is
counted; a READ_REQ is answered by one READ_RESP of its length. -/
def Obligations.MatchedMessagesAreMoved : Prop :=
  ∀ (v : View) (s : State),
    (∀ e x z st y n, (s.see v).entry? e = some x → x.rts = false → x.covered = true → x.bound = some (z, st) →
      (s.see v).slot? z = some y → min x.len (dLength y.desc) = n →
      (x.status ≠ 0 ∨ n = 0 ∨ ((((s.see v).conn? x.handle).isSome = true → (s.see v).onDie x.handle = true) ∧
        ∀ u, (s.see v).access (.copy e) ((s.see v).connTile x.handle) x.inst (pLaddr y.desc) n true ≠ (u, .wait))) →
      ∃ t, exec (.unexpectedCopy e v) s = .next t ∧ t.entry? e = none ∧
        ∀ c, y.phase = .running → y.due = none → dOpcode y.desc = opPOSTRECV → (s.see v).queue? y.cq = some c →
          c.waiting = [] → 0 < c.room → t.slot? z = none) ∧
    (∀ e x k z st y, s.entry? e = some x → x.bound = some (z, st) → s.slot? z = some y → s.conn? x.handle = some k →
      s.nextPull x.handle = some e → k.st ≠ .broken → (s.pullTask x.handle).taskRuns (.pull e) = true →
      k.pulls < s.pullLimit x.proto → ∃ t, exec (.pullStart e) s = .next t ∧ e ∉ t.mat.pullWait ∧
        (t.conn? x.handle).map (·.pulls) = some (k.pulls + 1) ∧ (t.entry? e).map (·.pulling) = some true ∧
        t.rd Reg.CTL_MATCH_PULLS = s.rd Reg.CTL_MATCH_PULLS + 1#32) ∧
    ∀ (h : Word) k m, (s.see v).conn? h.toNat = some k → (s.see v).toServe h.toNat k = some m → rqPull m.cell0 = false →
      ∃ t, exec (.readReq h v) s = .next t ∧
        (Map.get? t.xpt.msgs s.xpt.nextMsg).map (fun r => (r.handle, r.typ, r.len, r.extImm)) =
          some (h.toNat, tyREADRESP, rqLen m.cell0, m.seq)

/-- R293, R294, R602: source data that cannot be read stops its message and SOURCE_FAULT goes out; the receiving end fails the
message with INTEGRITY; FAULT is answered with FAULT_CONFIRM, which completes the failed message at the end that sent FAULT.
Where the spec leaves it open, this is the model's choice: log entries 23 and 171. -/
def Obligations.FailuresAreReportedAndConfirmed : Prop :=
  ∀ (v : View) (c : Cell) (s : State) (h : Nat) (k : Conn),
    (∀ id timeout m q, (s.see v).msg? id = some m → m.stopped = false → m.seq = some q → s.conn? m.handle = some k →
      ∃ t y, exec (.sourceReadFail id timeout v) s = .next t ∧ (t.msg? id).map (·.stopped) = some true ∧
        t.inj.ctl.getLast? = some y ∧ y.typ = tyNOTICE ∧ y.dst = k.peerEp) ∧
    (∀ m, s.ReachesConn c tyNOTICE kRMACTRL h k → c.pb 16 1 = rcSOURCEFAULT → k.st = .opened → k.rx = [m] → k.recs = [] →
      m.seq = ccDseq c → m.status = 0 → ∃ t, exec (.sourceFault c) s = .next t ∧
        (t.conn? h).map (fun k => k.rx.map (·.status)) = some [stINTEGRITY]) ∧
    (s.ReachesConn c tyNOTICE kRMACTRL h k → c.pb 16 1 = rcFAULT → k.st ≠ .broken →
      ∃ t y, exec (.fault c v) s = .next t ∧ t.inj.ctl.getLast? = some y ∧ y.typ = tyNOTICE ∧ y.dst = k.peerEp ∧
        (t.conn? h).map (·.expiries) = some 0) ∧
    (s.ReachesConn c tyNOTICE kRMACTRL h k → c.pb 16 1 = rcCONFIRM → ∃ t, exec (.faultConfirm c) s = .next t ∧
      t.regs = s.regs ∧ (t.conn? h).map (·.rx) =
        some (k.rx.map (fun m => if m.seq = ccDseq c then (if m.faultSent then { m with confirmed := true } else m) else m)))

/-- R299, R301, R304, R305: a tag is kept with its segment's record; KEY_SWITCH on a connection that is not encrypted is
counted, and on one that holds the epoch it is answered; the answer ends the switch; NO_KEY spends the keys. -/
def Obligations.KeysAreSwitchedAndSpent : Prop :=
  ∀ (c : Cell) (s : State) (h : Nat) (k : Conn), s.ReachesConn c tyNOTICE kRMACTRL h k →
    (c.pb 16 1 = rcTAG → k.rx = [] → k.st = .opened → k.encrypt = true → ∃ t, exec (.tag c) s = .next t ∧ t.regs = s.regs ∧
      (t.conn? h).map (·.recs) = some (k.recs.map (fun r => if r.seq = ccDseq c then (if r.tagOk then r else
        { r with tag := some (BitVec.ofNat 128 (ofBytesBE ((List.range 16).map (fun i => c.pb (32 + i) 1)))) }) else r))) ∧
    (c.pb 16 1 = rcKEYSWITCH → k.encrypt = false → ∃ t, exec (.keySwitch c) s = .next t ∧
      t.rd Reg.CTL_RMA_NO_KEY = s.rd Reg.CTL_RMA_NO_KEY + 1#32) ∧
    (c.pb 16 1 = rcKEYSWITCH → k.encrypt = true → k.keys.any (fun x => x.epoch == c.pb 18 1 && !x.spent) = true →
      ∃ t y, exec (.keySwitch c) s = .next t ∧ t.inj.ctl = s.inj.ctl ++ [y] ∧ y.typ = tyNOTICE ∧ y.dst = k.peerEp) ∧
    (c.pb 16 1 = rcKEYACK → k.switching = some (c.pb 18 1, ccDseq c) → ∃ t, exec (.keySwitchAck c) s = .next t ∧
      (t.conn? h).map (·.switching) = some none ∧
      t.rd Reg.CTL_RMA_KEY_SWITCH = s.rd Reg.CTL_RMA_KEY_SWITCH + 1#32) ∧
    (c.pb 16 1 = rcNOKEY → ∃ t, exec (.noKey c) s = .next t ∧ t.regs = s.regs ∧
      (t.conn? h).map (fun k => (k.switching, k.keys.all (·.spent))) = some (none, true))

/-- R311, R314, R316, R319, R320: the request at the front of a connection, on a GDDR7 word that nothing else is operating on.
One that fails its check has no effect on the word and the registry; an atomic operation leaves NEW to be written; an ACQUIRE
of a free word enters its owner, one by the owner fails; a RELEASE by the owner frees the word, one by another master changes
nothing. Where the spec leaves it open, this is the model's choice: log entries 137 and 154. -/
def Obligations.WordsAreOperatedOnOnce : Prop :=
  ∀ (h : Word) (v : View) (s u : State) (k : Conn) (m : RxMsg) (r : WordCheck),
    ((s.see v).headReq h.toNat tyATOMICREQ = some (k, m) → (s.see v).reqBusy h.toNat m.seq = false → (s.see v).onDie h.toNat = true →
      (s.see v).wordCheck (.request h.toNat m.seq) ((s.see v).connTile h.toNat) k.inst m.cell0.extKey (some k.pd) acATOMIC
        m.cell0.extOffset = (u, r) →
      (∀ st, r = .fail st → ∃ t, exec (.atomicReq h v) s = .next t ∧ t.ram = s.ram ∧ t.atu = s.atu) ∧
      ∀ a g, r = .ok a → u.gddrAt k.inst a = some g → m.cell0.extImm % 4 ≠ 3 → u.heldAt k.inst a = none →
        u.wordBusy k.inst a = false → (u.newSlot k.inst).isSome = true →
        ∃ t o, exec (.atomicReq h v) s = .next t ∧ t.ram = s.ram ∧ t.atu = { u.atu with ops := u.atu.ops ++ [o] } ∧
          o.addr = a ∧ o.inst = k.inst ∧ (t.conn? h.toNat).map (·.wm) = some m.seq ∧
          o.write = some (g, atomicNew (m.cell0.extImm % 4) (ramRead s.ram.cells g 8) (m.cell0.pb 32 8) (m.cell0.pb 40 8))) ∧
    ((s.see v).headReq h.toNat tyLOCKREQ = some (k, m) → (s.see v).reqBusy h.toNat m.seq = false → (s.see v).onDie h.toNat = true →
      (s.see v).wordCheck (.request h.toNat m.seq) ((s.see v).connTile h.toNat) k.inst m.cell0.extKey (some k.pd) acLOCK
        m.cell0.extOffset = (u, r) →
      ∀ a g w, r = .ok a → u.gddrAt k.inst a = some g → u.wordBusy k.inst a = false → (u.newSlot k.inst).isSome = true →
        w = { via := true, inst := k.inst, who := h.toNat, tag := lqTag m.cell0 } →
        (lqLop m.cell0 = 1 → u.heldAt k.inst a = none → u.atu.held.length < 65536 →
          ∃ t x o, exec (.acquire h v) s = .next t ∧ t.ram = s.ram ∧ Map.get? t.atu.held u.atu.nextHeld = some x ∧
            x.owner = w ∧ x.addr = a ∧ x.prio = lqPrio m.cell0 ∧ x.word = (u.grantWord w x.prio (ramRead s.ram.cells g 8)).1 ∧
            t.atu.ops = u.atu.ops ++ [o] ∧ o.write = some (g, x.word)) ∧
        (lqLop m.cell0 = 1 → ∀ n x, u.heldAt k.inst a = some (n, x) → x.owner = w →
          ∃ t, exec (.acquire h v) s = .next t ∧ t.ram = s.ram ∧ t.atu = u.atu) ∧
        (lqLop m.cell0 = 2 → (∀ n x, u.heldAt k.inst a = some (n, x) → x.owner ≠ w) →
          ∃ t, exec (.release h v) s = .next t ∧ t.ram = s.ram ∧ t.atu = u.atu) ∧
        (lqLop m.cell0 = 2 → ∀ n x, u.heldAt k.inst a = some (n, x) → x.owner = w → x.waiters = [] →
          ramRead s.ram.cells g 8 = x.word →
          ∃ t o, exec (.release h v) s = .next t ∧ t.ram = s.ram ∧ t.atu.held = Map.erase u.atu.held n ∧
            t.atu.ops = u.atu.ops ++ [o] ∧ o.write = some (g, 0)))

/-- R323-R325: a window slot. A read shows HELD, or makes a grant HELD, or acquires a free word; a release of an IDLE slot
does nothing, of a WAITING one withdraws it, of a HELD one frees the word; a stalled read returns RETRY after 40 us, and a
slot that is not read for 1 ms is withdrawn. Where the spec leaves it open, this is the model's choice: log entries 137, 154
and 166. -/
def Obligations.WindowSlotsAcquireAndRelease : Prop :=
  ∀ (i : InstId) (n : Fin 256) (v : View) (s : State),
    ((s.see v).windowOpen i.val = false → exec (.atuLkAcquire i n v) s = .next (s.see v) ∧
      exec (.atuLkRelease i n v) s = .next (s.see v)) ∧
    ((s.see v).windowOpen i.val = true →
      ((s.see v).lkState i.val n.val = lsHELD → exec (.atuLkAcquire i n v) s =
        .next { s.see v with lastRead := .data (s.portOf i.val) (BitVec.ofNat 64 (lrHELD * 2 ^ 56)) 8 }) ∧
      ((s.see v).lkState i.val n.val = lsGRANTED → ∃ t, exec (.atuLkAcquire i n v) s = .next t ∧
        t.lkState i.val n.val = lsHELD ∧ t.lastRead = .data (s.portOf i.val) (s.rd64 (Reg.ATU_LK_ACQUIRE i.val n.val)) 8) ∧
      (∀ y u a g, (s.see v).lkState i.val n.val = lsIDLE → (s.see v).atu.arrivals = [] →
        ({ s.see v with atu := { (s.see v).atu with
            arrivals := [i.val * 256 + n.val], reading := Map.set (s.see v).atu.reading (i.val * 256 + n.val) (s.see v).t,
            idleSince := Map.erase (s.see v).atu.idleSince (i.val * 256 + n.val) } } : State).setFld
          (F.ATU_LK_STATUS_STATE i.val n.val) lsWAITING = y → y.slotPlaced i.val n.val = false →
        y.wordCheck (.slot (i.val * 256 + n.val)) (y.servingTile (n.val % 64)) i.val (y.lkKey i.val n.val) none acLOCK
          (y.lkOffset i.val n.val) = (u, .ok a) →
        u.wordBusy i.val a = false → u.heldAt i.val a = none → u.atu.held.length < 65536 → u.gddrAt i.val a = some g →
        ∃ t x, exec (.atuLkAcquire i n v) s = .next t ∧ t.lkState i.val n.val = lsHELD ∧
          Map.get? t.atu.held u.atu.nextHeld = some x ∧ x.owner = y.lkMaster i.val n.val ∧ x.addr = a ∧
          t.ram.cells = ramWrite s.ram.cells g 8 x.word) ∧
      ((s.see v).lkState i.val n.val = lsIDLE → exec (.atuLkRelease i n v) s = .next (s.see v)) ∧
      ((s.see v).lkState i.val n.val = lsWAITING → s.atu.held = [] → ∃ t, exec (.atuLkRelease i n v) s = .next t ∧
        t.lkState i.val n.val = lsIDLE ∧ t.fld (F.ATU_LK_STATUS_LAST i.val n.val) = lrWITHDRAWN ∧ t.ram = s.ram) ∧
      (∀ y h x g, (s.see v).lkState i.val n.val = lsHELD → (s.see v).setFld (F.ATU_LK_STATUS_STATE i.val n.val) lsIDLE = y →
        y.slotHold i.val n.val = some (h, x) → y.wordBusy i.val x.addr = false → y.gddrAt i.val x.addr = some g →
        ramRead s.ram.cells g 8 = x.word → x.waiters = [] →
        ∃ t, exec (.atuLkRelease i n v) s = .next t ∧ t.lkState i.val n.val = lsIDLE ∧
          t.fld (F.ATU_LK_STATUS_LAST i.val n.val) = lrGRANTED ∧ t.ram.cells = ramWrite s.ram.cells g 8 0 ∧
          t.atu.held = Map.erase s.atu.held h)) ∧
    (Map.has s.atu.reading (i.val * 256 + n.val) = true → s.lkState i.val n.val = lsWAITING →
      ∃ t, exec (.lkAcquireRetry i n) s = .next t ∧ Map.has t.atu.reading (i.val * 256 + n.val) = false ∧
        t.lkState i.val n.val = lsWAITING ∧
        t.lastRead = .data (s.portOf i.val) (BitVec.ofNat 64 (lrRETRY * 2 ^ 56)) 8) ∧
    (s.lkState i.val n.val ≠ lsWAITING → exec (.lkAcquireRetry i n) s = .next s ∧
      exec (.lkSlotWithdraw i n v) s = .next (s.see v)) ∧
    (s.lkState i.val n.val = lsWAITING → Map.has s.atu.reading (i.val * 256 + n.val) = false → s.atu.held = [] → s.atu.ops = [] →
      ∃ t, exec (.lkSlotWithdraw i n v) s = .next t ∧ t.lkState i.val n.val = lsIDLE ∧
        t.fld (F.ATU_LK_STATUS_LAST i.val n.val) = lrWITHDRAWN ∧ t.rd Reg.ATU_WITHDRAWN = s.rd Reg.ATU_WITHDRAWN + 1#32)

/-- R316, R317, R319, R330: the end of the one operation under way. WM then covers the request, an acquire has entered its
owner, NEW is in the word; ABANDON_ALL leaves a word that its connection held ABANDONED; a response moves WM past itself.
Where the spec leaves it open, this is the model's choice: log entry 137. -/
def Obligations.WordOperationsEnd : Prop :=
  ∀ (v : View) (s : State) (h : Word) (k : Conn), (s.see v).conn? h.toNat = some k →
    (∀ o, s.atu.ops = [o] → s.atu.arrivals = [] → o.issued = true →
      (∀ tries ur, o.write.isSome = true → exec (.hostWordOpDone 0 tries ur v) s = .next (s.see v)) ∧
      (∀ q old new z, (s.see v).hostOpAt 0 = some o → o.kind = .atomic h.toNat q → o.slot = some z →
        ∃ t, exec (.hostWordOpDone 0 [(old, new)] false v) s = .next t ∧ t.atu = { s.atu with ops := [] } ∧
          (t.conn? h.toNat).map (·.wm) = some q) ∧
      (∀ q w z, (s.see v).hostOpAt 0 = some o → o.kind = .acquire h.toNat q → o.slot = some z →
        ∃ t x, exec (.hostWordOpDone 0 [(w, w)] false v) s = .next t ∧ t.atu.ops = [] ∧
          Map.get? t.atu.held s.atu.nextHeld = some x ∧ x.owner = { via := true, inst := o.inst, who := h.toNat, tag := o.tag } ∧
          x.addr = o.addr ∧ (t.conn? h.toNat).map (·.wm) = some q) ∧
      (o.write = none → exec (.pendingWriteDone 0 v) s = .next (s.see v)) ∧
      ∀ g w, o.write = some (g, w) → ∃ t, exec (.pendingWriteDone 0 v) s = .next t ∧ t.atu = { s.atu with ops := [] } ∧
        t.ram.cells = ramWrite s.ram.cells g 8 w) ∧
    (∀ m n x g, (s.see v).headReq h.toNat tyLOCKREQ = some (k, m) → lqLop m.cell0 = 3 → s.atu.held = [(n, x)] →
      x.owner.via = true → x.owner.who = h.toNat → x.waiters = [] → s.wordBusy x.inst x.addr = false →
      ((s.see v).bump Reg.ATU_ABANDONED).gddrAt x.inst x.addr = some g → ramRead s.ram.cells g 8 = x.word →
      ∃ t, exec (.abandonAll h v) s = .next t ∧ t.atu.held = [] ∧ t.ram.cells = ramWrite s.ram.cells g 8 (2 ^ 62) ∧
        (t.conn? h.toNat).map (·.wm) = some m.seq) ∧
    ∀ m, k.st = .opened → (s.see v).stale k = false → k.rx = [m] → m.seq = (k.wm + 1) % 65536 → m.status = 0 → m.len = 8 →
      (∀ e, m.target ≠ .store e) → k.ready m = true →
      (s.see v).roomFor ((s.see v).dueQueues k ((s.see v).dueOf h.toNat k m)) = true →
      (m.typ = tyATOMICRESP → ∃ t, exec (.atomicResp h v) s = .next t ∧
        (t.conn? h.toNat).map (fun k => (k.wm, k.rx)) = some (m.seq, [])) ∧
      (m.typ = tyLOCKRESP → m.cell0.extImm.testBit 63 = false → ∃ t, exec (.lockResp h v) s = .next t ∧
        (t.conn? h.toNat).map (fun k => (k.wm, k.rx)) = some (m.seq, []))

/-- R336, R341, R345, R346, R351, R352: the tree step of a member without children takes its contribution and sends its up
message; that of a group of one ends a BARRIER. The next span goes up. A down message waits until the own up message has gone
whole; one without data ends the operation with the outcome it carries. ABORT breaks the member it is for. Where the spec
leaves it open, this is the model's choice: log entries 25, 26, 172 and 174. -/
def Obligations.CollectivesRunTheirPhases : Prop :=
  ∀ (g n : Word) (v : View) (s : State) (x : Group) (o : CollOp),
    (s.see v).group? g.toNat = some x → x.op? n.toNat = some o → x.broken = false → x.children = [] →
    (∀ data y z w u d, o.stepped = false → o.got = none → o.slot = some y → (s.see v).slot? y = some z → z.phase = .running →
      (s.see v).treeTask g.toNat n.toNat = w → w.taskRuns (.tree g.toNat n.toNat) = true →
      w.tileActive (w.servingTile (ownerTile g.toNat)) = true → w.contribution g.toNat x o z.desc data = (u, .ok d) →
      (∀ e, x.parent = some e → e.handle ≠ localEdge → o.sent = [] →
        (∀ y ∈ s.xpt.msgs, y.2.origin = .collective g.toNat n.toNat false → y.2.handle ≠ e.handle) →
        ∃ t m, exec (.treeStep g n data v) s = .next t ∧
        ((t.group? g.toNat).bind (fun y => y.op? n.toNat)).map (fun p => (p.stepped, p.own, p.status, p.upHdr.isSome, p.up)) =
          some (true, d, if o.bad then stINTEGRITY else 0, true, some s.xpt.nextMsg) ∧
        Map.get? t.xpt.msgs s.xpt.nextMsg = some m ∧ m.handle = e.handle ∧ m.typ = tyCOLLECTIVE) ∧
      (∀ e, x.parent = some e → e.handle = localEdge → ∃ t, exec (.treeStep g n data v) s = .next t ∧
        ((t.group? g.toNat).bind (fun y => y.op? n.toNat)).map (fun p => (p.stepped, p.own, p.status, p.upHdr.isSome)) =
          some (true, d, if o.bad then stINTEGRITY else 0, true)) ∧
      (x.parent = none → x.members = 1 → o.ctype = ctBARRIER → (∀ p ∈ s.col.groups, p.2.queued = []) →
        ∃ t, exec (.treeStep g n data v) s = .next t ∧
          (t.group? g.toNat).map (·.ops) = some (x.ops.filter (fun p => p.opnum != o.opnum)))) ∧
    (∀ e, x.parent = some e → o.stepped = true → o.upData = true → o.spans < o.count → 0 < o.spanElems →
      ∃ t, exec (.spanCombine g n v) s = .next t ∧
        ((t.group? g.toNat).bind (fun y => y.op? n.toNat)).map (·.spans) =
          some (o.spans + min o.spanElems (o.count - o.spans))) ∧
    (o.stepped = false → exec (.spanCombine g n v) s = .next (s.see v) ∧ exec (.downMessage g n v) s = .next (s.see v)) ∧
    (∀ hdr, o.stepped = true → o.downHdr = some hdr → o.upData = true → o.spans ≠ o.count →
      exec (.downMessage g n v) s = .next (s.see v)) ∧
    (∀ hdr, o.stepped = true → o.downHdr = some hdr → (o.upData = true → o.spans = o.count) → hWire hdr = 3 →
      (∀ e, x.parent = some e → e.handle ≠ localEdge) → (∀ p ∈ s.col.groups, p.2.queued = []) →
      ∃ t, exec (.downMessage g n v) s = .next t ∧
        (t.group? g.toNat).map (·.ops) = some (x.ops.filter (fun p => p.opnum != o.opnum))) ∧
    ∀ (h : Word) m, (s.see v).abortOn h.toNat = some m → hDown (m.cell0.pb 32 32) = true →
      (s.see v).downTarget (m.cell0.pb 8 4) h.toNat = some g.toNat →
      ∃ t, exec (.collectiveAbort h v) s = .next t ∧ (t.group? g.toNat).map (·.broken) = some true

/-- R368, R373-R375, R379: the end of a miss task whose reads are in: a leaf with ACCESSED set enters the slice of its tile; a
fault, and any walk while DEVLIST_LOCK is 0, loads nothing, fails what waited on it and records the first fault. The end of an
update loads the entry with the flag set; an entry that was found changed otherwise is counted, and walked again or dropped.
The accesses that waited go on (`missRetry`). A task that holds no engine slot waits. Where the spec leaves it open, this is
the model's choice: log entries 44, 45, 51 and 167. -/
def Obligations.TranslationsAreWalkedAndUpdated : Prop :=
  ∀ (t : TileId) (i : InstId) (va : Nat) (reads : List HostRead) (s : State),
    (s.missFor t.val i.val va = none → exec (.translationMiss t i va reads) s = .next s) ∧
    (∀ m, s.missFor t.val i.val va = some m → s.taskRuns m.task = false → exec (.translationMiss t i va reads) s = .next s) ∧
    (∀ m, s.missFor t.val i.val va = some m → s.taskRuns m.task = true → m.marked = false →
      (s.flag F.XLT_CTRL_DEVLIST_LOCK = false → ∃ z : State, exec (.translationMiss t i va reads) s = .next (z.missRetry m) ∧
        z.xlt.tlb = s.xlt.tlb ∧ z.xlt.misses = dropFirst m s.xlt.misses ∧ z.xlt.failed = s.xlt.failed ++
          m.waits.map (fun x => { who := x.1, tile := m.tile, inst := m.inst, va := x.2, status := stDEVICE })) ∧
      (s.flag F.XLT_CTRL_DEVLIST_LOCK = true →
        (∀ n, s.walkOf m reads = (n, .more) → exec (.translationMiss t i va reads) s = .next (s.missRetry m)) ∧
        (∀ n st l, s.walkOf m reads = (n, .fault st l) → ∃ z : State, exec (.translationMiss t i va reads) s = .next (z.missRetry m) ∧
          z.xlt.tlb = s.xlt.tlb ∧ z.xlt.misses = dropFirst m s.xlt.misses ∧
          z.xlt.failed = s.xlt.failed ++
            m.waits.map (fun x => { who := x.1, tile := m.tile, inst := m.inst, va := x.2, status := st }) ∧
          z.rd Reg.XLT_FAULT_INFO = if s.flag F.XLT_FAULT_INFO_VALID then s.rd Reg.XLT_FAULT_INFO else
            BitVec.ofNat 32 (2 ^ 31 + m.inst * 2 ^ 24 + st * 2 ^ 16 + l * 2 ^ 13 + b2n m.write * 2 ^ 12 + m.tile * 2 ^ 6)) ∧
        ∀ n l ptr e, s.walkOf m reads = (n, .leaf l ptr e) → e.getLsbD 3 = true →
          ∃ z : State, exec (.translationMiss t i va reads) s = .next (z.missRetry m) ∧ z.xlt.misses = dropFirst m s.xlt.misses ∧
            leafEntry m ptr (leafLog2 l) e ∈ z.slice t.val)) ∧
    ∀ (k room : Nat) (found : Word64) (u : FlagUpdate),
      (s.xlt.updates[k]? = none → exec (.flagUpdateDone k found false room) s = .next s) ∧
      (s.xlt.updates[k]? = some u → s.updateOut u = false → exec (.flagUpdateDone k found false room) s = .next s) ∧
      (s.xlt.updates[k]? = some u → s.updateOut u = true →
        (∃ z : State, exec (.flagUpdateDone k found true room) s = .next (z.missRetry u.miss) ∧ z.xlt.tlb = s.xlt.tlb ∧
          z.xlt.updates = dropFirst u s.xlt.updates) ∧
        (u.dirty = false → u.miss.marked = false → updateRaced u.expected found = false →
          ∃ z : State, exec (.flagUpdateDone k found false room) s = .next (z.missRetry u.miss) ∧
            z.xlt.updates = dropFirst u s.xlt.updates ∧
            leafEntry u.miss u.ptr u.log2 (found ||| 8#64) ∈ z.slice u.miss.tile) ∧
        (u.dirty = false → u.miss.marked = false → updateRaced u.expected found = true →
          ∃ z : State, exec (.flagUpdateDone k found false room) s = .next (z.missRetry u.miss) ∧ z.xlt.tlb = s.xlt.tlb ∧
            z.xlt.misses.length = s.xlt.misses.length + 1 ∧ z.rd Reg.XLT_RACE = s.rd Reg.XLT_RACE + 1#32) ∧
        (u.dirty = true → u.miss.marked = false → updateRaced u.expected found = true →
          ∃ z : State, exec (.flagUpdateDone k found false room) s = .next (z.missRetry u.miss) ∧
            (∀ e ∈ z.slice u.miss.tile, ¬(e.inst = u.miss.inst ∧ e.ptr = u.ptr))) ∧
        (u.dirty = true → u.miss.marked = false → u.miss.inst < 128 → updateRaced u.expected found = false →
          ∃ z : State, exec (.flagUpdateDone k found false room) s = .next (z.missRetry u.miss) ∧
            (∀ e ∈ z.slice u.miss.tile, e.inst = u.miss.inst → e.ptr = u.ptr → e.dirty = true) ∧
            z.rd Reg.XLT_DIRTY_SET = s.rd Reg.XLT_DIRTY_SET + 1#32))

/-- R378, R379, R368, R387, R389: an extent becomes valid unless its range is refused, which ERR tells; DEVLIST_LOCK sets; a
read of XLT_FAULT_INFO answers it and clears VALID; an instance is mapped unless it holds an object, and ERR tells a refused
mapping; what a host sets in a function holds from then on. Where the spec leaves it open, this is the model's choice: log
entries 47 and 48. -/
def Obligations.MappingsAreSetUp : Prop :=
  ∀ (i : InstId) (w : Word) (s : State),
    (s.windowOpen i.val = false → ∀ n : Fin 16, exec (.extentValidSet i n w) s = .next s) ∧
    (∀ n : Fin 16, s.windowOpen i.val = true → s.flag (F.XLT_EXT_CTRL_VALID i.val n.val) = false → ∀ vb len pb, s.extent i.val n.val = (vb, len, pb) →
      ∃ t, exec (.extentValidSet i n w) s = .next t ∧
        t.flag (F.XLT_EXT_CTRL_ERR i.val n.val) = !t.flag (F.XLT_EXT_CTRL_VALID i.val n.val) ∧
        (len = 0 ∨ 2 ^ 48 < vb + len ∨ 2 ^ 52 < pb + len ∨ s.inDevice i.val pb len false = true →
          t.flag (F.XLT_EXT_CTRL_VALID i.val n.val) = false) ∧
        (0 < len → vb + len ≤ 2 ^ 48 → pb + len ≤ 2 ^ 52 → s.inDevice i.val pb len false = false →
          t.flag (F.XLT_EXT_CTRL_VALID i.val n.val) = true ∧ t.flag (F.XLT_EXT_CTRL_WRITE i.val n.val) = bit w 1)) ∧
    (s.halted = true → exec (.devlistLock w) s = .next s ∧ exec (.instMapWrite i w) s = .next s) ∧
    (s.halted = false → ∃ t, exec (.devlistLock w) s = .next t ∧ t.flag F.XLT_CTRL_DEVLIST_LOCK = true ∧
      t.fld F.XLT_CTRL_UPD_COH = w.toNat % 256) ∧
    (∀ who : Fin 9, ∃ t, exec (.xltFaultInfoRead who) s = .next t ∧
      t.lastRead = .data who.val ((s.rd Reg.XLT_FAULT_INFO).setWidth 64) 4 ∧ t.flag F.XLT_FAULT_INFO_VALID = false ∧
      ∀ a, a ≠ Reg.XLT_FAULT_INFO → t.rd a = s.rd a) ∧
    (s.halted = false →
      (s.holdsObject i.val = true → exec (.instMapWrite i w) s = .next s) ∧
      (s.holdsObject i.val = false → 16 < bits w 4 0 ∨ s.nInst ≤ i.val → ∃ t, exec (.instMapWrite i w) s = .next t ∧
        t.flag (F.CTL_INST_MAP_ERR i.val) = true ∧ t.mapped i.val = s.mapped i.val ∧ t.portOf i.val = s.portOf i.val) ∧
      (s.holdsObject i.val = false → bits w 4 0 ≤ 16 → i.val < s.nInst →
        (∀ j, j < 128 → j ≠ i.val → s.mapped j = true → s.portOf j = bits w 10 8 → s.fnOf j ≠ bits w 4 0) →
        ∃ t, exec (.instMapWrite i w) s = .next t ∧ t.mapped i.val = bit w 31 ∧ t.portOf i.val = bits w 10 8 ∧
          t.fnOf i.val = bits w 4 0 ∧ t.flag (F.CTL_INST_MAP_ERR i.val) = false)) ∧
    ∀ (p : PortId) (f : Fin 17) (bme atomicEn : Bool) (bars : List (Nat × Nat)),
      (s.portUp p.val = false → exec (.busMasterEnableChange p f bme atomicEn bars) s = .next s) ∧
      (s.portUp p.val = true → s.atu.arrivals = [] → ∃ t, exec (.busMasterEnableChange p f bme atomicEn bars) s = .next t ∧
        t.fnCfg p.val f.val = { bme := bme, atomicEn := atomicEn, bars := bars } ∧ t.fnUp p.val f.val = bme)

/-- R403, R404, and the ignored writes of R407: a write that would leave a policer enabled with forbidden settings changes
only ERR. Setting ENABLE fills both buckets, clearing it discards them; while it is clear every descriptor is green and no
token is kept. A red descriptor takes no tokens, a yellow one takes them from the peak bucket only, a green one from both. -/
def Obligations.PolicersColourDescriptors : Prop :=
  ∀ (i : InstId) (c : ClassId) (w : Word) (s : State) (k : Nat), 8 * i.val + c.val = k →
    (s.halted = true → exec (.polEnable i c w) s = .next s ∧ ∀ n, exec (.polWrite i c n w) s = .next s) ∧
    (s.halted = false → ∀ on cir pir cbs pbs, s.polNow i.val c.val = (on, cir, pir, cbs, pbs) →
      exec (.polWrite i c 0 w) s = exec (.polEnable i c w) s ∧
      (polBad (bit w 31) (bits w 19 0) pir cbs pbs = true → ∃ t, exec (.polEnable i c w) s = .next t ∧ t.inj = s.inj ∧
        t.flag (F.INJ_POL_CTRL_ERR i.val c.val) = true ∧ t.flag (F.INJ_POL_CTRL_ENABLE i.val c.val) = on ∧
        t.fld (F.INJ_POL_CTRL_CIR i.val c.val) = cir) ∧
      (polBad (bit w 31) (bits w 19 0) pir cbs pbs = false → ∃ t, exec (.polEnable i c w) s = .next t ∧
        t.flag (F.INJ_POL_CTRL_ERR i.val c.val) = false ∧ t.flag (F.INJ_POL_CTRL_ENABLE i.val c.val) = bit w 31 ∧
        t.fld (F.INJ_POL_CTRL_CIR i.val c.val) = bits w 19 0 ∧
        (bit w 31 = true → on = false →
          Map.get? t.inj.buckets k = some { tc := s.polCbs i.val c.val, tp := s.polPbs i.val c.val, last := s.t }) ∧
        (bit w 31 = true → on = true → t.inj.buckets = s.inj.buckets) ∧
        (bit w 31 = false → Map.get? t.inj.buckets k = none)) ∧
      (polBad on cir (bits w 19 0) cbs pbs = true → ∃ t, exec (.polWrite i c 1 w) s = .next t ∧ t.inj = s.inj ∧
        t.flag (F.INJ_POL_CTRL_ERR i.val c.val) = true ∧ t.fld (F.INJ_POL_PIR_PIR i.val c.val) = pir) ∧
      (polBad on cir (bits w 19 0) cbs pbs = false → ∃ t, exec (.polWrite i c 1 w) s = .next t ∧
        t.flag (F.INJ_POL_CTRL_ERR i.val c.val) = false ∧ t.fld (F.INJ_POL_PIR_PIR i.val c.val) = bits w 19 0) ∧
      (polBad on cir pir w.toNat pbs = false → ∃ t, exec (.polWrite i c 2 w) s = .next t ∧
        t.rd (Reg.INJ_POL_CBS i.val c.val) = w ∧ ∀ b, Map.get? t.inj.buckets k = some b → b.tc ≤ w.toNat * 64 * 16000) ∧
      (polBad on cir pir cbs w.toNat = false → ∃ t, exec (.polWrite i c 3 w) s = .next t ∧
        t.rd (Reg.INJ_POL_PBS i.val c.val) = w ∧ ∀ b, Map.get? t.inj.buckets k = some b → b.tp ≤ w.toNat * 64 * 16000)) ∧
    ∀ b pre,
      (s.flag (F.INJ_POL_CTRL_ENABLE i.val c.val) = false → ∃ t, s.colour i.val c.val b pre = (t, some false) ∧ t.inj = s.inj) ∧
      ∀ u tc tp, s.flag (F.INJ_POL_CTRL_ENABLE i.val c.val) = true → Map.get? s.inj.buckets k = some u →
        min (s.polCbs i.val c.val) (u.tc + s.fld (F.INJ_POL_CTRL_CIR i.val c.val) * (s.t - u.last)) = tc →
        min (s.polPbs i.val c.val) (u.tp + s.fld (F.INJ_POL_PIR_PIR i.val c.val) * (s.t - u.last)) = tp →
        ((s.flag (F.INJ_POL_CTRL_AWARE i.val c.val) = true ∧ pre = 2) ∨ tp < b * 16000 →
          ∃ t, s.colour i.val c.val b pre = (t, none) ∧
            Map.get? t.inj.buckets k = some { tc := tc, tp := tp, last := s.t }) ∧
        (¬(s.flag (F.INJ_POL_CTRL_AWARE i.val c.val) = true ∧ pre = 2) → b * 16000 ≤ tp →
          ((s.flag (F.INJ_POL_CTRL_AWARE i.val c.val) = true ∧ pre = 1) ∨ tc < b * 16000 →
            ∃ t, s.colour i.val c.val b pre = (t, some true) ∧
              Map.get? t.inj.buckets k = some { tc := tc, tp := tp - b * 16000, last := s.t }) ∧
          (¬(s.flag (F.INJ_POL_CTRL_AWARE i.val c.val) = true ∧ pre = 1) → b * 16000 ≤ tc →
            ∃ t, s.colour i.val c.val b pre = (t, some false) ∧
              Map.get? t.inj.buckets k = some { tc := tc - b * 16000, tp := tp - b * 16000, last := s.t }))

/-- R408, R413, R414, R416: nothing is granted on a chip without an address; a launch goes before every control cell, a
control cell before every other chunk, and it leaves its queue for the router. At its slot every queue but the admin
completion queue is sampled. Where the spec leaves it open, this is the model's choice: log entries 55 and 58. -/
def Obligations.ChunksAreGrantedAndQueuesSampled : Prop :=
  ∀ (data : HostRead) (v : View) (s u : State) (l : List Chunk),
    (s.halted = true ∨ s.addressed = false → exec (.chunkGrant data v) s = .next (s.see v)) ∧
    (s.halted = false → s.addressed = true → (s.see v).readyChunks = (u, l) →
      (∀ c, l.find? (fun c => c.launch) = some c →
        ∀ t r, (((u.countChunk c).bump Reg.INJ_LAUNCH_GRANT).sendChunk c data).readyChunks = (t, r) →
          exec (.chunkGrant data v) s = .next (t.settleDeficits r c)) ∧
      (∀ c, l.find? (fun c => c.launch) = none → u.nextCtl = some c → ∃ t y, exec (.chunkGrant data v) s = .next t ∧
        t.inj = { u.inj with ctl := dropFirst c u.inj.ctl } ∧ t.rt.held = u.rt.held ++ [y] ∧ y.inp = none ∧
        y.cell.typ = c.typ % 16 ∧ y.cell.cls = c.cls % 8 ∧ y.cell.dst = c.dst % 2 ^ 17) ∧
      (l = [] → u.nextCtl = none → exec (.chunkGrant data v) s = .next u)) ∧
    (s.fld F.INJ_SAMPLE_K = 0 ∨ s.hasTime = false → exec .queueSample s = .next s) ∧
    (s.fld F.INJ_SAMPLE_K ≠ 0 → s.hasTime = true → slotNo s.t % min 4096 (s.fld F.INJ_SAMPLE_K) = 0 →
      Map.rising s.obj.queues = true →
      ∃ t, exec .queueSample s = .next t ∧ t.queue? acqKey = s.queue? acqKey ∧
        ∀ q x, q ≠ acqKey → s.queue? q = some x →
          (t.queue? q).map (fun y => (y.sampled, y.depthLast, y.depthMax)) =
            some (true, (s.sampleOf q x).1, max x.depthMax (s.sampleOf q x).1))

/-- R436-R439, R448: a link in operation takes cells of classes 0-6 in LSEQ order and no others; an uncorrectable codeword
sends NAK with NEXT, and cells are discarded until REPLAY(NEXT). ACK frees what lies before NEXT, CREDIT sets a pool's TOTAL.
A NAK that names a cell not in the buffer, or no REPLAY, loses the link. Where the spec leaves it open, this is the model's
choice: log entry 15. -/
def Obligations.CellsCrossLinksInOrder : Prop :=
  ∀ (l : LaneId) (s : State) (p : Nat), s.linkOf l.val = p →
    (∀ good cs w cor slip n pu, s.linkState l.val = lkDOWN → exec (.codeword l good cs w cor slip n pu) s = .next s) ∧
    (s.linkRuns p = true →
      (∀ cs w n pu, s.laneExists l.val = true → s.linkState l.val ≠ lkDOWN → (s.link p).nakAt = none → (s.link p).uncAt = [] →
        ∃ t, exec (.codeword l false cs w false false n pu) s = .next t ∧ t.rt = s.rt ∧ (t.link p).nakAt = some s.t ∧
          mkWord wNAK (s.link p).rxNext ∈ (t.link p).words ∧
          t.rd (Reg.LNG_FEC_UNCORR l.val) = s.rd (Reg.LNG_FEC_UNCORR l.val) + 1#32) ∧
      (∀ c w n pu, s.laneExists l.val = true → s.linkState l.val ≠ lkDOWN → c.cls ≠ 7 → c.linkLocal = false →
        (pu = true → 10 ≤ (s.lane l.val).debtRx) →
        ((s.link p).nakAt = none → (s.link p).rxSeq = (s.link p).rxNext →
          ∃ t, exec (.codeword l true [c] w false false n pu) s = .next t ∧
            t.rt = { s.rt with held := s.rt.held ++ [{ inp := some p, cell := c }] } ∧
            (t.link p).rxNext = ((s.link p).rxNext + 1) % 4096) ∧
        ((s.link p).nakAt.isSome = true ∨ (s.link p).rxSeq ≠ (s.link p).rxNext →
          ∃ t, exec (.codeword l true [c] w false false n pu) s = .next t ∧ t.rt = s.rt ∧
            (t.link p).rxNext = (s.link p).rxNext)) ∧
      (∀ n : BitVec 12, ((s.link p).retry.any (fun x => x.1 == n.toNat) = true ∨ n.toNat = (s.link p).txNext →
          ∃ t, exec (.nak l n) s = .next t ∧
            (t.link p).replay = (s.link p).retry.dropWhile (fun x => x.1 != n.toNat) ∧ (t.link p).retry = (s.link p).retry ∧
            mkWord wREPLAY n.toNat ∈ (t.link p).words ∧
            t.rd (Reg.LNG_REPLAY p) = s.rd (Reg.LNG_REPLAY p) + 1#32) ∧
        ((s.link p).retry.any (fun x => x.1 == n.toNat) = false → n.toNat ≠ (s.link p).txNext →
          ∃ t, exec (.nak l n) s = .next t ∧ t.linkRuns p = false ∧ (t.link p).retry = [])) ∧
      ((s.link p).nakAt.isSome = true →
        (∃ t, exec (.nakRepeat l) s = .next t ∧ mkWord wNAK (s.link p).rxNext ∈ (t.link p).words ∧ t.regs = s.regs) ∧
        (∃ t, exec (.noReplayTimeout l) s = .next t ∧ t.linkRuns p = false ∧ (t.link p).retry = []) ∧
        ∀ q : BitVec 12, ∃ t, exec (.replay l q) s = .next t ∧ t.rt = s.rt ∧
          (q.toNat = (s.link p).rxNext → (t.link p).nakAt = none ∧ (t.link p).rxSeq = (s.link p).rxNext) ∧
          (q.toNat ≠ (s.link p).rxNext → (t.link p).nakAt = (s.link p).nakAt)) ∧
      ((s.link p).exitFrom = none → (s.link p).phaseDue = none → ∀ n : BitVec 12,
        ∃ t, exec (.linkAck l n) s = .next t ∧ (t.link p).retry = ackRest (s.link p) n.toNat ∧
          (t.link p).txNext = (s.link p).txNext ∧ t.regs = s.regs) ∧
      ((s.link p).exitFrom = none → ∀ d : BitVec 16, ∃ t, exec (.credit l d) s = .next t ∧ t.regs = s.regs ∧
        (t.link p).total = Map.set (s.link p).total (bits d 15 13) (bits d 12 0))) ∧
    ((s.link p).nakAt = none → exec (.nakRepeat l) s = .next s ∧ exec (.noReplayTimeout l) s = .next s)

/-- R427, R438, R440, R445, 05 R171: a codeword carries the cells that are to be replayed before any new one, and they stay in
the retry buffer; a lane in training sends its TRAIN words and no cells, and one in stuff overrun sends no cells. -/
def Obligations.CodewordsCarryReplaysFirst : Prop :=
  ∀ (l : LaneId) (stuffed : Nat) (s : State) (p : Nat), s.linkOf l.val = p → s.laneExists l.val = true →
    (s.transmits l.val = false → exec (.codewordSend l stuffed) s = .next s) ∧
    ((s.link p).downLeft = 0 → s.linkState l.val = lkTRAINING → s.linkFull p = false →
      ∃ t, exec (.codewordSend l stuffed) s = .next t ∧
        (t.lnk.line.getLast?).map (fun f => (f.lane, f.cells, f.word)) = some (l.val, [], some (s.trainWord l.val))) ∧
    ((s.link p).downLeft = 0 → s.linkFull p = true → l.val = p → s.flag (F.LNG_LANE_STATUS_OVERRUN p) = false →
      (∀ w ∈ (s.link p).words, wordKind w ≠ wREPLAY) → Map.getD s.tim.transitOut p [] = [] → 4 ≤ (s.link p).replay.length → (s.link p).phaseDue = none →
      ∃ t, exec (.codewordSend l stuffed) s = .next t ∧
        (t.lnk.line.getLast?).map (fun f => (f.lane, f.cells)) = some (l.val, ((s.link p).replay.take 4).map (·.2)) ∧
        (t.link p).replay = (s.link p).replay.drop 4 ∧ (t.link p).retry = (s.link p).retry) ∧
    ((s.link p).downLeft = 0 → s.linkFull p = true → l.val = p → s.flag (F.LNG_LANE_STATUS_OVERRUN p) = true →
      ∃ t, exec (.codewordSend l stuffed) s = .next t ∧
        (t.lnk.line.getLast?).map (fun f => (f.lane, f.cells)) = some (l.val, []))

/-- R441-R444: PHASE asks for a phase; the peer that asks for one that this end is held out of is refused, one agreed on that
the schedule forbids is given up (log entry 157), a refusal is counted and changes nothing else, a target of 3 is ignored;
both ways out of FULL wait for the retry buffer (log entry 91: and for the answer). A WAKE word or a wake pattern starts the
exit to FULL, which the first ACK and CREDIT end on an ACTIVE tile; an exit that does not end in time ends in full training.
Where the spec leaves it open, this is the model's choice: log entries 119 and 157. -/
def Obligations.PhasesChangeByHandshake : Prop :=
  ∀ (l : LaneId) (s : State) (p : Nat), s.linkOf l.val = p →
    (∀ n : Fin 3, s.laneExists l.val = true → s.linkRuns p = true →
      (s.fld (F.LNG_LANE_STATUS_PHASE p) = n.val → exec (.phaseReq l n true) s = .next s) ∧
      (s.fld (F.LNG_LANE_STATUS_PHASE p) = phFULL → n.val ≠ phFULL → s.holdsPhase p n.val = false →
        ∃ t, exec (.phaseReq l n true) s = .next t ∧ (t.link p).phaseAsk = some n.val ∧
          mkWord wPHASE (n.val * 16384) ∈ (t.link p).words ∧ t.regs = s.regs)) ∧
    (s.linkFull p = true → ∀ d : BitVec 16,
      (bits d 15 14 = 3 → ∃ t, exec (.phase l d) s = .next t ∧ t.regs = s.regs ∧ (t.link p).phaseDue = (s.link p).phaseDue) ∧
      (bits d 15 14 ≠ 3 → bit d 12 = true → ∃ t, exec (.phase l d) s = .next t ∧ (t.link p).phaseAsk = none ∧
        (t.link p).phaseDue = (s.link p).phaseDue ∧
        t.rd (Reg.LNG_PHASE_REFUSED p) = s.rd (Reg.LNG_PHASE_REFUSED p) + 1#32) ∧
      (bits d 15 14 ≠ 3 → bit d 12 = false → bit d 13 = false → s.heldLink p = true ∨ s.tileChanging (tileOf p) = true →
        ∃ t, exec (.phase l d) s = .next t ∧ t.regs = s.regs ∧ (t.link p).phaseDue = (s.link p).phaseDue ∧
          mkWord wPHASE (bits d 15 14 * 16384 + 0x3000) ∈ (t.link p).words) ∧
      (bits d 15 14 ≠ 3 → bits d 15 14 ≠ phFULL → bit d 12 = false → bit d 13 = true → ∃ t, exec (.phase l d) s = .next t ∧
        (s.holdsPhase p (bits d 15 14) = true → t.regs = s.regs ∧ (t.link p).phaseDue = (s.link p).phaseDue ∧
          (t.link p).phaseAsk = none) ∧
        (s.holdsPhase p (bits d 15 14) = false → (s.link p).retry ≠ [] → t.regs = s.regs ∧
          (t.link p).phaseDue = some (bits d 15 14))) ∧
      (bits d 15 14 ≠ 3 → bits d 15 14 ≠ phFULL → bit d 12 = false → bit d 13 = false → (s.link p).phaseAsk = none →
        s.holdsPhase p (bits d 15 14) = false → s.tileChanging (tileOf p) = false →
        ∃ t, exec (.phase l d) s = .next t ∧ t.regs = s.regs ∧ (t.link p).phaseDue = some (bits d 15 14) ∧
          mkWord wPHASE (bits d 15 14 * 16384 + 0x2000) ∈ (t.link p).words)) ∧
    ((s.link p).exitFrom.isSome = true → (s.link p).gotAck = true → (s.link p).phaseAsk = none →
      (s.agree p).due = [] → s.linkRuns p = true → s.tileActive (tileOf p) = true → ∀ d : BitVec 16,
      ∃ t, exec (.credit l d) s = .next t ∧ t.linkFull p = true ∧ (t.link p).exitFrom = none) ∧
    (∀ d : BitVec 16, s.laneExists (bits d 9 0) = false ∨
        s.fld (F.LNG_LANE_STATUS_PHASE (s.linkOf (bits d 9 0))) = phFULL →
      ∃ t, exec (.wake l d) s = .next t ∧ t.regs = s.regs) ∧
    (∀ d : BitVec 16, s.laneExists (bits d 9 0) = true → s.linkOf (bits d 9 0) = bits d 9 0 →
      s.linkRuns (bits d 9 0) = true → s.fld (F.LNG_LANE_STATUS_PHASE (bits d 9 0)) = phHALF →
      s.tileActive (tileOf (bits d 9 0)) = true → s.tileChanging (tileOf (bits d 9 0)) = false →
      ∃ t, exec (.wake l d) s = .next t ∧ (t.link (bits d 9 0)).exitFrom = some phHALF) ∧
    (s.laneExists l.val = true → s.linkRuns p = true → s.fld (F.LNG_LANE_STATUS_PHASE p) = phHALF →
      s.tileActive (tileOf p) = true → s.tileChanging (tileOf p) = false →
      ∃ t, exec (.wakePattern l) s = .next t ∧ (t.link p).exitFrom = some phHALF) ∧
    (s.linkRuns p = false ∨ s.fld (F.LNG_LANE_STATUS_PHASE p) = phFULL → exec (.wakePattern l) s = .next s) ∧
    ((s.link p).exitFrom = none → exec (.laneExitTimeout l) s = .next s) ∧
    ((s.link p).exitFrom.isSome = true → ∃ t, exec (.laneExitTimeout l) s = .next t ∧ t.linkRuns p = false ∧
      (t.link p).exitFrom = none)

/-- R445-R449: a write of LNG_LANE_CTRL with ENABLE = 0 leaves the lane DOWN, one that enables it or sets RETRAIN trains it
once its tile is ACTIVE (log entry 156). The values of TRAIN are kept; an attempt that takes too long fails and is counted,
and is made again while ENABLE = 1. A lost link is counted, sends LINK_DOWN and trains again. Where the spec leaves it open,
this is the model's choice: log entries 120, 121 and 156. -/
def Obligations.LanesTrainAgain : Prop :=
  ∀ (l : LaneId) (s : State) (p : Nat), s.linkOf l.val = p →
    (∀ w, s.halted = true ∨ s.laneExists l.val = false →
      exec (.laneEnable l w) s = .next s ∧ exec (.retrain l w) s = .next s) ∧
    (s.halted = false → s.laneExists l.val = true → p = l.val → s.linkWidth p = 1 → ∀ w : Word,
      (bit w 31 = false → s.flag (F.LNG_LANE_CTRL_ENABLE l.val) = true → ∃ t, exec (.laneEnable l w) s = .next t ∧
        t.linkState l.val = lkDOWN ∧ t.flag (F.LNG_LANE_CTRL_ENABLE l.val) = false) ∧
      (bit w 31 = true → s.flag (F.LNG_LANE_CTRL_ENABLE l.val) = false → 4 ≤ s.fld F.MGT_STATUS_STEP →
        (s.tileActive (tileOf l.val) = true → ∃ t, exec (.laneEnable l w) s = .next t ∧ t.linkState l.val = lkTRAINING ∧
          (t.lane l.val).trainTx = 0 ∧ (t.lane l.val).ready = false ∧ t.draws = s.draws + 1) ∧
        (s.tileActive (tileOf l.val) = false → s.tileState (tileOf l.val) ≠ psOFF → ∃ t, exec (.laneEnable l w) s = .next t ∧
          t.linkState l.val = lkDOWN ∧ (t.lane l.val).due = true)) ∧
      (bit w 31 = true → bit w 30 = true → s.flag (F.LNG_LANE_CTRL_ENABLE l.val) = true → ∃ t, exec (.retrain l w) s = .next t ∧
        t.linkRuns l.val = false ∧ t.rd (Reg.LNG_LINK_LOST l.val) = s.rd (Reg.LNG_LINK_LOST l.val) ∧
        (s.linkRuns l.val = false → 4 ≤ s.fld F.MGT_STATUS_STEP → s.tileActive (tileOf l.val) = true →
          t.linkState l.val = lkTRAINING ∧ t.flag (F.LNG_LANE_CTRL_RETRAIN l.val) = false))) ∧
    (∀ (d : BitVec 16) (eq : Fin 32) (ok : Bool),
      (s.linkState l.val ≠ lkTRAINING → ∃ t, exec (.train l d eq ok) s = .next t ∧ t.lnk.lanes = s.lnk.lanes ∧
        t.regs = s.regs) ∧
      (s.linkState l.val = lkTRAINING → bits d 15 12 ≤ 6 → s.flag (F.LNG_LANE_CTRL_EQ_FIXED l.val) = false →
        (s.lane l.val).trainRx = [] → ok = false ∨ eqValidAt s.lnk.eqTable eq.val = false →
        (s.lane l.val).fails ≠ 9 → ∃ t, exec (.train l d eq ok) s = .next t ∧ t.linkState l.val = lkDOWN) ∧
      (s.linkState l.val = lkTRAINING → bits d 15 12 ≤ 5 → s.flag (F.LNG_LANE_CTRL_EQ_FIXED l.val) = false →
        (s.lane l.val).trainRx = [] → ok = true → eqValidAt s.lnk.eqTable eq.val = true →
        ∃ t, exec (.train l d eq ok) s = .next t ∧ t.linkState l.val = lkTRAINING ∧
          t.trainVal l.val (bits d 15 12) = some (bits d 11 0) ∧ (t.lane l.val).eq = eq.val) ∧
      (s.linkState l.val = lkTRAINING → bits d 15 12 ≤ 5 → (s.lane l.val).trainRx ≠ [] → s.trainVal l.val 6 = none →
        ∃ t, exec (.train l d eq ok) s = .next t ∧ t.linkState l.val = lkTRAINING ∧
          t.trainVal l.val (bits d 15 12) = some (bits d 11 0) ∧ (t.lane l.val).eq = (s.lane l.val).eq)) ∧
    (s.linkState l.val ≠ lkTRAINING → exec (.trainingTimeout l) s = .next s) ∧
    (s.linkState l.val = lkTRAINING → (s.lane l.val).fails ≠ 9 → ∃ t, exec (.trainingTimeout l) s = .next t ∧
      t.linkState l.val = lkDOWN ∧ (t.lane l.val).fails = (s.lane l.val).fails + 1 ∧
      t.rd (Reg.LNG_TRAIN_FAIL l.val) = s.rd (Reg.LNG_TRAIN_FAIL l.val) + 1#32) ∧
    (s.linkState l.val ≠ lkDOWN → exec (.trainingRetry l) s = .next s) ∧
    (s.linkState l.val = lkDOWN → ∃ t, exec (.trainingRetry l) s = .next t ∧ (t.lane l.val).fails = (s.lane l.val).fails ∧
      (s.mayTrain l.val = true ∧ s.tileActive (tileOf l.val) = true → t.linkState l.val = lkTRAINING) ∧
      (¬(s.mayTrain l.val = true ∧ s.tileActive (tileOf l.val) = true) → t.linkState l.val = lkDOWN ∧
        (t.lane l.val).due = s.mayTrain l.val)) ∧
    (s.linkRuns p = false → exec (.linkLost l) s = .next s ∧ ∃ t, exec (.linkDown l) s = .next t ∧ t.regs = s.regs) ∧
    (s.linkRuns p = true → (∃ t, exec (.linkLost l) s = .next t ∧ t.linkRuns p = false ∧ (t.link p).retry = []) ∧
      ∃ t, exec (.linkDown l) s = .next t ∧ t.linkRuns p = false ∧ (t.link p).retry = [])

/-- 15 R450, R451, R454, R456, R458, R460-R463, 18 R525: a host port trains from step 4 of the start-up unless it is disabled,
as PCI Express or, where offered, as CXL with its window. Its link going down returns its functions to their reset values and
counts. The control owner's port cannot be disabled. A failed read raises its fault on a port whose link is up; an operation
that the host refuses ends without a lock; a write that stands for 1 ms suspends the port until it is acknowledged. Where the
spec leaves it open, this is the model's choice: log entries 41, 42 and 43. -/
def Obligations.HostPortsComeAndGo : Prop :=
  ∀ (p : PortId) (v : View) (s : State),
    (s.portUp p.val = false →
      (∀ n, exec (.hostPortReset p n v) s = .next (s.see v)) ∧ (∀ f, exec (.flr p f v) s = .next (s.see v)) ∧
      (∀ f, exec (.cplTimeout p f) s = .next s ∧ exec (.poison p f) s = .next s) ∧
      (∀ (w : Word) n, s.halted = false → p.val ≠ s.owner →
        (∃ t, exec (.hptDisable p w n v) s = .next t ∧ t.flag (F.HPT_CTRL_DISABLE p.val) = true ∧
          t.fld (F.HPT_CTRL_MEM_SIZE p.val) = bits w 19 16 ∧
          (s.flag (F.HPT_CTRL_DISABLE p.val) = false → t.fld (F.HPT_STATUS_MODE p.val) = 3)) ∧
        (bit w 31 = false → ∃ t, exec (.hptRetrain p w n v) s = .next t ∧ t.flag (F.HPT_CTRL_DISABLE p.val) = false ∧
          t.flag (F.HPT_CTRL_CXL_OFFER p.val) = bit w 30 ∧
          (s.flag (F.HPT_CTRL_DISABLE p.val) = true → t.fld (F.HPT_STATUS_MODE p.val) = 0))) ∧
      (∀ (w : Word) n, s.halted = false → p.val = s.owner → s.flag (F.HPT_CTRL_DISABLE p.val) = false →
        ∃ t, exec (.hptDisable p w n v) s = .next t ∧ t.flag (F.HPT_CTRL_DISABLE p.val) = false) ∧
      (∀ cxl rate width cache base, s.flag (F.HPT_CTRL_DISABLE p.val) = true ∨ s.part.sbOnly = true ∨ s.fld F.MGT_STATUS_STEP < 4 →
        exec (.hostPortLinkUp p cxl rate width cache base) s = .next s) ∧
      ∀ (rate : Fin 6) (width : Fin 5) cache (base : Word64),
        s.flag (F.HPT_CTRL_DISABLE p.val) = false → s.part.sbOnly = false → 4 ≤ s.fld F.MGT_STATUS_STEP →
        (∃ t, exec (.hostPortLinkUp p false rate width cache base) s = .next t ∧ t.portUp p.val = true ∧
          t.fld (F.HPT_STATUS_MODE p.val) = 1 ∧ t.fld (F.HPT_STATUS_RATE p.val) = rate.val + 1 ∧
          t.fld (F.HPT_STATUS_WIDTH p.val) = 2 ^ width.val ∧ t.hpt = s.hpt) ∧
        (rate.val = 5 → 3 ≤ width.val → s.flag (F.HPT_CTRL_CXL_OFFER p.val) = true → s.part.gddr = true →
          s.flag (F.HPT_CTRL_CXLMEM_EN p.val) = true → 0 < s.fld (F.HPT_CTRL_MEM_SIZE p.val) →
          (s.hpt.hdm.map (fun x => x.2.2)).sum + min 8 (s.fld (F.HPT_CTRL_MEM_SIZE p.val)) * 2 ^ 28 ≤ s.windowArea →
          ∃ t, exec (.hostPortLinkUp p true rate width cache base) s = .next t ∧ t.portUp p.val = true ∧
            t.fld (F.HPT_STATUS_MODE p.val) = 2 ∧ t.flag (F.HPT_STATUS_CACHE p.val) = cache ∧
            Map.get? t.hpt.hdm p.val = some (base.toNat, min 8 (s.fld (F.HPT_CTRL_MEM_SIZE p.val)) * 2 ^ 28))) ∧
    (s.portUp p.val = true →
      (∀ cxl rate width cache base, exec (.hostPortLinkUp p cxl rate width cache base) s = .next s) ∧
      (∀ n, ∃ t, exec (.hostPortReset p n v) s = .next t ∧ t.portUp p.val = false ∧ Map.get? t.hpt.hdm p.val = none ∧
        (s.atu = {} → s.xlt.updates = [] → s.xpt.conns = [] → (∀ i, i < 128 → s.mapped i = false) →
          t.rd (Reg.HPT_PORT_RESET p.val) = s.rd (Reg.HPT_PORT_RESET p.val) + 1#32 ∧
          (∀ f, f < 32 → t.fnCfg p.val f = {}))) ∧
      (∀ (w : Word) n, s.halted = false → p.val ≠ s.owner → s.flag (F.HPT_CTRL_DISABLE p.val) = false →
        (∃ t, exec (.hptDisable p w n v) s = .next t ∧ t.portUp p.val = false ∧ t.fld (F.HPT_STATUS_MODE p.val) = 3) ∧
        (bit w 31 = false → ∃ t, exec (.hptRetrain p w n v) s = .next t ∧ t.portUp p.val = false)) ∧
      (∀ f : Fin 17, p.val ≠ s.owner →
        (s.instAt p.val f.val = none → ∃ t, exec (.flr p f v) s = .next t ∧ t.fnCfg p.val f.val = {} ∧
          t.rd (Reg.HPT_FLR p.val) = s.rd (Reg.HPT_FLR p.val)) ∧
        (∀ i, s.instAt p.val f.val = some i → s.flag (F.CTL_INST_STATE_RESETTING i) = true →
          ∃ t, exec (.flr p f v) s = .next t ∧ t.fnCfg p.val f.val = {} ∧ Map.get? t.obj.flr i = some false ∧
            t.rd (Reg.HPT_FLR p.val) = s.rd (Reg.HPT_FLR p.val) + 1#32) ∧
        (∀ i, s.instAt p.val f.val = some i → s.flag (F.CTL_INST_STATE_RESETTING i) = false →
          ∃ t, exec (.flr p f v) s = .next t ∧ Map.get? t.obj.flr i = some true ∧
            (s.xpt = {} → s.col.groups = [] → s.atu = {} → t.gen i = (s.gen i + 1) % 256 ∧
              t.flag (F.CTL_INST_STATE_RESETTING i) = true ∧ t.fnCfg p.val f.val = {}))) ∧
      (∀ f : Fin 17,
        (s.justRaised (blkHPT p.val) 3 = false → ∃ t, exec (.cplTimeout p f) s = .next t ∧
          bit (t.rd (Reg.FLT_STATUS (blkHPT p.val))) 3 = true) ∧
        (s.justRaised (blkHPT p.val) 2 = false → ∃ t, exec (.poison p f) s = .next t ∧
          bit (t.rd (Reg.FLT_STATUS (blkHPT p.val))) 2 = true)) ∧
      (∃ t, exec (.writeStall p false) s = .next t ∧ t.stalled p.val = true)) ∧
    (∃ t, exec (.writeStall p true) s = .next t ∧ t.stalled p.val = false) ∧
    (∀ k, (s.see v).hostOpAt k = none → exec (.atomicUr k v) s = .next (s.see v)) ∧
    ∀ o (h : Word) q z k, s.atu.ops = [o] → s.atu.arrivals = [] → (s.see v).hostOpAt 0 = some o → o.kind = .acquire h.toNat q →
      o.slot = some z → (s.see v).conn? h.toNat = some k →
      ∃ t, exec (.atomicUr 0 v) s = .next t ∧ t.atu = { s.atu with ops := [] } ∧ (t.conn? h.toNat).map (·.wm) = some q

/-- 16 R466-R469, R472, R474-R476, 15 R459: a part without GDDR7 takes no notice of its commands. RATE holds while ENABLE is
1, BASE while VALID is 1. Training sets TRAINED. One device that fails training, a periodic retraining, or four reads within 1
us is declared failed. A host writes and reads its window by lines; a write ends a poisoning. Where the spec leaves it open,
this is the model's choice: log entries 20, 80, 97 and 98. -/
def Obligations.MemoryIsTrainedRepairedAndAccessed : Prop :=
  ∀ (s : State),
    (s.part.gddr = false → exec .rebuildDone s = .next s ∧ (∀ w, exec (.memEnable w) s = .next s) ∧
      (∀ l m, exec (.memTrained l m) s = .next s) ∧ (∀ l, exec (.patrolScrub l) s = .next s) ∧
      (∀ l, exec (.memTemperatureRead l) s = .next s) ∧ (∀ d ok m, exec (.periodicRetraining d ok m) s = .next s) ∧
      ∀ d c w m v, exec (.uncorrectableRead d c w m v) s = .next (s.see v)) ∧
    (s.halted = false → s.part.gddr = true → ∀ w : Word, ∃ t, exec (.memEnable w) s = .next t ∧
      t.flag F.MEM_CTRL_ENABLE = bit w 31 ∧
      t.fld F.MEM_CTRL_RATE = (if s.flag F.MEM_CTRL_ENABLE then s.fld F.MEM_CTRL_RATE else bits w 0 0) ∧
      t.fld F.MEM_CTRL_DENSITY =
        (if s.flag F.MEM_CTRL_ENABLE || s.flag F.MEM_HOST_BASE_VALID then s.fld F.MEM_CTRL_DENSITY else bits w 4 4) ∧
      (bit w 31 = false → t.flag F.MEM_STATUS_TRAINED = false)) ∧
    (s.halted = false → ∀ b : Word64, ∃ t, exec (.memHostBaseWrite b) s = .next t ∧
      (t.rd64 Reg.MEM_HOST_BASE).toNat / 2 ^ 30 =
        (if s.flag F.MEM_HOST_BASE_VALID then (s.rd64 Reg.MEM_HOST_BASE).toNat / 2 ^ 30 else b.toNat / 2 ^ 30) ∧
      (s.otherQueues = false → t.flag F.MEM_HOST_BASE_VALID = b.getLsbD 0) ∧
      (s.otherQueues = true → s.flag F.MEM_HOST_BASE_VALID = true → t.flag F.MEM_HOST_BASE_VALID = true)) ∧
    (s.flag F.MEM_CTRL_ENABLE = false ∨ s.flag F.MEM_STATUS_TRAINED = true → ∀ l m, exec (.memTrained l m) s = .next s) ∧
    (s.part.gddr = true →
      (s.flag F.MEM_CTRL_ENABLE = true → s.flag F.MEM_STATUS_TRAINED = false →
        (∀ m, ∃ t, exec (.memTrained [] m) s = .next t ∧ t.flag F.MEM_STATUS_TRAINED = true) ∧
        ∀ d : Fin 12, s.failedDev = none → ∃ t, exec (.memTrained [d] {}) s = .next t ∧ t.failedDev = some d.val ∧
          t.flag F.MEM_STATUS_TRAINED = true ∧ t.flag F.MEM_STATUS_DEGRADED = true ∧ t.flag F.MEM_STATUS_REBUILDING = true) ∧
      (∃ t, exec .rebuildDone s = .next t ∧ t.flag F.MEM_STATUS_REBUILDING = false ∧
        t.flag F.MEM_STATUS_DEGRADED = s.flag F.MEM_STATUS_DEGRADED)) ∧
    (∀ (d : Fin 12) (c : Fin 4) (v : View), s.devRuns d.val = true →
      (s.ram.unc = [] → ∃ t, exec (.uncorrectableRead d c .none {} v) s = .next t ∧ t.failedDev = s.failedDev ∧
        t.rd Reg.MEM_UNCORRECTED = s.rd Reg.MEM_UNCORRECTED + 1#32) ∧
      (∀ b, s.ram.unc = [(d.val, s.t, b), (d.val, s.t, b), (d.val, s.t, b)] → s.failedDev = none →
        ∃ t, exec (.uncorrectableRead d c .none {} v) s = .next t ∧ t.failedDev = some d.val) ∧
      (∃ t, exec (.patrolScrub [(d, c)]) s = .next t ∧ t.rd Reg.MEM_CORRECTED = s.rd Reg.MEM_CORRECTED + 1#32 ∧
        t.ram = s.ram) ∧
      (∀ m, ∃ t, exec (.periodicRetraining d true m) s = .next t ∧ t.failedDev = s.failedDev ∧ t.ram = s.ram ∧
        t.rd Reg.MEM_RETRAIN = s.rd Reg.MEM_RETRAIN + 1#32) ∧
      (s.failedDev = none → ∃ t, exec (.periodicRetraining d false {}) s = .next t ∧ t.failedDev = some d.val)) ∧
    (∀ l, s.part.gddr = true → s.flag F.MEM_STATUS_TRAINED = true → ∃ t, exec (.memTemperatureRead l) s = .next t ∧
      t.regs = s.regs ∧ (t.ram.hot = true ↔ ∃ x ∈ l, s.devRuns x.1.val = true ∧ 85 ≤ x.2.toNat)) ∧
    ∀ (p : PortId) (n b size : Nat) (d : BitVec 512) (m : Word64), s.window p.val = some (b, size) →
      (size ≤ 64 * n ∨ s.memReady = false → ∀ wr, exec (.cxlMemHostAccess p n wr) s = .next s) ∧
      (64 * n < size → s.portUp p.val = true → s.memReady = true →
        (∃ t, exec (.cxlMemHostAccess p n (some (d, m))) s = .next t ∧ t.regs = s.regs ∧
          p.val * 2 ^ 25 + n ∉ t.ram.poisoned ∧
          (∀ i, i < 64 → Map.getD t.ram.cells (p.val * 2 ^ 31 + 64 * n + i) 0#8 =
            if m.getLsbD i then d.extractLsb' (8 * i) 8 else Map.getD s.ram.cells (p.val * 2 ^ 31 + 64 * n + i) 0#8) ∧
          ∀ a, a < p.val * 2 ^ 31 + 64 * n ∨ p.val * 2 ^ 31 + 64 * n + 64 ≤ a →
            Map.getD t.ram.cells a 0#8 = Map.getD s.ram.cells a 0#8) ∧
        ∃ t, exec (.cxlMemHostAccess p n none) s = .next t ∧ t.ram = s.ram ∧
          (p.val * 2 ^ 25 + n ∈ s.ram.poisoned → t.lastRead = .poison p.val) ∧
          (p.val * 2 ^ 25 + n ∉ s.ram.poisoned → ∃ x, t.lastRead = .line p.val x ∧
            ∀ i, i < 64 → x.extractLsb' (8 * i) 8 = Map.getD s.ram.cells (p.val * 2 ^ 31 + 64 * n + i) 0#8))

/-- 17 R480, R484-R489, R494: what a request and a wake event do in each state of a tile that is not in a change, and in one:
a request is dropped, refused with its refuser, latched, or begins the change; an OFF tile is never woken; a wake during an
entry ends it at its next abort point, or is latched. Where the spec leaves it open, this is the model's choice: log entries
99, 123 and 155. -/
def Obligations.TilesChangeOnRequestAndWake : Prop :=
  ∀ (t : TileId) (s : State),
    (s.halted = true → ∀ w sb, exec (.pwrTileReq t w sb) s = .next s) ∧
    (s.halted = false → ∀ (w : Word) (sb : Bool),
      (s.tileChanging t.val = false → s.tileState t.val = bits w 1 0 → ∃ z, exec (.pwrTileReq t w sb) s = .next z ∧
        z.rd (Reg.PWR_TILE_DROPPED t.val) = s.rd (Reg.PWR_TILE_DROPPED t.val) + 1#32 ∧ z.tileChanging t.val = false) ∧
      (s.tileChanging t.val = false → s.tileState t.val ≠ psACTIVE → bits w 1 0 = psACTIVE →
        ∃ z, exec (.pwrTileReq t w sb) s = .next z ∧ z.tileChanging t.val = true ∧ z.tileTarget t.val = psACTIVE ∧
          z.tileState t.val = s.tileState t.val ∧
          z.fld (F.PWR_TILE_STATUS_LAST_CAUSE t.val) = if sb then wcSIDEBAND else wcSOFTWARE) ∧
      (s.tileChanging t.val = false → s.tileState t.val = psACTIVE → bits w 1 0 ≠ psACTIVE →
        (∀ n, s.refuser t.val (bits w 1 0) = some n → ∃ z, exec (.pwrTileReq t w sb) s = .next z ∧
          z.tileChanging t.val = false ∧ z.tileState t.val = psACTIVE ∧ z.fld (F.PWR_TILE_STATUS_LAST_CAUSE t.val) = n ∧
          z.rd (Reg.PWR_TILE_REFUSED t.val n) = s.rd (Reg.PWR_TILE_REFUSED t.val n) + 1#32) ∧
        (s.refuser t.val (bits w 1 0) = none → ∃ z, exec (.pwrTileReq t w sb) s = .next z ∧ z.tileChanging t.val = true ∧
          z.tileTarget t.val = bits w 1 0 ∧ z.tileState t.val = psACTIVE)) ∧
      (s.tileChanging t.val = true → s.tileTarget t.val ≠ bits w 1 0 → s.tileLatched t.val = false →
        ∃ z, exec (.pwrTileReq t w sb) s = .next z ∧ z.tileLatched t.val = true ∧
          z.fld (F.PWR_TILE_STATUS_LATCH_STATE t.val) = bits w 1 0 ∧ z.tileTarget t.val = s.tileTarget t.val ∧
          (z.tile t.val).latchWake = none ∧ (z.tile t.val).latchBy = if sb then wcSIDEBAND else wcSOFTWARE)) ∧
    (∀ c : BitVec 8, 0x10 ≤ c.toNat → c.toNat ≤ 0x17 →
      (s.tileChanging t.val = false → s.tileState t.val = psOFF → exec (.wakeEvent t c) s = .next s) ∧
      (s.tileChanging t.val = false → s.tileState t.val = psACTIVE → ∃ z, exec (.wakeEvent t c) s = .next z ∧
        z.rd (Reg.PWR_TILE_DROPPED t.val) = s.rd (Reg.PWR_TILE_DROPPED t.val) + 1#32) ∧
      (s.tileChanging t.val = false → s.tileState t.val ≠ psOFF → s.tileState t.val ≠ psACTIVE →
        ∃ z, exec (.wakeEvent t c) s = .next z ∧ z.tileChanging t.val = true ∧ z.tileTarget t.val = psACTIVE ∧
          z.fld (F.PWR_TILE_STATUS_LAST_CAUSE t.val) = c.toNat ∧
          (s.flag F.PWR_STATUS_PLL_RUN = false → z.pwr.pllStarting = true)) ∧
      (s.tileChanging t.val = true → s.tileTarget t.val ≠ psACTIVE → (s.tile t.val).wake = none → s.tileLatched t.val = false →
        ∃ z, exec (.wakeEvent t c) s = .next z ∧
          if abortAhead (s.tile t.val).table ((s.tile t.val).seqNo.getD 0) (s.fld (F.PWR_TILE_STATUS_STEP t.val)) then
            (z.tile t.val).wake = some c.toNat ∧ z.regs = s.regs
          else z.tileLatched t.val = true ∧ (z.tile t.val).latchWake = some c.toNat)) ∧
    (s.fld (F.PWR_TILE_CTRL_STANDING t.val) = psACTIVE ∨ s.fld F.PWR_CTRL_IDLE = 0 ∨ s.tileState t.val ≠ psACTIVE ∨
      s.tileChanging t.val = true → exec (.standingReturn t) s = .next s) ∧
    (s.fld (F.PWR_TILE_CTRL_STANDING t.val) ≠ psACTIVE → s.fld F.PWR_CTRL_IDLE ≠ 0 → s.tileState t.val = psACTIVE →
      s.tileChanging t.val = false → s.refuser t.val (s.fld (F.PWR_TILE_CTRL_STANDING t.val)) = none →
      ∃ z, exec (.standingReturn t) s = .next z ∧ z.tileChanging t.val = true ∧
        z.tileTarget t.val = s.fld (F.PWR_TILE_CTRL_STANDING t.val))

/-- 17 R491, R494, R500-R503, R508: a step does nothing where no sequence runs, DRAIN waits for the tasks and the store, LANES
for the links, a step before an abort point unwinds the entry for a pending wake, RESUME makes the tile ACTIVE; without power
good the chip halts. The PLLs lock; the contexts of a bank come back; a reading and a brown-out are kept, and 115 degrees halt
the chip. Where the spec leaves it open, this is the model's choice: log entries 99 and 101. -/
def Obligations.SequencesAndRetentionRun : Prop :=
  ∀ (t : TileId) (codes : List Word) (s : State),
    ((s.tile t.val).seqNo = none → ∀ good, exec (.sequenceStepDone t codes good) s = .next s) ∧
    (∀ q k good, (s.tile t.val).seqNo = some q → s.fld (F.PWR_TILE_STATUS_STEP t.val) = k → s.tileChanging t.val = true →
      (seqAction (s.tile t.val).table q k = acDRAIN → s.engineBusy t.val = true ∨ s.storeHolds t.val = true →
        exec (.sequenceStepDone t codes good) s = .next s) ∧
      (seqAction (s.tile t.val).table q k = acLANES → s.lanesLeft t.val q ≠ [] → (s.tile t.val).wake = none →
        (∀ p ∈ s.lanesLeft t.val q, s.linkState p = lkTRAINING ∧ s.heldLink p = false ∧ s.inSchedule p = false) →
        exec (.sequenceStepDone t codes good) s = .next s) ∧
      (seqAction (s.tile t.val).table q k = acPOWERON → s.justRaised blkPWR 0 = false →
        ∃ z, exec (.sequenceStepDone t codes false) s = .next z ∧ z.halted = true ∧ z.pwr = s.pwr) ∧
      (∀ c n, seqAction (s.tile t.val).table q k = acQUIESCE → (s.tile t.val).wake = some c → (s.tile t.val).phases = [] →
        c < 256 → s.tileLatched t.val = false → nextStep (s.tile t.val).table q (s.tileTarget t.val) 16 (k + 1) = n → n < 16 →
        seqAction (s.tile t.val).table q n ≠ acEND → seqAbort (s.tile t.val).table q n = true →
        ∃ z, exec (.sequenceStepDone t codes good) s = .next z ∧ z.tileChanging t.val = false ∧
          z.tileTarget t.val = psACTIVE ∧ z.tileState t.val = s.tileState t.val ∧
          z.fld (F.PWR_TILE_STATUS_LAST_CAUSE t.val) = c ∧
          z.rd (Reg.PWR_TILE_ABORTS t.val) = s.rd (Reg.PWR_TILE_ABORTS t.val) + 1#32) ∧
      (seqAction (s.tile t.val).table q k = acRESUME → seqAction (s.tile t.val).table q (k + 1) = acEND →
        s.tileTarget t.val = psACTIVE → (s.tile t.val).final = psACTIVE → s.tileLatched t.val = false →
        s.tileState t.val ≠ psOFF → s.lnk.links = [] → ∃ z, exec (.sequenceStepDone t codes good) s = .next z ∧
          z.tileState t.val = psACTIVE ∧ z.tileChanging t.val = false ∧ (z.tile t.val).seqNo = none)) ∧
    (s.pwr.pllStarting = false → exec .pllLock s = .next s) ∧
    (s.pwr.pllStarting = true → ∃ z, exec .pllLock s = .next z ∧ z.flag F.PWR_STATUS_PLL_RUN = true ∧
      z.flag F.PWR_STATUS_CHIP_ECLIPSE = false ∧ z.now = s.now ∧ z.pwr.pllStarting = false ∧
      z.timeState = tsACQUIRING ∧ z.fld F.TIM_STATUS_GOOD = 0) ∧
    (∀ b : Fin 8,
      ((s.tile t.val).reload.testBit b.val = false ∨ s.tileActive t.val = false ∨ s.memReady = false →
        exec (.bankReload t b) s = .next s) ∧
      ((s.tile t.val).reload.testBit b.val = true → s.tileActive t.val = true → s.memReady = true →
        ∃ z, exec (.bankReload t b) s = .next z ∧ z.regs = s.regs ∧ ∀ h k n, s.conn? h = some k → k.place = .backup n →
          s.ctxTile k.inst n = t.val → s.bankOfEntry k.inst n = b.val → (z.conn? h).map (·.place) = some (.onDie n))) ∧
    (∀ d : BitVec 8,
      (d.toNat < 100 → ∃ z, exec (.thermalSample t d) s = .next z ∧ z.fld (F.PWR_TILE_TEMP_TEMP t.val) = d.toNat ∧
        z.fld (F.PWR_TILE_TEMP_ALLOWED t.val) = banksAllowed d.toNat) ∧
      (115 ≤ d.toNat → s.justRaised blkPWR 2 = false → ∃ z, exec (.thermalSample t d) s = .next z ∧ z.halted = true)) ∧
    ∃ z, exec (.brownout t) s = .next z ∧ z.flag (F.PWR_TILE_TEMP_BROWNOUT t.val) = true ∧ (z.tile t.val).brown = true

/-- 18 R512, R513, R515-R518, R520, R522, R523, R525: a forced raise is recorded and counted and never halts or sticks;
masked, it sets STATUS alone. A STATUS bit clears unless its cause stands or it is sticky, UNACK and FIRST as their rules say.
One message serves the raises of a microsecond. An engine that hangs halts the chip, with LINK_DOWN on every link. Where the
spec leaves it open, this is the model's choice: log entries 93 and 94. -/
def Obligations.FaultsAreForcedClearedAndSignalled : Prop :=
  ∀ (blk : Nat) (w : Word) (s : State),
    (s.hasFaults blk = false → exec (.fltForce blk w) s = .next s ∧ exec (.fltStatusClear blk w) s = .next s ∧
      exec (.fltUnackClear blk w) s = .next s ∧ exec (.fltFirstClear blk w) s = .next s) ∧
    (s.hasFaults blk = true →
      (∀ i c : Nat, i < 32 → w = BitVec.ofNat 32 (2 ^ i) → srcClass blk i = c →
        (c = 0 → exec (.fltForce blk w) s = .next s) ∧
        (c ≠ 0 → c ≠ fcFATAL → bit (s.rd (Reg.FLT_MASK blk)) i = true → ∃ t, exec (.fltForce blk w) s = .next t ∧
          t.flt = s.flt ∧ bit (t.rd (Reg.FLT_STATUS blk)) i = true ∧ ∀ a, a ≠ Reg.FLT_STATUS blk → t.rd a = s.rd a) ∧
        (c ≠ 0 → bit (s.rd (Reg.FLT_MASK blk)) i = false ∨ c = fcFATAL → s.justRaised blk i = false →
          ∃ t r, exec (.fltForce blk w) s = .next t ∧ r = (if s.unacked blk c && c != fcFATAL then c + 1 else c) ∧
            t.halted = s.halted ∧ t.lnk = s.lnk ∧ t.flt.sticky = s.flt.sticky ∧
            bit (t.rd (Reg.FLT_STATUS blk)) i = true ∧ t.unacked blk c = true ∧ t.unacked blk r = true ∧
            t.rd (fltCounter blk r) = satInc (s.rd (fltCounter blk r)) ∧
            (s.flag (F.FLT_FIRST_VALID blk) = false → t.flag (F.FLT_FIRST_VALID blk) = true ∧
              t.fld (F.FLT_FIRST_CLASS blk) = r ∧ t.fld (F.FLT_FIRST_SOURCE blk) = i ∧ t.flag (F.FLT_FIRST_FORCED blk) = true))) ∧
      (∃ t, exec (.fltStatusClear blk w) s = .next t ∧ ∀ i, i < 32 → bit (t.rd (Reg.FLT_STATUS blk)) i =
        (bit (s.rd (Reg.FLT_STATUS blk)) i && (!bit w i || s.flt.standing.contains (fltKey blk i) ||
          s.flt.sticky.contains (fltKey blk i)))) ∧
      (∃ t, exec (.fltUnackClear blk w) s = .next t ∧ ∀ c, 1 ≤ c → c ≤ 3 → t.unacked blk c =
        (s.unacked blk c && (!bit w (c - 1) || (c == fcFATAL && s.hasSticky blk)))) ∧
      (s.hasSticky blk = true ∨ bit w 31 = false → exec (.fltFirstClear blk w) s = .next s) ∧
      (s.hasSticky blk = false → bit w 31 = true → ∃ t, exec (.fltFirstClear blk w) s = .next t ∧
        t.flag (F.FLT_FIRST_VALID blk) = false ∧ t.fld (F.FLT_FIRST_SOURCE blk) = s.fld (F.FLT_FIRST_SOURCE blk))) ∧
    (s.flt.msiDue = false ∨ s.portUp s.owner = false → exec .msiXMessage s = .next s) ∧
    (s.flt.msiDue = true → s.portUp s.owner = true → (∀ x, s.flt.msiLast = some x → x + us 1 ≤ s.t) →
      ∃ t, exec .msiXMessage s = .next t ∧ t.flt.msiSent = s.flt.msiSent + 1 ∧ t.flt.msiDue = false) ∧
    (s.flt.pulse = true → exec .errNPulseEnd s = .next { s with flt := { s.flt with pulse := false, pulseEnd := some s.t } }) ∧
    (s.flt.pulse = false → s.flt.pulseNext = true → ∃ t, exec .errNPulseEnd s = .next t ∧ t.flt.pulse = true ∧
      t.rd Reg.MGT_FLT_PULSES = satInc (s.rd Reg.MGT_FLT_PULSES)) ∧
    ∀ (t : TileId) (eng : Fin 4),
      (s.tileState t.val = psECLIPSE ∨ s.tileState t.val = psOFF → exec (.engineWatchdog t eng) s = .next s) ∧
      (s.tileState t.val = psACTIVE ∨ s.tileState t.val = psDOZE → s.justRaised (blkTIL t.val) 5 = false → s.halted = false →
        ∃ z, exec (.engineWatchdog t eng) s = .next z ∧ z.halted = true ∧
          ∀ p ∈ s.linkIds, (z.link p).downLeft = 4 ∧ z.linkState p = lkDOWN)

/-- 19 R530-R533, R538, R539, R542: a counter counts in its bank's clock unless FREEZE is set; reading one latches the one
chained above it; an unassigned event leaves EVENT as it was; ENABLE needs a valid ring and starts it; a latched dump is
written once, or skipped and counted. Where the spec leaves it open, this is the model's choice: log entries 67 and 68. -/
def Obligations.CountersCountAndAreDumped : Prop :=
  ∀ (b : Fin 146) (c : Fin 8) (s : State),
    (∀ conds occs, s.flag F.CNT_CTRL_FREEZE = true → exec (.countingClock b conds occs) s = .next s) ∧
    (∀ x, s.counting b.val = true → s.cnt.prog = [(8 * b.val + c.val, x)] → x.counts = true → x.level = true → x.event = 1 →
      x.sub = 0 → x.val.toNat + 1 < 2 ^ 32 → ∃ t, exec (.countingClock b [] []) s = .next t ∧
        t.cnt.prog = [(8 * b.val + c.val, { x with val := x.val + 1#32, seen := false })]) ∧
    (∀ who : Fin 9, Map.get? (s.requester who.val).latch (Reg.CNT_VAL b.val c.val) = none →
      ∃ t, exec (.cntValRead who b c) s = .next t ∧ t.cnt = s.cnt ∧
        t.lastRead = .data who.val ((s.ctr b.val c.val).val.setWidth 64) 4 ∧
        (c.val < 7 → bit (s.ctr b.val (c.val + 1)).sel 29 = true →
          Map.get? (t.requester who.val).latch (Reg.CNT_VAL b.val (c.val + 1)) = some (s.ctr b.val (c.val + 1)).val)) ∧
    (s.halted = true → ∀ w, exec (.cntSelWrite b c w) s = .next s ∧ exec (.cntCtrlEnable w) s = .next s) ∧
    (s.halted = false → s.bankExists b.val = true → ∀ w : Word, ∃ t, exec (.cntSelWrite b c w) s = .next t ∧
      (t.ctr b.val c.val).val = (s.ctr b.val c.val).val ∧
      (t.ctr b.val c.val).event =
        (if eventAssigned b.val (bits w 7 0) (bits w 23 16) then bits w 7 0 else (s.ctr b.val c.val).event) ∧
      bit (t.ctr b.val c.val).sel 31 = bit w 31 ∧ (c.val = 0 → bit (t.ctr b.val c.val).sel 29 = false)) ∧
    (s.halted = false → ∀ w : Word, bit w 31 = true → s.flag F.CNT_CTRL_ENABLE = false →
      (s.ringCfgOk = false → ∃ t, exec (.cntCtrlEnable w) s = .next t ∧ t.flag F.CNT_CTRL_ENABLE = false ∧ t.cnt = s.cnt) ∧
      (s.ringCfgOk = true → ∃ t, exec (.cntCtrlEnable w) s = .next t ∧ t.flag F.CNT_CTRL_ENABLE = true ∧
        t.fld F.CNT_RING_POS_POSITION = 0 ∧ t.cnt.seq = 0 ∧ t.cnt.skipped = 0)) ∧
    (s.cnt.dump = none → ∀ own, exec (.dumpWrite own) s = .next s) ∧
    ∀ d, s.cnt.dump = some d →
      (d.length ≤ 2 ^ s.fld F.CNT_RING_CFG_SLOT_LOG2 → s.portUp s.owner = true → ∃ t, exec (.dumpWrite true) s = .next t ∧
        t.cnt.dump = none ∧ t.cnt.seq = (s.cnt.seq + 1) % 2 ^ 32 ∧ t.cnt.prevTide = d.tide ∧
        t.rd Reg.CNT_DUMPS = s.rd Reg.CNT_DUMPS + 1#32) ∧
      ∃ t, exec (.dumpWrite false) s = .next t ∧ t.cnt.dump = none ∧
        t.rd Reg.CNT_SKIP_FULL = s.rd Reg.CNT_SKIP_FULL + 1#32

/-- 21 R567-R569, 20 R563, R565: an access over a port whose link is down, or a malformed one, reaches nothing. A write of a
32-bit register sets what its access codes allow and no other register. The low half of a 64-bit register is held until its
high half is written, which then sets both; reading it latches the high half. The sideband port writes no register but fault
registers while SB_WRITE is 0. Where the spec leaves it open, this is the model's choice: log entries 70, 110 and 111. -/
def Obligations.RegistersAreReadAndWritten : Prop :=
  ∀ (p : PortId) (a : Nat) (s : State) (view : View),
    (s.portUp p.val = false → (∀ n v, exec (.registerWrite p a n v view) s = .next (s.see view)) ∧
      ∀ n, exec (.lowHalfRead p a n view) s = .next (s.see view)) ∧
    (s.portUp p.val = true → a % 4 ≠ 0 → (∀ v, exec (.registerWrite p a 4 v view) s = .next (s.see view)) ∧
      exec (.lowHalfRead p a 4 view) s = .next { s.see view with lastRead := .unsupported p.val }) ∧
    (∀ r i j, s.portUp p.val = true → a % 4 = 0 → a < 0x1000000 → absent s.part a = false → fltBlock a = none →
      regAt a = some (r, i, j, false) → r.wide = true →
      (s.halted = false → ∀ v : Word64, ∃ t, exec (.registerWrite p a 4 v view) s = .next t ∧ t.regs = s.regs ∧
        (t.requester p.val).held = some (a, v.extractLsb' 0 32)) ∧
      (r.base ≠ Reg.CNT_VAL 0 0 → r.base ≠ Reg.ATU_LK_ACQUIRE 0 0 → a ≠ Reg.TIM_NOW_LO → a ≠ Reg.TIM_NOW_HI →
        a ≠ Reg.XLT_FAULT_INFO → ∃ t, exec (.lowHalfRead p a 4 view) s = .next t ∧
          t.lastRead = .data p.val (((s.see view).wordAt a).setWidth 64) 4 ∧
          Map.get? (t.requester p.val).latch (a + 4) = some ((s.see view).wordAt (a + 4)))) ∧
    (s.portUp p.val = true → s.halted = false → ∀ v : Word64,
      (∃ t, exec (.registerWrite p Reg.INJ_WEIGHT0 4 v view) s = .next t ∧ t.rd Reg.INJ_WEIGHT0 = v.extractLsb' 0 32 ∧
        ∀ a, a ≠ Reg.INJ_WEIGHT0 → t.rd a = s.rd a) ∧
      ∀ lo, (s.requester p.val).held = some (Reg.MGT_ROOT_ID, lo) →
        ∃ t, exec (.registerWrite p (Reg.MGT_ROOT_ID + 4) 4 v view) s = .next t ∧
          t.rd64 Reg.MGT_ROOT_ID = v.extractLsb' 0 32 ++ lo ∧ (t.requester p.val).held = none) ∧
    (∀ b : Nat, s.hasFaults b = true → s.portUp p.val = true → b < 0x1000000 → ∀ v : Word64,
      ∃ t, exec (.registerWrite p (Reg.FLT_INT b) 4 v view) s = .next t ∧
        t.rd (Reg.FLT_INT b) = v.extractLsb' 0 32 &&& 7#32 ∧ t.obj = (s.see view).obj) ∧
    (∀ (x : BitVec 24) (w : Word) (ok : Bool),
      (s.mgt.vddAon = false → exec (.regRead ok x) s = .next s ∧ exec (.regWrite ok x w view) s = .next (s.see view)) ∧
      (s.mgt.vddAon = true → ok = false ∨ x.toNat % 4 ≠ 0 → ∃ t, exec (.regRead ok x) s = .next t ∧
        t.lastRead = .sideband sbMALFORMED 0 0) ∧
      (s.mgt.vddAon = true → ok = true → x.toNat % 4 = 0 → s.flag F.MGT_CTRL_SB_WRITE = false → fltBlock x.toNat = none →
        exec (.regWrite ok x w view) s = .next { s.see view with lastRead := .sideband sbREFUSED 0 0 }) ∧
      (∀ r i j, s.mgt.vddAon = true → ok = true → x.toNat % 4 = 0 → regAt x.toNat = some (r, i, j, false) → r.wide = false →
        absent s.part x.toNat = false → r.base ≠ Reg.CNT_VAL 0 0 → x.toNat ≠ Reg.TIM_NOW_LO → x.toNat ≠ Reg.TIM_NOW_HI →
        x.toNat ≠ Reg.XLT_FAULT_INFO → ∃ t, exec (.regRead ok x) s = .next t ∧ t.regs = s.regs ∧
          t.lastRead = .sideband 0 (s.sbCount.wordAt x.toNat).toNat 4) ∧
      (∀ b, s.mgt.vddAon = true → ok = true → x.toNat = Reg.FLT_INT b → s.hasFaults b = true →
        ∃ t, exec (.regWrite ok x w view) s = .next t ∧ t.rd (Reg.FLT_INT b) = w &&& 7#32 ∧ t.lastRead = .sideband 0 0 0))

/-- 20 R545, R563-R565, 22 R585: images come in over the sideband port only into an epoch that is not in use, and are checked
when they are closed; an ADMIN command runs once firmware runs, unless it would read host memory; a device reset is asked for,
and RESET_N asks for one only with PWR_GOOD high. Where the spec leaves it open, this is the model's choice: log entries 112
and 113. -/
def Obligations.SidebandLoadsAndResets : Prop :=
  ∀ (s : State),
    (s.mgt.vddAon = true → s.flag F.MGT_CTRL_SB_WRITE = true → s.halted = false →
      (∀ (tg : BitVec 8) (len crc plan : Word) k n, sbTarget tg.toNat = some (k, n) →
        (k < 2 → s.epochOf k n ≠ esEMPTY → s.epochOf k n ≠ esIDLE → ∃ t, exec (.imageOpen true tg len crc plan) s = .next t ∧
          t.lastRead = .sideband adEPOCHBUSY 0 0 ∧ t.mgt = s.mgt) ∧
        (2 ≤ k ∨ s.epochOf k n = esEMPTY ∨ s.epochOf k n = esIDLE → ∃ t, exec (.imageOpen true tg len crc plan) s = .next t ∧
          t.lastRead = .sideband 0 0 0 ∧ t.mgt.sbOpen =
            some { kind := k, number := n, len := len.toNat, crc := crc.toNat, plan := plan.toNat })) ∧
      (∀ (off : Word) (data : List (BitVec 8)), 1 ≤ data.length → data.length ≤ 240 →
        (s.mgt.sbOpen = none → ∃ t, exec (.imageData true off data) s = .next t ∧ t.lastRead = .sideband adORDER 0 0) ∧
        (∀ o, s.mgt.sbOpen = some o → o.kind = 2 → 1024 < off.toNat + data.length →
          ∃ t, exec (.imageData true off data) s = .next t ∧ t.lastRead = .sideband adBAD 0 0 ∧ t.mgt = s.mgt) ∧
        (∀ o, s.mgt.sbOpen = some o → o.kind = 2 → off.toNat + data.length ≤ 1024 →
          ∃ t, exec (.imageData true off data) s = .next t ∧ t.lastRead = .sideband 0 0 0 ∧
            t.mgt = { s.mgt with stage := putBytes s.mgt.stage off.toNat data.length (packLE 1 (data.map (·.toNat))) })) ∧
      (s.mgt.fwRunning = false → (∃ t, exec (.imageClose true) s = .next t ∧ t.lastRead = .sideband sbNOFW 0 0) ∧
        ∀ e v, ∃ t, exec (.admin true e v) s = .next t ∧ t.lastRead = .sideband sbNOFW 0 0) ∧
      (s.mgt.fwRunning = true →
        (s.mgt.sbOpen = none → ∃ t, exec (.imageClose true) s = .next t ∧ t.lastRead = .sideband adORDER 0 0) ∧
        (∀ o a u, s.mgt.sbOpen = some o →
          ({ s.sbCount with mgt := { s.mgt with sbOpen := none } } : State) = u →
          (if o.kind < 2 then u.loadEpoch o.kind o.number o.len o.crc o.plan (.data (u.imageBytes o))
            else u.loadTable o.number o.len o.crc (.data (u.imageBytes o))) = a →
          ∃ t, exec (.imageClose true) s = .next t ∧ t.mgt.sbOpen = a.st.mgt.sbOpen ∧ t.lastRead = .sideband a.status 0 0 ∧
            (a.status ≠ 0 → t.ram = a.st.ram) ∧
            (a.status = 0 → t.ram.copies = Map.set a.st.ram.copies o.recordNo
              (o.len, o.crc, o.plan, u.imageBytes o % 256 ^ o.len))) ∧
        (∀ e v, (s.see v).readsHost e = true → ∃ t, exec (.admin true e v) s = .next t ∧ t.lastRead = .sideband adORDER 0 0 ∧
          t.obj.adm = s.obj.adm) ∧
        (∀ e v r, (s.see v).readsHost e = false → (s.see v).adminHeld e = false → s.flag F.CTL_JRNL_CTRL_REPLAY = false →
          s.tileActive (s.servingTile 0) = true → s.freeAdm = some r →
          ∃ t, exec (.admin true e v) s = .next t ∧
            (Map.get? t.obj.adm r).map (fun x => (x.entry, x.sideband)) = some (e, true)))) ∧
    (s.mgt.vddAon = true → ∃ t, exec (.deviceReset true) s = .next t ∧ t.mgt.resetDue = true ∧
      t.lastRead = .sideband 0 0 0) ∧
    (s.halted = true → ∀ w, exec (.sbWrite w) s = .next s) ∧
    (s.halted = false → s.sbBusy = true → ∀ w : Word, exec (.sbWrite w) s =
      .next { s with mgt := { s.mgt with ctrlWait := some (w &&& 0x7FFFFFFF#32) } }) ∧
    (s.halted = false → ∀ w : Word,
      (s.sbBusy = false → ∃ t, exec (.sbWrite w) s = .next t ∧ t.flag F.MGT_CTRL_SB_WRITE = bit w 30 ∧ t.mgt = s.mgt) ∧
      ∃ t, exec (.devReset w) s = .next t ∧ t.flag F.MGT_CTRL_SB_WRITE = bit w 30 ∧ t.mgt = { s.mgt with resetDue := true }) ∧
    (∃ t, exec (.resetN true) s = .next t ∧ t.mgt.resetN = false ∧ t.mgt.resetDue = (s.mgt.pwrGood || s.mgt.resetDue) ∧
      t.regs = s.regs) ∧
    exec (.resetN false) s = .next { s with mgt := { s.mgt with resetN := true } }

/-- 20 R544-R549, R555-R558, 22 R587, R594: PWR_GOOD starts the start-up at step 2, with the straps as sampled the first time;
firmware that verifies runs at step 3, else the chip halts; the self-test lets the lanes train. PWR_GOOD falling returns to
step 1. A profile is accepted until the chip joins; a DIGEST that is routed has no effect (log entry 158); one for a tide to
come is kept; no answer within 1 ms puts the link in quarantine. Where the spec leaves it open, this is the model's choice:
log entries 105, 106, 107 and 122. -/
def Obligations.StartUpGoesStepByStep : Prop :=
  ∀ (s : State),
    (s.mgt.pwrGood = true → ∀ o sb ad, exec (.powerUp o sb ad) s = .next s) ∧
    (s.mgt.pwrGood = false → (∀ late, exec (.pwrGoodFall late) s = .next s) ∧ ∀ o sb ad,
      ∃ t, exec (.powerUp o sb ad) s = .next t ∧ t.mgt.pwrGood = true ∧ t.fld F.MGT_STATUS_STEP = 2 ∧
        (s.mgt.sampled = true → t.part = s.part) ∧
        (s.mgt.sampled = false → t.part.ownerSel = o ∧ t.part.sbOnly = sb ∧ t.part.sbAddr = ad)) ∧
    (s.mgt.pwrGood = true → ∀ late, ∃ t, exec (.pwrGoodFall late) s = .next t ∧ t.mgt.pwrGood = false ∧
      t.fld F.MGT_STATUS_STEP = 1 ∧ t.ram.cells = s.ram.cells) ∧
    (s.atStep 2 = false → ∀ f e ok v, exec (.firmwareLoad f e ok v) s = .next s) ∧
    (s.atStep 2 = true → ∀ (d : Nat) (v : BitVec 16), headerFault (d % 256 ^ 256) = none →
      1 ≤ d % 256 ^ 256 / 256 ^ 6 % 65536 → d % 256 ^ 256 / 256 ^ 6 % 65536 ≤ s.fld F.ID_LEVELS_HIGHEST →
      levelCovered (d % 256 ^ 256) (d % 256 ^ 256 / 256 ^ 6 % 65536) = true →
      (∃ t, exec (.firmwareLoad (.data d) none true v) s = .next t ∧ t.fld F.MGT_STATUS_STEP = 3 ∧ t.mgt.fwRunning = true ∧
        t.fld F.MGT_LEVEL_PINNED = d % 256 ^ 256 / 256 ^ 6 % 65536 ∧
        (d % 256 ^ 256 / 256 ^ 6 % 65536 = 1 → t.fld F.MGT_LEVEL_FW_VERSION = 1)) ∧
      (s.justRaised blkMGT 0 = false → ∃ t, exec (.firmwareLoad (.data d) none false v) s = .next t ∧ t.halted = true ∧
        t.mgt.fwRunning = s.mgt.fwRunning)) ∧
    (s.atStep 3 = false → ∀ n, exec (.selfTest n) s = .next s) ∧
    (s.atStep 3 = true → (∀ n, s.justRaised blkMGT 1 = false → ∃ t, exec (.selfTest (some n)) s = .next t ∧ t.halted = true) ∧
      ∃ t, exec (.selfTest none) s = .next t ∧ ∀ l : LaneId, s.halted = false → s.laneExists l.val = true →
        s.flag (F.LNG_LANE_CTRL_ENABLE l.val) = true → s.tileActive (tileOf l.val) = true → t.linkState l.val = lkTRAINING) ∧
    (s.halted = true ∨ s.joined = true → ∀ w, exec (.profileValid w) s = .next s) ∧
    (s.halted = false → s.joined = false →
      (s.addressed = false → ∀ w, ∃ t, exec (.profileValid w) s = .next t ∧ t.flag F.MGT_PROFILE_CTRL_ERR = true ∧
        t.profileValid = s.profileValid) ∧
      (s.addressed = true → s.lnk.links = [] → ∀ w, ∃ t, exec (.profileValid w) s = .next t ∧ t.profileValid = true)) ∧
    (∀ (l : LaneId) (c : Cell),
      ((s.agree (s.linkOf l.val)).waits = [] → exec (.digestRetry l) s = .next s ∧ exec (.digestTimeout l) s = .next s) ∧
      (∀ T x rest r, (s.agree (s.linkOf l.val)).waits = (T, x) :: rest → (s.agree (s.linkOf l.val)).own = [(T, r)] →
        s.profileValid = true → s.linkFull (s.linkOf l.val) = true → ∃ t y, exec (.digestRetry l) s = .next t ∧
          t.queueOf (s.linkOf l.val) = s.queueOf (s.linkOf l.val) ++ [y] ∧ y.inp = none ∧
          (y.cell = s.digestCell T false r ∨ y.cell = (s.digestCell T false r).withCM) ∧
          (t.agree (s.linkOf l.val)).waits = (s.agree (s.linkOf l.val)).waits) ∧
      (s.linkState (s.linkOf l.val) = lkUP → (s.agree (s.linkOf l.val)).waits ≠ [] → s.linkWidth (s.linkOf l.val) = 1 →
        ∃ t, exec (.digestTimeout l) s = .next t ∧ t.linkState (s.linkOf l.val) ≠ lkUP) ∧
      (s.Manages c mgDIGEST → c.linkLocal = false → ∃ t, exec (.digest l c) s = .next t ∧ t.regs = s.regs ∧ t.mgt = s.mgt) ∧
      (s.Manages c mgDIGEST → c.linkLocal = true → dgReply c = false → s.t < dgTide c → s.joined = true →
        ∃ t, exec (.digest l c) s = .next t ∧ t.regs = s.regs ∧
          (t.agree (s.linkOf l.val)).kept = (s.agree (s.linkOf l.val)).kept ++ [c])) ∧
    (exec (.testAccessInstruction .bypass) s = .next { s with mgt := { s.mgt with tap := .bypass } }) ∧
    ∀ n, ∃ t, exec (.testAccessInstruction (.other n)) s = .next t ∧
      t.mgt = { s.mgt with tap := if s.mgt.resetN then .bypass else .other n } ∧
      ∃ u, exec (.testAccessInstruction .idcode) s = .next u ∧ u.mgt = { s.mgt with tap := .idcode } ∧
        u.lastRead = .idcode (BitVec.ofNat 32 (s.part.stepMinor % 16 * 2 ^ 28 + 0x1024C9B))

/-- 18 R521, 21 R570: a device reset clears STATUS, UNACK and the pin state where nothing is sticky, returns MASK, INT and
every register outside the fault registers to its reset value, and keeps FIRST, INFO, the counters and the memory of the
windows. Removal of VDD_AON clears everything. Where the spec leaves it open, this is the model's choice: log entries 75 and
103. -/
def Obligations.DeviceResetKeepsTheFaultRecords : Prop :=
  ∀ (s : State),
    (s.mgt.resetDue = false → ∀ late, exec (.deviceResetBegin late) s = .next s) ∧
    (s.mgt.resetDue = true → ∀ late, ∃ t, exec (.deviceResetBegin late) s = .next t ∧
      t.fld F.MGT_STATUS_STEP = 2 ∧ t.ram.cells = s.ram.cells ∧ t.obj = {} ∧ t.xpt = {} ∧ t.part = s.part ∧
      (∀ a, fltBlock a = none → a ≠ Reg.MGT_STATUS → a ≠ Reg.MEM_STATUS → t.rd a = regDefault s.part a) ∧
      (∀ b ∈ allBlocks, t.rd (Reg.FLT_FIRST b) = s.rd (Reg.FLT_FIRST b) ∧ t.rd (Reg.FLT_INFO b) = s.rd (Reg.FLT_INFO b) ∧
        t.rd (Reg.FLT_N_FATAL b) = s.rd (Reg.FLT_N_FATAL b) ∧ t.rd (Reg.FLT_MASK b) = 0#32 ∧ t.rd (Reg.FLT_INT b) = 6#32 ∧
        (s.flt.sticky = [] → t.rd (Reg.FLT_STATUS b) = 0#32 ∧ t.rd (Reg.FLT_UNACK b) = 0#32 ∧
          t.rd Reg.MGT_FLT_PIN = 0x40000003#32))) ∧
    ∃ t, exec .vddAonRemoval s = .next t ∧ t.mgt.vddAon = false ∧ t.regs = [] ∧ t.flt = {} ∧ t.obj = {} ∧ t.xpt = {} ∧
      t.ram = {} ∧ t.kept = {} ∧ t.part = s.part
end

