-- ==== Sys2Proof/Laws/Frames.lean ====
section
/-! SUPPORT. What the shared operations leave alone of the state: for each, the parts of the state that it does not write. -/

set_option linter.unusedSimpArgs false

namespace Sys2Proof.Machine

@[simp] theorem State.foldl_part {α : Type} {f : State → α → State} (h : ∀ s a, (f s a).part = s.part) (l : List α) (s :
  State) :
    (l.foldl f s).part = s.part := by
  induction l generalizing s with
  | nil => rfl
  | cons a t ih => simp only [List.foldl_cons, ih, h]

@[simp] theorem State.foldl_draws {α : Type} {f : State → α → State} (h : ∀ s a, (f s a).draws = s.draws) (l : List α) (s :
  State) :
    (l.foldl f s).draws = s.draws := by
  induction l generalizing s with
  | nil => rfl
  | cons a t ih => simp only [List.foldl_cons, ih, h]

@[simp] theorem State.foldl_regs {α : Type} {f : State → α → State} (h : ∀ s a, (f s a).regs = s.regs) (l : List α) (s :
  State) :
    (l.foldl f s).regs = s.regs := by
  induction l generalizing s with
  | nil => rfl
  | cons a t ih => simp only [List.foldl_cons, ih, h]

@[simp] theorem State.foldl_req {α : Type} {f : State → α → State} (h : ∀ s a, (f s a).req = s.req) (l : List α) (s : State) :
    (l.foldl f s).req = s.req := by
  induction l generalizing s with
  | nil => rfl
  | cons a t ih => simp only [List.foldl_cons, ih, h]

@[simp] theorem State.foldl_flt {α : Type} {f : State → α → State} (h : ∀ s a, (f s a).flt = s.flt) (l : List α) (s : State) :
    (l.foldl f s).flt = s.flt := by
  induction l generalizing s with
  | nil => rfl
  | cons a t ih => simp only [List.foldl_cons, ih, h]

@[simp] theorem State.foldl_rt {α : Type} {f : State → α → State} (h : ∀ s a, (f s a).rt = s.rt) (l : List α) (s : State) :
    (l.foldl f s).rt = s.rt := by
  induction l generalizing s with
  | nil => rfl
  | cons a t ih => simp only [List.foldl_cons, ih, h]

@[simp] theorem State.foldl_lnk {α : Type} {f : State → α → State} (h : ∀ s a, (f s a).lnk = s.lnk) (l : List α) (s : State) :
    (l.foldl f s).lnk = s.lnk := by
  induction l generalizing s with
  | nil => rfl
  | cons a t ih => simp only [List.foldl_cons, ih, h]

@[simp] theorem State.foldl_pwr {α : Type} {f : State → α → State} (h : ∀ s a, (f s a).pwr = s.pwr) (l : List α) (s : State) :
    (l.foldl f s).pwr = s.pwr := by
  induction l generalizing s with
  | nil => rfl
  | cons a t ih => simp only [List.foldl_cons, ih, h]

@[simp] theorem State.foldl_tim {α : Type} {f : State → α → State} (h : ∀ s a, (f s a).tim = s.tim) (l : List α) (s : State) :
    (l.foldl f s).tim = s.tim := by
  induction l generalizing s with
  | nil => rfl
  | cons a t ih => simp only [List.foldl_cons, ih, h]

@[simp] theorem State.foldl_xpt {α : Type} {f : State → α → State} (h : ∀ s a, (f s a).xpt = s.xpt) (l : List α) (s : State) :
    (l.foldl f s).xpt = s.xpt := by
  induction l generalizing s with
  | nil => rfl
  | cons a t ih => simp only [List.foldl_cons, ih, h]

@[simp] theorem State.foldl_obj {α : Type} {f : State → α → State} (h : ∀ s a, (f s a).obj = s.obj) (l : List α) (s : State) :
    (l.foldl f s).obj = s.obj := by
  induction l generalizing s with
  | nil => rfl
  | cons a t ih => simp only [List.foldl_cons, ih, h]

@[simp] theorem State.foldl_inj {α : Type} {f : State → α → State} (h : ∀ s a, (f s a).inj = s.inj) (l : List α) (s : State) :
    (l.foldl f s).inj = s.inj := by
  induction l generalizing s with
  | nil => rfl
  | cons a t ih => simp only [List.foldl_cons, ih, h]

@[simp] theorem State.foldl_hpt {α : Type} {f : State → α → State} (h : ∀ s a, (f s a).hpt = s.hpt) (l : List α) (s : State) :
    (l.foldl f s).hpt = s.hpt := by
  induction l generalizing s with
  | nil => rfl
  | cons a t ih => simp only [List.foldl_cons, ih, h]

@[simp] theorem State.foldl_xlt {α : Type} {f : State → α → State} (h : ∀ s a, (f s a).xlt = s.xlt) (l : List α) (s : State) :
    (l.foldl f s).xlt = s.xlt := by
  induction l generalizing s with
  | nil => rfl
  | cons a t ih => simp only [List.foldl_cons, ih, h]

@[simp] theorem State.foldl_mat {α : Type} {f : State → α → State} (h : ∀ s a, (f s a).mat = s.mat) (l : List α) (s : State) :
    (l.foldl f s).mat = s.mat := by
  induction l generalizing s with
  | nil => rfl
  | cons a t ih => simp only [List.foldl_cons, ih, h]

@[simp] theorem State.foldl_ram {α : Type} {f : State → α → State} (h : ∀ s a, (f s a).ram = s.ram) (l : List α) (s : State) :
    (l.foldl f s).ram = s.ram := by
  induction l generalizing s with
  | nil => rfl
  | cons a t ih => simp only [List.foldl_cons, ih, h]

@[simp] theorem State.foldl_atu {α : Type} {f : State → α → State} (h : ∀ s a, (f s a).atu = s.atu) (l : List α) (s : State) :
    (l.foldl f s).atu = s.atu := by
  induction l generalizing s with
  | nil => rfl
  | cons a t ih => simp only [List.foldl_cons, ih, h]

@[simp] theorem State.foldl_col {α : Type} {f : State → α → State} (h : ∀ s a, (f s a).col = s.col) (l : List α) (s : State) :
    (l.foldl f s).col = s.col := by
  induction l generalizing s with
  | nil => rfl
  | cons a t ih => simp only [List.foldl_cons, ih, h]

@[simp] theorem State.foldl_cnt {α : Type} {f : State → α → State} (h : ∀ s a, (f s a).cnt = s.cnt) (l : List α) (s : State) :
    (l.foldl f s).cnt = s.cnt := by
  induction l generalizing s with
  | nil => rfl
  | cons a t ih => simp only [List.foldl_cons, ih, h]

@[simp] theorem State.foldl_mgt {α : Type} {f : State → α → State} (h : ∀ s a, (f s a).mgt = s.mgt) (l : List α) (s : State) :
    (l.foldl f s).mgt = s.mgt := by
  induction l generalizing s with
  | nil => rfl
  | cons a t ih => simp only [List.foldl_cons, ih, h]

@[simp] theorem State.foldl_lastRead {α : Type} {f : State → α → State} (h : ∀ s a, (f s a).lastRead = s.lastRead) (l : List
  α) (s : State) :
    (l.foldl f s).lastRead = s.lastRead := by
  induction l generalizing s with
  | nil => rfl
  | cons a t ih => simp only [List.foldl_cons, ih, h]

@[simp] theorem State.wr_frame (s : State) (a : Nat) (w : Word) :
    (s.wr a w).part = s.part ∧ (s.wr a w).draws = s.draws ∧ (s.wr a w).req = s.req ∧ (s.wr a w).flt = s.flt ∧ (s.wr a w).rt =
    s.rt ∧ (s.wr a w).lnk = s.lnk ∧ (s.wr a w).pwr = s.pwr ∧ (s.wr a w).tim = s.tim ∧ (s.wr a w).xpt = s.xpt ∧ (s.wr a w).obj
    = s.obj ∧ (s.wr a w).inj = s.inj ∧ (s.wr a w).hpt = s.hpt ∧ (s.wr a w).xlt = s.xlt ∧ (s.wr a w).mat = s.mat ∧ (s.wr a
    w).ram = s.ram ∧ (s.wr a w).atu = s.atu ∧ (s.wr a w).col = s.col ∧ (s.wr a w).cnt = s.cnt ∧ (s.wr a w).mgt = s.mgt ∧ (s.wr
    a w).lastRead = s.lastRead := by
  unfold State.wr
  simp

@[simp] theorem State.wr64_frame (s : State) (a : Nat) (v : Word64) :
    (s.wr64 a v).part = s.part ∧ (s.wr64 a v).draws = s.draws ∧ (s.wr64 a v).req = s.req ∧ (s.wr64 a v).flt = s.flt ∧ (s.wr64
    a v).rt = s.rt ∧ (s.wr64 a v).lnk = s.lnk ∧ (s.wr64 a v).pwr = s.pwr ∧ (s.wr64 a v).tim = s.tim ∧ (s.wr64 a v).xpt = s.xpt
    ∧ (s.wr64 a v).obj = s.obj ∧ (s.wr64 a v).inj = s.inj ∧ (s.wr64 a v).hpt = s.hpt ∧ (s.wr64 a v).xlt = s.xlt ∧ (s.wr64 a
    v).mat = s.mat ∧ (s.wr64 a v).ram = s.ram ∧ (s.wr64 a v).atu = s.atu ∧ (s.wr64 a v).col = s.col ∧ (s.wr64 a v).cnt = s.cnt
    ∧ (s.wr64 a v).mgt = s.mgt ∧ (s.wr64 a v).lastRead = s.lastRead := by
  unfold State.wr64
  simp

@[simp] theorem State.setFld_frame (s : State) (f : Fld) (n : Nat) :
    (s.setFld f n).part = s.part ∧ (s.setFld f n).draws = s.draws ∧ (s.setFld f n).req = s.req ∧ (s.setFld f n).flt = s.flt ∧
    (s.setFld f n).rt = s.rt ∧ (s.setFld f n).lnk = s.lnk ∧ (s.setFld f n).pwr = s.pwr ∧ (s.setFld f n).tim = s.tim ∧
    (s.setFld f n).xpt = s.xpt ∧ (s.setFld f n).obj = s.obj ∧ (s.setFld f n).inj = s.inj ∧ (s.setFld f n).hpt = s.hpt ∧
    (s.setFld f n).xlt = s.xlt ∧ (s.setFld f n).mat = s.mat ∧ (s.setFld f n).ram = s.ram ∧ (s.setFld f n).atu = s.atu ∧
    (s.setFld f n).col = s.col ∧ (s.setFld f n).cnt = s.cnt ∧ (s.setFld f n).mgt = s.mgt ∧ (s.setFld f n).lastRead =
    s.lastRead := by
  unfold State.setFld
  simp

@[simp] theorem State.setFlag_frame (s : State) (f : Fld) (b : Bool) :
    (s.setFlag f b).part = s.part ∧ (s.setFlag f b).draws = s.draws ∧ (s.setFlag f b).req = s.req ∧ (s.setFlag f b).flt =
    s.flt ∧ (s.setFlag f b).rt = s.rt ∧ (s.setFlag f b).lnk = s.lnk ∧ (s.setFlag f b).pwr = s.pwr ∧ (s.setFlag f b).tim =
    s.tim ∧ (s.setFlag f b).xpt = s.xpt ∧ (s.setFlag f b).obj = s.obj ∧ (s.setFlag f b).inj = s.inj ∧ (s.setFlag f b).hpt =
    s.hpt ∧ (s.setFlag f b).xlt = s.xlt ∧ (s.setFlag f b).mat = s.mat ∧ (s.setFlag f b).ram = s.ram ∧ (s.setFlag f b).atu =
    s.atu ∧ (s.setFlag f b).col = s.col ∧ (s.setFlag f b).cnt = s.cnt ∧ (s.setFlag f b).mgt = s.mgt ∧ (s.setFlag f b).lastRead
    = s.lastRead := by
  unfold State.setFlag
  simp

@[simp] theorem State.bump_frame (s : State) (a : Nat) :
    (s.bump a).part = s.part ∧ (s.bump a).draws = s.draws ∧ (s.bump a).req = s.req ∧ (s.bump a).flt = s.flt ∧ (s.bump a).rt =
    s.rt ∧ (s.bump a).lnk = s.lnk ∧ (s.bump a).pwr = s.pwr ∧ (s.bump a).tim = s.tim ∧ (s.bump a).xpt = s.xpt ∧ (s.bump a).obj
    = s.obj ∧ (s.bump a).inj = s.inj ∧ (s.bump a).hpt = s.hpt ∧ (s.bump a).xlt = s.xlt ∧ (s.bump a).mat = s.mat ∧ (s.bump
    a).ram = s.ram ∧ (s.bump a).atu = s.atu ∧ (s.bump a).col = s.col ∧ (s.bump a).cnt = s.cnt ∧ (s.bump a).mgt = s.mgt ∧
    (s.bump a).lastRead = s.lastRead := by
  unfold State.bump
  simp

@[simp] theorem State.bumpBy_frame (s : State) (a n : Nat) :
    (s.bumpBy a n).part = s.part ∧ (s.bumpBy a n).draws = s.draws ∧ (s.bumpBy a n).req = s.req ∧ (s.bumpBy a n).flt = s.flt ∧
    (s.bumpBy a n).rt = s.rt ∧ (s.bumpBy a n).lnk = s.lnk ∧ (s.bumpBy a n).pwr = s.pwr ∧ (s.bumpBy a n).tim = s.tim ∧
    (s.bumpBy a n).xpt = s.xpt ∧ (s.bumpBy a n).obj = s.obj ∧ (s.bumpBy a n).inj = s.inj ∧ (s.bumpBy a n).hpt = s.hpt ∧
    (s.bumpBy a n).xlt = s.xlt ∧ (s.bumpBy a n).mat = s.mat ∧ (s.bumpBy a n).ram = s.ram ∧ (s.bumpBy a n).atu = s.atu ∧
    (s.bumpBy a n).col = s.col ∧ (s.bumpBy a n).cnt = s.cnt ∧ (s.bumpBy a n).mgt = s.mgt ∧ (s.bumpBy a n).lastRead =
    s.lastRead := by
  unfold State.bumpBy
  simp

@[simp] theorem State.bumpSat_frame (s : State) (a : Nat) :
    (s.bumpSat a).part = s.part ∧ (s.bumpSat a).draws = s.draws ∧ (s.bumpSat a).req = s.req ∧ (s.bumpSat a).flt = s.flt ∧
    (s.bumpSat a).rt = s.rt ∧ (s.bumpSat a).lnk = s.lnk ∧ (s.bumpSat a).pwr = s.pwr ∧ (s.bumpSat a).tim = s.tim ∧ (s.bumpSat
    a).xpt = s.xpt ∧ (s.bumpSat a).obj = s.obj ∧ (s.bumpSat a).inj = s.inj ∧ (s.bumpSat a).hpt = s.hpt ∧ (s.bumpSat a).xlt =
    s.xlt ∧ (s.bumpSat a).mat = s.mat ∧ (s.bumpSat a).ram = s.ram ∧ (s.bumpSat a).atu = s.atu ∧ (s.bumpSat a).col = s.col ∧
    (s.bumpSat a).cnt = s.cnt ∧ (s.bumpSat a).mgt = s.mgt ∧ (s.bumpSat a).lastRead = s.lastRead := by
  unfold State.bumpSat
  simp

@[simp] theorem State.drawn_frame (s : State) :
    (s.drawn).part = s.part ∧ (s.drawn).regs = s.regs ∧ (s.drawn).req = s.req ∧ (s.drawn).flt = s.flt ∧ (s.drawn).rt = s.rt ∧
    (s.drawn).lnk = s.lnk ∧ (s.drawn).pwr = s.pwr ∧ (s.drawn).tim = s.tim ∧ (s.drawn).xpt = s.xpt ∧ (s.drawn).obj = s.obj ∧
    (s.drawn).inj = s.inj ∧ (s.drawn).hpt = s.hpt ∧ (s.drawn).xlt = s.xlt ∧ (s.drawn).mat = s.mat ∧ (s.drawn).ram = s.ram ∧
    (s.drawn).atu = s.atu ∧ (s.drawn).col = s.col ∧ (s.drawn).cnt = s.cnt ∧ (s.drawn).mgt = s.mgt ∧ (s.drawn).lastRead =
    s.lastRead := by
  unfold State.drawn
  simp

@[simp] theorem State.occur_frame (s : State) (b ev : Nat) (subs : List Nat) (n : Nat) :
    (s.occur b ev subs n).part = s.part ∧ (s.occur b ev subs n).draws = s.draws ∧ (s.occur b ev subs n).regs = s.regs ∧
    (s.occur b ev subs n).req = s.req ∧ (s.occur b ev subs n).flt = s.flt ∧ (s.occur b ev subs n).rt = s.rt ∧ (s.occur b ev
    subs n).lnk = s.lnk ∧ (s.occur b ev subs n).pwr = s.pwr ∧ (s.occur b ev subs n).tim = s.tim ∧ (s.occur b ev subs n).xpt =
    s.xpt ∧ (s.occur b ev subs n).obj = s.obj ∧ (s.occur b ev subs n).inj = s.inj ∧ (s.occur b ev subs n).hpt = s.hpt ∧
    (s.occur b ev subs n).xlt = s.xlt ∧ (s.occur b ev subs n).mat = s.mat ∧ (s.occur b ev subs n).ram = s.ram ∧ (s.occur b ev
    subs n).atu = s.atu ∧ (s.occur b ev subs n).col = s.col ∧ (s.occur b ev subs n).mgt = s.mgt ∧ (s.occur b ev subs
    n).lastRead = s.lastRead := by
  unfold State.occur
  try dsimp only
  repeat' split
  all_goals simp [apply_ite State.part, apply_ite State.draws, apply_ite State.regs, apply_ite State.req, apply_ite State.flt,
    apply_ite State.rt, apply_ite State.lnk, apply_ite State.pwr, apply_ite State.tim, apply_ite State.xpt, apply_ite
    State.obj, apply_ite State.inj, apply_ite State.hpt, apply_ite State.xlt, apply_ite State.mat, apply_ite State.ram,
    apply_ite State.atu, apply_ite State.col, apply_ite State.mgt, apply_ite State.lastRead]

@[simp] theorem State.occurCtl_frame (s : State) (ev : Nat) :
    (s.occurCtl ev).part = s.part ∧ (s.occurCtl ev).draws = s.draws ∧ (s.occurCtl ev).regs = s.regs ∧ (s.occurCtl ev).req =
    s.req ∧ (s.occurCtl ev).flt = s.flt ∧ (s.occurCtl ev).rt = s.rt ∧ (s.occurCtl ev).lnk = s.lnk ∧ (s.occurCtl ev).pwr =
    s.pwr ∧ (s.occurCtl ev).tim = s.tim ∧ (s.occurCtl ev).xpt = s.xpt ∧ (s.occurCtl ev).obj = s.obj ∧ (s.occurCtl ev).inj =
    s.inj ∧ (s.occurCtl ev).hpt = s.hpt ∧ (s.occurCtl ev).xlt = s.xlt ∧ (s.occurCtl ev).mat = s.mat ∧ (s.occurCtl ev).ram =
    s.ram ∧ (s.occurCtl ev).atu = s.atu ∧ (s.occurCtl ev).col = s.col ∧ (s.occurCtl ev).mgt = s.mgt ∧ (s.occurCtl ev).lastRead
    = s.lastRead := by
  unfold State.occurCtl
  simp

@[simp] theorem State.countInst_frame (s : State) (i j n : Nat) :
    (s.countInst i j n).part = s.part ∧ (s.countInst i j n).draws = s.draws ∧ (s.countInst i j n).regs = s.regs ∧ (s.countInst
    i j n).req = s.req ∧ (s.countInst i j n).flt = s.flt ∧ (s.countInst i j n).rt = s.rt ∧ (s.countInst i j n).lnk = s.lnk ∧
    (s.countInst i j n).pwr = s.pwr ∧ (s.countInst i j n).tim = s.tim ∧ (s.countInst i j n).xpt = s.xpt ∧ (s.countInst i j
    n).obj = s.obj ∧ (s.countInst i j n).inj = s.inj ∧ (s.countInst i j n).hpt = s.hpt ∧ (s.countInst i j n).xlt = s.xlt ∧
    (s.countInst i j n).mat = s.mat ∧ (s.countInst i j n).ram = s.ram ∧ (s.countInst i j n).atu = s.atu ∧ (s.countInst i j
    n).col = s.col ∧ (s.countInst i j n).mgt = s.mgt ∧ (s.countInst i j n).lastRead = s.lastRead := by
  unfold State.countInst
  try dsimp only
  repeat' split
  all_goals simp [apply_ite State.part, apply_ite State.draws, apply_ite State.regs, apply_ite State.req, apply_ite State.flt,
    apply_ite State.rt, apply_ite State.lnk, apply_ite State.pwr, apply_ite State.tim, apply_ite State.xpt, apply_ite
    State.obj, apply_ite State.inj, apply_ite State.hpt, apply_ite State.xlt, apply_ite State.mat, apply_ite State.ram,
    apply_ite State.atu, apply_ite State.col, apply_ite State.mgt, apply_ite State.lastRead]

@[simp] theorem State.clearInstCounters_frame (s : State) (i : Nat) :
    (s.clearInstCounters i).part = s.part ∧ (s.clearInstCounters i).draws = s.draws ∧ (s.clearInstCounters i).regs = s.regs ∧
    (s.clearInstCounters i).req = s.req ∧ (s.clearInstCounters i).flt = s.flt ∧ (s.clearInstCounters i).rt = s.rt ∧
    (s.clearInstCounters i).lnk = s.lnk ∧ (s.clearInstCounters i).pwr = s.pwr ∧ (s.clearInstCounters i).tim = s.tim ∧
    (s.clearInstCounters i).xpt = s.xpt ∧ (s.clearInstCounters i).obj = s.obj ∧ (s.clearInstCounters i).inj = s.inj ∧
    (s.clearInstCounters i).hpt = s.hpt ∧ (s.clearInstCounters i).xlt = s.xlt ∧ (s.clearInstCounters i).mat = s.mat ∧
    (s.clearInstCounters i).ram = s.ram ∧ (s.clearInstCounters i).atu = s.atu ∧ (s.clearInstCounters i).col = s.col ∧
    (s.clearInstCounters i).mgt = s.mgt ∧ (s.clearInstCounters i).lastRead = s.lastRead := by
  unfold State.clearInstCounters
  simp

@[simp] theorem State.sampleLatency_frame (s : State) (i c l : Nat) :
    (s.sampleLatency i c l).part = s.part ∧ (s.sampleLatency i c l).draws = s.draws ∧ (s.sampleLatency i c l).regs = s.regs ∧
    (s.sampleLatency i c l).req = s.req ∧ (s.sampleLatency i c l).flt = s.flt ∧ (s.sampleLatency i c l).rt = s.rt ∧
    (s.sampleLatency i c l).lnk = s.lnk ∧ (s.sampleLatency i c l).pwr = s.pwr ∧ (s.sampleLatency i c l).tim = s.tim ∧
    (s.sampleLatency i c l).xpt = s.xpt ∧ (s.sampleLatency i c l).obj = s.obj ∧ (s.sampleLatency i c l).inj = s.inj ∧
    (s.sampleLatency i c l).hpt = s.hpt ∧ (s.sampleLatency i c l).xlt = s.xlt ∧ (s.sampleLatency i c l).mat = s.mat ∧
    (s.sampleLatency i c l).ram = s.ram ∧ (s.sampleLatency i c l).atu = s.atu ∧ (s.sampleLatency i c l).col = s.col ∧
    (s.sampleLatency i c l).mgt = s.mgt ∧ (s.sampleLatency i c l).lastRead = s.lastRead := by
  unfold State.sampleLatency
  simp

@[simp] theorem State.setLanes_frame (s : State) (f : Nat → Fld) (n : Nat) (ls : List Nat) :
    (s.setLanes f n ls).part = s.part ∧ (s.setLanes f n ls).draws = s.draws ∧ (s.setLanes f n ls).req = s.req ∧ (s.setLanes f
    n ls).flt = s.flt ∧ (s.setLanes f n ls).rt = s.rt ∧ (s.setLanes f n ls).lnk = s.lnk ∧ (s.setLanes f n ls).pwr = s.pwr ∧
    (s.setLanes f n ls).tim = s.tim ∧ (s.setLanes f n ls).xpt = s.xpt ∧ (s.setLanes f n ls).obj = s.obj ∧ (s.setLanes f n
    ls).inj = s.inj ∧ (s.setLanes f n ls).hpt = s.hpt ∧ (s.setLanes f n ls).xlt = s.xlt ∧ (s.setLanes f n ls).mat = s.mat ∧
    (s.setLanes f n ls).ram = s.ram ∧ (s.setLanes f n ls).atu = s.atu ∧ (s.setLanes f n ls).col = s.col ∧ (s.setLanes f n
    ls).cnt = s.cnt ∧ (s.setLanes f n ls).mgt = s.mgt ∧ (s.setLanes f n ls).lastRead = s.lastRead := by
  unfold State.setLanes
  simp

@[simp] theorem State.setLinkState_frame (s : State) (p n : Nat) :
    (s.setLinkState p n).part = s.part ∧ (s.setLinkState p n).draws = s.draws ∧ (s.setLinkState p n).req = s.req ∧
    (s.setLinkState p n).flt = s.flt ∧ (s.setLinkState p n).rt = s.rt ∧ (s.setLinkState p n).lnk = s.lnk ∧ (s.setLinkState p
    n).pwr = s.pwr ∧ (s.setLinkState p n).tim = s.tim ∧ (s.setLinkState p n).xpt = s.xpt ∧ (s.setLinkState p n).obj = s.obj ∧
    (s.setLinkState p n).inj = s.inj ∧ (s.setLinkState p n).hpt = s.hpt ∧ (s.setLinkState p n).xlt = s.xlt ∧ (s.setLinkState p
    n).mat = s.mat ∧ (s.setLinkState p n).ram = s.ram ∧ (s.setLinkState p n).atu = s.atu ∧ (s.setLinkState p n).col = s.col ∧
    (s.setLinkState p n).cnt = s.cnt ∧ (s.setLinkState p n).mgt = s.mgt ∧ (s.setLinkState p n).lastRead = s.lastRead := by
  unfold State.setLinkState
  simp

@[simp] theorem State.setLinkPhase_frame (s : State) (p n : Nat) :
    (s.setLinkPhase p n).part = s.part ∧ (s.setLinkPhase p n).draws = s.draws ∧ (s.setLinkPhase p n).req = s.req ∧
    (s.setLinkPhase p n).flt = s.flt ∧ (s.setLinkPhase p n).rt = s.rt ∧ (s.setLinkPhase p n).lnk = s.lnk ∧ (s.setLinkPhase p
    n).pwr = s.pwr ∧ (s.setLinkPhase p n).tim = s.tim ∧ (s.setLinkPhase p n).xpt = s.xpt ∧ (s.setLinkPhase p n).obj = s.obj ∧
    (s.setLinkPhase p n).inj = s.inj ∧ (s.setLinkPhase p n).hpt = s.hpt ∧ (s.setLinkPhase p n).xlt = s.xlt ∧ (s.setLinkPhase p
    n).mat = s.mat ∧ (s.setLinkPhase p n).ram = s.ram ∧ (s.setLinkPhase p n).atu = s.atu ∧ (s.setLinkPhase p n).col = s.col ∧
    (s.setLinkPhase p n).cnt = s.cnt ∧ (s.setLinkPhase p n).mgt = s.mgt ∧ (s.setLinkPhase p n).lastRead = s.lastRead := by
  unfold State.setLinkPhase
  simp

@[simp] theorem State.modLink_frame (s : State) (p : Nat) (f : Link → Link) :
    (s.modLink p f).part = s.part ∧ (s.modLink p f).draws = s.draws ∧ (s.modLink p f).regs = s.regs ∧ (s.modLink p f).req =
    s.req ∧ (s.modLink p f).flt = s.flt ∧ (s.modLink p f).rt = s.rt ∧ (s.modLink p f).pwr = s.pwr ∧ (s.modLink p f).tim =
    s.tim ∧ (s.modLink p f).xpt = s.xpt ∧ (s.modLink p f).obj = s.obj ∧ (s.modLink p f).inj = s.inj ∧ (s.modLink p f).hpt =
    s.hpt ∧ (s.modLink p f).xlt = s.xlt ∧ (s.modLink p f).mat = s.mat ∧ (s.modLink p f).ram = s.ram ∧ (s.modLink p f).atu =
    s.atu ∧ (s.modLink p f).col = s.col ∧ (s.modLink p f).cnt = s.cnt ∧ (s.modLink p f).mgt = s.mgt ∧ (s.modLink p f).lastRead
    = s.lastRead := by
  unfold State.modLink
  simp

@[simp] theorem State.modLane_frame (s : State) (l : Nat) (f : Lane → Lane) :
    (s.modLane l f).part = s.part ∧ (s.modLane l f).draws = s.draws ∧ (s.modLane l f).regs = s.regs ∧ (s.modLane l f).req =
    s.req ∧ (s.modLane l f).flt = s.flt ∧ (s.modLane l f).rt = s.rt ∧ (s.modLane l f).pwr = s.pwr ∧ (s.modLane l f).tim =
    s.tim ∧ (s.modLane l f).xpt = s.xpt ∧ (s.modLane l f).obj = s.obj ∧ (s.modLane l f).inj = s.inj ∧ (s.modLane l f).hpt =
    s.hpt ∧ (s.modLane l f).xlt = s.xlt ∧ (s.modLane l f).mat = s.mat ∧ (s.modLane l f).ram = s.ram ∧ (s.modLane l f).atu =
    s.atu ∧ (s.modLane l f).col = s.col ∧ (s.modLane l f).cnt = s.cnt ∧ (s.modLane l f).mgt = s.mgt ∧ (s.modLane l f).lastRead
    = s.lastRead := by
  unfold State.modLane
  simp

@[simp] theorem State.say_frame (s : State) (p : Nat) (w : LinkWord) :
    (s.say p w).part = s.part ∧ (s.say p w).draws = s.draws ∧ (s.say p w).regs = s.regs ∧ (s.say p w).req = s.req ∧ (s.say p
    w).flt = s.flt ∧ (s.say p w).rt = s.rt ∧ (s.say p w).pwr = s.pwr ∧ (s.say p w).tim = s.tim ∧ (s.say p w).xpt = s.xpt ∧
    (s.say p w).obj = s.obj ∧ (s.say p w).inj = s.inj ∧ (s.say p w).hpt = s.hpt ∧ (s.say p w).xlt = s.xlt ∧ (s.say p w).mat =
    s.mat ∧ (s.say p w).ram = s.ram ∧ (s.say p w).atu = s.atu ∧ (s.say p w).col = s.col ∧ (s.say p w).cnt = s.cnt ∧ (s.say p
    w).mgt = s.mgt ∧ (s.say p w).lastRead = s.lastRead := by
  unfold State.say
  simp

@[simp] theorem State.heard_frame (s : State) (p : Nat) (w : LinkWord) :
    (s.heard p w).part = s.part ∧ (s.heard p w).draws = s.draws ∧ (s.heard p w).regs = s.regs ∧ (s.heard p w).req = s.req ∧
    (s.heard p w).flt = s.flt ∧ (s.heard p w).rt = s.rt ∧ (s.heard p w).pwr = s.pwr ∧ (s.heard p w).tim = s.tim ∧ (s.heard p
    w).xpt = s.xpt ∧ (s.heard p w).obj = s.obj ∧ (s.heard p w).inj = s.inj ∧ (s.heard p w).hpt = s.hpt ∧ (s.heard p w).xlt =
    s.xlt ∧ (s.heard p w).mat = s.mat ∧ (s.heard p w).ram = s.ram ∧ (s.heard p w).atu = s.atu ∧ (s.heard p w).col = s.col ∧
    (s.heard p w).cnt = s.cnt ∧ (s.heard p w).mgt = s.mgt ∧ (s.heard p w).lastRead = s.lastRead := by
  unfold State.heard
  simp

@[simp] theorem State.occurLane_frame (s : State) (l ev n : Nat) :
    (s.occurLane l ev n).part = s.part ∧ (s.occurLane l ev n).draws = s.draws ∧ (s.occurLane l ev n).regs = s.regs ∧
    (s.occurLane l ev n).req = s.req ∧ (s.occurLane l ev n).flt = s.flt ∧ (s.occurLane l ev n).rt = s.rt ∧ (s.occurLane l ev
    n).lnk = s.lnk ∧ (s.occurLane l ev n).pwr = s.pwr ∧ (s.occurLane l ev n).tim = s.tim ∧ (s.occurLane l ev n).xpt = s.xpt ∧
    (s.occurLane l ev n).obj = s.obj ∧ (s.occurLane l ev n).inj = s.inj ∧ (s.occurLane l ev n).hpt = s.hpt ∧ (s.occurLane l ev
    n).xlt = s.xlt ∧ (s.occurLane l ev n).mat = s.mat ∧ (s.occurLane l ev n).ram = s.ram ∧ (s.occurLane l ev n).atu = s.atu ∧
    (s.occurLane l ev n).col = s.col ∧ (s.occurLane l ev n).mgt = s.mgt ∧ (s.occurLane l ev n).lastRead = s.lastRead := by
  unfold State.occurLane
  simp

@[simp] theorem State.sendLinkDown_frame (s : State) (p : Nat) :
    (s.sendLinkDown p).part = s.part ∧ (s.sendLinkDown p).draws = s.draws ∧ (s.sendLinkDown p).regs = s.regs ∧ (s.sendLinkDown
    p).req = s.req ∧ (s.sendLinkDown p).flt = s.flt ∧ (s.sendLinkDown p).rt = s.rt ∧ (s.sendLinkDown p).pwr = s.pwr ∧
    (s.sendLinkDown p).tim = s.tim ∧ (s.sendLinkDown p).xpt = s.xpt ∧ (s.sendLinkDown p).obj = s.obj ∧ (s.sendLinkDown p).inj
    = s.inj ∧ (s.sendLinkDown p).hpt = s.hpt ∧ (s.sendLinkDown p).xlt = s.xlt ∧ (s.sendLinkDown p).mat = s.mat ∧
    (s.sendLinkDown p).ram = s.ram ∧ (s.sendLinkDown p).atu = s.atu ∧ (s.sendLinkDown p).col = s.col ∧ (s.sendLinkDown p).cnt
    = s.cnt ∧ (s.sendLinkDown p).mgt = s.mgt ∧ (s.sendLinkDown p).lastRead = s.lastRead := by
  unfold State.sendLinkDown
  simp

@[simp] theorem State.halt_frame (s : State) :
    (s.halt).part = s.part ∧ (s.halt).draws = s.draws ∧ (s.halt).req = s.req ∧ (s.halt).flt = s.flt ∧ (s.halt).rt = s.rt ∧
    (s.halt).pwr = s.pwr ∧ (s.halt).tim = s.tim ∧ (s.halt).xpt = s.xpt ∧ (s.halt).obj = s.obj ∧ (s.halt).inj = s.inj ∧
    (s.halt).hpt = s.hpt ∧ (s.halt).xlt = s.xlt ∧ (s.halt).mat = s.mat ∧ (s.halt).ram = s.ram ∧ (s.halt).atu = s.atu ∧
    (s.halt).col = s.col ∧ (s.halt).cnt = s.cnt ∧ (s.halt).mgt = s.mgt ∧ (s.halt).lastRead = s.lastRead := by
  unfold State.halt
  try dsimp only
  repeat' split
  all_goals simp [apply_ite State.part, apply_ite State.draws, apply_ite State.req, apply_ite State.flt, apply_ite State.rt,
    apply_ite State.pwr, apply_ite State.tim, apply_ite State.xpt, apply_ite State.obj, apply_ite State.inj, apply_ite
    State.hpt, apply_ite State.xlt, apply_ite State.mat, apply_ite State.ram, apply_ite State.atu, apply_ite State.col,
    apply_ite State.cnt, apply_ite State.mgt, apply_ite State.lastRead]

@[simp] theorem State.signalInt_frame (s : State) (blk r : Nat) :
    (s.signalInt blk r).part = s.part ∧ (s.signalInt blk r).draws = s.draws ∧ (s.signalInt blk r).regs = s.regs ∧ (s.signalInt
    blk r).req = s.req ∧ (s.signalInt blk r).rt = s.rt ∧ (s.signalInt blk r).lnk = s.lnk ∧ (s.signalInt blk r).pwr = s.pwr ∧
    (s.signalInt blk r).tim = s.tim ∧ (s.signalInt blk r).xpt = s.xpt ∧ (s.signalInt blk r).obj = s.obj ∧ (s.signalInt blk
    r).inj = s.inj ∧ (s.signalInt blk r).hpt = s.hpt ∧ (s.signalInt blk r).xlt = s.xlt ∧ (s.signalInt blk r).mat = s.mat ∧
    (s.signalInt blk r).ram = s.ram ∧ (s.signalInt blk r).atu = s.atu ∧ (s.signalInt blk r).col = s.col ∧ (s.signalInt blk
    r).cnt = s.cnt ∧ (s.signalInt blk r).mgt = s.mgt ∧ (s.signalInt blk r).lastRead = s.lastRead := by
  unfold State.signalInt
  try dsimp only
  repeat' split
  all_goals simp [apply_ite State.part, apply_ite State.draws, apply_ite State.regs, apply_ite State.req, apply_ite State.rt,
    apply_ite State.lnk, apply_ite State.pwr, apply_ite State.tim, apply_ite State.xpt, apply_ite State.obj, apply_ite
    State.inj, apply_ite State.hpt, apply_ite State.xlt, apply_ite State.mat, apply_ite State.ram, apply_ite State.atu,
    apply_ite State.col, apply_ite State.cnt, apply_ite State.mgt, apply_ite State.lastRead]

@[simp] theorem State.startPulse_frame (s : State) :
    (s.startPulse).part = s.part ∧ (s.startPulse).draws = s.draws ∧ (s.startPulse).req = s.req ∧ (s.startPulse).rt = s.rt ∧
    (s.startPulse).lnk = s.lnk ∧ (s.startPulse).pwr = s.pwr ∧ (s.startPulse).tim = s.tim ∧ (s.startPulse).xpt = s.xpt ∧
    (s.startPulse).obj = s.obj ∧ (s.startPulse).inj = s.inj ∧ (s.startPulse).hpt = s.hpt ∧ (s.startPulse).xlt = s.xlt ∧
    (s.startPulse).mat = s.mat ∧ (s.startPulse).ram = s.ram ∧ (s.startPulse).atu = s.atu ∧ (s.startPulse).col = s.col ∧
    (s.startPulse).cnt = s.cnt ∧ (s.startPulse).mgt = s.mgt ∧ (s.startPulse).lastRead = s.lastRead := by
  unfold State.startPulse
  simp

@[simp] theorem State.signalPin_frame (s : State) (r : Nat) :
    (s.signalPin r).part = s.part ∧ (s.signalPin r).draws = s.draws ∧ (s.signalPin r).req = s.req ∧ (s.signalPin r).rt = s.rt
    ∧ (s.signalPin r).lnk = s.lnk ∧ (s.signalPin r).pwr = s.pwr ∧ (s.signalPin r).tim = s.tim ∧ (s.signalPin r).xpt = s.xpt ∧
    (s.signalPin r).obj = s.obj ∧ (s.signalPin r).inj = s.inj ∧ (s.signalPin r).hpt = s.hpt ∧ (s.signalPin r).xlt = s.xlt ∧
    (s.signalPin r).mat = s.mat ∧ (s.signalPin r).ram = s.ram ∧ (s.signalPin r).atu = s.atu ∧ (s.signalPin r).col = s.col ∧
    (s.signalPin r).cnt = s.cnt ∧ (s.signalPin r).mgt = s.mgt ∧ (s.signalPin r).lastRead = s.lastRead := by
  unfold State.signalPin
  try dsimp only
  repeat' split
  all_goals simp [apply_ite State.part, apply_ite State.draws, apply_ite State.req, apply_ite State.rt, apply_ite State.lnk,
    apply_ite State.pwr, apply_ite State.tim, apply_ite State.xpt, apply_ite State.obj, apply_ite State.inj, apply_ite
    State.hpt, apply_ite State.xlt, apply_ite State.mat, apply_ite State.ram, apply_ite State.atu, apply_ite State.col,
    apply_ite State.cnt, apply_ite State.mgt, apply_ite State.lastRead]

@[simp] theorem State.recordFirst_frame (s : State) (blk i r info : Nat) (forced esc sticky : Bool) :
    (s.recordFirst blk i r info forced esc sticky).part = s.part ∧ (s.recordFirst blk i r info forced esc sticky).draws =
    s.draws ∧ (s.recordFirst blk i r info forced esc sticky).req = s.req ∧ (s.recordFirst blk i r info forced esc sticky).flt
    = s.flt ∧ (s.recordFirst blk i r info forced esc sticky).rt = s.rt ∧ (s.recordFirst blk i r info forced esc sticky).lnk =
    s.lnk ∧ (s.recordFirst blk i r info forced esc sticky).pwr = s.pwr ∧ (s.recordFirst blk i r info forced esc sticky).tim =
    s.tim ∧ (s.recordFirst blk i r info forced esc sticky).xpt = s.xpt ∧ (s.recordFirst blk i r info forced esc sticky).obj =
    s.obj ∧ (s.recordFirst blk i r info forced esc sticky).inj = s.inj ∧ (s.recordFirst blk i r info forced esc sticky).hpt =
    s.hpt ∧ (s.recordFirst blk i r info forced esc sticky).xlt = s.xlt ∧ (s.recordFirst blk i r info forced esc sticky).mat =
    s.mat ∧ (s.recordFirst blk i r info forced esc sticky).ram = s.ram ∧ (s.recordFirst blk i r info forced esc sticky).atu =
    s.atu ∧ (s.recordFirst blk i r info forced esc sticky).col = s.col ∧ (s.recordFirst blk i r info forced esc sticky).cnt =
    s.cnt ∧ (s.recordFirst blk i r info forced esc sticky).mgt = s.mgt ∧ (s.recordFirst blk i r info forced esc
    sticky).lastRead = s.lastRead := by
  unfold State.recordFirst
  try dsimp only
  repeat' split
  all_goals simp [apply_ite State.part, apply_ite State.draws, apply_ite State.req, apply_ite State.flt, apply_ite State.rt,
    apply_ite State.lnk, apply_ite State.pwr, apply_ite State.tim, apply_ite State.xpt, apply_ite State.obj, apply_ite
    State.inj, apply_ite State.hpt, apply_ite State.xlt, apply_ite State.mat, apply_ite State.ram, apply_ite State.atu,
    apply_ite State.col, apply_ite State.cnt, apply_ite State.mgt, apply_ite State.lastRead]

@[simp] theorem State.setBit_frame (s : State) (a i : Nat) :
    (s.setBit a i).part = s.part ∧ (s.setBit a i).draws = s.draws ∧ (s.setBit a i).req = s.req ∧ (s.setBit a i).flt = s.flt ∧
    (s.setBit a i).rt = s.rt ∧ (s.setBit a i).lnk = s.lnk ∧ (s.setBit a i).pwr = s.pwr ∧ (s.setBit a i).tim = s.tim ∧
    (s.setBit a i).xpt = s.xpt ∧ (s.setBit a i).obj = s.obj ∧ (s.setBit a i).inj = s.inj ∧ (s.setBit a i).hpt = s.hpt ∧
    (s.setBit a i).xlt = s.xlt ∧ (s.setBit a i).mat = s.mat ∧ (s.setBit a i).ram = s.ram ∧ (s.setBit a i).atu = s.atu ∧
    (s.setBit a i).col = s.col ∧ (s.setBit a i).cnt = s.cnt ∧ (s.setBit a i).mgt = s.mgt ∧ (s.setBit a i).lastRead =
    s.lastRead := by
  unfold State.setBit
  simp

@[simp] theorem State.raiseCounted_frame (s : State) (blk i info : Nat) (forced unack : Bool) :
    (s.raiseCounted blk i info forced unack).part = s.part ∧ (s.raiseCounted blk i info forced unack).draws = s.draws ∧
    (s.raiseCounted blk i info forced unack).req = s.req ∧ (s.raiseCounted blk i info forced unack).rt = s.rt ∧
    (s.raiseCounted blk i info forced unack).pwr = s.pwr ∧ (s.raiseCounted blk i info forced unack).tim = s.tim ∧
    (s.raiseCounted blk i info forced unack).xpt = s.xpt ∧ (s.raiseCounted blk i info forced unack).obj = s.obj ∧
    (s.raiseCounted blk i info forced unack).inj = s.inj ∧ (s.raiseCounted blk i info forced unack).hpt = s.hpt ∧
    (s.raiseCounted blk i info forced unack).xlt = s.xlt ∧ (s.raiseCounted blk i info forced unack).mat = s.mat ∧
    (s.raiseCounted blk i info forced unack).ram = s.ram ∧ (s.raiseCounted blk i info forced unack).atu = s.atu ∧
    (s.raiseCounted blk i info forced unack).col = s.col ∧ (s.raiseCounted blk i info forced unack).mgt = s.mgt ∧
    (s.raiseCounted blk i info forced unack).lastRead = s.lastRead := by
  unfold State.raiseCounted
  try dsimp only
  repeat' split
  all_goals simp [apply_ite State.part, apply_ite State.draws, apply_ite State.req, apply_ite State.rt, apply_ite State.pwr,
    apply_ite State.tim, apply_ite State.xpt, apply_ite State.obj, apply_ite State.inj, apply_ite State.hpt, apply_ite
    State.xlt, apply_ite State.mat, apply_ite State.ram, apply_ite State.atu, apply_ite State.col, apply_ite State.mgt,
    apply_ite State.lastRead]

@[simp] theorem State.raiseMerged_frame (s : State) (blk i : Nat) (forced : Bool) :
    (s.raiseMerged blk i forced).part = s.part ∧ (s.raiseMerged blk i forced).draws = s.draws ∧ (s.raiseMerged blk i
    forced).req = s.req ∧ (s.raiseMerged blk i forced).flt = s.flt ∧ (s.raiseMerged blk i forced).rt = s.rt ∧ (s.raiseMerged
    blk i forced).pwr = s.pwr ∧ (s.raiseMerged blk i forced).tim = s.tim ∧ (s.raiseMerged blk i forced).xpt = s.xpt ∧
    (s.raiseMerged blk i forced).obj = s.obj ∧ (s.raiseMerged blk i forced).inj = s.inj ∧ (s.raiseMerged blk i forced).hpt =
    s.hpt ∧ (s.raiseMerged blk i forced).xlt = s.xlt ∧ (s.raiseMerged blk i forced).mat = s.mat ∧ (s.raiseMerged blk i
    forced).ram = s.ram ∧ (s.raiseMerged blk i forced).atu = s.atu ∧ (s.raiseMerged blk i forced).col = s.col ∧ (s.raiseMerged
    blk i forced).cnt = s.cnt ∧ (s.raiseMerged blk i forced).mgt = s.mgt ∧ (s.raiseMerged blk i forced).lastRead = s.lastRead
    := by
  unfold State.raiseMerged
  try dsimp only
  repeat' split
  all_goals simp [apply_ite State.part, apply_ite State.draws, apply_ite State.req, apply_ite State.flt, apply_ite State.rt,
    apply_ite State.pwr, apply_ite State.tim, apply_ite State.xpt, apply_ite State.obj, apply_ite State.inj, apply_ite
    State.hpt, apply_ite State.xlt, apply_ite State.mat, apply_ite State.ram, apply_ite State.atu, apply_ite State.col,
    apply_ite State.cnt, apply_ite State.mgt, apply_ite State.lastRead]

@[simp] theorem State.raiseTogether_frame (s : State) (blk : Nat) (is : List Nat) (info : Nat) (forced : Bool) :
    (s.raiseTogether blk is info forced).part = s.part ∧ (s.raiseTogether blk is info forced).draws = s.draws ∧
    (s.raiseTogether blk is info forced).req = s.req ∧ (s.raiseTogether blk is info forced).rt = s.rt ∧ (s.raiseTogether blk
    is info forced).pwr = s.pwr ∧ (s.raiseTogether blk is info forced).tim = s.tim ∧ (s.raiseTogether blk is info forced).xpt
    = s.xpt ∧ (s.raiseTogether blk is info forced).obj = s.obj ∧ (s.raiseTogether blk is info forced).inj = s.inj ∧
    (s.raiseTogether blk is info forced).hpt = s.hpt ∧ (s.raiseTogether blk is info forced).xlt = s.xlt ∧ (s.raiseTogether blk
    is info forced).mat = s.mat ∧ (s.raiseTogether blk is info forced).ram = s.ram ∧ (s.raiseTogether blk is info forced).atu
    = s.atu ∧ (s.raiseTogether blk is info forced).col = s.col ∧ (s.raiseTogether blk is info forced).mgt = s.mgt ∧
    (s.raiseTogether blk is info forced).lastRead = s.lastRead := by
  unfold State.raiseTogether
  try dsimp only
  repeat' split
  all_goals simp [apply_ite State.part, apply_ite State.draws, apply_ite State.req, apply_ite State.rt, apply_ite State.pwr,
    apply_ite State.tim, apply_ite State.xpt, apply_ite State.obj, apply_ite State.inj, apply_ite State.hpt, apply_ite
    State.xlt, apply_ite State.mat, apply_ite State.ram, apply_ite State.atu, apply_ite State.col, apply_ite State.mgt,
    apply_ite State.lastRead]

@[simp] theorem State.raiseWith_frame (s : State) (blk i info : Nat) (forced unack : Bool) :
    (s.raiseWith blk i info forced unack).part = s.part ∧ (s.raiseWith blk i info forced unack).draws = s.draws ∧ (s.raiseWith
    blk i info forced unack).req = s.req ∧ (s.raiseWith blk i info forced unack).rt = s.rt ∧ (s.raiseWith blk i info forced
    unack).pwr = s.pwr ∧ (s.raiseWith blk i info forced unack).tim = s.tim ∧ (s.raiseWith blk i info forced unack).xpt = s.xpt
    ∧ (s.raiseWith blk i info forced unack).obj = s.obj ∧ (s.raiseWith blk i info forced unack).inj = s.inj ∧ (s.raiseWith blk
    i info forced unack).hpt = s.hpt ∧ (s.raiseWith blk i info forced unack).xlt = s.xlt ∧ (s.raiseWith blk i info forced
    unack).mat = s.mat ∧ (s.raiseWith blk i info forced unack).ram = s.ram ∧ (s.raiseWith blk i info forced unack).atu = s.atu
    ∧ (s.raiseWith blk i info forced unack).col = s.col ∧ (s.raiseWith blk i info forced unack).mgt = s.mgt ∧ (s.raiseWith blk
    i info forced unack).lastRead = s.lastRead := by
  unfold State.raiseWith
  try dsimp only
  repeat' split
  all_goals simp [apply_ite State.part, apply_ite State.draws, apply_ite State.req, apply_ite State.rt, apply_ite State.pwr,
    apply_ite State.tim, apply_ite State.xpt, apply_ite State.obj, apply_ite State.inj, apply_ite State.hpt, apply_ite
    State.xlt, apply_ite State.mat, apply_ite State.ram, apply_ite State.atu, apply_ite State.col, apply_ite State.mgt,
    apply_ite State.lastRead]

@[simp] theorem State.raiseFault_frame (s : State) (blk i info : Nat) (forced : Bool) :
    (s.raiseFault blk i info forced).part = s.part ∧ (s.raiseFault blk i info forced).draws = s.draws ∧ (s.raiseFault blk i
    info forced).req = s.req ∧ (s.raiseFault blk i info forced).rt = s.rt ∧ (s.raiseFault blk i info forced).pwr = s.pwr ∧
    (s.raiseFault blk i info forced).tim = s.tim ∧ (s.raiseFault blk i info forced).xpt = s.xpt ∧ (s.raiseFault blk i info
    forced).obj = s.obj ∧ (s.raiseFault blk i info forced).inj = s.inj ∧ (s.raiseFault blk i info forced).hpt = s.hpt ∧
    (s.raiseFault blk i info forced).xlt = s.xlt ∧ (s.raiseFault blk i info forced).mat = s.mat ∧ (s.raiseFault blk i info
    forced).ram = s.ram ∧ (s.raiseFault blk i info forced).atu = s.atu ∧ (s.raiseFault blk i info forced).col = s.col ∧
    (s.raiseFault blk i info forced).mgt = s.mgt ∧ (s.raiseFault blk i info forced).lastRead = s.lastRead := by
  unfold State.raiseFault
  simp

@[simp] theorem State.raise_frame (s : State) (blk i info : Nat) :
    (s.raise blk i info).part = s.part ∧ (s.raise blk i info).draws = s.draws ∧ (s.raise blk i info).req = s.req ∧ (s.raise
    blk i info).rt = s.rt ∧ (s.raise blk i info).pwr = s.pwr ∧ (s.raise blk i info).tim = s.tim ∧ (s.raise blk i info).xpt =
    s.xpt ∧ (s.raise blk i info).obj = s.obj ∧ (s.raise blk i info).inj = s.inj ∧ (s.raise blk i info).hpt = s.hpt ∧ (s.raise
    blk i info).xlt = s.xlt ∧ (s.raise blk i info).mat = s.mat ∧ (s.raise blk i info).ram = s.ram ∧ (s.raise blk i info).atu =
    s.atu ∧ (s.raise blk i info).col = s.col ∧ (s.raise blk i info).mgt = s.mgt ∧ (s.raise blk i info).lastRead = s.lastRead
    := by
  unfold State.raise
  simp

@[simp] theorem State.stand_frame (s : State) (blk i : Nat) :
    (s.stand blk i).part = s.part ∧ (s.stand blk i).draws = s.draws ∧ (s.stand blk i).regs = s.regs ∧ (s.stand blk i).req =
    s.req ∧ (s.stand blk i).rt = s.rt ∧ (s.stand blk i).lnk = s.lnk ∧ (s.stand blk i).pwr = s.pwr ∧ (s.stand blk i).tim =
    s.tim ∧ (s.stand blk i).xpt = s.xpt ∧ (s.stand blk i).obj = s.obj ∧ (s.stand blk i).inj = s.inj ∧ (s.stand blk i).hpt =
    s.hpt ∧ (s.stand blk i).xlt = s.xlt ∧ (s.stand blk i).mat = s.mat ∧ (s.stand blk i).ram = s.ram ∧ (s.stand blk i).atu =
    s.atu ∧ (s.stand blk i).col = s.col ∧ (s.stand blk i).cnt = s.cnt ∧ (s.stand blk i).mgt = s.mgt ∧ (s.stand blk i).lastRead
    = s.lastRead := by
  unfold State.stand
  try dsimp only
  repeat' split
  all_goals simp [apply_ite State.part, apply_ite State.draws, apply_ite State.regs, apply_ite State.req, apply_ite State.rt,
    apply_ite State.lnk, apply_ite State.pwr, apply_ite State.tim, apply_ite State.xpt, apply_ite State.obj, apply_ite
    State.inj, apply_ite State.hpt, apply_ite State.xlt, apply_ite State.mat, apply_ite State.ram, apply_ite State.atu,
    apply_ite State.col, apply_ite State.cnt, apply_ite State.mgt, apply_ite State.lastRead]

@[simp] theorem State.raiseStanding_frame (s : State) (blk i info : Nat) :
    (s.raiseStanding blk i info).part = s.part ∧ (s.raiseStanding blk i info).draws = s.draws ∧ (s.raiseStanding blk i
    info).req = s.req ∧ (s.raiseStanding blk i info).rt = s.rt ∧ (s.raiseStanding blk i info).pwr = s.pwr ∧ (s.raiseStanding
    blk i info).tim = s.tim ∧ (s.raiseStanding blk i info).xpt = s.xpt ∧ (s.raiseStanding blk i info).obj = s.obj ∧
    (s.raiseStanding blk i info).inj = s.inj ∧ (s.raiseStanding blk i info).hpt = s.hpt ∧ (s.raiseStanding blk i info).xlt =
    s.xlt ∧ (s.raiseStanding blk i info).mat = s.mat ∧ (s.raiseStanding blk i info).ram = s.ram ∧ (s.raiseStanding blk i
    info).atu = s.atu ∧ (s.raiseStanding blk i info).col = s.col ∧ (s.raiseStanding blk i info).mgt = s.mgt ∧ (s.raiseStanding
    blk i info).lastRead = s.lastRead := by
  unfold State.raiseStanding
  simp

@[simp] theorem State.endStanding_frame (s : State) (blk i : Nat) :
    (s.endStanding blk i).part = s.part ∧ (s.endStanding blk i).draws = s.draws ∧ (s.endStanding blk i).regs = s.regs ∧
    (s.endStanding blk i).req = s.req ∧ (s.endStanding blk i).rt = s.rt ∧ (s.endStanding blk i).lnk = s.lnk ∧ (s.endStanding
    blk i).pwr = s.pwr ∧ (s.endStanding blk i).tim = s.tim ∧ (s.endStanding blk i).xpt = s.xpt ∧ (s.endStanding blk i).obj =
    s.obj ∧ (s.endStanding blk i).inj = s.inj ∧ (s.endStanding blk i).hpt = s.hpt ∧ (s.endStanding blk i).xlt = s.xlt ∧
    (s.endStanding blk i).mat = s.mat ∧ (s.endStanding blk i).ram = s.ram ∧ (s.endStanding blk i).atu = s.atu ∧ (s.endStanding
    blk i).col = s.col ∧ (s.endStanding blk i).cnt = s.cnt ∧ (s.endStanding blk i).mgt = s.mgt ∧ (s.endStanding blk
    i).lastRead = s.lastRead := by
  unfold State.endStanding
  simp

@[simp] theorem State.clearStatus_frame (s : State) (blk : Nat) (w : Word) :
    (s.clearStatus blk w).part = s.part ∧ (s.clearStatus blk w).draws = s.draws ∧ (s.clearStatus blk w).req = s.req ∧
    (s.clearStatus blk w).flt = s.flt ∧ (s.clearStatus blk w).rt = s.rt ∧ (s.clearStatus blk w).lnk = s.lnk ∧ (s.clearStatus
    blk w).pwr = s.pwr ∧ (s.clearStatus blk w).tim = s.tim ∧ (s.clearStatus blk w).xpt = s.xpt ∧ (s.clearStatus blk w).obj =
    s.obj ∧ (s.clearStatus blk w).inj = s.inj ∧ (s.clearStatus blk w).hpt = s.hpt ∧ (s.clearStatus blk w).xlt = s.xlt ∧
    (s.clearStatus blk w).mat = s.mat ∧ (s.clearStatus blk w).ram = s.ram ∧ (s.clearStatus blk w).atu = s.atu ∧ (s.clearStatus
    blk w).col = s.col ∧ (s.clearStatus blk w).cnt = s.cnt ∧ (s.clearStatus blk w).mgt = s.mgt ∧ (s.clearStatus blk
    w).lastRead = s.lastRead := by
  unfold State.clearStatus
  try dsimp only
  repeat' split
  all_goals simp [apply_ite State.part, apply_ite State.draws, apply_ite State.req, apply_ite State.flt, apply_ite State.rt,
    apply_ite State.lnk, apply_ite State.pwr, apply_ite State.tim, apply_ite State.xpt, apply_ite State.obj, apply_ite
    State.inj, apply_ite State.hpt, apply_ite State.xlt, apply_ite State.mat, apply_ite State.ram, apply_ite State.atu,
    apply_ite State.col, apply_ite State.cnt, apply_ite State.mgt, apply_ite State.lastRead]

@[simp] theorem State.clearUnack_frame (s : State) (blk : Nat) (w : Word) :
    (s.clearUnack blk w).part = s.part ∧ (s.clearUnack blk w).draws = s.draws ∧ (s.clearUnack blk w).req = s.req ∧
    (s.clearUnack blk w).flt = s.flt ∧ (s.clearUnack blk w).rt = s.rt ∧ (s.clearUnack blk w).lnk = s.lnk ∧ (s.clearUnack blk
    w).pwr = s.pwr ∧ (s.clearUnack blk w).tim = s.tim ∧ (s.clearUnack blk w).xpt = s.xpt ∧ (s.clearUnack blk w).obj = s.obj ∧
    (s.clearUnack blk w).inj = s.inj ∧ (s.clearUnack blk w).hpt = s.hpt ∧ (s.clearUnack blk w).xlt = s.xlt ∧ (s.clearUnack blk
    w).mat = s.mat ∧ (s.clearUnack blk w).ram = s.ram ∧ (s.clearUnack blk w).atu = s.atu ∧ (s.clearUnack blk w).col = s.col ∧
    (s.clearUnack blk w).cnt = s.cnt ∧ (s.clearUnack blk w).mgt = s.mgt ∧ (s.clearUnack blk w).lastRead = s.lastRead := by
  unfold State.clearUnack
  try dsimp only
  repeat' split
  all_goals simp [apply_ite State.part, apply_ite State.draws, apply_ite State.req, apply_ite State.flt, apply_ite State.rt,
    apply_ite State.lnk, apply_ite State.pwr, apply_ite State.tim, apply_ite State.xpt, apply_ite State.obj, apply_ite
    State.inj, apply_ite State.hpt, apply_ite State.xlt, apply_ite State.mat, apply_ite State.ram, apply_ite State.atu,
    apply_ite State.col, apply_ite State.cnt, apply_ite State.mgt, apply_ite State.lastRead]

@[simp] theorem State.clearFirst_frame (s : State) (blk : Nat) (w : Word) :
    (s.clearFirst blk w).part = s.part ∧ (s.clearFirst blk w).draws = s.draws ∧ (s.clearFirst blk w).req = s.req ∧
    (s.clearFirst blk w).flt = s.flt ∧ (s.clearFirst blk w).rt = s.rt ∧ (s.clearFirst blk w).lnk = s.lnk ∧ (s.clearFirst blk
    w).pwr = s.pwr ∧ (s.clearFirst blk w).tim = s.tim ∧ (s.clearFirst blk w).xpt = s.xpt ∧ (s.clearFirst blk w).obj = s.obj ∧
    (s.clearFirst blk w).inj = s.inj ∧ (s.clearFirst blk w).hpt = s.hpt ∧ (s.clearFirst blk w).xlt = s.xlt ∧ (s.clearFirst blk
    w).mat = s.mat ∧ (s.clearFirst blk w).ram = s.ram ∧ (s.clearFirst blk w).atu = s.atu ∧ (s.clearFirst blk w).col = s.col ∧
    (s.clearFirst blk w).cnt = s.cnt ∧ (s.clearFirst blk w).mgt = s.mgt ∧ (s.clearFirst blk w).lastRead = s.lastRead := by
  unfold State.clearFirst
  try dsimp only
  repeat' split
  all_goals simp [apply_ite State.part, apply_ite State.draws, apply_ite State.req, apply_ite State.flt, apply_ite State.rt,
    apply_ite State.lnk, apply_ite State.pwr, apply_ite State.tim, apply_ite State.xpt, apply_ite State.obj, apply_ite
    State.inj, apply_ite State.hpt, apply_ite State.xlt, apply_ite State.mat, apply_ite State.ram, apply_ite State.atu,
    apply_ite State.col, apply_ite State.cnt, apply_ite State.mgt, apply_ite State.lastRead]

@[simp] theorem State.resetFaultBlock_frame (s : State) (blk : Nat) :
    (s.resetFaultBlock blk).part = s.part ∧ (s.resetFaultBlock blk).draws = s.draws ∧ (s.resetFaultBlock blk).req = s.req ∧
    (s.resetFaultBlock blk).flt = s.flt ∧ (s.resetFaultBlock blk).rt = s.rt ∧ (s.resetFaultBlock blk).lnk = s.lnk ∧
    (s.resetFaultBlock blk).pwr = s.pwr ∧ (s.resetFaultBlock blk).tim = s.tim ∧ (s.resetFaultBlock blk).xpt = s.xpt ∧
    (s.resetFaultBlock blk).obj = s.obj ∧ (s.resetFaultBlock blk).inj = s.inj ∧ (s.resetFaultBlock blk).hpt = s.hpt ∧
    (s.resetFaultBlock blk).xlt = s.xlt ∧ (s.resetFaultBlock blk).mat = s.mat ∧ (s.resetFaultBlock blk).ram = s.ram ∧
    (s.resetFaultBlock blk).atu = s.atu ∧ (s.resetFaultBlock blk).col = s.col ∧ (s.resetFaultBlock blk).cnt = s.cnt ∧
    (s.resetFaultBlock blk).mgt = s.mgt ∧ (s.resetFaultBlock blk).lastRead = s.lastRead := by
  unfold State.resetFaultBlock
  try dsimp only
  repeat' split
  all_goals simp [apply_ite State.part, apply_ite State.draws, apply_ite State.req, apply_ite State.flt, apply_ite State.rt,
    apply_ite State.lnk, apply_ite State.pwr, apply_ite State.tim, apply_ite State.xpt, apply_ite State.obj, apply_ite
    State.inj, apply_ite State.hpt, apply_ite State.xlt, apply_ite State.mat, apply_ite State.ram, apply_ite State.atu,
    apply_ite State.col, apply_ite State.cnt, apply_ite State.mgt, apply_ite State.lastRead]

@[simp] theorem State.setRepoch_frame (s : State) (e n : Nat) :
    (s.setRepoch e n).part = s.part ∧ (s.setRepoch e n).draws = s.draws ∧ (s.setRepoch e n).req = s.req ∧ (s.setRepoch e
    n).flt = s.flt ∧ (s.setRepoch e n).rt = s.rt ∧ (s.setRepoch e n).lnk = s.lnk ∧ (s.setRepoch e n).pwr = s.pwr ∧
    (s.setRepoch e n).tim = s.tim ∧ (s.setRepoch e n).xpt = s.xpt ∧ (s.setRepoch e n).obj = s.obj ∧ (s.setRepoch e n).inj =
    s.inj ∧ (s.setRepoch e n).hpt = s.hpt ∧ (s.setRepoch e n).xlt = s.xlt ∧ (s.setRepoch e n).mat = s.mat ∧ (s.setRepoch e
    n).ram = s.ram ∧ (s.setRepoch e n).atu = s.atu ∧ (s.setRepoch e n).col = s.col ∧ (s.setRepoch e n).cnt = s.cnt ∧
    (s.setRepoch e n).mgt = s.mgt ∧ (s.setRepoch e n).lastRead = s.lastRead := by
  unfold State.setRepoch
  try dsimp only
  repeat' split
  all_goals simp [apply_ite State.part, apply_ite State.draws, apply_ite State.req, apply_ite State.flt, apply_ite State.rt,
    apply_ite State.lnk, apply_ite State.pwr, apply_ite State.tim, apply_ite State.xpt, apply_ite State.obj, apply_ite
    State.inj, apply_ite State.hpt, apply_ite State.xlt, apply_ite State.mat, apply_ite State.ram, apply_ite State.atu,
    apply_ite State.col, apply_ite State.cnt, apply_ite State.mgt, apply_ite State.lastRead]

@[simp] theorem State.release_frame (s : State) (h : HeldCell) :
    (s.release h).part = s.part ∧ (s.release h).draws = s.draws ∧ (s.release h).regs = s.regs ∧ (s.release h).req = s.req ∧
    (s.release h).flt = s.flt ∧ (s.release h).rt = s.rt ∧ (s.release h).pwr = s.pwr ∧ (s.release h).tim = s.tim ∧ (s.release
    h).xpt = s.xpt ∧ (s.release h).obj = s.obj ∧ (s.release h).inj = s.inj ∧ (s.release h).hpt = s.hpt ∧ (s.release h).xlt =
    s.xlt ∧ (s.release h).mat = s.mat ∧ (s.release h).ram = s.ram ∧ (s.release h).atu = s.atu ∧ (s.release h).col = s.col ∧
    (s.release h).cnt = s.cnt ∧ (s.release h).mgt = s.mgt ∧ (s.release h).lastRead = s.lastRead := by
  unfold State.release
  try dsimp only
  repeat' split
  all_goals simp [apply_ite State.part, apply_ite State.draws, apply_ite State.regs, apply_ite State.req, apply_ite State.flt,
    apply_ite State.rt, apply_ite State.pwr, apply_ite State.tim, apply_ite State.xpt, apply_ite State.obj, apply_ite
    State.inj, apply_ite State.hpt, apply_ite State.xlt, apply_ite State.mat, apply_ite State.ram, apply_ite State.atu,
    apply_ite State.col, apply_ite State.cnt, apply_ite State.mgt, apply_ite State.lastRead]

@[simp] theorem State.dropCell_frame (s : State) (h : HeldCell) (a : Nat) :
    (s.dropCell h a).part = s.part ∧ (s.dropCell h a).draws = s.draws ∧ (s.dropCell h a).req = s.req ∧ (s.dropCell h a).flt =
    s.flt ∧ (s.dropCell h a).rt = s.rt ∧ (s.dropCell h a).pwr = s.pwr ∧ (s.dropCell h a).tim = s.tim ∧ (s.dropCell h a).xpt =
    s.xpt ∧ (s.dropCell h a).obj = s.obj ∧ (s.dropCell h a).inj = s.inj ∧ (s.dropCell h a).hpt = s.hpt ∧ (s.dropCell h a).xlt
    = s.xlt ∧ (s.dropCell h a).mat = s.mat ∧ (s.dropCell h a).ram = s.ram ∧ (s.dropCell h a).atu = s.atu ∧ (s.dropCell h
    a).col = s.col ∧ (s.dropCell h a).cnt = s.cnt ∧ (s.dropCell h a).mgt = s.mgt ∧ (s.dropCell h a).lastRead = s.lastRead :=
    by
  unfold State.dropCell
  simp

@[simp] theorem State.arrive_frame (s : State) (c : Cell) :
    (s.arrive c).part = s.part ∧ (s.arrive c).draws = s.draws ∧ (s.arrive c).regs = s.regs ∧ (s.arrive c).req = s.req ∧
    (s.arrive c).flt = s.flt ∧ (s.arrive c).pwr = s.pwr ∧ (s.arrive c).tim = s.tim ∧ (s.arrive c).xpt = s.xpt ∧ (s.arrive
    c).obj = s.obj ∧ (s.arrive c).inj = s.inj ∧ (s.arrive c).hpt = s.hpt ∧ (s.arrive c).xlt = s.xlt ∧ (s.arrive c).mat = s.mat
    ∧ (s.arrive c).ram = s.ram ∧ (s.arrive c).atu = s.atu ∧ (s.arrive c).col = s.col ∧ (s.arrive c).cnt = s.cnt ∧ (s.arrive
    c).mgt = s.mgt ∧ (s.arrive c).lastRead = s.lastRead := by
  unfold State.arrive
  try dsimp only
  repeat' split
  all_goals simp

@[simp] theorem State.inject_frame (s : State) (c : Cell) :
    (s.inject c).part = s.part ∧ (s.inject c).draws = s.draws ∧ (s.inject c).regs = s.regs ∧ (s.inject c).req = s.req ∧
    (s.inject c).flt = s.flt ∧ (s.inject c).lnk = s.lnk ∧ (s.inject c).pwr = s.pwr ∧ (s.inject c).tim = s.tim ∧ (s.inject
    c).xpt = s.xpt ∧ (s.inject c).obj = s.obj ∧ (s.inject c).inj = s.inj ∧ (s.inject c).hpt = s.hpt ∧ (s.inject c).xlt = s.xlt
    ∧ (s.inject c).mat = s.mat ∧ (s.inject c).ram = s.ram ∧ (s.inject c).atu = s.atu ∧ (s.inject c).col = s.col ∧ (s.inject
    c).cnt = s.cnt ∧ (s.inject c).mgt = s.mgt ∧ (s.inject c).lastRead = s.lastRead := by
  unfold State.inject
  simp

@[simp] theorem State.enqueue_frame (s : State) (p : Nat) (h : HeldCell) (detour : Bool) :
    (s.enqueue p h detour).part = s.part ∧ (s.enqueue p h detour).draws = s.draws ∧ (s.enqueue p h detour).regs = s.regs ∧
    (s.enqueue p h detour).req = s.req ∧ (s.enqueue p h detour).flt = s.flt ∧ (s.enqueue p h detour).lnk = s.lnk ∧ (s.enqueue
    p h detour).pwr = s.pwr ∧ (s.enqueue p h detour).tim = s.tim ∧ (s.enqueue p h detour).xpt = s.xpt ∧ (s.enqueue p h
    detour).obj = s.obj ∧ (s.enqueue p h detour).inj = s.inj ∧ (s.enqueue p h detour).hpt = s.hpt ∧ (s.enqueue p h detour).xlt
    = s.xlt ∧ (s.enqueue p h detour).mat = s.mat ∧ (s.enqueue p h detour).ram = s.ram ∧ (s.enqueue p h detour).atu = s.atu ∧
    (s.enqueue p h detour).col = s.col ∧ (s.enqueue p h detour).cnt = s.cnt ∧ (s.enqueue p h detour).mgt = s.mgt ∧ (s.enqueue
    p h detour).lastRead = s.lastRead := by
  unfold State.enqueue
  try dsimp only
  repeat' split
  all_goals simp [apply_ite State.part, apply_ite State.draws, apply_ite State.regs, apply_ite State.req, apply_ite State.flt,
    apply_ite State.lnk, apply_ite State.pwr, apply_ite State.tim, apply_ite State.xpt, apply_ite State.obj, apply_ite
    State.inj, apply_ite State.hpt, apply_ite State.xlt, apply_ite State.mat, apply_ite State.ram, apply_ite State.atu,
    apply_ite State.col, apply_ite State.cnt, apply_ite State.mgt, apply_ite State.lastRead]

@[simp] theorem State.dropNoPort_frame (s : State) (h : HeldCell) :
    (s.dropNoPort h).part = s.part ∧ (s.dropNoPort h).draws = s.draws ∧ (s.dropNoPort h).req = s.req ∧ (s.dropNoPort h).flt =
    s.flt ∧ (s.dropNoPort h).rt = s.rt ∧ (s.dropNoPort h).pwr = s.pwr ∧ (s.dropNoPort h).tim = s.tim ∧ (s.dropNoPort h).xpt =
    s.xpt ∧ (s.dropNoPort h).obj = s.obj ∧ (s.dropNoPort h).inj = s.inj ∧ (s.dropNoPort h).hpt = s.hpt ∧ (s.dropNoPort h).xlt
    = s.xlt ∧ (s.dropNoPort h).mat = s.mat ∧ (s.dropNoPort h).ram = s.ram ∧ (s.dropNoPort h).atu = s.atu ∧ (s.dropNoPort
    h).col = s.col ∧ (s.dropNoPort h).cnt = s.cnt ∧ (s.dropNoPort h).mgt = s.mgt ∧ (s.dropNoPort h).lastRead = s.lastRead :=
    by
  unfold State.dropNoPort
  try dsimp only
  repeat' split
  all_goals simp [apply_ite State.part, apply_ite State.draws, apply_ite State.req, apply_ite State.flt, apply_ite State.rt,
    apply_ite State.pwr, apply_ite State.tim, apply_ite State.xpt, apply_ite State.obj, apply_ite State.inj, apply_ite
    State.hpt, apply_ite State.xlt, apply_ite State.mat, apply_ite State.ram, apply_ite State.atu, apply_ite State.col,
    apply_ite State.cnt, apply_ite State.mgt, apply_ite State.lastRead]

@[simp] theorem State.pickPort_frame (s : State) (h : HeldCell) (img : Nat) :
    (s.pickPort h img).part = s.part ∧ (s.pickPort h img).req = s.req ∧ (s.pickPort h img).flt = s.flt ∧ (s.pickPort h
    img).pwr = s.pwr ∧ (s.pickPort h img).tim = s.tim ∧ (s.pickPort h img).xpt = s.xpt ∧ (s.pickPort h img).obj = s.obj ∧
    (s.pickPort h img).inj = s.inj ∧ (s.pickPort h img).hpt = s.hpt ∧ (s.pickPort h img).xlt = s.xlt ∧ (s.pickPort h img).mat
    = s.mat ∧ (s.pickPort h img).ram = s.ram ∧ (s.pickPort h img).atu = s.atu ∧ (s.pickPort h img).col = s.col ∧ (s.pickPort h
    img).cnt = s.cnt ∧ (s.pickPort h img).mgt = s.mgt ∧ (s.pickPort h img).lastRead = s.lastRead := by
  unfold State.pickPort
  try dsimp only
  repeat' split
  all_goals simp [apply_ite State.part, apply_ite State.req, apply_ite State.flt, apply_ite State.pwr, apply_ite State.tim,
    apply_ite State.xpt, apply_ite State.obj, apply_ite State.inj, apply_ite State.hpt, apply_ite State.xlt, apply_ite
    State.mat, apply_ite State.ram, apply_ite State.atu, apply_ite State.col, apply_ite State.cnt, apply_ite State.mgt,
    apply_ite State.lastRead]

@[simp] theorem State.routeCell_frame (s : State) (h : HeldCell) :
    (s.routeCell h).part = s.part ∧ (s.routeCell h).req = s.req ∧ (s.routeCell h).flt = s.flt ∧ (s.routeCell h).pwr = s.pwr ∧
    (s.routeCell h).tim = s.tim ∧ (s.routeCell h).xpt = s.xpt ∧ (s.routeCell h).obj = s.obj ∧ (s.routeCell h).inj = s.inj ∧
    (s.routeCell h).hpt = s.hpt ∧ (s.routeCell h).xlt = s.xlt ∧ (s.routeCell h).mat = s.mat ∧ (s.routeCell h).ram = s.ram ∧
    (s.routeCell h).atu = s.atu ∧ (s.routeCell h).col = s.col ∧ (s.routeCell h).cnt = s.cnt ∧ (s.routeCell h).mgt = s.mgt ∧
    (s.routeCell h).lastRead = s.lastRead := by
  unfold State.routeCell
  try dsimp only
  repeat' split
  all_goals simp [apply_ite State.part, apply_ite State.req, apply_ite State.flt, apply_ite State.pwr, apply_ite State.tim,
    apply_ite State.xpt, apply_ite State.obj, apply_ite State.inj, apply_ite State.hpt, apply_ite State.xlt, apply_ite
    State.mat, apply_ite State.ram, apply_ite State.atu, apply_ite State.col, apply_ite State.cnt, apply_ite State.mgt,
    apply_ite State.lastRead]

@[simp] theorem State.repickIf_frame (s : State) (p : Nat) (gone : HeldCell → Bool) :
    (s.repickIf p gone).part = s.part ∧ (s.repickIf p gone).draws = s.draws ∧ (s.repickIf p gone).regs = s.regs ∧ (s.repickIf
    p gone).req = s.req ∧ (s.repickIf p gone).flt = s.flt ∧ (s.repickIf p gone).lnk = s.lnk ∧ (s.repickIf p gone).pwr = s.pwr
    ∧ (s.repickIf p gone).tim = s.tim ∧ (s.repickIf p gone).xpt = s.xpt ∧ (s.repickIf p gone).obj = s.obj ∧ (s.repickIf p
    gone).inj = s.inj ∧ (s.repickIf p gone).hpt = s.hpt ∧ (s.repickIf p gone).xlt = s.xlt ∧ (s.repickIf p gone).mat = s.mat ∧
    (s.repickIf p gone).ram = s.ram ∧ (s.repickIf p gone).atu = s.atu ∧ (s.repickIf p gone).col = s.col ∧ (s.repickIf p
    gone).cnt = s.cnt ∧ (s.repickIf p gone).mgt = s.mgt ∧ (s.repickIf p gone).lastRead = s.lastRead := by
  unfold State.repickIf
  simp

@[simp] theorem State.repick_frame (s : State) (p : Nat) :
    (s.repick p).part = s.part ∧ (s.repick p).draws = s.draws ∧ (s.repick p).regs = s.regs ∧ (s.repick p).req = s.req ∧
    (s.repick p).flt = s.flt ∧ (s.repick p).lnk = s.lnk ∧ (s.repick p).pwr = s.pwr ∧ (s.repick p).tim = s.tim ∧ (s.repick
    p).xpt = s.xpt ∧ (s.repick p).obj = s.obj ∧ (s.repick p).inj = s.inj ∧ (s.repick p).hpt = s.hpt ∧ (s.repick p).xlt = s.xlt
    ∧ (s.repick p).mat = s.mat ∧ (s.repick p).ram = s.ram ∧ (s.repick p).atu = s.atu ∧ (s.repick p).col = s.col ∧ (s.repick
    p).cnt = s.cnt ∧ (s.repick p).mgt = s.mgt ∧ (s.repick p).lastRead = s.lastRead := by
  unfold State.repick
  simp

@[simp] theorem State.sendDrain_frame (s : State) (e h : Nat) :
    (s.sendDrain e h).part = s.part ∧ (s.sendDrain e h).draws = s.draws ∧ (s.sendDrain e h).regs = s.regs ∧ (s.sendDrain e
    h).req = s.req ∧ (s.sendDrain e h).flt = s.flt ∧ (s.sendDrain e h).lnk = s.lnk ∧ (s.sendDrain e h).pwr = s.pwr ∧
    (s.sendDrain e h).tim = s.tim ∧ (s.sendDrain e h).xpt = s.xpt ∧ (s.sendDrain e h).obj = s.obj ∧ (s.sendDrain e h).inj =
    s.inj ∧ (s.sendDrain e h).hpt = s.hpt ∧ (s.sendDrain e h).xlt = s.xlt ∧ (s.sendDrain e h).mat = s.mat ∧ (s.sendDrain e
    h).ram = s.ram ∧ (s.sendDrain e h).atu = s.atu ∧ (s.sendDrain e h).col = s.col ∧ (s.sendDrain e h).cnt = s.cnt ∧
    (s.sendDrain e h).mgt = s.mgt ∧ (s.sendDrain e h).lastRead = s.lastRead := by
  unfold State.sendDrain
  try dsimp only
  repeat' split
  all_goals simp [apply_ite State.part, apply_ite State.draws, apply_ite State.regs, apply_ite State.req, apply_ite State.flt,
    apply_ite State.lnk, apply_ite State.pwr, apply_ite State.tim, apply_ite State.xpt, apply_ite State.obj, apply_ite
    State.inj, apply_ite State.hpt, apply_ite State.xlt, apply_ite State.mat, apply_ite State.ram, apply_ite State.atu,
    apply_ite State.col, apply_ite State.cnt, apply_ite State.mgt, apply_ite State.lastRead]

@[simp] theorem State.drainFromLevel_frame (s : State) (e : Nat) (x0 : Nat) (x1 : Nat) :
    (s.drainFromLevel e x0 x1).part = s.part ∧ (s.drainFromLevel e x0 x1).draws = s.draws ∧ (s.drainFromLevel e x0 x1).regs =
    s.regs ∧ (s.drainFromLevel e x0 x1).req = s.req ∧ (s.drainFromLevel e x0 x1).flt = s.flt ∧ (s.drainFromLevel e x0 x1).lnk
    = s.lnk ∧ (s.drainFromLevel e x0 x1).pwr = s.pwr ∧ (s.drainFromLevel e x0 x1).tim = s.tim ∧ (s.drainFromLevel e x0 x1).xpt
    = s.xpt ∧ (s.drainFromLevel e x0 x1).obj = s.obj ∧ (s.drainFromLevel e x0 x1).inj = s.inj ∧ (s.drainFromLevel e x0 x1).hpt
    = s.hpt ∧ (s.drainFromLevel e x0 x1).xlt = s.xlt ∧ (s.drainFromLevel e x0 x1).mat = s.mat ∧ (s.drainFromLevel e x0 x1).ram
    = s.ram ∧ (s.drainFromLevel e x0 x1).atu = s.atu ∧ (s.drainFromLevel e x0 x1).col = s.col ∧ (s.drainFromLevel e x0 x1).cnt
    = s.cnt ∧ (s.drainFromLevel e x0 x1).mgt = s.mgt ∧ (s.drainFromLevel e x0 x1).lastRead = s.lastRead := by
  induction x0 generalizing s e x1 with
  | zero => unfold State.drainFromLevel; repeat' split
            all_goals simp
  | succ n_ ih_ =>
    unfold State.drainFromLevel
    repeat' split
    all_goals simp [ih_, apply_ite State.part, apply_ite State.draws, apply_ite State.regs, apply_ite State.req, apply_ite
      State.flt, apply_ite State.lnk, apply_ite State.pwr, apply_ite State.tim, apply_ite State.xpt, apply_ite State.obj,
      apply_ite State.inj, apply_ite State.hpt, apply_ite State.xlt, apply_ite State.mat, apply_ite State.ram, apply_ite
      State.atu, apply_ite State.col, apply_ite State.cnt, apply_ite State.mgt, apply_ite State.lastRead]

@[simp] theorem State.drainEpoch_frame (s : State) (e : Nat) :
    (s.drainEpoch e).part = s.part ∧ (s.drainEpoch e).draws = s.draws ∧ (s.drainEpoch e).req = s.req ∧ (s.drainEpoch e).flt =
    s.flt ∧ (s.drainEpoch e).lnk = s.lnk ∧ (s.drainEpoch e).pwr = s.pwr ∧ (s.drainEpoch e).tim = s.tim ∧ (s.drainEpoch e).xpt
    = s.xpt ∧ (s.drainEpoch e).obj = s.obj ∧ (s.drainEpoch e).inj = s.inj ∧ (s.drainEpoch e).hpt = s.hpt ∧ (s.drainEpoch
    e).xlt = s.xlt ∧ (s.drainEpoch e).mat = s.mat ∧ (s.drainEpoch e).ram = s.ram ∧ (s.drainEpoch e).atu = s.atu ∧
    (s.drainEpoch e).col = s.col ∧ (s.drainEpoch e).cnt = s.cnt ∧ (s.drainEpoch e).mgt = s.mgt ∧ (s.drainEpoch e).lastRead =
    s.lastRead := by
  unfold State.drainEpoch
  try dsimp only
  repeat' split
  all_goals simp [apply_ite State.part, apply_ite State.draws, apply_ite State.req, apply_ite State.flt, apply_ite State.lnk,
    apply_ite State.pwr, apply_ite State.tim, apply_ite State.xpt, apply_ite State.obj, apply_ite State.inj, apply_ite
    State.hpt, apply_ite State.xlt, apply_ite State.mat, apply_ite State.ram, apply_ite State.atu, apply_ite State.col,
    apply_ite State.cnt, apply_ite State.mgt, apply_ite State.lastRead]

@[simp] theorem State.drain_frame (s : State) :
    (s.drain).part = s.part ∧ (s.drain).draws = s.draws ∧ (s.drain).req = s.req ∧ (s.drain).flt = s.flt ∧ (s.drain).lnk =
    s.lnk ∧ (s.drain).pwr = s.pwr ∧ (s.drain).tim = s.tim ∧ (s.drain).xpt = s.xpt ∧ (s.drain).obj = s.obj ∧ (s.drain).inj =
    s.inj ∧ (s.drain).hpt = s.hpt ∧ (s.drain).xlt = s.xlt ∧ (s.drain).mat = s.mat ∧ (s.drain).ram = s.ram ∧ (s.drain).atu =
    s.atu ∧ (s.drain).col = s.col ∧ (s.drain).cnt = s.cnt ∧ (s.drain).mgt = s.mgt ∧ (s.drain).lastRead = s.lastRead := by
  unfold State.drain
  simp

@[simp] theorem State.dropStamped_frame (s : State) (e : Nat) :
    (s.dropStamped e).part = s.part ∧ (s.dropStamped e).draws = s.draws ∧ (s.dropStamped e).req = s.req ∧ (s.dropStamped
    e).flt = s.flt ∧ (s.dropStamped e).pwr = s.pwr ∧ (s.dropStamped e).tim = s.tim ∧ (s.dropStamped e).xpt = s.xpt ∧
    (s.dropStamped e).obj = s.obj ∧ (s.dropStamped e).inj = s.inj ∧ (s.dropStamped e).hpt = s.hpt ∧ (s.dropStamped e).xlt =
    s.xlt ∧ (s.dropStamped e).mat = s.mat ∧ (s.dropStamped e).ram = s.ram ∧ (s.dropStamped e).atu = s.atu ∧ (s.dropStamped
    e).col = s.col ∧ (s.dropStamped e).cnt = s.cnt ∧ (s.dropStamped e).mgt = s.mgt ∧ (s.dropStamped e).lastRead = s.lastRead
    := by
  unfold State.dropStamped
  simp

@[simp] theorem State.startHoldover_frame (s : State) :
    (s.startHoldover).part = s.part ∧ (s.startHoldover).draws = s.draws ∧ (s.startHoldover).req = s.req ∧
    (s.startHoldover).flt = s.flt ∧ (s.startHoldover).rt = s.rt ∧ (s.startHoldover).lnk = s.lnk ∧ (s.startHoldover).pwr =
    s.pwr ∧ (s.startHoldover).xpt = s.xpt ∧ (s.startHoldover).obj = s.obj ∧ (s.startHoldover).inj = s.inj ∧
    (s.startHoldover).hpt = s.hpt ∧ (s.startHoldover).xlt = s.xlt ∧ (s.startHoldover).mat = s.mat ∧ (s.startHoldover).ram =
    s.ram ∧ (s.startHoldover).atu = s.atu ∧ (s.startHoldover).col = s.col ∧ (s.startHoldover).cnt = s.cnt ∧
    (s.startHoldover).mgt = s.mgt ∧ (s.startHoldover).lastRead = s.lastRead := by
  unfold State.startHoldover
  simp

@[simp] theorem State.setTime_frame (s : State) (n : Nat) :
    (s.setTime n).part = s.part ∧ (s.setTime n).draws = s.draws ∧ (s.setTime n).req = s.req ∧ (s.setTime n).rt = s.rt ∧
    (s.setTime n).pwr = s.pwr ∧ (s.setTime n).xpt = s.xpt ∧ (s.setTime n).obj = s.obj ∧ (s.setTime n).inj = s.inj ∧ (s.setTime
    n).hpt = s.hpt ∧ (s.setTime n).xlt = s.xlt ∧ (s.setTime n).mat = s.mat ∧ (s.setTime n).ram = s.ram ∧ (s.setTime n).atu =
    s.atu ∧ (s.setTime n).col = s.col ∧ (s.setTime n).mgt = s.mgt ∧ (s.setTime n).lastRead = s.lastRead := by
  unfold State.setTime
  try dsimp only
  repeat' split
  all_goals simp [apply_ite State.part, apply_ite State.draws, apply_ite State.req, apply_ite State.rt, apply_ite State.pwr,
    apply_ite State.xpt, apply_ite State.obj, apply_ite State.inj, apply_ite State.hpt, apply_ite State.xlt, apply_ite
    State.mat, apply_ite State.ram, apply_ite State.atu, apply_ite State.col, apply_ite State.mgt, apply_ite State.lastRead]

@[simp] theorem State.setGood_frame (s : State) (n : Nat) :
    (s.setGood n).part = s.part ∧ (s.setGood n).draws = s.draws ∧ (s.setGood n).req = s.req ∧ (s.setGood n).flt = s.flt ∧
    (s.setGood n).rt = s.rt ∧ (s.setGood n).lnk = s.lnk ∧ (s.setGood n).pwr = s.pwr ∧ (s.setGood n).tim = s.tim ∧ (s.setGood
    n).xpt = s.xpt ∧ (s.setGood n).obj = s.obj ∧ (s.setGood n).inj = s.inj ∧ (s.setGood n).hpt = s.hpt ∧ (s.setGood n).xlt =
    s.xlt ∧ (s.setGood n).mat = s.mat ∧ (s.setGood n).ram = s.ram ∧ (s.setGood n).atu = s.atu ∧ (s.setGood n).col = s.col ∧
    (s.setGood n).cnt = s.cnt ∧ (s.setGood n).mgt = s.mgt ∧ (s.setGood n).lastRead = s.lastRead := by
  unfold State.setGood
  simp

@[simp] theorem State.parentLost_frame (s : State) :
    (s.parentLost).part = s.part ∧ (s.parentLost).draws = s.draws ∧ (s.parentLost).req = s.req ∧ (s.parentLost).rt = s.rt ∧
    (s.parentLost).pwr = s.pwr ∧ (s.parentLost).xpt = s.xpt ∧ (s.parentLost).obj = s.obj ∧ (s.parentLost).inj = s.inj ∧
    (s.parentLost).hpt = s.hpt ∧ (s.parentLost).xlt = s.xlt ∧ (s.parentLost).mat = s.mat ∧ (s.parentLost).ram = s.ram ∧
    (s.parentLost).atu = s.atu ∧ (s.parentLost).col = s.col ∧ (s.parentLost).mgt = s.mgt ∧ (s.parentLost).lastRead =
    s.lastRead := by
  unfold State.parentLost
  try dsimp only
  repeat' split
  all_goals simp [apply_ite State.part, apply_ite State.draws, apply_ite State.req, apply_ite State.rt, apply_ite State.pwr,
    apply_ite State.xpt, apply_ite State.obj, apply_ite State.inj, apply_ite State.hpt, apply_ite State.xlt, apply_ite
    State.mat, apply_ite State.ram, apply_ite State.atu, apply_ite State.col, apply_ite State.mgt, apply_ite State.lastRead]

@[simp] theorem State.parentCheck_frame (s : State) (p : Nat) :
    (s.parentCheck p).part = s.part ∧ (s.parentCheck p).draws = s.draws ∧ (s.parentCheck p).req = s.req ∧ (s.parentCheck p).rt
    = s.rt ∧ (s.parentCheck p).pwr = s.pwr ∧ (s.parentCheck p).xpt = s.xpt ∧ (s.parentCheck p).obj = s.obj ∧ (s.parentCheck
    p).inj = s.inj ∧ (s.parentCheck p).hpt = s.hpt ∧ (s.parentCheck p).xlt = s.xlt ∧ (s.parentCheck p).mat = s.mat ∧
    (s.parentCheck p).ram = s.ram ∧ (s.parentCheck p).atu = s.atu ∧ (s.parentCheck p).col = s.col ∧ (s.parentCheck p).mgt =
    s.mgt ∧ (s.parentCheck p).lastRead = s.lastRead := by
  unfold State.parentCheck
  try dsimp only
  repeat' split
  all_goals simp [apply_ite State.part, apply_ite State.draws, apply_ite State.req, apply_ite State.rt, apply_ite State.pwr,
    apply_ite State.xpt, apply_ite State.obj, apply_ite State.inj, apply_ite State.hpt, apply_ite State.xlt, apply_ite
    State.mat, apply_ite State.ram, apply_ite State.atu, apply_ite State.col, apply_ite State.mgt, apply_ite State.lastRead]

@[simp] theorem State.setSepoch_frame (s : State) (e n : Nat) :
    (s.setSepoch e n).part = s.part ∧ (s.setSepoch e n).draws = s.draws ∧ (s.setSepoch e n).req = s.req ∧ (s.setSepoch e
    n).flt = s.flt ∧ (s.setSepoch e n).rt = s.rt ∧ (s.setSepoch e n).lnk = s.lnk ∧ (s.setSepoch e n).pwr = s.pwr ∧
    (s.setSepoch e n).tim = s.tim ∧ (s.setSepoch e n).xpt = s.xpt ∧ (s.setSepoch e n).obj = s.obj ∧ (s.setSepoch e n).inj =
    s.inj ∧ (s.setSepoch e n).hpt = s.hpt ∧ (s.setSepoch e n).xlt = s.xlt ∧ (s.setSepoch e n).mat = s.mat ∧ (s.setSepoch e
    n).ram = s.ram ∧ (s.setSepoch e n).atu = s.atu ∧ (s.setSepoch e n).col = s.col ∧ (s.setSepoch e n).cnt = s.cnt ∧
    (s.setSepoch e n).mgt = s.mgt ∧ (s.setSepoch e n).lastRead = s.lastRead := by
  unfold State.setSepoch
  try dsimp only
  repeat' split
  all_goals simp [apply_ite State.part, apply_ite State.draws, apply_ite State.req, apply_ite State.flt, apply_ite State.rt,
    apply_ite State.lnk, apply_ite State.pwr, apply_ite State.tim, apply_ite State.xpt, apply_ite State.obj, apply_ite
    State.inj, apply_ite State.hpt, apply_ite State.xlt, apply_ite State.mat, apply_ite State.ram, apply_ite State.atu,
    apply_ite State.col, apply_ite State.cnt, apply_ite State.mgt, apply_ite State.lastRead]

@[simp] theorem State.setXrec_frame (s : State) (e n : Nat) (r : XRec) :
    (s.setXrec e n r).part = s.part ∧ (s.setXrec e n r).draws = s.draws ∧ (s.setXrec e n r).regs = s.regs ∧ (s.setXrec e n
    r).req = s.req ∧ (s.setXrec e n r).flt = s.flt ∧ (s.setXrec e n r).rt = s.rt ∧ (s.setXrec e n r).lnk = s.lnk ∧ (s.setXrec
    e n r).pwr = s.pwr ∧ (s.setXrec e n r).xpt = s.xpt ∧ (s.setXrec e n r).obj = s.obj ∧ (s.setXrec e n r).inj = s.inj ∧
    (s.setXrec e n r).hpt = s.hpt ∧ (s.setXrec e n r).xlt = s.xlt ∧ (s.setXrec e n r).mat = s.mat ∧ (s.setXrec e n r).ram =
    s.ram ∧ (s.setXrec e n r).atu = s.atu ∧ (s.setXrec e n r).col = s.col ∧ (s.setXrec e n r).cnt = s.cnt ∧ (s.setXrec e n
    r).mgt = s.mgt ∧ (s.setXrec e n r).lastRead = s.lastRead := by
  unfold State.setXrec
  simp

@[simp] theorem State.backupSwitch_frame (s : State) (e n : Nat) :
    (s.backupSwitch e n).part = s.part ∧ (s.backupSwitch e n).draws = s.draws ∧ (s.backupSwitch e n).req = s.req ∧
    (s.backupSwitch e n).rt = s.rt ∧ (s.backupSwitch e n).pwr = s.pwr ∧ (s.backupSwitch e n).xpt = s.xpt ∧ (s.backupSwitch e
    n).obj = s.obj ∧ (s.backupSwitch e n).inj = s.inj ∧ (s.backupSwitch e n).hpt = s.hpt ∧ (s.backupSwitch e n).xlt = s.xlt ∧
    (s.backupSwitch e n).mat = s.mat ∧ (s.backupSwitch e n).ram = s.ram ∧ (s.backupSwitch e n).atu = s.atu ∧ (s.backupSwitch e
    n).col = s.col ∧ (s.backupSwitch e n).mgt = s.mgt ∧ (s.backupSwitch e n).lastRead = s.lastRead := by
  unfold State.backupSwitch
  try dsimp only
  repeat' split
  all_goals simp [apply_ite State.part, apply_ite State.draws, apply_ite State.req, apply_ite State.rt, apply_ite State.pwr,
    apply_ite State.xpt, apply_ite State.obj, apply_ite State.inj, apply_ite State.hpt, apply_ite State.xlt, apply_ite
    State.mat, apply_ite State.ram, apply_ite State.atu, apply_ite State.col, apply_ite State.mgt, apply_ite State.lastRead]

@[simp] theorem State.backupFailed_frame (s : State) (e n : Nat) :
    (s.backupFailed e n).part = s.part ∧ (s.backupFailed e n).draws = s.draws ∧ (s.backupFailed e n).req = s.req ∧
    (s.backupFailed e n).rt = s.rt ∧ (s.backupFailed e n).pwr = s.pwr ∧ (s.backupFailed e n).xpt = s.xpt ∧ (s.backupFailed e
    n).obj = s.obj ∧ (s.backupFailed e n).inj = s.inj ∧ (s.backupFailed e n).hpt = s.hpt ∧ (s.backupFailed e n).xlt = s.xlt ∧
    (s.backupFailed e n).mat = s.mat ∧ (s.backupFailed e n).ram = s.ram ∧ (s.backupFailed e n).atu = s.atu ∧ (s.backupFailed e
    n).col = s.col ∧ (s.backupFailed e n).mgt = s.mgt ∧ (s.backupFailed e n).lastRead = s.lastRead := by
  unfold State.backupFailed
  try dsimp only
  repeat' split
  all_goals simp [apply_ite State.part, apply_ite State.draws, apply_ite State.req, apply_ite State.rt, apply_ite State.pwr,
    apply_ite State.xpt, apply_ite State.obj, apply_ite State.inj, apply_ite State.hpt, apply_ite State.xlt, apply_ite
    State.mat, apply_ite State.ram, apply_ite State.atu, apply_ite State.col, apply_ite State.mgt, apply_ite State.lastRead]

@[simp] theorem State.reportDown_frame (s : State) (src e k p : Nat) :
    (s.reportDown src e k p).part = s.part ∧ (s.reportDown src e k p).regs = s.regs ∧ (s.reportDown src e k p).req = s.req ∧
    (s.reportDown src e k p).flt = s.flt ∧ (s.reportDown src e k p).lnk = s.lnk ∧ (s.reportDown src e k p).pwr = s.pwr ∧
    (s.reportDown src e k p).tim = s.tim ∧ (s.reportDown src e k p).xpt = s.xpt ∧ (s.reportDown src e k p).obj = s.obj ∧
    (s.reportDown src e k p).inj = s.inj ∧ (s.reportDown src e k p).hpt = s.hpt ∧ (s.reportDown src e k p).xlt = s.xlt ∧
    (s.reportDown src e k p).mat = s.mat ∧ (s.reportDown src e k p).ram = s.ram ∧ (s.reportDown src e k p).atu = s.atu ∧
    (s.reportDown src e k p).col = s.col ∧ (s.reportDown src e k p).cnt = s.cnt ∧ (s.reportDown src e k p).mgt = s.mgt ∧
    (s.reportDown src e k p).lastRead = s.lastRead := by
  unfold State.reportDown
  try dsimp only
  repeat' split
  all_goals simp [apply_ite State.part, apply_ite State.regs, apply_ite State.req, apply_ite State.flt, apply_ite State.lnk,
    apply_ite State.pwr, apply_ite State.tim, apply_ite State.xpt, apply_ite State.obj, apply_ite State.inj, apply_ite
    State.hpt, apply_ite State.xlt, apply_ite State.mat, apply_ite State.ram, apply_ite State.atu, apply_ite State.col,
    apply_ite State.cnt, apply_ite State.mgt, apply_ite State.lastRead]

@[simp] theorem State.transitLinkLost_frame (s : State) (p : Nat) :
    (s.transitLinkLost p).part = s.part ∧ (s.transitLinkLost p).req = s.req ∧ (s.transitLinkLost p).pwr = s.pwr ∧
    (s.transitLinkLost p).xpt = s.xpt ∧ (s.transitLinkLost p).obj = s.obj ∧ (s.transitLinkLost p).inj = s.inj ∧
    (s.transitLinkLost p).hpt = s.hpt ∧ (s.transitLinkLost p).xlt = s.xlt ∧ (s.transitLinkLost p).mat = s.mat ∧
    (s.transitLinkLost p).ram = s.ram ∧ (s.transitLinkLost p).atu = s.atu ∧ (s.transitLinkLost p).col = s.col ∧
    (s.transitLinkLost p).mgt = s.mgt ∧ (s.transitLinkLost p).lastRead = s.lastRead := by
  unfold State.transitLinkLost
  try dsimp only
  repeat' split
  all_goals simp

@[simp] theorem State.rememberWindow_frame (s : State) (p src e k : Nat) :
    (s.rememberWindow p src e k).part = s.part ∧ (s.rememberWindow p src e k).draws = s.draws ∧ (s.rememberWindow p src e
    k).regs = s.regs ∧ (s.rememberWindow p src e k).req = s.req ∧ (s.rememberWindow p src e k).flt = s.flt ∧ (s.rememberWindow
    p src e k).rt = s.rt ∧ (s.rememberWindow p src e k).lnk = s.lnk ∧ (s.rememberWindow p src e k).pwr = s.pwr ∧
    (s.rememberWindow p src e k).xpt = s.xpt ∧ (s.rememberWindow p src e k).obj = s.obj ∧ (s.rememberWindow p src e k).inj =
    s.inj ∧ (s.rememberWindow p src e k).hpt = s.hpt ∧ (s.rememberWindow p src e k).xlt = s.xlt ∧ (s.rememberWindow p src e
    k).mat = s.mat ∧ (s.rememberWindow p src e k).ram = s.ram ∧ (s.rememberWindow p src e k).atu = s.atu ∧ (s.rememberWindow p
    src e k).col = s.col ∧ (s.rememberWindow p src e k).cnt = s.cnt ∧ (s.rememberWindow p src e k).mgt = s.mgt ∧
    (s.rememberWindow p src e k).lastRead = s.lastRead := by
  unfold State.rememberWindow
  simp

@[simp] theorem State.markLater_frame (s : State) (p t d : Nat) :
    (s.markLater p t d).part = s.part ∧ (s.markLater p t d).draws = s.draws ∧ (s.markLater p t d).regs = s.regs ∧ (s.markLater
    p t d).req = s.req ∧ (s.markLater p t d).flt = s.flt ∧ (s.markLater p t d).rt = s.rt ∧ (s.markLater p t d).lnk = s.lnk ∧
    (s.markLater p t d).pwr = s.pwr ∧ (s.markLater p t d).xpt = s.xpt ∧ (s.markLater p t d).obj = s.obj ∧ (s.markLater p t
    d).inj = s.inj ∧ (s.markLater p t d).hpt = s.hpt ∧ (s.markLater p t d).xlt = s.xlt ∧ (s.markLater p t d).mat = s.mat ∧
    (s.markLater p t d).ram = s.ram ∧ (s.markLater p t d).atu = s.atu ∧ (s.markLater p t d).col = s.col ∧ (s.markLater p t
    d).cnt = s.cnt ∧ (s.markLater p t d).mgt = s.mgt ∧ (s.markLater p t d).lastRead = s.lastRead := by
  unfold State.markLater
  simp

@[simp] theorem State.modTile_frame (s : State) (t : Nat) (f : TilePwr → TilePwr) :
    (s.modTile t f).part = s.part ∧ (s.modTile t f).draws = s.draws ∧ (s.modTile t f).regs = s.regs ∧ (s.modTile t f).req =
    s.req ∧ (s.modTile t f).flt = s.flt ∧ (s.modTile t f).rt = s.rt ∧ (s.modTile t f).lnk = s.lnk ∧ (s.modTile t f).tim =
    s.tim ∧ (s.modTile t f).xpt = s.xpt ∧ (s.modTile t f).obj = s.obj ∧ (s.modTile t f).inj = s.inj ∧ (s.modTile t f).hpt =
    s.hpt ∧ (s.modTile t f).xlt = s.xlt ∧ (s.modTile t f).mat = s.mat ∧ (s.modTile t f).ram = s.ram ∧ (s.modTile t f).atu =
    s.atu ∧ (s.modTile t f).col = s.col ∧ (s.modTile t f).cnt = s.cnt ∧ (s.modTile t f).mgt = s.mgt ∧ (s.modTile t f).lastRead
    = s.lastRead := by
  unfold State.modTile
  simp

@[simp] theorem State.startPll_frame (s : State) :
    (s.startPll).part = s.part ∧ (s.startPll).draws = s.draws ∧ (s.startPll).regs = s.regs ∧ (s.startPll).req = s.req ∧
    (s.startPll).flt = s.flt ∧ (s.startPll).rt = s.rt ∧ (s.startPll).lnk = s.lnk ∧ (s.startPll).tim = s.tim ∧ (s.startPll).xpt
    = s.xpt ∧ (s.startPll).obj = s.obj ∧ (s.startPll).inj = s.inj ∧ (s.startPll).hpt = s.hpt ∧ (s.startPll).xlt = s.xlt ∧
    (s.startPll).mat = s.mat ∧ (s.startPll).ram = s.ram ∧ (s.startPll).atu = s.atu ∧ (s.startPll).col = s.col ∧
    (s.startPll).cnt = s.cnt ∧ (s.startPll).mgt = s.mgt ∧ (s.startPll).lastRead = s.lastRead := by
  unfold State.startPll
  try dsimp only
  repeat' split
  all_goals simp [apply_ite State.part, apply_ite State.draws, apply_ite State.regs, apply_ite State.req, apply_ite State.flt,
    apply_ite State.rt, apply_ite State.lnk, apply_ite State.tim, apply_ite State.xpt, apply_ite State.obj, apply_ite
    State.inj, apply_ite State.hpt, apply_ite State.xlt, apply_ite State.mat, apply_ite State.ram, apply_ite State.atu,
    apply_ite State.col, apply_ite State.cnt, apply_ite State.mgt, apply_ite State.lastRead]

@[simp] theorem State.startSeq_frame (s : State) (t q target final cause : Nat) :
    (s.startSeq t q target final cause).part = s.part ∧ (s.startSeq t q target final cause).draws = s.draws ∧ (s.startSeq t q
    target final cause).req = s.req ∧ (s.startSeq t q target final cause).flt = s.flt ∧ (s.startSeq t q target final cause).rt
    = s.rt ∧ (s.startSeq t q target final cause).lnk = s.lnk ∧ (s.startSeq t q target final cause).tim = s.tim ∧ (s.startSeq t
    q target final cause).xpt = s.xpt ∧ (s.startSeq t q target final cause).obj = s.obj ∧ (s.startSeq t q target final
    cause).inj = s.inj ∧ (s.startSeq t q target final cause).hpt = s.hpt ∧ (s.startSeq t q target final cause).xlt = s.xlt ∧
    (s.startSeq t q target final cause).mat = s.mat ∧ (s.startSeq t q target final cause).ram = s.ram ∧ (s.startSeq t q target
    final cause).atu = s.atu ∧ (s.startSeq t q target final cause).col = s.col ∧ (s.startSeq t q target final cause).cnt =
    s.cnt ∧ (s.startSeq t q target final cause).mgt = s.mgt ∧ (s.startSeq t q target final cause).lastRead = s.lastRead := by
  unfold State.startSeq
  try dsimp only
  repeat' split
  all_goals simp [apply_ite State.part, apply_ite State.draws, apply_ite State.req, apply_ite State.flt, apply_ite State.rt,
    apply_ite State.lnk, apply_ite State.tim, apply_ite State.xpt, apply_ite State.obj, apply_ite State.inj, apply_ite
    State.hpt, apply_ite State.xlt, apply_ite State.mat, apply_ite State.ram, apply_ite State.atu, apply_ite State.col,
    apply_ite State.cnt, apply_ite State.mgt, apply_ite State.lastRead]

@[simp] theorem State.startExit_frame (s : State) (t final cause : Nat) :
    (s.startExit t final cause).part = s.part ∧ (s.startExit t final cause).draws = s.draws ∧ (s.startExit t final cause).req
    = s.req ∧ (s.startExit t final cause).flt = s.flt ∧ (s.startExit t final cause).rt = s.rt ∧ (s.startExit t final
    cause).lnk = s.lnk ∧ (s.startExit t final cause).tim = s.tim ∧ (s.startExit t final cause).xpt = s.xpt ∧ (s.startExit t
    final cause).obj = s.obj ∧ (s.startExit t final cause).inj = s.inj ∧ (s.startExit t final cause).hpt = s.hpt ∧
    (s.startExit t final cause).xlt = s.xlt ∧ (s.startExit t final cause).mat = s.mat ∧ (s.startExit t final cause).ram =
    s.ram ∧ (s.startExit t final cause).atu = s.atu ∧ (s.startExit t final cause).col = s.col ∧ (s.startExit t final
    cause).cnt = s.cnt ∧ (s.startExit t final cause).mgt = s.mgt ∧ (s.startExit t final cause).lastRead = s.lastRead := by
  unfold State.startExit
  try dsimp only
  repeat' split
  all_goals simp [apply_ite State.part, apply_ite State.draws, apply_ite State.req, apply_ite State.flt, apply_ite State.rt,
    apply_ite State.lnk, apply_ite State.tim, apply_ite State.xpt, apply_ite State.obj, apply_ite State.inj, apply_ite
    State.hpt, apply_ite State.xlt, apply_ite State.mat, apply_ite State.ram, apply_ite State.atu, apply_ite State.col,
    apply_ite State.cnt, apply_ite State.mgt, apply_ite State.lastRead]

@[simp] theorem State.latchReq_frame (s : State) (t r : Nat) (wake : Option Nat) :
    (s.latchReq t r wake).part = s.part ∧ (s.latchReq t r wake).draws = s.draws ∧ (s.latchReq t r wake).req = s.req ∧
    (s.latchReq t r wake).flt = s.flt ∧ (s.latchReq t r wake).rt = s.rt ∧ (s.latchReq t r wake).lnk = s.lnk ∧ (s.latchReq t r
    wake).tim = s.tim ∧ (s.latchReq t r wake).xpt = s.xpt ∧ (s.latchReq t r wake).obj = s.obj ∧ (s.latchReq t r wake).inj =
    s.inj ∧ (s.latchReq t r wake).hpt = s.hpt ∧ (s.latchReq t r wake).xlt = s.xlt ∧ (s.latchReq t r wake).mat = s.mat ∧
    (s.latchReq t r wake).ram = s.ram ∧ (s.latchReq t r wake).atu = s.atu ∧ (s.latchReq t r wake).col = s.col ∧ (s.latchReq t
    r wake).cnt = s.cnt ∧ (s.latchReq t r wake).mgt = s.mgt ∧ (s.latchReq t r wake).lastRead = s.lastRead := by
  unfold State.latchReq
  try dsimp only
  repeat' split
  all_goals simp [apply_ite State.part, apply_ite State.draws, apply_ite State.req, apply_ite State.flt, apply_ite State.rt,
    apply_ite State.lnk, apply_ite State.tim, apply_ite State.xpt, apply_ite State.obj, apply_ite State.inj, apply_ite
    State.hpt, apply_ite State.xlt, apply_ite State.mat, apply_ite State.ram, apply_ite State.atu, apply_ite State.col,
    apply_ite State.cnt, apply_ite State.mgt, apply_ite State.lastRead]

@[simp] theorem State.wakeEvent_frame (s : State) (t cause : Nat) :
    (s.wakeEvent t cause).part = s.part ∧ (s.wakeEvent t cause).draws = s.draws ∧ (s.wakeEvent t cause).req = s.req ∧
    (s.wakeEvent t cause).flt = s.flt ∧ (s.wakeEvent t cause).rt = s.rt ∧ (s.wakeEvent t cause).lnk = s.lnk ∧ (s.wakeEvent t
    cause).tim = s.tim ∧ (s.wakeEvent t cause).xpt = s.xpt ∧ (s.wakeEvent t cause).obj = s.obj ∧ (s.wakeEvent t cause).inj =
    s.inj ∧ (s.wakeEvent t cause).hpt = s.hpt ∧ (s.wakeEvent t cause).xlt = s.xlt ∧ (s.wakeEvent t cause).mat = s.mat ∧
    (s.wakeEvent t cause).ram = s.ram ∧ (s.wakeEvent t cause).atu = s.atu ∧ (s.wakeEvent t cause).col = s.col ∧ (s.wakeEvent t
    cause).cnt = s.cnt ∧ (s.wakeEvent t cause).mgt = s.mgt ∧ (s.wakeEvent t cause).lastRead = s.lastRead := by
  unfold State.wakeEvent
  try dsimp only
  repeat' split
  all_goals simp [apply_ite State.part, apply_ite State.draws, apply_ite State.req, apply_ite State.flt, apply_ite State.rt,
    apply_ite State.lnk, apply_ite State.tim, apply_ite State.xpt, apply_ite State.obj, apply_ite State.inj, apply_ite
    State.hpt, apply_ite State.xlt, apply_ite State.mat, apply_ite State.ram, apply_ite State.atu, apply_ite State.col,
    apply_ite State.cnt, apply_ite State.mgt, apply_ite State.lastRead]

@[simp] theorem State.wakeQueue_frame (s : State) (q : Nat) :
    (s.wakeQueue q).part = s.part ∧ (s.wakeQueue q).draws = s.draws ∧ (s.wakeQueue q).req = s.req ∧ (s.wakeQueue q).flt =
    s.flt ∧ (s.wakeQueue q).rt = s.rt ∧ (s.wakeQueue q).lnk = s.lnk ∧ (s.wakeQueue q).tim = s.tim ∧ (s.wakeQueue q).xpt =
    s.xpt ∧ (s.wakeQueue q).obj = s.obj ∧ (s.wakeQueue q).inj = s.inj ∧ (s.wakeQueue q).hpt = s.hpt ∧ (s.wakeQueue q).xlt =
    s.xlt ∧ (s.wakeQueue q).mat = s.mat ∧ (s.wakeQueue q).ram = s.ram ∧ (s.wakeQueue q).atu = s.atu ∧ (s.wakeQueue q).col =
    s.col ∧ (s.wakeQueue q).cnt = s.cnt ∧ (s.wakeQueue q).mgt = s.mgt ∧ (s.wakeQueue q).lastRead = s.lastRead := by
  unfold State.wakeQueue
  simp

@[simp] theorem State.needTile_frame (s : State) (t : Nat) :
    (s.needTile t).part = s.part ∧ (s.needTile t).draws = s.draws ∧ (s.needTile t).req = s.req ∧ (s.needTile t).flt = s.flt ∧
    (s.needTile t).rt = s.rt ∧ (s.needTile t).lnk = s.lnk ∧ (s.needTile t).tim = s.tim ∧ (s.needTile t).xpt = s.xpt ∧
    (s.needTile t).obj = s.obj ∧ (s.needTile t).inj = s.inj ∧ (s.needTile t).hpt = s.hpt ∧ (s.needTile t).xlt = s.xlt ∧
    (s.needTile t).mat = s.mat ∧ (s.needTile t).ram = s.ram ∧ (s.needTile t).atu = s.atu ∧ (s.needTile t).col = s.col ∧
    (s.needTile t).cnt = s.cnt ∧ (s.needTile t).mgt = s.mgt ∧ (s.needTile t).lastRead = s.lastRead := by
  unfold State.needTile
  try dsimp only
  repeat' split
  all_goals simp [apply_ite State.part, apply_ite State.draws, apply_ite State.req, apply_ite State.flt, apply_ite State.rt,
    apply_ite State.lnk, apply_ite State.tim, apply_ite State.xpt, apply_ite State.obj, apply_ite State.inj, apply_ite
    State.hpt, apply_ite State.xlt, apply_ite State.mat, apply_ite State.ram, apply_ite State.atu, apply_ite State.col,
    apply_ite State.cnt, apply_ite State.mgt, apply_ite State.lastRead]

@[simp] theorem State.takeEngine_frame (s : State) (x : EngTask) :
    (s.takeEngine x).part = s.part ∧ (s.takeEngine x).draws = s.draws ∧ (s.takeEngine x).regs = s.regs ∧ (s.takeEngine x).req
    = s.req ∧ (s.takeEngine x).flt = s.flt ∧ (s.takeEngine x).rt = s.rt ∧ (s.takeEngine x).lnk = s.lnk ∧ (s.takeEngine x).tim
    = s.tim ∧ (s.takeEngine x).xpt = s.xpt ∧ (s.takeEngine x).obj = s.obj ∧ (s.takeEngine x).inj = s.inj ∧ (s.takeEngine
    x).hpt = s.hpt ∧ (s.takeEngine x).xlt = s.xlt ∧ (s.takeEngine x).mat = s.mat ∧ (s.takeEngine x).ram = s.ram ∧
    (s.takeEngine x).atu = s.atu ∧ (s.takeEngine x).col = s.col ∧ (s.takeEngine x).mgt = s.mgt ∧ (s.takeEngine x).lastRead =
    s.lastRead := by
  unfold State.takeEngine
  try dsimp only
  repeat' split
  all_goals simp [apply_ite State.part, apply_ite State.draws, apply_ite State.regs, apply_ite State.req, apply_ite State.flt,
    apply_ite State.rt, apply_ite State.lnk, apply_ite State.tim, apply_ite State.xpt, apply_ite State.obj, apply_ite
    State.inj, apply_ite State.hpt, apply_ite State.xlt, apply_ite State.mat, apply_ite State.ram, apply_ite State.atu,
    apply_ite State.col, apply_ite State.mgt, apply_ite State.lastRead]

@[simp] theorem State.dispatch_frame (s : State) (t : Nat) :
    (s.dispatch t).part = s.part ∧ (s.dispatch t).draws = s.draws ∧ (s.dispatch t).regs = s.regs ∧ (s.dispatch t).req = s.req
    ∧ (s.dispatch t).flt = s.flt ∧ (s.dispatch t).rt = s.rt ∧ (s.dispatch t).lnk = s.lnk ∧ (s.dispatch t).tim = s.tim ∧
    (s.dispatch t).xpt = s.xpt ∧ (s.dispatch t).obj = s.obj ∧ (s.dispatch t).inj = s.inj ∧ (s.dispatch t).hpt = s.hpt ∧
    (s.dispatch t).xlt = s.xlt ∧ (s.dispatch t).mat = s.mat ∧ (s.dispatch t).ram = s.ram ∧ (s.dispatch t).atu = s.atu ∧
    (s.dispatch t).col = s.col ∧ (s.dispatch t).mgt = s.mgt ∧ (s.dispatch t).lastRead = s.lastRead := by
  unfold State.dispatch
  simp

@[simp] theorem State.taskStart_frame (s : State) (t : Nat) (k : TaskId) :
    (s.taskStart t k).part = s.part ∧ (s.taskStart t k).req = s.req ∧ (s.taskStart t k).flt = s.flt ∧ (s.taskStart t k).rt =
    s.rt ∧ (s.taskStart t k).lnk = s.lnk ∧ (s.taskStart t k).tim = s.tim ∧ (s.taskStart t k).xpt = s.xpt ∧ (s.taskStart t
    k).obj = s.obj ∧ (s.taskStart t k).inj = s.inj ∧ (s.taskStart t k).hpt = s.hpt ∧ (s.taskStart t k).xlt = s.xlt ∧
    (s.taskStart t k).mat = s.mat ∧ (s.taskStart t k).ram = s.ram ∧ (s.taskStart t k).atu = s.atu ∧ (s.taskStart t k).col =
    s.col ∧ (s.taskStart t k).mgt = s.mgt ∧ (s.taskStart t k).lastRead = s.lastRead := by
  unfold State.taskStart
  try dsimp only
  repeat' split
  all_goals simp [apply_ite State.part, apply_ite State.req, apply_ite State.flt, apply_ite State.rt, apply_ite State.lnk,
    apply_ite State.tim, apply_ite State.xpt, apply_ite State.obj, apply_ite State.inj, apply_ite State.hpt, apply_ite
    State.xlt, apply_ite State.mat, apply_ite State.ram, apply_ite State.atu, apply_ite State.col, apply_ite State.mgt,
    apply_ite State.lastRead]

@[simp] theorem State.taskEnd_frame (s : State) (k : TaskId) :
    (s.taskEnd k).part = s.part ∧ (s.taskEnd k).draws = s.draws ∧ (s.taskEnd k).regs = s.regs ∧ (s.taskEnd k).req = s.req ∧
    (s.taskEnd k).flt = s.flt ∧ (s.taskEnd k).rt = s.rt ∧ (s.taskEnd k).lnk = s.lnk ∧ (s.taskEnd k).tim = s.tim ∧ (s.taskEnd
    k).xpt = s.xpt ∧ (s.taskEnd k).obj = s.obj ∧ (s.taskEnd k).inj = s.inj ∧ (s.taskEnd k).hpt = s.hpt ∧ (s.taskEnd k).xlt =
    s.xlt ∧ (s.taskEnd k).mat = s.mat ∧ (s.taskEnd k).ram = s.ram ∧ (s.taskEnd k).atu = s.atu ∧ (s.taskEnd k).col = s.col ∧
    (s.taskEnd k).mgt = s.mgt ∧ (s.taskEnd k).lastRead = s.lastRead := by
  unfold State.taskEnd
  try dsimp only
  repeat' split
  all_goals simp

@[simp] theorem State.taskOnce_frame (s : State) (t : Nat) :
    (s.taskOnce t).part = s.part ∧ (s.taskOnce t).draws = s.draws ∧ (s.taskOnce t).regs = s.regs ∧ (s.taskOnce t).req = s.req
    ∧ (s.taskOnce t).flt = s.flt ∧ (s.taskOnce t).rt = s.rt ∧ (s.taskOnce t).lnk = s.lnk ∧ (s.taskOnce t).pwr = s.pwr ∧
    (s.taskOnce t).tim = s.tim ∧ (s.taskOnce t).xpt = s.xpt ∧ (s.taskOnce t).obj = s.obj ∧ (s.taskOnce t).inj = s.inj ∧
    (s.taskOnce t).hpt = s.hpt ∧ (s.taskOnce t).xlt = s.xlt ∧ (s.taskOnce t).mat = s.mat ∧ (s.taskOnce t).ram = s.ram ∧
    (s.taskOnce t).atu = s.atu ∧ (s.taskOnce t).col = s.col ∧ (s.taskOnce t).mgt = s.mgt ∧ (s.taskOnce t).lastRead =
    s.lastRead := by
  unfold State.taskOnce
  simp

@[simp] theorem State.laneWake_frame (s : State) (l cause : Nat) :
    (s.laneWake l cause).part = s.part ∧ (s.laneWake l cause).draws = s.draws ∧ (s.laneWake l cause).req = s.req ∧ (s.laneWake
    l cause).flt = s.flt ∧ (s.laneWake l cause).rt = s.rt ∧ (s.laneWake l cause).lnk = s.lnk ∧ (s.laneWake l cause).tim =
    s.tim ∧ (s.laneWake l cause).xpt = s.xpt ∧ (s.laneWake l cause).obj = s.obj ∧ (s.laneWake l cause).inj = s.inj ∧
    (s.laneWake l cause).hpt = s.hpt ∧ (s.laneWake l cause).xlt = s.xlt ∧ (s.laneWake l cause).mat = s.mat ∧ (s.laneWake l
    cause).ram = s.ram ∧ (s.laneWake l cause).atu = s.atu ∧ (s.laneWake l cause).col = s.col ∧ (s.laneWake l cause).cnt =
    s.cnt ∧ (s.laneWake l cause).mgt = s.mgt ∧ (s.laneWake l cause).lastRead = s.lastRead := by
  unfold State.laneWake
  try dsimp only
  repeat' split
  all_goals simp [apply_ite State.part, apply_ite State.draws, apply_ite State.req, apply_ite State.flt, apply_ite State.rt,
    apply_ite State.lnk, apply_ite State.tim, apply_ite State.xpt, apply_ite State.obj, apply_ite State.inj, apply_ite
    State.hpt, apply_ite State.xlt, apply_ite State.mat, apply_ite State.ram, apply_ite State.atu, apply_ite State.col,
    apply_ite State.cnt, apply_ite State.mgt, apply_ite State.lastRead]

@[simp] theorem State.pllCheck_frame (s : State) :
    (s.pllCheck).part = s.part ∧ (s.pllCheck).draws = s.draws ∧ (s.pllCheck).req = s.req ∧ (s.pllCheck).flt = s.flt ∧
    (s.pllCheck).rt = s.rt ∧ (s.pllCheck).lnk = s.lnk ∧ (s.pllCheck).pwr = s.pwr ∧ (s.pllCheck).tim = s.tim ∧ (s.pllCheck).xpt
    = s.xpt ∧ (s.pllCheck).obj = s.obj ∧ (s.pllCheck).inj = s.inj ∧ (s.pllCheck).hpt = s.hpt ∧ (s.pllCheck).xlt = s.xlt ∧
    (s.pllCheck).mat = s.mat ∧ (s.pllCheck).ram = s.ram ∧ (s.pllCheck).atu = s.atu ∧ (s.pllCheck).col = s.col ∧
    (s.pllCheck).cnt = s.cnt ∧ (s.pllCheck).mgt = s.mgt ∧ (s.pllCheck).lastRead = s.lastRead := by
  unfold State.pllCheck
  try dsimp only
  repeat' split
  all_goals simp [apply_ite State.part, apply_ite State.draws, apply_ite State.req, apply_ite State.flt, apply_ite State.rt,
    apply_ite State.lnk, apply_ite State.pwr, apply_ite State.tim, apply_ite State.xpt, apply_ite State.obj, apply_ite
    State.inj, apply_ite State.hpt, apply_ite State.xlt, apply_ite State.mat, apply_ite State.ram, apply_ite State.atu,
    apply_ite State.col, apply_ite State.cnt, apply_ite State.mgt, apply_ite State.lastRead]

@[simp] theorem State.modInst_frame (s : State) (i : Nat) (f : Inst → Inst) :
    (s.modInst i f).part = s.part ∧ (s.modInst i f).draws = s.draws ∧ (s.modInst i f).regs = s.regs ∧ (s.modInst i f).req =
    s.req ∧ (s.modInst i f).flt = s.flt ∧ (s.modInst i f).rt = s.rt ∧ (s.modInst i f).lnk = s.lnk ∧ (s.modInst i f).pwr =
    s.pwr ∧ (s.modInst i f).tim = s.tim ∧ (s.modInst i f).xpt = s.xpt ∧ (s.modInst i f).inj = s.inj ∧ (s.modInst i f).hpt =
    s.hpt ∧ (s.modInst i f).xlt = s.xlt ∧ (s.modInst i f).mat = s.mat ∧ (s.modInst i f).ram = s.ram ∧ (s.modInst i f).atu =
    s.atu ∧ (s.modInst i f).col = s.col ∧ (s.modInst i f).cnt = s.cnt ∧ (s.modInst i f).mgt = s.mgt ∧ (s.modInst i f).lastRead
    = s.lastRead := by
  unfold State.modInst
  simp

@[simp] theorem State.countIssued_frame (s : State) (o : HostOut) :
    (s.countIssued o).part = s.part ∧ (s.countIssued o).draws = s.draws ∧ (s.countIssued o).regs = s.regs ∧ (s.countIssued
    o).req = s.req ∧ (s.countIssued o).flt = s.flt ∧ (s.countIssued o).rt = s.rt ∧ (s.countIssued o).lnk = s.lnk ∧
    (s.countIssued o).pwr = s.pwr ∧ (s.countIssued o).tim = s.tim ∧ (s.countIssued o).xpt = s.xpt ∧ (s.countIssued o).obj =
    s.obj ∧ (s.countIssued o).inj = s.inj ∧ (s.countIssued o).hpt = s.hpt ∧ (s.countIssued o).xlt = s.xlt ∧ (s.countIssued
    o).mat = s.mat ∧ (s.countIssued o).ram = s.ram ∧ (s.countIssued o).atu = s.atu ∧ (s.countIssued o).col = s.col ∧
    (s.countIssued o).mgt = s.mgt ∧ (s.countIssued o).lastRead = s.lastRead := by
  unfold State.countIssued
  try dsimp only
  repeat' split
  all_goals simp [apply_ite State.part, apply_ite State.draws, apply_ite State.regs, apply_ite State.req, apply_ite State.flt,
    apply_ite State.rt, apply_ite State.lnk, apply_ite State.pwr, apply_ite State.tim, apply_ite State.xpt, apply_ite
    State.obj, apply_ite State.inj, apply_ite State.hpt, apply_ite State.xlt, apply_ite State.mat, apply_ite State.ram,
    apply_ite State.atu, apply_ite State.col, apply_ite State.mgt, apply_ite State.lastRead]

@[simp] theorem State.sendOut_frame (s : State) (o : HostOut) :
    (s.sendOut o).part = s.part ∧ (s.sendOut o).draws = s.draws ∧ (s.sendOut o).regs = s.regs ∧ (s.sendOut o).req = s.req ∧
    (s.sendOut o).flt = s.flt ∧ (s.sendOut o).rt = s.rt ∧ (s.sendOut o).lnk = s.lnk ∧ (s.sendOut o).pwr = s.pwr ∧ (s.sendOut
    o).tim = s.tim ∧ (s.sendOut o).xpt = s.xpt ∧ (s.sendOut o).obj = s.obj ∧ (s.sendOut o).inj = s.inj ∧ (s.sendOut o).xlt =
    s.xlt ∧ (s.sendOut o).mat = s.mat ∧ (s.sendOut o).ram = s.ram ∧ (s.sendOut o).atu = s.atu ∧ (s.sendOut o).col = s.col ∧
    (s.sendOut o).mgt = s.mgt ∧ (s.sendOut o).lastRead = s.lastRead := by
  unfold State.sendOut
  try dsimp only
  repeat' split
  all_goals simp [apply_ite State.part, apply_ite State.draws, apply_ite State.regs, apply_ite State.req, apply_ite State.flt,
    apply_ite State.rt, apply_ite State.lnk, apply_ite State.pwr, apply_ite State.tim, apply_ite State.xpt, apply_ite
    State.obj, apply_ite State.inj, apply_ite State.xlt, apply_ite State.mat, apply_ite State.ram, apply_ite State.atu,
    apply_ite State.col, apply_ite State.mgt, apply_ite State.lastRead]

@[simp] theorem State.issue_frame (s : State) (o : HostOut) :
    (s.issue o).part = s.part ∧ (s.issue o).draws = s.draws ∧ (s.issue o).regs = s.regs ∧ (s.issue o).req = s.req ∧ (s.issue
    o).flt = s.flt ∧ (s.issue o).rt = s.rt ∧ (s.issue o).lnk = s.lnk ∧ (s.issue o).pwr = s.pwr ∧ (s.issue o).tim = s.tim ∧
    (s.issue o).xpt = s.xpt ∧ (s.issue o).obj = s.obj ∧ (s.issue o).inj = s.inj ∧ (s.issue o).xlt = s.xlt ∧ (s.issue o).mat =
    s.mat ∧ (s.issue o).ram = s.ram ∧ (s.issue o).atu = s.atu ∧ (s.issue o).col = s.col ∧ (s.issue o).mgt = s.mgt ∧ (s.issue
    o).lastRead = s.lastRead := by
  unfold State.issue
  try dsimp only
  repeat' split
  all_goals simp [apply_ite State.part, apply_ite State.draws, apply_ite State.regs, apply_ite State.req, apply_ite State.flt,
    apply_ite State.rt, apply_ite State.lnk, apply_ite State.pwr, apply_ite State.tim, apply_ite State.xpt, apply_ite
    State.obj, apply_ite State.inj, apply_ite State.xlt, apply_ite State.mat, apply_ite State.ram, apply_ite State.atu,
    apply_ite State.col, apply_ite State.mgt, apply_ite State.lastRead]

@[simp] theorem State.freeLine_frame (s : State) (p f addr : Nat) (word : Bool) :
    (s.freeLine p f addr word).part = s.part ∧ (s.freeLine p f addr word).draws = s.draws ∧ (s.freeLine p f addr word).regs =
    s.regs ∧ (s.freeLine p f addr word).req = s.req ∧ (s.freeLine p f addr word).flt = s.flt ∧ (s.freeLine p f addr word).rt =
    s.rt ∧ (s.freeLine p f addr word).lnk = s.lnk ∧ (s.freeLine p f addr word).pwr = s.pwr ∧ (s.freeLine p f addr word).tim =
    s.tim ∧ (s.freeLine p f addr word).xpt = s.xpt ∧ (s.freeLine p f addr word).obj = s.obj ∧ (s.freeLine p f addr word).inj =
    s.inj ∧ (s.freeLine p f addr word).xlt = s.xlt ∧ (s.freeLine p f addr word).mat = s.mat ∧ (s.freeLine p f addr word).ram =
    s.ram ∧ (s.freeLine p f addr word).atu = s.atu ∧ (s.freeLine p f addr word).col = s.col ∧ (s.freeLine p f addr word).mgt =
    s.mgt ∧ (s.freeLine p f addr word).lastRead = s.lastRead := by
  unfold State.freeLine
  try dsimp only
  repeat' split
  all_goals simp

@[simp] theorem State.atomicUr_frame (s : State) (p f : Nat) :
    (s.atomicUr p f).part = s.part ∧ (s.atomicUr p f).draws = s.draws ∧ (s.atomicUr p f).req = s.req ∧ (s.atomicUr p f).rt =
    s.rt ∧ (s.atomicUr p f).pwr = s.pwr ∧ (s.atomicUr p f).tim = s.tim ∧ (s.atomicUr p f).xpt = s.xpt ∧ (s.atomicUr p f).obj =
    s.obj ∧ (s.atomicUr p f).inj = s.inj ∧ (s.atomicUr p f).hpt = s.hpt ∧ (s.atomicUr p f).xlt = s.xlt ∧ (s.atomicUr p f).mat
    = s.mat ∧ (s.atomicUr p f).ram = s.ram ∧ (s.atomicUr p f).atu = s.atu ∧ (s.atomicUr p f).col = s.col ∧ (s.atomicUr p
    f).mgt = s.mgt ∧ (s.atomicUr p f).lastRead = s.lastRead := by
  unfold State.atomicUr
  simp

@[simp] theorem State.instWrite_frame (s : State) (i addr len data : Nat) :
    (s.instWrite i addr len data).part = s.part ∧ (s.instWrite i addr len data).draws = s.draws ∧ (s.instWrite i addr len
    data).regs = s.regs ∧ (s.instWrite i addr len data).req = s.req ∧ (s.instWrite i addr len data).flt = s.flt ∧ (s.instWrite
    i addr len data).rt = s.rt ∧ (s.instWrite i addr len data).lnk = s.lnk ∧ (s.instWrite i addr len data).pwr = s.pwr ∧
    (s.instWrite i addr len data).tim = s.tim ∧ (s.instWrite i addr len data).xpt = s.xpt ∧ (s.instWrite i addr len data).obj
    = s.obj ∧ (s.instWrite i addr len data).inj = s.inj ∧ (s.instWrite i addr len data).xlt = s.xlt ∧ (s.instWrite i addr len
    data).mat = s.mat ∧ (s.instWrite i addr len data).ram = s.ram ∧ (s.instWrite i addr len data).atu = s.atu ∧ (s.instWrite i
    addr len data).col = s.col ∧ (s.instWrite i addr len data).mgt = s.mgt ∧ (s.instWrite i addr len data).lastRead =
    s.lastRead := by
  unfold State.instWrite
  simp

@[simp] theorem State.workWrite_frame (s : State) (i count addr len data : Nat) :
    (s.workWrite i count addr len data).part = s.part ∧ (s.workWrite i count addr len data).draws = s.draws ∧ (s.workWrite i
    count addr len data).regs = s.regs ∧ (s.workWrite i count addr len data).req = s.req ∧ (s.workWrite i count addr len
    data).flt = s.flt ∧ (s.workWrite i count addr len data).rt = s.rt ∧ (s.workWrite i count addr len data).lnk = s.lnk ∧
    (s.workWrite i count addr len data).pwr = s.pwr ∧ (s.workWrite i count addr len data).tim = s.tim ∧ (s.workWrite i count
    addr len data).xpt = s.xpt ∧ (s.workWrite i count addr len data).obj = s.obj ∧ (s.workWrite i count addr len data).inj =
    s.inj ∧ (s.workWrite i count addr len data).xlt = s.xlt ∧ (s.workWrite i count addr len data).mat = s.mat ∧ (s.workWrite i
    count addr len data).ram = s.ram ∧ (s.workWrite i count addr len data).atu = s.atu ∧ (s.workWrite i count addr len
    data).col = s.col ∧ (s.workWrite i count addr len data).mgt = s.mgt ∧ (s.workWrite i count addr len data).lastRead =
    s.lastRead := by
  unfold State.workWrite
  try dsimp only
  repeat' split
  all_goals simp

@[simp] theorem State.chipWrite_frame (s : State) (addr len data : Nat) :
    (s.chipWrite addr len data).part = s.part ∧ (s.chipWrite addr len data).draws = s.draws ∧ (s.chipWrite addr len data).regs
    = s.regs ∧ (s.chipWrite addr len data).req = s.req ∧ (s.chipWrite addr len data).flt = s.flt ∧ (s.chipWrite addr len
    data).rt = s.rt ∧ (s.chipWrite addr len data).lnk = s.lnk ∧ (s.chipWrite addr len data).pwr = s.pwr ∧ (s.chipWrite addr
    len data).tim = s.tim ∧ (s.chipWrite addr len data).xpt = s.xpt ∧ (s.chipWrite addr len data).obj = s.obj ∧ (s.chipWrite
    addr len data).inj = s.inj ∧ (s.chipWrite addr len data).xlt = s.xlt ∧ (s.chipWrite addr len data).mat = s.mat ∧
    (s.chipWrite addr len data).ram = s.ram ∧ (s.chipWrite addr len data).atu = s.atu ∧ (s.chipWrite addr len data).col =
    s.col ∧ (s.chipWrite addr len data).mgt = s.mgt ∧ (s.chipWrite addr len data).lastRead = s.lastRead := by
  unfold State.chipWrite
  simp

@[simp] theorem State.reissue_frame (s : State) (key : Nat) :
    (s.reissue key).part = s.part ∧ (s.reissue key).draws = s.draws ∧ (s.reissue key).regs = s.regs ∧ (s.reissue key).req =
    s.req ∧ (s.reissue key).flt = s.flt ∧ (s.reissue key).rt = s.rt ∧ (s.reissue key).lnk = s.lnk ∧ (s.reissue key).pwr =
    s.pwr ∧ (s.reissue key).tim = s.tim ∧ (s.reissue key).xpt = s.xpt ∧ (s.reissue key).obj = s.obj ∧ (s.reissue key).inj =
    s.inj ∧ (s.reissue key).xlt = s.xlt ∧ (s.reissue key).mat = s.mat ∧ (s.reissue key).ram = s.ram ∧ (s.reissue key).atu =
    s.atu ∧ (s.reissue key).col = s.col ∧ (s.reissue key).mgt = s.mgt ∧ (s.reissue key).lastRead = s.lastRead := by
  unfold State.reissue
  simp

@[simp] theorem State.countGroup_frame (s : State) :
    (s.countGroup).part = s.part ∧ (s.countGroup).draws = s.draws ∧ (s.countGroup).regs = s.regs ∧ (s.countGroup).req = s.req
    ∧ (s.countGroup).flt = s.flt ∧ (s.countGroup).rt = s.rt ∧ (s.countGroup).lnk = s.lnk ∧ (s.countGroup).pwr = s.pwr ∧
    (s.countGroup).tim = s.tim ∧ (s.countGroup).xpt = s.xpt ∧ (s.countGroup).obj = s.obj ∧ (s.countGroup).inj = s.inj ∧
    (s.countGroup).hpt = s.hpt ∧ (s.countGroup).xlt = s.xlt ∧ (s.countGroup).mat = s.mat ∧ (s.countGroup).ram = s.ram ∧
    (s.countGroup).atu = s.atu ∧ (s.countGroup).col = s.col ∧ (s.countGroup).mgt = s.mgt ∧ (s.countGroup).lastRead =
    s.lastRead := by
  unfold State.countGroup
  try dsimp only
  repeat' split
  all_goals simp [apply_ite State.part, apply_ite State.draws, apply_ite State.regs, apply_ite State.req, apply_ite State.flt,
    apply_ite State.rt, apply_ite State.lnk, apply_ite State.pwr, apply_ite State.tim, apply_ite State.xpt, apply_ite
    State.obj, apply_ite State.inj, apply_ite State.hpt, apply_ite State.xlt, apply_ite State.mat, apply_ite State.ram,
    apply_ite State.atu, apply_ite State.col, apply_ite State.mgt, apply_ite State.lastRead]

@[simp] theorem State.jrnlInst_frame (s : State) (i off len data : Nat) :
    (s.jrnlInst i off len data).part = s.part ∧ (s.jrnlInst i off len data).draws = s.draws ∧ (s.jrnlInst i off len data).regs
    = s.regs ∧ (s.jrnlInst i off len data).req = s.req ∧ (s.jrnlInst i off len data).flt = s.flt ∧ (s.jrnlInst i off len
    data).rt = s.rt ∧ (s.jrnlInst i off len data).lnk = s.lnk ∧ (s.jrnlInst i off len data).pwr = s.pwr ∧ (s.jrnlInst i off
    len data).tim = s.tim ∧ (s.jrnlInst i off len data).xpt = s.xpt ∧ (s.jrnlInst i off len data).obj = s.obj ∧ (s.jrnlInst i
    off len data).inj = s.inj ∧ (s.jrnlInst i off len data).xlt = s.xlt ∧ (s.jrnlInst i off len data).mat = s.mat ∧
    (s.jrnlInst i off len data).ram = s.ram ∧ (s.jrnlInst i off len data).atu = s.atu ∧ (s.jrnlInst i off len data).col =
    s.col ∧ (s.jrnlInst i off len data).mgt = s.mgt ∧ (s.jrnlInst i off len data).lastRead = s.lastRead := by
  unfold State.jrnlInst
  try dsimp only
  repeat' split
  all_goals simp [apply_ite State.part, apply_ite State.draws, apply_ite State.regs, apply_ite State.req, apply_ite State.flt,
    apply_ite State.rt, apply_ite State.lnk, apply_ite State.pwr, apply_ite State.tim, apply_ite State.xpt, apply_ite
    State.obj, apply_ite State.inj, apply_ite State.xlt, apply_ite State.mat, apply_ite State.ram, apply_ite State.atu,
    apply_ite State.col, apply_ite State.mgt, apply_ite State.lastRead]

@[simp] theorem State.jrnlChip_frame (s : State) (off len data : Nat) :
    (s.jrnlChip off len data).part = s.part ∧ (s.jrnlChip off len data).draws = s.draws ∧ (s.jrnlChip off len data).regs =
    s.regs ∧ (s.jrnlChip off len data).req = s.req ∧ (s.jrnlChip off len data).flt = s.flt ∧ (s.jrnlChip off len data).rt =
    s.rt ∧ (s.jrnlChip off len data).lnk = s.lnk ∧ (s.jrnlChip off len data).pwr = s.pwr ∧ (s.jrnlChip off len data).tim =
    s.tim ∧ (s.jrnlChip off len data).xpt = s.xpt ∧ (s.jrnlChip off len data).obj = s.obj ∧ (s.jrnlChip off len data).inj =
    s.inj ∧ (s.jrnlChip off len data).xlt = s.xlt ∧ (s.jrnlChip off len data).mat = s.mat ∧ (s.jrnlChip off len data).ram =
    s.ram ∧ (s.jrnlChip off len data).atu = s.atu ∧ (s.jrnlChip off len data).col = s.col ∧ (s.jrnlChip off len data).mgt =
    s.mgt ∧ (s.jrnlChip off len data).lastRead = s.lastRead := by
  unfold State.jrnlChip
  try dsimp only
  repeat' split
  all_goals simp [apply_ite State.part, apply_ite State.draws, apply_ite State.regs, apply_ite State.req, apply_ite State.flt,
    apply_ite State.rt, apply_ite State.lnk, apply_ite State.pwr, apply_ite State.tim, apply_ite State.xpt, apply_ite
    State.obj, apply_ite State.inj, apply_ite State.xlt, apply_ite State.mat, apply_ite State.ram, apply_ite State.atu,
    apply_ite State.col, apply_ite State.mgt, apply_ite State.lastRead]

@[simp] theorem State.modConn_frame (s : State) (h : Nat) (f : Conn → Conn) :
    (s.modConn h f).part = s.part ∧ (s.modConn h f).draws = s.draws ∧ (s.modConn h f).regs = s.regs ∧ (s.modConn h f).req =
    s.req ∧ (s.modConn h f).flt = s.flt ∧ (s.modConn h f).rt = s.rt ∧ (s.modConn h f).lnk = s.lnk ∧ (s.modConn h f).pwr =
    s.pwr ∧ (s.modConn h f).tim = s.tim ∧ (s.modConn h f).obj = s.obj ∧ (s.modConn h f).inj = s.inj ∧ (s.modConn h f).hpt =
    s.hpt ∧ (s.modConn h f).xlt = s.xlt ∧ (s.modConn h f).mat = s.mat ∧ (s.modConn h f).ram = s.ram ∧ (s.modConn h f).atu =
    s.atu ∧ (s.modConn h f).col = s.col ∧ (s.modConn h f).cnt = s.cnt ∧ (s.modConn h f).mgt = s.mgt ∧ (s.modConn h f).lastRead
    = s.lastRead := by
  unfold State.modConn
  simp

@[simp] theorem State.jrnlConn_frame (s : State) (h : Nat) :
    (s.jrnlConn h).part = s.part ∧ (s.jrnlConn h).draws = s.draws ∧ (s.jrnlConn h).regs = s.regs ∧ (s.jrnlConn h).req = s.req
    ∧ (s.jrnlConn h).flt = s.flt ∧ (s.jrnlConn h).rt = s.rt ∧ (s.jrnlConn h).lnk = s.lnk ∧ (s.jrnlConn h).pwr = s.pwr ∧
    (s.jrnlConn h).tim = s.tim ∧ (s.jrnlConn h).xpt = s.xpt ∧ (s.jrnlConn h).obj = s.obj ∧ (s.jrnlConn h).inj = s.inj ∧
    (s.jrnlConn h).xlt = s.xlt ∧ (s.jrnlConn h).mat = s.mat ∧ (s.jrnlConn h).ram = s.ram ∧ (s.jrnlConn h).atu = s.atu ∧
    (s.jrnlConn h).col = s.col ∧ (s.jrnlConn h).mgt = s.mgt ∧ (s.jrnlConn h).lastRead = s.lastRead := by
  unfold State.jrnlConn
  try dsimp only
  repeat' split
  all_goals simp [apply_ite State.part, apply_ite State.draws, apply_ite State.regs, apply_ite State.req, apply_ite State.flt,
    apply_ite State.rt, apply_ite State.lnk, apply_ite State.pwr, apply_ite State.tim, apply_ite State.xpt, apply_ite
    State.obj, apply_ite State.inj, apply_ite State.xlt, apply_ite State.mat, apply_ite State.ram, apply_ite State.atu,
    apply_ite State.col, apply_ite State.mgt, apply_ite State.lastRead]

@[simp] theorem State.markSuspended_frame (s : State) (p : Nat) :
    (s.markSuspended p).part = s.part ∧ (s.markSuspended p).draws = s.draws ∧ (s.markSuspended p).req = s.req ∧
    (s.markSuspended p).flt = s.flt ∧ (s.markSuspended p).rt = s.rt ∧ (s.markSuspended p).lnk = s.lnk ∧ (s.markSuspended
    p).pwr = s.pwr ∧ (s.markSuspended p).tim = s.tim ∧ (s.markSuspended p).xpt = s.xpt ∧ (s.markSuspended p).obj = s.obj ∧
    (s.markSuspended p).inj = s.inj ∧ (s.markSuspended p).hpt = s.hpt ∧ (s.markSuspended p).xlt = s.xlt ∧ (s.markSuspended
    p).mat = s.mat ∧ (s.markSuspended p).ram = s.ram ∧ (s.markSuspended p).atu = s.atu ∧ (s.markSuspended p).col = s.col ∧
    (s.markSuspended p).cnt = s.cnt ∧ (s.markSuspended p).mgt = s.mgt ∧ (s.markSuspended p).lastRead = s.lastRead := by
  unfold State.markSuspended
  simp

@[simp] theorem State.markPorts_frame (s : State) :
    (s.markPorts).part = s.part ∧ (s.markPorts).draws = s.draws ∧ (s.markPorts).req = s.req ∧ (s.markPorts).flt = s.flt ∧
    (s.markPorts).rt = s.rt ∧ (s.markPorts).lnk = s.lnk ∧ (s.markPorts).pwr = s.pwr ∧ (s.markPorts).tim = s.tim ∧
    (s.markPorts).xpt = s.xpt ∧ (s.markPorts).obj = s.obj ∧ (s.markPorts).inj = s.inj ∧ (s.markPorts).hpt = s.hpt ∧
    (s.markPorts).xlt = s.xlt ∧ (s.markPorts).mat = s.mat ∧ (s.markPorts).ram = s.ram ∧ (s.markPorts).atu = s.atu ∧
    (s.markPorts).col = s.col ∧ (s.markPorts).cnt = s.cnt ∧ (s.markPorts).mgt = s.mgt ∧ (s.markPorts).lastRead = s.lastRead :=
    by
  unfold State.markPorts
  try dsimp only
  repeat' split
  all_goals simp [apply_ite State.part, apply_ite State.draws, apply_ite State.req, apply_ite State.flt, apply_ite State.rt,
    apply_ite State.lnk, apply_ite State.pwr, apply_ite State.tim, apply_ite State.xpt, apply_ite State.obj, apply_ite
    State.inj, apply_ite State.hpt, apply_ite State.xlt, apply_ite State.mat, apply_ite State.ram, apply_ite State.atu,
    apply_ite State.col, apply_ite State.cnt, apply_ite State.mgt, apply_ite State.lastRead]

@[simp] theorem State.modQueue_frame (s : State) (q : Nat) (f : Queue → Queue) :
    (s.modQueue q f).part = s.part ∧ (s.modQueue q f).draws = s.draws ∧ (s.modQueue q f).regs = s.regs ∧ (s.modQueue q f).req
    = s.req ∧ (s.modQueue q f).flt = s.flt ∧ (s.modQueue q f).rt = s.rt ∧ (s.modQueue q f).lnk = s.lnk ∧ (s.modQueue q f).pwr
    = s.pwr ∧ (s.modQueue q f).tim = s.tim ∧ (s.modQueue q f).xpt = s.xpt ∧ (s.modQueue q f).inj = s.inj ∧ (s.modQueue q
    f).hpt = s.hpt ∧ (s.modQueue q f).xlt = s.xlt ∧ (s.modQueue q f).mat = s.mat ∧ (s.modQueue q f).ram = s.ram ∧ (s.modQueue
    q f).atu = s.atu ∧ (s.modQueue q f).col = s.col ∧ (s.modQueue q f).cnt = s.cnt ∧ (s.modQueue q f).mgt = s.mgt ∧
    (s.modQueue q f).lastRead = s.lastRead := by
  unfold State.modQueue
  simp

@[simp] theorem State.modSlot_frame (s : State) (k : Nat) (f : Slot → Slot) :
    (s.modSlot k f).part = s.part ∧ (s.modSlot k f).draws = s.draws ∧ (s.modSlot k f).regs = s.regs ∧ (s.modSlot k f).req =
    s.req ∧ (s.modSlot k f).flt = s.flt ∧ (s.modSlot k f).rt = s.rt ∧ (s.modSlot k f).lnk = s.lnk ∧ (s.modSlot k f).pwr =
    s.pwr ∧ (s.modSlot k f).tim = s.tim ∧ (s.modSlot k f).xpt = s.xpt ∧ (s.modSlot k f).inj = s.inj ∧ (s.modSlot k f).hpt =
    s.hpt ∧ (s.modSlot k f).xlt = s.xlt ∧ (s.modSlot k f).mat = s.mat ∧ (s.modSlot k f).ram = s.ram ∧ (s.modSlot k f).atu =
    s.atu ∧ (s.modSlot k f).col = s.col ∧ (s.modSlot k f).cnt = s.cnt ∧ (s.modSlot k f).mgt = s.mgt ∧ (s.modSlot k f).lastRead
    = s.lastRead := by
  unfold State.modSlot
  simp

@[simp] theorem State.see_frame (s : State) (v : View) :
    (s.see v).part = s.part ∧ (s.see v).draws = s.draws ∧ (s.see v).regs = s.regs ∧ (s.see v).req = s.req ∧ (s.see v).flt =
    s.flt ∧ (s.see v).rt = s.rt ∧ (s.see v).lnk = s.lnk ∧ (s.see v).pwr = s.pwr ∧ (s.see v).tim = s.tim ∧ (s.see v).xpt =
    s.xpt ∧ (s.see v).inj = s.inj ∧ (s.see v).hpt = s.hpt ∧ (s.see v).xlt = s.xlt ∧ (s.see v).mat = s.mat ∧ (s.see v).ram =
    s.ram ∧ (s.see v).atu = s.atu ∧ (s.see v).col = s.col ∧ (s.see v).cnt = s.cnt ∧ (s.see v).mgt = s.mgt ∧ (s.see v).lastRead
    = s.lastRead := by
  unfold State.see
  simp

@[simp] theorem State.ringWrite_frame (s : State) (q : Nat) (x : Queue) (count addr len data : Nat) :
    (s.ringWrite q x count addr len data).part = s.part ∧ (s.ringWrite q x count addr len data).draws = s.draws ∧ (s.ringWrite
    q x count addr len data).regs = s.regs ∧ (s.ringWrite q x count addr len data).req = s.req ∧ (s.ringWrite q x count addr
    len data).flt = s.flt ∧ (s.ringWrite q x count addr len data).rt = s.rt ∧ (s.ringWrite q x count addr len data).lnk =
    s.lnk ∧ (s.ringWrite q x count addr len data).pwr = s.pwr ∧ (s.ringWrite q x count addr len data).tim = s.tim ∧
    (s.ringWrite q x count addr len data).xpt = s.xpt ∧ (s.ringWrite q x count addr len data).obj = s.obj ∧ (s.ringWrite q x
    count addr len data).inj = s.inj ∧ (s.ringWrite q x count addr len data).xlt = s.xlt ∧ (s.ringWrite q x count addr len
    data).mat = s.mat ∧ (s.ringWrite q x count addr len data).ram = s.ram ∧ (s.ringWrite q x count addr len data).atu = s.atu
    ∧ (s.ringWrite q x count addr len data).col = s.col ∧ (s.ringWrite q x count addr len data).mgt = s.mgt ∧ (s.ringWrite q x
    count addr len data).lastRead = s.lastRead := by
  unfold State.ringWrite
  try dsimp only
  repeat' split
  all_goals simp [apply_ite State.part, apply_ite State.draws, apply_ite State.regs, apply_ite State.req, apply_ite State.flt,
    apply_ite State.rt, apply_ite State.lnk, apply_ite State.pwr, apply_ite State.tim, apply_ite State.xpt, apply_ite
    State.obj, apply_ite State.inj, apply_ite State.xlt, apply_ite State.mat, apply_ite State.ram, apply_ite State.atu,
    apply_ite State.col, apply_ite State.mgt, apply_ite State.lastRead]

@[simp] theorem State.writeCqe_frame (s : State) (q : Nat) (c : Cqe) :
    (s.writeCqe q c).part = s.part ∧ (s.writeCqe q c).draws = s.draws ∧ (s.writeCqe q c).regs = s.regs ∧ (s.writeCqe q c).req
    = s.req ∧ (s.writeCqe q c).flt = s.flt ∧ (s.writeCqe q c).rt = s.rt ∧ (s.writeCqe q c).lnk = s.lnk ∧ (s.writeCqe q c).pwr
    = s.pwr ∧ (s.writeCqe q c).tim = s.tim ∧ (s.writeCqe q c).xpt = s.xpt ∧ (s.writeCqe q c).inj = s.inj ∧ (s.writeCqe q
    c).xlt = s.xlt ∧ (s.writeCqe q c).mat = s.mat ∧ (s.writeCqe q c).ram = s.ram ∧ (s.writeCqe q c).atu = s.atu ∧ (s.writeCqe
    q c).col = s.col ∧ (s.writeCqe q c).mgt = s.mgt ∧ (s.writeCqe q c).lastRead = s.lastRead := by
  unfold State.writeCqe
  try dsimp only
  repeat' split
  all_goals simp [apply_ite State.part, apply_ite State.draws, apply_ite State.regs, apply_ite State.req, apply_ite State.flt,
    apply_ite State.rt, apply_ite State.lnk, apply_ite State.pwr, apply_ite State.tim, apply_ite State.xpt, apply_ite
    State.inj, apply_ite State.xlt, apply_ite State.mat, apply_ite State.ram, apply_ite State.atu, apply_ite State.col,
    apply_ite State.mgt, apply_ite State.lastRead]

@[simp] theorem State.jrnlPos_frame (s : State) (q : Nat) :
    (s.jrnlPos q).part = s.part ∧ (s.jrnlPos q).draws = s.draws ∧ (s.jrnlPos q).regs = s.regs ∧ (s.jrnlPos q).req = s.req ∧
    (s.jrnlPos q).flt = s.flt ∧ (s.jrnlPos q).rt = s.rt ∧ (s.jrnlPos q).lnk = s.lnk ∧ (s.jrnlPos q).pwr = s.pwr ∧ (s.jrnlPos
    q).tim = s.tim ∧ (s.jrnlPos q).xpt = s.xpt ∧ (s.jrnlPos q).obj = s.obj ∧ (s.jrnlPos q).inj = s.inj ∧ (s.jrnlPos q).xlt =
    s.xlt ∧ (s.jrnlPos q).mat = s.mat ∧ (s.jrnlPos q).ram = s.ram ∧ (s.jrnlPos q).atu = s.atu ∧ (s.jrnlPos q).col = s.col ∧
    (s.jrnlPos q).mgt = s.mgt ∧ (s.jrnlPos q).lastRead = s.lastRead := by
  unfold State.jrnlPos
  try dsimp only
  repeat' split
  all_goals simp [apply_ite State.part, apply_ite State.draws, apply_ite State.regs, apply_ite State.req, apply_ite State.flt,
    apply_ite State.rt, apply_ite State.lnk, apply_ite State.pwr, apply_ite State.tim, apply_ite State.xpt, apply_ite
    State.obj, apply_ite State.inj, apply_ite State.xlt, apply_ite State.mat, apply_ite State.ram, apply_ite State.atu,
    apply_ite State.col, apply_ite State.mgt, apply_ite State.lastRead]

@[simp] theorem State.clearOwn_frame (s : State) (q idx : Nat) :
    (s.clearOwn q idx).part = s.part ∧ (s.clearOwn q idx).draws = s.draws ∧ (s.clearOwn q idx).regs = s.regs ∧ (s.clearOwn q
    idx).req = s.req ∧ (s.clearOwn q idx).flt = s.flt ∧ (s.clearOwn q idx).rt = s.rt ∧ (s.clearOwn q idx).lnk = s.lnk ∧
    (s.clearOwn q idx).pwr = s.pwr ∧ (s.clearOwn q idx).tim = s.tim ∧ (s.clearOwn q idx).xpt = s.xpt ∧ (s.clearOwn q idx).obj
    = s.obj ∧ (s.clearOwn q idx).inj = s.inj ∧ (s.clearOwn q idx).xlt = s.xlt ∧ (s.clearOwn q idx).mat = s.mat ∧ (s.clearOwn q
    idx).ram = s.ram ∧ (s.clearOwn q idx).atu = s.atu ∧ (s.clearOwn q idx).col = s.col ∧ (s.clearOwn q idx).mgt = s.mgt ∧
    (s.clearOwn q idx).lastRead = s.lastRead := by
  unfold State.clearOwn
  try dsimp only
  repeat' split
  all_goals simp

@[simp] theorem State.freeSlot_frame (s : State) (k : Nat) :
    (s.freeSlot k).part = s.part ∧ (s.freeSlot k).draws = s.draws ∧ (s.freeSlot k).regs = s.regs ∧ (s.freeSlot k).req = s.req
    ∧ (s.freeSlot k).flt = s.flt ∧ (s.freeSlot k).rt = s.rt ∧ (s.freeSlot k).lnk = s.lnk ∧ (s.freeSlot k).pwr = s.pwr ∧
    (s.freeSlot k).tim = s.tim ∧ (s.freeSlot k).xpt = s.xpt ∧ (s.freeSlot k).inj = s.inj ∧ (s.freeSlot k).xlt = s.xlt ∧
    (s.freeSlot k).mat = s.mat ∧ (s.freeSlot k).ram = s.ram ∧ (s.freeSlot k).atu = s.atu ∧ (s.freeSlot k).col = s.col ∧
    (s.freeSlot k).mgt = s.mgt ∧ (s.freeSlot k).lastRead = s.lastRead := by
  unfold State.freeSlot
  try dsimp only
  repeat' split
  all_goals simp

@[simp] theorem State.aqRewind_frame (s : State) :
    (s.aqRewind).part = s.part ∧ (s.aqRewind).draws = s.draws ∧ (s.aqRewind).regs = s.regs ∧ (s.aqRewind).req = s.req ∧
    (s.aqRewind).flt = s.flt ∧ (s.aqRewind).rt = s.rt ∧ (s.aqRewind).lnk = s.lnk ∧ (s.aqRewind).pwr = s.pwr ∧ (s.aqRewind).tim
    = s.tim ∧ (s.aqRewind).xpt = s.xpt ∧ (s.aqRewind).inj = s.inj ∧ (s.aqRewind).hpt = s.hpt ∧ (s.aqRewind).xlt = s.xlt ∧
    (s.aqRewind).mat = s.mat ∧ (s.aqRewind).ram = s.ram ∧ (s.aqRewind).atu = s.atu ∧ (s.aqRewind).col = s.col ∧
    (s.aqRewind).cnt = s.cnt ∧ (s.aqRewind).mgt = s.mgt ∧ (s.aqRewind).lastRead = s.lastRead := by
  unfold State.aqRewind
  simp

@[simp] theorem State.aqSettle_frame (s : State) :
    (s.aqSettle).part = s.part ∧ (s.aqSettle).draws = s.draws ∧ (s.aqSettle).regs = s.regs ∧ (s.aqSettle).req = s.req ∧
    (s.aqSettle).flt = s.flt ∧ (s.aqSettle).rt = s.rt ∧ (s.aqSettle).lnk = s.lnk ∧ (s.aqSettle).pwr = s.pwr ∧ (s.aqSettle).tim
    = s.tim ∧ (s.aqSettle).xpt = s.xpt ∧ (s.aqSettle).inj = s.inj ∧ (s.aqSettle).hpt = s.hpt ∧ (s.aqSettle).xlt = s.xlt ∧
    (s.aqSettle).mat = s.mat ∧ (s.aqSettle).ram = s.ram ∧ (s.aqSettle).atu = s.atu ∧ (s.aqSettle).col = s.col ∧
    (s.aqSettle).cnt = s.cnt ∧ (s.aqSettle).mgt = s.mgt ∧ (s.aqSettle).lastRead = s.lastRead := by
  unfold State.aqSettle
  try dsimp only
  repeat' split
  all_goals simp [apply_ite State.part, apply_ite State.draws, apply_ite State.regs, apply_ite State.req, apply_ite State.flt,
    apply_ite State.rt, apply_ite State.lnk, apply_ite State.pwr, apply_ite State.tim, apply_ite State.xpt, apply_ite
    State.inj, apply_ite State.hpt, apply_ite State.xlt, apply_ite State.mat, apply_ite State.ram, apply_ite State.atu,
    apply_ite State.col, apply_ite State.cnt, apply_ite State.mgt, apply_ite State.lastRead]

@[simp] theorem State.aqStop_frame (s : State) :
    (s.aqStop).part = s.part ∧ (s.aqStop).draws = s.draws ∧ (s.aqStop).req = s.req ∧ (s.aqStop).flt = s.flt ∧ (s.aqStop).rt =
    s.rt ∧ (s.aqStop).lnk = s.lnk ∧ (s.aqStop).pwr = s.pwr ∧ (s.aqStop).tim = s.tim ∧ (s.aqStop).xpt = s.xpt ∧ (s.aqStop).inj
    = s.inj ∧ (s.aqStop).hpt = s.hpt ∧ (s.aqStop).xlt = s.xlt ∧ (s.aqStop).mat = s.mat ∧ (s.aqStop).ram = s.ram ∧
    (s.aqStop).atu = s.atu ∧ (s.aqStop).col = s.col ∧ (s.aqStop).cnt = s.cnt ∧ (s.aqStop).mgt = s.mgt ∧ (s.aqStop).lastRead =
    s.lastRead := by
  unfold State.aqStop
  simp

@[simp] theorem State.freeSrc_frame (s : State) (src : CompSrc) :
    (s.freeSrc src).part = s.part ∧ (s.freeSrc src).draws = s.draws ∧ (s.freeSrc src).regs = s.regs ∧ (s.freeSrc src).req =
    s.req ∧ (s.freeSrc src).flt = s.flt ∧ (s.freeSrc src).rt = s.rt ∧ (s.freeSrc src).lnk = s.lnk ∧ (s.freeSrc src).pwr =
    s.pwr ∧ (s.freeSrc src).tim = s.tim ∧ (s.freeSrc src).xpt = s.xpt ∧ (s.freeSrc src).inj = s.inj ∧ (s.freeSrc src).xlt =
    s.xlt ∧ (s.freeSrc src).mat = s.mat ∧ (s.freeSrc src).ram = s.ram ∧ (s.freeSrc src).atu = s.atu ∧ (s.freeSrc src).col =
    s.col ∧ (s.freeSrc src).mgt = s.mgt ∧ (s.freeSrc src).lastRead = s.lastRead := by
  unfold State.freeSrc
  try dsimp only
  repeat' split
  all_goals simp

@[simp] theorem State.post_frame (s : State) (q : Nat) (c : Cqe) (src : CompSrc) :
    (s.post q c src).part = s.part ∧ (s.post q c src).draws = s.draws ∧ (s.post q c src).req = s.req ∧ (s.post q c src).flt =
    s.flt ∧ (s.post q c src).rt = s.rt ∧ (s.post q c src).lnk = s.lnk ∧ (s.post q c src).pwr = s.pwr ∧ (s.post q c src).tim =
    s.tim ∧ (s.post q c src).xpt = s.xpt ∧ (s.post q c src).inj = s.inj ∧ (s.post q c src).xlt = s.xlt ∧ (s.post q c src).mat
    = s.mat ∧ (s.post q c src).ram = s.ram ∧ (s.post q c src).atu = s.atu ∧ (s.post q c src).col = s.col ∧ (s.post q c
    src).mgt = s.mgt ∧ (s.post q c src).lastRead = s.lastRead := by
  unfold State.post
  try dsimp only
  repeat' split
  all_goals simp [apply_ite State.part, apply_ite State.draws, apply_ite State.req, apply_ite State.flt, apply_ite State.rt,
    apply_ite State.lnk, apply_ite State.pwr, apply_ite State.tim, apply_ite State.xpt, apply_ite State.inj, apply_ite
    State.xlt, apply_ite State.mat, apply_ite State.ram, apply_ite State.atu, apply_ite State.col, apply_ite State.mgt,
    apply_ite State.lastRead]

@[simp] theorem State.flushCq_frame (s : State) (q : Nat) (x0 : Nat) :
    (s.flushCq q x0).part = s.part ∧ (s.flushCq q x0).draws = s.draws ∧ (s.flushCq q x0).regs = s.regs ∧ (s.flushCq q x0).req
    = s.req ∧ (s.flushCq q x0).flt = s.flt ∧ (s.flushCq q x0).rt = s.rt ∧ (s.flushCq q x0).lnk = s.lnk ∧ (s.flushCq q x0).pwr
    = s.pwr ∧ (s.flushCq q x0).tim = s.tim ∧ (s.flushCq q x0).xpt = s.xpt ∧ (s.flushCq q x0).inj = s.inj ∧ (s.flushCq q
    x0).xlt = s.xlt ∧ (s.flushCq q x0).mat = s.mat ∧ (s.flushCq q x0).ram = s.ram ∧ (s.flushCq q x0).atu = s.atu ∧ (s.flushCq
    q x0).col = s.col ∧ (s.flushCq q x0).mgt = s.mgt ∧ (s.flushCq q x0).lastRead = s.lastRead := by
  induction x0 generalizing s q with
  | zero => unfold State.flushCq; repeat' split
            all_goals simp
  | succ n_ ih_ =>
    unfold State.flushCq
    repeat' split
    all_goals simp [ih_, apply_ite State.part, apply_ite State.draws, apply_ite State.regs, apply_ite State.req, apply_ite
      State.flt, apply_ite State.rt, apply_ite State.lnk, apply_ite State.pwr, apply_ite State.tim, apply_ite State.xpt,
      apply_ite State.inj, apply_ite State.xlt, apply_ite State.mat, apply_ite State.ram, apply_ite State.atu, apply_ite
      State.col, apply_ite State.mgt, apply_ite State.lastRead]

@[simp] theorem State.countMatch_frame (s : State) :
    (s.countMatch).part = s.part ∧ (s.countMatch).draws = s.draws ∧ (s.countMatch).req = s.req ∧ (s.countMatch).flt = s.flt ∧
    (s.countMatch).rt = s.rt ∧ (s.countMatch).lnk = s.lnk ∧ (s.countMatch).pwr = s.pwr ∧ (s.countMatch).tim = s.tim ∧
    (s.countMatch).xpt = s.xpt ∧ (s.countMatch).obj = s.obj ∧ (s.countMatch).inj = s.inj ∧ (s.countMatch).hpt = s.hpt ∧
    (s.countMatch).xlt = s.xlt ∧ (s.countMatch).mat = s.mat ∧ (s.countMatch).ram = s.ram ∧ (s.countMatch).atu = s.atu ∧
    (s.countMatch).col = s.col ∧ (s.countMatch).mgt = s.mgt ∧ (s.countMatch).lastRead = s.lastRead := by
  unfold State.countMatch
  simp

@[simp] theorem State.sampleSlot_frame (s : State) (k : Nat) (x : Slot) (status : Nat) :
    (s.sampleSlot k x status).part = s.part ∧ (s.sampleSlot k x status).draws = s.draws ∧ (s.sampleSlot k x status).regs =
    s.regs ∧ (s.sampleSlot k x status).req = s.req ∧ (s.sampleSlot k x status).flt = s.flt ∧ (s.sampleSlot k x status).rt =
    s.rt ∧ (s.sampleSlot k x status).lnk = s.lnk ∧ (s.sampleSlot k x status).pwr = s.pwr ∧ (s.sampleSlot k x status).tim =
    s.tim ∧ (s.sampleSlot k x status).xpt = s.xpt ∧ (s.sampleSlot k x status).obj = s.obj ∧ (s.sampleSlot k x status).inj =
    s.inj ∧ (s.sampleSlot k x status).hpt = s.hpt ∧ (s.sampleSlot k x status).xlt = s.xlt ∧ (s.sampleSlot k x status).mat =
    s.mat ∧ (s.sampleSlot k x status).ram = s.ram ∧ (s.sampleSlot k x status).atu = s.atu ∧ (s.sampleSlot k x status).col =
    s.col ∧ (s.sampleSlot k x status).mgt = s.mgt ∧ (s.sampleSlot k x status).lastRead = s.lastRead := by
  unfold State.sampleSlot
  try dsimp only
  repeat' split
  all_goals simp [apply_ite State.part, apply_ite State.draws, apply_ite State.regs, apply_ite State.req, apply_ite State.flt,
    apply_ite State.rt, apply_ite State.lnk, apply_ite State.pwr, apply_ite State.tim, apply_ite State.xpt, apply_ite
    State.obj, apply_ite State.inj, apply_ite State.hpt, apply_ite State.xlt, apply_ite State.mat, apply_ite State.ram,
    apply_ite State.atu, apply_ite State.col, apply_ite State.mgt, apply_ite State.lastRead]

@[simp] theorem State.completeSlot_frame (s : State) (k status body : Nat) :
    (s.completeSlot k status body).part = s.part ∧ (s.completeSlot k status body).draws = s.draws ∧ (s.completeSlot k status
    body).req = s.req ∧ (s.completeSlot k status body).flt = s.flt ∧ (s.completeSlot k status body).rt = s.rt ∧
    (s.completeSlot k status body).lnk = s.lnk ∧ (s.completeSlot k status body).pwr = s.pwr ∧ (s.completeSlot k status
    body).tim = s.tim ∧ (s.completeSlot k status body).xpt = s.xpt ∧ (s.completeSlot k status body).inj = s.inj ∧
    (s.completeSlot k status body).xlt = s.xlt ∧ (s.completeSlot k status body).mat = s.mat ∧ (s.completeSlot k status
    body).ram = s.ram ∧ (s.completeSlot k status body).atu = s.atu ∧ (s.completeSlot k status body).col = s.col ∧
    (s.completeSlot k status body).mgt = s.mgt ∧ (s.completeSlot k status body).lastRead = s.lastRead := by
  unfold State.completeSlot
  try dsimp only
  repeat' split
  all_goals simp [apply_ite State.part, apply_ite State.draws, apply_ite State.req, apply_ite State.flt, apply_ite State.rt,
    apply_ite State.lnk, apply_ite State.pwr, apply_ite State.tim, apply_ite State.xpt, apply_ite State.inj, apply_ite
    State.xlt, apply_ite State.mat, apply_ite State.ram, apply_ite State.atu, apply_ite State.col, apply_ite State.mgt,
    apply_ite State.lastRead]

@[simp] theorem State.releaseDue_frame (s : State) (q h : Nat) (x0 : Nat) :
    (s.releaseDue q h x0).part = s.part ∧ (s.releaseDue q h x0).draws = s.draws ∧ (s.releaseDue q h x0).req = s.req ∧
    (s.releaseDue q h x0).flt = s.flt ∧ (s.releaseDue q h x0).rt = s.rt ∧ (s.releaseDue q h x0).lnk = s.lnk ∧ (s.releaseDue q
    h x0).pwr = s.pwr ∧ (s.releaseDue q h x0).tim = s.tim ∧ (s.releaseDue q h x0).xpt = s.xpt ∧ (s.releaseDue q h x0).inj =
    s.inj ∧ (s.releaseDue q h x0).xlt = s.xlt ∧ (s.releaseDue q h x0).mat = s.mat ∧ (s.releaseDue q h x0).ram = s.ram ∧
    (s.releaseDue q h x0).atu = s.atu ∧ (s.releaseDue q h x0).col = s.col ∧ (s.releaseDue q h x0).mgt = s.mgt ∧ (s.releaseDue
    q h x0).lastRead = s.lastRead := by
  induction x0 generalizing s q h with
  | zero => unfold State.releaseDue; repeat' split
            all_goals simp
  | succ n_ ih_ =>
    unfold State.releaseDue
    repeat' split
    all_goals simp [ih_]

@[simp] theorem State.finishSlot_frame (s : State) (k status body : Nat) :
    (s.finishSlot k status body).part = s.part ∧ (s.finishSlot k status body).draws = s.draws ∧ (s.finishSlot k status
    body).req = s.req ∧ (s.finishSlot k status body).flt = s.flt ∧ (s.finishSlot k status body).rt = s.rt ∧ (s.finishSlot k
    status body).lnk = s.lnk ∧ (s.finishSlot k status body).pwr = s.pwr ∧ (s.finishSlot k status body).tim = s.tim ∧
    (s.finishSlot k status body).xpt = s.xpt ∧ (s.finishSlot k status body).inj = s.inj ∧ (s.finishSlot k status body).xlt =
    s.xlt ∧ (s.finishSlot k status body).mat = s.mat ∧ (s.finishSlot k status body).ram = s.ram ∧ (s.finishSlot k status
    body).atu = s.atu ∧ (s.finishSlot k status body).col = s.col ∧ (s.finishSlot k status body).mgt = s.mgt ∧ (s.finishSlot k
    status body).lastRead = s.lastRead := by
  unfold State.finishSlot
  try dsimp only
  repeat' split
  all_goals simp [apply_ite State.part, apply_ite State.draws, apply_ite State.req, apply_ite State.flt, apply_ite State.rt,
    apply_ite State.lnk, apply_ite State.pwr, apply_ite State.tim, apply_ite State.xpt, apply_ite State.inj, apply_ite
    State.xlt, apply_ite State.mat, apply_ite State.ram, apply_ite State.atu, apply_ite State.col, apply_ite State.mgt,
    apply_ite State.lastRead]

@[simp] theorem State.postIn_frame (s : State) (q : Nat) (c : Cqe) (src : CompSrc) :
    (s.postIn q c src).1.part = s.part ∧ (s.postIn q c src).1.draws = s.draws ∧ (s.postIn q c src).1.req = s.req ∧ (s.postIn q
    c src).1.flt = s.flt ∧ (s.postIn q c src).1.rt = s.rt ∧ (s.postIn q c src).1.lnk = s.lnk ∧ (s.postIn q c src).1.pwr =
    s.pwr ∧ (s.postIn q c src).1.tim = s.tim ∧ (s.postIn q c src).1.xpt = s.xpt ∧ (s.postIn q c src).1.inj = s.inj ∧ (s.postIn
    q c src).1.xlt = s.xlt ∧ (s.postIn q c src).1.mat = s.mat ∧ (s.postIn q c src).1.ram = s.ram ∧ (s.postIn q c src).1.atu =
    s.atu ∧ (s.postIn q c src).1.col = s.col ∧ (s.postIn q c src).1.mgt = s.mgt ∧ (s.postIn q c src).1.lastRead = s.lastRead
    := by
  unfold State.postIn
  try dsimp only
  repeat' split
  all_goals simp [apply_ite State.part, apply_ite State.draws, apply_ite State.req, apply_ite State.flt, apply_ite State.rt,
    apply_ite State.lnk, apply_ite State.pwr, apply_ite State.tim, apply_ite State.xpt, apply_ite State.inj, apply_ite
    State.xlt, apply_ite State.mat, apply_ite State.ram, apply_ite State.atu, apply_ite State.col, apply_ite State.mgt,
    apply_ite State.lastRead]

@[simp] theorem State.finishIn_frame (s : State) (k status body : Nat) :
    (s.finishIn k status body).1.part = s.part ∧ (s.finishIn k status body).1.draws = s.draws ∧ (s.finishIn k status
    body).1.req = s.req ∧ (s.finishIn k status body).1.flt = s.flt ∧ (s.finishIn k status body).1.rt = s.rt ∧ (s.finishIn k
    status body).1.lnk = s.lnk ∧ (s.finishIn k status body).1.pwr = s.pwr ∧ (s.finishIn k status body).1.tim = s.tim ∧
    (s.finishIn k status body).1.xpt = s.xpt ∧ (s.finishIn k status body).1.inj = s.inj ∧ (s.finishIn k status body).1.xlt =
    s.xlt ∧ (s.finishIn k status body).1.mat = s.mat ∧ (s.finishIn k status body).1.ram = s.ram ∧ (s.finishIn k status
    body).1.atu = s.atu ∧ (s.finishIn k status body).1.col = s.col ∧ (s.finishIn k status body).1.mgt = s.mgt ∧ (s.finishIn k
    status body).1.lastRead = s.lastRead := by
  unfold State.finishIn
  try dsimp only
  repeat' split
  all_goals simp [apply_ite State.part, apply_ite State.draws, apply_ite State.req, apply_ite State.flt, apply_ite State.rt,
    apply_ite State.lnk, apply_ite State.pwr, apply_ite State.tim, apply_ite State.xpt, apply_ite State.inj, apply_ite
    State.xlt, apply_ite State.mat, apply_ite State.ram, apply_ite State.atu, apply_ite State.col, apply_ite State.mgt,
    apply_ite State.lastRead]

@[simp] theorem State.endGroup_frame (s : State) (l : List (Option Nat × CompSrc)) :
    (s.endGroup l).part = s.part ∧ (s.endGroup l).draws = s.draws ∧ (s.endGroup l).req = s.req ∧ (s.endGroup l).flt = s.flt ∧
    (s.endGroup l).rt = s.rt ∧ (s.endGroup l).lnk = s.lnk ∧ (s.endGroup l).pwr = s.pwr ∧ (s.endGroup l).tim = s.tim ∧
    (s.endGroup l).xpt = s.xpt ∧ (s.endGroup l).inj = s.inj ∧ (s.endGroup l).xlt = s.xlt ∧ (s.endGroup l).mat = s.mat ∧
    (s.endGroup l).ram = s.ram ∧ (s.endGroup l).atu = s.atu ∧ (s.endGroup l).col = s.col ∧ (s.endGroup l).mgt = s.mgt ∧
    (s.endGroup l).lastRead = s.lastRead := by
  unfold State.endGroup
  try dsimp only
  repeat' split
  all_goals simp

@[simp] theorem State.pollBudget_frame (s : State) :
    (s.pollBudget).part = s.part ∧ (s.pollBudget).draws = s.draws ∧ (s.pollBudget).req = s.req ∧ (s.pollBudget).flt = s.flt ∧
    (s.pollBudget).rt = s.rt ∧ (s.pollBudget).lnk = s.lnk ∧ (s.pollBudget).pwr = s.pwr ∧ (s.pollBudget).tim = s.tim ∧
    (s.pollBudget).xpt = s.xpt ∧ (s.pollBudget).obj = s.obj ∧ (s.pollBudget).inj = s.inj ∧ (s.pollBudget).hpt = s.hpt ∧
    (s.pollBudget).xlt = s.xlt ∧ (s.pollBudget).mat = s.mat ∧ (s.pollBudget).ram = s.ram ∧ (s.pollBudget).atu = s.atu ∧
    (s.pollBudget).col = s.col ∧ (s.pollBudget).cnt = s.cnt ∧ (s.pollBudget).mgt = s.mgt ∧ (s.pollBudget).lastRead =
    s.lastRead := by
  unfold State.pollBudget
  simp

@[simp] theorem State.setFloor_frame (s : State) (q : Nat) :
    (s.setFloor q).part = s.part ∧ (s.setFloor q).draws = s.draws ∧ (s.setFloor q).regs = s.regs ∧ (s.setFloor q).req = s.req
    ∧ (s.setFloor q).flt = s.flt ∧ (s.setFloor q).rt = s.rt ∧ (s.setFloor q).lnk = s.lnk ∧ (s.setFloor q).pwr = s.pwr ∧
    (s.setFloor q).tim = s.tim ∧ (s.setFloor q).xpt = s.xpt ∧ (s.setFloor q).inj = s.inj ∧ (s.setFloor q).hpt = s.hpt ∧
    (s.setFloor q).xlt = s.xlt ∧ (s.setFloor q).mat = s.mat ∧ (s.setFloor q).ram = s.ram ∧ (s.setFloor q).atu = s.atu ∧
    (s.setFloor q).col = s.col ∧ (s.setFloor q).cnt = s.cnt ∧ (s.setFloor q).mgt = s.mgt ∧ (s.setFloor q).lastRead =
    s.lastRead := by
  unfold State.setFloor
  simp

@[simp] theorem State.touch_frame (s : State) (tile : Nat) (e : TlbEntry) :
    (s.touch tile e).part = s.part ∧ (s.touch tile e).draws = s.draws ∧ (s.touch tile e).regs = s.regs ∧ (s.touch tile e).req
    = s.req ∧ (s.touch tile e).flt = s.flt ∧ (s.touch tile e).rt = s.rt ∧ (s.touch tile e).lnk = s.lnk ∧ (s.touch tile e).pwr
    = s.pwr ∧ (s.touch tile e).tim = s.tim ∧ (s.touch tile e).xpt = s.xpt ∧ (s.touch tile e).obj = s.obj ∧ (s.touch tile
    e).inj = s.inj ∧ (s.touch tile e).hpt = s.hpt ∧ (s.touch tile e).mat = s.mat ∧ (s.touch tile e).ram = s.ram ∧ (s.touch
    tile e).atu = s.atu ∧ (s.touch tile e).col = s.col ∧ (s.touch tile e).cnt = s.cnt ∧ (s.touch tile e).mgt = s.mgt ∧
    (s.touch tile e).lastRead = s.lastRead := by
  unfold State.touch
  try dsimp only
  repeat' split
  all_goals simp [apply_ite State.part, apply_ite State.draws, apply_ite State.regs, apply_ite State.req, apply_ite State.flt,
    apply_ite State.rt, apply_ite State.lnk, apply_ite State.pwr, apply_ite State.tim, apply_ite State.xpt, apply_ite
    State.obj, apply_ite State.inj, apply_ite State.hpt, apply_ite State.mat, apply_ite State.ram, apply_ite State.atu,
    apply_ite State.col, apply_ite State.cnt, apply_ite State.mgt, apply_ite State.lastRead]

@[simp] theorem State.xltFault_frame (s : State) (tile i va status level : Nat) (write : Bool) :
    (s.xltFault tile i va status level write).part = s.part ∧ (s.xltFault tile i va status level write).draws = s.draws ∧
    (s.xltFault tile i va status level write).req = s.req ∧ (s.xltFault tile i va status level write).flt = s.flt ∧
    (s.xltFault tile i va status level write).rt = s.rt ∧ (s.xltFault tile i va status level write).lnk = s.lnk ∧ (s.xltFault
    tile i va status level write).pwr = s.pwr ∧ (s.xltFault tile i va status level write).tim = s.tim ∧ (s.xltFault tile i va
    status level write).xpt = s.xpt ∧ (s.xltFault tile i va status level write).obj = s.obj ∧ (s.xltFault tile i va status
    level write).inj = s.inj ∧ (s.xltFault tile i va status level write).hpt = s.hpt ∧ (s.xltFault tile i va status level
    write).xlt = s.xlt ∧ (s.xltFault tile i va status level write).mat = s.mat ∧ (s.xltFault tile i va status level write).ram
    = s.ram ∧ (s.xltFault tile i va status level write).atu = s.atu ∧ (s.xltFault tile i va status level write).col = s.col ∧
    (s.xltFault tile i va status level write).cnt = s.cnt ∧ (s.xltFault tile i va status level write).mgt = s.mgt ∧
    (s.xltFault tile i va status level write).lastRead = s.lastRead := by
  unfold State.xltFault
  try dsimp only
  repeat' split
  all_goals simp [apply_ite State.part, apply_ite State.draws, apply_ite State.req, apply_ite State.flt, apply_ite State.rt,
    apply_ite State.lnk, apply_ite State.pwr, apply_ite State.tim, apply_ite State.xpt, apply_ite State.obj, apply_ite
    State.inj, apply_ite State.hpt, apply_ite State.xlt, apply_ite State.mat, apply_ite State.ram, apply_ite State.atu,
    apply_ite State.col, apply_ite State.cnt, apply_ite State.mgt, apply_ite State.lastRead]

@[simp] theorem State.raiseMiss_frame (s : State) (w : AccessId) (tile i va : Nat) (write : Bool) :
    (s.raiseMiss w tile i va write).part = s.part ∧ (s.raiseMiss w tile i va write).req = s.req ∧ (s.raiseMiss w tile i va
    write).flt = s.flt ∧ (s.raiseMiss w tile i va write).rt = s.rt ∧ (s.raiseMiss w tile i va write).lnk = s.lnk ∧
    (s.raiseMiss w tile i va write).tim = s.tim ∧ (s.raiseMiss w tile i va write).xpt = s.xpt ∧ (s.raiseMiss w tile i va
    write).obj = s.obj ∧ (s.raiseMiss w tile i va write).inj = s.inj ∧ (s.raiseMiss w tile i va write).hpt = s.hpt ∧
    (s.raiseMiss w tile i va write).mat = s.mat ∧ (s.raiseMiss w tile i va write).ram = s.ram ∧ (s.raiseMiss w tile i va
    write).atu = s.atu ∧ (s.raiseMiss w tile i va write).col = s.col ∧ (s.raiseMiss w tile i va write).mgt = s.mgt ∧
    (s.raiseMiss w tile i va write).lastRead = s.lastRead := by
  unfold State.raiseMiss
  try dsimp only
  repeat' split
  all_goals simp [apply_ite State.part, apply_ite State.req, apply_ite State.flt, apply_ite State.rt, apply_ite State.lnk,
    apply_ite State.tim, apply_ite State.xpt, apply_ite State.obj, apply_ite State.inj, apply_ite State.hpt, apply_ite
    State.mat, apply_ite State.ram, apply_ite State.atu, apply_ite State.col, apply_ite State.mgt, apply_ite State.lastRead]

@[simp] theorem State.flagUpdate_frame (s : State) (u : FlagUpdate) :
    (s.flagUpdate u).1.part = s.part ∧ (s.flagUpdate u).1.draws = s.draws ∧ (s.flagUpdate u).1.req = s.req ∧ (s.flagUpdate
    u).1.rt = s.rt ∧ (s.flagUpdate u).1.pwr = s.pwr ∧ (s.flagUpdate u).1.tim = s.tim ∧ (s.flagUpdate u).1.xpt = s.xpt ∧
    (s.flagUpdate u).1.obj = s.obj ∧ (s.flagUpdate u).1.inj = s.inj ∧ (s.flagUpdate u).1.mat = s.mat ∧ (s.flagUpdate u).1.ram
    = s.ram ∧ (s.flagUpdate u).1.atu = s.atu ∧ (s.flagUpdate u).1.col = s.col ∧ (s.flagUpdate u).1.mgt = s.mgt ∧ (s.flagUpdate
    u).1.lastRead = s.lastRead := by
  unfold State.flagUpdate
  try dsimp only
  repeat' split
  all_goals simp [apply_ite State.part, apply_ite State.draws, apply_ite State.req, apply_ite State.rt, apply_ite State.pwr,
    apply_ite State.tim, apply_ite State.xpt, apply_ite State.obj, apply_ite State.inj, apply_ite State.mat, apply_ite
    State.ram, apply_ite State.atu, apply_ite State.col, apply_ite State.mgt, apply_ite State.lastRead]

@[simp] theorem State.setDirty_frame (s : State) (w : AccessId) (tile va : Nat) (e : TlbEntry) :
    (s.setDirty w tile va e).1.part = s.part ∧ (s.setDirty w tile va e).1.draws = s.draws ∧ (s.setDirty w tile va e).1.req =
    s.req ∧ (s.setDirty w tile va e).1.rt = s.rt ∧ (s.setDirty w tile va e).1.pwr = s.pwr ∧ (s.setDirty w tile va e).1.tim =
    s.tim ∧ (s.setDirty w tile va e).1.xpt = s.xpt ∧ (s.setDirty w tile va e).1.obj = s.obj ∧ (s.setDirty w tile va e).1.inj =
    s.inj ∧ (s.setDirty w tile va e).1.mat = s.mat ∧ (s.setDirty w tile va e).1.ram = s.ram ∧ (s.setDirty w tile va e).1.atu =
    s.atu ∧ (s.setDirty w tile va e).1.col = s.col ∧ (s.setDirty w tile va e).1.mgt = s.mgt ∧ (s.setDirty w tile va
    e).1.lastRead = s.lastRead := by
  unfold State.setDirty
  try dsimp only
  repeat' split
  all_goals simp [apply_ite State.part, apply_ite State.draws, apply_ite State.req, apply_ite State.rt, apply_ite State.pwr,
    apply_ite State.tim, apply_ite State.xpt, apply_ite State.obj, apply_ite State.inj, apply_ite State.mat, apply_ite
    State.ram, apply_ite State.atu, apply_ite State.col, apply_ite State.mgt, apply_ite State.lastRead]

@[simp] theorem State.failWaits_frame (s : State) (m : Miss) (status : Nat) :
    (s.failWaits m status).part = s.part ∧ (s.failWaits m status).draws = s.draws ∧ (s.failWaits m status).regs = s.regs ∧
    (s.failWaits m status).req = s.req ∧ (s.failWaits m status).flt = s.flt ∧ (s.failWaits m status).rt = s.rt ∧ (s.failWaits
    m status).lnk = s.lnk ∧ (s.failWaits m status).pwr = s.pwr ∧ (s.failWaits m status).tim = s.tim ∧ (s.failWaits m
    status).xpt = s.xpt ∧ (s.failWaits m status).obj = s.obj ∧ (s.failWaits m status).inj = s.inj ∧ (s.failWaits m status).hpt
    = s.hpt ∧ (s.failWaits m status).mat = s.mat ∧ (s.failWaits m status).ram = s.ram ∧ (s.failWaits m status).atu = s.atu ∧
    (s.failWaits m status).col = s.col ∧ (s.failWaits m status).cnt = s.cnt ∧ (s.failWaits m status).mgt = s.mgt ∧
    (s.failWaits m status).lastRead = s.lastRead := by
  unfold State.failWaits
  simp

@[simp] theorem State.touchRange_frame (s : State) (tile i : Nat) (x0 : Nat) (x1 : Nat) (x2 : Nat) :
    (s.touchRange tile i x0 x1 x2).part = s.part ∧ (s.touchRange tile i x0 x1 x2).draws = s.draws ∧ (s.touchRange tile i x0 x1
    x2).regs = s.regs ∧ (s.touchRange tile i x0 x1 x2).req = s.req ∧ (s.touchRange tile i x0 x1 x2).flt = s.flt ∧
    (s.touchRange tile i x0 x1 x2).rt = s.rt ∧ (s.touchRange tile i x0 x1 x2).lnk = s.lnk ∧ (s.touchRange tile i x0 x1 x2).pwr
    = s.pwr ∧ (s.touchRange tile i x0 x1 x2).tim = s.tim ∧ (s.touchRange tile i x0 x1 x2).xpt = s.xpt ∧ (s.touchRange tile i
    x0 x1 x2).obj = s.obj ∧ (s.touchRange tile i x0 x1 x2).inj = s.inj ∧ (s.touchRange tile i x0 x1 x2).hpt = s.hpt ∧
    (s.touchRange tile i x0 x1 x2).mat = s.mat ∧ (s.touchRange tile i x0 x1 x2).ram = s.ram ∧ (s.touchRange tile i x0 x1
    x2).atu = s.atu ∧ (s.touchRange tile i x0 x1 x2).col = s.col ∧ (s.touchRange tile i x0 x1 x2).cnt = s.cnt ∧ (s.touchRange
    tile i x0 x1 x2).mgt = s.mgt ∧ (s.touchRange tile i x0 x1 x2).lastRead = s.lastRead := by
  induction x0 generalizing s tile i x1 x2 with
  | zero => unfold State.touchRange; repeat' split
            all_goals simp
  | succ n_ ih_ =>
    unfold State.touchRange
    repeat' split
    all_goals simp [ih_, apply_ite State.part, apply_ite State.draws, apply_ite State.regs, apply_ite State.req, apply_ite
      State.flt, apply_ite State.rt, apply_ite State.lnk, apply_ite State.pwr, apply_ite State.tim, apply_ite State.xpt,
      apply_ite State.obj, apply_ite State.inj, apply_ite State.hpt, apply_ite State.mat, apply_ite State.ram, apply_ite
      State.atu, apply_ite State.col, apply_ite State.cnt, apply_ite State.mgt, apply_ite State.lastRead]

@[simp] theorem State.access_frame (s : State) (w : AccessId) (tile i va n : Nat) (write : Bool) :
    (s.access w tile i va n write).1.part = s.part ∧ (s.access w tile i va n write).1.req = s.req ∧ (s.access w tile i va n
    write).1.rt = s.rt ∧ (s.access w tile i va n write).1.tim = s.tim ∧ (s.access w tile i va n write).1.xpt = s.xpt ∧
    (s.access w tile i va n write).1.obj = s.obj ∧ (s.access w tile i va n write).1.inj = s.inj ∧ (s.access w tile i va n
    write).1.mat = s.mat ∧ (s.access w tile i va n write).1.ram = s.ram ∧ (s.access w tile i va n write).1.atu = s.atu ∧
    (s.access w tile i va n write).1.col = s.col ∧ (s.access w tile i va n write).1.mgt = s.mgt ∧ (s.access w tile i va n
    write).1.lastRead = s.lastRead := by
  unfold State.access
  try dsimp only
  repeat' split
  all_goals simp [apply_ite State.part, apply_ite State.req, apply_ite State.rt, apply_ite State.tim, apply_ite State.xpt,
    apply_ite State.obj, apply_ite State.inj, apply_ite State.mat, apply_ite State.ram, apply_ite State.atu, apply_ite
    State.col, apply_ite State.mgt, apply_ite State.lastRead]

@[simp] theorem State.lookKey_frame (s : State) :
    (s.lookKey).part = s.part ∧ (s.lookKey).regs = s.regs ∧ (s.lookKey).req = s.req ∧ (s.lookKey).flt = s.flt ∧ (s.lookKey).rt
    = s.rt ∧ (s.lookKey).lnk = s.lnk ∧ (s.lookKey).pwr = s.pwr ∧ (s.lookKey).tim = s.tim ∧ (s.lookKey).xpt = s.xpt ∧
    (s.lookKey).obj = s.obj ∧ (s.lookKey).inj = s.inj ∧ (s.lookKey).hpt = s.hpt ∧ (s.lookKey).xlt = s.xlt ∧ (s.lookKey).mat =
    s.mat ∧ (s.lookKey).ram = s.ram ∧ (s.lookKey).atu = s.atu ∧ (s.lookKey).col = s.col ∧ (s.lookKey).mgt = s.mgt ∧
    (s.lookKey).lastRead = s.lastRead := by
  unfold State.lookKey
  simp

@[simp] theorem State.logPage_frame (s : State) (i addr log2 : Nat) :
    (s.logPage i addr log2).part = s.part ∧ (s.logPage i addr log2).draws = s.draws ∧ (s.logPage i addr log2).req = s.req ∧
    (s.logPage i addr log2).flt = s.flt ∧ (s.logPage i addr log2).rt = s.rt ∧ (s.logPage i addr log2).lnk = s.lnk ∧ (s.logPage
    i addr log2).pwr = s.pwr ∧ (s.logPage i addr log2).tim = s.tim ∧ (s.logPage i addr log2).xpt = s.xpt ∧ (s.logPage i addr
    log2).inj = s.inj ∧ (s.logPage i addr log2).xlt = s.xlt ∧ (s.logPage i addr log2).mat = s.mat ∧ (s.logPage i addr
    log2).ram = s.ram ∧ (s.logPage i addr log2).atu = s.atu ∧ (s.logPage i addr log2).col = s.col ∧ (s.logPage i addr
    log2).mgt = s.mgt ∧ (s.logPage i addr log2).lastRead = s.lastRead := by
  unfold State.logPage
  try dsimp only
  repeat' split
  all_goals simp [apply_ite State.part, apply_ite State.draws, apply_ite State.req, apply_ite State.flt, apply_ite State.rt,
    apply_ite State.lnk, apply_ite State.pwr, apply_ite State.tim, apply_ite State.xpt, apply_ite State.inj, apply_ite
    State.xlt, apply_ite State.mat, apply_ite State.ram, apply_ite State.atu, apply_ite State.col, apply_ite State.mgt,
    apply_ite State.lastRead]

@[simp] theorem State.invalidate_frame (s : State) (i va len : Nat) :
    (s.invalidate i va len).part = s.part ∧ (s.invalidate i va len).draws = s.draws ∧ (s.invalidate i va len).req = s.req ∧
    (s.invalidate i va len).flt = s.flt ∧ (s.invalidate i va len).rt = s.rt ∧ (s.invalidate i va len).lnk = s.lnk ∧
    (s.invalidate i va len).pwr = s.pwr ∧ (s.invalidate i va len).tim = s.tim ∧ (s.invalidate i va len).xpt = s.xpt ∧
    (s.invalidate i va len).obj = s.obj ∧ (s.invalidate i va len).inj = s.inj ∧ (s.invalidate i va len).mat = s.mat ∧
    (s.invalidate i va len).ram = s.ram ∧ (s.invalidate i va len).col = s.col ∧ (s.invalidate i va len).cnt = s.cnt ∧
    (s.invalidate i va len).mgt = s.mgt ∧ (s.invalidate i va len).lastRead = s.lastRead := by
  unfold State.invalidate
  try dsimp only
  repeat' split
  all_goals simp [apply_ite State.part, apply_ite State.draws, apply_ite State.req, apply_ite State.flt, apply_ite State.rt,
    apply_ite State.lnk, apply_ite State.pwr, apply_ite State.tim, apply_ite State.xpt, apply_ite State.obj, apply_ite
    State.inj, apply_ite State.mat, apply_ite State.ram, apply_ite State.col, apply_ite State.cnt, apply_ite State.mgt,
    apply_ite State.lastRead]

@[simp] theorem State.modAgree_frame (s : State) (p : Nat) (f : Agree → Agree) :
    (s.modAgree p f).part = s.part ∧ (s.modAgree p f).draws = s.draws ∧ (s.modAgree p f).regs = s.regs ∧ (s.modAgree p f).req
    = s.req ∧ (s.modAgree p f).flt = s.flt ∧ (s.modAgree p f).rt = s.rt ∧ (s.modAgree p f).lnk = s.lnk ∧ (s.modAgree p f).pwr
    = s.pwr ∧ (s.modAgree p f).tim = s.tim ∧ (s.modAgree p f).xpt = s.xpt ∧ (s.modAgree p f).obj = s.obj ∧ (s.modAgree p
    f).inj = s.inj ∧ (s.modAgree p f).hpt = s.hpt ∧ (s.modAgree p f).xlt = s.xlt ∧ (s.modAgree p f).mat = s.mat ∧ (s.modAgree
    p f).ram = s.ram ∧ (s.modAgree p f).atu = s.atu ∧ (s.modAgree p f).col = s.col ∧ (s.modAgree p f).cnt = s.cnt ∧
    (s.modAgree p f).lastRead = s.lastRead := by
  unfold State.modAgree
  simp

@[simp] theorem State.noteSent_frame (s : State) (p T : Nat) (reply : Bool) (r0 : Nat) :
    (s.noteSent p T reply r0).part = s.part ∧ (s.noteSent p T reply r0).req = s.req ∧ (s.noteSent p T reply r0).rt = s.rt ∧
    (s.noteSent p T reply r0).tim = s.tim ∧ (s.noteSent p T reply r0).xlt = s.xlt ∧ (s.noteSent p T reply r0).ram = s.ram ∧
    (s.noteSent p T reply r0).atu = s.atu ∧ (s.noteSent p T reply r0).lastRead = s.lastRead := by
  unfold State.noteSent
  try dsimp only
  repeat' split
  all_goals simp [apply_ite State.part, apply_ite State.req, apply_ite State.rt, apply_ite State.tim, apply_ite State.xlt,
    apply_ite State.ram, apply_ite State.atu, apply_ite State.lastRead]

@[simp] theorem State.sendRecord_frame (s : State) (p T : Nat) (reply : Bool) (r0 : Nat) :
    (s.sendRecord p T reply r0).part = s.part ∧ (s.sendRecord p T reply r0).req = s.req ∧ (s.sendRecord p T reply r0).tim =
    s.tim ∧ (s.sendRecord p T reply r0).xlt = s.xlt ∧ (s.sendRecord p T reply r0).ram = s.ram ∧ (s.sendRecord p T reply
    r0).atu = s.atu ∧ (s.sendRecord p T reply r0).lastRead = s.lastRead := by
  unfold State.sendRecord
  generalize s.digestCell T reply r0 = cell
  generalize digestOf r0 = d
  try dsimp only
  repeat' split
  all_goals simp [apply_ite State.part, apply_ite State.req, apply_ite State.tim, apply_ite State.xlt, apply_ite State.ram,
    apply_ite State.atu, apply_ite State.lastRead]

@[simp] theorem State.sendDigest_frame (s : State) (p T : Nat) (reply : Bool) :
    (s.sendDigest p T reply).part = s.part ∧ (s.sendDigest p T reply).req = s.req ∧ (s.sendDigest p T reply).tim = s.tim ∧
    (s.sendDigest p T reply).xlt = s.xlt ∧ (s.sendDigest p T reply).ram = s.ram ∧ (s.sendDigest p T reply).atu = s.atu ∧
    (s.sendDigest p T reply).lastRead = s.lastRead := by
  unfold State.sendDigest
  simp

@[simp] theorem State.flushDigest_frame (s : State) (p : Nat) :
    (s.flushDigest p).part = s.part ∧ (s.flushDigest p).req = s.req ∧ (s.flushDigest p).tim = s.tim ∧ (s.flushDigest p).xlt =
    s.xlt ∧ (s.flushDigest p).ram = s.ram ∧ (s.flushDigest p).atu = s.atu ∧ (s.flushDigest p).lastRead = s.lastRead := by
  unfold State.flushDigest
  simp

@[simp] theorem State.quarantine_frame (s : State) (p : Nat) :
    (s.quarantine p).part = s.part ∧ (s.quarantine p).draws = s.draws ∧ (s.quarantine p).req = s.req ∧ (s.quarantine p).pwr =
    s.pwr ∧ (s.quarantine p).xpt = s.xpt ∧ (s.quarantine p).obj = s.obj ∧ (s.quarantine p).inj = s.inj ∧ (s.quarantine p).hpt
    = s.hpt ∧ (s.quarantine p).xlt = s.xlt ∧ (s.quarantine p).mat = s.mat ∧ (s.quarantine p).ram = s.ram ∧ (s.quarantine
    p).atu = s.atu ∧ (s.quarantine p).col = s.col ∧ (s.quarantine p).mgt = s.mgt ∧ (s.quarantine p).lastRead = s.lastRead :=
    by
  unfold State.quarantine
  try dsimp only
  repeat' split
  all_goals simp [apply_ite State.part, apply_ite State.draws, apply_ite State.req, apply_ite State.pwr, apply_ite State.xpt,
    apply_ite State.obj, apply_ite State.inj, apply_ite State.hpt, apply_ite State.xlt, apply_ite State.mat, apply_ite
    State.ram, apply_ite State.atu, apply_ite State.col, apply_ite State.mgt, apply_ite State.lastRead]

@[simp] theorem State.linkUp_frame (s : State) (p : Nat) :
    (s.linkUp p).part = s.part ∧ (s.linkUp p).draws = s.draws ∧ (s.linkUp p).req = s.req ∧ (s.linkUp p).rt = s.rt ∧ (s.linkUp
    p).lnk = s.lnk ∧ (s.linkUp p).pwr = s.pwr ∧ (s.linkUp p).tim = s.tim ∧ (s.linkUp p).xpt = s.xpt ∧ (s.linkUp p).obj = s.obj
    ∧ (s.linkUp p).inj = s.inj ∧ (s.linkUp p).hpt = s.hpt ∧ (s.linkUp p).xlt = s.xlt ∧ (s.linkUp p).mat = s.mat ∧ (s.linkUp
    p).ram = s.ram ∧ (s.linkUp p).atu = s.atu ∧ (s.linkUp p).col = s.col ∧ (s.linkUp p).cnt = s.cnt ∧ (s.linkUp p).mgt = s.mgt
    ∧ (s.linkUp p).lastRead = s.lastRead := by
  unfold State.linkUp
  try dsimp only
  repeat' split
  all_goals simp [apply_ite State.part, apply_ite State.draws, apply_ite State.req, apply_ite State.rt, apply_ite State.lnk,
    apply_ite State.pwr, apply_ite State.tim, apply_ite State.xpt, apply_ite State.obj, apply_ite State.inj, apply_ite
    State.hpt, apply_ite State.xlt, apply_ite State.mat, apply_ite State.ram, apply_ite State.atu, apply_ite State.col,
    apply_ite State.cnt, apply_ite State.mgt, apply_ite State.lastRead]

@[simp] theorem State.decideLink_frame (s : State) (p own : Nat) (c : Cell) :
    (s.decideLink p own c).part = s.part ∧ (s.decideLink p own c).draws = s.draws ∧ (s.decideLink p own c).req = s.req ∧
    (s.decideLink p own c).pwr = s.pwr ∧ (s.decideLink p own c).xpt = s.xpt ∧ (s.decideLink p own c).obj = s.obj ∧
    (s.decideLink p own c).inj = s.inj ∧ (s.decideLink p own c).hpt = s.hpt ∧ (s.decideLink p own c).xlt = s.xlt ∧
    (s.decideLink p own c).mat = s.mat ∧ (s.decideLink p own c).ram = s.ram ∧ (s.decideLink p own c).atu = s.atu ∧
    (s.decideLink p own c).col = s.col ∧ (s.decideLink p own c).mgt = s.mgt ∧ (s.decideLink p own c).lastRead = s.lastRead :=
    by
  unfold State.decideLink
  try dsimp only
  repeat' split
  all_goals simp [apply_ite State.part, apply_ite State.draws, apply_ite State.req, apply_ite State.pwr, apply_ite State.xpt,
    apply_ite State.obj, apply_ite State.inj, apply_ite State.hpt, apply_ite State.xlt, apply_ite State.mat, apply_ite
    State.ram, apply_ite State.atu, apply_ite State.col, apply_ite State.mgt, apply_ite State.lastRead]

@[simp] theorem State.answerDigest_frame (s : State) (p : Nat) (c : Cell) :
    (s.answerDigest p c).part = s.part ∧ (s.answerDigest p c).req = s.req ∧ (s.answerDigest p c).xlt = s.xlt ∧ (s.answerDigest
    p c).ram = s.ram ∧ (s.answerDigest p c).atu = s.atu ∧ (s.answerDigest p c).lastRead = s.lastRead := by
  unfold State.answerDigest
  try dsimp only
  repeat' split
  all_goals simp [apply_ite State.part, apply_ite State.req, apply_ite State.xlt, apply_ite State.ram, apply_ite State.atu,
    apply_ite State.lastRead]

@[simp] theorem State.takeDigest_frame (s : State) (p : Nat) (c : Cell) :
    (s.takeDigest p c).part = s.part ∧ (s.takeDigest p c).req = s.req ∧ (s.takeDigest p c).xlt = s.xlt ∧ (s.takeDigest p
    c).ram = s.ram ∧ (s.takeDigest p c).atu = s.atu ∧ (s.takeDigest p c).lastRead = s.lastRead := by
  unfold State.takeDigest
  try dsimp only
  repeat' split
  all_goals simp [apply_ite State.part, apply_ite State.req, apply_ite State.xlt, apply_ite State.ram, apply_ite State.atu,
    apply_ite State.lastRead]

@[simp] theorem State.tideDigest_frame (s : State) (T : Nat) :
    (s.tideDigest T).part = s.part ∧ (s.tideDigest T).req = s.req ∧ (s.tideDigest T).xlt = s.xlt ∧ (s.tideDigest T).ram =
    s.ram ∧ (s.tideDigest T).atu = s.atu ∧ (s.tideDigest T).lastRead = s.lastRead := by
  unfold State.tideDigest
  try dsimp only
  repeat' split
  all_goals simp [apply_ite State.part, apply_ite State.req, apply_ite State.xlt, apply_ite State.ram, apply_ite State.atu,
    apply_ite State.lastRead]

@[simp] theorem State.digestAtUp_frame (s : State) (p : Nat) :
    (s.digestAtUp p).part = s.part ∧ (s.digestAtUp p).req = s.req ∧ (s.digestAtUp p).tim = s.tim ∧ (s.digestAtUp p).xlt =
    s.xlt ∧ (s.digestAtUp p).ram = s.ram ∧ (s.digestAtUp p).atu = s.atu ∧ (s.digestAtUp p).lastRead = s.lastRead := by
  unfold State.digestAtUp
  simp

@[simp] theorem State.stepsOn_frame (s : State) (x0 : Nat) :
    (s.stepsOn x0).part = s.part ∧ (s.stepsOn x0).draws = s.draws ∧ (s.stepsOn x0).req = s.req ∧ (s.stepsOn x0).flt = s.flt ∧
    (s.stepsOn x0).rt = s.rt ∧ (s.stepsOn x0).lnk = s.lnk ∧ (s.stepsOn x0).pwr = s.pwr ∧ (s.stepsOn x0).tim = s.tim ∧
    (s.stepsOn x0).xpt = s.xpt ∧ (s.stepsOn x0).obj = s.obj ∧ (s.stepsOn x0).inj = s.inj ∧ (s.stepsOn x0).hpt = s.hpt ∧
    (s.stepsOn x0).xlt = s.xlt ∧ (s.stepsOn x0).mat = s.mat ∧ (s.stepsOn x0).ram = s.ram ∧ (s.stepsOn x0).atu = s.atu ∧
    (s.stepsOn x0).col = s.col ∧ (s.stepsOn x0).cnt = s.cnt ∧ (s.stepsOn x0).mgt = s.mgt ∧ (s.stepsOn x0).lastRead =
    s.lastRead := by
  induction x0 generalizing s with
  | zero => unfold State.stepsOn; repeat' split
            all_goals simp
  | succ n_ ih_ =>
    unfold State.stepsOn
    repeat' split
    all_goals simp [ih_, apply_ite State.part, apply_ite State.draws, apply_ite State.req, apply_ite State.flt, apply_ite
      State.rt, apply_ite State.lnk, apply_ite State.pwr, apply_ite State.tim, apply_ite State.xpt, apply_ite State.obj,
      apply_ite State.inj, apply_ite State.hpt, apply_ite State.xlt, apply_ite State.mat, apply_ite State.ram, apply_ite
      State.atu, apply_ite State.col, apply_ite State.cnt, apply_ite State.mgt, apply_ite State.lastRead]

@[simp] theorem State.progress_frame (s : State) :
    (s.progress).part = s.part ∧ (s.progress).draws = s.draws ∧ (s.progress).req = s.req ∧ (s.progress).flt = s.flt ∧
    (s.progress).rt = s.rt ∧ (s.progress).lnk = s.lnk ∧ (s.progress).pwr = s.pwr ∧ (s.progress).tim = s.tim ∧ (s.progress).xpt
    = s.xpt ∧ (s.progress).obj = s.obj ∧ (s.progress).inj = s.inj ∧ (s.progress).hpt = s.hpt ∧ (s.progress).xlt = s.xlt ∧
    (s.progress).mat = s.mat ∧ (s.progress).ram = s.ram ∧ (s.progress).atu = s.atu ∧ (s.progress).col = s.col ∧
    (s.progress).cnt = s.cnt ∧ (s.progress).mgt = s.mgt ∧ (s.progress).lastRead = s.lastRead := by
  unfold State.progress
  try dsimp only
  repeat' split
  all_goals simp [apply_ite State.part, apply_ite State.draws, apply_ite State.req, apply_ite State.flt, apply_ite State.rt,
    apply_ite State.lnk, apply_ite State.pwr, apply_ite State.tim, apply_ite State.xpt, apply_ite State.obj, apply_ite
    State.inj, apply_ite State.hpt, apply_ite State.xlt, apply_ite State.mat, apply_ite State.ram, apply_ite State.atu,
    apply_ite State.col, apply_ite State.cnt, apply_ite State.mgt, apply_ite State.lastRead]

@[simp] theorem State.switchRoute_frame (s : State) (e T : Nat) :
    (s.switchRoute e T).part = s.part ∧ (s.switchRoute e T).draws = s.draws ∧ (s.switchRoute e T).req = s.req ∧ (s.switchRoute
    e T).flt = s.flt ∧ (s.switchRoute e T).lnk = s.lnk ∧ (s.switchRoute e T).pwr = s.pwr ∧ (s.switchRoute e T).tim = s.tim ∧
    (s.switchRoute e T).xpt = s.xpt ∧ (s.switchRoute e T).obj = s.obj ∧ (s.switchRoute e T).inj = s.inj ∧ (s.switchRoute e
    T).hpt = s.hpt ∧ (s.switchRoute e T).xlt = s.xlt ∧ (s.switchRoute e T).mat = s.mat ∧ (s.switchRoute e T).ram = s.ram ∧
    (s.switchRoute e T).atu = s.atu ∧ (s.switchRoute e T).col = s.col ∧ (s.switchRoute e T).cnt = s.cnt ∧ (s.switchRoute e
    T).mgt = s.mgt ∧ (s.switchRoute e T).lastRead = s.lastRead := by
  unfold State.switchRoute
  simp

@[simp] theorem State.switchSched_frame (s : State) (e T : Nat) :
    (s.switchSched e T).part = s.part ∧ (s.switchSched e T).draws = s.draws ∧ (s.switchSched e T).req = s.req ∧ (s.switchSched
    e T).flt = s.flt ∧ (s.switchSched e T).rt = s.rt ∧ (s.switchSched e T).lnk = s.lnk ∧ (s.switchSched e T).pwr = s.pwr ∧
    (s.switchSched e T).xpt = s.xpt ∧ (s.switchSched e T).obj = s.obj ∧ (s.switchSched e T).inj = s.inj ∧ (s.switchSched e
    T).hpt = s.hpt ∧ (s.switchSched e T).xlt = s.xlt ∧ (s.switchSched e T).mat = s.mat ∧ (s.switchSched e T).ram = s.ram ∧
    (s.switchSched e T).atu = s.atu ∧ (s.switchSched e T).col = s.col ∧ (s.switchSched e T).cnt = s.cnt ∧ (s.switchSched e
    T).mgt = s.mgt ∧ (s.switchSched e T).lastRead = s.lastRead := by
  unfold State.switchSched
  simp

@[simp] theorem State.trainLane_frame (s : State) (l : Nat) :
    (s.trainLane l).part = s.part ∧ (s.trainLane l).req = s.req ∧ (s.trainLane l).flt = s.flt ∧ (s.trainLane l).rt = s.rt ∧
    (s.trainLane l).pwr = s.pwr ∧ (s.trainLane l).tim = s.tim ∧ (s.trainLane l).xpt = s.xpt ∧ (s.trainLane l).obj = s.obj ∧
    (s.trainLane l).inj = s.inj ∧ (s.trainLane l).hpt = s.hpt ∧ (s.trainLane l).xlt = s.xlt ∧ (s.trainLane l).mat = s.mat ∧
    (s.trainLane l).ram = s.ram ∧ (s.trainLane l).atu = s.atu ∧ (s.trainLane l).col = s.col ∧ (s.trainLane l).cnt = s.cnt ∧
    (s.trainLane l).mgt = s.mgt ∧ (s.trainLane l).lastRead = s.lastRead := by
  unfold State.trainLane
  simp

@[simp] theorem State.startTraining_frame (s : State) (ls : List Nat) :
    (s.startTraining ls).part = s.part ∧ (s.startTraining ls).req = s.req ∧ (s.startTraining ls).flt = s.flt ∧
    (s.startTraining ls).rt = s.rt ∧ (s.startTraining ls).pwr = s.pwr ∧ (s.startTraining ls).tim = s.tim ∧ (s.startTraining
    ls).xpt = s.xpt ∧ (s.startTraining ls).obj = s.obj ∧ (s.startTraining ls).inj = s.inj ∧ (s.startTraining ls).hpt = s.hpt ∧
    (s.startTraining ls).xlt = s.xlt ∧ (s.startTraining ls).mat = s.mat ∧ (s.startTraining ls).ram = s.ram ∧ (s.startTraining
    ls).atu = s.atu ∧ (s.startTraining ls).col = s.col ∧ (s.startTraining ls).cnt = s.cnt ∧ (s.startTraining ls).mgt = s.mgt ∧
    (s.startTraining ls).lastRead = s.lastRead := by
  unfold State.startTraining
  try dsimp only
  repeat' split
  all_goals simp [apply_ite State.part, apply_ite State.req, apply_ite State.flt, apply_ite State.rt, apply_ite State.pwr,
    apply_ite State.tim, apply_ite State.xpt, apply_ite State.obj, apply_ite State.inj, apply_ite State.hpt, apply_ite
    State.xlt, apply_ite State.mat, apply_ite State.ram, apply_ite State.atu, apply_ite State.col, apply_ite State.cnt,
    apply_ite State.mgt, apply_ite State.lastRead]

@[simp] theorem State.askTraining_frame (s : State) (ls : List Nat) :
    (s.askTraining ls).part = s.part ∧ (s.askTraining ls).req = s.req ∧ (s.askTraining ls).flt = s.flt ∧ (s.askTraining ls).rt
    = s.rt ∧ (s.askTraining ls).tim = s.tim ∧ (s.askTraining ls).xpt = s.xpt ∧ (s.askTraining ls).obj = s.obj ∧ (s.askTraining
    ls).inj = s.inj ∧ (s.askTraining ls).hpt = s.hpt ∧ (s.askTraining ls).xlt = s.xlt ∧ (s.askTraining ls).mat = s.mat ∧
    (s.askTraining ls).ram = s.ram ∧ (s.askTraining ls).atu = s.atu ∧ (s.askTraining ls).col = s.col ∧ (s.askTraining ls).cnt
    = s.cnt ∧ (s.askTraining ls).mgt = s.mgt ∧ (s.askTraining ls).lastRead = s.lastRead := by
  unfold State.askTraining
  try dsimp only
  repeat' split
  all_goals simp [apply_ite State.part, apply_ite State.req, apply_ite State.flt, apply_ite State.rt, apply_ite State.tim,
    apply_ite State.xpt, apply_ite State.obj, apply_ite State.inj, apply_ite State.hpt, apply_ite State.xlt, apply_ite
    State.mat, apply_ite State.ram, apply_ite State.atu, apply_ite State.col, apply_ite State.cnt, apply_ite State.mgt,
    apply_ite State.lastRead]

@[simp] theorem State.leaveLink_frame (s : State) (p : Nat) :
    (s.leaveLink p).part = s.part ∧ (s.leaveLink p).req = s.req ∧ (s.leaveLink p).pwr = s.pwr ∧ (s.leaveLink p).xpt = s.xpt ∧
    (s.leaveLink p).obj = s.obj ∧ (s.leaveLink p).inj = s.inj ∧ (s.leaveLink p).hpt = s.hpt ∧ (s.leaveLink p).xlt = s.xlt ∧
    (s.leaveLink p).mat = s.mat ∧ (s.leaveLink p).ram = s.ram ∧ (s.leaveLink p).atu = s.atu ∧ (s.leaveLink p).col = s.col ∧
    (s.leaveLink p).lastRead = s.lastRead := by
  unfold State.leaveLink
  try dsimp only
  repeat' split
  all_goals simp [apply_ite State.part, apply_ite State.req, apply_ite State.pwr, apply_ite State.xpt, apply_ite State.obj,
    apply_ite State.inj, apply_ite State.hpt, apply_ite State.xlt, apply_ite State.mat, apply_ite State.ram, apply_ite
    State.atu, apply_ite State.col, apply_ite State.lastRead]

@[simp] theorem State.linkLost_frame (s : State) (p : Nat) :
    (s.linkLost p).part = s.part ∧ (s.linkLost p).req = s.req ∧ (s.linkLost p).xpt = s.xpt ∧ (s.linkLost p).obj = s.obj ∧
    (s.linkLost p).inj = s.inj ∧ (s.linkLost p).hpt = s.hpt ∧ (s.linkLost p).xlt = s.xlt ∧ (s.linkLost p).mat = s.mat ∧
    (s.linkLost p).ram = s.ram ∧ (s.linkLost p).atu = s.atu ∧ (s.linkLost p).col = s.col ∧ (s.linkLost p).lastRead =
    s.lastRead := by
  unfold State.linkLost
  try dsimp only
  repeat' split
  all_goals simp [apply_ite State.part, apply_ite State.req, apply_ite State.xpt, apply_ite State.obj, apply_ite State.inj,
    apply_ite State.hpt, apply_ite State.xlt, apply_ite State.mat, apply_ite State.ram, apply_ite State.atu, apply_ite
    State.col, apply_ite State.lastRead]

@[simp] theorem State.linkOffHere_frame (s : State) (p : Nat) :
    (s.linkOffHere p).part = s.part ∧ (s.linkOffHere p).req = s.req ∧ (s.linkOffHere p).pwr = s.pwr ∧ (s.linkOffHere p).xpt =
    s.xpt ∧ (s.linkOffHere p).obj = s.obj ∧ (s.linkOffHere p).inj = s.inj ∧ (s.linkOffHere p).hpt = s.hpt ∧ (s.linkOffHere
    p).xlt = s.xlt ∧ (s.linkOffHere p).mat = s.mat ∧ (s.linkOffHere p).ram = s.ram ∧ (s.linkOffHere p).atu = s.atu ∧
    (s.linkOffHere p).col = s.col ∧ (s.linkOffHere p).lastRead = s.lastRead := by
  unfold State.linkOffHere
  try dsimp only
  repeat' split
  all_goals simp [apply_ite State.part, apply_ite State.req, apply_ite State.pwr, apply_ite State.xpt, apply_ite State.obj,
    apply_ite State.inj, apply_ite State.hpt, apply_ite State.xlt, apply_ite State.mat, apply_ite State.ram, apply_ite
    State.atu, apply_ite State.col, apply_ite State.lastRead]

@[simp] theorem State.sayAck_frame (s : State) (p : Nat) :
    (s.sayAck p).part = s.part ∧ (s.sayAck p).draws = s.draws ∧ (s.sayAck p).regs = s.regs ∧ (s.sayAck p).req = s.req ∧
    (s.sayAck p).flt = s.flt ∧ (s.sayAck p).rt = s.rt ∧ (s.sayAck p).pwr = s.pwr ∧ (s.sayAck p).tim = s.tim ∧ (s.sayAck p).xpt
    = s.xpt ∧ (s.sayAck p).obj = s.obj ∧ (s.sayAck p).inj = s.inj ∧ (s.sayAck p).hpt = s.hpt ∧ (s.sayAck p).xlt = s.xlt ∧
    (s.sayAck p).mat = s.mat ∧ (s.sayAck p).ram = s.ram ∧ (s.sayAck p).atu = s.atu ∧ (s.sayAck p).col = s.col ∧ (s.sayAck
    p).cnt = s.cnt ∧ (s.sayAck p).mgt = s.mgt ∧ (s.sayAck p).lastRead = s.lastRead := by
  unfold State.sayAck
  simp

@[simp] theorem State.sayCredits_frame (s : State) (p : Nat) :
    (s.sayCredits p).part = s.part ∧ (s.sayCredits p).draws = s.draws ∧ (s.sayCredits p).regs = s.regs ∧ (s.sayCredits p).req
    = s.req ∧ (s.sayCredits p).flt = s.flt ∧ (s.sayCredits p).rt = s.rt ∧ (s.sayCredits p).pwr = s.pwr ∧ (s.sayCredits p).tim
    = s.tim ∧ (s.sayCredits p).xpt = s.xpt ∧ (s.sayCredits p).obj = s.obj ∧ (s.sayCredits p).inj = s.inj ∧ (s.sayCredits
    p).hpt = s.hpt ∧ (s.sayCredits p).xlt = s.xlt ∧ (s.sayCredits p).mat = s.mat ∧ (s.sayCredits p).ram = s.ram ∧
    (s.sayCredits p).atu = s.atu ∧ (s.sayCredits p).col = s.col ∧ (s.sayCredits p).cnt = s.cnt ∧ (s.sayCredits p).mgt = s.mgt
    ∧ (s.sayCredits p).lastRead = s.lastRead := by
  unfold State.sayCredits
  simp

@[simp] theorem State.askPhase_frame (s : State) (p n : Nat) :
    (s.askPhase p n).part = s.part ∧ (s.askPhase p n).draws = s.draws ∧ (s.askPhase p n).regs = s.regs ∧ (s.askPhase p n).req
    = s.req ∧ (s.askPhase p n).flt = s.flt ∧ (s.askPhase p n).rt = s.rt ∧ (s.askPhase p n).pwr = s.pwr ∧ (s.askPhase p n).tim
    = s.tim ∧ (s.askPhase p n).xpt = s.xpt ∧ (s.askPhase p n).obj = s.obj ∧ (s.askPhase p n).inj = s.inj ∧ (s.askPhase p
    n).hpt = s.hpt ∧ (s.askPhase p n).xlt = s.xlt ∧ (s.askPhase p n).mat = s.mat ∧ (s.askPhase p n).ram = s.ram ∧ (s.askPhase
    p n).atu = s.atu ∧ (s.askPhase p n).col = s.col ∧ (s.askPhase p n).cnt = s.cnt ∧ (s.askPhase p n).mgt = s.mgt ∧
    (s.askPhase p n).lastRead = s.lastRead := by
  unfold State.askPhase
  simp

@[simp] theorem State.reachFull_frame (s : State) (p : Nat) :
    (s.reachFull p).part = s.part ∧ (s.reachFull p).req = s.req ∧ (s.reachFull p).xlt = s.xlt ∧ (s.reachFull p).ram = s.ram ∧
    (s.reachFull p).atu = s.atu ∧ (s.reachFull p).lastRead = s.lastRead := by
  unfold State.reachFull
  try dsimp only
  repeat' split
  all_goals simp

@[simp] theorem State.exitCheck_frame (s : State) (p : Nat) :
    (s.exitCheck p).part = s.part ∧ (s.exitCheck p).req = s.req ∧ (s.exitCheck p).xlt = s.xlt ∧ (s.exitCheck p).ram = s.ram ∧
    (s.exitCheck p).atu = s.atu ∧ (s.exitCheck p).lastRead = s.lastRead := by
  unfold State.exitCheck
  try dsimp only
  repeat' split
  all_goals simp [apply_ite State.part, apply_ite State.req, apply_ite State.xlt, apply_ite State.ram, apply_ite State.atu,
    apply_ite State.lastRead]

@[simp] theorem State.startExitOf_frame (s : State) (p cause : Nat) :
    (s.startExitOf p cause).part = s.part ∧ (s.startExitOf p cause).draws = s.draws ∧ (s.startExitOf p cause).req = s.req ∧
    (s.startExitOf p cause).flt = s.flt ∧ (s.startExitOf p cause).rt = s.rt ∧ (s.startExitOf p cause).tim = s.tim ∧
    (s.startExitOf p cause).xpt = s.xpt ∧ (s.startExitOf p cause).obj = s.obj ∧ (s.startExitOf p cause).inj = s.inj ∧
    (s.startExitOf p cause).hpt = s.hpt ∧ (s.startExitOf p cause).xlt = s.xlt ∧ (s.startExitOf p cause).mat = s.mat ∧
    (s.startExitOf p cause).ram = s.ram ∧ (s.startExitOf p cause).atu = s.atu ∧ (s.startExitOf p cause).col = s.col ∧
    (s.startExitOf p cause).cnt = s.cnt ∧ (s.startExitOf p cause).mgt = s.mgt ∧ (s.startExitOf p cause).lastRead = s.lastRead
    := by
  unfold State.startExitOf
  try dsimp only
  repeat' split
  all_goals simp [apply_ite State.part, apply_ite State.draws, apply_ite State.req, apply_ite State.flt, apply_ite State.rt,
    apply_ite State.tim, apply_ite State.xpt, apply_ite State.obj, apply_ite State.inj, apply_ite State.hpt, apply_ite
    State.xlt, apply_ite State.mat, apply_ite State.ram, apply_ite State.atu, apply_ite State.col, apply_ite State.cnt,
    apply_ite State.mgt, apply_ite State.lastRead]

@[simp] theorem State.applyPhase_frame (s : State) (p : Nat) :
    (s.applyPhase p).part = s.part ∧ (s.applyPhase p).draws = s.draws ∧ (s.applyPhase p).req = s.req ∧ (s.applyPhase p).pwr =
    s.pwr ∧ (s.applyPhase p).xpt = s.xpt ∧ (s.applyPhase p).obj = s.obj ∧ (s.applyPhase p).inj = s.inj ∧ (s.applyPhase p).hpt
    = s.hpt ∧ (s.applyPhase p).xlt = s.xlt ∧ (s.applyPhase p).mat = s.mat ∧ (s.applyPhase p).ram = s.ram ∧ (s.applyPhase
    p).atu = s.atu ∧ (s.applyPhase p).col = s.col ∧ (s.applyPhase p).mgt = s.mgt ∧ (s.applyPhase p).lastRead = s.lastRead :=
    by
  unfold State.applyPhase
  try dsimp only
  repeat' split
  all_goals simp [apply_ite State.part, apply_ite State.draws, apply_ite State.req, apply_ite State.pwr, apply_ite State.xpt,
    apply_ite State.obj, apply_ite State.inj, apply_ite State.hpt, apply_ite State.xlt, apply_ite State.mat, apply_ite
    State.ram, apply_ite State.atu, apply_ite State.col, apply_ite State.mgt, apply_ite State.lastRead]

@[simp] theorem State.agreePhase_frame (s : State) (p n : Nat) :
    (s.agreePhase p n).part = s.part ∧ (s.agreePhase p n).draws = s.draws ∧ (s.agreePhase p n).req = s.req ∧ (s.agreePhase p
    n).pwr = s.pwr ∧ (s.agreePhase p n).xpt = s.xpt ∧ (s.agreePhase p n).obj = s.obj ∧ (s.agreePhase p n).inj = s.inj ∧
    (s.agreePhase p n).hpt = s.hpt ∧ (s.agreePhase p n).xlt = s.xlt ∧ (s.agreePhase p n).mat = s.mat ∧ (s.agreePhase p n).ram
    = s.ram ∧ (s.agreePhase p n).atu = s.atu ∧ (s.agreePhase p n).col = s.col ∧ (s.agreePhase p n).mgt = s.mgt ∧ (s.agreePhase
    p n).lastRead = s.lastRead := by
  unfold State.agreePhase
  try dsimp only
  repeat' split
  all_goals simp [apply_ite State.part, apply_ite State.draws, apply_ite State.req, apply_ite State.pwr, apply_ite State.xpt,
    apply_ite State.obj, apply_ite State.inj, apply_ite State.hpt, apply_ite State.xlt, apply_ite State.mat, apply_ite
    State.ram, apply_ite State.atu, apply_ite State.col, apply_ite State.mgt, apply_ite State.lastRead]

@[simp] theorem State.requestPhase_frame (s : State) (l n cause : Nat) :
    (s.requestPhase l n cause).part = s.part ∧ (s.requestPhase l n cause).draws = s.draws ∧ (s.requestPhase l n cause).req =
    s.req ∧ (s.requestPhase l n cause).flt = s.flt ∧ (s.requestPhase l n cause).rt = s.rt ∧ (s.requestPhase l n cause).tim =
    s.tim ∧ (s.requestPhase l n cause).xpt = s.xpt ∧ (s.requestPhase l n cause).obj = s.obj ∧ (s.requestPhase l n cause).inj =
    s.inj ∧ (s.requestPhase l n cause).hpt = s.hpt ∧ (s.requestPhase l n cause).xlt = s.xlt ∧ (s.requestPhase l n cause).mat =
    s.mat ∧ (s.requestPhase l n cause).ram = s.ram ∧ (s.requestPhase l n cause).atu = s.atu ∧ (s.requestPhase l n cause).col =
    s.col ∧ (s.requestPhase l n cause).cnt = s.cnt ∧ (s.requestPhase l n cause).mgt = s.mgt ∧ (s.requestPhase l n
    cause).lastRead = s.lastRead := by
  unfold State.requestPhase
  try dsimp only
  repeat' split
  all_goals simp [apply_ite State.part, apply_ite State.draws, apply_ite State.req, apply_ite State.flt, apply_ite State.rt,
    apply_ite State.tim, apply_ite State.xpt, apply_ite State.obj, apply_ite State.inj, apply_ite State.hpt, apply_ite
    State.xlt, apply_ite State.mat, apply_ite State.ram, apply_ite State.atu, apply_ite State.col, apply_ite State.cnt,
    apply_ite State.mgt, apply_ite State.lastRead]

@[simp] theorem State.takePhase_frame (s : State) (p : Nat) (d : BitVec 16) :
    (s.takePhase p d).part = s.part ∧ (s.takePhase p d).draws = s.draws ∧ (s.takePhase p d).req = s.req ∧ (s.takePhase p
    d).pwr = s.pwr ∧ (s.takePhase p d).xpt = s.xpt ∧ (s.takePhase p d).obj = s.obj ∧ (s.takePhase p d).inj = s.inj ∧
    (s.takePhase p d).hpt = s.hpt ∧ (s.takePhase p d).xlt = s.xlt ∧ (s.takePhase p d).mat = s.mat ∧ (s.takePhase p d).ram =
    s.ram ∧ (s.takePhase p d).atu = s.atu ∧ (s.takePhase p d).col = s.col ∧ (s.takePhase p d).mgt = s.mgt ∧ (s.takePhase p
    d).lastRead = s.lastRead := by
  unfold State.takePhase
  try dsimp only
  repeat' split
  all_goals simp [apply_ite State.part, apply_ite State.draws, apply_ite State.req, apply_ite State.pwr, apply_ite State.xpt,
    apply_ite State.obj, apply_ite State.inj, apply_ite State.hpt, apply_ite State.xlt, apply_ite State.mat, apply_ite
    State.ram, apply_ite State.atu, apply_ite State.col, apply_ite State.mgt, apply_ite State.lastRead]

@[simp] theorem State.trainFail_frame (s : State) (l : Nat) :
    (s.trainFail l).part = s.part ∧ (s.trainFail l).draws = s.draws ∧ (s.trainFail l).req = s.req ∧ (s.trainFail l).rt = s.rt
    ∧ (s.trainFail l).pwr = s.pwr ∧ (s.trainFail l).tim = s.tim ∧ (s.trainFail l).xpt = s.xpt ∧ (s.trainFail l).obj = s.obj ∧
    (s.trainFail l).inj = s.inj ∧ (s.trainFail l).hpt = s.hpt ∧ (s.trainFail l).xlt = s.xlt ∧ (s.trainFail l).mat = s.mat ∧
    (s.trainFail l).ram = s.ram ∧ (s.trainFail l).atu = s.atu ∧ (s.trainFail l).col = s.col ∧ (s.trainFail l).mgt = s.mgt ∧
    (s.trainFail l).lastRead = s.lastRead := by
  unfold State.trainFail
  try dsimp only
  repeat' split
  all_goals simp [apply_ite State.part, apply_ite State.draws, apply_ite State.req, apply_ite State.rt, apply_ite State.pwr,
    apply_ite State.tim, apply_ite State.xpt, apply_ite State.obj, apply_ite State.inj, apply_ite State.hpt, apply_ite
    State.xlt, apply_ite State.mat, apply_ite State.ram, apply_ite State.atu, apply_ite State.col, apply_ite State.mgt,
    apply_ite State.lastRead]

@[simp] theorem State.trainRegs_frame (s : State) (l w : Nat) :
    (s.trainRegs l w).part = s.part ∧ (s.trainRegs l w).draws = s.draws ∧ (s.trainRegs l w).req = s.req ∧ (s.trainRegs l
    w).flt = s.flt ∧ (s.trainRegs l w).rt = s.rt ∧ (s.trainRegs l w).pwr = s.pwr ∧ (s.trainRegs l w).tim = s.tim ∧
    (s.trainRegs l w).xpt = s.xpt ∧ (s.trainRegs l w).obj = s.obj ∧ (s.trainRegs l w).inj = s.inj ∧ (s.trainRegs l w).hpt =
    s.hpt ∧ (s.trainRegs l w).xlt = s.xlt ∧ (s.trainRegs l w).mat = s.mat ∧ (s.trainRegs l w).ram = s.ram ∧ (s.trainRegs l
    w).atu = s.atu ∧ (s.trainRegs l w).col = s.col ∧ (s.trainRegs l w).cnt = s.cnt ∧ (s.trainRegs l w).mgt = s.mgt ∧
    (s.trainRegs l w).lastRead = s.lastRead := by
  unfold State.trainRegs
  try dsimp only
  repeat' split
  all_goals simp [apply_ite State.part, apply_ite State.draws, apply_ite State.req, apply_ite State.flt, apply_ite State.rt,
    apply_ite State.pwr, apply_ite State.tim, apply_ite State.xpt, apply_ite State.obj, apply_ite State.inj, apply_ite
    State.hpt, apply_ite State.xlt, apply_ite State.mat, apply_ite State.ram, apply_ite State.atu, apply_ite State.col,
    apply_ite State.cnt, apply_ite State.mgt, apply_ite State.lastRead]

@[simp] theorem State.trained_frame (s : State) (p w : Nat) :
    (s.trained p w).part = s.part ∧ (s.trained p w).req = s.req ∧ (s.trained p w).tim = s.tim ∧ (s.trained p w).xlt = s.xlt ∧
    (s.trained p w).ram = s.ram ∧ (s.trained p w).atu = s.atu ∧ (s.trained p w).lastRead = s.lastRead := by
  unfold State.trained
  try dsimp only
  repeat' split
  all_goals simp [apply_ite State.part, apply_ite State.req, apply_ite State.tim, apply_ite State.xlt, apply_ite State.ram,
    apply_ite State.atu, apply_ite State.lastRead]

@[simp] theorem State.trainCheck_frame (s : State) (l : Nat) :
    (s.trainCheck l).part = s.part ∧ (s.trainCheck l).req = s.req ∧ (s.trainCheck l).tim = s.tim ∧ (s.trainCheck l).xlt =
    s.xlt ∧ (s.trainCheck l).ram = s.ram ∧ (s.trainCheck l).atu = s.atu ∧ (s.trainCheck l).lastRead = s.lastRead := by
  unfold State.trainCheck
  try dsimp only
  repeat' split
  all_goals simp [apply_ite State.part, apply_ite State.req, apply_ite State.tim, apply_ite State.xlt, apply_ite State.ram,
    apply_ite State.atu, apply_ite State.lastRead]

@[simp] theorem State.takeTrain_frame (s : State) (l : Nat) (d : BitVec 16) (eq : Nat) (eqValid : Bool) :
    (s.takeTrain l d eq eqValid).part = s.part ∧ (s.takeTrain l d eq eqValid).req = s.req ∧ (s.takeTrain l d eq eqValid).tim =
    s.tim ∧ (s.takeTrain l d eq eqValid).xlt = s.xlt ∧ (s.takeTrain l d eq eqValid).ram = s.ram ∧ (s.takeTrain l d eq
    eqValid).atu = s.atu ∧ (s.takeTrain l d eq eqValid).lastRead = s.lastRead := by
  unfold State.takeTrain
  try dsimp only
  repeat' split
  all_goals simp [apply_ite State.part, apply_ite State.req, apply_ite State.tim, apply_ite State.xlt, apply_ite State.ram,
    apply_ite State.atu, apply_ite State.lastRead]

@[simp] theorem State.laneCtrlWrite_frame (s : State) (l : Nat) (w : Word) :
    (s.laneCtrlWrite l w).part = s.part ∧ (s.laneCtrlWrite l w).req = s.req ∧ (s.laneCtrlWrite l w).xpt = s.xpt ∧
    (s.laneCtrlWrite l w).obj = s.obj ∧ (s.laneCtrlWrite l w).inj = s.inj ∧ (s.laneCtrlWrite l w).hpt = s.hpt ∧
    (s.laneCtrlWrite l w).xlt = s.xlt ∧ (s.laneCtrlWrite l w).mat = s.mat ∧ (s.laneCtrlWrite l w).ram = s.ram ∧
    (s.laneCtrlWrite l w).atu = s.atu ∧ (s.laneCtrlWrite l w).col = s.col ∧ (s.laneCtrlWrite l w).lastRead = s.lastRead := by
  unfold State.laneCtrlWrite
  try dsimp only
  repeat' split
  all_goals simp [apply_ite State.part, apply_ite State.req, apply_ite State.xpt, apply_ite State.obj, apply_ite State.inj,
    apply_ite State.hpt, apply_ite State.xlt, apply_ite State.mat, apply_ite State.ram, apply_ite State.atu, apply_ite
    State.col, apply_ite State.lastRead]

@[simp] theorem State.sayCtl_frame (s : State) (h : Nat) (y : CtlSay) :
    (s.sayCtl h y).part = s.part ∧ (s.sayCtl h y).draws = s.draws ∧ (s.sayCtl h y).regs = s.regs ∧ (s.sayCtl h y).req = s.req
    ∧ (s.sayCtl h y).flt = s.flt ∧ (s.sayCtl h y).rt = s.rt ∧ (s.sayCtl h y).lnk = s.lnk ∧ (s.sayCtl h y).pwr = s.pwr ∧
    (s.sayCtl h y).tim = s.tim ∧ (s.sayCtl h y).xpt = s.xpt ∧ (s.sayCtl h y).obj = s.obj ∧ (s.sayCtl h y).hpt = s.hpt ∧
    (s.sayCtl h y).xlt = s.xlt ∧ (s.sayCtl h y).mat = s.mat ∧ (s.sayCtl h y).ram = s.ram ∧ (s.sayCtl h y).atu = s.atu ∧
    (s.sayCtl h y).col = s.col ∧ (s.sayCtl h y).cnt = s.cnt ∧ (s.sayCtl h y).mgt = s.mgt ∧ (s.sayCtl h y).lastRead =
    s.lastRead := by
  unfold State.sayCtl
  try dsimp only
  repeat' split
  all_goals simp

@[simp] theorem State.sayRma_frame (s : State) (h op dseq status epoch tag : Nat) :
    (s.sayRma h op dseq status epoch tag).part = s.part ∧ (s.sayRma h op dseq status epoch tag).draws = s.draws ∧ (s.sayRma h
    op dseq status epoch tag).regs = s.regs ∧ (s.sayRma h op dseq status epoch tag).req = s.req ∧ (s.sayRma h op dseq status
    epoch tag).flt = s.flt ∧ (s.sayRma h op dseq status epoch tag).rt = s.rt ∧ (s.sayRma h op dseq status epoch tag).lnk =
    s.lnk ∧ (s.sayRma h op dseq status epoch tag).pwr = s.pwr ∧ (s.sayRma h op dseq status epoch tag).tim = s.tim ∧ (s.sayRma
    h op dseq status epoch tag).xpt = s.xpt ∧ (s.sayRma h op dseq status epoch tag).obj = s.obj ∧ (s.sayRma h op dseq status
    epoch tag).hpt = s.hpt ∧ (s.sayRma h op dseq status epoch tag).xlt = s.xlt ∧ (s.sayRma h op dseq status epoch tag).mat =
    s.mat ∧ (s.sayRma h op dseq status epoch tag).ram = s.ram ∧ (s.sayRma h op dseq status epoch tag).atu = s.atu ∧ (s.sayRma
    h op dseq status epoch tag).col = s.col ∧ (s.sayRma h op dseq status epoch tag).cnt = s.cnt ∧ (s.sayRma h op dseq status
    epoch tag).mgt = s.mgt ∧ (s.sayRma h op dseq status epoch tag).lastRead = s.lastRead := by
  unfold State.sayRma
  simp

@[simp] theorem State.modMsg_frame (s : State) (id : Nat) (f : TxMsg → TxMsg) :
    (s.modMsg id f).part = s.part ∧ (s.modMsg id f).draws = s.draws ∧ (s.modMsg id f).regs = s.regs ∧ (s.modMsg id f).req =
    s.req ∧ (s.modMsg id f).flt = s.flt ∧ (s.modMsg id f).rt = s.rt ∧ (s.modMsg id f).lnk = s.lnk ∧ (s.modMsg id f).pwr =
    s.pwr ∧ (s.modMsg id f).tim = s.tim ∧ (s.modMsg id f).obj = s.obj ∧ (s.modMsg id f).inj = s.inj ∧ (s.modMsg id f).hpt =
    s.hpt ∧ (s.modMsg id f).xlt = s.xlt ∧ (s.modMsg id f).mat = s.mat ∧ (s.modMsg id f).ram = s.ram ∧ (s.modMsg id f).atu =
    s.atu ∧ (s.modMsg id f).col = s.col ∧ (s.modMsg id f).cnt = s.cnt ∧ (s.modMsg id f).mgt = s.mgt ∧ (s.modMsg id f).lastRead
    = s.lastRead := by
  unfold State.modMsg
  simp

@[simp] theorem State.dropMsg_frame (s : State) (id : Nat) :
    (s.dropMsg id).part = s.part ∧ (s.dropMsg id).draws = s.draws ∧ (s.dropMsg id).regs = s.regs ∧ (s.dropMsg id).req = s.req
    ∧ (s.dropMsg id).flt = s.flt ∧ (s.dropMsg id).rt = s.rt ∧ (s.dropMsg id).lnk = s.lnk ∧ (s.dropMsg id).pwr = s.pwr ∧
    (s.dropMsg id).tim = s.tim ∧ (s.dropMsg id).obj = s.obj ∧ (s.dropMsg id).inj = s.inj ∧ (s.dropMsg id).hpt = s.hpt ∧
    (s.dropMsg id).xlt = s.xlt ∧ (s.dropMsg id).mat = s.mat ∧ (s.dropMsg id).ram = s.ram ∧ (s.dropMsg id).atu = s.atu ∧
    (s.dropMsg id).col = s.col ∧ (s.dropMsg id).cnt = s.cnt ∧ (s.dropMsg id).mgt = s.mgt ∧ (s.dropMsg id).lastRead =
    s.lastRead := by
  unfold State.dropMsg
  simp

@[simp] theorem State.sendOpen_frame (s : State) (h : Nat) :
    (s.sendOpen h).part = s.part ∧ (s.sendOpen h).draws = s.draws ∧ (s.sendOpen h).regs = s.regs ∧ (s.sendOpen h).req = s.req
    ∧ (s.sendOpen h).flt = s.flt ∧ (s.sendOpen h).rt = s.rt ∧ (s.sendOpen h).lnk = s.lnk ∧ (s.sendOpen h).pwr = s.pwr ∧
    (s.sendOpen h).tim = s.tim ∧ (s.sendOpen h).obj = s.obj ∧ (s.sendOpen h).hpt = s.hpt ∧ (s.sendOpen h).xlt = s.xlt ∧
    (s.sendOpen h).mat = s.mat ∧ (s.sendOpen h).ram = s.ram ∧ (s.sendOpen h).atu = s.atu ∧ (s.sendOpen h).col = s.col ∧
    (s.sendOpen h).cnt = s.cnt ∧ (s.sendOpen h).mgt = s.mgt ∧ (s.sendOpen h).lastRead = s.lastRead := by
  unfold State.sendOpen
  simp

@[simp] theorem State.needContext_frame (s : State) (h : Nat) :
    (s.needContext h).part = s.part ∧ (s.needContext h).draws = s.draws ∧ (s.needContext h).req = s.req ∧ (s.needContext
    h).flt = s.flt ∧ (s.needContext h).rt = s.rt ∧ (s.needContext h).lnk = s.lnk ∧ (s.needContext h).tim = s.tim ∧
    (s.needContext h).obj = s.obj ∧ (s.needContext h).inj = s.inj ∧ (s.needContext h).hpt = s.hpt ∧ (s.needContext h).xlt =
    s.xlt ∧ (s.needContext h).mat = s.mat ∧ (s.needContext h).ram = s.ram ∧ (s.needContext h).atu = s.atu ∧ (s.needContext
    h).col = s.col ∧ (s.needContext h).mgt = s.mgt ∧ (s.needContext h).lastRead = s.lastRead := by
  unfold State.needContext
  try dsimp only
  repeat' split
  all_goals simp [apply_ite State.part, apply_ite State.draws, apply_ite State.req, apply_ite State.flt, apply_ite State.rt,
    apply_ite State.lnk, apply_ite State.tim, apply_ite State.obj, apply_ite State.inj, apply_ite State.hpt, apply_ite
    State.xlt, apply_ite State.mat, apply_ite State.ram, apply_ite State.atu, apply_ite State.col, apply_ite State.mgt,
    apply_ite State.lastRead]

@[simp] theorem State.openIfWork_frame (s : State) (h : Nat) :
    (s.openIfWork h).part = s.part ∧ (s.openIfWork h).draws = s.draws ∧ (s.openIfWork h).regs = s.regs ∧ (s.openIfWork h).req
    = s.req ∧ (s.openIfWork h).flt = s.flt ∧ (s.openIfWork h).rt = s.rt ∧ (s.openIfWork h).lnk = s.lnk ∧ (s.openIfWork h).pwr
    = s.pwr ∧ (s.openIfWork h).tim = s.tim ∧ (s.openIfWork h).obj = s.obj ∧ (s.openIfWork h).hpt = s.hpt ∧ (s.openIfWork
    h).xlt = s.xlt ∧ (s.openIfWork h).mat = s.mat ∧ (s.openIfWork h).ram = s.ram ∧ (s.openIfWork h).atu = s.atu ∧
    (s.openIfWork h).col = s.col ∧ (s.openIfWork h).cnt = s.cnt ∧ (s.openIfWork h).mgt = s.mgt ∧ (s.openIfWork h).lastRead =
    s.lastRead := by
  unfold State.openIfWork
  try dsimp only
  repeat' split
  all_goals simp [apply_ite State.part, apply_ite State.draws, apply_ite State.regs, apply_ite State.req, apply_ite State.flt,
    apply_ite State.rt, apply_ite State.lnk, apply_ite State.pwr, apply_ite State.tim, apply_ite State.obj, apply_ite
    State.hpt, apply_ite State.xlt, apply_ite State.mat, apply_ite State.ram, apply_ite State.atu, apply_ite State.col,
    apply_ite State.cnt, apply_ite State.mgt, apply_ite State.lastRead]

@[simp] theorem State.openAgain_frame (s : State) (h : Nat) (k : Conn) :
    (s.openAgain h k).part = s.part ∧ (s.openAgain h k).draws = s.draws ∧ (s.openAgain h k).req = s.req ∧ (s.openAgain h
    k).flt = s.flt ∧ (s.openAgain h k).rt = s.rt ∧ (s.openAgain h k).lnk = s.lnk ∧ (s.openAgain h k).tim = s.tim ∧
    (s.openAgain h k).obj = s.obj ∧ (s.openAgain h k).hpt = s.hpt ∧ (s.openAgain h k).xlt = s.xlt ∧ (s.openAgain h k).mat =
    s.mat ∧ (s.openAgain h k).ram = s.ram ∧ (s.openAgain h k).atu = s.atu ∧ (s.openAgain h k).col = s.col ∧ (s.openAgain h
    k).mgt = s.mgt ∧ (s.openAgain h k).lastRead = s.lastRead := by
  unfold State.openAgain
  try dsimp only
  repeat' split
  all_goals simp [apply_ite State.part, apply_ite State.draws, apply_ite State.req, apply_ite State.flt, apply_ite State.rt,
    apply_ite State.lnk, apply_ite State.tim, apply_ite State.obj, apply_ite State.hpt, apply_ite State.xlt, apply_ite
    State.mat, apply_ite State.ram, apply_ite State.atu, apply_ite State.col, apply_ite State.mgt, apply_ite State.lastRead]

@[simp] theorem State.accept_frame (s : State) (m : TxMsg) :
    (s.accept m).1.part = s.part ∧ (s.accept m).1.draws = s.draws ∧ (s.accept m).1.req = s.req ∧ (s.accept m).1.flt = s.flt ∧
    (s.accept m).1.rt = s.rt ∧ (s.accept m).1.lnk = s.lnk ∧ (s.accept m).1.tim = s.tim ∧ (s.accept m).1.obj = s.obj ∧
    (s.accept m).1.hpt = s.hpt ∧ (s.accept m).1.xlt = s.xlt ∧ (s.accept m).1.mat = s.mat ∧ (s.accept m).1.ram = s.ram ∧
    (s.accept m).1.atu = s.atu ∧ (s.accept m).1.col = s.col ∧ (s.accept m).1.mgt = s.mgt ∧ (s.accept m).1.lastRead =
    s.lastRead := by
  unfold State.accept
  simp

@[simp] theorem State.keepSent_frame (s : State) (m : TxMsg) (q : Nat) :
    (s.keepSent m q).part = s.part ∧ (s.keepSent m q).draws = s.draws ∧ (s.keepSent m q).regs = s.regs ∧ (s.keepSent m q).req
    = s.req ∧ (s.keepSent m q).flt = s.flt ∧ (s.keepSent m q).rt = s.rt ∧ (s.keepSent m q).lnk = s.lnk ∧ (s.keepSent m q).pwr
    = s.pwr ∧ (s.keepSent m q).tim = s.tim ∧ (s.keepSent m q).xpt = s.xpt ∧ (s.keepSent m q).obj = s.obj ∧ (s.keepSent m
    q).inj = s.inj ∧ (s.keepSent m q).hpt = s.hpt ∧ (s.keepSent m q).xlt = s.xlt ∧ (s.keepSent m q).mat = s.mat ∧ (s.keepSent
    m q).ram = s.ram ∧ (s.keepSent m q).atu = s.atu ∧ (s.keepSent m q).cnt = s.cnt ∧ (s.keepSent m q).mgt = s.mgt ∧
    (s.keepSent m q).lastRead = s.lastRead := by
  unfold State.keepSent
  try dsimp only
  repeat' split
  all_goals simp [apply_ite State.part, apply_ite State.draws, apply_ite State.regs, apply_ite State.req, apply_ite State.flt,
    apply_ite State.rt, apply_ite State.lnk, apply_ite State.pwr, apply_ite State.tim, apply_ite State.xpt, apply_ite
    State.obj, apply_ite State.inj, apply_ite State.hpt, apply_ite State.xlt, apply_ite State.mat, apply_ite State.ram,
    apply_ite State.atu, apply_ite State.cnt, apply_ite State.mgt, apply_ite State.lastRead]

@[simp] theorem State.assignSeq_frame (s : State) (id : Nat) :
    (s.assignSeq id).part = s.part ∧ (s.assignSeq id).draws = s.draws ∧ (s.assignSeq id).regs = s.regs ∧ (s.assignSeq id).req
    = s.req ∧ (s.assignSeq id).flt = s.flt ∧ (s.assignSeq id).rt = s.rt ∧ (s.assignSeq id).lnk = s.lnk ∧ (s.assignSeq id).pwr
    = s.pwr ∧ (s.assignSeq id).tim = s.tim ∧ (s.assignSeq id).inj = s.inj ∧ (s.assignSeq id).xlt = s.xlt ∧ (s.assignSeq
    id).mat = s.mat ∧ (s.assignSeq id).ram = s.ram ∧ (s.assignSeq id).atu = s.atu ∧ (s.assignSeq id).mgt = s.mgt ∧
    (s.assignSeq id).lastRead = s.lastRead := by
  unfold State.assignSeq
  try dsimp only
  repeat' split
  all_goals simp [apply_ite State.part, apply_ite State.draws, apply_ite State.regs, apply_ite State.req, apply_ite State.flt,
    apply_ite State.rt, apply_ite State.lnk, apply_ite State.pwr, apply_ite State.tim, apply_ite State.inj, apply_ite
    State.xlt, apply_ite State.mat, apply_ite State.ram, apply_ite State.atu, apply_ite State.mgt, apply_ite State.lastRead]

@[simp] theorem State.updateWindow_frame (s : State) (h : Nat) (g : SendSeg) (cells marked : Nat) :
    (s.updateWindow h g cells marked).part = s.part ∧ (s.updateWindow h g cells marked).draws = s.draws ∧ (s.updateWindow h g
    cells marked).regs = s.regs ∧ (s.updateWindow h g cells marked).req = s.req ∧ (s.updateWindow h g cells marked).flt =
    s.flt ∧ (s.updateWindow h g cells marked).rt = s.rt ∧ (s.updateWindow h g cells marked).lnk = s.lnk ∧ (s.updateWindow h g
    cells marked).pwr = s.pwr ∧ (s.updateWindow h g cells marked).tim = s.tim ∧ (s.updateWindow h g cells marked).obj = s.obj
    ∧ (s.updateWindow h g cells marked).inj = s.inj ∧ (s.updateWindow h g cells marked).hpt = s.hpt ∧ (s.updateWindow h g
    cells marked).xlt = s.xlt ∧ (s.updateWindow h g cells marked).mat = s.mat ∧ (s.updateWindow h g cells marked).ram = s.ram
    ∧ (s.updateWindow h g cells marked).atu = s.atu ∧ (s.updateWindow h g cells marked).col = s.col ∧ (s.updateWindow h g
    cells marked).cnt = s.cnt ∧ (s.updateWindow h g cells marked).mgt = s.mgt ∧ (s.updateWindow h g cells marked).lastRead =
    s.lastRead := by
  unfold State.updateWindow
  try dsimp only
  repeat' split
  all_goals simp [apply_ite State.part, apply_ite State.draws, apply_ite State.regs, apply_ite State.req, apply_ite State.flt,
    apply_ite State.rt, apply_ite State.lnk, apply_ite State.pwr, apply_ite State.tim, apply_ite State.obj, apply_ite
    State.inj, apply_ite State.hpt, apply_ite State.xlt, apply_ite State.mat, apply_ite State.ram, apply_ite State.atu,
    apply_ite State.col, apply_ite State.cnt, apply_ite State.mgt, apply_ite State.lastRead]

@[simp] theorem State.progressOn_frame (s : State) (h : Nat) :
    (s.progressOn h).part = s.part ∧ (s.progressOn h).draws = s.draws ∧ (s.progressOn h).regs = s.regs ∧ (s.progressOn h).req
    = s.req ∧ (s.progressOn h).flt = s.flt ∧ (s.progressOn h).rt = s.rt ∧ (s.progressOn h).lnk = s.lnk ∧ (s.progressOn h).pwr
    = s.pwr ∧ (s.progressOn h).tim = s.tim ∧ (s.progressOn h).obj = s.obj ∧ (s.progressOn h).inj = s.inj ∧ (s.progressOn
    h).hpt = s.hpt ∧ (s.progressOn h).xlt = s.xlt ∧ (s.progressOn h).mat = s.mat ∧ (s.progressOn h).ram = s.ram ∧
    (s.progressOn h).atu = s.atu ∧ (s.progressOn h).col = s.col ∧ (s.progressOn h).cnt = s.cnt ∧ (s.progressOn h).mgt = s.mgt
    ∧ (s.progressOn h).lastRead = s.lastRead := by
  unfold State.progressOn
  simp

@[simp] theorem State.segDone_frame (s : State) (h q cells marked : Nat) :
    (s.segDone h q cells marked).part = s.part ∧ (s.segDone h q cells marked).draws = s.draws ∧ (s.segDone h q cells
    marked).regs = s.regs ∧ (s.segDone h q cells marked).req = s.req ∧ (s.segDone h q cells marked).flt = s.flt ∧ (s.segDone h
    q cells marked).rt = s.rt ∧ (s.segDone h q cells marked).lnk = s.lnk ∧ (s.segDone h q cells marked).pwr = s.pwr ∧
    (s.segDone h q cells marked).tim = s.tim ∧ (s.segDone h q cells marked).obj = s.obj ∧ (s.segDone h q cells marked).inj =
    s.inj ∧ (s.segDone h q cells marked).hpt = s.hpt ∧ (s.segDone h q cells marked).xlt = s.xlt ∧ (s.segDone h q cells
    marked).mat = s.mat ∧ (s.segDone h q cells marked).ram = s.ram ∧ (s.segDone h q cells marked).atu = s.atu ∧ (s.segDone h q
    cells marked).col = s.col ∧ (s.segDone h q cells marked).cnt = s.cnt ∧ (s.segDone h q cells marked).mgt = s.mgt ∧
    (s.segDone h q cells marked).lastRead = s.lastRead := by
  unfold State.segDone
  try dsimp only
  repeat' split
  all_goals simp [apply_ite State.part, apply_ite State.draws, apply_ite State.regs, apply_ite State.req, apply_ite State.flt,
    apply_ite State.rt, apply_ite State.lnk, apply_ite State.pwr, apply_ite State.tim, apply_ite State.obj, apply_ite
    State.inj, apply_ite State.hpt, apply_ite State.xlt, apply_ite State.mat, apply_ite State.ram, apply_ite State.atu,
    apply_ite State.col, apply_ite State.cnt, apply_ite State.mgt, apply_ite State.lastRead]

@[simp] theorem State.segKnown_frame (s : State) (h q : Nat) :
    (s.segKnown h q).part = s.part ∧ (s.segKnown h q).draws = s.draws ∧ (s.segKnown h q).regs = s.regs ∧ (s.segKnown h q).req
    = s.req ∧ (s.segKnown h q).flt = s.flt ∧ (s.segKnown h q).rt = s.rt ∧ (s.segKnown h q).lnk = s.lnk ∧ (s.segKnown h q).pwr
    = s.pwr ∧ (s.segKnown h q).tim = s.tim ∧ (s.segKnown h q).obj = s.obj ∧ (s.segKnown h q).inj = s.inj ∧ (s.segKnown h
    q).hpt = s.hpt ∧ (s.segKnown h q).xlt = s.xlt ∧ (s.segKnown h q).mat = s.mat ∧ (s.segKnown h q).ram = s.ram ∧ (s.segKnown
    h q).atu = s.atu ∧ (s.segKnown h q).col = s.col ∧ (s.segKnown h q).cnt = s.cnt ∧ (s.segKnown h q).mgt = s.mgt ∧
    (s.segKnown h q).lastRead = s.lastRead := by
  unfold State.segKnown
  try dsimp only
  repeat' split
  all_goals simp [apply_ite State.part, apply_ite State.draws, apply_ite State.regs, apply_ite State.req, apply_ite State.flt,
    apply_ite State.rt, apply_ite State.lnk, apply_ite State.pwr, apply_ite State.tim, apply_ite State.obj, apply_ite
    State.inj, apply_ite State.hpt, apply_ite State.xlt, apply_ite State.mat, apply_ite State.ram, apply_ite State.atu,
    apply_ite State.col, apply_ite State.cnt, apply_ite State.mgt, apply_ite State.lastRead]

@[simp] theorem State.completeCovered_frame (s : State) (m : TxMsg) (z : Nat) :
    (s.completeCovered m z).part = s.part ∧ (s.completeCovered m z).draws = s.draws ∧ (s.completeCovered m z).req = s.req ∧
    (s.completeCovered m z).rt = s.rt ∧ (s.completeCovered m z).pwr = s.pwr ∧ (s.completeCovered m z).tim = s.tim ∧
    (s.completeCovered m z).xpt = s.xpt ∧ (s.completeCovered m z).inj = s.inj ∧ (s.completeCovered m z).xlt = s.xlt ∧
    (s.completeCovered m z).mat = s.mat ∧ (s.completeCovered m z).ram = s.ram ∧ (s.completeCovered m z).atu = s.atu ∧
    (s.completeCovered m z).col = s.col ∧ (s.completeCovered m z).mgt = s.mgt ∧ (s.completeCovered m z).lastRead = s.lastRead
    := by
  unfold State.completeCovered
  try dsimp only
  repeat' split
  all_goals simp [apply_ite State.part, apply_ite State.draws, apply_ite State.req, apply_ite State.rt, apply_ite State.pwr,
    apply_ite State.tim, apply_ite State.xpt, apply_ite State.inj, apply_ite State.xlt, apply_ite State.mat, apply_ite
    State.ram, apply_ite State.atu, apply_ite State.col, apply_ite State.mgt, apply_ite State.lastRead]

@[simp] theorem State.modEntry_frame (s : State) (e : Nat) (f : StoreEntry → StoreEntry) :
    (s.modEntry e f).part = s.part ∧ (s.modEntry e f).draws = s.draws ∧ (s.modEntry e f).regs = s.regs ∧ (s.modEntry e f).req
    = s.req ∧ (s.modEntry e f).flt = s.flt ∧ (s.modEntry e f).rt = s.rt ∧ (s.modEntry e f).lnk = s.lnk ∧ (s.modEntry e f).pwr
    = s.pwr ∧ (s.modEntry e f).tim = s.tim ∧ (s.modEntry e f).xpt = s.xpt ∧ (s.modEntry e f).obj = s.obj ∧ (s.modEntry e
    f).inj = s.inj ∧ (s.modEntry e f).hpt = s.hpt ∧ (s.modEntry e f).xlt = s.xlt ∧ (s.modEntry e f).ram = s.ram ∧ (s.modEntry
    e f).atu = s.atu ∧ (s.modEntry e f).col = s.col ∧ (s.modEntry e f).cnt = s.cnt ∧ (s.modEntry e f).mgt = s.mgt ∧
    (s.modEntry e f).lastRead = s.lastRead := by
  unfold State.modEntry
  simp

@[simp] theorem State.freeEntry_frame (s : State) (e : Nat) :
    (s.freeEntry e).part = s.part ∧ (s.freeEntry e).draws = s.draws ∧ (s.freeEntry e).regs = s.regs ∧ (s.freeEntry e).req =
    s.req ∧ (s.freeEntry e).flt = s.flt ∧ (s.freeEntry e).rt = s.rt ∧ (s.freeEntry e).lnk = s.lnk ∧ (s.freeEntry e).pwr =
    s.pwr ∧ (s.freeEntry e).tim = s.tim ∧ (s.freeEntry e).xpt = s.xpt ∧ (s.freeEntry e).obj = s.obj ∧ (s.freeEntry e).inj =
    s.inj ∧ (s.freeEntry e).hpt = s.hpt ∧ (s.freeEntry e).xlt = s.xlt ∧ (s.freeEntry e).ram = s.ram ∧ (s.freeEntry e).atu =
    s.atu ∧ (s.freeEntry e).col = s.col ∧ (s.freeEntry e).cnt = s.cnt ∧ (s.freeEntry e).mgt = s.mgt ∧ (s.freeEntry e).lastRead
    = s.lastRead := by
  unfold State.freeEntry
  simp

@[simp] theorem State.pullTask_frame (s : State) (h : Nat) :
    (s.pullTask h).part = s.part ∧ (s.pullTask h).req = s.req ∧ (s.pullTask h).flt = s.flt ∧ (s.pullTask h).rt = s.rt ∧
    (s.pullTask h).lnk = s.lnk ∧ (s.pullTask h).tim = s.tim ∧ (s.pullTask h).xpt = s.xpt ∧ (s.pullTask h).obj = s.obj ∧
    (s.pullTask h).inj = s.inj ∧ (s.pullTask h).hpt = s.hpt ∧ (s.pullTask h).xlt = s.xlt ∧ (s.pullTask h).mat = s.mat ∧
    (s.pullTask h).ram = s.ram ∧ (s.pullTask h).atu = s.atu ∧ (s.pullTask h).col = s.col ∧ (s.pullTask h).mgt = s.mgt ∧
    (s.pullTask h).lastRead = s.lastRead := by
  unfold State.pullTask
  try dsimp only
  repeat' split
  all_goals simp [apply_ite State.part, apply_ite State.req, apply_ite State.flt, apply_ite State.rt, apply_ite State.lnk,
    apply_ite State.tim, apply_ite State.xpt, apply_ite State.obj, apply_ite State.inj, apply_ite State.hpt, apply_ite
    State.xlt, apply_ite State.mat, apply_ite State.ram, apply_ite State.atu, apply_ite State.col, apply_ite State.mgt,
    apply_ite State.lastRead]

@[simp] theorem State.unmatchedLess_frame (s : State) (h : Nat) :
    (s.unmatchedLess h).part = s.part ∧ (s.unmatchedLess h).draws = s.draws ∧ (s.unmatchedLess h).regs = s.regs ∧
    (s.unmatchedLess h).req = s.req ∧ (s.unmatchedLess h).flt = s.flt ∧ (s.unmatchedLess h).rt = s.rt ∧ (s.unmatchedLess
    h).lnk = s.lnk ∧ (s.unmatchedLess h).pwr = s.pwr ∧ (s.unmatchedLess h).tim = s.tim ∧ (s.unmatchedLess h).obj = s.obj ∧
    (s.unmatchedLess h).inj = s.inj ∧ (s.unmatchedLess h).hpt = s.hpt ∧ (s.unmatchedLess h).xlt = s.xlt ∧ (s.unmatchedLess
    h).mat = s.mat ∧ (s.unmatchedLess h).ram = s.ram ∧ (s.unmatchedLess h).atu = s.atu ∧ (s.unmatchedLess h).col = s.col ∧
    (s.unmatchedLess h).cnt = s.cnt ∧ (s.unmatchedLess h).mgt = s.mgt ∧ (s.unmatchedLess h).lastRead = s.lastRead := by
  unfold State.unmatchedLess
  simp

@[simp] theorem State.finishStored_frame (s : State) (e : Nat) (x : StoreEntry) (status bytes : Nat) :
    (s.finishStored e x status bytes).part = s.part ∧ (s.finishStored e x status bytes).req = s.req ∧ (s.finishStored e x
    status bytes).rt = s.rt ∧ (s.finishStored e x status bytes).tim = s.tim ∧ (s.finishStored e x status bytes).inj = s.inj ∧
    (s.finishStored e x status bytes).xlt = s.xlt ∧ (s.finishStored e x status bytes).ram = s.ram ∧ (s.finishStored e x status
    bytes).atu = s.atu ∧ (s.finishStored e x status bytes).mgt = s.mgt ∧ (s.finishStored e x status bytes).lastRead =
    s.lastRead := by
  unfold State.finishStored
  try dsimp only
  repeat' split
  all_goals simp [apply_ite State.part, apply_ite State.req, apply_ite State.rt, apply_ite State.tim, apply_ite State.inj,
    apply_ite State.xlt, apply_ite State.ram, apply_ite State.atu, apply_ite State.mgt, apply_ite State.lastRead]

@[simp] theorem State.pullCovered_frame (s : State) (h e : Nat) :
    (s.pullCovered h e).part = s.part ∧ (s.pullCovered h e).req = s.req ∧ (s.pullCovered h e).rt = s.rt ∧ (s.pullCovered h
    e).tim = s.tim ∧ (s.pullCovered h e).inj = s.inj ∧ (s.pullCovered h e).xlt = s.xlt ∧ (s.pullCovered h e).ram = s.ram ∧
    (s.pullCovered h e).atu = s.atu ∧ (s.pullCovered h e).mgt = s.mgt ∧ (s.pullCovered h e).lastRead = s.lastRead := by
  unfold State.pullCovered
  try dsimp only
  repeat' split
  all_goals simp [apply_ite State.part, apply_ite State.req, apply_ite State.rt, apply_ite State.tim, apply_ite State.inj,
    apply_ite State.xlt, apply_ite State.ram, apply_ite State.atu, apply_ite State.mgt, apply_ite State.lastRead]

@[simp] theorem State.coverColl_frame (s : State) (g n h : Nat) (down : Bool) :
    (s.coverColl g n h down).part = s.part ∧ (s.coverColl g n h down).draws = s.draws ∧ (s.coverColl g n h down).regs = s.regs
    ∧ (s.coverColl g n h down).req = s.req ∧ (s.coverColl g n h down).flt = s.flt ∧ (s.coverColl g n h down).rt = s.rt ∧
    (s.coverColl g n h down).lnk = s.lnk ∧ (s.coverColl g n h down).pwr = s.pwr ∧ (s.coverColl g n h down).tim = s.tim ∧
    (s.coverColl g n h down).xpt = s.xpt ∧ (s.coverColl g n h down).obj = s.obj ∧ (s.coverColl g n h down).inj = s.inj ∧
    (s.coverColl g n h down).hpt = s.hpt ∧ (s.coverColl g n h down).xlt = s.xlt ∧ (s.coverColl g n h down).mat = s.mat ∧
    (s.coverColl g n h down).ram = s.ram ∧ (s.coverColl g n h down).atu = s.atu ∧ (s.coverColl g n h down).cnt = s.cnt ∧
    (s.coverColl g n h down).mgt = s.mgt ∧ (s.coverColl g n h down).lastRead = s.lastRead := by
  unfold State.coverColl
  try dsimp only
  repeat' split
  all_goals simp [apply_ite State.part, apply_ite State.draws, apply_ite State.regs, apply_ite State.req, apply_ite State.flt,
    apply_ite State.rt, apply_ite State.lnk, apply_ite State.pwr, apply_ite State.tim, apply_ite State.xpt, apply_ite
    State.obj, apply_ite State.inj, apply_ite State.hpt, apply_ite State.xlt, apply_ite State.mat, apply_ite State.ram,
    apply_ite State.atu, apply_ite State.cnt, apply_ite State.mgt, apply_ite State.lastRead]

@[simp] theorem State.covered_frame (s : State) (id : Nat) (m : TxMsg) :
    (s.covered id m).part = s.part ∧ (s.covered id m).req = s.req ∧ (s.covered id m).rt = s.rt ∧ (s.covered id m).tim = s.tim
    ∧ (s.covered id m).inj = s.inj ∧ (s.covered id m).xlt = s.xlt ∧ (s.covered id m).ram = s.ram ∧ (s.covered id m).atu =
    s.atu ∧ (s.covered id m).mgt = s.mgt ∧ (s.covered id m).lastRead = s.lastRead := by
  unfold State.covered
  try dsimp only
  repeat' split
  all_goals simp [apply_ite State.part, apply_ite State.req, apply_ite State.rt, apply_ite State.tim, apply_ite State.inj,
    apply_ite State.xlt, apply_ite State.ram, apply_ite State.atu, apply_ite State.mgt, apply_ite State.lastRead]

@[simp] theorem State.applyWm_frame (s : State) (h wm : Nat) :
    (s.applyWm h wm).part = s.part ∧ (s.applyWm h wm).req = s.req ∧ (s.applyWm h wm).rt = s.rt ∧ (s.applyWm h wm).tim = s.tim
    ∧ (s.applyWm h wm).inj = s.inj ∧ (s.applyWm h wm).xlt = s.xlt ∧ (s.applyWm h wm).ram = s.ram ∧ (s.applyWm h wm).atu =
    s.atu ∧ (s.applyWm h wm).mgt = s.mgt ∧ (s.applyWm h wm).lastRead = s.lastRead := by
  unfold State.applyWm
  try dsimp only
  repeat' split
  all_goals simp [apply_ite State.part, apply_ite State.req, apply_ite State.rt, apply_ite State.tim, apply_ite State.inj,
    apply_ite State.xlt, apply_ite State.ram, apply_ite State.atu, apply_ite State.mgt, apply_ite State.lastRead]

@[simp] theorem State.applyFront_frame (s : State) (h f : Nat) :
    (s.applyFront h f).part = s.part ∧ (s.applyFront h f).draws = s.draws ∧ (s.applyFront h f).regs = s.regs ∧ (s.applyFront h
    f).req = s.req ∧ (s.applyFront h f).flt = s.flt ∧ (s.applyFront h f).rt = s.rt ∧ (s.applyFront h f).lnk = s.lnk ∧
    (s.applyFront h f).pwr = s.pwr ∧ (s.applyFront h f).tim = s.tim ∧ (s.applyFront h f).obj = s.obj ∧ (s.applyFront h f).inj
    = s.inj ∧ (s.applyFront h f).hpt = s.hpt ∧ (s.applyFront h f).xlt = s.xlt ∧ (s.applyFront h f).mat = s.mat ∧ (s.applyFront
    h f).ram = s.ram ∧ (s.applyFront h f).atu = s.atu ∧ (s.applyFront h f).col = s.col ∧ (s.applyFront h f).cnt = s.cnt ∧
    (s.applyFront h f).mgt = s.mgt ∧ (s.applyFront h f).lastRead = s.lastRead := by
  unfold State.applyFront
  try dsimp only
  repeat' split
  all_goals simp [apply_ite State.part, apply_ite State.draws, apply_ite State.regs, apply_ite State.req, apply_ite State.flt,
    apply_ite State.rt, apply_ite State.lnk, apply_ite State.pwr, apply_ite State.tim, apply_ite State.obj, apply_ite
    State.inj, apply_ite State.hpt, apply_ite State.xlt, apply_ite State.mat, apply_ite State.ram, apply_ite State.atu,
    apply_ite State.col, apply_ite State.cnt, apply_ite State.mgt, apply_ite State.lastRead]

@[simp] theorem State.noteUse_frame (s : State) (i va len : Nat) :
    (s.noteUse i va len).part = s.part ∧ (s.noteUse i va len).draws = s.draws ∧ (s.noteUse i va len).regs = s.regs ∧
    (s.noteUse i va len).req = s.req ∧ (s.noteUse i va len).flt = s.flt ∧ (s.noteUse i va len).rt = s.rt ∧ (s.noteUse i va
    len).lnk = s.lnk ∧ (s.noteUse i va len).pwr = s.pwr ∧ (s.noteUse i va len).tim = s.tim ∧ (s.noteUse i va len).xpt = s.xpt
    ∧ (s.noteUse i va len).obj = s.obj ∧ (s.noteUse i va len).inj = s.inj ∧ (s.noteUse i va len).xlt = s.xlt ∧ (s.noteUse i va
    len).mat = s.mat ∧ (s.noteUse i va len).ram = s.ram ∧ (s.noteUse i va len).atu = s.atu ∧ (s.noteUse i va len).col = s.col
    ∧ (s.noteUse i va len).cnt = s.cnt ∧ (s.noteUse i va len).mgt = s.mgt ∧ (s.noteUse i va len).lastRead = s.lastRead := by
  unfold State.noteUse
  try dsimp only
  repeat' split
  all_goals simp

@[simp] theorem State.putData_frame (s : State) (i va addr len data : Nat) :
    (s.putData i va addr len data).part = s.part ∧ (s.putData i va addr len data).draws = s.draws ∧ (s.putData i va addr len
    data).regs = s.regs ∧ (s.putData i va addr len data).req = s.req ∧ (s.putData i va addr len data).flt = s.flt ∧ (s.putData
    i va addr len data).rt = s.rt ∧ (s.putData i va addr len data).lnk = s.lnk ∧ (s.putData i va addr len data).pwr = s.pwr ∧
    (s.putData i va addr len data).tim = s.tim ∧ (s.putData i va addr len data).xpt = s.xpt ∧ (s.putData i va addr len
    data).obj = s.obj ∧ (s.putData i va addr len data).inj = s.inj ∧ (s.putData i va addr len data).xlt = s.xlt ∧ (s.putData i
    va addr len data).mat = s.mat ∧ (s.putData i va addr len data).atu = s.atu ∧ (s.putData i va addr len data).col = s.col ∧
    (s.putData i va addr len data).mgt = s.mgt ∧ (s.putData i va addr len data).lastRead = s.lastRead := by
  unfold State.putData
  try dsimp only
  repeat' split
  all_goals simp [apply_ite State.part, apply_ite State.draws, apply_ite State.regs, apply_ite State.req, apply_ite State.flt,
    apply_ite State.rt, apply_ite State.lnk, apply_ite State.pwr, apply_ite State.tim, apply_ite State.xpt, apply_ite
    State.obj, apply_ite State.inj, apply_ite State.xlt, apply_ite State.mat, apply_ite State.atu, apply_ite State.col,
    apply_ite State.mgt, apply_ite State.lastRead]

@[simp] theorem State.dataWrite_frame (s : State) (i va addr len data : Nat) :
    (s.dataWrite i va addr len data).part = s.part ∧ (s.dataWrite i va addr len data).draws = s.draws ∧ (s.dataWrite i va addr
    len data).regs = s.regs ∧ (s.dataWrite i va addr len data).req = s.req ∧ (s.dataWrite i va addr len data).flt = s.flt ∧
    (s.dataWrite i va addr len data).rt = s.rt ∧ (s.dataWrite i va addr len data).lnk = s.lnk ∧ (s.dataWrite i va addr len
    data).pwr = s.pwr ∧ (s.dataWrite i va addr len data).tim = s.tim ∧ (s.dataWrite i va addr len data).xpt = s.xpt ∧
    (s.dataWrite i va addr len data).obj = s.obj ∧ (s.dataWrite i va addr len data).inj = s.inj ∧ (s.dataWrite i va addr len
    data).xlt = s.xlt ∧ (s.dataWrite i va addr len data).mat = s.mat ∧ (s.dataWrite i va addr len data).atu = s.atu ∧
    (s.dataWrite i va addr len data).col = s.col ∧ (s.dataWrite i va addr len data).mgt = s.mgt ∧ (s.dataWrite i va addr len
    data).lastRead = s.lastRead := by
  unfold State.dataWrite
  simp

@[simp] theorem State.mismatch_frame (s : State) (key : Nat) :
    (s.mismatch key).part = s.part ∧ (s.mismatch key).draws = s.draws ∧ (s.mismatch key).req = s.req ∧ (s.mismatch key).rt =
    s.rt ∧ (s.mismatch key).pwr = s.pwr ∧ (s.mismatch key).tim = s.tim ∧ (s.mismatch key).xpt = s.xpt ∧ (s.mismatch key).obj =
    s.obj ∧ (s.mismatch key).inj = s.inj ∧ (s.mismatch key).hpt = s.hpt ∧ (s.mismatch key).xlt = s.xlt ∧ (s.mismatch key).mat
    = s.mat ∧ (s.mismatch key).ram = s.ram ∧ (s.mismatch key).atu = s.atu ∧ (s.mismatch key).col = s.col ∧ (s.mismatch
    key).mgt = s.mgt ∧ (s.mismatch key).lastRead = s.lastRead := by
  unfold State.mismatch
  simp

@[simp] theorem State.pathFail_frame (s : State) (i : Nat) :
    (s.pathFail i).part = s.part ∧ (s.pathFail i).draws = s.draws ∧ (s.pathFail i).req = s.req ∧ (s.pathFail i).rt = s.rt ∧
    (s.pathFail i).pwr = s.pwr ∧ (s.pathFail i).tim = s.tim ∧ (s.pathFail i).xpt = s.xpt ∧ (s.pathFail i).obj = s.obj ∧
    (s.pathFail i).inj = s.inj ∧ (s.pathFail i).hpt = s.hpt ∧ (s.pathFail i).xlt = s.xlt ∧ (s.pathFail i).mat = s.mat ∧
    (s.pathFail i).ram = s.ram ∧ (s.pathFail i).atu = s.atu ∧ (s.pathFail i).col = s.col ∧ (s.pathFail i).mgt = s.mgt ∧
    (s.pathFail i).lastRead = s.lastRead := by
  unfold State.pathFail
  try dsimp only
  repeat' split
  all_goals simp [apply_ite State.part, apply_ite State.draws, apply_ite State.req, apply_ite State.rt, apply_ite State.pwr,
    apply_ite State.tim, apply_ite State.xpt, apply_ite State.obj, apply_ite State.inj, apply_ite State.hpt, apply_ite
    State.xlt, apply_ite State.mat, apply_ite State.ram, apply_ite State.atu, apply_ite State.col, apply_ite State.mgt,
    apply_ite State.lastRead]

@[simp] theorem State.jrnlSlot_frame (s : State) (z : Nat) :
    (s.jrnlSlot z).part = s.part ∧ (s.jrnlSlot z).draws = s.draws ∧ (s.jrnlSlot z).regs = s.regs ∧ (s.jrnlSlot z).req = s.req
    ∧ (s.jrnlSlot z).flt = s.flt ∧ (s.jrnlSlot z).rt = s.rt ∧ (s.jrnlSlot z).lnk = s.lnk ∧ (s.jrnlSlot z).pwr = s.pwr ∧
    (s.jrnlSlot z).tim = s.tim ∧ (s.jrnlSlot z).xpt = s.xpt ∧ (s.jrnlSlot z).obj = s.obj ∧ (s.jrnlSlot z).inj = s.inj ∧
    (s.jrnlSlot z).xlt = s.xlt ∧ (s.jrnlSlot z).mat = s.mat ∧ (s.jrnlSlot z).ram = s.ram ∧ (s.jrnlSlot z).atu = s.atu ∧
    (s.jrnlSlot z).col = s.col ∧ (s.jrnlSlot z).mgt = s.mgt ∧ (s.jrnlSlot z).lastRead = s.lastRead := by
  unfold State.jrnlSlot
  try dsimp only
  repeat' split
  all_goals simp

@[simp] theorem State.holdUnit_frame (s : State) (i : Nat) (u : UnitFields) :
    (s.holdUnit i u).1.part = s.part ∧ (s.holdUnit i u).1.req = s.req ∧ (s.holdUnit i u).1.flt = s.flt ∧ (s.holdUnit i u).1.rt
    = s.rt ∧ (s.holdUnit i u).1.lnk = s.lnk ∧ (s.holdUnit i u).1.pwr = s.pwr ∧ (s.holdUnit i u).1.tim = s.tim ∧ (s.holdUnit i
    u).1.xpt = s.xpt ∧ (s.holdUnit i u).1.inj = s.inj ∧ (s.holdUnit i u).1.hpt = s.hpt ∧ (s.holdUnit i u).1.xlt = s.xlt ∧
    (s.holdUnit i u).1.mat = s.mat ∧ (s.holdUnit i u).1.ram = s.ram ∧ (s.holdUnit i u).1.atu = s.atu ∧ (s.holdUnit i u).1.col
    = s.col ∧ (s.holdUnit i u).1.cnt = s.cnt ∧ (s.holdUnit i u).1.mgt = s.mgt ∧ (s.holdUnit i u).1.lastRead = s.lastRead := by
  unfold State.holdUnit
  try dsimp only
  repeat' split
  all_goals simp

@[simp] theorem State.modUnit_frame (s : State) (z : Nat) (f : UnitFields → UnitFields) :
    (s.modUnit z f).part = s.part ∧ (s.modUnit z f).draws = s.draws ∧ (s.modUnit z f).regs = s.regs ∧ (s.modUnit z f).req =
    s.req ∧ (s.modUnit z f).flt = s.flt ∧ (s.modUnit z f).rt = s.rt ∧ (s.modUnit z f).lnk = s.lnk ∧ (s.modUnit z f).pwr =
    s.pwr ∧ (s.modUnit z f).tim = s.tim ∧ (s.modUnit z f).xpt = s.xpt ∧ (s.modUnit z f).inj = s.inj ∧ (s.modUnit z f).xlt =
    s.xlt ∧ (s.modUnit z f).mat = s.mat ∧ (s.modUnit z f).ram = s.ram ∧ (s.modUnit z f).atu = s.atu ∧ (s.modUnit z f).col =
    s.col ∧ (s.modUnit z f).mgt = s.mgt ∧ (s.modUnit z f).lastRead = s.lastRead := by
  unfold State.modUnit
  simp

@[simp] theorem State.sendUnit_frame (s : State) (z : Nat) :
    (s.sendUnit z).part = s.part ∧ (s.sendUnit z).draws = s.draws ∧ (s.sendUnit z).req = s.req ∧ (s.sendUnit z).flt = s.flt ∧
    (s.sendUnit z).rt = s.rt ∧ (s.sendUnit z).lnk = s.lnk ∧ (s.sendUnit z).tim = s.tim ∧ (s.sendUnit z).obj = s.obj ∧
    (s.sendUnit z).hpt = s.hpt ∧ (s.sendUnit z).xlt = s.xlt ∧ (s.sendUnit z).mat = s.mat ∧ (s.sendUnit z).ram = s.ram ∧
    (s.sendUnit z).atu = s.atu ∧ (s.sendUnit z).col = s.col ∧ (s.sendUnit z).mgt = s.mgt ∧ (s.sendUnit z).lastRead =
    s.lastRead := by
  unfold State.sendUnit
  try dsimp only
  repeat' split
  all_goals simp [apply_ite State.part, apply_ite State.draws, apply_ite State.req, apply_ite State.flt, apply_ite State.rt,
    apply_ite State.lnk, apply_ite State.tim, apply_ite State.obj, apply_ite State.hpt, apply_ite State.xlt, apply_ite
    State.mat, apply_ite State.ram, apply_ite State.atu, apply_ite State.col, apply_ite State.mgt, apply_ite State.lastRead]

@[simp] theorem State.advanceOver_frame (s : State) (h q : Nat) :
    (s.advanceOver h q).part = s.part ∧ (s.advanceOver h q).draws = s.draws ∧ (s.advanceOver h q).regs = s.regs ∧
    (s.advanceOver h q).req = s.req ∧ (s.advanceOver h q).flt = s.flt ∧ (s.advanceOver h q).rt = s.rt ∧ (s.advanceOver h
    q).lnk = s.lnk ∧ (s.advanceOver h q).pwr = s.pwr ∧ (s.advanceOver h q).tim = s.tim ∧ (s.advanceOver h q).obj = s.obj ∧
    (s.advanceOver h q).xlt = s.xlt ∧ (s.advanceOver h q).mat = s.mat ∧ (s.advanceOver h q).ram = s.ram ∧ (s.advanceOver h
    q).atu = s.atu ∧ (s.advanceOver h q).col = s.col ∧ (s.advanceOver h q).mgt = s.mgt ∧ (s.advanceOver h q).lastRead =
    s.lastRead := by
  unfold State.advanceOver
  simp

@[simp] theorem State.modHeld_frame (s : State) (n : Nat) (f : Held → Held) :
    (s.modHeld n f).part = s.part ∧ (s.modHeld n f).draws = s.draws ∧ (s.modHeld n f).regs = s.regs ∧ (s.modHeld n f).req =
    s.req ∧ (s.modHeld n f).flt = s.flt ∧ (s.modHeld n f).rt = s.rt ∧ (s.modHeld n f).lnk = s.lnk ∧ (s.modHeld n f).pwr =
    s.pwr ∧ (s.modHeld n f).tim = s.tim ∧ (s.modHeld n f).xpt = s.xpt ∧ (s.modHeld n f).obj = s.obj ∧ (s.modHeld n f).inj =
    s.inj ∧ (s.modHeld n f).hpt = s.hpt ∧ (s.modHeld n f).xlt = s.xlt ∧ (s.modHeld n f).mat = s.mat ∧ (s.modHeld n f).ram =
    s.ram ∧ (s.modHeld n f).col = s.col ∧ (s.modHeld n f).cnt = s.cnt ∧ (s.modHeld n f).mgt = s.mgt ∧ (s.modHeld n f).lastRead
    = s.lastRead := by
  unfold State.modHeld
  simp

@[simp] theorem State.dropHeld_frame (s : State) (n : Nat) :
    (s.dropHeld n).part = s.part ∧ (s.dropHeld n).draws = s.draws ∧ (s.dropHeld n).regs = s.regs ∧ (s.dropHeld n).req = s.req
    ∧ (s.dropHeld n).flt = s.flt ∧ (s.dropHeld n).rt = s.rt ∧ (s.dropHeld n).lnk = s.lnk ∧ (s.dropHeld n).pwr = s.pwr ∧
    (s.dropHeld n).tim = s.tim ∧ (s.dropHeld n).xpt = s.xpt ∧ (s.dropHeld n).obj = s.obj ∧ (s.dropHeld n).inj = s.inj ∧
    (s.dropHeld n).hpt = s.hpt ∧ (s.dropHeld n).xlt = s.xlt ∧ (s.dropHeld n).mat = s.mat ∧ (s.dropHeld n).ram = s.ram ∧
    (s.dropHeld n).col = s.col ∧ (s.dropHeld n).cnt = s.cnt ∧ (s.dropHeld n).mgt = s.mgt ∧ (s.dropHeld n).lastRead =
    s.lastRead := by
  unfold State.dropHeld
  simp

@[simp] theorem State.startOp_frame (s : State) (o : UnitOp) :
    (s.startOp o).part = s.part ∧ (s.startOp o).draws = s.draws ∧ (s.startOp o).regs = s.regs ∧ (s.startOp o).req = s.req ∧
    (s.startOp o).flt = s.flt ∧ (s.startOp o).rt = s.rt ∧ (s.startOp o).lnk = s.lnk ∧ (s.startOp o).pwr = s.pwr ∧ (s.startOp
    o).tim = s.tim ∧ (s.startOp o).xpt = s.xpt ∧ (s.startOp o).obj = s.obj ∧ (s.startOp o).inj = s.inj ∧ (s.startOp o).xlt =
    s.xlt ∧ (s.startOp o).mat = s.mat ∧ (s.startOp o).ram = s.ram ∧ (s.startOp o).col = s.col ∧ (s.startOp o).mgt = s.mgt ∧
    (s.startOp o).lastRead = s.lastRead := by
  unfold State.startOp
  try dsimp only
  repeat' split
  all_goals simp [apply_ite State.part, apply_ite State.draws, apply_ite State.regs, apply_ite State.req, apply_ite State.flt,
    apply_ite State.rt, apply_ite State.lnk, apply_ite State.pwr, apply_ite State.tim, apply_ite State.xpt, apply_ite
    State.obj, apply_ite State.inj, apply_ite State.xlt, apply_ite State.mat, apply_ite State.ram, apply_ite State.col,
    apply_ite State.mgt, apply_ite State.lastRead]

@[simp] theorem State.slotResult_frame (s : State) (i n r info : Nat) :
    (s.slotResult i n r info).part = s.part ∧ (s.slotResult i n r info).draws = s.draws ∧ (s.slotResult i n r info).req =
    s.req ∧ (s.slotResult i n r info).flt = s.flt ∧ (s.slotResult i n r info).rt = s.rt ∧ (s.slotResult i n r info).lnk =
    s.lnk ∧ (s.slotResult i n r info).pwr = s.pwr ∧ (s.slotResult i n r info).tim = s.tim ∧ (s.slotResult i n r info).xpt =
    s.xpt ∧ (s.slotResult i n r info).obj = s.obj ∧ (s.slotResult i n r info).inj = s.inj ∧ (s.slotResult i n r info).hpt =
    s.hpt ∧ (s.slotResult i n r info).xlt = s.xlt ∧ (s.slotResult i n r info).mat = s.mat ∧ (s.slotResult i n r info).ram =
    s.ram ∧ (s.slotResult i n r info).atu = s.atu ∧ (s.slotResult i n r info).col = s.col ∧ (s.slotResult i n r info).cnt =
    s.cnt ∧ (s.slotResult i n r info).mgt = s.mgt ∧ (s.slotResult i n r info).lastRead = s.lastRead := by
  unfold State.slotResult
  simp

@[simp] theorem State.slotReturn_frame (s : State) (i n : Nat) :
    (s.slotReturn i n).part = s.part ∧ (s.slotReturn i n).draws = s.draws ∧ (s.slotReturn i n).regs = s.regs ∧ (s.slotReturn i
    n).req = s.req ∧ (s.slotReturn i n).flt = s.flt ∧ (s.slotReturn i n).rt = s.rt ∧ (s.slotReturn i n).lnk = s.lnk ∧
    (s.slotReturn i n).pwr = s.pwr ∧ (s.slotReturn i n).tim = s.tim ∧ (s.slotReturn i n).xpt = s.xpt ∧ (s.slotReturn i n).obj
    = s.obj ∧ (s.slotReturn i n).inj = s.inj ∧ (s.slotReturn i n).hpt = s.hpt ∧ (s.slotReturn i n).xlt = s.xlt ∧ (s.slotReturn
    i n).mat = s.mat ∧ (s.slotReturn i n).ram = s.ram ∧ (s.slotReturn i n).col = s.col ∧ (s.slotReturn i n).cnt = s.cnt ∧
    (s.slotReturn i n).mgt = s.mgt := by
  unfold State.slotReturn
  try dsimp only
  repeat' split
  all_goals simp [apply_ite State.part, apply_ite State.draws, apply_ite State.regs, apply_ite State.req, apply_ite State.flt,
    apply_ite State.rt, apply_ite State.lnk, apply_ite State.pwr, apply_ite State.tim, apply_ite State.xpt, apply_ite
    State.obj, apply_ite State.inj, apply_ite State.hpt, apply_ite State.xlt, apply_ite State.mat, apply_ite State.ram,
    apply_ite State.col, apply_ite State.cnt, apply_ite State.mgt]

@[simp] theorem State.slotOutcome_frame (s : State) (i n st waiters : Nat) :
    (s.slotOutcome i n st waiters).part = s.part ∧ (s.slotOutcome i n st waiters).draws = s.draws ∧ (s.slotOutcome i n st
    waiters).req = s.req ∧ (s.slotOutcome i n st waiters).flt = s.flt ∧ (s.slotOutcome i n st waiters).rt = s.rt ∧
    (s.slotOutcome i n st waiters).lnk = s.lnk ∧ (s.slotOutcome i n st waiters).pwr = s.pwr ∧ (s.slotOutcome i n st
    waiters).tim = s.tim ∧ (s.slotOutcome i n st waiters).xpt = s.xpt ∧ (s.slotOutcome i n st waiters).obj = s.obj ∧
    (s.slotOutcome i n st waiters).inj = s.inj ∧ (s.slotOutcome i n st waiters).hpt = s.hpt ∧ (s.slotOutcome i n st
    waiters).xlt = s.xlt ∧ (s.slotOutcome i n st waiters).mat = s.mat ∧ (s.slotOutcome i n st waiters).ram = s.ram ∧
    (s.slotOutcome i n st waiters).col = s.col ∧ (s.slotOutcome i n st waiters).cnt = s.cnt ∧ (s.slotOutcome i n st
    waiters).mgt = s.mgt := by
  unfold State.slotOutcome
  try dsimp only
  repeat' split
  all_goals simp [apply_ite State.part, apply_ite State.draws, apply_ite State.req, apply_ite State.flt, apply_ite State.rt,
    apply_ite State.lnk, apply_ite State.pwr, apply_ite State.tim, apply_ite State.xpt, apply_ite State.obj, apply_ite
    State.inj, apply_ite State.hpt, apply_ite State.xlt, apply_ite State.mat, apply_ite State.ram, apply_ite State.col,
    apply_ite State.cnt, apply_ite State.mgt]

@[simp] theorem State.endWait_frame (s : State) (w : Waiter) (st word waiters : Nat) :
    (s.endWait w st word waiters).part = s.part ∧ (s.endWait w st word waiters).draws = s.draws ∧ (s.endWait w st word
    waiters).req = s.req ∧ (s.endWait w st word waiters).flt = s.flt ∧ (s.endWait w st word waiters).rt = s.rt ∧ (s.endWait w
    st word waiters).lnk = s.lnk ∧ (s.endWait w st word waiters).tim = s.tim ∧ (s.endWait w st word waiters).xlt = s.xlt ∧
    (s.endWait w st word waiters).mat = s.mat ∧ (s.endWait w st word waiters).ram = s.ram ∧ (s.endWait w st word waiters).col
    = s.col ∧ (s.endWait w st word waiters).mgt = s.mgt := by
  unfold State.endWait
  try dsimp only
  repeat' split
  all_goals simp [apply_ite State.part, apply_ite State.draws, apply_ite State.req, apply_ite State.flt, apply_ite State.rt,
    apply_ite State.lnk, apply_ite State.tim, apply_ite State.xlt, apply_ite State.mat, apply_ite State.ram, apply_ite
    State.col, apply_ite State.mgt]

@[simp] theorem State.countOp_frame (s : State) :
    (s.countOp).part = s.part ∧ (s.countOp).draws = s.draws ∧ (s.countOp).req = s.req ∧ (s.countOp).flt = s.flt ∧
    (s.countOp).rt = s.rt ∧ (s.countOp).lnk = s.lnk ∧ (s.countOp).pwr = s.pwr ∧ (s.countOp).tim = s.tim ∧ (s.countOp).xpt =
    s.xpt ∧ (s.countOp).obj = s.obj ∧ (s.countOp).inj = s.inj ∧ (s.countOp).hpt = s.hpt ∧ (s.countOp).xlt = s.xlt ∧
    (s.countOp).mat = s.mat ∧ (s.countOp).ram = s.ram ∧ (s.countOp).atu = s.atu ∧ (s.countOp).col = s.col ∧ (s.countOp).mgt =
    s.mgt ∧ (s.countOp).lastRead = s.lastRead := by
  unfold State.countOp
  simp

@[simp] theorem State.giveHold_frame (s : State) (n : Nat) (x : Held) (w : Waiter) (abandoned : Bool) :
    (s.giveHold n x w abandoned).part = s.part ∧ (s.giveHold n x w abandoned).draws = s.draws ∧ (s.giveHold n x w
    abandoned).regs = s.regs ∧ (s.giveHold n x w abandoned).req = s.req ∧ (s.giveHold n x w abandoned).flt = s.flt ∧
    (s.giveHold n x w abandoned).rt = s.rt ∧ (s.giveHold n x w abandoned).lnk = s.lnk ∧ (s.giveHold n x w abandoned).pwr =
    s.pwr ∧ (s.giveHold n x w abandoned).tim = s.tim ∧ (s.giveHold n x w abandoned).xpt = s.xpt ∧ (s.giveHold n x w
    abandoned).obj = s.obj ∧ (s.giveHold n x w abandoned).inj = s.inj ∧ (s.giveHold n x w abandoned).hpt = s.hpt ∧ (s.giveHold
    n x w abandoned).xlt = s.xlt ∧ (s.giveHold n x w abandoned).mat = s.mat ∧ (s.giveHold n x w abandoned).ram = s.ram ∧
    (s.giveHold n x w abandoned).col = s.col ∧ (s.giveHold n x w abandoned).cnt = s.cnt ∧ (s.giveHold n x w abandoned).mgt =
    s.mgt ∧ (s.giveHold n x w abandoned).lastRead = s.lastRead := by
  unfold State.giveHold
  simp

@[simp] theorem State.registryStep_frame (s : State) (addr : Nat) :
    (s.registryStep addr).part = s.part ∧ (s.registryStep addr).draws = s.draws ∧ (s.registryStep addr).regs = s.regs ∧
    (s.registryStep addr).req = s.req ∧ (s.registryStep addr).flt = s.flt ∧ (s.registryStep addr).rt = s.rt ∧ (s.registryStep
    addr).lnk = s.lnk ∧ (s.registryStep addr).pwr = s.pwr ∧ (s.registryStep addr).tim = s.tim ∧ (s.registryStep addr).xpt =
    s.xpt ∧ (s.registryStep addr).obj = s.obj ∧ (s.registryStep addr).inj = s.inj ∧ (s.registryStep addr).hpt = s.hpt ∧
    (s.registryStep addr).xlt = s.xlt ∧ (s.registryStep addr).mat = s.mat ∧ (s.registryStep addr).ram = s.ram ∧
    (s.registryStep addr).atu = s.atu ∧ (s.registryStep addr).col = s.col ∧ (s.registryStep addr).mgt = s.mgt ∧
    (s.registryStep addr).lastRead = s.lastRead := by
  unfold State.registryStep
  simp

@[simp] theorem State.failHeld_frame (s : State) (n : Nat) (x : Held) (st : Nat) :
    (s.failHeld n x st).part = s.part ∧ (s.failHeld n x st).draws = s.draws ∧ (s.failHeld n x st).req = s.req ∧ (s.failHeld n
    x st).flt = s.flt ∧ (s.failHeld n x st).rt = s.rt ∧ (s.failHeld n x st).lnk = s.lnk ∧ (s.failHeld n x st).tim = s.tim ∧
    (s.failHeld n x st).xlt = s.xlt ∧ (s.failHeld n x st).mat = s.mat ∧ (s.failHeld n x st).ram = s.ram ∧ (s.failHeld n x
    st).col = s.col ∧ (s.failHeld n x st).mgt = s.mgt := by
  unfold State.failHeld
  simp

@[simp] theorem State.modGroup_frame (s : State) (g : Nat) (f : Group → Group) :
    (s.modGroup g f).part = s.part ∧ (s.modGroup g f).draws = s.draws ∧ (s.modGroup g f).regs = s.regs ∧ (s.modGroup g f).req
    = s.req ∧ (s.modGroup g f).flt = s.flt ∧ (s.modGroup g f).rt = s.rt ∧ (s.modGroup g f).lnk = s.lnk ∧ (s.modGroup g f).pwr
    = s.pwr ∧ (s.modGroup g f).tim = s.tim ∧ (s.modGroup g f).xpt = s.xpt ∧ (s.modGroup g f).obj = s.obj ∧ (s.modGroup g
    f).inj = s.inj ∧ (s.modGroup g f).hpt = s.hpt ∧ (s.modGroup g f).xlt = s.xlt ∧ (s.modGroup g f).mat = s.mat ∧ (s.modGroup
    g f).ram = s.ram ∧ (s.modGroup g f).atu = s.atu ∧ (s.modGroup g f).cnt = s.cnt ∧ (s.modGroup g f).mgt = s.mgt ∧
    (s.modGroup g f).lastRead = s.lastRead := by
  unfold State.modGroup
  simp

@[simp] theorem State.treeTask_frame (s : State) (g n : Nat) :
    (s.treeTask g n).part = s.part ∧ (s.treeTask g n).req = s.req ∧ (s.treeTask g n).flt = s.flt ∧ (s.treeTask g n).rt = s.rt
    ∧ (s.treeTask g n).lnk = s.lnk ∧ (s.treeTask g n).tim = s.tim ∧ (s.treeTask g n).xpt = s.xpt ∧ (s.treeTask g n).obj =
    s.obj ∧ (s.treeTask g n).inj = s.inj ∧ (s.treeTask g n).hpt = s.hpt ∧ (s.treeTask g n).xlt = s.xlt ∧ (s.treeTask g n).mat
    = s.mat ∧ (s.treeTask g n).ram = s.ram ∧ (s.treeTask g n).atu = s.atu ∧ (s.treeTask g n).col = s.col ∧ (s.treeTask g
    n).mgt = s.mgt ∧ (s.treeTask g n).lastRead = s.lastRead := by
  unfold State.treeTask
  try dsimp only
  repeat' split
  all_goals simp [apply_ite State.part, apply_ite State.req, apply_ite State.flt, apply_ite State.rt, apply_ite State.lnk,
    apply_ite State.tim, apply_ite State.xpt, apply_ite State.obj, apply_ite State.inj, apply_ite State.hpt, apply_ite
    State.xlt, apply_ite State.mat, apply_ite State.ram, apply_ite State.atu, apply_ite State.col, apply_ite State.mgt,
    apply_ite State.lastRead]

@[simp] theorem State.collUp_frame (s : State) (g : Nat) (x : Group) (kid opnum hdr : Nat) :
    (s.collUp g x kid opnum hdr).1.part = s.part ∧ (s.collUp g x kid opnum hdr).1.req = s.req ∧ (s.collUp g x kid opnum
    hdr).1.flt = s.flt ∧ (s.collUp g x kid opnum hdr).1.rt = s.rt ∧ (s.collUp g x kid opnum hdr).1.lnk = s.lnk ∧ (s.collUp g x
    kid opnum hdr).1.tim = s.tim ∧ (s.collUp g x kid opnum hdr).1.xpt = s.xpt ∧ (s.collUp g x kid opnum hdr).1.obj = s.obj ∧
    (s.collUp g x kid opnum hdr).1.inj = s.inj ∧ (s.collUp g x kid opnum hdr).1.hpt = s.hpt ∧ (s.collUp g x kid opnum
    hdr).1.xlt = s.xlt ∧ (s.collUp g x kid opnum hdr).1.mat = s.mat ∧ (s.collUp g x kid opnum hdr).1.ram = s.ram ∧ (s.collUp g
    x kid opnum hdr).1.atu = s.atu ∧ (s.collUp g x kid opnum hdr).1.mgt = s.mgt ∧ (s.collUp g x kid opnum hdr).1.lastRead =
    s.lastRead := by
  unfold State.collUp
  try dsimp only
  repeat' split
  all_goals simp [apply_ite State.part, apply_ite State.req, apply_ite State.flt, apply_ite State.rt, apply_ite State.lnk,
    apply_ite State.tim, apply_ite State.xpt, apply_ite State.obj, apply_ite State.inj, apply_ite State.hpt, apply_ite
    State.xlt, apply_ite State.mat, apply_ite State.ram, apply_ite State.atu, apply_ite State.mgt, apply_ite State.lastRead]

@[simp] theorem State.sendAbort_frame (s : State) (g : Nat) (x : Group) (o : CollOp) (e : Edge) (down : Bool) (status origin :
  Nat) :
    (s.sendAbort g x o e down status origin).part = s.part ∧ (s.sendAbort g x o e down status origin).req = s.req ∧
    (s.sendAbort g x o e down status origin).flt = s.flt ∧ (s.sendAbort g x o e down status origin).rt = s.rt ∧ (s.sendAbort g
    x o e down status origin).lnk = s.lnk ∧ (s.sendAbort g x o e down status origin).tim = s.tim ∧ (s.sendAbort g x o e down
    status origin).obj = s.obj ∧ (s.sendAbort g x o e down status origin).hpt = s.hpt ∧ (s.sendAbort g x o e down status
    origin).xlt = s.xlt ∧ (s.sendAbort g x o e down status origin).mat = s.mat ∧ (s.sendAbort g x o e down status origin).ram
    = s.ram ∧ (s.sendAbort g x o e down status origin).atu = s.atu ∧ (s.sendAbort g x o e down status origin).col = s.col ∧
    (s.sendAbort g x o e down status origin).mgt = s.mgt ∧ (s.sendAbort g x o e down status origin).lastRead = s.lastRead :=
    by
  unfold State.sendAbort
  try dsimp only
  repeat' split
  all_goals simp [apply_ite State.part, apply_ite State.req, apply_ite State.flt, apply_ite State.rt, apply_ite State.lnk,
    apply_ite State.tim, apply_ite State.obj, apply_ite State.hpt, apply_ite State.xlt, apply_ite State.mat, apply_ite
    State.ram, apply_ite State.atu, apply_ite State.col, apply_ite State.mgt, apply_ite State.lastRead]

@[simp] theorem State.cutMsgs_frame (s : State) (g : Nat) :
    (s.cutMsgs g).part = s.part ∧ (s.cutMsgs g).regs = s.regs ∧ (s.cutMsgs g).req = s.req ∧ (s.cutMsgs g).flt = s.flt ∧
    (s.cutMsgs g).rt = s.rt ∧ (s.cutMsgs g).lnk = s.lnk ∧ (s.cutMsgs g).pwr = s.pwr ∧ (s.cutMsgs g).tim = s.tim ∧ (s.cutMsgs
    g).obj = s.obj ∧ (s.cutMsgs g).inj = s.inj ∧ (s.cutMsgs g).hpt = s.hpt ∧ (s.cutMsgs g).xlt = s.xlt ∧ (s.cutMsgs g).mat =
    s.mat ∧ (s.cutMsgs g).ram = s.ram ∧ (s.cutMsgs g).atu = s.atu ∧ (s.cutMsgs g).col = s.col ∧ (s.cutMsgs g).cnt = s.cnt ∧
    (s.cutMsgs g).mgt = s.mgt ∧ (s.cutMsgs g).lastRead = s.lastRead := by
  unfold State.cutMsgs
  try dsimp only
  repeat' split
  all_goals simp [apply_ite State.part, apply_ite State.regs, apply_ite State.req, apply_ite State.flt, apply_ite State.rt,
    apply_ite State.lnk, apply_ite State.pwr, apply_ite State.tim, apply_ite State.obj, apply_ite State.inj, apply_ite
    State.hpt, apply_ite State.xlt, apply_ite State.mat, apply_ite State.ram, apply_ite State.atu, apply_ite State.col,
    apply_ite State.cnt, apply_ite State.mgt, apply_ite State.lastRead]

@[simp] theorem State.takeRecv_frame (s : State) (m : Envelope) :
    (s.takeRecv m).1.part = s.part ∧ (s.takeRecv m).1.draws = s.draws ∧ (s.takeRecv m).1.req = s.req ∧ (s.takeRecv m).1.flt =
    s.flt ∧ (s.takeRecv m).1.rt = s.rt ∧ (s.takeRecv m).1.lnk = s.lnk ∧ (s.takeRecv m).1.pwr = s.pwr ∧ (s.takeRecv m).1.tim =
    s.tim ∧ (s.takeRecv m).1.xpt = s.xpt ∧ (s.takeRecv m).1.inj = s.inj ∧ (s.takeRecv m).1.hpt = s.hpt ∧ (s.takeRecv m).1.xlt
    = s.xlt ∧ (s.takeRecv m).1.ram = s.ram ∧ (s.takeRecv m).1.atu = s.atu ∧ (s.takeRecv m).1.col = s.col ∧ (s.takeRecv
    m).1.mgt = s.mgt ∧ (s.takeRecv m).1.lastRead = s.lastRead := by
  unfold State.takeRecv
  try dsimp only
  repeat' split
  all_goals simp [apply_ite State.part, apply_ite State.draws, apply_ite State.req, apply_ite State.flt, apply_ite State.rt,
    apply_ite State.lnk, apply_ite State.pwr, apply_ite State.tim, apply_ite State.xpt, apply_ite State.inj, apply_ite
    State.hpt, apply_ite State.xlt, apply_ite State.ram, apply_ite State.atu, apply_ite State.col, apply_ite State.mgt,
    apply_ite State.lastRead]

@[simp] theorem State.queuePull_frame (s : State) (e : Nat) :
    (s.queuePull e).part = s.part ∧ (s.queuePull e).req = s.req ∧ (s.queuePull e).rt = s.rt ∧ (s.queuePull e).tim = s.tim ∧
    (s.queuePull e).inj = s.inj ∧ (s.queuePull e).xlt = s.xlt ∧ (s.queuePull e).ram = s.ram ∧ (s.queuePull e).atu = s.atu ∧
    (s.queuePull e).mgt = s.mgt ∧ (s.queuePull e).lastRead = s.lastRead := by
  unfold State.queuePull
  try dsimp only
  repeat' split
  all_goals simp [apply_ite State.part, apply_ite State.req, apply_ite State.rt, apply_ite State.tim, apply_ite State.inj,
    apply_ite State.xlt, apply_ite State.ram, apply_ite State.atu, apply_ite State.mgt, apply_ite State.lastRead]

@[simp] theorem State.moveFront_frame (s : State) (h : Nat) :
    (s.moveFront h).part = s.part ∧ (s.moveFront h).draws = s.draws ∧ (s.moveFront h).regs = s.regs ∧ (s.moveFront h).req =
    s.req ∧ (s.moveFront h).flt = s.flt ∧ (s.moveFront h).rt = s.rt ∧ (s.moveFront h).lnk = s.lnk ∧ (s.moveFront h).pwr =
    s.pwr ∧ (s.moveFront h).tim = s.tim ∧ (s.moveFront h).obj = s.obj ∧ (s.moveFront h).inj = s.inj ∧ (s.moveFront h).hpt =
    s.hpt ∧ (s.moveFront h).xlt = s.xlt ∧ (s.moveFront h).mat = s.mat ∧ (s.moveFront h).ram = s.ram ∧ (s.moveFront h).atu =
    s.atu ∧ (s.moveFront h).col = s.col ∧ (s.moveFront h).cnt = s.cnt ∧ (s.moveFront h).mgt = s.mgt ∧ (s.moveFront h).lastRead
    = s.lastRead := by
  unfold State.moveFront
  simp

@[simp] theorem State.faultCheck_frame (s : State) (h : Nat) :
    (s.faultCheck h).part = s.part ∧ (s.faultCheck h).draws = s.draws ∧ (s.faultCheck h).req = s.req ∧ (s.faultCheck h).flt =
    s.flt ∧ (s.faultCheck h).rt = s.rt ∧ (s.faultCheck h).lnk = s.lnk ∧ (s.faultCheck h).pwr = s.pwr ∧ (s.faultCheck h).tim =
    s.tim ∧ (s.faultCheck h).obj = s.obj ∧ (s.faultCheck h).hpt = s.hpt ∧ (s.faultCheck h).xlt = s.xlt ∧ (s.faultCheck h).mat
    = s.mat ∧ (s.faultCheck h).ram = s.ram ∧ (s.faultCheck h).atu = s.atu ∧ (s.faultCheck h).col = s.col ∧ (s.faultCheck
    h).cnt = s.cnt ∧ (s.faultCheck h).mgt = s.mgt ∧ (s.faultCheck h).lastRead = s.lastRead := by
  unfold State.faultCheck
  try dsimp only
  repeat' split
  all_goals simp

@[simp] theorem State.completeSeg_frame (s : State) (h q : Nat) :
    (s.completeSeg h q).part = s.part ∧ (s.completeSeg h q).draws = s.draws ∧ (s.completeSeg h q).regs = s.regs ∧
    (s.completeSeg h q).req = s.req ∧ (s.completeSeg h q).flt = s.flt ∧ (s.completeSeg h q).rt = s.rt ∧ (s.completeSeg h
    q).lnk = s.lnk ∧ (s.completeSeg h q).pwr = s.pwr ∧ (s.completeSeg h q).tim = s.tim ∧ (s.completeSeg h q).obj = s.obj ∧
    (s.completeSeg h q).hpt = s.hpt ∧ (s.completeSeg h q).xlt = s.xlt ∧ (s.completeSeg h q).mat = s.mat ∧ (s.completeSeg h
    q).ram = s.ram ∧ (s.completeSeg h q).atu = s.atu ∧ (s.completeSeg h q).col = s.col ∧ (s.completeSeg h q).cnt = s.cnt ∧
    (s.completeSeg h q).mgt = s.mgt ∧ (s.completeSeg h q).lastRead = s.lastRead := by
  unfold State.completeSeg
  try dsimp only
  repeat' split
  all_goals simp [apply_ite State.part, apply_ite State.draws, apply_ite State.regs, apply_ite State.req, apply_ite State.flt,
    apply_ite State.rt, apply_ite State.lnk, apply_ite State.pwr, apply_ite State.tim, apply_ite State.obj, apply_ite
    State.hpt, apply_ite State.xlt, apply_ite State.mat, apply_ite State.ram, apply_ite State.atu, apply_ite State.col,
    apply_ite State.cnt, apply_ite State.mgt, apply_ite State.lastRead]

@[simp] theorem State.forgetRec_frame (s : State) (h q : Nat) :
    (s.forgetRec h q).part = s.part ∧ (s.forgetRec h q).draws = s.draws ∧ (s.forgetRec h q).regs = s.regs ∧ (s.forgetRec h
    q).req = s.req ∧ (s.forgetRec h q).flt = s.flt ∧ (s.forgetRec h q).rt = s.rt ∧ (s.forgetRec h q).lnk = s.lnk ∧
    (s.forgetRec h q).pwr = s.pwr ∧ (s.forgetRec h q).tim = s.tim ∧ (s.forgetRec h q).obj = s.obj ∧ (s.forgetRec h q).inj =
    s.inj ∧ (s.forgetRec h q).hpt = s.hpt ∧ (s.forgetRec h q).xlt = s.xlt ∧ (s.forgetRec h q).mat = s.mat ∧ (s.forgetRec h
    q).ram = s.ram ∧ (s.forgetRec h q).atu = s.atu ∧ (s.forgetRec h q).col = s.col ∧ (s.forgetRec h q).cnt = s.cnt ∧
    (s.forgetRec h q).mgt = s.mgt ∧ (s.forgetRec h q).lastRead = s.lastRead := by
  unfold State.forgetRec
  try dsimp only
  repeat' split
  all_goals simp

@[simp] theorem State.growMsg_frame (s : State) (id off n x : Nat) (hdr : Option Nat) :
    (s.growMsg id off n x hdr).part = s.part ∧ (s.growMsg id off n x hdr).draws = s.draws ∧ (s.growMsg id off n x hdr).regs =
    s.regs ∧ (s.growMsg id off n x hdr).req = s.req ∧ (s.growMsg id off n x hdr).flt = s.flt ∧ (s.growMsg id off n x hdr).rt =
    s.rt ∧ (s.growMsg id off n x hdr).lnk = s.lnk ∧ (s.growMsg id off n x hdr).pwr = s.pwr ∧ (s.growMsg id off n x hdr).tim =
    s.tim ∧ (s.growMsg id off n x hdr).obj = s.obj ∧ (s.growMsg id off n x hdr).inj = s.inj ∧ (s.growMsg id off n x hdr).hpt =
    s.hpt ∧ (s.growMsg id off n x hdr).xlt = s.xlt ∧ (s.growMsg id off n x hdr).mat = s.mat ∧ (s.growMsg id off n x hdr).ram =
    s.ram ∧ (s.growMsg id off n x hdr).atu = s.atu ∧ (s.growMsg id off n x hdr).col = s.col ∧ (s.growMsg id off n x hdr).cnt =
    s.cnt ∧ (s.growMsg id off n x hdr).mgt = s.mgt ∧ (s.growMsg id off n x hdr).lastRead = s.lastRead := by
  unfold State.growMsg
  try dsimp only
  repeat' split
  all_goals simp

@[simp] theorem State.sendColl_frame (s : State) (g : Nat) (o : CollOp) (down : Bool) (m : TxMsg) :
    (s.sendColl g o down m).1.part = s.part ∧ (s.sendColl g o down m).1.draws = s.draws ∧ (s.sendColl g o down m).1.req =
    s.req ∧ (s.sendColl g o down m).1.flt = s.flt ∧ (s.sendColl g o down m).1.rt = s.rt ∧ (s.sendColl g o down m).1.lnk =
    s.lnk ∧ (s.sendColl g o down m).1.tim = s.tim ∧ (s.sendColl g o down m).1.obj = s.obj ∧ (s.sendColl g o down m).1.hpt =
    s.hpt ∧ (s.sendColl g o down m).1.xlt = s.xlt ∧ (s.sendColl g o down m).1.mat = s.mat ∧ (s.sendColl g o down m).1.ram =
    s.ram ∧ (s.sendColl g o down m).1.atu = s.atu ∧ (s.sendColl g o down m).1.col = s.col ∧ (s.sendColl g o down m).1.mgt =
    s.mgt ∧ (s.sendColl g o down m).1.lastRead = s.lastRead := by
  unfold State.sendColl
  try dsimp only
  repeat' split
  all_goals simp [apply_ite State.part, apply_ite State.draws, apply_ite State.req, apply_ite State.flt, apply_ite State.rt,
    apply_ite State.lnk, apply_ite State.tim, apply_ite State.obj, apply_ite State.hpt, apply_ite State.xlt, apply_ite
    State.mat, apply_ite State.ram, apply_ite State.atu, apply_ite State.col, apply_ite State.mgt, apply_ite State.lastRead]

@[simp] theorem State.downTo_frame (s : State) (g : Nat) (x : Group) (o : CollOp) (e : Edge) (avail : Option Nat) :
    (s.downTo g x o e avail).part = s.part ∧ (s.downTo g x o e avail).draws = s.draws ∧ (s.downTo g x o e avail).req = s.req ∧
    (s.downTo g x o e avail).flt = s.flt ∧ (s.downTo g x o e avail).rt = s.rt ∧ (s.downTo g x o e avail).lnk = s.lnk ∧
    (s.downTo g x o e avail).tim = s.tim ∧ (s.downTo g x o e avail).obj = s.obj ∧ (s.downTo g x o e avail).hpt = s.hpt ∧
    (s.downTo g x o e avail).xlt = s.xlt ∧ (s.downTo g x o e avail).mat = s.mat ∧ (s.downTo g x o e avail).ram = s.ram ∧
    (s.downTo g x o e avail).atu = s.atu ∧ (s.downTo g x o e avail).mgt = s.mgt ∧ (s.downTo g x o e avail).lastRead =
    s.lastRead := by
  unfold State.downTo
  try dsimp only
  repeat' split
  all_goals simp [apply_ite State.part, apply_ite State.draws, apply_ite State.req, apply_ite State.flt, apply_ite State.rt,
    apply_ite State.lnk, apply_ite State.tim, apply_ite State.obj, apply_ite State.hpt, apply_ite State.xlt, apply_ite
    State.mat, apply_ite State.ram, apply_ite State.atu, apply_ite State.mgt, apply_ite State.lastRead]

@[simp] theorem State.closeDown_frame (s : State) (g : Nat) (x : Group) (o : CollOp) (kids : List (Edge × ChildMsg)) :
    (s.closeDown g x o kids).part = s.part ∧ (s.closeDown g x o kids).draws = s.draws ∧ (s.closeDown g x o kids).req = s.req ∧
    (s.closeDown g x o kids).flt = s.flt ∧ (s.closeDown g x o kids).rt = s.rt ∧ (s.closeDown g x o kids).lnk = s.lnk ∧
    (s.closeDown g x o kids).tim = s.tim ∧ (s.closeDown g x o kids).obj = s.obj ∧ (s.closeDown g x o kids).hpt = s.hpt ∧
    (s.closeDown g x o kids).xlt = s.xlt ∧ (s.closeDown g x o kids).mat = s.mat ∧ (s.closeDown g x o kids).ram = s.ram ∧
    (s.closeDown g x o kids).atu = s.atu ∧ (s.closeDown g x o kids).mgt = s.mgt ∧ (s.closeDown g x o kids).lastRead =
    s.lastRead := by
  unfold State.closeDown
  simp

@[simp] theorem State.retireKey_frame (s : State) (h : Nat) :
    (s.retireKey h).part = s.part ∧ (s.retireKey h).draws = s.draws ∧ (s.retireKey h).regs = s.regs ∧ (s.retireKey h).req =
    s.req ∧ (s.retireKey h).flt = s.flt ∧ (s.retireKey h).rt = s.rt ∧ (s.retireKey h).lnk = s.lnk ∧ (s.retireKey h).pwr =
    s.pwr ∧ (s.retireKey h).tim = s.tim ∧ (s.retireKey h).obj = s.obj ∧ (s.retireKey h).inj = s.inj ∧ (s.retireKey h).hpt =
    s.hpt ∧ (s.retireKey h).xlt = s.xlt ∧ (s.retireKey h).mat = s.mat ∧ (s.retireKey h).ram = s.ram ∧ (s.retireKey h).atu =
    s.atu ∧ (s.retireKey h).col = s.col ∧ (s.retireKey h).cnt = s.cnt ∧ (s.retireKey h).mgt = s.mgt ∧ (s.retireKey h).lastRead
    = s.lastRead := by
  unfold State.retireKey
  try dsimp only
  repeat' split
  all_goals simp [apply_ite State.part, apply_ite State.draws, apply_ite State.regs, apply_ite State.req, apply_ite State.flt,
    apply_ite State.rt, apply_ite State.lnk, apply_ite State.pwr, apply_ite State.tim, apply_ite State.obj, apply_ite
    State.inj, apply_ite State.hpt, apply_ite State.xlt, apply_ite State.mat, apply_ite State.ram, apply_ite State.atu,
    apply_ite State.col, apply_ite State.cnt, apply_ite State.mgt, apply_ite State.lastRead]

@[simp] theorem State.installKey_frame (s : State) (h e : Nat) (key : BitVec 256) :
    (s.installKey h e key).part = s.part ∧ (s.installKey h e key).draws = s.draws ∧ (s.installKey h e key).req = s.req ∧
    (s.installKey h e key).flt = s.flt ∧ (s.installKey h e key).rt = s.rt ∧ (s.installKey h e key).lnk = s.lnk ∧ (s.installKey
    h e key).tim = s.tim ∧ (s.installKey h e key).obj = s.obj ∧ (s.installKey h e key).hpt = s.hpt ∧ (s.installKey h e
    key).xlt = s.xlt ∧ (s.installKey h e key).mat = s.mat ∧ (s.installKey h e key).ram = s.ram ∧ (s.installKey h e key).atu =
    s.atu ∧ (s.installKey h e key).col = s.col ∧ (s.installKey h e key).mgt = s.mgt ∧ (s.installKey h e key).lastRead =
    s.lastRead := by
  unfold State.installKey
  try dsimp only
  repeat' split
  all_goals simp [apply_ite State.part, apply_ite State.draws, apply_ite State.req, apply_ite State.flt, apply_ite State.rt,
    apply_ite State.lnk, apply_ite State.tim, apply_ite State.obj, apply_ite State.hpt, apply_ite State.xlt, apply_ite
    State.mat, apply_ite State.ram, apply_ite State.atu, apply_ite State.col, apply_ite State.mgt, apply_ite State.lastRead]

@[simp] theorem State.badTime_frame (s : State) (i q : Nat) (e : Entry) :
    (s.badTime i q e).1.part = s.part ∧ (s.badTime i q e).1.draws = s.draws ∧ (s.badTime i q e).1.req = s.req ∧ (s.badTime i q
    e).1.flt = s.flt ∧ (s.badTime i q e).1.rt = s.rt ∧ (s.badTime i q e).1.lnk = s.lnk ∧ (s.badTime i q e).1.pwr = s.pwr ∧
    (s.badTime i q e).1.tim = s.tim ∧ (s.badTime i q e).1.xpt = s.xpt ∧ (s.badTime i q e).1.obj = s.obj ∧ (s.badTime i q
    e).1.inj = s.inj ∧ (s.badTime i q e).1.hpt = s.hpt ∧ (s.badTime i q e).1.xlt = s.xlt ∧ (s.badTime i q e).1.mat = s.mat ∧
    (s.badTime i q e).1.ram = s.ram ∧ (s.badTime i q e).1.atu = s.atu ∧ (s.badTime i q e).1.col = s.col ∧ (s.badTime i q
    e).1.cnt = s.cnt ∧ (s.badTime i q e).1.mgt = s.mgt ∧ (s.badTime i q e).1.lastRead = s.lastRead := by
  unfold State.badTime
  try dsimp only
  repeat' split
  all_goals simp [apply_ite State.part, apply_ite State.draws, apply_ite State.req, apply_ite State.flt, apply_ite State.rt,
    apply_ite State.lnk, apply_ite State.pwr, apply_ite State.tim, apply_ite State.xpt, apply_ite State.obj, apply_ite
    State.inj, apply_ite State.hpt, apply_ite State.xlt, apply_ite State.mat, apply_ite State.ram, apply_ite State.atu,
    apply_ite State.col, apply_ite State.cnt, apply_ite State.mgt, apply_ite State.lastRead]

@[simp] theorem State.colour_frame (s : State) (i c b pre : Nat) :
    (s.colour i c b pre).1.part = s.part ∧ (s.colour i c b pre).1.draws = s.draws ∧ (s.colour i c b pre).1.req = s.req ∧
    (s.colour i c b pre).1.flt = s.flt ∧ (s.colour i c b pre).1.rt = s.rt ∧ (s.colour i c b pre).1.lnk = s.lnk ∧ (s.colour i c
    b pre).1.pwr = s.pwr ∧ (s.colour i c b pre).1.tim = s.tim ∧ (s.colour i c b pre).1.xpt = s.xpt ∧ (s.colour i c b
    pre).1.obj = s.obj ∧ (s.colour i c b pre).1.hpt = s.hpt ∧ (s.colour i c b pre).1.xlt = s.xlt ∧ (s.colour i c b pre).1.mat
    = s.mat ∧ (s.colour i c b pre).1.ram = s.ram ∧ (s.colour i c b pre).1.atu = s.atu ∧ (s.colour i c b pre).1.col = s.col ∧
    (s.colour i c b pre).1.mgt = s.mgt ∧ (s.colour i c b pre).1.lastRead = s.lastRead := by
  unfold State.colour
  try dsimp only
  repeat' split
  all_goals simp [apply_ite State.part, apply_ite State.draws, apply_ite State.req, apply_ite State.flt, apply_ite State.rt,
    apply_ite State.lnk, apply_ite State.pwr, apply_ite State.tim, apply_ite State.xpt, apply_ite State.obj, apply_ite
    State.hpt, apply_ite State.xlt, apply_ite State.mat, apply_ite State.ram, apply_ite State.atu, apply_ite State.col,
    apply_ite State.mgt, apply_ite State.lastRead]

@[simp] theorem State.police_frame (s : State) (i : Nat) (e : Entry) :
    (s.police i e).1.part = s.part ∧ (s.police i e).1.draws = s.draws ∧ (s.police i e).1.req = s.req ∧ (s.police i e).1.flt =
    s.flt ∧ (s.police i e).1.rt = s.rt ∧ (s.police i e).1.lnk = s.lnk ∧ (s.police i e).1.pwr = s.pwr ∧ (s.police i e).1.tim =
    s.tim ∧ (s.police i e).1.xpt = s.xpt ∧ (s.police i e).1.obj = s.obj ∧ (s.police i e).1.hpt = s.hpt ∧ (s.police i e).1.xlt
    = s.xlt ∧ (s.police i e).1.mat = s.mat ∧ (s.police i e).1.ram = s.ram ∧ (s.police i e).1.atu = s.atu ∧ (s.police i
    e).1.col = s.col ∧ (s.police i e).1.mgt = s.mgt ∧ (s.police i e).1.lastRead = s.lastRead := by
  unfold State.police
  try dsimp only
  repeat' split
  all_goals simp

@[simp] theorem State.fileRecv_frame (s : State) (z : Nat) (x : Slot) :
    (s.fileRecv z x).part = s.part ∧ (s.fileRecv z x).req = s.req ∧ (s.fileRecv z x).rt = s.rt ∧ (s.fileRecv z x).tim = s.tim
    ∧ (s.fileRecv z x).inj = s.inj ∧ (s.fileRecv z x).xlt = s.xlt ∧ (s.fileRecv z x).ram = s.ram ∧ (s.fileRecv z x).atu =
    s.atu ∧ (s.fileRecv z x).mgt = s.mgt ∧ (s.fileRecv z x).lastRead = s.lastRead := by
  unfold State.fileRecv
  try dsimp only
  repeat' split
  all_goals simp [apply_ite State.part, apply_ite State.req, apply_ite State.rt, apply_ite State.tim, apply_ite State.inj,
    apply_ite State.xlt, apply_ite State.ram, apply_ite State.atu, apply_ite State.mgt, apply_ite State.lastRead]

@[simp] theorem State.cancelRecv_frame (s : State) (z : Nat) (e : Entry) :
    (s.cancelRecv z e).part = s.part ∧ (s.cancelRecv z e).draws = s.draws ∧ (s.cancelRecv z e).req = s.req ∧ (s.cancelRecv z
    e).flt = s.flt ∧ (s.cancelRecv z e).rt = s.rt ∧ (s.cancelRecv z e).lnk = s.lnk ∧ (s.cancelRecv z e).pwr = s.pwr ∧
    (s.cancelRecv z e).tim = s.tim ∧ (s.cancelRecv z e).xpt = s.xpt ∧ (s.cancelRecv z e).inj = s.inj ∧ (s.cancelRecv z e).xlt
    = s.xlt ∧ (s.cancelRecv z e).ram = s.ram ∧ (s.cancelRecv z e).atu = s.atu ∧ (s.cancelRecv z e).col = s.col ∧ (s.cancelRecv
    z e).mgt = s.mgt ∧ (s.cancelRecv z e).lastRead = s.lastRead := by
  unfold State.cancelRecv
  try dsimp only
  repeat' split
  all_goals simp

@[simp] theorem State.startSend_frame (s : State) (z : Nat) (x : Slot) :
    (s.startSend z x).part = s.part ∧ (s.startSend z x).req = s.req ∧ (s.startSend z x).flt = s.flt ∧ (s.startSend z x).rt =
    s.rt ∧ (s.startSend z x).lnk = s.lnk ∧ (s.startSend z x).tim = s.tim ∧ (s.startSend z x).xlt = s.xlt ∧ (s.startSend z
    x).mat = s.mat ∧ (s.startSend z x).ram = s.ram ∧ (s.startSend z x).atu = s.atu ∧ (s.startSend z x).col = s.col ∧
    (s.startSend z x).mgt = s.mgt ∧ (s.startSend z x).lastRead = s.lastRead := by
  unfold State.startSend
  try dsimp only
  repeat' split
  all_goals simp [apply_ite State.part, apply_ite State.req, apply_ite State.flt, apply_ite State.rt, apply_ite State.lnk,
    apply_ite State.tim, apply_ite State.xlt, apply_ite State.mat, apply_ite State.ram, apply_ite State.atu, apply_ite
    State.col, apply_ite State.mgt, apply_ite State.lastRead]

@[simp] theorem State.startDesc_frame (s : State) (z : Nat) :
    (s.startDesc z).part = s.part ∧ (s.startDesc z).req = s.req ∧ (s.startDesc z).rt = s.rt ∧ (s.startDesc z).tim = s.tim ∧
    (s.startDesc z).xlt = s.xlt ∧ (s.startDesc z).ram = s.ram ∧ (s.startDesc z).atu = s.atu ∧ (s.startDesc z).mgt = s.mgt ∧
    (s.startDesc z).lastRead = s.lastRead := by
  unfold State.startDesc
  try dsimp only
  repeat' split
  all_goals simp [apply_ite State.part, apply_ite State.req, apply_ite State.rt, apply_ite State.tim, apply_ite State.xlt,
    apply_ite State.ram, apply_ite State.atu, apply_ite State.mgt, apply_ite State.lastRead]

@[simp] theorem State.startLaunch_frame (s : State) (z : Nat) (x : Slot) :
    (s.startLaunch z x).part = s.part ∧ (s.startLaunch z x).req = s.req ∧ (s.startLaunch z x).rt = s.rt ∧ (s.startLaunch z
    x).tim = s.tim ∧ (s.startLaunch z x).xlt = s.xlt ∧ (s.startLaunch z x).ram = s.ram ∧ (s.startLaunch z x).atu = s.atu ∧
    (s.startLaunch z x).mgt = s.mgt ∧ (s.startLaunch z x).lastRead = s.lastRead := by
  unfold State.startLaunch
  try dsimp only
  repeat' split
  all_goals simp [apply_ite State.part, apply_ite State.req, apply_ite State.rt, apply_ite State.tim, apply_ite State.xlt,
    apply_ite State.ram, apply_ite State.atu, apply_ite State.mgt, apply_ite State.lastRead]

@[simp] theorem State.launchNow_frame (s : State) (z : Nat) :
    (s.launchNow z).part = s.part ∧ (s.launchNow z).req = s.req ∧ (s.launchNow z).rt = s.rt ∧ (s.launchNow z).tim = s.tim ∧
    (s.launchNow z).xlt = s.xlt ∧ (s.launchNow z).ram = s.ram ∧ (s.launchNow z).atu = s.atu ∧ (s.launchNow z).mgt = s.mgt ∧
    (s.launchNow z).lastRead = s.lastRead := by
  unfold State.launchNow
  try dsimp only
  repeat' split
  all_goals simp

@[simp] theorem State.lateLaunches_frame (s : State) :
    (s.lateLaunches).part = s.part ∧ (s.lateLaunches).req = s.req ∧ (s.lateLaunches).rt = s.rt ∧ (s.lateLaunches).tim = s.tim
    ∧ (s.lateLaunches).xlt = s.xlt ∧ (s.lateLaunches).ram = s.ram ∧ (s.lateLaunches).atu = s.atu ∧ (s.lateLaunches).mgt =
    s.mgt ∧ (s.lateLaunches).lastRead = s.lastRead := by
  unfold State.lateLaunches
  simp

@[simp] theorem State.raiseFor_frame (s : State) (q : Nat) (e : Entry) :
    (s.raiseFor q e).part = s.part ∧ (s.raiseFor q e).draws = s.draws ∧ (s.raiseFor q e).req = s.req ∧ (s.raiseFor q e).flt =
    s.flt ∧ (s.raiseFor q e).rt = s.rt ∧ (s.raiseFor q e).tim = s.tim ∧ (s.raiseFor q e).xpt = s.xpt ∧ (s.raiseFor q e).obj =
    s.obj ∧ (s.raiseFor q e).inj = s.inj ∧ (s.raiseFor q e).hpt = s.hpt ∧ (s.raiseFor q e).xlt = s.xlt ∧ (s.raiseFor q e).mat
    = s.mat ∧ (s.raiseFor q e).ram = s.ram ∧ (s.raiseFor q e).atu = s.atu ∧ (s.raiseFor q e).col = s.col ∧ (s.raiseFor q
    e).cnt = s.cnt ∧ (s.raiseFor q e).mgt = s.mgt ∧ (s.raiseFor q e).lastRead = s.lastRead := by
  unfold State.raiseFor
  try dsimp only
  repeat' split
  all_goals simp [apply_ite State.part, apply_ite State.draws, apply_ite State.req, apply_ite State.flt, apply_ite State.rt,
    apply_ite State.tim, apply_ite State.xpt, apply_ite State.obj, apply_ite State.inj, apply_ite State.hpt, apply_ite
    State.xlt, apply_ite State.mat, apply_ite State.ram, apply_ite State.atu, apply_ite State.col, apply_ite State.cnt,
    apply_ite State.mgt, apply_ite State.lastRead]

@[simp] theorem State.refuseTake_frame (s : State) (q z st : Nat) (k : Slot) :
    (s.refuseTake q z st k).part = s.part ∧ (s.refuseTake q z st k).draws = s.draws ∧ (s.refuseTake q z st k).req = s.req ∧
    (s.refuseTake q z st k).flt = s.flt ∧ (s.refuseTake q z st k).rt = s.rt ∧ (s.refuseTake q z st k).lnk = s.lnk ∧
    (s.refuseTake q z st k).pwr = s.pwr ∧ (s.refuseTake q z st k).tim = s.tim ∧ (s.refuseTake q z st k).xpt = s.xpt ∧
    (s.refuseTake q z st k).inj = s.inj ∧ (s.refuseTake q z st k).xlt = s.xlt ∧ (s.refuseTake q z st k).mat = s.mat ∧
    (s.refuseTake q z st k).ram = s.ram ∧ (s.refuseTake q z st k).atu = s.atu ∧ (s.refuseTake q z st k).col = s.col ∧
    (s.refuseTake q z st k).mgt = s.mgt ∧ (s.refuseTake q z st k).lastRead = s.lastRead := by
  unfold State.refuseTake
  simp

@[simp] theorem State.reserveTake_frame (s : State) (q : Nat) (x : Queue) :
    (s.reserveTake q x).part = s.part ∧ (s.reserveTake q x).regs = s.regs ∧ (s.reserveTake q x).req = s.req ∧ (s.reserveTake q
    x).flt = s.flt ∧ (s.reserveTake q x).rt = s.rt ∧ (s.reserveTake q x).lnk = s.lnk ∧ (s.reserveTake q x).pwr = s.pwr ∧
    (s.reserveTake q x).tim = s.tim ∧ (s.reserveTake q x).xpt = s.xpt ∧ (s.reserveTake q x).inj = s.inj ∧ (s.reserveTake q
    x).hpt = s.hpt ∧ (s.reserveTake q x).xlt = s.xlt ∧ (s.reserveTake q x).mat = s.mat ∧ (s.reserveTake q x).ram = s.ram ∧
    (s.reserveTake q x).atu = s.atu ∧ (s.reserveTake q x).col = s.col ∧ (s.reserveTake q x).mgt = s.mgt ∧ (s.reserveTake q
    x).lastRead = s.lastRead := by
  unfold State.reserveTake
  simp

@[simp] theorem State.jrnlCfg_frame (s : State) (n : Nat) (e : Entry) (result : Nat) :
    (s.jrnlCfg n e result).part = s.part ∧ (s.jrnlCfg n e result).draws = s.draws ∧ (s.jrnlCfg n e result).regs = s.regs ∧
    (s.jrnlCfg n e result).req = s.req ∧ (s.jrnlCfg n e result).flt = s.flt ∧ (s.jrnlCfg n e result).rt = s.rt ∧ (s.jrnlCfg n
    e result).lnk = s.lnk ∧ (s.jrnlCfg n e result).pwr = s.pwr ∧ (s.jrnlCfg n e result).tim = s.tim ∧ (s.jrnlCfg n e
    result).xpt = s.xpt ∧ (s.jrnlCfg n e result).obj = s.obj ∧ (s.jrnlCfg n e result).inj = s.inj ∧ (s.jrnlCfg n e result).xlt
    = s.xlt ∧ (s.jrnlCfg n e result).mat = s.mat ∧ (s.jrnlCfg n e result).ram = s.ram ∧ (s.jrnlCfg n e result).atu = s.atu ∧
    (s.jrnlCfg n e result).col = s.col ∧ (s.jrnlCfg n e result).mgt = s.mgt ∧ (s.jrnlCfg n e result).lastRead = s.lastRead :=
    by
  unfold State.jrnlCfg
  simp

@[simp] theorem State.jrnlInstCfg_frame (s : State) (i : Nat) :
    (s.jrnlInstCfg i).part = s.part ∧ (s.jrnlInstCfg i).draws = s.draws ∧ (s.jrnlInstCfg i).regs = s.regs ∧ (s.jrnlInstCfg
    i).req = s.req ∧ (s.jrnlInstCfg i).flt = s.flt ∧ (s.jrnlInstCfg i).rt = s.rt ∧ (s.jrnlInstCfg i).lnk = s.lnk ∧
    (s.jrnlInstCfg i).pwr = s.pwr ∧ (s.jrnlInstCfg i).tim = s.tim ∧ (s.jrnlInstCfg i).xpt = s.xpt ∧ (s.jrnlInstCfg i).obj =
    s.obj ∧ (s.jrnlInstCfg i).inj = s.inj ∧ (s.jrnlInstCfg i).xlt = s.xlt ∧ (s.jrnlInstCfg i).mat = s.mat ∧ (s.jrnlInstCfg
    i).ram = s.ram ∧ (s.jrnlInstCfg i).atu = s.atu ∧ (s.jrnlInstCfg i).col = s.col ∧ (s.jrnlInstCfg i).mgt = s.mgt ∧
    (s.jrnlInstCfg i).lastRead = s.lastRead := by
  unfold State.jrnlInstCfg
  simp

@[simp] theorem State.jrnlGroup_frame (s : State) (h : Nat) (e : Entry) (live : Bool) :
    (s.jrnlGroup h e live).part = s.part ∧ (s.jrnlGroup h e live).draws = s.draws ∧ (s.jrnlGroup h e live).regs = s.regs ∧
    (s.jrnlGroup h e live).req = s.req ∧ (s.jrnlGroup h e live).flt = s.flt ∧ (s.jrnlGroup h e live).rt = s.rt ∧ (s.jrnlGroup
    h e live).lnk = s.lnk ∧ (s.jrnlGroup h e live).pwr = s.pwr ∧ (s.jrnlGroup h e live).tim = s.tim ∧ (s.jrnlGroup h e
    live).xpt = s.xpt ∧ (s.jrnlGroup h e live).obj = s.obj ∧ (s.jrnlGroup h e live).inj = s.inj ∧ (s.jrnlGroup h e live).xlt =
    s.xlt ∧ (s.jrnlGroup h e live).mat = s.mat ∧ (s.jrnlGroup h e live).ram = s.ram ∧ (s.jrnlGroup h e live).atu = s.atu ∧
    (s.jrnlGroup h e live).col = s.col ∧ (s.jrnlGroup h e live).mgt = s.mgt ∧ (s.jrnlGroup h e live).lastRead = s.lastRead :=
    by
  unfold State.jrnlGroup
  try dsimp only
  repeat' split
  all_goals simp [apply_ite State.part, apply_ite State.draws, apply_ite State.regs, apply_ite State.req, apply_ite State.flt,
    apply_ite State.rt, apply_ite State.lnk, apply_ite State.pwr, apply_ite State.tim, apply_ite State.xpt, apply_ite
    State.obj, apply_ite State.inj, apply_ite State.xlt, apply_ite State.mat, apply_ite State.ram, apply_ite State.atu,
    apply_ite State.col, apply_ite State.mgt, apply_ite State.lastRead]

@[simp] theorem State.jrnlPd_frame (s : State) (pd i : Nat) (live : Bool) :
    (s.jrnlPd pd i live).part = s.part ∧ (s.jrnlPd pd i live).draws = s.draws ∧ (s.jrnlPd pd i live).regs = s.regs ∧ (s.jrnlPd
    pd i live).req = s.req ∧ (s.jrnlPd pd i live).flt = s.flt ∧ (s.jrnlPd pd i live).rt = s.rt ∧ (s.jrnlPd pd i live).lnk =
    s.lnk ∧ (s.jrnlPd pd i live).pwr = s.pwr ∧ (s.jrnlPd pd i live).tim = s.tim ∧ (s.jrnlPd pd i live).xpt = s.xpt ∧ (s.jrnlPd
    pd i live).obj = s.obj ∧ (s.jrnlPd pd i live).inj = s.inj ∧ (s.jrnlPd pd i live).xlt = s.xlt ∧ (s.jrnlPd pd i live).mat =
    s.mat ∧ (s.jrnlPd pd i live).ram = s.ram ∧ (s.jrnlPd pd i live).atu = s.atu ∧ (s.jrnlPd pd i live).col = s.col ∧ (s.jrnlPd
    pd i live).mgt = s.mgt ∧ (s.jrnlPd pd i live).lastRead = s.lastRead := by
  unfold State.jrnlPd
  try dsimp only
  repeat' split
  all_goals simp [apply_ite State.part, apply_ite State.draws, apply_ite State.regs, apply_ite State.req, apply_ite State.flt,
    apply_ite State.rt, apply_ite State.lnk, apply_ite State.pwr, apply_ite State.tim, apply_ite State.xpt, apply_ite
    State.obj, apply_ite State.inj, apply_ite State.xlt, apply_ite State.mat, apply_ite State.ram, apply_ite State.atu,
    apply_ite State.col, apply_ite State.mgt, apply_ite State.lastRead]

@[simp] theorem State.jrnlQueue_frame (s : State) (q : Nat) :
    (s.jrnlQueue q).part = s.part ∧ (s.jrnlQueue q).draws = s.draws ∧ (s.jrnlQueue q).regs = s.regs ∧ (s.jrnlQueue q).req =
    s.req ∧ (s.jrnlQueue q).flt = s.flt ∧ (s.jrnlQueue q).rt = s.rt ∧ (s.jrnlQueue q).lnk = s.lnk ∧ (s.jrnlQueue q).pwr =
    s.pwr ∧ (s.jrnlQueue q).tim = s.tim ∧ (s.jrnlQueue q).xpt = s.xpt ∧ (s.jrnlQueue q).obj = s.obj ∧ (s.jrnlQueue q).inj =
    s.inj ∧ (s.jrnlQueue q).xlt = s.xlt ∧ (s.jrnlQueue q).mat = s.mat ∧ (s.jrnlQueue q).ram = s.ram ∧ (s.jrnlQueue q).atu =
    s.atu ∧ (s.jrnlQueue q).col = s.col ∧ (s.jrnlQueue q).mgt = s.mgt ∧ (s.jrnlQueue q).lastRead = s.lastRead := by
  unfold State.jrnlQueue
  try dsimp only
  repeat' split
  all_goals simp

@[simp] theorem State.jrnlHeaders_frame (s : State) (i : Nat) :
    (s.jrnlHeaders i).part = s.part ∧ (s.jrnlHeaders i).draws = s.draws ∧ (s.jrnlHeaders i).regs = s.regs ∧ (s.jrnlHeaders
    i).req = s.req ∧ (s.jrnlHeaders i).flt = s.flt ∧ (s.jrnlHeaders i).rt = s.rt ∧ (s.jrnlHeaders i).lnk = s.lnk ∧
    (s.jrnlHeaders i).pwr = s.pwr ∧ (s.jrnlHeaders i).tim = s.tim ∧ (s.jrnlHeaders i).xpt = s.xpt ∧ (s.jrnlHeaders i).obj =
    s.obj ∧ (s.jrnlHeaders i).inj = s.inj ∧ (s.jrnlHeaders i).xlt = s.xlt ∧ (s.jrnlHeaders i).mat = s.mat ∧ (s.jrnlHeaders
    i).ram = s.ram ∧ (s.jrnlHeaders i).atu = s.atu ∧ (s.jrnlHeaders i).col = s.col ∧ (s.jrnlHeaders i).mgt = s.mgt ∧
    (s.jrnlHeaders i).lastRead = s.lastRead := by
  unfold State.jrnlHeaders
  simp

@[simp] theorem State.writeRegion_frame (s : State) (i x : Nat) :
    (s.writeRegion i x).part = s.part ∧ (s.writeRegion i x).draws = s.draws ∧ (s.writeRegion i x).regs = s.regs ∧
    (s.writeRegion i x).req = s.req ∧ (s.writeRegion i x).flt = s.flt ∧ (s.writeRegion i x).rt = s.rt ∧ (s.writeRegion i
    x).lnk = s.lnk ∧ (s.writeRegion i x).pwr = s.pwr ∧ (s.writeRegion i x).tim = s.tim ∧ (s.writeRegion i x).xpt = s.xpt ∧
    (s.writeRegion i x).obj = s.obj ∧ (s.writeRegion i x).inj = s.inj ∧ (s.writeRegion i x).xlt = s.xlt ∧ (s.writeRegion i
    x).mat = s.mat ∧ (s.writeRegion i x).ram = s.ram ∧ (s.writeRegion i x).atu = s.atu ∧ (s.writeRegion i x).col = s.col ∧
    (s.writeRegion i x).mgt = s.mgt ∧ (s.writeRegion i x).lastRead = s.lastRead := by
  unfold State.writeRegion
  simp

@[simp] theorem State.clearConnRecord_frame (s : State) (i : Nat) (p : CtxPlace) :
    (s.clearConnRecord i p).part = s.part ∧ (s.clearConnRecord i p).draws = s.draws ∧ (s.clearConnRecord i p).regs = s.regs ∧
    (s.clearConnRecord i p).req = s.req ∧ (s.clearConnRecord i p).flt = s.flt ∧ (s.clearConnRecord i p).rt = s.rt ∧
    (s.clearConnRecord i p).lnk = s.lnk ∧ (s.clearConnRecord i p).pwr = s.pwr ∧ (s.clearConnRecord i p).tim = s.tim ∧
    (s.clearConnRecord i p).xpt = s.xpt ∧ (s.clearConnRecord i p).obj = s.obj ∧ (s.clearConnRecord i p).inj = s.inj ∧
    (s.clearConnRecord i p).xlt = s.xlt ∧ (s.clearConnRecord i p).mat = s.mat ∧ (s.clearConnRecord i p).ram = s.ram ∧
    (s.clearConnRecord i p).atu = s.atu ∧ (s.clearConnRecord i p).col = s.col ∧ (s.clearConnRecord i p).mgt = s.mgt ∧
    (s.clearConnRecord i p).lastRead = s.lastRead := by
  unfold State.clearConnRecord
  try dsimp only
  repeat' split
  all_goals simp [apply_ite State.part, apply_ite State.draws, apply_ite State.regs, apply_ite State.req, apply_ite State.flt,
    apply_ite State.rt, apply_ite State.lnk, apply_ite State.pwr, apply_ite State.tim, apply_ite State.xpt, apply_ite
    State.obj, apply_ite State.inj, apply_ite State.xlt, apply_ite State.mat, apply_ite State.ram, apply_ite State.atu,
    apply_ite State.col, apply_ite State.mgt, apply_ite State.lastRead]

@[simp] theorem State.waitDone_frame (s : State) (w : AdminWait) :
    (s.waitDone w).part = s.part ∧ (s.waitDone w).draws = s.draws ∧ (s.waitDone w).regs = s.regs ∧ (s.waitDone w).req = s.req
    ∧ (s.waitDone w).flt = s.flt ∧ (s.waitDone w).rt = s.rt ∧ (s.waitDone w).lnk = s.lnk ∧ (s.waitDone w).pwr = s.pwr ∧
    (s.waitDone w).tim = s.tim ∧ (s.waitDone w).xpt = s.xpt ∧ (s.waitDone w).obj = s.obj ∧ (s.waitDone w).inj = s.inj ∧
    (s.waitDone w).xlt = s.xlt ∧ (s.waitDone w).mat = s.mat ∧ (s.waitDone w).ram = s.ram ∧ (s.waitDone w).atu = s.atu ∧
    (s.waitDone w).col = s.col ∧ (s.waitDone w).mgt = s.mgt ∧ (s.waitDone w).lastRead = s.lastRead := by
  unfold State.waitDone
  try dsimp only
  repeat' split
  all_goals simp

@[simp] theorem State.jrnlDone_frame (s : State) (x : AdminRec) :
    (s.jrnlDone x).part = s.part ∧ (s.jrnlDone x).draws = s.draws ∧ (s.jrnlDone x).regs = s.regs ∧ (s.jrnlDone x).req = s.req
    ∧ (s.jrnlDone x).flt = s.flt ∧ (s.jrnlDone x).rt = s.rt ∧ (s.jrnlDone x).lnk = s.lnk ∧ (s.jrnlDone x).pwr = s.pwr ∧
    (s.jrnlDone x).tim = s.tim ∧ (s.jrnlDone x).xpt = s.xpt ∧ (s.jrnlDone x).obj = s.obj ∧ (s.jrnlDone x).inj = s.inj ∧
    (s.jrnlDone x).xlt = s.xlt ∧ (s.jrnlDone x).mat = s.mat ∧ (s.jrnlDone x).ram = s.ram ∧ (s.jrnlDone x).atu = s.atu ∧
    (s.jrnlDone x).col = s.col ∧ (s.jrnlDone x).mgt = s.mgt ∧ (s.jrnlDone x).lastRead = s.lastRead := by
  unfold State.jrnlDone
  try dsimp only
  repeat' split
  all_goals simp [apply_ite State.part, apply_ite State.draws, apply_ite State.regs, apply_ite State.req, apply_ite State.flt,
    apply_ite State.rt, apply_ite State.lnk, apply_ite State.pwr, apply_ite State.tim, apply_ite State.xpt, apply_ite
    State.obj, apply_ite State.inj, apply_ite State.xlt, apply_ite State.mat, apply_ite State.ram, apply_ite State.atu,
    apply_ite State.col, apply_ite State.mgt, apply_ite State.lastRead]

@[simp] theorem State.adminFinish_frame (s : State) (r : Nat) (x : AdminRec) :
    (s.adminFinish r x).part = s.part ∧ (s.adminFinish r x).draws = s.draws ∧ (s.adminFinish r x).req = s.req ∧ (s.adminFinish
    r x).flt = s.flt ∧ (s.adminFinish r x).rt = s.rt ∧ (s.adminFinish r x).lnk = s.lnk ∧ (s.adminFinish r x).tim = s.tim ∧
    (s.adminFinish r x).xpt = s.xpt ∧ (s.adminFinish r x).inj = s.inj ∧ (s.adminFinish r x).xlt = s.xlt ∧ (s.adminFinish r
    x).mat = s.mat ∧ (s.adminFinish r x).ram = s.ram ∧ (s.adminFinish r x).atu = s.atu ∧ (s.adminFinish r x).col = s.col ∧
    (s.adminFinish r x).mgt = s.mgt := by
  unfold State.adminFinish
  try dsimp only
  repeat' split
  all_goals simp [apply_ite State.part, apply_ite State.draws, apply_ite State.req, apply_ite State.flt, apply_ite State.rt,
    apply_ite State.lnk, apply_ite State.tim, apply_ite State.xpt, apply_ite State.inj, apply_ite State.xlt, apply_ite
    State.mat, apply_ite State.ram, apply_ite State.atu, apply_ite State.col, apply_ite State.mgt]

@[simp] theorem State.askReset_frame (s : State) :
    (s.askReset).part = s.part ∧ (s.askReset).draws = s.draws ∧ (s.askReset).regs = s.regs ∧ (s.askReset).req = s.req ∧
    (s.askReset).flt = s.flt ∧ (s.askReset).rt = s.rt ∧ (s.askReset).lnk = s.lnk ∧ (s.askReset).pwr = s.pwr ∧ (s.askReset).tim
    = s.tim ∧ (s.askReset).xpt = s.xpt ∧ (s.askReset).obj = s.obj ∧ (s.askReset).inj = s.inj ∧ (s.askReset).hpt = s.hpt ∧
    (s.askReset).xlt = s.xlt ∧ (s.askReset).mat = s.mat ∧ (s.askReset).ram = s.ram ∧ (s.askReset).atu = s.atu ∧
    (s.askReset).col = s.col ∧ (s.askReset).cnt = s.cnt ∧ (s.askReset).lastRead = s.lastRead := by
  unfold State.askReset
  simp

@[simp] theorem State.mgtCtrlWrite_frame (s : State) (w : Word) :
    (s.mgtCtrlWrite w).part = s.part ∧ (s.mgtCtrlWrite w).draws = s.draws ∧ (s.mgtCtrlWrite w).req = s.req ∧ (s.mgtCtrlWrite
    w).flt = s.flt ∧ (s.mgtCtrlWrite w).rt = s.rt ∧ (s.mgtCtrlWrite w).lnk = s.lnk ∧ (s.mgtCtrlWrite w).pwr = s.pwr ∧
    (s.mgtCtrlWrite w).tim = s.tim ∧ (s.mgtCtrlWrite w).xpt = s.xpt ∧ (s.mgtCtrlWrite w).obj = s.obj ∧ (s.mgtCtrlWrite w).inj
    = s.inj ∧ (s.mgtCtrlWrite w).hpt = s.hpt ∧ (s.mgtCtrlWrite w).xlt = s.xlt ∧ (s.mgtCtrlWrite w).mat = s.mat ∧
    (s.mgtCtrlWrite w).ram = s.ram ∧ (s.mgtCtrlWrite w).atu = s.atu ∧ (s.mgtCtrlWrite w).col = s.col ∧ (s.mgtCtrlWrite w).cnt
    = s.cnt ∧ (s.mgtCtrlWrite w).lastRead = s.lastRead := by
  unfold State.mgtCtrlWrite
  try dsimp only
  repeat' split
  all_goals simp [apply_ite State.part, apply_ite State.draws, apply_ite State.req, apply_ite State.flt, apply_ite State.rt,
    apply_ite State.lnk, apply_ite State.pwr, apply_ite State.tim, apply_ite State.xpt, apply_ite State.obj, apply_ite
    State.inj, apply_ite State.hpt, apply_ite State.xlt, apply_ite State.mat, apply_ite State.ram, apply_ite State.atu,
    apply_ite State.col, apply_ite State.cnt, apply_ite State.lastRead]

@[simp] theorem State.ownerCtrlWrite_frame (s : State) (w : Word) :
    (s.ownerCtrlWrite w).part = s.part ∧ (s.ownerCtrlWrite w).draws = s.draws ∧ (s.ownerCtrlWrite w).req = s.req ∧
    (s.ownerCtrlWrite w).flt = s.flt ∧ (s.ownerCtrlWrite w).rt = s.rt ∧ (s.ownerCtrlWrite w).lnk = s.lnk ∧ (s.ownerCtrlWrite
    w).pwr = s.pwr ∧ (s.ownerCtrlWrite w).tim = s.tim ∧ (s.ownerCtrlWrite w).xpt = s.xpt ∧ (s.ownerCtrlWrite w).obj = s.obj ∧
    (s.ownerCtrlWrite w).inj = s.inj ∧ (s.ownerCtrlWrite w).hpt = s.hpt ∧ (s.ownerCtrlWrite w).xlt = s.xlt ∧ (s.ownerCtrlWrite
    w).mat = s.mat ∧ (s.ownerCtrlWrite w).ram = s.ram ∧ (s.ownerCtrlWrite w).atu = s.atu ∧ (s.ownerCtrlWrite w).col = s.col ∧
    (s.ownerCtrlWrite w).cnt = s.cnt ∧ (s.ownerCtrlWrite w).lastRead = s.lastRead := by
  unfold State.ownerCtrlWrite
  try dsimp only
  repeat' split
  all_goals simp [apply_ite State.part, apply_ite State.draws, apply_ite State.req, apply_ite State.flt, apply_ite State.rt,
    apply_ite State.lnk, apply_ite State.pwr, apply_ite State.tim, apply_ite State.xpt, apply_ite State.obj, apply_ite
    State.inj, apply_ite State.hpt, apply_ite State.xlt, apply_ite State.mat, apply_ite State.ram, apply_ite State.atu,
    apply_ite State.col, apply_ite State.cnt, apply_ite State.lastRead]

@[simp] theorem State.handOverCtrl_frame (s : State) :
    (s.handOverCtrl).part = s.part ∧ (s.handOverCtrl).draws = s.draws ∧ (s.handOverCtrl).req = s.req ∧ (s.handOverCtrl).flt =
    s.flt ∧ (s.handOverCtrl).rt = s.rt ∧ (s.handOverCtrl).lnk = s.lnk ∧ (s.handOverCtrl).pwr = s.pwr ∧ (s.handOverCtrl).tim =
    s.tim ∧ (s.handOverCtrl).xpt = s.xpt ∧ (s.handOverCtrl).obj = s.obj ∧ (s.handOverCtrl).inj = s.inj ∧ (s.handOverCtrl).hpt
    = s.hpt ∧ (s.handOverCtrl).xlt = s.xlt ∧ (s.handOverCtrl).mat = s.mat ∧ (s.handOverCtrl).ram = s.ram ∧
    (s.handOverCtrl).atu = s.atu ∧ (s.handOverCtrl).col = s.col ∧ (s.handOverCtrl).cnt = s.cnt ∧ (s.handOverCtrl).lastRead =
    s.lastRead := by
  unfold State.handOverCtrl
  try dsimp only
  repeat' split
  all_goals simp [apply_ite State.part, apply_ite State.draws, apply_ite State.req, apply_ite State.flt, apply_ite State.rt,
    apply_ite State.lnk, apply_ite State.pwr, apply_ite State.tim, apply_ite State.xpt, apply_ite State.obj, apply_ite
    State.inj, apply_ite State.hpt, apply_ite State.xlt, apply_ite State.mat, apply_ite State.ram, apply_ite State.atu,
    apply_ite State.col, apply_ite State.cnt, apply_ite State.lastRead]

@[simp] theorem State.setEpochOf_frame (s : State) (kind e n : Nat) :
    (s.setEpochOf kind e n).part = s.part ∧ (s.setEpochOf kind e n).draws = s.draws ∧ (s.setEpochOf kind e n).req = s.req ∧
    (s.setEpochOf kind e n).flt = s.flt ∧ (s.setEpochOf kind e n).rt = s.rt ∧ (s.setEpochOf kind e n).lnk = s.lnk ∧
    (s.setEpochOf kind e n).pwr = s.pwr ∧ (s.setEpochOf kind e n).tim = s.tim ∧ (s.setEpochOf kind e n).xpt = s.xpt ∧
    (s.setEpochOf kind e n).obj = s.obj ∧ (s.setEpochOf kind e n).inj = s.inj ∧ (s.setEpochOf kind e n).hpt = s.hpt ∧
    (s.setEpochOf kind e n).xlt = s.xlt ∧ (s.setEpochOf kind e n).mat = s.mat ∧ (s.setEpochOf kind e n).ram = s.ram ∧
    (s.setEpochOf kind e n).atu = s.atu ∧ (s.setEpochOf kind e n).col = s.col ∧ (s.setEpochOf kind e n).cnt = s.cnt ∧
    (s.setEpochOf kind e n).mgt = s.mgt ∧ (s.setEpochOf kind e n).lastRead = s.lastRead := by
  unfold State.setEpochOf
  try dsimp only
  repeat' split
  all_goals simp [apply_ite State.part, apply_ite State.draws, apply_ite State.req, apply_ite State.flt, apply_ite State.rt,
    apply_ite State.lnk, apply_ite State.pwr, apply_ite State.tim, apply_ite State.xpt, apply_ite State.obj, apply_ite
    State.inj, apply_ite State.hpt, apply_ite State.xlt, apply_ite State.mat, apply_ite State.ram, apply_ite State.atu,
    apply_ite State.col, apply_ite State.cnt, apply_ite State.mgt, apply_ite State.lastRead]

@[simp] theorem State.holdImage_frame (s : State) (kind e img plan : Nat) :
    (s.holdImage kind e img plan).part = s.part ∧ (s.holdImage kind e img plan).draws = s.draws ∧ (s.holdImage kind e img
    plan).req = s.req ∧ (s.holdImage kind e img plan).flt = s.flt ∧ (s.holdImage kind e img plan).lnk = s.lnk ∧ (s.holdImage
    kind e img plan).pwr = s.pwr ∧ (s.holdImage kind e img plan).xpt = s.xpt ∧ (s.holdImage kind e img plan).obj = s.obj ∧
    (s.holdImage kind e img plan).inj = s.inj ∧ (s.holdImage kind e img plan).hpt = s.hpt ∧ (s.holdImage kind e img plan).xlt
    = s.xlt ∧ (s.holdImage kind e img plan).mat = s.mat ∧ (s.holdImage kind e img plan).ram = s.ram ∧ (s.holdImage kind e img
    plan).atu = s.atu ∧ (s.holdImage kind e img plan).col = s.col ∧ (s.holdImage kind e img plan).cnt = s.cnt ∧ (s.holdImage
    kind e img plan).mgt = s.mgt ∧ (s.holdImage kind e img plan).lastRead = s.lastRead := by
  unfold State.holdImage
  try dsimp only
  repeat' split
  all_goals simp [apply_ite State.part, apply_ite State.draws, apply_ite State.req, apply_ite State.flt, apply_ite State.lnk,
    apply_ite State.pwr, apply_ite State.xpt, apply_ite State.obj, apply_ite State.inj, apply_ite State.hpt, apply_ite
    State.xlt, apply_ite State.mat, apply_ite State.ram, apply_ite State.atu, apply_ite State.col, apply_ite State.cnt,
    apply_ite State.mgt, apply_ite State.lastRead]

@[simp] theorem State.setTable_frame (s : State) (t img : Nat) :
    (s.setTable t img).part = s.part ∧ (s.setTable t img).draws = s.draws ∧ (s.setTable t img).regs = s.regs ∧ (s.setTable t
    img).req = s.req ∧ (s.setTable t img).flt = s.flt ∧ (s.setTable t img).rt = s.rt ∧ (s.setTable t img).tim = s.tim ∧
    (s.setTable t img).obj = s.obj ∧ (s.setTable t img).inj = s.inj ∧ (s.setTable t img).hpt = s.hpt ∧ (s.setTable t img).xlt
    = s.xlt ∧ (s.setTable t img).ram = s.ram ∧ (s.setTable t img).atu = s.atu ∧ (s.setTable t img).cnt = s.cnt ∧ (s.setTable t
    img).mgt = s.mgt ∧ (s.setTable t img).lastRead = s.lastRead := by
  unfold State.setTable
  try dsimp only
  repeat' split
  all_goals simp [apply_ite State.part, apply_ite State.draws, apply_ite State.regs, apply_ite State.req, apply_ite State.flt,
    apply_ite State.rt, apply_ite State.tim, apply_ite State.obj, apply_ite State.inj, apply_ite State.hpt, apply_ite
    State.xlt, apply_ite State.ram, apply_ite State.atu, apply_ite State.cnt, apply_ite State.mgt, apply_ite State.lastRead]

@[simp] theorem State.modRequester_frame (s : State) (who : Nat) (f : Requester → Requester) :
    (s.modRequester who f).part = s.part ∧ (s.modRequester who f).draws = s.draws ∧ (s.modRequester who f).regs = s.regs ∧
    (s.modRequester who f).flt = s.flt ∧ (s.modRequester who f).rt = s.rt ∧ (s.modRequester who f).lnk = s.lnk ∧
    (s.modRequester who f).pwr = s.pwr ∧ (s.modRequester who f).tim = s.tim ∧ (s.modRequester who f).xpt = s.xpt ∧
    (s.modRequester who f).obj = s.obj ∧ (s.modRequester who f).inj = s.inj ∧ (s.modRequester who f).hpt = s.hpt ∧
    (s.modRequester who f).xlt = s.xlt ∧ (s.modRequester who f).mat = s.mat ∧ (s.modRequester who f).ram = s.ram ∧
    (s.modRequester who f).atu = s.atu ∧ (s.modRequester who f).col = s.col ∧ (s.modRequester who f).cnt = s.cnt ∧
    (s.modRequester who f).mgt = s.mgt ∧ (s.modRequester who f).lastRead = s.lastRead := by
  unfold State.modRequester
  simp

@[simp] theorem State.answer_frame (s : State) (who n v : Nat) :
    (s.answer who n v).part = s.part ∧ (s.answer who n v).draws = s.draws ∧ (s.answer who n v).regs = s.regs ∧ (s.answer who n
    v).req = s.req ∧ (s.answer who n v).flt = s.flt ∧ (s.answer who n v).rt = s.rt ∧ (s.answer who n v).lnk = s.lnk ∧
    (s.answer who n v).pwr = s.pwr ∧ (s.answer who n v).tim = s.tim ∧ (s.answer who n v).xpt = s.xpt ∧ (s.answer who n v).obj
    = s.obj ∧ (s.answer who n v).inj = s.inj ∧ (s.answer who n v).hpt = s.hpt ∧ (s.answer who n v).xlt = s.xlt ∧ (s.answer who
    n v).mat = s.mat ∧ (s.answer who n v).ram = s.ram ∧ (s.answer who n v).atu = s.atu ∧ (s.answer who n v).col = s.col ∧
    (s.answer who n v).cnt = s.cnt ∧ (s.answer who n v).mgt = s.mgt := by
  unfold State.answer
  simp

@[simp] theorem State.latchFor_frame (s : State) (who a : Nat) (w : Word) :
    (s.latchFor who a w).part = s.part ∧ (s.latchFor who a w).draws = s.draws ∧ (s.latchFor who a w).regs = s.regs ∧
    (s.latchFor who a w).flt = s.flt ∧ (s.latchFor who a w).rt = s.rt ∧ (s.latchFor who a w).lnk = s.lnk ∧ (s.latchFor who a
    w).pwr = s.pwr ∧ (s.latchFor who a w).tim = s.tim ∧ (s.latchFor who a w).xpt = s.xpt ∧ (s.latchFor who a w).obj = s.obj ∧
    (s.latchFor who a w).inj = s.inj ∧ (s.latchFor who a w).hpt = s.hpt ∧ (s.latchFor who a w).xlt = s.xlt ∧ (s.latchFor who a
    w).mat = s.mat ∧ (s.latchFor who a w).ram = s.ram ∧ (s.latchFor who a w).atu = s.atu ∧ (s.latchFor who a w).col = s.col ∧
    (s.latchFor who a w).cnt = s.cnt ∧ (s.latchFor who a w).mgt = s.mgt ∧ (s.latchFor who a w).lastRead = s.lastRead := by
  unfold State.latchFor
  simp

@[simp] theorem State.latched_frame (s : State) (who a : Nat) (w : Word) :
    (s.latched who a w).1.part = s.part ∧ (s.latched who a w).1.draws = s.draws ∧ (s.latched who a w).1.regs = s.regs ∧
    (s.latched who a w).1.flt = s.flt ∧ (s.latched who a w).1.rt = s.rt ∧ (s.latched who a w).1.lnk = s.lnk ∧ (s.latched who a
    w).1.pwr = s.pwr ∧ (s.latched who a w).1.tim = s.tim ∧ (s.latched who a w).1.xpt = s.xpt ∧ (s.latched who a w).1.obj =
    s.obj ∧ (s.latched who a w).1.inj = s.inj ∧ (s.latched who a w).1.hpt = s.hpt ∧ (s.latched who a w).1.xlt = s.xlt ∧
    (s.latched who a w).1.mat = s.mat ∧ (s.latched who a w).1.ram = s.ram ∧ (s.latched who a w).1.atu = s.atu ∧ (s.latched who
    a w).1.col = s.col ∧ (s.latched who a w).1.cnt = s.cnt ∧ (s.latched who a w).1.mgt = s.mgt ∧ (s.latched who a
    w).1.lastRead = s.lastRead := by
  unfold State.latched
  try dsimp only
  repeat' split
  all_goals simp

@[simp] theorem State.readLow_frame (s : State) (who a : Nat) (lo hi : Word) :
    (s.readLow who a lo hi).part = s.part ∧ (s.readLow who a lo hi).draws = s.draws ∧ (s.readLow who a lo hi).regs = s.regs ∧
    (s.readLow who a lo hi).flt = s.flt ∧ (s.readLow who a lo hi).rt = s.rt ∧ (s.readLow who a lo hi).lnk = s.lnk ∧ (s.readLow
    who a lo hi).pwr = s.pwr ∧ (s.readLow who a lo hi).tim = s.tim ∧ (s.readLow who a lo hi).xpt = s.xpt ∧ (s.readLow who a lo
    hi).obj = s.obj ∧ (s.readLow who a lo hi).inj = s.inj ∧ (s.readLow who a lo hi).hpt = s.hpt ∧ (s.readLow who a lo hi).xlt
    = s.xlt ∧ (s.readLow who a lo hi).mat = s.mat ∧ (s.readLow who a lo hi).ram = s.ram ∧ (s.readLow who a lo hi).atu = s.atu
    ∧ (s.readLow who a lo hi).col = s.col ∧ (s.readLow who a lo hi).cnt = s.cnt ∧ (s.readLow who a lo hi).mgt = s.mgt := by
  unfold State.readLow
  simp

@[simp] theorem State.countingClock_frame (s : State) (b : Nat) (outside : List (Nat × Nat)) (occs : List (Nat × Nat × Nat)) :
    (s.countingClock b outside occs).part = s.part ∧ (s.countingClock b outside occs).draws = s.draws ∧ (s.countingClock b
    outside occs).regs = s.regs ∧ (s.countingClock b outside occs).req = s.req ∧ (s.countingClock b outside occs).flt = s.flt
    ∧ (s.countingClock b outside occs).rt = s.rt ∧ (s.countingClock b outside occs).lnk = s.lnk ∧ (s.countingClock b outside
    occs).pwr = s.pwr ∧ (s.countingClock b outside occs).tim = s.tim ∧ (s.countingClock b outside occs).xpt = s.xpt ∧
    (s.countingClock b outside occs).obj = s.obj ∧ (s.countingClock b outside occs).inj = s.inj ∧ (s.countingClock b outside
    occs).hpt = s.hpt ∧ (s.countingClock b outside occs).xlt = s.xlt ∧ (s.countingClock b outside occs).mat = s.mat ∧
    (s.countingClock b outside occs).ram = s.ram ∧ (s.countingClock b outside occs).atu = s.atu ∧ (s.countingClock b outside
    occs).col = s.col ∧ (s.countingClock b outside occs).mgt = s.mgt ∧ (s.countingClock b outside occs).lastRead = s.lastRead
    := by
  unfold State.countingClock
  try dsimp only
  repeat' split
  all_goals simp [apply_ite State.part, apply_ite State.draws, apply_ite State.regs, apply_ite State.req, apply_ite State.flt,
    apply_ite State.rt, apply_ite State.lnk, apply_ite State.pwr, apply_ite State.tim, apply_ite State.xpt, apply_ite
    State.obj, apply_ite State.inj, apply_ite State.hpt, apply_ite State.xlt, apply_ite State.mat, apply_ite State.ram,
    apply_ite State.atu, apply_ite State.col, apply_ite State.mgt, apply_ite State.lastRead]

@[simp] theorem State.setCtr_frame (s : State) (b c : Nat) (x : ProgCtr) :
    (s.setCtr b c x).part = s.part ∧ (s.setCtr b c x).draws = s.draws ∧ (s.setCtr b c x).regs = s.regs ∧ (s.setCtr b c x).req
    = s.req ∧ (s.setCtr b c x).flt = s.flt ∧ (s.setCtr b c x).rt = s.rt ∧ (s.setCtr b c x).lnk = s.lnk ∧ (s.setCtr b c x).pwr
    = s.pwr ∧ (s.setCtr b c x).tim = s.tim ∧ (s.setCtr b c x).xpt = s.xpt ∧ (s.setCtr b c x).obj = s.obj ∧ (s.setCtr b c
    x).inj = s.inj ∧ (s.setCtr b c x).hpt = s.hpt ∧ (s.setCtr b c x).xlt = s.xlt ∧ (s.setCtr b c x).mat = s.mat ∧ (s.setCtr b
    c x).ram = s.ram ∧ (s.setCtr b c x).atu = s.atu ∧ (s.setCtr b c x).col = s.col ∧ (s.setCtr b c x).mgt = s.mgt ∧ (s.setCtr
    b c x).lastRead = s.lastRead := by
  unfold State.setCtr
  simp

@[simp] theorem State.cntValRead_frame (s : State) (who b c : Nat) :
    (s.cntValRead who b c).part = s.part ∧ (s.cntValRead who b c).draws = s.draws ∧ (s.cntValRead who b c).regs = s.regs ∧
    (s.cntValRead who b c).flt = s.flt ∧ (s.cntValRead who b c).rt = s.rt ∧ (s.cntValRead who b c).lnk = s.lnk ∧ (s.cntValRead
    who b c).pwr = s.pwr ∧ (s.cntValRead who b c).tim = s.tim ∧ (s.cntValRead who b c).xpt = s.xpt ∧ (s.cntValRead who b
    c).obj = s.obj ∧ (s.cntValRead who b c).inj = s.inj ∧ (s.cntValRead who b c).hpt = s.hpt ∧ (s.cntValRead who b c).xlt =
    s.xlt ∧ (s.cntValRead who b c).mat = s.mat ∧ (s.cntValRead who b c).ram = s.ram ∧ (s.cntValRead who b c).atu = s.atu ∧
    (s.cntValRead who b c).col = s.col ∧ (s.cntValRead who b c).cnt = s.cnt ∧ (s.cntValRead who b c).mgt = s.mgt := by
  unfold State.cntValRead
  try dsimp only
  repeat' split
  all_goals simp [apply_ite State.part, apply_ite State.draws, apply_ite State.regs, apply_ite State.flt, apply_ite State.rt,
    apply_ite State.lnk, apply_ite State.pwr, apply_ite State.tim, apply_ite State.xpt, apply_ite State.obj, apply_ite
    State.inj, apply_ite State.hpt, apply_ite State.xlt, apply_ite State.mat, apply_ite State.ram, apply_ite State.atu,
    apply_ite State.col, apply_ite State.cnt, apply_ite State.mgt]

@[simp] theorem State.cntSelWrite_frame (s : State) (b c : Nat) (w : Word) :
    (s.cntSelWrite b c w).part = s.part ∧ (s.cntSelWrite b c w).draws = s.draws ∧ (s.cntSelWrite b c w).regs = s.regs ∧
    (s.cntSelWrite b c w).req = s.req ∧ (s.cntSelWrite b c w).flt = s.flt ∧ (s.cntSelWrite b c w).rt = s.rt ∧ (s.cntSelWrite b
    c w).lnk = s.lnk ∧ (s.cntSelWrite b c w).pwr = s.pwr ∧ (s.cntSelWrite b c w).tim = s.tim ∧ (s.cntSelWrite b c w).xpt =
    s.xpt ∧ (s.cntSelWrite b c w).obj = s.obj ∧ (s.cntSelWrite b c w).inj = s.inj ∧ (s.cntSelWrite b c w).hpt = s.hpt ∧
    (s.cntSelWrite b c w).xlt = s.xlt ∧ (s.cntSelWrite b c w).mat = s.mat ∧ (s.cntSelWrite b c w).ram = s.ram ∧ (s.cntSelWrite
    b c w).atu = s.atu ∧ (s.cntSelWrite b c w).col = s.col ∧ (s.cntSelWrite b c w).mgt = s.mgt ∧ (s.cntSelWrite b c
    w).lastRead = s.lastRead := by
  unfold State.cntSelWrite
  try dsimp only
  repeat' split
  all_goals simp [apply_ite State.part, apply_ite State.draws, apply_ite State.regs, apply_ite State.req, apply_ite State.flt,
    apply_ite State.rt, apply_ite State.lnk, apply_ite State.pwr, apply_ite State.tim, apply_ite State.xpt, apply_ite
    State.obj, apply_ite State.inj, apply_ite State.hpt, apply_ite State.xlt, apply_ite State.mat, apply_ite State.ram,
    apply_ite State.atu, apply_ite State.col, apply_ite State.mgt, apply_ite State.lastRead]

@[simp] theorem State.cntValWrite_frame (s : State) (b c : Nat) (w : Word) :
    (s.cntValWrite b c w).part = s.part ∧ (s.cntValWrite b c w).draws = s.draws ∧ (s.cntValWrite b c w).regs = s.regs ∧
    (s.cntValWrite b c w).req = s.req ∧ (s.cntValWrite b c w).flt = s.flt ∧ (s.cntValWrite b c w).rt = s.rt ∧ (s.cntValWrite b
    c w).lnk = s.lnk ∧ (s.cntValWrite b c w).pwr = s.pwr ∧ (s.cntValWrite b c w).tim = s.tim ∧ (s.cntValWrite b c w).xpt =
    s.xpt ∧ (s.cntValWrite b c w).obj = s.obj ∧ (s.cntValWrite b c w).inj = s.inj ∧ (s.cntValWrite b c w).hpt = s.hpt ∧
    (s.cntValWrite b c w).xlt = s.xlt ∧ (s.cntValWrite b c w).mat = s.mat ∧ (s.cntValWrite b c w).ram = s.ram ∧ (s.cntValWrite
    b c w).atu = s.atu ∧ (s.cntValWrite b c w).col = s.col ∧ (s.cntValWrite b c w).mgt = s.mgt ∧ (s.cntValWrite b c
    w).lastRead = s.lastRead := by
  unfold State.cntValWrite
  try dsimp only
  repeat' split
  all_goals simp [apply_ite State.part, apply_ite State.draws, apply_ite State.regs, apply_ite State.req, apply_ite State.flt,
    apply_ite State.rt, apply_ite State.lnk, apply_ite State.pwr, apply_ite State.tim, apply_ite State.xpt, apply_ite
    State.obj, apply_ite State.inj, apply_ite State.hpt, apply_ite State.xlt, apply_ite State.mat, apply_ite State.ram,
    apply_ite State.atu, apply_ite State.col, apply_ite State.mgt, apply_ite State.lastRead]

@[simp] theorem State.cntCtrlWrite_frame (s : State) (w : Word) :
    (s.cntCtrlWrite w).part = s.part ∧ (s.cntCtrlWrite w).draws = s.draws ∧ (s.cntCtrlWrite w).req = s.req ∧ (s.cntCtrlWrite
    w).flt = s.flt ∧ (s.cntCtrlWrite w).rt = s.rt ∧ (s.cntCtrlWrite w).lnk = s.lnk ∧ (s.cntCtrlWrite w).pwr = s.pwr ∧
    (s.cntCtrlWrite w).tim = s.tim ∧ (s.cntCtrlWrite w).xpt = s.xpt ∧ (s.cntCtrlWrite w).obj = s.obj ∧ (s.cntCtrlWrite w).inj
    = s.inj ∧ (s.cntCtrlWrite w).hpt = s.hpt ∧ (s.cntCtrlWrite w).xlt = s.xlt ∧ (s.cntCtrlWrite w).mat = s.mat ∧
    (s.cntCtrlWrite w).ram = s.ram ∧ (s.cntCtrlWrite w).atu = s.atu ∧ (s.cntCtrlWrite w).col = s.col ∧ (s.cntCtrlWrite w).mgt
    = s.mgt ∧ (s.cntCtrlWrite w).lastRead = s.lastRead := by
  unfold State.cntCtrlWrite
  try dsimp only
  repeat' split
  all_goals simp [apply_ite State.part, apply_ite State.draws, apply_ite State.req, apply_ite State.flt, apply_ite State.rt,
    apply_ite State.lnk, apply_ite State.pwr, apply_ite State.tim, apply_ite State.xpt, apply_ite State.obj, apply_ite
    State.inj, apply_ite State.hpt, apply_ite State.xlt, apply_ite State.mat, apply_ite State.ram, apply_ite State.atu,
    apply_ite State.col, apply_ite State.mgt, apply_ite State.lastRead]

@[simp] theorem State.snapshot_frame (s : State) (T : Nat) :
    (s.snapshot T).part = s.part ∧ (s.snapshot T).draws = s.draws ∧ (s.snapshot T).regs = s.regs ∧ (s.snapshot T).req = s.req
    ∧ (s.snapshot T).flt = s.flt ∧ (s.snapshot T).rt = s.rt ∧ (s.snapshot T).lnk = s.lnk ∧ (s.snapshot T).pwr = s.pwr ∧
    (s.snapshot T).tim = s.tim ∧ (s.snapshot T).xpt = s.xpt ∧ (s.snapshot T).inj = s.inj ∧ (s.snapshot T).hpt = s.hpt ∧
    (s.snapshot T).xlt = s.xlt ∧ (s.snapshot T).mat = s.mat ∧ (s.snapshot T).ram = s.ram ∧ (s.snapshot T).atu = s.atu ∧
    (s.snapshot T).col = s.col ∧ (s.snapshot T).mgt = s.mgt ∧ (s.snapshot T).lastRead = s.lastRead := by
  unfold State.snapshot
  simp

@[simp] theorem State.skipDump_frame (s : State) (a : Nat) :
    (s.skipDump a).part = s.part ∧ (s.skipDump a).draws = s.draws ∧ (s.skipDump a).req = s.req ∧ (s.skipDump a).flt = s.flt ∧
    (s.skipDump a).rt = s.rt ∧ (s.skipDump a).lnk = s.lnk ∧ (s.skipDump a).pwr = s.pwr ∧ (s.skipDump a).tim = s.tim ∧
    (s.skipDump a).xpt = s.xpt ∧ (s.skipDump a).obj = s.obj ∧ (s.skipDump a).inj = s.inj ∧ (s.skipDump a).hpt = s.hpt ∧
    (s.skipDump a).xlt = s.xlt ∧ (s.skipDump a).mat = s.mat ∧ (s.skipDump a).ram = s.ram ∧ (s.skipDump a).atu = s.atu ∧
    (s.skipDump a).col = s.col ∧ (s.skipDump a).mgt = s.mgt ∧ (s.skipDump a).lastRead = s.lastRead := by
  unfold State.skipDump
  simp

@[simp] theorem State.loseDump_frame (s : State) :
    (s.loseDump).part = s.part ∧ (s.loseDump).draws = s.draws ∧ (s.loseDump).req = s.req ∧ (s.loseDump).rt = s.rt ∧
    (s.loseDump).pwr = s.pwr ∧ (s.loseDump).tim = s.tim ∧ (s.loseDump).xpt = s.xpt ∧ (s.loseDump).obj = s.obj ∧
    (s.loseDump).inj = s.inj ∧ (s.loseDump).hpt = s.hpt ∧ (s.loseDump).xlt = s.xlt ∧ (s.loseDump).mat = s.mat ∧
    (s.loseDump).ram = s.ram ∧ (s.loseDump).atu = s.atu ∧ (s.loseDump).col = s.col ∧ (s.loseDump).mgt = s.mgt ∧
    (s.loseDump).lastRead = s.lastRead := by
  unfold State.loseDump
  simp

@[simp] theorem State.dumpDue_frame (s : State) (T f : Nat) :
    (s.dumpDue T f).part = s.part ∧ (s.dumpDue T f).draws = s.draws ∧ (s.dumpDue T f).req = s.req ∧ (s.dumpDue T f).rt = s.rt
    ∧ (s.dumpDue T f).pwr = s.pwr ∧ (s.dumpDue T f).tim = s.tim ∧ (s.dumpDue T f).xpt = s.xpt ∧ (s.dumpDue T f).inj = s.inj ∧
    (s.dumpDue T f).hpt = s.hpt ∧ (s.dumpDue T f).xlt = s.xlt ∧ (s.dumpDue T f).mat = s.mat ∧ (s.dumpDue T f).ram = s.ram ∧
    (s.dumpDue T f).atu = s.atu ∧ (s.dumpDue T f).col = s.col ∧ (s.dumpDue T f).mgt = s.mgt ∧ (s.dumpDue T f).lastRead =
    s.lastRead := by
  unfold State.dumpDue
  try dsimp only
  repeat' split
  all_goals simp [apply_ite State.part, apply_ite State.draws, apply_ite State.req, apply_ite State.rt, apply_ite State.pwr,
    apply_ite State.tim, apply_ite State.xpt, apply_ite State.inj, apply_ite State.hpt, apply_ite State.xlt, apply_ite
    State.mat, apply_ite State.ram, apply_ite State.atu, apply_ite State.col, apply_ite State.mgt, apply_ite State.lastRead]

@[simp] theorem State.forceSources_frame (s : State) (blk : Nat) (is : List Nat) :
    (s.forceSources blk is).part = s.part ∧ (s.forceSources blk is).req = s.req ∧ (s.forceSources blk is).rt = s.rt ∧
    (s.forceSources blk is).pwr = s.pwr ∧ (s.forceSources blk is).tim = s.tim ∧ (s.forceSources blk is).xpt = s.xpt ∧
    (s.forceSources blk is).obj = s.obj ∧ (s.forceSources blk is).inj = s.inj ∧ (s.forceSources blk is).hpt = s.hpt ∧
    (s.forceSources blk is).xlt = s.xlt ∧ (s.forceSources blk is).mat = s.mat ∧ (s.forceSources blk is).ram = s.ram ∧
    (s.forceSources blk is).atu = s.atu ∧ (s.forceSources blk is).col = s.col ∧ (s.forceSources blk is).mgt = s.mgt ∧
    (s.forceSources blk is).lastRead = s.lastRead := by
  unfold State.forceSources
  try dsimp only
  repeat' split
  all_goals simp

@[simp] theorem State.watchdog_frame (s : State) (t eng : Nat) :
    (s.watchdog t eng).part = s.part ∧ (s.watchdog t eng).draws = s.draws ∧ (s.watchdog t eng).req = s.req ∧ (s.watchdog t
    eng).rt = s.rt ∧ (s.watchdog t eng).pwr = s.pwr ∧ (s.watchdog t eng).tim = s.tim ∧ (s.watchdog t eng).xpt = s.xpt ∧
    (s.watchdog t eng).obj = s.obj ∧ (s.watchdog t eng).inj = s.inj ∧ (s.watchdog t eng).hpt = s.hpt ∧ (s.watchdog t eng).xlt
    = s.xlt ∧ (s.watchdog t eng).mat = s.mat ∧ (s.watchdog t eng).ram = s.ram ∧ (s.watchdog t eng).atu = s.atu ∧ (s.watchdog t
    eng).col = s.col ∧ (s.watchdog t eng).mgt = s.mgt ∧ (s.watchdog t eng).lastRead = s.lastRead := by
  unfold State.watchdog
  try dsimp only
  repeat' split
  all_goals simp [apply_ite State.part, apply_ite State.draws, apply_ite State.req, apply_ite State.rt, apply_ite State.pwr,
    apply_ite State.tim, apply_ite State.xpt, apply_ite State.obj, apply_ite State.inj, apply_ite State.hpt, apply_ite
    State.xlt, apply_ite State.mat, apply_ite State.ram, apply_ite State.atu, apply_ite State.col, apply_ite State.mgt,
    apply_ite State.lastRead]

@[simp] theorem State.sendCell_frame (s : State) (p : Nat) (h : HeldCell) :
    (s.sendCell p h).1.part = s.part ∧ (s.sendCell p h).1.draws = s.draws ∧ (s.sendCell p h).1.req = s.req ∧ (s.sendCell p
    h).1.flt = s.flt ∧ (s.sendCell p h).1.pwr = s.pwr ∧ (s.sendCell p h).1.tim = s.tim ∧ (s.sendCell p h).1.xpt = s.xpt ∧
    (s.sendCell p h).1.obj = s.obj ∧ (s.sendCell p h).1.inj = s.inj ∧ (s.sendCell p h).1.hpt = s.hpt ∧ (s.sendCell p h).1.xlt
    = s.xlt ∧ (s.sendCell p h).1.mat = s.mat ∧ (s.sendCell p h).1.ram = s.ram ∧ (s.sendCell p h).1.atu = s.atu ∧ (s.sendCell p
    h).1.col = s.col ∧ (s.sendCell p h).1.cnt = s.cnt ∧ (s.sendCell p h).1.mgt = s.mgt ∧ (s.sendCell p h).1.lastRead =
    s.lastRead := by
  unfold State.sendCell
  try dsimp only
  repeat' split
  all_goals simp [apply_ite State.part, apply_ite State.draws, apply_ite State.req, apply_ite State.flt, apply_ite State.pwr,
    apply_ite State.tim, apply_ite State.xpt, apply_ite State.obj, apply_ite State.inj, apply_ite State.hpt, apply_ite
    State.xlt, apply_ite State.mat, apply_ite State.ram, apply_ite State.atu, apply_ite State.col, apply_ite State.cnt,
    apply_ite State.mgt, apply_ite State.lastRead]

@[simp] theorem State.raiseMark_frame (s : State) (p : Nat) :
    (s.raiseMark p).part = s.part ∧ (s.raiseMark p).draws = s.draws ∧ (s.raiseMark p).regs = s.regs ∧ (s.raiseMark p).req =
    s.req ∧ (s.raiseMark p).flt = s.flt ∧ (s.raiseMark p).rt = s.rt ∧ (s.raiseMark p).pwr = s.pwr ∧ (s.raiseMark p).xpt =
    s.xpt ∧ (s.raiseMark p).obj = s.obj ∧ (s.raiseMark p).inj = s.inj ∧ (s.raiseMark p).hpt = s.hpt ∧ (s.raiseMark p).xlt =
    s.xlt ∧ (s.raiseMark p).mat = s.mat ∧ (s.raiseMark p).ram = s.ram ∧ (s.raiseMark p).atu = s.atu ∧ (s.raiseMark p).col =
    s.col ∧ (s.raiseMark p).cnt = s.cnt ∧ (s.raiseMark p).mgt = s.mgt ∧ (s.raiseMark p).lastRead = s.lastRead := by
  unfold State.raiseMark
  try dsimp only
  repeat' split
  all_goals simp [apply_ite State.part, apply_ite State.draws, apply_ite State.regs, apply_ite State.req, apply_ite State.flt,
    apply_ite State.rt, apply_ite State.pwr, apply_ite State.xpt, apply_ite State.obj, apply_ite State.inj, apply_ite
    State.hpt, apply_ite State.xlt, apply_ite State.mat, apply_ite State.ram, apply_ite State.atu, apply_ite State.col,
    apply_ite State.cnt, apply_ite State.mgt, apply_ite State.lastRead]

@[simp] theorem State.takeTransit_frame (s : State) (p : Nat) :
    (s.takeTransit p).1.part = s.part ∧ (s.takeTransit p).1.req = s.req ∧ (s.takeTransit p).1.rt = s.rt ∧ (s.takeTransit
    p).1.xlt = s.xlt ∧ (s.takeTransit p).1.ram = s.ram ∧ (s.takeTransit p).1.atu = s.atu ∧ (s.takeTransit p).1.mgt = s.mgt ∧
    (s.takeTransit p).1.lastRead = s.lastRead := by
  unfold State.takeTransit
  simp

@[simp] theorem State.wordSent_frame (s : State) (l p : Nat) (w : LinkWord) :
    (s.wordSent l p w).part = s.part ∧ (s.wordSent l p w).draws = s.draws ∧ (s.wordSent l p w).regs = s.regs ∧ (s.wordSent l p
    w).req = s.req ∧ (s.wordSent l p w).flt = s.flt ∧ (s.wordSent l p w).rt = s.rt ∧ (s.wordSent l p w).pwr = s.pwr ∧
    (s.wordSent l p w).xpt = s.xpt ∧ (s.wordSent l p w).obj = s.obj ∧ (s.wordSent l p w).inj = s.inj ∧ (s.wordSent l p w).hpt
    = s.hpt ∧ (s.wordSent l p w).xlt = s.xlt ∧ (s.wordSent l p w).mat = s.mat ∧ (s.wordSent l p w).ram = s.ram ∧ (s.wordSent l
    p w).atu = s.atu ∧ (s.wordSent l p w).col = s.col ∧ (s.wordSent l p w).cnt = s.cnt ∧ (s.wordSent l p w).mgt = s.mgt ∧
    (s.wordSent l p w).lastRead = s.lastRead := by
  unfold State.wordSent
  try dsimp only
  repeat' split
  all_goals simp [apply_ite State.part, apply_ite State.draws, apply_ite State.regs, apply_ite State.req, apply_ite State.flt,
    apply_ite State.rt, apply_ite State.pwr, apply_ite State.xpt, apply_ite State.obj, apply_ite State.inj, apply_ite
    State.hpt, apply_ite State.xlt, apply_ite State.mat, apply_ite State.ram, apply_ite State.atu, apply_ite State.col,
    apply_ite State.cnt, apply_ite State.mgt, apply_ite State.lastRead]

@[simp] theorem State.stuff_frame (s : State) (l stuffed : Nat) :
    (s.stuff l stuffed).part = s.part ∧ (s.stuff l stuffed).draws = s.draws ∧ (s.stuff l stuffed).req = s.req ∧ (s.stuff l
    stuffed).rt = s.rt ∧ (s.stuff l stuffed).pwr = s.pwr ∧ (s.stuff l stuffed).tim = s.tim ∧ (s.stuff l stuffed).xpt = s.xpt ∧
    (s.stuff l stuffed).obj = s.obj ∧ (s.stuff l stuffed).inj = s.inj ∧ (s.stuff l stuffed).hpt = s.hpt ∧ (s.stuff l
    stuffed).xlt = s.xlt ∧ (s.stuff l stuffed).mat = s.mat ∧ (s.stuff l stuffed).ram = s.ram ∧ (s.stuff l stuffed).atu = s.atu
    ∧ (s.stuff l stuffed).col = s.col ∧ (s.stuff l stuffed).mgt = s.mgt ∧ (s.stuff l stuffed).lastRead = s.lastRead := by
  unfold State.stuff
  try dsimp only
  repeat' split
  all_goals simp [apply_ite State.part, apply_ite State.draws, apply_ite State.req, apply_ite State.rt, apply_ite State.pwr,
    apply_ite State.tim, apply_ite State.xpt, apply_ite State.obj, apply_ite State.inj, apply_ite State.hpt, apply_ite
    State.xlt, apply_ite State.mat, apply_ite State.ram, apply_ite State.atu, apply_ite State.col, apply_ite State.mgt,
    apply_ite State.lastRead]

@[simp] theorem State.sendField_frame (s : State) (l p : Nat) (w : Option LinkWord) :
    (s.sendField l p w).part = s.part ∧ (s.sendField l p w).draws = s.draws ∧ (s.sendField l p w).regs = s.regs ∧ (s.sendField
    l p w).req = s.req ∧ (s.sendField l p w).flt = s.flt ∧ (s.sendField l p w).rt = s.rt ∧ (s.sendField l p w).pwr = s.pwr ∧
    (s.sendField l p w).xpt = s.xpt ∧ (s.sendField l p w).obj = s.obj ∧ (s.sendField l p w).inj = s.inj ∧ (s.sendField l p
    w).hpt = s.hpt ∧ (s.sendField l p w).xlt = s.xlt ∧ (s.sendField l p w).mat = s.mat ∧ (s.sendField l p w).ram = s.ram ∧
    (s.sendField l p w).atu = s.atu ∧ (s.sendField l p w).col = s.col ∧ (s.sendField l p w).cnt = s.cnt ∧ (s.sendField l p
    w).mgt = s.mgt ∧ (s.sendField l p w).lastRead = s.lastRead := by
  unfold State.sendField
  try dsimp only
  repeat' split
  all_goals simp [apply_ite State.part, apply_ite State.draws, apply_ite State.regs, apply_ite State.req, apply_ite State.flt,
    apply_ite State.rt, apply_ite State.pwr, apply_ite State.xpt, apply_ite State.obj, apply_ite State.inj, apply_ite
    State.hpt, apply_ite State.xlt, apply_ite State.mat, apply_ite State.ram, apply_ite State.atu, apply_ite State.col,
    apply_ite State.cnt, apply_ite State.mgt, apply_ite State.lastRead]

@[simp] theorem State.codewordField_frame (s : State) (l p : Nat) :
    (s.codewordField l p).1.part = s.part ∧ (s.codewordField l p).1.draws = s.draws ∧ (s.codewordField l p).1.regs = s.regs ∧
    (s.codewordField l p).1.req = s.req ∧ (s.codewordField l p).1.flt = s.flt ∧ (s.codewordField l p).1.rt = s.rt ∧
    (s.codewordField l p).1.pwr = s.pwr ∧ (s.codewordField l p).1.xpt = s.xpt ∧ (s.codewordField l p).1.obj = s.obj ∧
    (s.codewordField l p).1.inj = s.inj ∧ (s.codewordField l p).1.hpt = s.hpt ∧ (s.codewordField l p).1.xlt = s.xlt ∧
    (s.codewordField l p).1.mat = s.mat ∧ (s.codewordField l p).1.ram = s.ram ∧ (s.codewordField l p).1.atu = s.atu ∧
    (s.codewordField l p).1.col = s.col ∧ (s.codewordField l p).1.cnt = s.cnt ∧ (s.codewordField l p).1.mgt = s.mgt ∧
    (s.codewordField l p).1.lastRead = s.lastRead := by
  unfold State.codewordField
  try dsimp only
  repeat' split
  all_goals simp [apply_ite State.part, apply_ite State.draws, apply_ite State.regs, apply_ite State.req, apply_ite State.flt,
    apply_ite State.rt, apply_ite State.pwr, apply_ite State.xpt, apply_ite State.obj, apply_ite State.inj, apply_ite
    State.hpt, apply_ite State.xlt, apply_ite State.mat, apply_ite State.ram, apply_ite State.atu, apply_ite State.col,
    apply_ite State.cnt, apply_ite State.mgt, apply_ite State.lastRead]

@[simp] theorem State.takeCell_frame (s : State) (p : Nat) (c : Cell) :
    (s.takeCell p c).part = s.part ∧ (s.takeCell p c).draws = s.draws ∧ (s.takeCell p c).regs = s.regs ∧ (s.takeCell p c).req
    = s.req ∧ (s.takeCell p c).flt = s.flt ∧ (s.takeCell p c).pwr = s.pwr ∧ (s.takeCell p c).tim = s.tim ∧ (s.takeCell p
    c).xpt = s.xpt ∧ (s.takeCell p c).obj = s.obj ∧ (s.takeCell p c).inj = s.inj ∧ (s.takeCell p c).hpt = s.hpt ∧ (s.takeCell
    p c).xlt = s.xlt ∧ (s.takeCell p c).mat = s.mat ∧ (s.takeCell p c).ram = s.ram ∧ (s.takeCell p c).atu = s.atu ∧
    (s.takeCell p c).col = s.col ∧ (s.takeCell p c).cnt = s.cnt ∧ (s.takeCell p c).mgt = s.mgt ∧ (s.takeCell p c).lastRead =
    s.lastRead := by
  unfold State.takeCell
  try dsimp only
  repeat' split
  all_goals simp [apply_ite State.part, apply_ite State.draws, apply_ite State.regs, apply_ite State.req, apply_ite State.flt,
    apply_ite State.pwr, apply_ite State.tim, apply_ite State.xpt, apply_ite State.obj, apply_ite State.inj, apply_ite
    State.hpt, apply_ite State.xlt, apply_ite State.mat, apply_ite State.ram, apply_ite State.atu, apply_ite State.col,
    apply_ite State.cnt, apply_ite State.mgt, apply_ite State.lastRead]

@[simp] theorem State.takeCells_frame (s : State) (l p : Nat) (cs : List Cell) :
    (s.takeCells l p cs).part = s.part ∧ (s.takeCells l p cs).draws = s.draws ∧ (s.takeCells l p cs).regs = s.regs ∧
    (s.takeCells l p cs).req = s.req ∧ (s.takeCells l p cs).flt = s.flt ∧ (s.takeCells l p cs).pwr = s.pwr ∧ (s.takeCells l p
    cs).xpt = s.xpt ∧ (s.takeCells l p cs).obj = s.obj ∧ (s.takeCells l p cs).inj = s.inj ∧ (s.takeCells l p cs).hpt = s.hpt ∧
    (s.takeCells l p cs).xlt = s.xlt ∧ (s.takeCells l p cs).mat = s.mat ∧ (s.takeCells l p cs).ram = s.ram ∧ (s.takeCells l p
    cs).atu = s.atu ∧ (s.takeCells l p cs).col = s.col ∧ (s.takeCells l p cs).cnt = s.cnt ∧ (s.takeCells l p cs).mgt = s.mgt ∧
    (s.takeCells l p cs).lastRead = s.lastRead := by
  unfold State.takeCells
  try dsimp only
  repeat' split
  all_goals simp [apply_ite State.part, apply_ite State.draws, apply_ite State.regs, apply_ite State.req, apply_ite State.flt,
    apply_ite State.pwr, apply_ite State.xpt, apply_ite State.obj, apply_ite State.inj, apply_ite State.hpt, apply_ite
    State.xlt, apply_ite State.mat, apply_ite State.ram, apply_ite State.atu, apply_ite State.col, apply_ite State.cnt,
    apply_ite State.mgt, apply_ite State.lastRead]

@[simp] theorem State.takeWord_frame (s : State) (l p : Nat) (w : LinkWord) :
    (s.takeWord l p w).part = s.part ∧ (s.takeWord l p w).draws = s.draws ∧ (s.takeWord l p w).req = s.req ∧ (s.takeWord l p
    w).flt = s.flt ∧ (s.takeWord l p w).rt = s.rt ∧ (s.takeWord l p w).pwr = s.pwr ∧ (s.takeWord l p w).tim = s.tim ∧
    (s.takeWord l p w).xpt = s.xpt ∧ (s.takeWord l p w).obj = s.obj ∧ (s.takeWord l p w).inj = s.inj ∧ (s.takeWord l p w).hpt
    = s.hpt ∧ (s.takeWord l p w).xlt = s.xlt ∧ (s.takeWord l p w).mat = s.mat ∧ (s.takeWord l p w).ram = s.ram ∧ (s.takeWord l
    p w).atu = s.atu ∧ (s.takeWord l p w).col = s.col ∧ (s.takeWord l p w).cnt = s.cnt ∧ (s.takeWord l p w).mgt = s.mgt ∧
    (s.takeWord l p w).lastRead = s.lastRead := by
  unfold State.takeWord
  try dsimp only
  repeat' split
  all_goals simp [apply_ite State.part, apply_ite State.draws, apply_ite State.req, apply_ite State.flt, apply_ite State.rt,
    apply_ite State.pwr, apply_ite State.tim, apply_ite State.xpt, apply_ite State.obj, apply_ite State.inj, apply_ite
    State.hpt, apply_ite State.xlt, apply_ite State.mat, apply_ite State.ram, apply_ite State.atu, apply_ite State.col,
    apply_ite State.cnt, apply_ite State.mgt, apply_ite State.lastRead]

@[simp] theorem State.uncorrectable_frame (s : State) (l p : Nat) :
    (s.uncorrectable l p).part = s.part ∧ (s.uncorrectable l p).req = s.req ∧ (s.uncorrectable l p).xpt = s.xpt ∧
    (s.uncorrectable l p).obj = s.obj ∧ (s.uncorrectable l p).inj = s.inj ∧ (s.uncorrectable l p).hpt = s.hpt ∧
    (s.uncorrectable l p).xlt = s.xlt ∧ (s.uncorrectable l p).mat = s.mat ∧ (s.uncorrectable l p).ram = s.ram ∧
    (s.uncorrectable l p).atu = s.atu ∧ (s.uncorrectable l p).col = s.col ∧ (s.uncorrectable l p).lastRead = s.lastRead := by
  unfold State.uncorrectable
  try dsimp only
  repeat' split
  all_goals simp [apply_ite State.part, apply_ite State.req, apply_ite State.xpt, apply_ite State.obj, apply_ite State.inj,
    apply_ite State.hpt, apply_ite State.xlt, apply_ite State.mat, apply_ite State.ram, apply_ite State.atu, apply_ite
    State.col, apply_ite State.lastRead]

@[simp] theorem State.codeword_frame (s : State) (l : Nat) (good : Bool) (cells : List Cell) (w : LinkWord) (corrected slip :
  Bool) (unstuffed : Nat) (punctured : Bool) :
    (s.codeword l good cells w corrected slip unstuffed punctured).part = s.part ∧ (s.codeword l good cells w corrected slip
    unstuffed punctured).req = s.req ∧ (s.codeword l good cells w corrected slip unstuffed punctured).xpt = s.xpt ∧
    (s.codeword l good cells w corrected slip unstuffed punctured).obj = s.obj ∧ (s.codeword l good cells w corrected slip
    unstuffed punctured).inj = s.inj ∧ (s.codeword l good cells w corrected slip unstuffed punctured).hpt = s.hpt ∧
    (s.codeword l good cells w corrected slip unstuffed punctured).xlt = s.xlt ∧ (s.codeword l good cells w corrected slip
    unstuffed punctured).mat = s.mat ∧ (s.codeword l good cells w corrected slip unstuffed punctured).ram = s.ram ∧
    (s.codeword l good cells w corrected slip unstuffed punctured).atu = s.atu ∧ (s.codeword l good cells w corrected slip
    unstuffed punctured).col = s.col ∧ (s.codeword l good cells w corrected slip unstuffed punctured).lastRead = s.lastRead :=
    by
  unfold State.codeword
  try dsimp only
  repeat' split
  all_goals simp [apply_ite State.part, apply_ite State.req, apply_ite State.xpt, apply_ite State.obj, apply_ite State.inj,
    apply_ite State.hpt, apply_ite State.xlt, apply_ite State.mat, apply_ite State.ram, apply_ite State.atu, apply_ite
    State.col, apply_ite State.lastRead]

@[simp] theorem State.takeNak_frame (s : State) (p n : Nat) :
    (s.takeNak p n).part = s.part ∧ (s.takeNak p n).req = s.req ∧ (s.takeNak p n).xpt = s.xpt ∧ (s.takeNak p n).obj = s.obj ∧
    (s.takeNak p n).inj = s.inj ∧ (s.takeNak p n).hpt = s.hpt ∧ (s.takeNak p n).xlt = s.xlt ∧ (s.takeNak p n).mat = s.mat ∧
    (s.takeNak p n).ram = s.ram ∧ (s.takeNak p n).atu = s.atu ∧ (s.takeNak p n).col = s.col ∧ (s.takeNak p n).lastRead =
    s.lastRead := by
  unfold State.takeNak
  try dsimp only
  repeat' split
  all_goals simp [apply_ite State.part, apply_ite State.req, apply_ite State.xpt, apply_ite State.obj, apply_ite State.inj,
    apply_ite State.hpt, apply_ite State.xlt, apply_ite State.mat, apply_ite State.ram, apply_ite State.atu, apply_ite
    State.col, apply_ite State.lastRead]

@[simp] theorem State.phaseReqWrite_frame (s : State) (l n : Nat) :
    (s.phaseReqWrite l n).part = s.part ∧ (s.phaseReqWrite l n).draws = s.draws ∧ (s.phaseReqWrite l n).req = s.req ∧
    (s.phaseReqWrite l n).flt = s.flt ∧ (s.phaseReqWrite l n).rt = s.rt ∧ (s.phaseReqWrite l n).tim = s.tim ∧ (s.phaseReqWrite
    l n).xpt = s.xpt ∧ (s.phaseReqWrite l n).obj = s.obj ∧ (s.phaseReqWrite l n).inj = s.inj ∧ (s.phaseReqWrite l n).hpt =
    s.hpt ∧ (s.phaseReqWrite l n).xlt = s.xlt ∧ (s.phaseReqWrite l n).mat = s.mat ∧ (s.phaseReqWrite l n).ram = s.ram ∧
    (s.phaseReqWrite l n).atu = s.atu ∧ (s.phaseReqWrite l n).col = s.col ∧ (s.phaseReqWrite l n).cnt = s.cnt ∧
    (s.phaseReqWrite l n).mgt = s.mgt ∧ (s.phaseReqWrite l n).lastRead = s.lastRead := by
  unfold State.phaseReqWrite
  try dsimp only
  repeat' split
  all_goals simp [apply_ite State.part, apply_ite State.draws, apply_ite State.req, apply_ite State.flt, apply_ite State.rt,
    apply_ite State.tim, apply_ite State.xpt, apply_ite State.obj, apply_ite State.inj, apply_ite State.hpt, apply_ite
    State.xlt, apply_ite State.mat, apply_ite State.ram, apply_ite State.atu, apply_ite State.col, apply_ite State.cnt,
    apply_ite State.mgt, apply_ite State.lastRead]

@[simp] theorem State.memCtrlWrite_frame (s : State) (w : Word) :
    (s.memCtrlWrite w).part = s.part ∧ (s.memCtrlWrite w).draws = s.draws ∧ (s.memCtrlWrite w).req = s.req ∧ (s.memCtrlWrite
    w).flt = s.flt ∧ (s.memCtrlWrite w).rt = s.rt ∧ (s.memCtrlWrite w).lnk = s.lnk ∧ (s.memCtrlWrite w).pwr = s.pwr ∧
    (s.memCtrlWrite w).tim = s.tim ∧ (s.memCtrlWrite w).xpt = s.xpt ∧ (s.memCtrlWrite w).obj = s.obj ∧ (s.memCtrlWrite w).inj
    = s.inj ∧ (s.memCtrlWrite w).hpt = s.hpt ∧ (s.memCtrlWrite w).xlt = s.xlt ∧ (s.memCtrlWrite w).mat = s.mat ∧
    (s.memCtrlWrite w).ram = s.ram ∧ (s.memCtrlWrite w).atu = s.atu ∧ (s.memCtrlWrite w).col = s.col ∧ (s.memCtrlWrite w).cnt
    = s.cnt ∧ (s.memCtrlWrite w).mgt = s.mgt ∧ (s.memCtrlWrite w).lastRead = s.lastRead := by
  unfold State.memCtrlWrite
  try dsimp only
  repeat' split
  all_goals simp [apply_ite State.part, apply_ite State.draws, apply_ite State.req, apply_ite State.flt, apply_ite State.rt,
    apply_ite State.lnk, apply_ite State.pwr, apply_ite State.tim, apply_ite State.xpt, apply_ite State.obj, apply_ite
    State.inj, apply_ite State.hpt, apply_ite State.xlt, apply_ite State.mat, apply_ite State.ram, apply_ite State.atu,
    apply_ite State.col, apply_ite State.cnt, apply_ite State.mgt, apply_ite State.lastRead]

@[simp] theorem State.memHostBaseWrite_frame (s : State) (v : Word64) :
    (s.memHostBaseWrite v).part = s.part ∧ (s.memHostBaseWrite v).draws = s.draws ∧ (s.memHostBaseWrite v).req = s.req ∧
    (s.memHostBaseWrite v).flt = s.flt ∧ (s.memHostBaseWrite v).rt = s.rt ∧ (s.memHostBaseWrite v).lnk = s.lnk ∧
    (s.memHostBaseWrite v).pwr = s.pwr ∧ (s.memHostBaseWrite v).tim = s.tim ∧ (s.memHostBaseWrite v).xpt = s.xpt ∧
    (s.memHostBaseWrite v).obj = s.obj ∧ (s.memHostBaseWrite v).inj = s.inj ∧ (s.memHostBaseWrite v).hpt = s.hpt ∧
    (s.memHostBaseWrite v).xlt = s.xlt ∧ (s.memHostBaseWrite v).mat = s.mat ∧ (s.memHostBaseWrite v).ram = s.ram ∧
    (s.memHostBaseWrite v).atu = s.atu ∧ (s.memHostBaseWrite v).col = s.col ∧ (s.memHostBaseWrite v).cnt = s.cnt ∧
    (s.memHostBaseWrite v).mgt = s.mgt ∧ (s.memHostBaseWrite v).lastRead = s.lastRead := by
  unfold State.memHostBaseWrite
  try dsimp only
  repeat' split
  all_goals simp [apply_ite State.part, apply_ite State.draws, apply_ite State.req, apply_ite State.flt, apply_ite State.rt,
    apply_ite State.lnk, apply_ite State.pwr, apply_ite State.tim, apply_ite State.xpt, apply_ite State.obj, apply_ite
    State.inj, apply_ite State.hpt, apply_ite State.xlt, apply_ite State.mat, apply_ite State.ram, apply_ite State.atu,
    apply_ite State.col, apply_ite State.cnt, apply_ite State.mgt, apply_ite State.lastRead]

@[simp] theorem State.loseLine_frame (s : State) (p n : Nat) :
    (s.loseLine p n).part = s.part ∧ (s.loseLine p n).regs = s.regs ∧ (s.loseLine p n).req = s.req ∧ (s.loseLine p n).flt =
    s.flt ∧ (s.loseLine p n).rt = s.rt ∧ (s.loseLine p n).lnk = s.lnk ∧ (s.loseLine p n).pwr = s.pwr ∧ (s.loseLine p n).tim =
    s.tim ∧ (s.loseLine p n).xpt = s.xpt ∧ (s.loseLine p n).obj = s.obj ∧ (s.loseLine p n).inj = s.inj ∧ (s.loseLine p n).hpt
    = s.hpt ∧ (s.loseLine p n).xlt = s.xlt ∧ (s.loseLine p n).mat = s.mat ∧ (s.loseLine p n).atu = s.atu ∧ (s.loseLine p
    n).col = s.col ∧ (s.loseLine p n).cnt = s.cnt ∧ (s.loseLine p n).mgt = s.mgt ∧ (s.loseLine p n).lastRead = s.lastRead :=
    by
  unfold State.loseLine
  simp

@[simp] theorem State.rebuildKey_frame (s : State) (h : Nat) :
    (s.rebuildKey h).part = s.part ∧ (s.rebuildKey h).draws = s.draws ∧ (s.rebuildKey h).regs = s.regs ∧ (s.rebuildKey h).req
    = s.req ∧ (s.rebuildKey h).flt = s.flt ∧ (s.rebuildKey h).rt = s.rt ∧ (s.rebuildKey h).lnk = s.lnk ∧ (s.rebuildKey h).pwr
    = s.pwr ∧ (s.rebuildKey h).tim = s.tim ∧ (s.rebuildKey h).obj = s.obj ∧ (s.rebuildKey h).inj = s.inj ∧ (s.rebuildKey
    h).hpt = s.hpt ∧ (s.rebuildKey h).xlt = s.xlt ∧ (s.rebuildKey h).mat = s.mat ∧ (s.rebuildKey h).ram = s.ram ∧
    (s.rebuildKey h).atu = s.atu ∧ (s.rebuildKey h).col = s.col ∧ (s.rebuildKey h).cnt = s.cnt ∧ (s.rebuildKey h).mgt = s.mgt
    ∧ (s.rebuildKey h).lastRead = s.lastRead := by
  unfold State.rebuildKey
  try dsimp only
  repeat' split
  all_goals simp [apply_ite State.part, apply_ite State.draws, apply_ite State.regs, apply_ite State.req, apply_ite State.flt,
    apply_ite State.rt, apply_ite State.lnk, apply_ite State.pwr, apply_ite State.tim, apply_ite State.obj, apply_ite
    State.inj, apply_ite State.hpt, apply_ite State.xlt, apply_ite State.mat, apply_ite State.ram, apply_ite State.atu,
    apply_ite State.col, apply_ite State.cnt, apply_ite State.mgt, apply_ite State.lastRead]

@[simp] theorem State.spoilStaging_frame (s : State) (g n : Nat) (lost : Bool) :
    (s.spoilStaging g n lost).part = s.part ∧ (s.spoilStaging g n lost).draws = s.draws ∧ (s.spoilStaging g n lost).regs =
    s.regs ∧ (s.spoilStaging g n lost).req = s.req ∧ (s.spoilStaging g n lost).flt = s.flt ∧ (s.spoilStaging g n lost).rt =
    s.rt ∧ (s.spoilStaging g n lost).lnk = s.lnk ∧ (s.spoilStaging g n lost).pwr = s.pwr ∧ (s.spoilStaging g n lost).tim =
    s.tim ∧ (s.spoilStaging g n lost).xpt = s.xpt ∧ (s.spoilStaging g n lost).obj = s.obj ∧ (s.spoilStaging g n lost).inj =
    s.inj ∧ (s.spoilStaging g n lost).hpt = s.hpt ∧ (s.spoilStaging g n lost).xlt = s.xlt ∧ (s.spoilStaging g n lost).mat =
    s.mat ∧ (s.spoilStaging g n lost).ram = s.ram ∧ (s.spoilStaging g n lost).atu = s.atu ∧ (s.spoilStaging g n lost).cnt =
    s.cnt ∧ (s.spoilStaging g n lost).mgt = s.mgt ∧ (s.spoilStaging g n lost).lastRead = s.lastRead := by
  unfold State.spoilStaging
  try dsimp only
  repeat' split
  all_goals simp [apply_ite State.part, apply_ite State.draws, apply_ite State.regs, apply_ite State.req, apply_ite State.flt,
    apply_ite State.rt, apply_ite State.lnk, apply_ite State.pwr, apply_ite State.tim, apply_ite State.xpt, apply_ite
    State.obj, apply_ite State.inj, apply_ite State.hpt, apply_ite State.xlt, apply_ite State.mat, apply_ite State.ram,
    apply_ite State.atu, apply_ite State.cnt, apply_ite State.mgt, apply_ite State.lastRead]

@[simp] theorem State.markFailed_frame (s : State) (d : Nat) :
    (s.markFailed d).part = s.part ∧ (s.markFailed d).draws = s.draws ∧ (s.markFailed d).req = s.req ∧ (s.markFailed d).rt =
    s.rt ∧ (s.markFailed d).lnk = s.lnk ∧ (s.markFailed d).pwr = s.pwr ∧ (s.markFailed d).tim = s.tim ∧ (s.markFailed d).xpt =
    s.xpt ∧ (s.markFailed d).obj = s.obj ∧ (s.markFailed d).inj = s.inj ∧ (s.markFailed d).hpt = s.hpt ∧ (s.markFailed d).xlt
    = s.xlt ∧ (s.markFailed d).mat = s.mat ∧ (s.markFailed d).ram = s.ram ∧ (s.markFailed d).atu = s.atu ∧ (s.markFailed
    d).col = s.col ∧ (s.markFailed d).cnt = s.cnt ∧ (s.markFailed d).mgt = s.mgt ∧ (s.markFailed d).lastRead = s.lastRead :=
    by
  unfold State.markFailed
  simp

@[simp] theorem State.hostLine_frame (s : State) (p n : Nat) (wr : Option (BitVec 512 × Word64)) :
    (s.hostLine p n wr).part = s.part ∧ (s.hostLine p n wr).draws = s.draws ∧ (s.hostLine p n wr).regs = s.regs ∧ (s.hostLine
    p n wr).req = s.req ∧ (s.hostLine p n wr).flt = s.flt ∧ (s.hostLine p n wr).rt = s.rt ∧ (s.hostLine p n wr).lnk = s.lnk ∧
    (s.hostLine p n wr).pwr = s.pwr ∧ (s.hostLine p n wr).tim = s.tim ∧ (s.hostLine p n wr).xpt = s.xpt ∧ (s.hostLine p n
    wr).obj = s.obj ∧ (s.hostLine p n wr).inj = s.inj ∧ (s.hostLine p n wr).hpt = s.hpt ∧ (s.hostLine p n wr).xlt = s.xlt ∧
    (s.hostLine p n wr).mat = s.mat ∧ (s.hostLine p n wr).atu = s.atu ∧ (s.hostLine p n wr).col = s.col ∧ (s.hostLine p n
    wr).cnt = s.cnt ∧ (s.hostLine p n wr).mgt = s.mgt := by
  unfold State.hostLine
  try dsimp only
  repeat' split
  all_goals simp [apply_ite State.part, apply_ite State.draws, apply_ite State.regs, apply_ite State.req, apply_ite State.flt,
    apply_ite State.rt, apply_ite State.lnk, apply_ite State.pwr, apply_ite State.tim, apply_ite State.xpt, apply_ite
    State.obj, apply_ite State.inj, apply_ite State.hpt, apply_ite State.xlt, apply_ite State.mat, apply_ite State.atu,
    apply_ite State.col, apply_ite State.cnt, apply_ite State.mgt]

@[simp] theorem State.retireSched_frame (s : State) (e : Nat) :
    (s.retireSched e).part = s.part ∧ (s.retireSched e).draws = s.draws ∧ (s.retireSched e).req = s.req ∧ (s.retireSched
    e).flt = s.flt ∧ (s.retireSched e).rt = s.rt ∧ (s.retireSched e).lnk = s.lnk ∧ (s.retireSched e).pwr = s.pwr ∧
    (s.retireSched e).tim = s.tim ∧ (s.retireSched e).xpt = s.xpt ∧ (s.retireSched e).obj = s.obj ∧ (s.retireSched e).inj =
    s.inj ∧ (s.retireSched e).hpt = s.hpt ∧ (s.retireSched e).xlt = s.xlt ∧ (s.retireSched e).mat = s.mat ∧ (s.retireSched
    e).ram = s.ram ∧ (s.retireSched e).atu = s.atu ∧ (s.retireSched e).col = s.col ∧ (s.retireSched e).cnt = s.cnt ∧
    (s.retireSched e).mgt = s.mgt ∧ (s.retireSched e).lastRead = s.lastRead := by
  unfold State.retireSched
  try dsimp only
  repeat' split
  all_goals simp [apply_ite State.part, apply_ite State.draws, apply_ite State.req, apply_ite State.flt, apply_ite State.rt,
    apply_ite State.lnk, apply_ite State.pwr, apply_ite State.tim, apply_ite State.xpt, apply_ite State.obj, apply_ite
    State.inj, apply_ite State.hpt, apply_ite State.xlt, apply_ite State.mat, apply_ite State.ram, apply_ite State.atu,
    apply_ite State.col, apply_ite State.cnt, apply_ite State.mgt, apply_ite State.lastRead]

@[simp] theorem State.exchangeMissed_frame (s : State) :
    (s.exchangeMissed).part = s.part ∧ (s.exchangeMissed).draws = s.draws ∧ (s.exchangeMissed).req = s.req ∧
    (s.exchangeMissed).rt = s.rt ∧ (s.exchangeMissed).pwr = s.pwr ∧ (s.exchangeMissed).xpt = s.xpt ∧ (s.exchangeMissed).obj =
    s.obj ∧ (s.exchangeMissed).inj = s.inj ∧ (s.exchangeMissed).hpt = s.hpt ∧ (s.exchangeMissed).xlt = s.xlt ∧
    (s.exchangeMissed).mat = s.mat ∧ (s.exchangeMissed).ram = s.ram ∧ (s.exchangeMissed).atu = s.atu ∧ (s.exchangeMissed).col
    = s.col ∧ (s.exchangeMissed).mgt = s.mgt ∧ (s.exchangeMissed).lastRead = s.lastRead := by
  unfold State.exchangeMissed
  try dsimp only
  repeat' split
  all_goals simp [apply_ite State.part, apply_ite State.draws, apply_ite State.req, apply_ite State.rt, apply_ite State.pwr,
    apply_ite State.xpt, apply_ite State.obj, apply_ite State.inj, apply_ite State.hpt, apply_ite State.xlt, apply_ite
    State.mat, apply_ite State.ram, apply_ite State.atu, apply_ite State.col, apply_ite State.mgt, apply_ite State.lastRead]

@[simp] theorem State.startExchange_frame (s : State) :
    (s.startExchange).part = s.part ∧ (s.startExchange).draws = s.draws ∧ (s.startExchange).req = s.req ∧ (s.startExchange).rt
    = s.rt ∧ (s.startExchange).pwr = s.pwr ∧ (s.startExchange).xpt = s.xpt ∧ (s.startExchange).obj = s.obj ∧
    (s.startExchange).inj = s.inj ∧ (s.startExchange).hpt = s.hpt ∧ (s.startExchange).xlt = s.xlt ∧ (s.startExchange).mat =
    s.mat ∧ (s.startExchange).ram = s.ram ∧ (s.startExchange).atu = s.atu ∧ (s.startExchange).col = s.col ∧
    (s.startExchange).mgt = s.mgt ∧ (s.startExchange).lastRead = s.lastRead := by
  unfold State.startExchange
  try dsimp only
  repeat' split
  all_goals simp [apply_ite State.part, apply_ite State.draws, apply_ite State.req, apply_ite State.rt, apply_ite State.pwr,
    apply_ite State.xpt, apply_ite State.obj, apply_ite State.inj, apply_ite State.hpt, apply_ite State.xlt, apply_ite
    State.mat, apply_ite State.ram, apply_ite State.atu, apply_ite State.col, apply_ite State.mgt, apply_ite State.lastRead]

@[simp] theorem State.steer_frame (s : State) (o : Int) :
    (s.steer o).part = s.part ∧ (s.steer o).regs = s.regs ∧ (s.steer o).req = s.req ∧ (s.steer o).flt = s.flt ∧ (s.steer o).rt
    = s.rt ∧ (s.steer o).lnk = s.lnk ∧ (s.steer o).pwr = s.pwr ∧ (s.steer o).xpt = s.xpt ∧ (s.steer o).obj = s.obj ∧ (s.steer
    o).inj = s.inj ∧ (s.steer o).hpt = s.hpt ∧ (s.steer o).xlt = s.xlt ∧ (s.steer o).mat = s.mat ∧ (s.steer o).ram = s.ram ∧
    (s.steer o).atu = s.atu ∧ (s.steer o).col = s.col ∧ (s.steer o).cnt = s.cnt ∧ (s.steer o).mgt = s.mgt ∧ (s.steer
    o).lastRead = s.lastRead := by
  unfold State.steer
  try dsimp only
  repeat' split
  all_goals simp [apply_ite State.part, apply_ite State.regs, apply_ite State.req, apply_ite State.flt, apply_ite State.rt,
    apply_ite State.lnk, apply_ite State.pwr, apply_ite State.xpt, apply_ite State.obj, apply_ite State.inj, apply_ite
    State.hpt, apply_ite State.xlt, apply_ite State.mat, apply_ite State.ram, apply_ite State.atu, apply_ite State.col,
    apply_ite State.cnt, apply_ite State.mgt, apply_ite State.lastRead]

@[simp] theorem State.ppsCount_frame (s : State) (valid : Bool) :
    (s.ppsCount valid).part = s.part ∧ (s.ppsCount valid).draws = s.draws ∧ (s.ppsCount valid).req = s.req ∧ (s.ppsCount
    valid).rt = s.rt ∧ (s.ppsCount valid).lnk = s.lnk ∧ (s.ppsCount valid).pwr = s.pwr ∧ (s.ppsCount valid).xpt = s.xpt ∧
    (s.ppsCount valid).obj = s.obj ∧ (s.ppsCount valid).inj = s.inj ∧ (s.ppsCount valid).hpt = s.hpt ∧ (s.ppsCount valid).xlt
    = s.xlt ∧ (s.ppsCount valid).mat = s.mat ∧ (s.ppsCount valid).ram = s.ram ∧ (s.ppsCount valid).atu = s.atu ∧ (s.ppsCount
    valid).col = s.col ∧ (s.ppsCount valid).cnt = s.cnt ∧ (s.ppsCount valid).mgt = s.mgt ∧ (s.ppsCount valid).lastRead =
    s.lastRead := by
  unfold State.ppsCount
  try dsimp only
  repeat' split
  all_goals simp [apply_ite State.part, apply_ite State.draws, apply_ite State.req, apply_ite State.rt, apply_ite State.lnk,
    apply_ite State.pwr, apply_ite State.xpt, apply_ite State.obj, apply_ite State.inj, apply_ite State.hpt, apply_ite
    State.xlt, apply_ite State.mat, apply_ite State.ram, apply_ite State.atu, apply_ite State.col, apply_ite State.cnt,
    apply_ite State.mgt, apply_ite State.lastRead]

@[simp] theorem State.timeInLost_frame (s : State) :
    (s.timeInLost).part = s.part ∧ (s.timeInLost).draws = s.draws ∧ (s.timeInLost).req = s.req ∧ (s.timeInLost).rt = s.rt ∧
    (s.timeInLost).pwr = s.pwr ∧ (s.timeInLost).xpt = s.xpt ∧ (s.timeInLost).obj = s.obj ∧ (s.timeInLost).inj = s.inj ∧
    (s.timeInLost).hpt = s.hpt ∧ (s.timeInLost).xlt = s.xlt ∧ (s.timeInLost).mat = s.mat ∧ (s.timeInLost).ram = s.ram ∧
    (s.timeInLost).atu = s.atu ∧ (s.timeInLost).col = s.col ∧ (s.timeInLost).mgt = s.mgt ∧ (s.timeInLost).lastRead =
    s.lastRead := by
  unfold State.timeInLost
  try dsimp only
  repeat' split
  all_goals simp [apply_ite State.part, apply_ite State.draws, apply_ite State.req, apply_ite State.rt, apply_ite State.pwr,
    apply_ite State.xpt, apply_ite State.obj, apply_ite State.inj, apply_ite State.hpt, apply_ite State.xlt, apply_ite
    State.mat, apply_ite State.ram, apply_ite State.atu, apply_ite State.col, apply_ite State.mgt, apply_ite State.lastRead]

@[simp] theorem State.timCtrlWrite_frame (s : State) (w : Word) :
    (s.timCtrlWrite w).part = s.part ∧ (s.timCtrlWrite w).draws = s.draws ∧ (s.timCtrlWrite w).req = s.req ∧ (s.timCtrlWrite
    w).rt = s.rt ∧ (s.timCtrlWrite w).pwr = s.pwr ∧ (s.timCtrlWrite w).xpt = s.xpt ∧ (s.timCtrlWrite w).obj = s.obj ∧
    (s.timCtrlWrite w).inj = s.inj ∧ (s.timCtrlWrite w).hpt = s.hpt ∧ (s.timCtrlWrite w).xlt = s.xlt ∧ (s.timCtrlWrite w).mat
    = s.mat ∧ (s.timCtrlWrite w).ram = s.ram ∧ (s.timCtrlWrite w).atu = s.atu ∧ (s.timCtrlWrite w).col = s.col ∧
    (s.timCtrlWrite w).mgt = s.mgt ∧ (s.timCtrlWrite w).lastRead = s.lastRead := by
  unfold State.timCtrlWrite
  try dsimp only
  repeat' split
  all_goals simp [apply_ite State.part, apply_ite State.draws, apply_ite State.req, apply_ite State.rt, apply_ite State.pwr,
    apply_ite State.xpt, apply_ite State.obj, apply_ite State.inj, apply_ite State.hpt, apply_ite State.xlt, apply_ite
    State.mat, apply_ite State.ram, apply_ite State.atu, apply_ite State.col, apply_ite State.mgt, apply_ite State.lastRead]

@[simp] theorem State.timNowRead_frame (s : State) (who : Nat) :
    (s.timNowRead who).part = s.part ∧ (s.timNowRead who).draws = s.draws ∧ (s.timNowRead who).regs = s.regs ∧ (s.timNowRead
    who).flt = s.flt ∧ (s.timNowRead who).rt = s.rt ∧ (s.timNowRead who).lnk = s.lnk ∧ (s.timNowRead who).pwr = s.pwr ∧
    (s.timNowRead who).tim = s.tim ∧ (s.timNowRead who).xpt = s.xpt ∧ (s.timNowRead who).obj = s.obj ∧ (s.timNowRead who).inj
    = s.inj ∧ (s.timNowRead who).hpt = s.hpt ∧ (s.timNowRead who).xlt = s.xlt ∧ (s.timNowRead who).mat = s.mat ∧ (s.timNowRead
    who).ram = s.ram ∧ (s.timNowRead who).atu = s.atu ∧ (s.timNowRead who).col = s.col ∧ (s.timNowRead who).cnt = s.cnt ∧
    (s.timNowRead who).mgt = s.mgt := by
  unfold State.timNowRead
  simp

@[simp] theorem State.beginLanes_frame (s : State) (t q : Nat) :
    (s.beginLanes t q).part = s.part ∧ (s.beginLanes t q).draws = s.draws ∧ (s.beginLanes t q).req = s.req ∧ (s.beginLanes t
    q).flt = s.flt ∧ (s.beginLanes t q).rt = s.rt ∧ (s.beginLanes t q).tim = s.tim ∧ (s.beginLanes t q).xpt = s.xpt ∧
    (s.beginLanes t q).obj = s.obj ∧ (s.beginLanes t q).inj = s.inj ∧ (s.beginLanes t q).hpt = s.hpt ∧ (s.beginLanes t q).xlt
    = s.xlt ∧ (s.beginLanes t q).mat = s.mat ∧ (s.beginLanes t q).ram = s.ram ∧ (s.beginLanes t q).atu = s.atu ∧ (s.beginLanes
    t q).col = s.col ∧ (s.beginLanes t q).cnt = s.cnt ∧ (s.beginLanes t q).mgt = s.mgt ∧ (s.beginLanes t q).lastRead =
    s.lastRead := by
  unfold State.beginLanes
  try dsimp only
  repeat' split
  all_goals simp [apply_ite State.part, apply_ite State.draws, apply_ite State.req, apply_ite State.flt, apply_ite State.rt,
    apply_ite State.tim, apply_ite State.xpt, apply_ite State.obj, apply_ite State.inj, apply_ite State.hpt, apply_ite
    State.xlt, apply_ite State.mat, apply_ite State.ram, apply_ite State.atu, apply_ite State.col, apply_ite State.cnt,
    apply_ite State.mgt, apply_ite State.lastRead]

@[simp] theorem State.lanesWait_frame (s : State) (t q : Nat) :
    (s.lanesWait t q).part = s.part ∧ (s.lanesWait t q).draws = s.draws ∧ (s.lanesWait t q).req = s.req ∧ (s.lanesWait t
    q).flt = s.flt ∧ (s.lanesWait t q).rt = s.rt ∧ (s.lanesWait t q).tim = s.tim ∧ (s.lanesWait t q).xpt = s.xpt ∧
    (s.lanesWait t q).obj = s.obj ∧ (s.lanesWait t q).inj = s.inj ∧ (s.lanesWait t q).hpt = s.hpt ∧ (s.lanesWait t q).xlt =
    s.xlt ∧ (s.lanesWait t q).mat = s.mat ∧ (s.lanesWait t q).ram = s.ram ∧ (s.lanesWait t q).atu = s.atu ∧ (s.lanesWait t
    q).col = s.col ∧ (s.lanesWait t q).cnt = s.cnt ∧ (s.lanesWait t q).mgt = s.mgt ∧ (s.lanesWait t q).lastRead = s.lastRead
    := by
  unfold State.lanesWait
  try dsimp only
  repeat' split
  all_goals simp [apply_ite State.part, apply_ite State.draws, apply_ite State.req, apply_ite State.flt, apply_ite State.rt,
    apply_ite State.tim, apply_ite State.xpt, apply_ite State.obj, apply_ite State.inj, apply_ite State.hpt, apply_ite
    State.xlt, apply_ite State.mat, apply_ite State.ram, apply_ite State.atu, apply_ite State.col, apply_ite State.cnt,
    apply_ite State.mgt, apply_ite State.lastRead]

@[simp] theorem State.beginStep_frame (s : State) (t q k : Nat) :
    (s.beginStep t q k).part = s.part ∧ (s.beginStep t q k).draws = s.draws ∧ (s.beginStep t q k).req = s.req ∧ (s.beginStep t
    q k).flt = s.flt ∧ (s.beginStep t q k).rt = s.rt ∧ (s.beginStep t q k).tim = s.tim ∧ (s.beginStep t q k).xpt = s.xpt ∧
    (s.beginStep t q k).obj = s.obj ∧ (s.beginStep t q k).inj = s.inj ∧ (s.beginStep t q k).hpt = s.hpt ∧ (s.beginStep t q
    k).xlt = s.xlt ∧ (s.beginStep t q k).mat = s.mat ∧ (s.beginStep t q k).ram = s.ram ∧ (s.beginStep t q k).atu = s.atu ∧
    (s.beginStep t q k).col = s.col ∧ (s.beginStep t q k).cnt = s.cnt ∧ (s.beginStep t q k).mgt = s.mgt ∧ (s.beginStep t q
    k).lastRead = s.lastRead := by
  unfold State.beginStep
  try dsimp only
  repeat' split
  all_goals simp [apply_ite State.part, apply_ite State.draws, apply_ite State.req, apply_ite State.flt, apply_ite State.rt,
    apply_ite State.tim, apply_ite State.xpt, apply_ite State.obj, apply_ite State.inj, apply_ite State.hpt, apply_ite
    State.xlt, apply_ite State.mat, apply_ite State.ram, apply_ite State.atu, apply_ite State.col, apply_ite State.cnt,
    apply_ite State.mgt, apply_ite State.lastRead]

@[simp] theorem State.startEntry_frame (s : State) (t r : Nat) :
    (s.startEntry t r).part = s.part ∧ (s.startEntry t r).draws = s.draws ∧ (s.startEntry t r).req = s.req ∧ (s.startEntry t
    r).flt = s.flt ∧ (s.startEntry t r).rt = s.rt ∧ (s.startEntry t r).tim = s.tim ∧ (s.startEntry t r).xpt = s.xpt ∧
    (s.startEntry t r).obj = s.obj ∧ (s.startEntry t r).inj = s.inj ∧ (s.startEntry t r).hpt = s.hpt ∧ (s.startEntry t r).xlt
    = s.xlt ∧ (s.startEntry t r).mat = s.mat ∧ (s.startEntry t r).ram = s.ram ∧ (s.startEntry t r).atu = s.atu ∧ (s.startEntry
    t r).col = s.col ∧ (s.startEntry t r).mgt = s.mgt ∧ (s.startEntry t r).lastRead = s.lastRead := by
  unfold State.startEntry
  try dsimp only
  repeat' split
  all_goals simp [apply_ite State.part, apply_ite State.draws, apply_ite State.req, apply_ite State.flt, apply_ite State.rt,
    apply_ite State.tim, apply_ite State.xpt, apply_ite State.obj, apply_ite State.inj, apply_ite State.hpt, apply_ite
    State.xlt, apply_ite State.mat, apply_ite State.ram, apply_ite State.atu, apply_ite State.col, apply_ite State.mgt,
    apply_ite State.lastRead]

@[simp] theorem State.requestTile_frame (s : State) (t r cause : Nat) :
    (s.requestTile t r cause).part = s.part ∧ (s.requestTile t r cause).draws = s.draws ∧ (s.requestTile t r cause).req =
    s.req ∧ (s.requestTile t r cause).flt = s.flt ∧ (s.requestTile t r cause).rt = s.rt ∧ (s.requestTile t r cause).tim =
    s.tim ∧ (s.requestTile t r cause).xpt = s.xpt ∧ (s.requestTile t r cause).obj = s.obj ∧ (s.requestTile t r cause).inj =
    s.inj ∧ (s.requestTile t r cause).hpt = s.hpt ∧ (s.requestTile t r cause).xlt = s.xlt ∧ (s.requestTile t r cause).mat =
    s.mat ∧ (s.requestTile t r cause).ram = s.ram ∧ (s.requestTile t r cause).atu = s.atu ∧ (s.requestTile t r cause).col =
    s.col ∧ (s.requestTile t r cause).mgt = s.mgt ∧ (s.requestTile t r cause).lastRead = s.lastRead := by
  unfold State.requestTile
  try dsimp only
  repeat' split
  all_goals simp [apply_ite State.part, apply_ite State.draws, apply_ite State.req, apply_ite State.flt, apply_ite State.rt,
    apply_ite State.tim, apply_ite State.xpt, apply_ite State.obj, apply_ite State.inj, apply_ite State.hpt, apply_ite
    State.xlt, apply_ite State.mat, apply_ite State.ram, apply_ite State.atu, apply_ite State.col, apply_ite State.mgt,
    apply_ite State.lastRead]

@[simp] theorem State.issueLatch_frame (s : State) (t : Nat) :
    (s.issueLatch t).part = s.part ∧ (s.issueLatch t).draws = s.draws ∧ (s.issueLatch t).req = s.req ∧ (s.issueLatch t).flt =
    s.flt ∧ (s.issueLatch t).rt = s.rt ∧ (s.issueLatch t).tim = s.tim ∧ (s.issueLatch t).xpt = s.xpt ∧ (s.issueLatch t).obj =
    s.obj ∧ (s.issueLatch t).inj = s.inj ∧ (s.issueLatch t).hpt = s.hpt ∧ (s.issueLatch t).xlt = s.xlt ∧ (s.issueLatch t).mat
    = s.mat ∧ (s.issueLatch t).ram = s.ram ∧ (s.issueLatch t).atu = s.atu ∧ (s.issueLatch t).col = s.col ∧ (s.issueLatch
    t).mgt = s.mgt ∧ (s.issueLatch t).lastRead = s.lastRead := by
  unfold State.issueLatch
  try dsimp only
  repeat' split
  all_goals simp [apply_ite State.part, apply_ite State.draws, apply_ite State.req, apply_ite State.flt, apply_ite State.rt,
    apply_ite State.tim, apply_ite State.xpt, apply_ite State.obj, apply_ite State.inj, apply_ite State.hpt, apply_ite
    State.xlt, apply_ite State.mat, apply_ite State.ram, apply_ite State.atu, apply_ite State.col, apply_ite State.mgt,
    apply_ite State.lastRead]

@[simp] theorem State.loseBanks_frame (s : State) (t mask : Nat) :
    (s.loseBanks t mask).part = s.part ∧ (s.loseBanks t mask).draws = s.draws ∧ (s.loseBanks t mask).regs = s.regs ∧
    (s.loseBanks t mask).req = s.req ∧ (s.loseBanks t mask).flt = s.flt ∧ (s.loseBanks t mask).rt = s.rt ∧ (s.loseBanks t
    mask).lnk = s.lnk ∧ (s.loseBanks t mask).pwr = s.pwr ∧ (s.loseBanks t mask).tim = s.tim ∧ (s.loseBanks t mask).obj = s.obj
    ∧ (s.loseBanks t mask).inj = s.inj ∧ (s.loseBanks t mask).hpt = s.hpt ∧ (s.loseBanks t mask).xlt = s.xlt ∧ (s.loseBanks t
    mask).mat = s.mat ∧ (s.loseBanks t mask).ram = s.ram ∧ (s.loseBanks t mask).atu = s.atu ∧ (s.loseBanks t mask).col = s.col
    ∧ (s.loseBanks t mask).cnt = s.cnt ∧ (s.loseBanks t mask).mgt = s.mgt ∧ (s.loseBanks t mask).lastRead = s.lastRead := by
  unfold State.loseBanks
  try dsimp only
  repeat' split
  all_goals simp [apply_ite State.part, apply_ite State.draws, apply_ite State.regs, apply_ite State.req, apply_ite State.flt,
    apply_ite State.rt, apply_ite State.lnk, apply_ite State.pwr, apply_ite State.tim, apply_ite State.obj, apply_ite
    State.inj, apply_ite State.hpt, apply_ite State.xlt, apply_ite State.mat, apply_ite State.ram, apply_ite State.atu,
    apply_ite State.col, apply_ite State.cnt, apply_ite State.mgt, apply_ite State.lastRead]

@[simp] theorem State.evictPosted_frame (s : State) (t : Nat) :
    (s.evictPosted t).part = s.part ∧ (s.evictPosted t).draws = s.draws ∧ (s.evictPosted t).regs = s.regs ∧ (s.evictPosted
    t).req = s.req ∧ (s.evictPosted t).flt = s.flt ∧ (s.evictPosted t).rt = s.rt ∧ (s.evictPosted t).lnk = s.lnk ∧
    (s.evictPosted t).pwr = s.pwr ∧ (s.evictPosted t).tim = s.tim ∧ (s.evictPosted t).xpt = s.xpt ∧ (s.evictPosted t).obj =
    s.obj ∧ (s.evictPosted t).inj = s.inj ∧ (s.evictPosted t).hpt = s.hpt ∧ (s.evictPosted t).xlt = s.xlt ∧ (s.evictPosted
    t).ram = s.ram ∧ (s.evictPosted t).atu = s.atu ∧ (s.evictPosted t).col = s.col ∧ (s.evictPosted t).cnt = s.cnt ∧
    (s.evictPosted t).mgt = s.mgt ∧ (s.evictPosted t).lastRead = s.lastRead := by
  unfold State.evictPosted
  try dsimp only
  repeat' split
  all_goals simp [apply_ite State.part, apply_ite State.draws, apply_ite State.regs, apply_ite State.req, apply_ite State.flt,
    apply_ite State.rt, apply_ite State.lnk, apply_ite State.pwr, apply_ite State.tim, apply_ite State.xpt, apply_ite
    State.obj, apply_ite State.inj, apply_ite State.hpt, apply_ite State.xlt, apply_ite State.ram, apply_ite State.atu,
    apply_ite State.col, apply_ite State.cnt, apply_ite State.mgt, apply_ite State.lastRead]

@[simp] theorem State.entryDone_frame (s : State) (t r : Nat) :
    (s.entryDone t r).part = s.part ∧ (s.entryDone t r).req = s.req ∧ (s.entryDone t r).pwr = s.pwr ∧ (s.entryDone t r).obj =
    s.obj ∧ (s.entryDone t r).inj = s.inj ∧ (s.entryDone t r).hpt = s.hpt ∧ (s.entryDone t r).mat = s.mat ∧ (s.entryDone t
    r).ram = s.ram ∧ (s.entryDone t r).atu = s.atu ∧ (s.entryDone t r).col = s.col ∧ (s.entryDone t r).lastRead = s.lastRead
    := by
  unfold State.entryDone
  try dsimp only
  repeat' split
  all_goals simp [apply_ite State.part, apply_ite State.req, apply_ite State.pwr, apply_ite State.obj, apply_ite State.inj,
    apply_ite State.hpt, apply_ite State.mat, apply_ite State.ram, apply_ite State.atu, apply_ite State.col, apply_ite
    State.lastRead]

@[simp] theorem State.tileBack_frame (s : State) (t : Nat) :
    (s.tileBack t).part = s.part ∧ (s.tileBack t).req = s.req ∧ (s.tileBack t).flt = s.flt ∧ (s.tileBack t).rt = s.rt ∧
    (s.tileBack t).tim = s.tim ∧ (s.tileBack t).xpt = s.xpt ∧ (s.tileBack t).obj = s.obj ∧ (s.tileBack t).inj = s.inj ∧
    (s.tileBack t).hpt = s.hpt ∧ (s.tileBack t).xlt = s.xlt ∧ (s.tileBack t).mat = s.mat ∧ (s.tileBack t).ram = s.ram ∧
    (s.tileBack t).atu = s.atu ∧ (s.tileBack t).col = s.col ∧ (s.tileBack t).mgt = s.mgt ∧ (s.tileBack t).lastRead =
    s.lastRead := by
  unfold State.tileBack
  simp

@[simp] theorem State.resumeTile_frame (s : State) (t : Nat) :
    (s.resumeTile t).part = s.part ∧ (s.resumeTile t).req = s.req ∧ (s.resumeTile t).xlt = s.xlt ∧ (s.resumeTile t).ram =
    s.ram ∧ (s.resumeTile t).atu = s.atu ∧ (s.resumeTile t).lastRead = s.lastRead := by
  unfold State.resumeTile
  try dsimp only
  repeat' split
  all_goals simp [apply_ite State.part, apply_ite State.req, apply_ite State.xlt, apply_ite State.ram, apply_ite State.atu,
    apply_ite State.lastRead]

@[simp] theorem State.verifyBanks_frame (s : State) (t : Nat) (codes : List Word) :
    (s.verifyBanks t codes).part = s.part ∧ (s.verifyBanks t codes).draws = s.draws ∧ (s.verifyBanks t codes).req = s.req ∧
    (s.verifyBanks t codes).rt = s.rt ∧ (s.verifyBanks t codes).tim = s.tim ∧ (s.verifyBanks t codes).obj = s.obj ∧
    (s.verifyBanks t codes).inj = s.inj ∧ (s.verifyBanks t codes).hpt = s.hpt ∧ (s.verifyBanks t codes).xlt = s.xlt ∧
    (s.verifyBanks t codes).mat = s.mat ∧ (s.verifyBanks t codes).ram = s.ram ∧ (s.verifyBanks t codes).atu = s.atu ∧
    (s.verifyBanks t codes).col = s.col ∧ (s.verifyBanks t codes).mgt = s.mgt ∧ (s.verifyBanks t codes).lastRead = s.lastRead
    := by
  unfold State.verifyBanks
  try dsimp only
  repeat' split
  all_goals simp [apply_ite State.part, apply_ite State.draws, apply_ite State.req, apply_ite State.rt, apply_ite State.tim,
    apply_ite State.obj, apply_ite State.inj, apply_ite State.hpt, apply_ite State.xlt, apply_ite State.mat, apply_ite
    State.ram, apply_ite State.atu, apply_ite State.col, apply_ite State.mgt, apply_ite State.lastRead]

@[simp] theorem State.finishChange_frame (s : State) (t : Nat) :
    (s.finishChange t).part = s.part ∧ (s.finishChange t).req = s.req ∧ (s.finishChange t).obj = s.obj ∧ (s.finishChange
    t).inj = s.inj ∧ (s.finishChange t).hpt = s.hpt ∧ (s.finishChange t).mat = s.mat ∧ (s.finishChange t).ram = s.ram ∧
    (s.finishChange t).atu = s.atu ∧ (s.finishChange t).col = s.col ∧ (s.finishChange t).lastRead = s.lastRead := by
  unfold State.finishChange
  try dsimp only
  repeat' split
  all_goals simp [apply_ite State.part, apply_ite State.req, apply_ite State.obj, apply_ite State.inj, apply_ite State.hpt,
    apply_ite State.mat, apply_ite State.ram, apply_ite State.atu, apply_ite State.col, apply_ite State.lastRead]

@[simp] theorem State.unwind_frame (s : State) (t cause : Nat) :
    (s.unwind t cause).part = s.part ∧ (s.unwind t cause).req = s.req ∧ (s.unwind t cause).flt = s.flt ∧ (s.unwind t cause).rt
    = s.rt ∧ (s.unwind t cause).tim = s.tim ∧ (s.unwind t cause).xpt = s.xpt ∧ (s.unwind t cause).obj = s.obj ∧ (s.unwind t
    cause).inj = s.inj ∧ (s.unwind t cause).hpt = s.hpt ∧ (s.unwind t cause).xlt = s.xlt ∧ (s.unwind t cause).mat = s.mat ∧
    (s.unwind t cause).ram = s.ram ∧ (s.unwind t cause).atu = s.atu ∧ (s.unwind t cause).col = s.col ∧ (s.unwind t cause).mgt
    = s.mgt ∧ (s.unwind t cause).lastRead = s.lastRead := by
  unfold State.unwind
  simp

@[simp] theorem State.nextAction_frame (s : State) (t q k : Nat) :
    (s.nextAction t q k).part = s.part ∧ (s.nextAction t q k).req = s.req ∧ (s.nextAction t q k).obj = s.obj ∧ (s.nextAction t
    q k).inj = s.inj ∧ (s.nextAction t q k).hpt = s.hpt ∧ (s.nextAction t q k).mat = s.mat ∧ (s.nextAction t q k).ram = s.ram
    ∧ (s.nextAction t q k).atu = s.atu ∧ (s.nextAction t q k).col = s.col ∧ (s.nextAction t q k).lastRead = s.lastRead := by
  unfold State.nextAction
  try dsimp only
  repeat' split
  all_goals simp [apply_ite State.part, apply_ite State.req, apply_ite State.obj, apply_ite State.inj, apply_ite State.hpt,
    apply_ite State.mat, apply_ite State.ram, apply_ite State.atu, apply_ite State.col, apply_ite State.lastRead]

@[simp] theorem State.acquireAgain_frame (s : State) :
    (s.acquireAgain).part = s.part ∧ (s.acquireAgain).draws = s.draws ∧ (s.acquireAgain).regs = s.regs ∧ (s.acquireAgain).req
    = s.req ∧ (s.acquireAgain).flt = s.flt ∧ (s.acquireAgain).rt = s.rt ∧ (s.acquireAgain).lnk = s.lnk ∧ (s.acquireAgain).pwr
    = s.pwr ∧ (s.acquireAgain).xpt = s.xpt ∧ (s.acquireAgain).obj = s.obj ∧ (s.acquireAgain).inj = s.inj ∧
    (s.acquireAgain).hpt = s.hpt ∧ (s.acquireAgain).xlt = s.xlt ∧ (s.acquireAgain).mat = s.mat ∧ (s.acquireAgain).ram = s.ram
    ∧ (s.acquireAgain).atu = s.atu ∧ (s.acquireAgain).col = s.col ∧ (s.acquireAgain).cnt = s.cnt ∧ (s.acquireAgain).mgt =
    s.mgt ∧ (s.acquireAgain).lastRead = s.lastRead := by
  unfold State.acquireAgain
  simp

@[simp] theorem State.thermalFaults_frame (s : State) (t temp : Nat) :
    (s.thermalFaults t temp).part = s.part ∧ (s.thermalFaults t temp).draws = s.draws ∧ (s.thermalFaults t temp).req = s.req ∧
    (s.thermalFaults t temp).rt = s.rt ∧ (s.thermalFaults t temp).pwr = s.pwr ∧ (s.thermalFaults t temp).tim = s.tim ∧
    (s.thermalFaults t temp).xpt = s.xpt ∧ (s.thermalFaults t temp).obj = s.obj ∧ (s.thermalFaults t temp).inj = s.inj ∧
    (s.thermalFaults t temp).hpt = s.hpt ∧ (s.thermalFaults t temp).xlt = s.xlt ∧ (s.thermalFaults t temp).mat = s.mat ∧
    (s.thermalFaults t temp).ram = s.ram ∧ (s.thermalFaults t temp).atu = s.atu ∧ (s.thermalFaults t temp).col = s.col ∧
    (s.thermalFaults t temp).mgt = s.mgt ∧ (s.thermalFaults t temp).lastRead = s.lastRead := by
  unfold State.thermalFaults
  try dsimp only
  repeat' split
  all_goals simp [apply_ite State.part, apply_ite State.draws, apply_ite State.req, apply_ite State.rt, apply_ite State.pwr,
    apply_ite State.tim, apply_ite State.xpt, apply_ite State.obj, apply_ite State.inj, apply_ite State.hpt, apply_ite
    State.xlt, apply_ite State.mat, apply_ite State.ram, apply_ite State.atu, apply_ite State.col, apply_ite State.mgt,
    apply_ite State.lastRead]

@[simp] theorem State.thermalWake_frame (s : State) (t temp : Nat) :
    (s.thermalWake t temp).part = s.part ∧ (s.thermalWake t temp).draws = s.draws ∧ (s.thermalWake t temp).req = s.req ∧
    (s.thermalWake t temp).flt = s.flt ∧ (s.thermalWake t temp).rt = s.rt ∧ (s.thermalWake t temp).lnk = s.lnk ∧
    (s.thermalWake t temp).tim = s.tim ∧ (s.thermalWake t temp).xpt = s.xpt ∧ (s.thermalWake t temp).obj = s.obj ∧
    (s.thermalWake t temp).inj = s.inj ∧ (s.thermalWake t temp).hpt = s.hpt ∧ (s.thermalWake t temp).xlt = s.xlt ∧
    (s.thermalWake t temp).mat = s.mat ∧ (s.thermalWake t temp).ram = s.ram ∧ (s.thermalWake t temp).atu = s.atu ∧
    (s.thermalWake t temp).col = s.col ∧ (s.thermalWake t temp).cnt = s.cnt ∧ (s.thermalWake t temp).mgt = s.mgt ∧
    (s.thermalWake t temp).lastRead = s.lastRead := by
  unfold State.thermalWake
  try dsimp only
  repeat' split
  all_goals simp [apply_ite State.part, apply_ite State.draws, apply_ite State.req, apply_ite State.flt, apply_ite State.rt,
    apply_ite State.lnk, apply_ite State.tim, apply_ite State.xpt, apply_ite State.obj, apply_ite State.inj, apply_ite
    State.hpt, apply_ite State.xlt, apply_ite State.mat, apply_ite State.ram, apply_ite State.atu, apply_ite State.col,
    apply_ite State.cnt, apply_ite State.mgt, apply_ite State.lastRead]

@[simp] theorem State.firmwareLoad_frame (s : State) (flash : HostRead) (readErr : Option (BitVec 24)) (sigOk : Bool) (version
  : BitVec 16) :
    (s.firmwareLoad flash readErr sigOk version).part = s.part ∧ (s.firmwareLoad flash readErr sigOk version).draws = s.draws
    ∧ (s.firmwareLoad flash readErr sigOk version).req = s.req ∧ (s.firmwareLoad flash readErr sigOk version).rt = s.rt ∧
    (s.firmwareLoad flash readErr sigOk version).pwr = s.pwr ∧ (s.firmwareLoad flash readErr sigOk version).tim = s.tim ∧
    (s.firmwareLoad flash readErr sigOk version).xpt = s.xpt ∧ (s.firmwareLoad flash readErr sigOk version).obj = s.obj ∧
    (s.firmwareLoad flash readErr sigOk version).inj = s.inj ∧ (s.firmwareLoad flash readErr sigOk version).hpt = s.hpt ∧
    (s.firmwareLoad flash readErr sigOk version).xlt = s.xlt ∧ (s.firmwareLoad flash readErr sigOk version).mat = s.mat ∧
    (s.firmwareLoad flash readErr sigOk version).ram = s.ram ∧ (s.firmwareLoad flash readErr sigOk version).atu = s.atu ∧
    (s.firmwareLoad flash readErr sigOk version).col = s.col ∧ (s.firmwareLoad flash readErr sigOk version).lastRead =
    s.lastRead := by
  unfold State.firmwareLoad
  try dsimp only
  repeat' split
  all_goals simp [apply_ite State.part, apply_ite State.draws, apply_ite State.req, apply_ite State.rt, apply_ite State.pwr,
    apply_ite State.tim, apply_ite State.xpt, apply_ite State.obj, apply_ite State.inj, apply_ite State.hpt, apply_ite
    State.xlt, apply_ite State.mat, apply_ite State.ram, apply_ite State.atu, apply_ite State.col, apply_ite State.lastRead]

@[simp] theorem State.digestAgain_frame (s : State) (p : Nat) :
    (s.digestAgain p).part = s.part ∧ (s.digestAgain p).req = s.req ∧ (s.digestAgain p).tim = s.tim ∧ (s.digestAgain p).xlt =
    s.xlt ∧ (s.digestAgain p).ram = s.ram ∧ (s.digestAgain p).atu = s.atu ∧ (s.digestAgain p).lastRead = s.lastRead := by
  unfold State.digestAgain
  try dsimp only
  repeat' split
  all_goals simp

@[simp] theorem State.profileCtrlWrite_frame (s : State) (w : Word) :
    (s.profileCtrlWrite w).part = s.part ∧ (s.profileCtrlWrite w).req = s.req ∧ (s.profileCtrlWrite w).tim = s.tim ∧
    (s.profileCtrlWrite w).xlt = s.xlt ∧ (s.profileCtrlWrite w).ram = s.ram ∧ (s.profileCtrlWrite w).atu = s.atu ∧
    (s.profileCtrlWrite w).lastRead = s.lastRead := by
  unfold State.profileCtrlWrite
  try dsimp only
  repeat' split
  all_goals simp [apply_ite State.part, apply_ite State.req, apply_ite State.tim, apply_ite State.xlt, apply_ite State.ram,
    apply_ite State.atu, apply_ite State.lastRead]

@[simp] theorem State.showXsrc_frame (s : State) (r : XRec) :
    (s.showXsrc r).part = s.part ∧ (s.showXsrc r).draws = s.draws ∧ (s.showXsrc r).req = s.req ∧ (s.showXsrc r).flt = s.flt ∧
    (s.showXsrc r).rt = s.rt ∧ (s.showXsrc r).lnk = s.lnk ∧ (s.showXsrc r).pwr = s.pwr ∧ (s.showXsrc r).tim = s.tim ∧
    (s.showXsrc r).xpt = s.xpt ∧ (s.showXsrc r).obj = s.obj ∧ (s.showXsrc r).inj = s.inj ∧ (s.showXsrc r).hpt = s.hpt ∧
    (s.showXsrc r).xlt = s.xlt ∧ (s.showXsrc r).mat = s.mat ∧ (s.showXsrc r).ram = s.ram ∧ (s.showXsrc r).atu = s.atu ∧
    (s.showXsrc r).col = s.col ∧ (s.showXsrc r).cnt = s.cnt ∧ (s.showXsrc r).mgt = s.mgt ∧ (s.showXsrc r).lastRead =
    s.lastRead := by
  unfold State.showXsrc
  simp

@[simp] theorem State.xsrcCmdWrite_frame (s : State) (w : Word) :
    (s.xsrcCmdWrite w).part = s.part ∧ (s.xsrcCmdWrite w).draws = s.draws ∧ (s.xsrcCmdWrite w).req = s.req ∧ (s.xsrcCmdWrite
    w).flt = s.flt ∧ (s.xsrcCmdWrite w).rt = s.rt ∧ (s.xsrcCmdWrite w).lnk = s.lnk ∧ (s.xsrcCmdWrite w).pwr = s.pwr ∧
    (s.xsrcCmdWrite w).xpt = s.xpt ∧ (s.xsrcCmdWrite w).obj = s.obj ∧ (s.xsrcCmdWrite w).inj = s.inj ∧ (s.xsrcCmdWrite w).hpt
    = s.hpt ∧ (s.xsrcCmdWrite w).xlt = s.xlt ∧ (s.xsrcCmdWrite w).mat = s.mat ∧ (s.xsrcCmdWrite w).ram = s.ram ∧
    (s.xsrcCmdWrite w).atu = s.atu ∧ (s.xsrcCmdWrite w).col = s.col ∧ (s.xsrcCmdWrite w).cnt = s.cnt ∧ (s.xsrcCmdWrite w).mgt
    = s.mgt ∧ (s.xsrcCmdWrite w).lastRead = s.lastRead := by
  unfold State.xsrcCmdWrite
  try dsimp only
  repeat' split
  all_goals simp [apply_ite State.part, apply_ite State.draws, apply_ite State.req, apply_ite State.flt, apply_ite State.rt,
    apply_ite State.lnk, apply_ite State.pwr, apply_ite State.xpt, apply_ite State.obj, apply_ite State.inj, apply_ite
    State.hpt, apply_ite State.xlt, apply_ite State.mat, apply_ite State.ram, apply_ite State.atu, apply_ite State.col,
    apply_ite State.cnt, apply_ite State.mgt, apply_ite State.lastRead]

@[simp] theorem State.dropTransit_frame (s : State) (c : Cell) (e k p : Nat) :
    (s.dropTransit c e k p).part = s.part ∧ (s.dropTransit c e k p).req = s.req ∧ (s.dropTransit c e k p).flt = s.flt ∧
    (s.dropTransit c e k p).lnk = s.lnk ∧ (s.dropTransit c e k p).pwr = s.pwr ∧ (s.dropTransit c e k p).tim = s.tim ∧
    (s.dropTransit c e k p).xpt = s.xpt ∧ (s.dropTransit c e k p).obj = s.obj ∧ (s.dropTransit c e k p).inj = s.inj ∧
    (s.dropTransit c e k p).hpt = s.hpt ∧ (s.dropTransit c e k p).xlt = s.xlt ∧ (s.dropTransit c e k p).mat = s.mat ∧
    (s.dropTransit c e k p).ram = s.ram ∧ (s.dropTransit c e k p).atu = s.atu ∧ (s.dropTransit c e k p).col = s.col ∧
    (s.dropTransit c e k p).cnt = s.cnt ∧ (s.dropTransit c e k p).mgt = s.mgt ∧ (s.dropTransit c e k p).lastRead = s.lastRead
    := by
  unfold State.dropTransit
  simp

@[simp] theorem State.collide_frame (s : State) (info : Nat) :
    (s.collide info).part = s.part ∧ (s.collide info).draws = s.draws ∧ (s.collide info).req = s.req ∧ (s.collide info).rt =
    s.rt ∧ (s.collide info).pwr = s.pwr ∧ (s.collide info).tim = s.tim ∧ (s.collide info).xpt = s.xpt ∧ (s.collide info).obj =
    s.obj ∧ (s.collide info).inj = s.inj ∧ (s.collide info).hpt = s.hpt ∧ (s.collide info).xlt = s.xlt ∧ (s.collide info).mat
    = s.mat ∧ (s.collide info).ram = s.ram ∧ (s.collide info).atu = s.atu ∧ (s.collide info).col = s.col ∧ (s.collide
    info).mgt = s.mgt ∧ (s.collide info).lastRead = s.lastRead := by
  unfold State.collide
  simp

@[simp] theorem State.takeMark_frame (s : State) (p : Nat) (d : BitVec 16) :
    (s.takeMark p d).part = s.part ∧ (s.takeMark p d).draws = s.draws ∧ (s.takeMark p d).regs = s.regs ∧ (s.takeMark p d).req
    = s.req ∧ (s.takeMark p d).flt = s.flt ∧ (s.takeMark p d).rt = s.rt ∧ (s.takeMark p d).lnk = s.lnk ∧ (s.takeMark p d).pwr
    = s.pwr ∧ (s.takeMark p d).xpt = s.xpt ∧ (s.takeMark p d).obj = s.obj ∧ (s.takeMark p d).inj = s.inj ∧ (s.takeMark p
    d).hpt = s.hpt ∧ (s.takeMark p d).xlt = s.xlt ∧ (s.takeMark p d).mat = s.mat ∧ (s.takeMark p d).ram = s.ram ∧ (s.takeMark
    p d).atu = s.atu ∧ (s.takeMark p d).col = s.col ∧ (s.takeMark p d).cnt = s.cnt ∧ (s.takeMark p d).mgt = s.mgt ∧
    (s.takeMark p d).lastRead = s.lastRead := by
  unfold State.takeMark
  try dsimp only
  repeat' split
  all_goals simp [apply_ite State.part, apply_ite State.draws, apply_ite State.regs, apply_ite State.req, apply_ite State.flt,
    apply_ite State.rt, apply_ite State.lnk, apply_ite State.pwr, apply_ite State.xpt, apply_ite State.obj, apply_ite
    State.inj, apply_ite State.hpt, apply_ite State.xlt, apply_ite State.mat, apply_ite State.ram, apply_ite State.atu,
    apply_ite State.col, apply_ite State.cnt, apply_ite State.mgt, apply_ite State.lastRead]

@[simp] theorem State.transitDown_frame (s : State) (e k : Nat) :
    (s.transitDown e k).part = s.part ∧ (s.transitDown e k).draws = s.draws ∧ (s.transitDown e k).req = s.req ∧ (s.transitDown
    e k).rt = s.rt ∧ (s.transitDown e k).pwr = s.pwr ∧ (s.transitDown e k).xpt = s.xpt ∧ (s.transitDown e k).obj = s.obj ∧
    (s.transitDown e k).inj = s.inj ∧ (s.transitDown e k).hpt = s.hpt ∧ (s.transitDown e k).xlt = s.xlt ∧ (s.transitDown e
    k).mat = s.mat ∧ (s.transitDown e k).ram = s.ram ∧ (s.transitDown e k).atu = s.atu ∧ (s.transitDown e k).col = s.col ∧
    (s.transitDown e k).mgt = s.mgt ∧ (s.transitDown e k).lastRead = s.lastRead := by
  unfold State.transitDown
  simp

@[simp] theorem State.endpointWrite_frame (s : State) (w : Word) :
    (s.endpointWrite w).part = s.part ∧ (s.endpointWrite w).draws = s.draws ∧ (s.endpointWrite w).req = s.req ∧
    (s.endpointWrite w).flt = s.flt ∧ (s.endpointWrite w).rt = s.rt ∧ (s.endpointWrite w).lnk = s.lnk ∧ (s.endpointWrite
    w).pwr = s.pwr ∧ (s.endpointWrite w).tim = s.tim ∧ (s.endpointWrite w).xpt = s.xpt ∧ (s.endpointWrite w).obj = s.obj ∧
    (s.endpointWrite w).inj = s.inj ∧ (s.endpointWrite w).hpt = s.hpt ∧ (s.endpointWrite w).xlt = s.xlt ∧ (s.endpointWrite
    w).mat = s.mat ∧ (s.endpointWrite w).ram = s.ram ∧ (s.endpointWrite w).atu = s.atu ∧ (s.endpointWrite w).col = s.col ∧
    (s.endpointWrite w).cnt = s.cnt ∧ (s.endpointWrite w).mgt = s.mgt ∧ (s.endpointWrite w).lastRead = s.lastRead := by
  unfold State.endpointWrite
  try dsimp only
  repeat' split
  all_goals simp [apply_ite State.part, apply_ite State.draws, apply_ite State.req, apply_ite State.flt, apply_ite State.rt,
    apply_ite State.lnk, apply_ite State.pwr, apply_ite State.tim, apply_ite State.xpt, apply_ite State.obj, apply_ite
    State.inj, apply_ite State.hpt, apply_ite State.xlt, apply_ite State.mat, apply_ite State.ram, apply_ite State.atu,
    apply_ite State.col, apply_ite State.cnt, apply_ite State.mgt, apply_ite State.lastRead]

@[simp] theorem State.takeDrain_frame (s : State) (p : Nat) (c : Cell) :
    (s.takeDrain p c).part = s.part ∧ (s.takeDrain p c).draws = s.draws ∧ (s.takeDrain p c).req = s.req ∧ (s.takeDrain p
    c).flt = s.flt ∧ (s.takeDrain p c).lnk = s.lnk ∧ (s.takeDrain p c).pwr = s.pwr ∧ (s.takeDrain p c).tim = s.tim ∧
    (s.takeDrain p c).xpt = s.xpt ∧ (s.takeDrain p c).obj = s.obj ∧ (s.takeDrain p c).inj = s.inj ∧ (s.takeDrain p c).hpt =
    s.hpt ∧ (s.takeDrain p c).xlt = s.xlt ∧ (s.takeDrain p c).mat = s.mat ∧ (s.takeDrain p c).ram = s.ram ∧ (s.takeDrain p
    c).atu = s.atu ∧ (s.takeDrain p c).col = s.col ∧ (s.takeDrain p c).cnt = s.cnt ∧ (s.takeDrain p c).mgt = s.mgt ∧
    (s.takeDrain p c).lastRead = s.lastRead := by
  unfold State.takeDrain
  try dsimp only
  repeat' split
  all_goals simp [apply_ite State.part, apply_ite State.draws, apply_ite State.req, apply_ite State.flt, apply_ite State.lnk,
    apply_ite State.pwr, apply_ite State.tim, apply_ite State.xpt, apply_ite State.obj, apply_ite State.inj, apply_ite
    State.hpt, apply_ite State.xlt, apply_ite State.mat, apply_ite State.ram, apply_ite State.atu, apply_ite State.col,
    apply_ite State.cnt, apply_ite State.mgt, apply_ite State.lastRead]

@[simp] theorem State.forceRetire_frame (s : State) (e : Nat) :
    (s.forceRetire e).part = s.part ∧ (s.forceRetire e).draws = s.draws ∧ (s.forceRetire e).req = s.req ∧ (s.forceRetire
    e).flt = s.flt ∧ (s.forceRetire e).pwr = s.pwr ∧ (s.forceRetire e).tim = s.tim ∧ (s.forceRetire e).xpt = s.xpt ∧
    (s.forceRetire e).obj = s.obj ∧ (s.forceRetire e).inj = s.inj ∧ (s.forceRetire e).hpt = s.hpt ∧ (s.forceRetire e).xlt =
    s.xlt ∧ (s.forceRetire e).mat = s.mat ∧ (s.forceRetire e).ram = s.ram ∧ (s.forceRetire e).atu = s.atu ∧ (s.forceRetire
    e).col = s.col ∧ (s.forceRetire e).cnt = s.cnt ∧ (s.forceRetire e).mgt = s.mgt ∧ (s.forceRetire e).lastRead = s.lastRead
    := by
  unfold State.forceRetire
  try dsimp only
  repeat' split
  all_goals simp [apply_ite State.part, apply_ite State.draws, apply_ite State.req, apply_ite State.flt, apply_ite State.pwr,
    apply_ite State.tim, apply_ite State.xpt, apply_ite State.obj, apply_ite State.inj, apply_ite State.hpt, apply_ite
    State.xlt, apply_ite State.mat, apply_ite State.ram, apply_ite State.atu, apply_ite State.col, apply_ite State.cnt,
    apply_ite State.mgt, apply_ite State.lastRead]

@[simp] theorem State.faultWrite_frame (s : State) (b a : Nat) (w : Word) :
    (s.faultWrite b a w).part = s.part ∧ (s.faultWrite b a w).req = s.req ∧ (s.faultWrite b a w).rt = s.rt ∧ (s.faultWrite b a
    w).pwr = s.pwr ∧ (s.faultWrite b a w).tim = s.tim ∧ (s.faultWrite b a w).xpt = s.xpt ∧ (s.faultWrite b a w).obj = s.obj ∧
    (s.faultWrite b a w).inj = s.inj ∧ (s.faultWrite b a w).hpt = s.hpt ∧ (s.faultWrite b a w).xlt = s.xlt ∧ (s.faultWrite b a
    w).mat = s.mat ∧ (s.faultWrite b a w).ram = s.ram ∧ (s.faultWrite b a w).atu = s.atu ∧ (s.faultWrite b a w).col = s.col ∧
    (s.faultWrite b a w).mgt = s.mgt ∧ (s.faultWrite b a w).lastRead = s.lastRead := by
  unfold State.faultWrite
  try dsimp only
  repeat' split
  all_goals simp [apply_ite State.part, apply_ite State.req, apply_ite State.rt, apply_ite State.pwr, apply_ite State.tim,
    apply_ite State.xpt, apply_ite State.obj, apply_ite State.inj, apply_ite State.hpt, apply_ite State.xlt, apply_ite
    State.mat, apply_ite State.ram, apply_ite State.atu, apply_ite State.col, apply_ite State.mgt, apply_ite State.lastRead]

@[simp] theorem State.plainWrite_frame (s : State) (r : RegRow) (a : Nat) (w : Word) :
    (s.plainWrite r a w).part = s.part ∧ (s.plainWrite r a w).draws = s.draws ∧ (s.plainWrite r a w).req = s.req ∧
    (s.plainWrite r a w).flt = s.flt ∧ (s.plainWrite r a w).rt = s.rt ∧ (s.plainWrite r a w).lnk = s.lnk ∧ (s.plainWrite r a
    w).pwr = s.pwr ∧ (s.plainWrite r a w).tim = s.tim ∧ (s.plainWrite r a w).xpt = s.xpt ∧ (s.plainWrite r a w).obj = s.obj ∧
    (s.plainWrite r a w).inj = s.inj ∧ (s.plainWrite r a w).hpt = s.hpt ∧ (s.plainWrite r a w).xlt = s.xlt ∧ (s.plainWrite r a
    w).mat = s.mat ∧ (s.plainWrite r a w).ram = s.ram ∧ (s.plainWrite r a w).atu = s.atu ∧ (s.plainWrite r a w).col = s.col ∧
    (s.plainWrite r a w).cnt = s.cnt ∧ (s.plainWrite r a w).mgt = s.mgt ∧ (s.plainWrite r a w).lastRead = s.lastRead := by
  unfold State.plainWrite
  simp

@[simp] theorem State.routeCtrlWrite_frame (s : State) (w : Word) :
    (s.routeCtrlWrite w).part = s.part ∧ (s.routeCtrlWrite w).draws = s.draws ∧ (s.routeCtrlWrite w).req = s.req ∧
    (s.routeCtrlWrite w).flt = s.flt ∧ (s.routeCtrlWrite w).rt = s.rt ∧ (s.routeCtrlWrite w).lnk = s.lnk ∧ (s.routeCtrlWrite
    w).pwr = s.pwr ∧ (s.routeCtrlWrite w).tim = s.tim ∧ (s.routeCtrlWrite w).xpt = s.xpt ∧ (s.routeCtrlWrite w).obj = s.obj ∧
    (s.routeCtrlWrite w).inj = s.inj ∧ (s.routeCtrlWrite w).hpt = s.hpt ∧ (s.routeCtrlWrite w).xlt = s.xlt ∧ (s.routeCtrlWrite
    w).mat = s.mat ∧ (s.routeCtrlWrite w).ram = s.ram ∧ (s.routeCtrlWrite w).atu = s.atu ∧ (s.routeCtrlWrite w).col = s.col ∧
    (s.routeCtrlWrite w).cnt = s.cnt ∧ (s.routeCtrlWrite w).mgt = s.mgt ∧ (s.routeCtrlWrite w).lastRead = s.lastRead := by
  unfold State.routeCtrlWrite
  try dsimp only
  repeat' split
  all_goals simp [apply_ite State.part, apply_ite State.draws, apply_ite State.req, apply_ite State.flt, apply_ite State.rt,
    apply_ite State.lnk, apply_ite State.pwr, apply_ite State.tim, apply_ite State.xpt, apply_ite State.obj, apply_ite
    State.inj, apply_ite State.hpt, apply_ite State.xlt, apply_ite State.mat, apply_ite State.ram, apply_ite State.atu,
    apply_ite State.col, apply_ite State.cnt, apply_ite State.mgt, apply_ite State.lastRead]

@[simp] theorem State.retryWrite_frame (s : State) (c : Nat) (w : Word) :
    (s.retryWrite c w).part = s.part ∧ (s.retryWrite c w).draws = s.draws ∧ (s.retryWrite c w).req = s.req ∧ (s.retryWrite c
    w).flt = s.flt ∧ (s.retryWrite c w).rt = s.rt ∧ (s.retryWrite c w).lnk = s.lnk ∧ (s.retryWrite c w).pwr = s.pwr ∧
    (s.retryWrite c w).tim = s.tim ∧ (s.retryWrite c w).xpt = s.xpt ∧ (s.retryWrite c w).obj = s.obj ∧ (s.retryWrite c w).inj
    = s.inj ∧ (s.retryWrite c w).hpt = s.hpt ∧ (s.retryWrite c w).xlt = s.xlt ∧ (s.retryWrite c w).mat = s.mat ∧ (s.retryWrite
    c w).ram = s.ram ∧ (s.retryWrite c w).atu = s.atu ∧ (s.retryWrite c w).col = s.col ∧ (s.retryWrite c w).cnt = s.cnt ∧
    (s.retryWrite c w).mgt = s.mgt ∧ (s.retryWrite c w).lastRead = s.lastRead := by
  unfold State.retryWrite
  try dsimp only
  repeat' split
  all_goals simp [apply_ite State.part, apply_ite State.draws, apply_ite State.req, apply_ite State.flt, apply_ite State.rt,
    apply_ite State.lnk, apply_ite State.pwr, apply_ite State.tim, apply_ite State.xpt, apply_ite State.obj, apply_ite
    State.inj, apply_ite State.hpt, apply_ite State.xlt, apply_ite State.mat, apply_ite State.ram, apply_ite State.atu,
    apply_ite State.col, apply_ite State.cnt, apply_ite State.mgt, apply_ite State.lastRead]

@[simp] theorem State.hostPathWrite_frame (s : State) (w : Word) :
    (s.hostPathWrite w).part = s.part ∧ (s.hostPathWrite w).draws = s.draws ∧ (s.hostPathWrite w).req = s.req ∧
    (s.hostPathWrite w).flt = s.flt ∧ (s.hostPathWrite w).rt = s.rt ∧ (s.hostPathWrite w).lnk = s.lnk ∧ (s.hostPathWrite
    w).pwr = s.pwr ∧ (s.hostPathWrite w).tim = s.tim ∧ (s.hostPathWrite w).xpt = s.xpt ∧ (s.hostPathWrite w).obj = s.obj ∧
    (s.hostPathWrite w).inj = s.inj ∧ (s.hostPathWrite w).hpt = s.hpt ∧ (s.hostPathWrite w).xlt = s.xlt ∧ (s.hostPathWrite
    w).mat = s.mat ∧ (s.hostPathWrite w).ram = s.ram ∧ (s.hostPathWrite w).atu = s.atu ∧ (s.hostPathWrite w).col = s.col ∧
    (s.hostPathWrite w).cnt = s.cnt ∧ (s.hostPathWrite w).mgt = s.mgt ∧ (s.hostPathWrite w).lastRead = s.lastRead := by
  unfold State.hostPathWrite
  try dsimp only
  repeat' split
  all_goals simp [apply_ite State.part, apply_ite State.draws, apply_ite State.req, apply_ite State.flt, apply_ite State.rt,
    apply_ite State.lnk, apply_ite State.pwr, apply_ite State.tim, apply_ite State.xpt, apply_ite State.obj, apply_ite
    State.inj, apply_ite State.hpt, apply_ite State.xlt, apply_ite State.mat, apply_ite State.ram, apply_ite State.atu,
    apply_ite State.col, apply_ite State.cnt, apply_ite State.mgt, apply_ite State.lastRead]

@[simp] theorem State.jrnlCtrlWrite_frame (s : State) (w : Word) :
    (s.jrnlCtrlWrite w).part = s.part ∧ (s.jrnlCtrlWrite w).draws = s.draws ∧ (s.jrnlCtrlWrite w).req = s.req ∧
    (s.jrnlCtrlWrite w).flt = s.flt ∧ (s.jrnlCtrlWrite w).rt = s.rt ∧ (s.jrnlCtrlWrite w).lnk = s.lnk ∧ (s.jrnlCtrlWrite
    w).pwr = s.pwr ∧ (s.jrnlCtrlWrite w).tim = s.tim ∧ (s.jrnlCtrlWrite w).xpt = s.xpt ∧ (s.jrnlCtrlWrite w).obj = s.obj ∧
    (s.jrnlCtrlWrite w).inj = s.inj ∧ (s.jrnlCtrlWrite w).hpt = s.hpt ∧ (s.jrnlCtrlWrite w).xlt = s.xlt ∧ (s.jrnlCtrlWrite
    w).mat = s.mat ∧ (s.jrnlCtrlWrite w).ram = s.ram ∧ (s.jrnlCtrlWrite w).atu = s.atu ∧ (s.jrnlCtrlWrite w).col = s.col ∧
    (s.jrnlCtrlWrite w).cnt = s.cnt ∧ (s.jrnlCtrlWrite w).mgt = s.mgt ∧ (s.jrnlCtrlWrite w).lastRead = s.lastRead := by
  unfold State.jrnlCtrlWrite
  try dsimp only
  repeat' split
  all_goals simp [apply_ite State.part, apply_ite State.draws, apply_ite State.req, apply_ite State.flt, apply_ite State.rt,
    apply_ite State.lnk, apply_ite State.pwr, apply_ite State.tim, apply_ite State.xpt, apply_ite State.obj, apply_ite
    State.inj, apply_ite State.hpt, apply_ite State.xlt, apply_ite State.mat, apply_ite State.ram, apply_ite State.atu,
    apply_ite State.col, apply_ite State.cnt, apply_ite State.mgt, apply_ite State.lastRead]

@[simp] theorem State.tileCtrlWrite_frame (s : State) (t : Nat) (w : Word) :
    (s.tileCtrlWrite t w).part = s.part ∧ (s.tileCtrlWrite t w).draws = s.draws ∧ (s.tileCtrlWrite t w).req = s.req ∧
    (s.tileCtrlWrite t w).flt = s.flt ∧ (s.tileCtrlWrite t w).rt = s.rt ∧ (s.tileCtrlWrite t w).lnk = s.lnk ∧ (s.tileCtrlWrite
    t w).pwr = s.pwr ∧ (s.tileCtrlWrite t w).tim = s.tim ∧ (s.tileCtrlWrite t w).xpt = s.xpt ∧ (s.tileCtrlWrite t w).obj =
    s.obj ∧ (s.tileCtrlWrite t w).inj = s.inj ∧ (s.tileCtrlWrite t w).hpt = s.hpt ∧ (s.tileCtrlWrite t w).xlt = s.xlt ∧
    (s.tileCtrlWrite t w).mat = s.mat ∧ (s.tileCtrlWrite t w).ram = s.ram ∧ (s.tileCtrlWrite t w).atu = s.atu ∧
    (s.tileCtrlWrite t w).col = s.col ∧ (s.tileCtrlWrite t w).cnt = s.cnt ∧ (s.tileCtrlWrite t w).mgt = s.mgt ∧
    (s.tileCtrlWrite t w).lastRead = s.lastRead := by
  unfold State.tileCtrlWrite
  try dsimp only
  repeat' split
  all_goals simp [apply_ite State.part, apply_ite State.draws, apply_ite State.req, apply_ite State.flt, apply_ite State.rt,
    apply_ite State.lnk, apply_ite State.pwr, apply_ite State.tim, apply_ite State.xpt, apply_ite State.obj, apply_ite
    State.inj, apply_ite State.hpt, apply_ite State.xlt, apply_ite State.mat, apply_ite State.ram, apply_ite State.atu,
    apply_ite State.col, apply_ite State.cnt, apply_ite State.mgt, apply_ite State.lastRead]

@[simp] theorem State.wideWrite_frame (s : State) (r : RegRow) (i j a : Nat) (v : Word64) :
    (s.wideWrite r i j a v).part = s.part ∧ (s.wideWrite r i j a v).draws = s.draws ∧ (s.wideWrite r i j a v).req = s.req ∧
    (s.wideWrite r i j a v).flt = s.flt ∧ (s.wideWrite r i j a v).rt = s.rt ∧ (s.wideWrite r i j a v).lnk = s.lnk ∧
    (s.wideWrite r i j a v).pwr = s.pwr ∧ (s.wideWrite r i j a v).tim = s.tim ∧ (s.wideWrite r i j a v).xpt = s.xpt ∧
    (s.wideWrite r i j a v).obj = s.obj ∧ (s.wideWrite r i j a v).inj = s.inj ∧ (s.wideWrite r i j a v).hpt = s.hpt ∧
    (s.wideWrite r i j a v).xlt = s.xlt ∧ (s.wideWrite r i j a v).mat = s.mat ∧ (s.wideWrite r i j a v).ram = s.ram ∧
    (s.wideWrite r i j a v).atu = s.atu ∧ (s.wideWrite r i j a v).col = s.col ∧ (s.wideWrite r i j a v).cnt = s.cnt ∧
    (s.wideWrite r i j a v).lastRead = s.lastRead := by
  unfold State.wideWrite
  try dsimp only
  repeat' split
  all_goals simp [apply_ite State.part, apply_ite State.draws, apply_ite State.req, apply_ite State.flt, apply_ite State.rt,
    apply_ite State.lnk, apply_ite State.pwr, apply_ite State.tim, apply_ite State.xpt, apply_ite State.obj, apply_ite
    State.inj, apply_ite State.hpt, apply_ite State.xlt, apply_ite State.mat, apply_ite State.ram, apply_ite State.atu,
    apply_ite State.col, apply_ite State.cnt, apply_ite State.lastRead]

@[simp] theorem State.dropHalf_frame (s : State) (who : Nat) :
    (s.dropHalf who).part = s.part ∧ (s.dropHalf who).draws = s.draws ∧ (s.dropHalf who).regs = s.regs ∧ (s.dropHalf who).flt
    = s.flt ∧ (s.dropHalf who).rt = s.rt ∧ (s.dropHalf who).lnk = s.lnk ∧ (s.dropHalf who).pwr = s.pwr ∧ (s.dropHalf who).tim
    = s.tim ∧ (s.dropHalf who).xpt = s.xpt ∧ (s.dropHalf who).obj = s.obj ∧ (s.dropHalf who).inj = s.inj ∧ (s.dropHalf
    who).hpt = s.hpt ∧ (s.dropHalf who).xlt = s.xlt ∧ (s.dropHalf who).mat = s.mat ∧ (s.dropHalf who).ram = s.ram ∧
    (s.dropHalf who).atu = s.atu ∧ (s.dropHalf who).col = s.col ∧ (s.dropHalf who).cnt = s.cnt ∧ (s.dropHalf who).mgt = s.mgt
    ∧ (s.dropHalf who).lastRead = s.lastRead := by
  unfold State.dropHalf
  simp

@[simp] theorem State.read4_frame (s : State) (who a : Nat) :
    (s.read4 who a).1.part = s.part ∧ (s.read4 who a).1.draws = s.draws ∧ (s.read4 who a).1.flt = s.flt ∧ (s.read4 who a).1.rt
    = s.rt ∧ (s.read4 who a).1.lnk = s.lnk ∧ (s.read4 who a).1.pwr = s.pwr ∧ (s.read4 who a).1.tim = s.tim ∧ (s.read4 who
    a).1.xpt = s.xpt ∧ (s.read4 who a).1.obj = s.obj ∧ (s.read4 who a).1.inj = s.inj ∧ (s.read4 who a).1.hpt = s.hpt ∧
    (s.read4 who a).1.xlt = s.xlt ∧ (s.read4 who a).1.mat = s.mat ∧ (s.read4 who a).1.ram = s.ram ∧ (s.read4 who a).1.atu =
    s.atu ∧ (s.read4 who a).1.col = s.col ∧ (s.read4 who a).1.cnt = s.cnt ∧ (s.read4 who a).1.mgt = s.mgt := by
  unfold State.read4
  try dsimp only
  repeat' split
  all_goals simp [apply_ite State.part, apply_ite State.draws, apply_ite State.flt, apply_ite State.rt, apply_ite State.lnk,
    apply_ite State.pwr, apply_ite State.tim, apply_ite State.xpt, apply_ite State.obj, apply_ite State.inj, apply_ite
    State.hpt, apply_ite State.xlt, apply_ite State.mat, apply_ite State.ram, apply_ite State.atu, apply_ite State.col,
    apply_ite State.cnt, apply_ite State.mgt]

@[simp] theorem State.sbStatus_frame (s : State) (n : Nat) :
    (s.sbStatus n).part = s.part ∧ (s.sbStatus n).draws = s.draws ∧ (s.sbStatus n).regs = s.regs ∧ (s.sbStatus n).req = s.req
    ∧ (s.sbStatus n).flt = s.flt ∧ (s.sbStatus n).rt = s.rt ∧ (s.sbStatus n).lnk = s.lnk ∧ (s.sbStatus n).pwr = s.pwr ∧
    (s.sbStatus n).tim = s.tim ∧ (s.sbStatus n).xpt = s.xpt ∧ (s.sbStatus n).obj = s.obj ∧ (s.sbStatus n).inj = s.inj ∧
    (s.sbStatus n).hpt = s.hpt ∧ (s.sbStatus n).xlt = s.xlt ∧ (s.sbStatus n).mat = s.mat ∧ (s.sbStatus n).ram = s.ram ∧
    (s.sbStatus n).atu = s.atu ∧ (s.sbStatus n).col = s.col ∧ (s.sbStatus n).cnt = s.cnt ∧ (s.sbStatus n).mgt = s.mgt := by
  unfold State.sbStatus
  simp

@[simp] theorem State.sbBad_frame (s : State) :
    (s.sbBad).part = s.part ∧ (s.sbBad).draws = s.draws ∧ (s.sbBad).req = s.req ∧ (s.sbBad).rt = s.rt ∧ (s.sbBad).pwr = s.pwr
    ∧ (s.sbBad).tim = s.tim ∧ (s.sbBad).xpt = s.xpt ∧ (s.sbBad).obj = s.obj ∧ (s.sbBad).inj = s.inj ∧ (s.sbBad).hpt = s.hpt ∧
    (s.sbBad).xlt = s.xlt ∧ (s.sbBad).mat = s.mat ∧ (s.sbBad).ram = s.ram ∧ (s.sbBad).atu = s.atu ∧ (s.sbBad).col = s.col ∧
    (s.sbBad).mgt = s.mgt := by
  unfold State.sbBad
  simp

@[simp] theorem State.sbCount_frame (s : State) :
    (s.sbCount).part = s.part ∧ (s.sbCount).draws = s.draws ∧ (s.sbCount).regs = s.regs ∧ (s.sbCount).req = s.req ∧
    (s.sbCount).flt = s.flt ∧ (s.sbCount).rt = s.rt ∧ (s.sbCount).lnk = s.lnk ∧ (s.sbCount).pwr = s.pwr ∧ (s.sbCount).tim =
    s.tim ∧ (s.sbCount).xpt = s.xpt ∧ (s.sbCount).obj = s.obj ∧ (s.sbCount).inj = s.inj ∧ (s.sbCount).hpt = s.hpt ∧
    (s.sbCount).xlt = s.xlt ∧ (s.sbCount).mat = s.mat ∧ (s.sbCount).ram = s.ram ∧ (s.sbCount).atu = s.atu ∧ (s.sbCount).col =
    s.col ∧ (s.sbCount).mgt = s.mgt ∧ (s.sbCount).lastRead = s.lastRead := by
  unfold State.sbCount
  simp

@[simp] theorem State.imageOpen_frame (s : State) (kind n len crc plan : Nat) :
    (s.imageOpen kind n len crc plan).part = s.part ∧ (s.imageOpen kind n len crc plan).draws = s.draws ∧ (s.imageOpen kind n
    len crc plan).req = s.req ∧ (s.imageOpen kind n len crc plan).flt = s.flt ∧ (s.imageOpen kind n len crc plan).rt = s.rt ∧
    (s.imageOpen kind n len crc plan).lnk = s.lnk ∧ (s.imageOpen kind n len crc plan).pwr = s.pwr ∧ (s.imageOpen kind n len
    crc plan).tim = s.tim ∧ (s.imageOpen kind n len crc plan).xpt = s.xpt ∧ (s.imageOpen kind n len crc plan).obj = s.obj ∧
    (s.imageOpen kind n len crc plan).inj = s.inj ∧ (s.imageOpen kind n len crc plan).hpt = s.hpt ∧ (s.imageOpen kind n len
    crc plan).xlt = s.xlt ∧ (s.imageOpen kind n len crc plan).mat = s.mat ∧ (s.imageOpen kind n len crc plan).ram = s.ram ∧
    (s.imageOpen kind n len crc plan).atu = s.atu ∧ (s.imageOpen kind n len crc plan).col = s.col ∧ (s.imageOpen kind n len
    crc plan).cnt = s.cnt := by
  unfold State.imageOpen
  try dsimp only
  repeat' split
  all_goals simp [apply_ite State.part, apply_ite State.draws, apply_ite State.req, apply_ite State.flt, apply_ite State.rt,
    apply_ite State.lnk, apply_ite State.pwr, apply_ite State.tim, apply_ite State.xpt, apply_ite State.obj, apply_ite
    State.inj, apply_ite State.hpt, apply_ite State.xlt, apply_ite State.mat, apply_ite State.ram, apply_ite State.atu,
    apply_ite State.col, apply_ite State.cnt]

@[simp] theorem State.setImageBytes_frame (s : State) (o : SbImage) (x : Nat) :
    (s.setImageBytes o x).part = s.part ∧ (s.setImageBytes o x).draws = s.draws ∧ (s.setImageBytes o x).regs = s.regs ∧
    (s.setImageBytes o x).req = s.req ∧ (s.setImageBytes o x).flt = s.flt ∧ (s.setImageBytes o x).lnk = s.lnk ∧
    (s.setImageBytes o x).pwr = s.pwr ∧ (s.setImageBytes o x).xpt = s.xpt ∧ (s.setImageBytes o x).obj = s.obj ∧
    (s.setImageBytes o x).inj = s.inj ∧ (s.setImageBytes o x).hpt = s.hpt ∧ (s.setImageBytes o x).xlt = s.xlt ∧
    (s.setImageBytes o x).mat = s.mat ∧ (s.setImageBytes o x).ram = s.ram ∧ (s.setImageBytes o x).atu = s.atu ∧
    (s.setImageBytes o x).col = s.col ∧ (s.setImageBytes o x).cnt = s.cnt ∧ (s.setImageBytes o x).lastRead = s.lastRead := by
  unfold State.setImageBytes
  try dsimp only
  repeat' split
  all_goals simp [apply_ite State.part, apply_ite State.draws, apply_ite State.regs, apply_ite State.req, apply_ite State.flt,
    apply_ite State.lnk, apply_ite State.pwr, apply_ite State.xpt, apply_ite State.obj, apply_ite State.inj, apply_ite
    State.hpt, apply_ite State.xlt, apply_ite State.mat, apply_ite State.ram, apply_ite State.atu, apply_ite State.col,
    apply_ite State.cnt, apply_ite State.lastRead]

@[simp] theorem State.imageData_frame (s : State) (off : Nat) (data : List (BitVec 8)) :
    (s.imageData off data).part = s.part ∧ (s.imageData off data).draws = s.draws ∧ (s.imageData off data).req = s.req ∧
    (s.imageData off data).flt = s.flt ∧ (s.imageData off data).lnk = s.lnk ∧ (s.imageData off data).pwr = s.pwr ∧
    (s.imageData off data).xpt = s.xpt ∧ (s.imageData off data).obj = s.obj ∧ (s.imageData off data).inj = s.inj ∧
    (s.imageData off data).hpt = s.hpt ∧ (s.imageData off data).xlt = s.xlt ∧ (s.imageData off data).mat = s.mat ∧
    (s.imageData off data).ram = s.ram ∧ (s.imageData off data).atu = s.atu ∧ (s.imageData off data).col = s.col ∧
    (s.imageData off data).cnt = s.cnt := by
  unfold State.imageData
  try dsimp only
  repeat' split
  all_goals simp [apply_ite State.part, apply_ite State.draws, apply_ite State.req, apply_ite State.flt, apply_ite State.lnk,
    apply_ite State.pwr, apply_ite State.xpt, apply_ite State.obj, apply_ite State.inj, apply_ite State.hpt, apply_ite
    State.xlt, apply_ite State.mat, apply_ite State.ram, apply_ite State.atu, apply_ite State.col, apply_ite State.cnt]

@[simp] theorem State.keepCopy_frame (s : State) (o : SbImage) (img : Nat) :
    (s.keepCopy o img).part = s.part ∧ (s.keepCopy o img).draws = s.draws ∧ (s.keepCopy o img).regs = s.regs ∧ (s.keepCopy o
    img).req = s.req ∧ (s.keepCopy o img).flt = s.flt ∧ (s.keepCopy o img).rt = s.rt ∧ (s.keepCopy o img).lnk = s.lnk ∧
    (s.keepCopy o img).pwr = s.pwr ∧ (s.keepCopy o img).tim = s.tim ∧ (s.keepCopy o img).xpt = s.xpt ∧ (s.keepCopy o img).obj
    = s.obj ∧ (s.keepCopy o img).inj = s.inj ∧ (s.keepCopy o img).xlt = s.xlt ∧ (s.keepCopy o img).mat = s.mat ∧ (s.keepCopy o
    img).atu = s.atu ∧ (s.keepCopy o img).col = s.col ∧ (s.keepCopy o img).mgt = s.mgt ∧ (s.keepCopy o img).lastRead =
    s.lastRead := by
  unfold State.keepCopy
  simp

end Sys2Proof.Machine
end

