-- ==== Sys2Proof/Laws/Maps.lean ====
section
/-! SUPPORT. The laws of finite maps and of the memory of the CXL.mem windows: a read after a write, and that every memory
operation keeps the canonical form; and that a number picked is free. -/

namespace Sys2Proof.Machine

variable {α : Type}

@[simp] theorem Map.get?_set (m : List (Nat × α)) (k j : Nat) (v : α) :
    Map.get? (Map.set m k v) j = if j = k then some v else Map.get? m j := by
  induction m with
  | nil => simp [Map.set, Map.get?, eq_comm]
  | cons p t ih =>
    obtain ⟨i, w⟩ := p
    simp only [Map.set]
    split
    · simp only [Map.get?, eq_comm]
    · split
      · rename_i h1 h2
        subst h2
        simp only [Map.get?, eq_comm]
        split <;> rfl
      · rename_i h1 h2
        simp only [Map.get?, ih]
        split
        · rename_i h3
          rw [if_neg]
          omega
        · rfl

@[simp] theorem Map.get?_erase (m : List (Nat × α)) (k j : Nat) :
    Map.get? (Map.erase m k) j = if j = k then none else Map.get? m j := by
  induction m with
  | nil => simp [Map.erase, Map.get?]
  | cons p t ih =>
    obtain ⟨i, w⟩ := p
    simp only [Map.erase] at ih ⊢
    simp only [List.filter_cons]
    split
    · rename_i h
      simp only [bne_iff_ne, ne_eq] at h
      simp only [Map.get?, ih]
      split
      · rename_i h3
        rw [if_neg]
        omega
      · rfl
    · rename_i h
      simp only [bne_iff_ne, ne_eq, Decidable.not_not] at h
      rw [ih]
      simp only [Map.get?]
      split
      · rfl
      · rw [if_neg]
        omega

@[simp] theorem Map.getD_set (m : List (Nat × α)) (k j : Nat) (v d : α) :
    Map.getD (Map.set m k v) j d = if j = k then v else Map.getD m j d := by
  simp only [Map.getD, Map.get?_set]
  split <;> rfl

/-- A read after a write, where what is not listed reads `d`. -/
@[simp] theorem Map.getD_put [DecidableEq α] (m : List (Nat × α)) (k j : Nat) (d v : α) :
    Map.getD (Map.put m k d v) j d = if j = k then v else Map.getD m j d := by
  unfold Map.put
  split
  · rename_i h
    subst h
    simp only [Map.getD, Map.get?_erase]
    split <;> rfl
  · exact Map.getD_set m k j v d

@[simp] theorem Map.get?_mod (m : List (Nat × α)) (k j : Nat) (f : α → α) :
    Map.get? (Map.mod m k f) j = if j = k then (Map.get? m j).map f else Map.get? m j := by
  induction m with
  | nil => simp [Map.mod, Map.get?]
  | cons p t ih =>
    obtain ⟨i, w⟩ := p
    simp only [Map.mod, List.map_cons] at ih ⊢
    by_cases h : i = k
    · subst h
      simp only [if_true, Map.get?]
      by_cases h2 : i = j
      · subst h2; simp
      · simp only [if_neg h2, ih]
    · simp only [if_neg h, Map.get?]
      by_cases h2 : i = j
      · subst h2; simp [h]
      · simp only [if_neg h2, ih]

/-- Keys rise strictly exactly when each key lies below every later one. -/
theorem Map.rising_cons (p : Nat × α) (t : List (Nat × α)) :
    Map.rising (p :: t) = true ↔ (∀ q ∈ t, p.1 < q.1) ∧ Map.rising t = true := by
  induction t generalizing p with
  | nil => simp [Map.rising]
  | cons q u ih =>
    obtain ⟨i, w⟩ := p
    obtain ⟨j, x⟩ := q
    simp only [Map.rising, Bool.and_eq_true, decide_eq_true_eq, List.mem_cons, forall_eq_or_imp]
    constructor
    · rintro ⟨h1, h2⟩
      refine ⟨⟨h1, fun q hq => ?_⟩, h2⟩
      exact Nat.lt_trans h1 ((ih (j, x)).1 h2 |>.1 q hq)
    · rintro ⟨⟨h1, _⟩, h2⟩
      exact ⟨h1, h2⟩

theorem Map.mem_set {m : List (Nat × α)} {k : Nat} {v : α} {q : Nat × α} (h : q ∈ Map.set m k v) :
    q = (k, v) ∨ q ∈ m := by
  induction m with
  | nil => simpa [Map.set] using h
  | cons p t ih =>
    obtain ⟨i, w⟩ := p
    simp only [Map.set] at h
    split at h
    · simpa using h
    · split at h
      · simp only [List.mem_cons] at h ⊢
        exact h.imp id .inr
      · simp only [List.mem_cons] at h ⊢
        rcases h with h | h
        · exact .inr (.inl h)
        · exact (ih h).imp id .inr

theorem Map.rising_set {m : List (Nat × α)} {k : Nat} {v : α} (h : Map.rising m = true) :
    Map.rising (Map.set m k v) = true := by
  induction m with
  | nil => rfl
  | cons p t ih =>
    obtain ⟨i, w⟩ := p
    have h' := (Map.rising_cons _ _).1 h
    simp only [Map.set]
    split
    · rename_i hk
      refine (Map.rising_cons _ _).2 ⟨fun q hq => ?_, h⟩
      rcases List.mem_cons.1 hq with rfl | hq
      · exact hk
      · exact Nat.lt_trans hk (h'.1 q hq)
    · split
      · rename_i hk
        subst hk
        exact (Map.rising_cons _ _).2 h'
      · refine (Map.rising_cons _ _).2 ⟨fun q hq => ?_, ih h'.2⟩
        rcases Map.mem_set hq with rfl | hq
        · show i < k
          omega
        · exact h'.1 q hq

theorem Map.rising_filter {m : List (Nat × α)} {f : Nat × α → Bool} (h : Map.rising m = true) :
    Map.rising (m.filter f) = true := by
  induction m with
  | nil => rfl
  | cons p t ih =>
    have h' := (Map.rising_cons _ _).1 h
    simp only [List.filter_cons]
    split
    · exact (Map.rising_cons _ _).2 ⟨fun q hq => h'.1 q (List.mem_filter.1 hq).1, ih h'.2⟩
    · exact ih h'.2

theorem Map.rising_erase {m : List (Nat × α)} {k : Nat} (h : Map.rising m = true) :
    Map.rising (Map.erase m k) = true := Map.rising_filter h

theorem Map.rising_put [DecidableEq α] {m : List (Nat × α)} {k : Nat} {d v : α} (h : Map.rising m = true) :
    Map.rising (Map.put m k d v) = true := by
  unfold Map.put
  split
  · exact Map.rising_erase h
  · exact Map.rising_set h

/-- Writing one byte keeps the canonical form. -/
theorem Memory.wf_put {m : List (Nat × BitVec 8)} (h : Memory.wf m = true) (k : Nat) (v : BitVec 8) :
    Memory.wf (Map.put m k 0#8 v) = true := by
  simp only [Memory.wf, Bool.and_eq_true, List.all_eq_true, bne_iff_ne, ne_eq] at h ⊢
  refine ⟨Map.rising_put h.1, fun q hq => ?_⟩
  unfold Map.put at hq
  split at hq
  · exact h.2 q (List.mem_filter.1 hq).1
  · rename_i hv
    rcases Map.mem_set hq with rfl | hq
    · exact hv
    · exact h.2 q hq

/-- Writing bytes of a number keeps the canonical form. -/
theorem Memory.wf_ramWrite {m : List (Nat × BitVec 8)} (h : Memory.wf m = true) (k n x : Nat) :
    Memory.wf (ramWrite m k n x) = true := by
  induction n generalizing m k x with
  | zero => exact h
  | succ n ih => exact ih (Memory.wf_put h k _) (k + 1) (x / 256)

/-- A masked write of a line keeps the canonical form. -/
theorem Memory.wf_writeMasked {m : List (Nat × BitVec 8)} (h : Memory.wf m = true) (k : Nat) (data : BitVec 512)
    (mask : Word64) : Memory.wf (writeMasked m k data mask) = true := by
  unfold writeMasked
  generalize List.range 64 = l
  induction l generalizing m with
  | nil => exact h
  | cons i t ih =>
    simp only [List.foldl_cons]
    split
    · exact ih (Memory.wf_put h _ _)
    · exact ih h

/-- A write of `n` bytes leaves every byte outside them. -/
theorem ramWrite_outside (m : List (Nat × BitVec 8)) (k n x a : Nat) (h : a < k ∨ k + n ≤ a) :
    Map.getD (ramWrite m k n x) a 0#8 = Map.getD m a 0#8 := by
  induction n generalizing m k x with
  | zero => rfl
  | succ n ih =>
    simp only [ramWrite]
    rw [ih _ _ _ (by omega), Map.getD_put, if_neg (by omega)]

/-- What `pickBelow` takes is below the bound and allowed. -/
theorem pickBelow_ok {n k d x : Nat} {ok : Nat → Bool} (h : pickBelow n k d ok = some x) : x < n ∧ ok x = true := by
  unfold pickBelow at h
  split at h
  · cases h
  · split at h
    · cases h
      exact ⟨Nat.mod_lt _ (by omega), ‹_›⟩
    · have hx := List.mem_of_find?_eq_some h
      simp only [List.mem_range] at hx
      exact ⟨by omega, List.find?_some h⟩

/-- Any allowed number below the bound is taken for some free value. -/
theorem pickBelow_any {n k x : Nat} {ok : Nat → Bool} (hx : x < n) (hk : ok x = true) :
    pickBelow n k x ok = some x := by
  unfold pickBelow
  rw [Nat.mod_eq_of_lt hx, if_neg (by omega), if_pos hk]

/-- Where an allowed number is in reach of the search, one is taken. -/
theorem pickBelow_isSome {n k d x : Nat} {ok : Nat → Bool} (hn : x < n) (hk : x < k) (ho : ok x = true) :
    (pickBelow n k d ok).isSome = true := by
  unfold pickBelow
  rw [if_neg (by omega)]
  split
  · rfl
  · exact List.find?_isSome.2 ⟨x, List.mem_range.2 (by omega), ho⟩

/-- A number is a key exactly where it is listed. -/
theorem Map.has_iff_mem (m : List (Nat × α)) (k : Nat) : Map.has m k = true ↔ k ∈ m.map (·.1) := by
  induction m with
  | nil => simp [Map.has, Map.get?]
  | cons p t ih =>
    obtain ⟨j, v⟩ := p
    simp only [Map.has, Map.get?, List.map_cons, List.mem_cons] at ih ⊢
    split
    · simp_all
    · rw [ih]; exact ⟨.inr, fun h => h.resolve_left (fun h => absurd h.symm ‹_›)⟩

/-- What `pickFree` takes lies in the range and is no key. -/
theorem Map.pickFree_free {m : List (Nat × α)} {lo n d x : Nat} (h : Map.pickFree m lo n d = some x) :
    lo ≤ x ∧ x < lo + n ∧ Map.get? m x = none := by
  unfold Map.pickFree at h
  obtain ⟨y, hy, rfl⟩ := Option.map_eq_some_iff.1 h
  have := pickBelow_ok hy
  simp only [Map.has, Bool.not_eq_true', Option.isSome_eq_false_iff, Option.isNone_iff_eq_none] at this
  exact ⟨by omega, by omega, this.2⟩

/-- `pickFree` finds a number exactly where one is free. -/
theorem Map.pickFree_isSome {m : List (Nat × α)} {lo n d : Nat} :
    (Map.pickFree m lo n d).isSome = true ↔ ∃ x, x < n ∧ Map.get? m (lo + x) = none := by
  constructor
  · intro h
    obtain ⟨x, hx⟩ := Option.isSome_iff_exists.1 h
    have hf := Map.pickFree_free hx
    exact ⟨x - lo, by omega, by rw [Nat.add_sub_cancel' hf.1]; exact hf.2.2⟩
  · rintro ⟨x, hx, hg⟩
    unfold Map.pickFree pickBelow
    rw [if_neg (by omega)]
    split
    · rfl
    · rw [Option.isSome_map, List.find?_isSome]
      by_cases hn : n ≤ m.length + 1
      · exact ⟨x, List.mem_range.2 (by omega), by simp [Map.has, hg]⟩
      · apply Classical.byContradiction
        intro hc
        have hs : (List.range' lo (m.length + 1)) ⊆ m.map (·.1) := by
          intro y hy
          rw [← Map.has_iff_mem]
          apply Classical.byContradiction
          intro hb
          have hy := List.mem_range'_1.1 hy
          exact hc ⟨y - lo, List.mem_range.2 (by omega), by rw [Nat.add_sub_cancel' hy.1]; simpa using hb⟩
        have := (List.nodup_range' : (List.range' lo (m.length + 1)).Nodup).length_le_of_subset hs
        rw [List.length_range', List.length_map] at this
        omega

end Sys2Proof.Machine
end

