-- ==== Sys2Proof/Laws/Keeps.lean ====
section
/-! SUPPORT. The rules of `State.Rel`, by which the lemmas of Laws/KeepsShared.lean and the files after it are proved: a function
keeps of a state what no command changes, and (with `b`) what a steady one leaves alone. -/

namespace Sys2Proof.Machine

/-- From `s` to `t`, what no command changes is kept; with `b`, what a steady one leaves alone as well. -/
structure State.Rel (b : Bool) (s t : State) : Prop where
  keeps : s.Keeps t
  steady : b = true → s.Steady t

variable {b : Bool} {s₀ s t : State}

theorem State.rel_refl : s.Rel b s := ⟨⟨rfl, rfl, id, id⟩, fun _ => ⟨rfl, rfl, rfl, rfl⟩⟩

theorem State.rel_weak (h : s.Rel b t) : s.Rel false t := ⟨h.keeps, by simp⟩

/-- A state that differs in none of the parts that the relation speaks of. -/
theorem State.rel_of_eq (h : s₀.Rel b s) (h1 : t.part = s.part) (h2 : t.pending = s.pending) (h3 : t.regs = s.regs)
    (h4 : t.ram.cells = s.ram.cells) (h5 : b = true → t.now = s.now ∧ t.kept = s.kept) : s₀.Rel b t := by
  obtain ⟨⟨a1, a2, a3, a4⟩, a5⟩ := h
  refine ⟨⟨by rw [h1, a1], by rw [h2, a2], ?_, ?_⟩, fun e => ?_⟩
  · unfold State.regsOk at *; rw [h3]; exact a3
  · unfold State.memOk at *; rw [h4]; exact a4
  · have h6 := h5 e
    have a6 := a5 e
    exact ⟨by rw [h6.1, a6.time], by rw [h6.2, a6.kept], by rw [h4, a6.bytes], by rw [h1, a6.part]⟩

/-- A record update that leaves the parts of the relation alone. -/
theorem State.rel_mk {draws req flt rt lnk pwr tim xpt obj inj hpt xlt mat atu col cnt mgt lastRead} :
    s₀.Rel b ⟨s.part, s.now, draws, s.regs, req, flt, rt, lnk, pwr, tim, xpt, obj, inj, hpt, xlt, mat, s.ram, atu, col, cnt, mgt,
      s.kept, lastRead, s.pending⟩ ↔ s₀.Rel b s :=
  ⟨fun h => State.rel_of_eq h rfl rfl rfl rfl fun _ => ⟨rfl, rfl⟩,
   fun h => State.rel_of_eq h rfl rfl rfl rfl fun _ => ⟨rfl, rfl⟩⟩

/-- A record update that changes of `ram` other things than its bytes. -/
theorem State.rel_mk_ram {poisoned unc hot copies draws req flt rt lnk pwr tim xpt obj inj hpt xlt mat atu col cnt mgt
    lastRead} :
    s₀.Rel b ⟨s.part, s.now, draws, s.regs, req, flt, rt, lnk, pwr, tim, xpt, obj, inj, hpt, xlt, mat,
      ⟨s.ram.cells, poisoned, unc, hot, copies⟩, atu, col, cnt, mgt, s.kept, lastRead, s.pending⟩ ↔ s₀.Rel b s :=
  ⟨fun h => State.rel_of_eq h rfl rfl rfl rfl fun _ => ⟨rfl, rfl⟩,
   fun h => State.rel_of_eq h rfl rfl rfl rfl fun _ => ⟨rfl, rfl⟩⟩

/-- A record update that changes fabric time or what a replay can still take. -/
theorem State.rel_mk_time {now kept draws req flt rt lnk pwr tim xpt obj inj hpt xlt mat atu col cnt mgt lastRead} :
    s₀.Rel false ⟨s.part, now, draws, s.regs, req, flt, rt, lnk, pwr, tim, xpt, obj, inj, hpt, xlt, mat, s.ram, atu, col, cnt,
      mgt, kept, lastRead, s.pending⟩ ↔ s₀.Rel false s :=
  ⟨fun h => State.rel_of_eq h rfl rfl rfl rfl (by simp), fun h => State.rel_of_eq h rfl rfl rfl rfl (by simp)⟩

/-- A record update that writes bytes of the memory. -/
theorem State.rel_mk_write (h : s₀.Rel false s) {k n x poisoned unc hot copies draws req flt rt lnk pwr tim xpt obj inj hpt xlt
    mat atu col cnt mgt lastRead} :
    s₀.Rel false ⟨s.part, s.now, draws, s.regs, req, flt, rt, lnk, pwr, tim, xpt, obj, inj, hpt, xlt, mat,
      ⟨ramWrite s.ram.cells k n x, poisoned, unc, hot, copies⟩, atu, col, cnt, mgt, s.kept, lastRead, s.pending⟩ :=
  ⟨⟨h.keeps.fuses, h.keeps.pending, h.keeps.regsOk, fun w => Memory.wf_ramWrite (h.keeps.memOk w) k n x⟩, by simp⟩

theorem State.rel_foldl {α : Type} {f : State → α → State} {l : List α}
    (hf : ∀ s a, s₀.Rel b s → s₀.Rel b (f s a)) (h : s₀.Rel b s) : s₀.Rel b (l.foldl f s) := by
  induction l generalizing s with
  | nil => exact h
  | cons a t ih => exact ih (hf s a h)

/-- A fold that carries something beside the state. -/
theorem State.rel_foldl_fst {α β : Type} {f : State × β → α → State × β} {l : List α}
    (hf : ∀ a x, s₀.Rel b a.1 → s₀.Rel b (f a x).1) {a : State × β} (h : s₀.Rel b a.1) : s₀.Rel b (l.foldl f a).1 := by
  induction l generalizing a with
  | nil => exact h
  | cons x t ih => exact ih (hf a x h)

theorem State.rel_fst {α : Type} {p : State × α} {a : α} (e : p = (t, a)) (h : s₀.Rel b p.1) : s₀.Rel b t := by
  rw [e] at h; exact h

/-- The state of a placement that is done or waits. -/
def CollPlace.st : CollPlace → State
  | .done s => s
  | .wait s => s

theorem CollPlace.st_done : (CollPlace.done s).st = s := rfl

theorem CollPlace.st_wait : (CollPlace.wait s).st = s := rfl

theorem State.rel_done {p : CollPlace} (e : p = .done t) (h : s₀.Rel b p.st) : s₀.Rel b t := by
  rw [e] at h; exact h

theorem State.rel_wait {p : CollPlace} (e : p = .wait t) (h : s₀.Rel b p.st) : s₀.Rel b t := by
  rw [e] at h; exact h

theorem State.rel_some {p : Option State} (e : p = some t) (h : ∀ u, p = some u → s₀.Rel b u) : s₀.Rel b t := h t e

theorem State.rel_ite {c : Prop} [Decidable c] (h : s₀.Rel b s) (h' : s₀.Rel b t) : s₀.Rel b (if c then s else t) := by
  split
  · exact h
  · exact h'

theorem State.rel_ite_st {c : Prop} [Decidable c] {x y : AdminRun} (h : s₀.Rel b x.st) (h' : s₀.Rel b y.st) :
    s₀.Rel b (if c then x else y).st := by
  split
  · exact h
  · exact h'

end Sys2Proof.Machine
end

