-- ==== Sys2Proof/Laws/KeepsShared.lean ====
section
/-! SUPPORT. What the model's functions keep of a state (`State.Rel`), one lemma each: the shared operations of registers, faults, links, routes, time, power, hosts, queues and agreement. -/

set_option linter.unusedSimpArgs false

namespace Sys2Proof.Machine

open Host (Outcome)

theorem State.wr_rel {b_ : Bool} {s₀ : State} (s : State) (a : Nat) (w : Word) (h_s : s₀.Rel b_ s) :
    s₀.Rel b_ (State.wr s a w) := by
  exact ⟨⟨h_s.keeps.fuses, h_s.keeps.pending, fun w => Map.rising_put (h_s.keeps.regsOk w), h_s.keeps.memOk⟩,
    fun e => ⟨(h_s.steady e).time, (h_s.steady e).kept, (h_s.steady e).bytes, (h_s.steady e).part⟩⟩

theorem State.wr64_rel {b_ : Bool} {s₀ : State} (s : State) (a : Nat) (v : Word64) (h_s : s₀.Rel b_ s) :
    s₀.Rel b_ (State.wr64 s a v) := by
  unfold State.wr64
  repeat'
    first
    | with_reducible assumption
    | with_reducible apply State.wr_rel
    | dsimp only

theorem State.setFld_rel {b_ : Bool} {s₀ : State} (s : State) (f : Fld) (n : Nat) (h_s : s₀.Rel b_ s) :
    s₀.Rel b_ (State.setFld s f n) := by
  unfold State.setFld
  repeat'
    first
    | with_reducible assumption
    | with_reducible apply State.wr_rel
    | dsimp only

theorem State.setFlag_rel {b_ : Bool} {s₀ : State} (s : State) (f : Fld) (b : Bool) (h_s : s₀.Rel b_ s) :
    s₀.Rel b_ (State.setFlag s f b) := by
  unfold State.setFlag
  repeat'
    first
    | with_reducible assumption
    | with_reducible apply State.setFld_rel
    | dsimp only

theorem State.bump_rel {b_ : Bool} {s₀ : State} (s : State) (a : Nat) (h_s : s₀.Rel b_ s) :
    s₀.Rel b_ (State.bump s a) := by
  unfold State.bump
  repeat'
    first
    | with_reducible assumption
    | with_reducible apply State.wr_rel
    | dsimp only

theorem State.bumpBy_rel {b_ : Bool} {s₀ : State} (s : State) (a n : Nat) (h_s : s₀.Rel b_ s) :
    s₀.Rel b_ (State.bumpBy s a n) := by
  unfold State.bumpBy
  repeat'
    first
    | with_reducible assumption
    | with_reducible apply State.wr_rel
    | dsimp only

theorem State.bumpSat_rel {b_ : Bool} {s₀ : State} (s : State) (a : Nat) (h_s : s₀.Rel b_ s) :
    s₀.Rel b_ (State.bumpSat s a) := by
  unfold State.bumpSat
  repeat'
    first
    | with_reducible assumption
    | with_reducible apply State.wr_rel
    | dsimp only

theorem State.drawn_rel {b_ : Bool} {s₀ : State} (s : State) (h_s : s₀.Rel b_ s) :
    s₀.Rel b_ (State.drawn s) := by
  unfold State.drawn
  repeat'
    first
    | with_reducible assumption
    | simp only [State.rel_mk]

theorem State.setup_rel {b_ : Bool} {s₀ : State} (s t : State) (h_s : s₀.Rel b_ s) (h_t : s₀.Rel b_ t) :
    s₀.Rel b_ (State.setup s t) := by
  unfold State.setup
  repeat'
    first
    | with_reducible assumption
    | split
    | dsimp only

theorem State.occur_rel {b_ : Bool} {s₀ : State} (s : State) (b ev : Nat) (subs : List Nat) (n : Nat) (h_s : s₀.Rel b_ s) :
    s₀.Rel b_ (State.occur s b ev subs n) := by
  unfold State.occur
  repeat'
    first
    | with_reducible assumption
    | simp only [State.rel_mk]
    | with_reducible apply State.rel_foldl
    | intro _
    | split

theorem State.occurCtl_rel {b_ : Bool} {s₀ : State} (s : State) (ev : Nat) (h_s : s₀.Rel b_ s) :
    s₀.Rel b_ (State.occurCtl s ev) := by
  unfold State.occurCtl
  repeat'
    first
    | with_reducible assumption
    | with_reducible apply State.occur_rel
    | dsimp only

theorem State.countInst_rel {b_ : Bool} {s₀ : State} (s : State) (i j n : Nat) (h_s : s₀.Rel b_ s) :
    s₀.Rel b_ (State.countInst s i j n) := by
  unfold State.countInst
  repeat'
    first
    | with_reducible assumption
    | simp only [State.rel_mk]
    | split

theorem State.clearInstCounters_rel {b_ : Bool} {s₀ : State} (s : State) (i : Nat) (h_s : s₀.Rel b_ s) :
    s₀.Rel b_ (State.clearInstCounters s i) := by
  unfold State.clearInstCounters
  repeat'
    first
    | with_reducible assumption
    | simp only [State.rel_mk]

theorem State.sampleLatency_rel {b_ : Bool} {s₀ : State} (s : State) (i c l : Nat) (h_s : s₀.Rel b_ s) :
    s₀.Rel b_ (State.sampleLatency s i c l) := by
  unfold State.sampleLatency
  repeat'
    first
    | with_reducible assumption
    | with_reducible apply State.occur_rel
    | simp only [State.rel_mk]

theorem State.setLanes_rel {b_ : Bool} {s₀ : State} (s : State) (f : Nat → Fld) (n : Nat) (ls : List Nat) (h_s : s₀.Rel b_ s) :
    s₀.Rel b_ (State.setLanes s f n ls) := by
  unfold State.setLanes
  repeat'
    first
    | with_reducible assumption
    | with_reducible apply State.setFld_rel
    | with_reducible apply State.rel_foldl
    | intro _
    | dsimp only

theorem State.setLinkState_rel {b_ : Bool} {s₀ : State} (s : State) (p n : Nat) (h_s : s₀.Rel b_ s) :
    s₀.Rel b_ (State.setLinkState s p n) := by
  unfold State.setLinkState
  repeat'
    first
    | with_reducible assumption
    | with_reducible apply State.setLanes_rel
    | dsimp only

theorem State.setLinkPhase_rel {b_ : Bool} {s₀ : State} (s : State) (p n : Nat) (h_s : s₀.Rel b_ s) :
    s₀.Rel b_ (State.setLinkPhase s p n) := by
  unfold State.setLinkPhase
  repeat'
    first
    | with_reducible assumption
    | with_reducible apply State.setLanes_rel
    | dsimp only

theorem State.modLink_rel {b_ : Bool} {s₀ : State} (s : State) (p : Nat) (f : Link → Link) (h_s : s₀.Rel b_ s) :
    s₀.Rel b_ (State.modLink s p f) := by
  unfold State.modLink
  repeat'
    first
    | with_reducible assumption
    | simp only [State.rel_mk]

theorem State.modLane_rel {b_ : Bool} {s₀ : State} (s : State) (l : Nat) (f : Lane → Lane) (h_s : s₀.Rel b_ s) :
    s₀.Rel b_ (State.modLane s l f) := by
  unfold State.modLane
  repeat'
    first
    | with_reducible assumption
    | simp only [State.rel_mk]

theorem State.say_rel {b_ : Bool} {s₀ : State} (s : State) (p : Nat) (w : LinkWord) (h_s : s₀.Rel b_ s) :
    s₀.Rel b_ (State.say s p w) := by
  unfold State.say
  repeat'
    first
    | with_reducible assumption
    | with_reducible apply State.modLink_rel
    | simp only [State.rel_mk]

theorem State.heard_rel {b_ : Bool} {s₀ : State} (s : State) (p : Nat) (w : LinkWord) (h_s : s₀.Rel b_ s) :
    s₀.Rel b_ (State.heard s p w) := by
  unfold State.heard
  repeat'
    first
    | with_reducible assumption
    | with_reducible apply State.modLink_rel
    | simp only [State.rel_mk]

theorem State.occurLane_rel {b_ : Bool} {s₀ : State} (s : State) (l ev n : Nat) (h_s : s₀.Rel b_ s) :
    s₀.Rel b_ (State.occurLane s l ev n) := by
  unfold State.occurLane
  repeat'
    first
    | with_reducible assumption
    | with_reducible apply State.occur_rel
    | dsimp only

theorem State.sendLinkDown_rel {b_ : Bool} {s₀ : State} (s : State) (p : Nat) (h_s : s₀.Rel b_ s) :
    s₀.Rel b_ (State.sendLinkDown s p) := by
  unfold State.sendLinkDown
  repeat'
    first
    | with_reducible assumption
    | with_reducible apply State.modLink_rel
    | simp only [State.rel_mk]

theorem State.halt_rel {b_ : Bool} {s₀ : State} (s : State) (h_s : s₀.Rel b_ s) :
    s₀.Rel b_ (State.halt s) := by
  unfold State.halt
  repeat'
    first
    | with_reducible assumption
    | with_reducible apply State.sendLinkDown_rel
    | with_reducible apply State.setFlag_rel
    | with_reducible apply State.setLanes_rel
    | with_reducible apply State.setLinkState_rel
    | with_reducible apply State.rel_foldl
    | intro _
    | split
    | dsimp only

theorem State.signalInt_rel {b_ : Bool} {s₀ : State} (s : State) (blk r : Nat) (h_s : s₀.Rel b_ s) :
    s₀.Rel b_ (State.signalInt s blk r) := by
  unfold State.signalInt
  repeat'
    first
    | with_reducible assumption
    | simp only [State.rel_mk]
    | split

theorem State.startPulse_rel {b_ : Bool} {s₀ : State} (s : State) (h_s : s₀.Rel b_ s) :
    s₀.Rel b_ (State.startPulse s) := by
  unfold State.startPulse
  repeat'
    first
    | with_reducible assumption
    | with_reducible apply State.bumpSat_rel
    | simp only [State.rel_mk]

theorem State.signalPin_rel {b_ : Bool} {s₀ : State} (s : State) (r : Nat) (h_s : s₀.Rel b_ s) :
    s₀.Rel b_ (State.signalPin s r) := by
  unfold State.signalPin
  repeat'
    first
    | with_reducible assumption
    | with_reducible apply State.startPulse_rel
    | simp only [State.rel_mk]
    | split

theorem State.recordFirst_rel {b_ : Bool} {s₀ : State} (s : State) (blk i r info : Nat) (forced esc sticky : Bool) (h_s : s₀.Rel b_ s) :
    s₀.Rel b_ (State.recordFirst s blk i r info forced esc sticky) := by
  unfold State.recordFirst
  repeat'
    first
    | with_reducible assumption
    | with_reducible apply State.wr_rel
    | split
    | dsimp only

theorem State.setBit_rel {b_ : Bool} {s₀ : State} (s : State) (a i : Nat) (h_s : s₀.Rel b_ s) :
    s₀.Rel b_ (State.setBit s a i) := by
  unfold State.setBit
  repeat'
    first
    | with_reducible assumption
    | with_reducible apply State.wr_rel
    | dsimp only

theorem State.raiseCounted_rel {b_ : Bool} {s₀ : State} (s : State) (blk i info : Nat) (forced unack : Bool) (h_s : s₀.Rel b_ s) :
    s₀.Rel b_ (State.raiseCounted s blk i info forced unack) := by
  unfold State.raiseCounted
  repeat'
    first
    | with_reducible assumption
    | with_reducible apply State.bumpSat_rel
    | with_reducible apply State.halt_rel
    | with_reducible apply State.occur_rel
    | with_reducible apply State.recordFirst_rel
    | with_reducible apply State.setBit_rel
    | with_reducible apply State.setFlag_rel
    | with_reducible apply State.signalInt_rel
    | with_reducible apply State.signalPin_rel
    | simp only [State.rel_mk]
    | split

theorem State.raiseMerged_rel {b_ : Bool} {s₀ : State} (s : State) (blk i : Nat) (forced : Bool) (h_s : s₀.Rel b_ s) :
    s₀.Rel b_ (State.raiseMerged s blk i forced) := by
  unfold State.raiseMerged
  repeat'
    first
    | with_reducible assumption
    | with_reducible apply State.bumpSat_rel
    | with_reducible apply State.halt_rel
    | split
    | dsimp only

theorem State.raiseTogether_rel {b_ : Bool} {s₀ : State} (s : State) (blk : Nat) (is : List Nat) (info : Nat) (forced : Bool) (h_s : s₀.Rel b_ s) :
    s₀.Rel b_ (State.raiseTogether s blk is info forced) := by
  unfold State.raiseTogether
  repeat'
    first
    | with_reducible assumption
    | with_reducible apply State.raiseCounted_rel
    | with_reducible apply State.raiseMerged_rel
    | with_reducible apply State.setBit_rel
    | simp only [State.rel_mk]
    | with_reducible apply State.rel_foldl
    | intro _
    | split

theorem State.raiseWith_rel {b_ : Bool} {s₀ : State} (s : State) (blk i info : Nat) (forced unack : Bool) (h_s : s₀.Rel b_ s) :
    s₀.Rel b_ (State.raiseWith s blk i info forced unack) := by
  unfold State.raiseWith
  repeat'
    first
    | with_reducible assumption
    | with_reducible apply State.raiseCounted_rel
    | with_reducible apply State.raiseMerged_rel
    | with_reducible apply State.setBit_rel
    | simp only [State.rel_mk]
    | split

theorem State.raiseFault_rel {b_ : Bool} {s₀ : State} (s : State) (blk i info : Nat) (forced : Bool) (h_s : s₀.Rel b_ s) :
    s₀.Rel b_ (State.raiseFault s blk i info forced) := by
  unfold State.raiseFault
  repeat'
    first
    | with_reducible assumption
    | with_reducible apply State.raiseWith_rel
    | dsimp only

theorem State.raise_rel {b_ : Bool} {s₀ : State} (s : State) (blk i info : Nat) (h_s : s₀.Rel b_ s) :
    s₀.Rel b_ (State.raise s blk i info) := by
  unfold State.raise
  repeat'
    first
    | with_reducible assumption
    | with_reducible apply State.raiseFault_rel
    | dsimp only

theorem State.stand_rel {b_ : Bool} {s₀ : State} (s : State) (blk i : Nat) (h_s : s₀.Rel b_ s) :
    s₀.Rel b_ (State.stand s blk i) := by
  unfold State.stand
  repeat'
    first
    | with_reducible assumption
    | simp only [State.rel_mk]
    | split

theorem State.raiseStanding_rel {b_ : Bool} {s₀ : State} (s : State) (blk i info : Nat) (h_s : s₀.Rel b_ s) :
    s₀.Rel b_ (State.raiseStanding s blk i info) := by
  unfold State.raiseStanding
  repeat'
    first
    | with_reducible assumption
    | with_reducible apply State.raise_rel
    | with_reducible apply State.stand_rel
    | dsimp only

theorem State.endStanding_rel {b_ : Bool} {s₀ : State} (s : State) (blk i : Nat) (h_s : s₀.Rel b_ s) :
    s₀.Rel b_ (State.endStanding s blk i) := by
  unfold State.endStanding
  repeat'
    first
    | with_reducible assumption
    | simp only [State.rel_mk]

theorem State.clearStatus_rel {b_ : Bool} {s₀ : State} (s : State) (blk : Nat) (w : Word) (h_s : s₀.Rel b_ s) :
    s₀.Rel b_ (State.clearStatus s blk w) := by
  unfold State.clearStatus
  repeat'
    first
    | with_reducible assumption
    | with_reducible apply State.wr_rel
    | with_reducible apply State.rel_foldl
    | intro _
    | split
    | dsimp only

theorem State.clearUnack_rel {b_ : Bool} {s₀ : State} (s : State) (blk : Nat) (w : Word) (h_s : s₀.Rel b_ s) :
    s₀.Rel b_ (State.clearUnack s blk w) := by
  unfold State.clearUnack
  repeat'
    first
    | with_reducible assumption
    | with_reducible apply State.wr_rel
    | split
    | dsimp only

theorem State.clearFirst_rel {b_ : Bool} {s₀ : State} (s : State) (blk : Nat) (w : Word) (h_s : s₀.Rel b_ s) :
    s₀.Rel b_ (State.clearFirst s blk w) := by
  unfold State.clearFirst
  repeat'
    first
    | with_reducible assumption
    | with_reducible apply State.wr_rel
    | split
    | dsimp only

theorem State.resetFaultBlock_rel {b_ : Bool} {s₀ : State} (s : State) (blk : Nat) (h_s : s₀.Rel b_ s) :
    s₀.Rel b_ (State.resetFaultBlock s blk) := by
  unfold State.resetFaultBlock
  repeat'
    first
    | with_reducible assumption
    | with_reducible apply State.wr_rel
    | with_reducible apply State.rel_foldl
    | intro _
    | split
    | dsimp only

theorem State.setRepoch_rel {b_ : Bool} {s₀ : State} (s : State) (e n : Nat) (h_s : s₀.Rel b_ s) :
    s₀.Rel b_ (State.setRepoch s e n) := by
  unfold State.setRepoch
  repeat'
    first
    | with_reducible assumption
    | with_reducible apply State.setFld_rel
    | split
    | dsimp only

theorem State.release_rel {b_ : Bool} {s₀ : State} (s : State) (h : HeldCell) (h_s : s₀.Rel b_ s) :
    s₀.Rel b_ (State.release s h) := by
  unfold State.release
  repeat'
    first
    | with_reducible assumption
    | with_reducible apply State.modLink_rel
    | with_reducible apply State.say_rel
    | simp only [State.rel_mk]
    | split

theorem State.dropCell_rel {b_ : Bool} {s₀ : State} (s : State) (h : HeldCell) (a : Nat) (h_s : s₀.Rel b_ s) :
    s₀.Rel b_ (State.dropCell s h a) := by
  unfold State.dropCell
  repeat'
    first
    | with_reducible assumption
    | with_reducible apply State.bump_rel
    | with_reducible apply State.release_rel
    | dsimp only

theorem State.arrive_rel {b_ : Bool} {s₀ : State} (s : State) (c : Cell) (h_s : s₀.Rel b_ s) :
    s₀.Rel b_ (State.arrive s c) := by
  unfold State.arrive
  repeat'
    first
    | with_reducible assumption
    | with_reducible apply State.release_rel
    | simp only [State.rel_mk]
    | split

theorem State.inject_rel {b_ : Bool} {s₀ : State} (s : State) (c : Cell) (h_s : s₀.Rel b_ s) :
    s₀.Rel b_ (State.inject s c) := by
  unfold State.inject
  repeat'
    first
    | with_reducible assumption
    | simp only [State.rel_mk]

theorem State.enqueue_rel {b_ : Bool} {s₀ : State} (s : State) (p : Nat) (h : HeldCell) (detour : Bool) (h_s : s₀.Rel b_ s) :
    s₀.Rel b_ (State.enqueue s p h detour) := by
  unfold State.enqueue
  repeat'
    first
    | with_reducible assumption
    | simp only [State.rel_mk]
    | split

theorem State.dropNoPort_rel {b_ : Bool} {s₀ : State} (s : State) (h : HeldCell) (h_s : s₀.Rel b_ s) :
    s₀.Rel b_ (State.dropNoPort s h) := by
  unfold State.dropNoPort
  repeat'
    first
    | with_reducible assumption
    | with_reducible apply State.dropCell_rel
    | split
    | dsimp only

theorem State.pickPort_rel {b_ : Bool} {s₀ : State} (s : State) (h : HeldCell) (img : Nat) (h_s : s₀.Rel b_ s) :
    s₀.Rel b_ (State.pickPort s h img) := by
  unfold State.pickPort
  repeat'
    first
    | with_reducible assumption
    | with_reducible apply State.drawn_rel
    | with_reducible apply State.dropNoPort_rel
    | with_reducible apply State.enqueue_rel
    | split
    | dsimp only

theorem State.routeCell_rel {b_ : Bool} {s₀ : State} (s : State) (h : HeldCell) (h_s : s₀.Rel b_ s) :
    s₀.Rel b_ (State.routeCell s h) := by
  unfold State.routeCell
  repeat'
    first
    | with_reducible assumption
    | with_reducible apply State.dropCell_rel
    | with_reducible apply State.pickPort_rel
    | simp only [State.rel_mk]
    | split

theorem State.repickIf_rel {b_ : Bool} {s₀ : State} (s : State) (p : Nat) (gone : HeldCell → Bool) (h_s : s₀.Rel b_ s) :
    s₀.Rel b_ (State.repickIf s p gone) := by
  unfold State.repickIf
  repeat'
    first
    | with_reducible assumption
    | simp only [State.rel_mk]

theorem State.repick_rel {b_ : Bool} {s₀ : State} (s : State) (p : Nat) (h_s : s₀.Rel b_ s) :
    s₀.Rel b_ (State.repick s p) := by
  unfold State.repick
  repeat'
    first
    | with_reducible assumption
    | with_reducible apply State.repickIf_rel
    | dsimp only

theorem State.sendDrain_rel {b_ : Bool} {s₀ : State} (s : State) (e h : Nat) (h_s : s₀.Rel b_ s) :
    s₀.Rel b_ (State.sendDrain s e h) := by
  unfold State.sendDrain
  repeat'
    first
    | with_reducible assumption
    | with_reducible apply State.enqueue_rel
    | simp only [State.rel_mk]
    | with_reducible apply State.rel_foldl
    | intro _
    | split

theorem State.drainFromLevel_rel {b_ : Bool} {s₀ : State} (s : State) (e : Nat) (x0 : Nat) (x1 : Nat) (h_s : s₀.Rel b_ s) :
    s₀.Rel b_ (State.drainFromLevel s e x0 x1) := by
  induction x0 generalizing s e x1 with
  | zero =>
    unfold State.drainFromLevel
    repeat'
      first
      | with_reducible assumption
      | with_reducible apply State.sendDrain_rel
      | split
      | dsimp only
  | succ n_ ih_ =>
    unfold State.drainFromLevel
    repeat'
      first
      | with_reducible assumption
      | with_reducible apply State.sendDrain_rel
      | split
      | dsimp only
      | with_reducible apply ih_

theorem State.drainEpoch_rel {b_ : Bool} {s₀ : State} (s : State) (e : Nat) (h_s : s₀.Rel b_ s) :
    s₀.Rel b_ (State.drainEpoch s e) := by
  unfold State.drainEpoch
  repeat'
    first
    | with_reducible assumption
    | with_reducible apply State.drainFromLevel_rel
    | with_reducible apply State.setRepoch_rel
    | split
    | dsimp only

theorem State.drain_rel {b_ : Bool} {s₀ : State} (s : State) (h_s : s₀.Rel b_ s) :
    s₀.Rel b_ (State.drain s) := by
  unfold State.drain
  repeat'
    first
    | with_reducible assumption
    | with_reducible apply State.drainEpoch_rel
    | dsimp only

theorem State.dropStamped_rel {b_ : Bool} {s₀ : State} (s : State) (e : Nat) (h_s : s₀.Rel b_ s) :
    s₀.Rel b_ (State.dropStamped s e) := by
  unfold State.dropStamped
  repeat'
    first
    | with_reducible assumption
    | with_reducible apply State.dropCell_rel
    | simp only [State.rel_mk]
    | with_reducible apply State.rel_foldl
    | intro _

theorem State.startHoldover_rel {b_ : Bool} {s₀ : State} (s : State) (h_s : s₀.Rel b_ s) :
    s₀.Rel b_ (State.startHoldover s) := by
  unfold State.startHoldover
  repeat'
    first
    | with_reducible assumption
    | with_reducible apply State.setFld_rel
    | simp only [State.rel_mk]

theorem State.setTime_rel {b_ : Bool} {s₀ : State} (s : State) (n : Nat) (h_s : s₀.Rel b_ s) :
    s₀.Rel b_ (State.setTime s n) := by
  unfold State.setTime
  repeat'
    first
    | with_reducible assumption
    | with_reducible apply State.bump_rel
    | with_reducible apply State.endStanding_rel
    | with_reducible apply State.raiseStanding_rel
    | with_reducible apply State.setFld_rel
    | with_reducible apply State.startHoldover_rel
    | simp only [State.rel_mk]
    | split

theorem State.setGood_rel {b_ : Bool} {s₀ : State} (s : State) (n : Nat) (h_s : s₀.Rel b_ s) :
    s₀.Rel b_ (State.setGood s n) := by
  unfold State.setGood
  repeat'
    first
    | with_reducible assumption
    | with_reducible apply State.setFld_rel
    | dsimp only

theorem State.parentLost_rel {b_ : Bool} {s₀ : State} (s : State) (h_s : s₀.Rel b_ s) :
    s₀.Rel b_ (State.parentLost s) := by
  unfold State.parentLost
  repeat'
    first
    | with_reducible assumption
    | with_reducible apply State.setFlag_rel
    | with_reducible apply State.setGood_rel
    | with_reducible apply State.setTime_rel
    | simp only [State.rel_mk]
    | split

theorem State.parentCheck_rel {b_ : Bool} {s₀ : State} (s : State) (p : Nat) (h_s : s₀.Rel b_ s) :
    s₀.Rel b_ (State.parentCheck s p) := by
  unfold State.parentCheck
  repeat'
    first
    | with_reducible assumption
    | with_reducible apply State.parentLost_rel
    | split
    | dsimp only

theorem State.setSepoch_rel {b_ : Bool} {s₀ : State} (s : State) (e n : Nat) (h_s : s₀.Rel b_ s) :
    s₀.Rel b_ (State.setSepoch s e n) := by
  unfold State.setSepoch
  repeat'
    first
    | with_reducible assumption
    | with_reducible apply State.setFld_rel
    | split
    | dsimp only

theorem State.setXrec_rel {b_ : Bool} {s₀ : State} (s : State) (e n : Nat) (r : XRec) (h_s : s₀.Rel b_ s) :
    s₀.Rel b_ (State.setXrec s e n r) := by
  unfold State.setXrec
  repeat'
    first
    | with_reducible assumption
    | simp only [State.rel_mk]

theorem State.backupSwitch_rel {b_ : Bool} {s₀ : State} (s : State) (e n : Nat) (h_s : s₀.Rel b_ s) :
    s₀.Rel b_ (State.backupSwitch s e n) := by
  unfold State.backupSwitch
  repeat'
    first
    | with_reducible assumption
    | with_reducible apply State.bump_rel
    | with_reducible apply State.raise_rel
    | with_reducible apply State.raiseTogether_rel
    | with_reducible apply State.setXrec_rel
    | with_reducible apply State.stand_rel
    | simp only [State.rel_mk]
    | split

theorem State.backupFailed_rel {b_ : Bool} {s₀ : State} (s : State) (e n : Nat) (h_s : s₀.Rel b_ s) :
    s₀.Rel b_ (State.backupFailed s e n) := by
  unfold State.backupFailed
  repeat'
    first
    | with_reducible assumption
    | with_reducible apply State.raiseStanding_rel
    | with_reducible apply State.setXrec_rel
    | simp only [State.rel_mk]
    | split

theorem State.reportDown_rel {b_ : Bool} {s₀ : State} (s : State) (src e k p : Nat) (h_s : s₀.Rel b_ s) :
    s₀.Rel b_ (State.reportDown s src e k p) := by
  unfold State.reportDown
  repeat'
    first
    | with_reducible assumption
    | with_reducible apply State.drawn_rel
    | with_reducible apply State.inject_rel
    | split
    | dsimp only

theorem State.transitLinkLost_rel {b_ : Bool} {s₀ : State} (s : State) (p : Nat) (h_s : s₀.Rel b_ s) :
    s₀.Rel b_ (State.transitLinkLost s p) := by
  unfold State.transitLinkLost
  repeat'
    first
    | with_reducible assumption
    | with_reducible apply State.backupFailed_rel
    | with_reducible apply State.backupSwitch_rel
    | with_reducible apply State.reportDown_rel
    | simp only [State.rel_mk]
    | with_reducible apply State.rel_foldl
    | intro _
    | split

theorem State.rememberWindow_rel {b_ : Bool} {s₀ : State} (s : State) (p src e k : Nat) (h_s : s₀.Rel b_ s) :
    s₀.Rel b_ (State.rememberWindow s p src e k) := by
  unfold State.rememberWindow
  repeat'
    first
    | with_reducible assumption
    | simp only [State.rel_mk]

theorem State.markLater_rel {b_ : Bool} {s₀ : State} (s : State) (p t d : Nat) (h_s : s₀.Rel b_ s) :
    s₀.Rel b_ (State.markLater s p t d) := by
  unfold State.markLater
  repeat'
    first
    | with_reducible assumption
    | simp only [State.rel_mk]

theorem State.claimOutput_rel {b_ : Bool} {s₀ : State} (s : State) (p t : Nat) (c : Cell) (inp : Option Nat) (h_s : s₀.Rel b_ s) :
    ∀ t_, State.claimOutput s p t c inp = some t_ → s₀.Rel b_ t_ := by
  intro t_ e_
  unfold State.claimOutput at e_
  dsimp only at e_
  repeat' split at e_
  all_goals first
    | contradiction
    | (injection e_ with e_; subst e_)
  all_goals
  repeat'
    first
    | with_reducible assumption
    | simp only [State.rel_mk]
    | split

theorem State.modTile_rel {b_ : Bool} {s₀ : State} (s : State) (t : Nat) (f : TilePwr → TilePwr) (h_s : s₀.Rel b_ s) :
    s₀.Rel b_ (State.modTile s t f) := by
  unfold State.modTile
  repeat'
    first
    | with_reducible assumption
    | simp only [State.rel_mk]

theorem State.startPll_rel {b_ : Bool} {s₀ : State} (s : State) (h_s : s₀.Rel b_ s) :
    s₀.Rel b_ (State.startPll s) := by
  unfold State.startPll
  repeat'
    first
    | with_reducible assumption
    | simp only [State.rel_mk]
    | split

theorem State.startSeq_rel {b_ : Bool} {s₀ : State} (s : State) (t q target final cause : Nat) (h_s : s₀.Rel b_ s) :
    s₀.Rel b_ (State.startSeq s t q target final cause) := by
  unfold State.startSeq
  repeat'
    first
    | with_reducible assumption
    | with_reducible apply State.modTile_rel
    | with_reducible apply State.setFld_rel
    | simp only [State.rel_mk]
    | split

theorem State.startExit_rel {b_ : Bool} {s₀ : State} (s : State) (t final cause : Nat) (h_s : s₀.Rel b_ s) :
    s₀.Rel b_ (State.startExit s t final cause) := by
  unfold State.startExit
  repeat'
    first
    | with_reducible assumption
    | with_reducible apply State.startPll_rel
    | with_reducible apply State.startSeq_rel
    | split
    | dsimp only

theorem State.latchReq_rel {b_ : Bool} {s₀ : State} (s : State) (t r : Nat) (wake : Option Nat) (h_s : s₀.Rel b_ s) :
    s₀.Rel b_ (State.latchReq s t r wake) := by
  unfold State.latchReq
  repeat'
    first
    | with_reducible assumption
    | with_reducible apply State.bump_rel
    | with_reducible apply State.modTile_rel
    | with_reducible apply State.setFld_rel
    | simp only [State.rel_mk]
    | split

theorem State.wakeEvent_rel {b_ : Bool} {s₀ : State} (s : State) (t cause : Nat) (h_s : s₀.Rel b_ s) :
    s₀.Rel b_ (State.wakeEvent s t cause) := by
  unfold State.wakeEvent
  repeat'
    first
    | with_reducible assumption
    | with_reducible apply State.bump_rel
    | with_reducible apply State.latchReq_rel
    | with_reducible apply State.modTile_rel
    | with_reducible apply State.startExit_rel
    | simp only [State.rel_mk]
    | split

theorem State.wakeQueue_rel {b_ : Bool} {s₀ : State} (s : State) (q : Nat) (h_s : s₀.Rel b_ s) :
    s₀.Rel b_ (State.wakeQueue s q) := by
  unfold State.wakeQueue
  repeat'
    first
    | with_reducible assumption
    | with_reducible apply State.wakeEvent_rel
    | dsimp only

theorem State.needTile_rel {b_ : Bool} {s₀ : State} (s : State) (t : Nat) (h_s : s₀.Rel b_ s) :
    s₀.Rel b_ (State.needTile s t) := by
  unfold State.needTile
  repeat'
    first
    | with_reducible assumption
    | with_reducible apply State.wakeEvent_rel
    | split
    | dsimp only

theorem State.takeEngine_rel {b_ : Bool} {s₀ : State} (s : State) (x : EngTask) (h_s : s₀.Rel b_ s) :
    s₀.Rel b_ (State.takeEngine s x) := by
  unfold State.takeEngine
  repeat'
    first
    | with_reducible assumption
    | with_reducible apply State.occur_rel
    | simp only [State.rel_mk]
    | split

theorem State.dispatch_rel {b_ : Bool} {s₀ : State} (s : State) (t : Nat) (h_s : s₀.Rel b_ s) :
    s₀.Rel b_ (State.dispatch s t) := by
  unfold State.dispatch
  repeat'
    first
    | with_reducible assumption
    | with_reducible apply State.takeEngine_rel
    | with_reducible apply State.rel_foldl
    | intro _
    | dsimp only

theorem State.taskStart_rel {b_ : Bool} {s₀ : State} (s : State) (t : Nat) (k : TaskId) (h_s : s₀.Rel b_ s) :
    s₀.Rel b_ (State.taskStart s t k) := by
  unfold State.taskStart
  repeat'
    first
    | with_reducible assumption
    | with_reducible apply State.dispatch_rel
    | with_reducible apply State.drawn_rel
    | with_reducible apply State.needTile_rel
    | simp only [State.rel_mk]
    | split

theorem State.taskEnd_rel {b_ : Bool} {s₀ : State} (s : State) (k : TaskId) (h_s : s₀.Rel b_ s) :
    s₀.Rel b_ (State.taskEnd s k) := by
  unfold State.taskEnd
  repeat'
    first
    | with_reducible assumption
    | with_reducible apply State.dispatch_rel
    | simp only [State.rel_mk]
    | split

theorem State.taskOnce_rel {b_ : Bool} {s₀ : State} (s : State) (t : Nat) (h_s : s₀.Rel b_ s) :
    s₀.Rel b_ (State.taskOnce s t) := by
  unfold State.taskOnce
  repeat'
    first
    | with_reducible assumption
    | with_reducible apply State.occur_rel
    | dsimp only

theorem State.laneWake_rel {b_ : Bool} {s₀ : State} (s : State) (l cause : Nat) (h_s : s₀.Rel b_ s) :
    s₀.Rel b_ (State.laneWake s l cause) := by
  unfold State.laneWake
  repeat'
    first
    | with_reducible assumption
    | with_reducible apply State.wakeEvent_rel
    | split
    | dsimp only

theorem State.pllCheck_rel {b_ : Bool} {s₀ : State} (s : State) (h_s : s₀.Rel b_ s) :
    s₀.Rel b_ (State.pllCheck s) := by
  unfold State.pllCheck
  repeat'
    first
    | with_reducible assumption
    | with_reducible apply State.bump_rel
    | with_reducible apply State.setFld_rel
    | split
    | dsimp only

theorem State.modInst_rel {b_ : Bool} {s₀ : State} (s : State) (i : Nat) (f : Inst → Inst) (h_s : s₀.Rel b_ s) :
    s₀.Rel b_ (State.modInst s i f) := by
  unfold State.modInst
  repeat'
    first
    | with_reducible assumption
    | simp only [State.rel_mk]

theorem State.countIssued_rel {b_ : Bool} {s₀ : State} (s : State) (o : HostOut) (h_s : s₀.Rel b_ s) :
    s₀.Rel b_ (State.countIssued s o) := by
  unfold State.countIssued
  repeat'
    first
    | with_reducible assumption
    | with_reducible apply State.occur_rel
    | split
    | dsimp only

theorem State.sendOut_rel {b_ : Bool} {s₀ : State} (s : State) (o : HostOut) (h_s : s₀.Rel b_ s) :
    s₀.Rel b_ (State.sendOut s o) := by
  unfold State.sendOut
  repeat'
    first
    | with_reducible assumption
    | with_reducible apply State.countIssued_rel
    | simp only [State.rel_mk]
    | split

theorem State.issue_rel {b_ : Bool} {s₀ : State} (s : State) (o : HostOut) (h_s : s₀.Rel b_ s) :
    s₀.Rel b_ (State.issue s o) := by
  unfold State.issue
  repeat'
    first
    | with_reducible assumption
    | with_reducible apply State.sendOut_rel
    | simp only [State.rel_mk]
    | split

theorem State.freeLine_rel {b_ : Bool} {s₀ : State} (s : State) (p f addr : Nat) (word : Bool) (h_s : s₀.Rel b_ s) :
    s₀.Rel b_ (State.freeLine s p f addr word) := by
  unfold State.freeLine
  repeat'
    first
    | with_reducible assumption
    | with_reducible apply State.issue_rel
    | simp only [State.rel_mk]
    | split

theorem State.atomicUr_rel {b_ : Bool} {s₀ : State} (s : State) (p f : Nat) (h_s : s₀.Rel b_ s) :
    s₀.Rel b_ (State.atomicUr s p f) := by
  unfold State.atomicUr
  repeat'
    first
    | with_reducible assumption
    | with_reducible apply State.bump_rel
    | with_reducible apply State.raise_rel
    | dsimp only

theorem State.instWrite_rel {b_ : Bool} {s₀ : State} (s : State) (i addr len data : Nat) (h_s : s₀.Rel b_ s) :
    s₀.Rel b_ (State.instWrite s i addr len data) := by
  unfold State.instWrite
  repeat'
    first
    | with_reducible assumption
    | with_reducible apply State.issue_rel
    | dsimp only

theorem State.workWrite_rel {b_ : Bool} {s₀ : State} (s : State) (i count addr len data : Nat) (h_s : s₀.Rel b_ s) :
    s₀.Rel b_ (State.workWrite s i count addr len data) := by
  unfold State.workWrite
  repeat'
    first
    | with_reducible assumption
    | with_reducible apply State.instWrite_rel
    | simp only [State.rel_mk]
    | split

theorem State.chipWrite_rel {b_ : Bool} {s₀ : State} (s : State) (addr len data : Nat) (h_s : s₀.Rel b_ s) :
    s₀.Rel b_ (State.chipWrite s addr len data) := by
  unfold State.chipWrite
  repeat'
    first
    | with_reducible assumption
    | with_reducible apply State.issue_rel
    | dsimp only

theorem State.reissue_rel {b_ : Bool} {s₀ : State} (s : State) (key : Nat) (h_s : s₀.Rel b_ s) :
    s₀.Rel b_ (State.reissue s key) := by
  unfold State.reissue
  repeat'
    first
    | with_reducible assumption
    | with_reducible apply State.sendOut_rel
    | simp only [State.rel_mk]
    | with_reducible apply State.rel_foldl
    | intro _

theorem State.countGroup_rel {b_ : Bool} {s₀ : State} (s : State) (h_s : s₀.Rel b_ s) :
    s₀.Rel b_ (State.countGroup s) := by
  unfold State.countGroup
  repeat'
    first
    | with_reducible assumption
    | with_reducible apply State.occurCtl_rel
    | split
    | dsimp only

theorem State.jrnlInst_rel {b_ : Bool} {s₀ : State} (s : State) (i off len data : Nat) (h_s : s₀.Rel b_ s) :
    s₀.Rel b_ (State.jrnlInst s i off len data) := by
  unfold State.jrnlInst
  repeat'
    first
    | with_reducible assumption
    | with_reducible apply State.instWrite_rel
    | split
    | dsimp only

theorem State.jrnlChip_rel {b_ : Bool} {s₀ : State} (s : State) (off len data : Nat) (h_s : s₀.Rel b_ s) :
    s₀.Rel b_ (State.jrnlChip s off len data) := by
  unfold State.jrnlChip
  repeat'
    first
    | with_reducible assumption
    | with_reducible apply State.chipWrite_rel
    | split
    | dsimp only

theorem State.modConn_rel {b_ : Bool} {s₀ : State} (s : State) (h : Nat) (f : Conn → Conn) (h_s : s₀.Rel b_ s) :
    s₀.Rel b_ (State.modConn s h f) := by
  unfold State.modConn
  repeat'
    first
    | with_reducible assumption
    | simp only [State.rel_mk]

theorem State.jrnlConn_rel {b_ : Bool} {s₀ : State} (s : State) (h : Nat) (h_s : s₀.Rel b_ s) :
    s₀.Rel b_ (State.jrnlConn s h) := by
  unfold State.jrnlConn
  repeat'
    first
    | with_reducible assumption
    | with_reducible apply State.instWrite_rel
    | with_reducible apply State.jrnlInst_rel
    | split
    | dsimp only

theorem State.markSuspended_rel {b_ : Bool} {s₀ : State} (s : State) (p : Nat) (h_s : s₀.Rel b_ s) :
    s₀.Rel b_ (State.markSuspended s p) := by
  unfold State.markSuspended
  repeat'
    first
    | with_reducible assumption
    | with_reducible apply State.setFlag_rel
    | dsimp only

theorem State.markPorts_rel {b_ : Bool} {s₀ : State} (s : State) (h_s : s₀.Rel b_ s) :
    s₀.Rel b_ (State.markPorts s) := by
  unfold State.markPorts
  repeat'
    first
    | with_reducible assumption
    | with_reducible apply State.markSuspended_rel
    | with_reducible apply State.rel_foldl
    | intro _
    | split
    | dsimp only

theorem State.modQueue_rel {b_ : Bool} {s₀ : State} (s : State) (q : Nat) (f : Queue → Queue) (h_s : s₀.Rel b_ s) :
    s₀.Rel b_ (State.modQueue s q f) := by
  unfold State.modQueue
  repeat'
    first
    | with_reducible assumption
    | simp only [State.rel_mk]

theorem State.modSlot_rel {b_ : Bool} {s₀ : State} (s : State) (k : Nat) (f : Slot → Slot) (h_s : s₀.Rel b_ s) :
    s₀.Rel b_ (State.modSlot s k f) := by
  unfold State.modSlot
  repeat'
    first
    | with_reducible assumption
    | simp only [State.rel_mk]

theorem State.see_rel {b_ : Bool} {s₀ : State} (s : State) (v : View) (h_s : s₀.Rel b_ s) :
    s₀.Rel b_ (State.see s v) := by
  unfold State.see
  repeat'
    first
    | with_reducible assumption
    | with_reducible apply State.modQueue_rel
    | simp only [State.rel_mk]
    | with_reducible apply State.rel_foldl
    | intro _

theorem State.ringWrite_rel {b_ : Bool} {s₀ : State} (s : State) (q : Nat) (x : Queue) (count addr len data : Nat) (h_s : s₀.Rel b_ s) :
    s₀.Rel b_ (State.ringWrite s q x count addr len data) := by
  unfold State.ringWrite
  repeat'
    first
    | with_reducible assumption
    | with_reducible apply State.chipWrite_rel
    | with_reducible apply State.workWrite_rel
    | split
    | dsimp only

theorem State.writeCqe_rel {b_ : Bool} {s₀ : State} (s : State) (q : Nat) (c : Cqe) (h_s : s₀.Rel b_ s) :
    s₀.Rel b_ (State.writeCqe s q c) := by
  unfold State.writeCqe
  repeat'
    first
    | with_reducible assumption
    | with_reducible apply State.countInst_rel
    | with_reducible apply State.modQueue_rel
    | with_reducible apply State.occurCtl_rel
    | with_reducible apply State.ringWrite_rel
    | simp only [State.rel_mk]
    | split

theorem State.jrnlPos_rel {b_ : Bool} {s₀ : State} (s : State) (q : Nat) (h_s : s₀.Rel b_ s) :
    s₀.Rel b_ (State.jrnlPos s q) := by
  unfold State.jrnlPos
  repeat'
    first
    | with_reducible assumption
    | with_reducible apply State.jrnlInst_rel
    | split
    | dsimp only

theorem State.clearOwn_rel {b_ : Bool} {s₀ : State} (s : State) (q idx : Nat) (h_s : s₀.Rel b_ s) :
    s₀.Rel b_ (State.clearOwn s q idx) := by
  unfold State.clearOwn
  repeat'
    first
    | with_reducible assumption
    | with_reducible apply State.ringWrite_rel
    | split
    | dsimp only

theorem State.freeSlot_rel {b_ : Bool} {s₀ : State} (s : State) (k : Nat) (h_s : s₀.Rel b_ s) :
    s₀.Rel b_ (State.freeSlot s k) := by
  unfold State.freeSlot
  repeat'
    first
    | with_reducible assumption
    | with_reducible apply State.clearOwn_rel
    | with_reducible apply State.countGroup_rel
    | with_reducible apply State.jrnlInst_rel
    | with_reducible apply State.jrnlPos_rel
    | with_reducible apply State.modQueue_rel
    | simp only [State.rel_mk]
    | split

theorem State.aqRewind_rel {b_ : Bool} {s₀ : State} (s : State) (h_s : s₀.Rel b_ s) :
    s₀.Rel b_ (State.aqRewind s) := by
  unfold State.aqRewind
  repeat'
    first
    | with_reducible assumption
    | with_reducible apply State.modQueue_rel
    | simp only [State.rel_mk]

theorem State.aqSettle_rel {b_ : Bool} {s₀ : State} (s : State) (h_s : s₀.Rel b_ s) :
    s₀.Rel b_ (State.aqSettle s) := by
  unfold State.aqSettle
  repeat'
    first
    | with_reducible assumption
    | with_reducible apply State.aqRewind_rel
    | split
    | dsimp only

theorem State.aqStop_rel {b_ : Bool} {s₀ : State} (s : State) (h_s : s₀.Rel b_ s) :
    s₀.Rel b_ (State.aqStop s) := by
  unfold State.aqStop
  repeat'
    first
    | with_reducible assumption
    | with_reducible apply State.aqSettle_rel
    | with_reducible apply State.setFld_rel
    | dsimp only

theorem State.freeSrc_rel {b_ : Bool} {s₀ : State} (s : State) (src : CompSrc) (h_s : s₀.Rel b_ s) :
    s₀.Rel b_ (State.freeSrc s src) := by
  unfold State.freeSrc
  repeat'
    first
    | with_reducible assumption
    | with_reducible apply State.aqSettle_rel
    | with_reducible apply State.freeSlot_rel
    | with_reducible apply State.inherit_rel
    | with_reducible apply State.modQueue_rel
    | simp only [State.rel_mk]
    | split

theorem State.post_rel {b_ : Bool} {s₀ : State} (s : State) (q : Nat) (c : Cqe) (src : CompSrc) (h_s : s₀.Rel b_ s) :
    s₀.Rel b_ (State.post s q c src) := by
  unfold State.post
  repeat'
    first
    | with_reducible assumption
    | with_reducible apply State.bump_rel
    | with_reducible apply State.freeSrc_rel
    | with_reducible apply State.jrnlPos_rel
    | with_reducible apply State.modQueue_rel
    | with_reducible apply State.modSlot_rel
    | with_reducible apply State.writeCqe_rel
    | simp only [State.rel_mk]
    | split

theorem State.flushCq_rel {b_ : Bool} {s₀ : State} (s : State) (q : Nat) (x0 : Nat) (h_s : s₀.Rel b_ s) :
    s₀.Rel b_ (State.flushCq s q x0) := by
  induction x0 generalizing s q with
  | zero =>
    unfold State.flushCq
    repeat'
      first
      | with_reducible assumption
      | with_reducible apply State.freeSrc_rel
      | with_reducible apply State.jrnlPos_rel
      | with_reducible apply State.modQueue_rel
      | with_reducible apply State.writeCqe_rel
      | simp only [State.rel_mk]
      | split
  | succ n_ ih_ =>
    unfold State.flushCq
    repeat'
      first
      | with_reducible assumption
      | with_reducible apply State.freeSrc_rel
      | with_reducible apply State.jrnlPos_rel
      | with_reducible apply State.modQueue_rel
      | with_reducible apply State.writeCqe_rel
      | simp only [State.rel_mk]
      | split
      | with_reducible apply ih_

theorem State.countMatch_rel {b_ : Bool} {s₀ : State} (s : State) (h_s : s₀.Rel b_ s) :
    s₀.Rel b_ (State.countMatch s) := by
  unfold State.countMatch
  repeat'
    first
    | with_reducible assumption
    | with_reducible apply State.bump_rel
    | with_reducible apply State.occurCtl_rel
    | dsimp only

theorem State.sampleSlot_rel {b_ : Bool} {s₀ : State} (s : State) (k : Nat) (x : Slot) (status : Nat) (h_s : s₀.Rel b_ s) :
    s₀.Rel b_ (State.sampleSlot s k x status) := by
  unfold State.sampleSlot
  repeat'
    first
    | with_reducible assumption
    | with_reducible apply State.sampleLatency_rel
    | split
    | dsimp only

theorem State.completeSlot_rel {b_ : Bool} {s₀ : State} (s : State) (k status body : Nat) (h_s : s₀.Rel b_ s) :
    s₀.Rel b_ (State.completeSlot s k status body) := by
  unfold State.completeSlot
  repeat'
    first
    | with_reducible assumption
    | with_reducible apply State.freeSlot_rel
    | with_reducible apply State.post_rel
    | with_reducible apply State.sampleSlot_rel
    | split
    | dsimp only

theorem State.releaseDue_rel {b_ : Bool} {s₀ : State} (s : State) (q h : Nat) (x0 : Nat) (h_s : s₀.Rel b_ s) :
    s₀.Rel b_ (State.releaseDue s q h x0) := by
  induction x0 generalizing s q h with
  | zero =>
    unfold State.releaseDue
    repeat'
      first
      | with_reducible assumption
      | with_reducible apply State.completeSlot_rel
      | split
      | dsimp only
  | succ n_ ih_ =>
    unfold State.releaseDue
    repeat'
      first
      | with_reducible assumption
      | with_reducible apply State.completeSlot_rel
      | split
      | dsimp only
      | with_reducible apply ih_

theorem State.finishSlot_rel {b_ : Bool} {s₀ : State} (s : State) (k status body : Nat) (h_s : s₀.Rel b_ s) :
    s₀.Rel b_ (State.finishSlot s k status body) := by
  unfold State.finishSlot
  repeat'
    first
    | with_reducible assumption
    | with_reducible apply State.completeSlot_rel
    | with_reducible apply State.modSlot_rel
    | with_reducible apply State.releaseDue_rel
    | simp only [State.rel_mk]
    | split

theorem State.postIn_rel {b_ : Bool} {s₀ : State} (s : State) (q : Nat) (c : Cqe) (src : CompSrc) (h_s : s₀.Rel b_ s) :
    s₀.Rel b_ (State.postIn s q c src).1 := by
  unfold State.postIn
  repeat'
    first
    | with_reducible assumption
    | with_reducible apply State.modSlot_rel
    | with_reducible apply State.post_rel
    | with_reducible apply State.writeCqe_rel
    | simp only [State.rel_mk]
    | split

theorem State.finishIn_rel {b_ : Bool} {s₀ : State} (s : State) (k status body : Nat) (h_s : s₀.Rel b_ s) :
    s₀.Rel b_ (State.finishIn s k status body).1 := by
  unfold State.finishIn
  repeat'
    first
    | with_reducible assumption
    | with_reducible apply State.modSlot_rel
    | with_reducible apply State.postIn_rel
    | with_reducible apply State.sampleSlot_rel
    | simp only [State.rel_mk]
    | split
    | with_reducible refine State.rel_fst (by assumption) ?_

theorem State.endGroup_rel {b_ : Bool} {s₀ : State} (s : State) (l : List (Option Nat × CompSrc)) (h_s : s₀.Rel b_ s) :
    s₀.Rel b_ (State.endGroup s l) := by
  unfold State.endGroup
  repeat'
    first
    | with_reducible assumption
    | with_reducible apply State.freeSrc_rel
    | with_reducible apply State.jrnlPos_rel
    | with_reducible apply State.releaseDue_rel
    | with_reducible apply State.rel_foldl
    | intro _
    | split
    | dsimp only

theorem State.pollBudget_rel {b_ : Bool} {s₀ : State} (s : State) (h_s : s₀.Rel b_ s) :
    s₀.Rel b_ (State.pollBudget s) := by
  unfold State.pollBudget
  repeat'
    first
    | with_reducible assumption
    | with_reducible apply State.setFld_rel
    | with_reducible apply State.wr_rel
    | dsimp only

theorem State.setFloor_rel {b_ : Bool} {s₀ : State} (s : State) (q : Nat) (h_s : s₀.Rel b_ s) :
    s₀.Rel b_ (State.setFloor s q) := by
  unfold State.setFloor
  repeat'
    first
    | with_reducible assumption
    | with_reducible apply State.modQueue_rel
    | simp only [State.rel_mk]

theorem State.touch_rel {b_ : Bool} {s₀ : State} (s : State) (tile : Nat) (e : TlbEntry) (h_s : s₀.Rel b_ s) :
    s₀.Rel b_ (State.touch s tile e) := by
  unfold State.touch
  repeat'
    first
    | with_reducible assumption
    | simp only [State.rel_mk]
    | split

theorem State.xltFault_rel {b_ : Bool} {s₀ : State} (s : State) (tile i va status level : Nat) (write : Bool) (h_s : s₀.Rel b_ s) :
    s₀.Rel b_ (State.xltFault s tile i va status level write) := by
  unfold State.xltFault
  repeat'
    first
    | with_reducible assumption
    | with_reducible apply State.bump_rel
    | with_reducible apply State.wr_rel
    | with_reducible apply State.wr64_rel
    | split
    | dsimp only

theorem State.raiseMiss_rel {b_ : Bool} {s₀ : State} (s : State) (w : AccessId) (tile i va : Nat) (write : Bool) (h_s : s₀.Rel b_ s) :
    s₀.Rel b_ (State.raiseMiss s w tile i va write) := by
  unfold State.raiseMiss
  repeat'
    first
    | with_reducible assumption
    | with_reducible apply State.bump_rel
    | with_reducible apply State.occur_rel
    | with_reducible apply State.taskStart_rel
    | simp only [State.rel_mk]
    | split

theorem State.flagUpdate_rel {b_ : Bool} {s₀ : State} (s : State) (u : FlagUpdate) (h_s : s₀.Rel b_ s) :
    s₀.Rel b_ (State.flagUpdate s u).1 := by
  unfold State.flagUpdate
  repeat'
    first
    | with_reducible assumption
    | with_reducible apply State.atomicUr_rel
    | with_reducible apply State.issue_rel
    | with_reducible apply State.occur_rel
    | simp only [State.rel_mk]
    | split

theorem State.setDirty_rel {b_ : Bool} {s₀ : State} (s : State) (w : AccessId) (tile va : Nat) (e : TlbEntry) (h_s : s₀.Rel b_ s) :
    s₀.Rel b_ (State.setDirty s w tile va e).1 := by
  unfold State.setDirty
  repeat'
    first
    | with_reducible assumption
    | with_reducible apply State.flagUpdate_rel
    | simp only [State.rel_mk]
    | split
    | with_reducible refine State.rel_fst (by assumption) ?_

theorem State.failWaits_rel {b_ : Bool} {s₀ : State} (s : State) (m : Miss) (status : Nat) (h_s : s₀.Rel b_ s) :
    s₀.Rel b_ (State.failWaits s m status) := by
  unfold State.failWaits
  repeat'
    first
    | with_reducible assumption
    | simp only [State.rel_mk]

theorem State.touchRange_rel {b_ : Bool} {s₀ : State} (s : State) (tile i : Nat) (x0 : Nat) (x1 : Nat) (x2 : Nat) (h_s : s₀.Rel b_ s) :
    s₀.Rel b_ (State.touchRange s tile i x0 x1 x2) := by
  induction x0 generalizing s tile i x1 x2 with
  | zero =>
    unfold State.touchRange
    repeat'
      first
      | with_reducible assumption
      | with_reducible apply State.touch_rel
      | split
      | dsimp only
  | succ n_ ih_ =>
    unfold State.touchRange
    repeat'
      first
      | with_reducible assumption
      | with_reducible apply State.touch_rel
      | split
      | dsimp only
      | with_reducible apply ih_

theorem State.access_rel {b_ : Bool} {s₀ : State} (s : State) (w : AccessId) (tile i va n : Nat) (write : Bool) (h_s : s₀.Rel b_ s) :
    s₀.Rel b_ (State.access s w tile i va n write).1 := by
  unfold State.access
  repeat'
    first
    | with_reducible assumption
    | with_reducible apply State.raiseMiss_rel
    | with_reducible apply State.setDirty_rel
    | with_reducible apply State.touchRange_rel
    | with_reducible apply State.wakeEvent_rel
    | with_reducible apply State.xltFault_rel
    | simp only [State.rel_mk]
    | split
    | with_reducible refine State.rel_fst (by assumption) ?_

theorem State.lookKey_rel {b_ : Bool} {s₀ : State} (s : State) (h_s : s₀.Rel b_ s) :
    s₀.Rel b_ (State.lookKey s) := by
  unfold State.lookKey
  repeat'
    first
    | with_reducible assumption
    | with_reducible apply State.drawn_rel
    | simp only [State.rel_mk]

theorem State.logPage_rel {b_ : Bool} {s₀ : State} (s : State) (i addr log2 : Nat) (h_s : s₀.Rel b_ s) :
    s₀.Rel b_ (State.logPage s i addr log2) := by
  unfold State.logPage
  repeat'
    first
    | with_reducible assumption
    | with_reducible apply State.instWrite_rel
    | with_reducible apply State.modInst_rel
    | with_reducible apply State.setFld_rel
    | simp only [State.rel_mk]
    | split

theorem State.invalidate_rel {b_ : Bool} {s₀ : State} (s : State) (i va len : Nat) (h_s : s₀.Rel b_ s) :
    s₀.Rel b_ (State.invalidate s i va len) := by
  unfold State.invalidate
  repeat'
    first
    | with_reducible assumption
    | with_reducible apply State.bumpBy_rel
    | simp only [State.rel_mk]
    | split

theorem State.modAgree_rel {b_ : Bool} {s₀ : State} (s : State) (p : Nat) (f : Agree → Agree) (h_s : s₀.Rel b_ s) :
    s₀.Rel b_ (State.modAgree s p f) := by
  unfold State.modAgree
  repeat'
    first
    | with_reducible assumption
    | simp only [State.rel_mk]

theorem State.noteSent_rel {b_ : Bool} {s₀ : State} (s : State) (p T : Nat) (reply : Bool) (r0 : Nat) (h_s : s₀.Rel b_ s) :
    s₀.Rel b_ (State.noteSent s p T reply r0) := by
  unfold State.noteSent
  repeat'
    first
    | with_reducible assumption
    | with_reducible apply State.modAgree_rel
    | with_reducible apply State.take_rel
    | simp only [State.rel_mk]
    | split

theorem State.sendRecord_rel {b_ : Bool} {s₀ : State} (s : State) (p T : Nat) (reply : Bool) (r0 : Nat) (h_s : s₀.Rel b_ s) :
    s₀.Rel b_ (State.sendRecord s p T reply r0) := by
  unfold State.sendRecord
  repeat'
    first
    | with_reducible assumption
    | with_reducible apply State.enqueue_rel
    | with_reducible apply State.modAgree_rel
    | with_reducible apply State.noteSent_rel
    | with_reducible apply State.wr64_rel
    | simp only [State.rel_mk]
    | split

theorem State.sendDigest_rel {b_ : Bool} {s₀ : State} (s : State) (p T : Nat) (reply : Bool) (h_s : s₀.Rel b_ s) :
    s₀.Rel b_ (State.sendDigest s p T reply) := by
  unfold State.sendDigest
  repeat'
    first
    | with_reducible assumption
    | with_reducible apply State.sendRecord_rel
    | dsimp only

theorem State.flushDigest_rel {b_ : Bool} {s₀ : State} (s : State) (p : Nat) (h_s : s₀.Rel b_ s) :
    s₀.Rel b_ (State.flushDigest s p) := by
  unfold State.flushDigest
  repeat'
    first
    | with_reducible assumption
    | with_reducible apply State.modAgree_rel
    | with_reducible apply State.sendDigest_rel
    | simp only [State.rel_mk]
    | with_reducible apply State.rel_foldl
    | intro _

theorem State.quarantine_rel {b_ : Bool} {s₀ : State} (s : State) (p : Nat) (h_s : s₀.Rel b_ s) :
    s₀.Rel b_ (State.quarantine s p) := by
  unfold State.quarantine
  repeat'
    first
    | with_reducible assumption
    | with_reducible apply State.parentCheck_rel
    | with_reducible apply State.raiseStanding_rel
    | with_reducible apply State.repickIf_rel
    | with_reducible apply State.setLinkState_rel
    | split
    | dsimp only

theorem State.linkUp_rel {b_ : Bool} {s₀ : State} (s : State) (p : Nat) (h_s : s₀.Rel b_ s) :
    s₀.Rel b_ (State.linkUp s p) := by
  unfold State.linkUp
  repeat'
    first
    | with_reducible assumption
    | with_reducible apply State.endStanding_rel
    | with_reducible apply State.setLinkState_rel
    | split
    | dsimp only

theorem State.decideLink_rel {b_ : Bool} {s₀ : State} (s : State) (p own : Nat) (c : Cell) (h_s : s₀.Rel b_ s) :
    s₀.Rel b_ (State.decideLink s p own c) := by
  unfold State.decideLink
  repeat'
    first
    | with_reducible assumption
    | with_reducible apply State.bump_rel
    | with_reducible apply State.linkUp_rel
    | with_reducible apply State.quarantine_rel
    | with_reducible apply State.wr_rel
    | split
    | dsimp only

theorem State.answerDigest_rel {b_ : Bool} {s₀ : State} (s : State) (p : Nat) (c : Cell) (h_s : s₀.Rel b_ s) :
    s₀.Rel b_ (State.answerDigest s p c) := by
  unfold State.answerDigest
  repeat'
    first
    | with_reducible assumption
    | with_reducible apply State.decideLink_rel
    | with_reducible apply State.sendDigest_rel
    | split
    | dsimp only

theorem State.takeDigest_rel {b_ : Bool} {s₀ : State} (s : State) (p : Nat) (c : Cell) (h_s : s₀.Rel b_ s) :
    s₀.Rel b_ (State.takeDigest s p c) := by
  unfold State.takeDigest
  repeat'
    first
    | with_reducible assumption
    | with_reducible apply State.answerDigest_rel
    | with_reducible apply State.decideLink_rel
    | with_reducible apply State.modAgree_rel
    | simp only [State.rel_mk]
    | split

theorem State.tideDigest_rel {b_ : Bool} {s₀ : State} (s : State) (T : Nat) (h_s : s₀.Rel b_ s) :
    s₀.Rel b_ (State.tideDigest s T) := by
  unfold State.tideDigest
  repeat'
    first
    | with_reducible assumption
    | with_reducible apply State.answerDigest_rel
    | with_reducible apply State.modAgree_rel
    | with_reducible apply State.sendDigest_rel
    | with_reducible apply State.take_rel
    | simp only [State.rel_mk]
    | with_reducible apply State.rel_foldl
    | intro _
    | split

theorem State.digestAtUp_rel {b_ : Bool} {s₀ : State} (s : State) (p : Nat) (h_s : s₀.Rel b_ s) :
    s₀.Rel b_ (State.digestAtUp s p) := by
  unfold State.digestAtUp
  repeat'
    first
    | with_reducible assumption
    | with_reducible apply State.modAgree_rel
    | with_reducible apply State.sendDigest_rel
    | dsimp only

theorem State.stepsOn_rel {b_ : Bool} {s₀ : State} (s : State) (x0 : Nat) (h_s : s₀.Rel b_ s) :
    s₀.Rel b_ (State.stepsOn s x0) := by
  induction x0 generalizing s with
  | zero =>
    unfold State.stepsOn
    repeat'
      first
      | with_reducible assumption
      | with_reducible apply State.setFld_rel
      | split
      | dsimp only
  | succ n_ ih_ =>
    unfold State.stepsOn
    repeat'
      first
      | with_reducible assumption
      | with_reducible apply State.setFld_rel
      | split
      | dsimp only
      | with_reducible apply ih_

theorem State.progress_rel {b_ : Bool} {s₀ : State} (s : State) (h_s : s₀.Rel b_ s) :
    s₀.Rel b_ (State.progress s) := by
  unfold State.progress
  repeat'
    first
    | with_reducible assumption
    | with_reducible apply State.setFlag_rel
    | with_reducible apply State.setFld_rel
    | with_reducible apply State.stepsOn_rel
    | split
    | dsimp only

theorem State.switchRoute_rel {b_ : Bool} {s₀ : State} (s : State) (e T : Nat) (h_s : s₀.Rel b_ s) :
    s₀.Rel b_ (State.switchRoute s e T) := by
  unfold State.switchRoute
  repeat'
    first
    | with_reducible assumption
    | with_reducible apply State.setRepoch_rel
    | simp only [State.rel_mk]

theorem State.switchSched_rel {b_ : Bool} {s₀ : State} (s : State) (e T : Nat) (h_s : s₀.Rel b_ s) :
    s₀.Rel b_ (State.switchSched s e T) := by
  unfold State.switchSched
  repeat'
    first
    | with_reducible assumption
    | with_reducible apply State.setSepoch_rel
    | simp only [State.rel_mk]

theorem State.trainLane_rel {b_ : Bool} {s₀ : State} (s : State) (l : Nat) (h_s : s₀.Rel b_ s) :
    s₀.Rel b_ (State.trainLane s l) := by
  unfold State.trainLane
  repeat'
    first
    | with_reducible assumption
    | with_reducible apply State.drawn_rel
    | with_reducible apply State.modLane_rel
    | with_reducible apply State.modLink_rel
    | with_reducible apply State.setFld_rel
    | simp only [State.rel_mk]

theorem State.startTraining_rel {b_ : Bool} {s₀ : State} (s : State) (ls : List Nat) (h_s : s₀.Rel b_ s) :
    s₀.Rel b_ (State.startTraining s ls) := by
  unfold State.startTraining
  repeat'
    first
    | with_reducible assumption
    | with_reducible apply State.modLane_rel
    | with_reducible apply State.setFld_rel
    | with_reducible apply State.trainLane_rel
    | simp only [State.rel_mk]
    | with_reducible apply State.rel_foldl
    | intro _
    | split

theorem State.askTraining_rel {b_ : Bool} {s₀ : State} (s : State) (ls : List Nat) (h_s : s₀.Rel b_ s) :
    s₀.Rel b_ (State.askTraining s ls) := by
  unfold State.askTraining
  repeat'
    first
    | with_reducible assumption
    | with_reducible apply State.startTraining_rel
    | with_reducible apply State.wakeEvent_rel
    | with_reducible apply State.rel_foldl
    | intro _
    | split
    | dsimp only

theorem State.leaveLink_rel {b_ : Bool} {s₀ : State} (s : State) (p : Nat) (h_s : s₀.Rel b_ s) :
    s₀.Rel b_ (State.leaveLink s p) := by
  unfold State.leaveLink
  repeat'
    first
    | with_reducible assumption
    | with_reducible apply State.bumpBy_rel
    | with_reducible apply State.endStanding_rel
    | with_reducible apply State.modAgree_rel
    | with_reducible apply State.modLink_rel
    | with_reducible apply State.parentCheck_rel
    | with_reducible apply State.repick_rel
    | with_reducible apply State.setLinkState_rel
    | with_reducible apply State.transitLinkLost_rel
    | split
    | dsimp only

theorem State.linkLost_rel {b_ : Bool} {s₀ : State} (s : State) (p : Nat) (h_s : s₀.Rel b_ s) :
    s₀.Rel b_ (State.linkLost s p) := by
  unfold State.linkLost
  repeat'
    first
    | with_reducible assumption
    | with_reducible apply State.askTraining_rel
    | with_reducible apply State.bump_rel
    | with_reducible apply State.leaveLink_rel
    | with_reducible apply State.pllCheck_rel
    | with_reducible apply State.raise_rel
    | with_reducible apply State.sendLinkDown_rel
    | split
    | dsimp only

theorem State.linkOffHere_rel {b_ : Bool} {s₀ : State} (s : State) (p : Nat) (h_s : s₀.Rel b_ s) :
    s₀.Rel b_ (State.linkOffHere s p) := by
  unfold State.linkOffHere
  repeat'
    first
    | with_reducible assumption
    | with_reducible apply State.leaveLink_rel
    | with_reducible apply State.pllCheck_rel
    | with_reducible apply State.sendLinkDown_rel
    | with_reducible apply State.setLinkState_rel
    | split
    | dsimp only

theorem State.sayAck_rel {b_ : Bool} {s₀ : State} (s : State) (p : Nat) (h_s : s₀.Rel b_ s) :
    s₀.Rel b_ (State.sayAck s p) := by
  unfold State.sayAck
  repeat'
    first
    | with_reducible assumption
    | with_reducible apply State.say_rel
    | dsimp only

theorem State.sayCredits_rel {b_ : Bool} {s₀ : State} (s : State) (p : Nat) (h_s : s₀.Rel b_ s) :
    s₀.Rel b_ (State.sayCredits s p) := by
  unfold State.sayCredits
  repeat'
    first
    | with_reducible assumption
    | with_reducible apply State.say_rel
    | with_reducible apply State.rel_foldl
    | intro _
    | dsimp only

theorem State.askPhase_rel {b_ : Bool} {s₀ : State} (s : State) (p n : Nat) (h_s : s₀.Rel b_ s) :
    s₀.Rel b_ (State.askPhase s p n) := by
  unfold State.askPhase
  repeat'
    first
    | with_reducible assumption
    | with_reducible apply State.modLink_rel
    | with_reducible apply State.say_rel
    | simp only [State.rel_mk]

theorem State.reachFull_rel {b_ : Bool} {s₀ : State} (s : State) (p : Nat) (h_s : s₀.Rel b_ s) :
    s₀.Rel b_ (State.reachFull s p) := by
  unfold State.reachFull
  repeat'
    first
    | with_reducible assumption
    | with_reducible apply State.askPhase_rel
    | with_reducible apply State.flushDigest_rel
    | with_reducible apply State.modLink_rel
    | with_reducible apply State.setLinkPhase_rel
    | simp only [State.rel_mk]
    | split

theorem State.exitCheck_rel {b_ : Bool} {s₀ : State} (s : State) (p : Nat) (h_s : s₀.Rel b_ s) :
    s₀.Rel b_ (State.exitCheck s p) := by
  unfold State.exitCheck
  repeat'
    first
    | with_reducible assumption
    | with_reducible apply State.reachFull_rel
    | split
    | dsimp only

theorem State.startExitOf_rel {b_ : Bool} {s₀ : State} (s : State) (p cause : Nat) (h_s : s₀.Rel b_ s) :
    s₀.Rel b_ (State.startExitOf s p cause) := by
  unfold State.startExitOf
  repeat'
    first
    | with_reducible assumption
    | with_reducible apply State.laneWake_rel
    | with_reducible apply State.modLink_rel
    | with_reducible apply State.sayAck_rel
    | with_reducible apply State.sayCredits_rel
    | with_reducible apply State.setLinkPhase_rel
    | simp only [State.rel_mk]
    | split

theorem State.applyPhase_rel {b_ : Bool} {s₀ : State} (s : State) (p : Nat) (h_s : s₀.Rel b_ s) :
    s₀.Rel b_ (State.applyPhase s p) := by
  unfold State.applyPhase
  repeat'
    first
    | with_reducible assumption
    | with_reducible apply State.modLink_rel
    | with_reducible apply State.parentCheck_rel
    | with_reducible apply State.pllCheck_rel
    | with_reducible apply State.repick_rel
    | with_reducible apply State.setLinkPhase_rel
    | simp only [State.rel_mk]
    | split

theorem State.agreePhase_rel {b_ : Bool} {s₀ : State} (s : State) (p n : Nat) (h_s : s₀.Rel b_ s) :
    s₀.Rel b_ (State.agreePhase s p n) := by
  unfold State.agreePhase
  repeat'
    first
    | with_reducible assumption
    | with_reducible apply State.applyPhase_rel
    | with_reducible apply State.modLink_rel
    | with_reducible apply State.repick_rel
    | simp only [State.rel_mk]
    | split

theorem State.requestPhase_rel {b_ : Bool} {s₀ : State} (s : State) (l n cause : Nat) (h_s : s₀.Rel b_ s) :
    s₀.Rel b_ (State.requestPhase s l n cause) := by
  unfold State.requestPhase
  repeat'
    first
    | with_reducible assumption
    | with_reducible apply State.askPhase_rel
    | with_reducible apply State.modLink_rel
    | with_reducible apply State.startExitOf_rel
    | simp only [State.rel_mk]
    | split

theorem State.takePhase_rel {b_ : Bool} {s₀ : State} (s : State) (p : Nat) (d : BitVec 16) (h_s : s₀.Rel b_ s) :
    s₀.Rel b_ (State.takePhase s p d) := by
  unfold State.takePhase
  repeat'
    first
    | with_reducible assumption
    | with_reducible apply State.agreePhase_rel
    | with_reducible apply State.bump_rel
    | with_reducible apply State.modLink_rel
    | with_reducible apply State.say_rel
    | simp only [State.rel_mk]
    | split

theorem State.trainFail_rel {b_ : Bool} {s₀ : State} (s : State) (l : Nat) (h_s : s₀.Rel b_ s) :
    s₀.Rel b_ (State.trainFail s l) := by
  unfold State.trainFail
  repeat'
    first
    | with_reducible assumption
    | with_reducible apply State.bump_rel
    | with_reducible apply State.modLane_rel
    | with_reducible apply State.pllCheck_rel
    | with_reducible apply State.raiseStanding_rel
    | with_reducible apply State.setFld_rel
    | simp only [State.rel_mk]
    | split

theorem State.trainRegs_rel {b_ : Bool} {s₀ : State} (s : State) (l w : Nat) (h_s : s₀.Rel b_ s) :
    s₀.Rel b_ (State.trainRegs s l w) := by
  unfold State.trainRegs
  repeat'
    first
    | with_reducible assumption
    | with_reducible apply State.modLane_rel
    | with_reducible apply State.setFld_rel
    | with_reducible apply State.wr_rel
    | simp only [State.rel_mk]
    | split

theorem State.trained_rel {b_ : Bool} {s₀ : State} (s : State) (p w : Nat) (h_s : s₀.Rel b_ s) :
    s₀.Rel b_ (State.trained s p w) := by
  unfold State.trained
  repeat'
    first
    | with_reducible assumption
    | with_reducible apply State.digestAtUp_rel
    | with_reducible apply State.drawn_rel
    | with_reducible apply State.endStanding_rel
    | with_reducible apply State.modLink_rel
    | with_reducible apply State.progress_rel
    | with_reducible apply State.raiseStanding_rel
    | with_reducible apply State.sayAck_rel
    | with_reducible apply State.sayCredits_rel
    | with_reducible apply State.setLinkPhase_rel
    | with_reducible apply State.setLinkState_rel
    | with_reducible apply State.trainRegs_rel
    | with_reducible apply State.rel_foldl
    | intro _
    | split
    | dsimp only

theorem State.trainCheck_rel {b_ : Bool} {s₀ : State} (s : State) (l : Nat) (h_s : s₀.Rel b_ s) :
    s₀.Rel b_ (State.trainCheck s l) := by
  unfold State.trainCheck
  repeat'
    first
    | with_reducible assumption
    | with_reducible apply State.trainFail_rel
    | with_reducible apply State.trained_rel
    | with_reducible apply State.rel_foldl
    | intro _
    | split
    | dsimp only

theorem State.takeTrain_rel {b_ : Bool} {s₀ : State} (s : State) (l : Nat) (d : BitVec 16) (eq : Nat) (eqValid : Bool) (h_s : s₀.Rel b_ s) :
    s₀.Rel b_ (State.takeTrain s l d eq eqValid) := by
  unfold State.takeTrain
  repeat'
    first
    | with_reducible assumption
    | with_reducible apply State.modLane_rel
    | with_reducible apply State.trainCheck_rel
    | with_reducible apply State.trainFail_rel
    | simp only [State.rel_mk]
    | split

theorem State.laneCtrlWrite_rel {b_ : Bool} {s₀ : State} (s : State) (l : Nat) (w : Word) (h_s : s₀.Rel b_ s) :
    s₀.Rel b_ (State.laneCtrlWrite s l w) := by
  unfold State.laneCtrlWrite
  repeat'
    first
    | with_reducible assumption
    | with_reducible apply State.askTraining_rel
    | with_reducible apply State.linkOffHere_rel
    | with_reducible apply State.requestPhase_rel
    | with_reducible apply State.setFlag_rel
    | with_reducible apply State.setFld_rel
    | with_reducible apply State.rel_foldl
    | intro _
    | split
    | dsimp only

end Sys2Proof.Machine
end

