-- ==== Sys2Proof/Laws/KeepsEnds.lean ====
section
/-! SUPPORT. What the model's functions keep of a state (`State.Rel`), one lemma each: the two ends of a connection: sending, receiving, RMA, locks, collectives, encryption. -/

set_option linter.unusedSimpArgs false

namespace Sys2Proof.Machine

open Host (Outcome)

theorem State.receive_rel {b_ : Bool} {s₀ : State} (s : State) (c : Cell) (k : State → State) (h_s : s₀.Rel b_ s) (h_k : ∀ y0, s₀.Rel b_ y0 → s₀.Rel b_ (k y0)) :
    s₀.Rel b_ (State.receive s c k) := by
  unfold State.receive
  repeat'
    first
    | with_reducible assumption
    | with_reducible apply h_k
    | with_reducible apply State.arrive_rel
    | with_reducible apply State.bump_rel
    | split
    | dsimp only

theorem State.receiveMgmt_rel {b_ : Bool} {s₀ : State} (s : State) (c : Cell) (kind : Nat) (k : State → State) (h_s : s₀.Rel b_ s) (h_k : ∀ y0, s₀.Rel b_ y0 → s₀.Rel b_ (k y0)) :
    s₀.Rel b_ (State.receiveMgmt s c kind k) := by
  unfold State.receiveMgmt
  repeat'
    first
    | with_reducible assumption
    | with_reducible apply h_k
    | with_reducible apply State.bump_rel
    | with_reducible apply State.receive_rel
    | intro _
    | split
    | dsimp only

theorem State.sayCtl_rel {b_ : Bool} {s₀ : State} (s : State) (h : Nat) (y : CtlSay) (h_s : s₀.Rel b_ s) :
    s₀.Rel b_ (State.sayCtl s h y) := by
  unfold State.sayCtl
  repeat'
    first
    | with_reducible assumption
    | simp only [State.rel_mk]
    | split

theorem State.sayRma_rel {b_ : Bool} {s₀ : State} (s : State) (h op dseq status epoch tag : Nat) (h_s : s₀.Rel b_ s) :
    s₀.Rel b_ (State.sayRma s h op dseq status epoch tag) := by
  unfold State.sayRma
  repeat'
    first
    | with_reducible assumption
    | with_reducible apply State.sayCtl_rel
    | dsimp only

theorem State.modMsg_rel {b_ : Bool} {s₀ : State} (s : State) (id : Nat) (f : TxMsg → TxMsg) (h_s : s₀.Rel b_ s) :
    s₀.Rel b_ (State.modMsg s id f) := by
  unfold State.modMsg
  repeat'
    first
    | with_reducible assumption
    | simp only [State.rel_mk, id_eq]

theorem State.dropMsg_rel {b_ : Bool} {s₀ : State} (s : State) (id : Nat) (h_s : s₀.Rel b_ s) :
    s₀.Rel b_ (State.dropMsg s id) := by
  unfold State.dropMsg
  repeat'
    first
    | with_reducible assumption
    | simp only [State.rel_mk, id_eq]

theorem State.sendOpen_rel {b_ : Bool} {s₀ : State} (s : State) (h : Nat) (h_s : s₀.Rel b_ s) :
    s₀.Rel b_ (State.sendOpen s h) := by
  unfold State.sendOpen
  repeat'
    first
    | with_reducible assumption
    | with_reducible apply State.modConn_rel
    | with_reducible apply State.sayCtl_rel
    | simp only [State.rel_mk]

theorem State.needContext_rel {b_ : Bool} {s₀ : State} (s : State) (h : Nat) (h_s : s₀.Rel b_ s) :
    s₀.Rel b_ (State.needContext s h) := by
  unfold State.needContext
  repeat'
    first
    | with_reducible assumption
    | with_reducible apply State.bump_rel
    | with_reducible apply State.countInst_rel
    | with_reducible apply State.modConn_rel
    | with_reducible apply State.occurCtl_rel
    | with_reducible apply State.wakeEvent_rel
    | simp only [State.rel_mk]
    | split

theorem State.openIfWork_rel {b_ : Bool} {s₀ : State} (s : State) (h : Nat) (h_s : s₀.Rel b_ s) :
    s₀.Rel b_ (State.openIfWork s h) := by
  unfold State.openIfWork
  repeat'
    first
    | with_reducible assumption
    | with_reducible apply State.sendOpen_rel
    | split
    | dsimp only

theorem State.openAgain_rel {b_ : Bool} {s₀ : State} (s : State) (h : Nat) (k : Conn) (h_s : s₀.Rel b_ s) :
    s₀.Rel b_ (State.openAgain s h k) := by
  unfold State.openAgain
  repeat'
    first
    | with_reducible assumption
    | with_reducible apply State.needContext_rel
    | with_reducible apply State.sendOpen_rel
    | split
    | dsimp only

theorem State.accept_rel {b_ : Bool} {s₀ : State} (s : State) (m : TxMsg) (h_s : s₀.Rel b_ s) :
    s₀.Rel b_ (State.accept s m).1 := by
  unfold State.accept
  repeat'
    first
    | with_reducible assumption
    | with_reducible apply State.needContext_rel
    | with_reducible apply State.openIfWork_rel
    | simp only [State.rel_mk, id_eq]

theorem State.keepSent_rel {b_ : Bool} {s₀ : State} (s : State) (m : TxMsg) (q : Nat) (h_s : s₀.Rel b_ s) :
    s₀.Rel b_ (State.keepSent s m q) := by
  unfold State.keepSent
  repeat'
    first
    | with_reducible assumption
    | simp only [State.rel_mk]
    | split

theorem State.assignSeq_rel {b_ : Bool} {s₀ : State} (s : State) (id : Nat) (h_s : s₀.Rel b_ s) :
    s₀.Rel b_ (State.assignSeq s id) := by
  unfold State.assignSeq
  repeat'
    first
    | with_reducible assumption
    | with_reducible apply State.countGroup_rel
    | with_reducible apply State.jrnlInst_rel
    | with_reducible apply State.keepSent_rel
    | with_reducible apply State.modConn_rel
    | with_reducible apply State.modMsg_rel
    | with_reducible apply State.modSlot_rel
    | simp only [State.rel_mk, id_eq]
    | split

theorem State.updateWindow_rel {b_ : Bool} {s₀ : State} (s : State) (h : Nat) (g : SendSeg) (cells marked : Nat) (h_s : s₀.Rel b_ s) :
    s₀.Rel b_ (State.updateWindow s h g cells marked) := by
  unfold State.updateWindow
  repeat'
    first
    | with_reducible assumption
    | with_reducible apply State.modConn_rel
    | simp only [State.rel_mk]
    | split

theorem State.progressOn_rel {b_ : Bool} {s₀ : State} (s : State) (h : Nat) (h_s : s₀.Rel b_ s) :
    s₀.Rel b_ (State.progressOn s h) := by
  unfold State.progressOn
  repeat'
    first
    | with_reducible assumption
    | with_reducible apply State.modConn_rel
    | simp only [State.rel_mk]

theorem State.segDone_rel {b_ : Bool} {s₀ : State} (s : State) (h q cells marked : Nat) (h_s : s₀.Rel b_ s) :
    s₀.Rel b_ (State.segDone s h q cells marked) := by
  unfold State.segDone
  repeat'
    first
    | with_reducible assumption
    | with_reducible apply State.modConn_rel
    | with_reducible apply State.progressOn_rel
    | with_reducible apply State.updateWindow_rel
    | simp only [State.rel_mk]
    | split

theorem State.segKnown_rel {b_ : Bool} {s₀ : State} (s : State) (h q : Nat) (h_s : s₀.Rel b_ s) :
    s₀.Rel b_ (State.segKnown s h q) := by
  unfold State.segKnown
  repeat'
    first
    | with_reducible assumption
    | with_reducible apply State.modConn_rel
    | simp only [State.rel_mk]
    | split

theorem State.completeCovered_rel {b_ : Bool} {s₀ : State} (s : State) (m : TxMsg) (z : Nat) (h_s : s₀.Rel b_ s) :
    s₀.Rel b_ (State.completeCovered s m z) := by
  unfold State.completeCovered
  repeat'
    first
    | with_reducible assumption
    | with_reducible apply State.bump_rel
    | with_reducible apply State.finishSlot_rel
    | with_reducible apply State.raise_rel
    | split
    | dsimp only

theorem State.modEntry_rel {b_ : Bool} {s₀ : State} (s : State) (e : Nat) (f : StoreEntry → StoreEntry) (h_s : s₀.Rel b_ s) :
    s₀.Rel b_ (State.modEntry s e f) := by
  unfold State.modEntry
  repeat'
    first
    | with_reducible assumption
    | simp only [State.rel_mk]

theorem State.freeEntry_rel {b_ : Bool} {s₀ : State} (s : State) (e : Nat) (h_s : s₀.Rel b_ s) :
    s₀.Rel b_ (State.freeEntry s e) := by
  unfold State.freeEntry
  repeat'
    first
    | with_reducible assumption
    | simp only [State.rel_mk]

theorem State.pullTask_rel {b_ : Bool} {s₀ : State} (s : State) (h : Nat) (h_s : s₀.Rel b_ s) :
    s₀.Rel b_ (State.pullTask s h) := by
  unfold State.pullTask
  repeat'
    first
    | with_reducible assumption
    | with_reducible apply State.taskStart_rel
    | split
    | dsimp only

theorem State.unmatchedLess_rel {b_ : Bool} {s₀ : State} (s : State) (h : Nat) (h_s : s₀.Rel b_ s) :
    s₀.Rel b_ (State.unmatchedLess s h) := by
  unfold State.unmatchedLess
  repeat'
    first
    | with_reducible assumption
    | with_reducible apply State.modConn_rel
    | simp only [State.rel_mk]

theorem State.finishStored_rel {b_ : Bool} {s₀ : State} (s : State) (e : Nat) (x : StoreEntry) (status bytes : Nat) (h_s : s₀.Rel b_ s) :
    s₀.Rel b_ (State.finishStored s e x status bytes) := by
  unfold State.finishStored
  repeat'
    first
    | with_reducible assumption
    | with_reducible apply State.bump_rel
    | with_reducible apply State.covered_rel
    | with_reducible apply State.finishSlot_rel
    | with_reducible apply State.freeEntry_rel
    | with_reducible apply State.jrnlConn_rel
    | with_reducible apply State.taskEnd_rel
    | with_reducible apply State.unmatchedLess_rel
    | split
    | dsimp only

theorem State.pullCovered_rel {b_ : Bool} {s₀ : State} (s : State) (h e : Nat) (h_s : s₀.Rel b_ s) :
    s₀.Rel b_ (State.pullCovered s h e) := by
  unfold State.pullCovered
  repeat'
    first
    | with_reducible assumption
    | with_reducible apply State.finishStored_rel
    | with_reducible apply State.modConn_rel
    | with_reducible apply State.pullTask_rel
    | simp only [State.rel_mk]
    | split

theorem State.coverColl_rel {b_ : Bool} {s₀ : State} (s : State) (g n h : Nat) (down : Bool) (h_s : s₀.Rel b_ s) :
    s₀.Rel b_ (State.coverColl s g n h down) := by
  unfold State.coverColl
  repeat'
    first
    | with_reducible assumption
    | simp only [State.rel_mk]
    | split

theorem State.covered_rel {b_ : Bool} {s₀ : State} (s : State) (id : Nat) (m : TxMsg) (h_s : s₀.Rel b_ s) :
    s₀.Rel b_ (State.covered s id m) := by
  unfold State.covered
  repeat'
    first
    | with_reducible assumption
    | with_reducible apply State.completeCovered_rel
    | with_reducible apply State.coverColl_rel
    | with_reducible apply State.dropMsg_rel
    | with_reducible apply State.freeSlot_rel
    | with_reducible apply State.modConn_rel
    | with_reducible apply State.pullCovered_rel
    | simp only [State.rel_mk, id_eq]
    | split

theorem State.applyWm_rel {b_ : Bool} {s₀ : State} (s : State) (h wm : Nat) (h_s : s₀.Rel b_ s) :
    s₀.Rel b_ (State.applyWm s h wm) := by
  unfold State.applyWm
  repeat'
    first
    | with_reducible assumption
    | with_reducible apply State.covered_rel
    | with_reducible apply State.modConn_rel
    | with_reducible apply State.progressOn_rel
    | simp only [State.rel_mk]
    | with_reducible apply State.rel_foldl
    | intro _
    | split

theorem State.applyFront_rel {b_ : Bool} {s₀ : State} (s : State) (h f : Nat) (h_s : s₀.Rel b_ s) :
    s₀.Rel b_ (State.applyFront s h f) := by
  unfold State.applyFront
  repeat'
    first
    | with_reducible assumption
    | with_reducible apply State.modConn_rel
    | simp only [State.rel_mk]
    | split

theorem State.noteUse_rel {b_ : Bool} {s₀ : State} (s : State) (i va len : Nat) (h_s : s₀.Rel b_ s) :
    s₀.Rel b_ (State.noteUse s i va len) := by
  unfold State.noteUse
  repeat'
    first
    | with_reducible assumption
    | simp only [State.rel_mk]
    | split

theorem State.putData_rel {s₀ : State} (s : State) (i va addr len data : Nat) (h_s : s₀.Rel false s) :
    s₀.Rel false (State.putData s i va addr len data) := by
  unfold State.putData
  repeat'
    first
    | with_reducible assumption
    | with_reducible apply State.noteUse_rel
    | with_reducible apply State.workWrite_rel
    | with_reducible refine State.rel_mk_write ?_
    | simp only [State.rel_mk, State.rel_mk_ram]
    | split

theorem State.dataWrite_rel {s₀ : State} (s : State) (i va addr len data : Nat) (h_s : s₀.Rel false s) :
    s₀.Rel false (State.dataWrite s i va addr len data) := by
  unfold State.dataWrite
  repeat'
    first
    | with_reducible assumption
    | with_reducible apply State.putData_rel
    | with_reducible apply State.rel_foldl
    | intro _
    | dsimp only

theorem State.mismatch_rel {b_ : Bool} {s₀ : State} (s : State) (key : Nat) (h_s : s₀.Rel b_ s) :
    s₀.Rel b_ (State.mismatch s key) := by
  unfold State.mismatch
  repeat'
    first
    | with_reducible assumption
    | with_reducible apply State.bump_rel
    | with_reducible apply State.raise_rel
    | dsimp only

theorem State.pathFail_rel {b_ : Bool} {s₀ : State} (s : State) (i : Nat) (h_s : s₀.Rel b_ s) :
    s₀.Rel b_ (State.pathFail s i) := by
  unfold State.pathFail
  repeat'
    first
    | with_reducible assumption
    | with_reducible apply State.atomicUr_rel
    | with_reducible apply State.bump_rel
    | split
    | dsimp only

theorem State.wordCheck_rel {b_ : Bool} {s₀ : State} (s : State) (w : AccessId) (tile i key : Nat) (pd : Option Nat) (acc off : Nat) (h_s : s₀.Rel b_ s) :
    s₀.Rel b_ (State.wordCheck s w tile i key pd acc off).1 := by
  unfold State.wordCheck
  repeat'
    first
    | with_reducible assumption
    | with_reducible apply State.access_rel
    | with_reducible apply State.bump_rel
    | with_reducible apply State.lookKey_rel
    | split
    | dsimp only
    | with_reducible refine State.rel_fst (by assumption) ?_

theorem State.jrnlSlot_rel {b_ : Bool} {s₀ : State} (s : State) (z : Nat) (h_s : s₀.Rel b_ s) :
    s₀.Rel b_ (State.jrnlSlot s z) := by
  unfold State.jrnlSlot
  repeat'
    first
    | with_reducible assumption
    | with_reducible apply State.jrnlInst_rel
    | split
    | dsimp only

theorem State.holdUnit_rel {b_ : Bool} {s₀ : State} (s : State) (i : Nat) (u : UnitFields) (h_s : s₀.Rel b_ s) :
    s₀.Rel b_ (State.holdUnit s i u).1 := by
  unfold State.holdUnit
  repeat'
    first
    | with_reducible assumption
    | with_reducible apply State.bump_rel
    | with_reducible apply State.drawn_rel
    | with_reducible apply State.modInst_rel
    | simp only [State.rel_mk]
    | split

theorem State.takeUnit_rel {b_ : Bool} {s₀ : State} (s : State) (i : Nat) (u : UnitFields) (h_s : s₀.Rel b_ s) :
    s₀.Rel b_ (State.takeUnit s i u).1 := by
  unfold State.takeUnit
  repeat'
    first
    | with_reducible assumption
    | with_reducible apply State.holdUnit_rel
    | with_reducible apply State.jrnlSlot_rel
    | split
    | dsimp only
    | with_reducible refine State.rel_fst (by assumption) ?_

theorem State.modUnit_rel {b_ : Bool} {s₀ : State} (s : State) (z : Nat) (f : UnitFields → UnitFields) (h_s : s₀.Rel b_ s) :
    s₀.Rel b_ (State.modUnit s z f) := by
  unfold State.modUnit
  repeat'
    first
    | with_reducible assumption
    | with_reducible apply State.jrnlSlot_rel
    | with_reducible apply State.modSlot_rel
    | simp only [State.rel_mk]

theorem State.sendUnit_rel {b_ : Bool} {s₀ : State} (s : State) (z : Nat) (h_s : s₀.Rel b_ s) :
    s₀.Rel b_ (State.sendUnit s z) := by
  unfold State.sendUnit
  repeat'
    first
    | with_reducible assumption
    | with_reducible apply State.accept_rel
    | split
    | dsimp only
    | with_reducible refine State.rel_fst (by assumption) ?_

theorem State.advanceOver_rel {b_ : Bool} {s₀ : State} (s : State) (h q : Nat) (h_s : s₀.Rel b_ s) :
    s₀.Rel b_ (State.advanceOver s h q) := by
  unfold State.advanceOver
  repeat'
    first
    | with_reducible assumption
    | with_reducible apply State.countGroup_rel
    | with_reducible apply State.jrnlConn_rel
    | with_reducible apply State.modConn_rel
    | with_reducible apply State.sayCtl_rel
    | simp only [State.rel_mk]

theorem State.modHeld_rel {b_ : Bool} {s₀ : State} (s : State) (n : Nat) (f : Held → Held) (h_s : s₀.Rel b_ s) :
    s₀.Rel b_ (State.modHeld s n f) := by
  unfold State.modHeld
  repeat'
    first
    | with_reducible assumption
    | simp only [State.rel_mk]

theorem State.dropHeld_rel {b_ : Bool} {s₀ : State} (s : State) (n : Nat) (h_s : s₀.Rel b_ s) :
    s₀.Rel b_ (State.dropHeld s n) := by
  unfold State.dropHeld
  repeat'
    first
    | with_reducible assumption
    | simp only [State.rel_mk]

theorem State.startOp_rel {b_ : Bool} {s₀ : State} (s : State) (o : UnitOp) (h_s : s₀.Rel b_ s) :
    s₀.Rel b_ (State.startOp s o) := by
  unfold State.startOp
  repeat'
    first
    | with_reducible assumption
    | with_reducible apply State.issue_rel
    | simp only [State.rel_mk]
    | split

theorem State.slotResult_rel {b_ : Bool} {s₀ : State} (s : State) (i n r info : Nat) (h_s : s₀.Rel b_ s) :
    s₀.Rel b_ (State.slotResult s i n r info) := by
  unfold State.slotResult
  repeat'
    first
    | with_reducible assumption
    | with_reducible apply State.setFld_rel
    | with_reducible apply State.wr_rel
    | dsimp only

theorem State.slotReturn_rel {b_ : Bool} {s₀ : State} (s : State) (i n : Nat) (h_s : s₀.Rel b_ s) :
    s₀.Rel b_ (State.slotReturn s i n) := by
  unfold State.slotReturn
  repeat'
    first
    | with_reducible assumption
    | simp only [State.rel_mk]
    | split

theorem State.slotOutcome_rel {b_ : Bool} {s₀ : State} (s : State) (i n st waiters : Nat) (h_s : s₀.Rel b_ s) :
    s₀.Rel b_ (State.slotOutcome s i n st waiters) := by
  unfold State.slotOutcome
  repeat'
    first
    | with_reducible assumption
    | with_reducible apply State.setFld_rel
    | with_reducible apply State.slotResult_rel
    | with_reducible apply State.slotReturn_rel
    | simp only [State.rel_mk]
    | split

theorem State.endWait_rel {b_ : Bool} {s₀ : State} (s : State) (w : Waiter) (st word waiters : Nat) (h_s : s₀.Rel b_ s) :
    s₀.Rel b_ (State.endWait s w st word waiters) := by
  unfold State.endWait
  repeat'
    first
    | with_reducible assumption
    | with_reducible apply State.modUnit_rel
    | with_reducible apply State.sendUnit_rel
    | with_reducible apply State.slotOutcome_rel
    | simp only [State.rel_mk]
    | split

theorem State.inherit_rel {b_ : Bool} {s₀ : State} (s : State) (n lv : Nat) (h_s : s₀.Rel b_ s) :
    s₀.Rel b_ (State.inherit s n lv) := by
  unfold State.inherit
  repeat'
    first
    | with_reducible assumption
    | with_reducible apply State.bump_rel
    | with_reducible apply State.grant_rel
    | with_reducible apply State.modHeld_rel
    | with_reducible apply State.modQueue_rel
    | with_reducible apply State.post_rel
    | with_reducible apply State.sendUnit_rel
    | with_reducible apply State.takeUnit_rel
    | simp only [State.rel_mk]
    | split
    | with_reducible refine State.rel_fst (by assumption) ?_

theorem State.levelCheck_rel {b_ : Bool} {s₀ : State} (s : State) (n : Nat) (h_s : s₀.Rel b_ s) :
    s₀.Rel b_ (State.levelCheck s n) := by
  unfold State.levelCheck
  repeat'
    first
    | with_reducible assumption
    | with_reducible apply State.inherit_rel
    | with_reducible apply State.rel_foldl
    | intro _
    | split
    | dsimp only

theorem State.countOp_rel {b_ : Bool} {s₀ : State} (s : State) (h_s : s₀.Rel b_ s) :
    s₀.Rel b_ (State.countOp s) := by
  unfold State.countOp
  repeat'
    first
    | with_reducible assumption
    | with_reducible apply State.bump_rel
    | with_reducible apply State.occur_rel
    | dsimp only

theorem State.giveHold_rel {b_ : Bool} {s₀ : State} (s : State) (n : Nat) (x : Held) (w : Waiter) (abandoned : Bool) (h_s : s₀.Rel b_ s) :
    s₀.Rel b_ (State.giveHold s n x w abandoned) := by
  unfold State.giveHold
  repeat'
    first
    | with_reducible assumption
    | with_reducible apply State.modHeld_rel
    | simp only [State.rel_mk]

theorem State.registryStep_rel {b_ : Bool} {s₀ : State} (s : State) (addr : Nat) (h_s : s₀.Rel b_ s) :
    s₀.Rel b_ (State.registryStep s addr) := by
  unfold State.registryStep
  repeat'
    first
    | with_reducible assumption
    | with_reducible apply State.taskOnce_rel
    | dsimp only

theorem State.handOver_rel {b_ : Bool} {s₀ : State} (s : State) (n : Nat) (x : Held) (w : Option Waiter) (st : Nat) (h_s : s₀.Rel b_ s) :
    s₀.Rel b_ (State.handOver s n x w st) := by
  unfold State.handOver
  repeat'
    first
    | with_reducible assumption
    | with_reducible apply State.countOp_rel
    | with_reducible apply State.dropHeld_rel
    | with_reducible apply State.endWait_rel
    | with_reducible apply State.giveHold_rel
    | with_reducible apply State.levelCheck_rel
    | with_reducible apply State.occur_rel
    | with_reducible apply State.registryStep_rel
    | split
    | dsimp only

theorem State.failHeld_rel {b_ : Bool} {s₀ : State} (s : State) (n : Nat) (x : Held) (st : Nat) (h_s : s₀.Rel b_ s) :
    s₀.Rel b_ (State.failHeld s n x st) := by
  unfold State.failHeld
  repeat'
    first
    | with_reducible assumption
    | with_reducible apply State.dropHeld_rel
    | with_reducible apply State.endWait_rel
    | with_reducible apply State.rel_foldl
    | intro _
    | dsimp only

theorem State.withdraw_rel {b_ : Bool} {s₀ : State} (s : State) (n : Nat) (p : Waiter → Bool) (h_s : s₀.Rel b_ s) :
    s₀.Rel b_ (State.withdraw s n p) := by
  unfold State.withdraw
  repeat'
    first
    | with_reducible assumption
    | with_reducible apply State.bump_rel
    | with_reducible apply State.freeSlot_rel
    | with_reducible apply State.levelCheck_rel
    | with_reducible apply State.modHeld_rel
    | with_reducible apply State.setFld_rel
    | with_reducible apply State.slotResult_rel
    | with_reducible apply State.slotReturn_rel
    | simp only [State.rel_mk]
    | with_reducible apply State.rel_foldl
    | intro _
    | split

theorem State.passOn_rel {s₀ : State} (s : State) (n : Nat) (h_s : s₀.Rel false s) :
    s₀.Rel false (State.passOn s n) := by
  unfold State.passOn
  repeat'
    first
    | with_reducible assumption
    | with_reducible apply State.failHeld_rel
    | with_reducible apply State.handOver_rel
    | with_reducible apply State.pathFail_rel
    | with_reducible apply State.startOp_rel
    | with_reducible refine State.rel_mk_write ?_
    | simp only [State.rel_mk, State.rel_mk_ram]
    | split

theorem State.wordGiven_rel {s₀ : State} (s : State) (n : Nat) (x : Held) (w : Option Waiter) (st : Nat) (h_s : s₀.Rel false s) :
    s₀.Rel false (State.wordGiven s n x w st) := by
  unfold State.wordGiven
  repeat'
    first
    | with_reducible assumption
    | with_reducible apply State.giveHold_rel
    | with_reducible apply State.handOver_rel
    | with_reducible apply State.passOn_rel
    | with_reducible refine State.rel_mk_write ?_
    | split
    | dsimp only

theorem State.abandonGo_rel {s₀ : State} (s : State) (n : Nat) (h_s : s₀.Rel false s) :
    s₀.Rel false (State.abandonGo s n) := by
  unfold State.abandonGo
  repeat'
    first
    | with_reducible assumption
    | with_reducible apply State.abandon_rel
    | with_reducible apply State.failHeld_rel
    | with_reducible apply State.handOver_rel
    | with_reducible apply State.mismatch_rel
    | with_reducible apply State.pathFail_rel
    | with_reducible apply State.startOp_rel
    | with_reducible refine State.rel_mk_write ?_
    | simp only [State.rel_mk, State.rel_mk_ram]
    | split

theorem State.abandon_rel {s₀ : State} (s : State) (n : Nat) (h_s : s₀.Rel false s) :
    s₀.Rel false (State.abandon s n) := by
  unfold State.abandon
  repeat'
    first
    | with_reducible assumption
    | with_reducible apply State.abandonGo_rel
    | with_reducible apply State.bump_rel
    | split
    | dsimp only

theorem State.abandonAll_rel {s₀ : State} (s : State) (p : Held → Bool) (h_s : s₀.Rel false s) :
    s₀.Rel false (State.abandonAll s p) := by
  unfold State.abandonAll
  repeat'
    first
    | with_reducible assumption
    | with_reducible apply State.abandon_rel
    | with_reducible apply State.rel_foldl
    | intro _
    | dsimp only

theorem State.withdrawAll_rel {b_ : Bool} {s₀ : State} (s : State) (p : Waiter → Bool) (h_s : s₀.Rel b_ s) :
    s₀.Rel b_ (State.withdrawAll s p) := by
  unfold State.withdrawAll
  repeat'
    first
    | with_reducible assumption
    | with_reducible apply State.withdraw_rel
    | with_reducible apply State.rel_foldl
    | intro _
    | dsimp only

theorem State.abandonConn_rel {s₀ : State} (s : State) (h : Nat) (all : Bool) (h_s : s₀.Rel false s) :
    s₀.Rel false (State.abandonConn s h all) := by
  unfold State.abandonConn
  repeat'
    first
    | with_reducible assumption
    | with_reducible apply State.abandonAll_rel
    | dsimp only

theorem State.sendAbandonAll_rel {b_ : Bool} {s₀ : State} (s : State) (h : Nat) (h_s : s₀.Rel b_ s) :
    s₀.Rel b_ (State.sendAbandonAll s h) := by
  unfold State.sendAbandonAll
  repeat'
    first
    | with_reducible assumption
    | with_reducible apply State.sendUnit_rel
    | with_reducible apply State.takeUnit_rel
    | split
    | dsimp only
    | with_reducible refine State.rel_fst (by assumption) ?_

theorem State.modGroup_rel {b_ : Bool} {s₀ : State} (s : State) (g : Nat) (f : Group → Group) (h_s : s₀.Rel b_ s) :
    s₀.Rel b_ (State.modGroup s g f) := by
  unfold State.modGroup
  repeat'
    first
    | with_reducible assumption
    | simp only [State.rel_mk]

theorem State.treeTask_rel {b_ : Bool} {s₀ : State} (s : State) (g n : Nat) (h_s : s₀.Rel b_ s) :
    s₀.Rel b_ (State.treeTask s g n) := by
  unfold State.treeTask
  repeat'
    first
    | with_reducible assumption
    | with_reducible apply State.taskStart_rel
    | split
    | dsimp only

theorem State.collUp_rel {b_ : Bool} {s₀ : State} (s : State) (g : Nat) (x : Group) (kid opnum hdr : Nat) (h_s : s₀.Rel b_ s) :
    s₀.Rel b_ (State.collUp s g x kid opnum hdr).1 := by
  unfold State.collUp
  repeat'
    first
    | with_reducible assumption
    | with_reducible apply State.bump_rel
    | with_reducible apply State.modGroup_rel
    | with_reducible apply State.treeTask_rel
    | simp only [State.rel_mk]
    | split

theorem State.enterOp_rel {b_ : Bool} {s₀ : State} (s : State) (g : Nat) (x : Group) (z fmt : Nat) (h_s : s₀.Rel b_ s) :
    ∀ t_, State.enterOp s g x z fmt = some t_ → s₀.Rel b_ t_ := by
  intro t_ e_
  unfold State.enterOp at e_
  dsimp only at e_
  repeat' split at e_
  all_goals first
    | contradiction
    | (injection e_ with e_; subst e_)
  all_goals
  repeat'
    first
    | with_reducible assumption
    | with_reducible apply State.modGroup_rel
    | simp only [State.rel_mk]
    | split

theorem State.enterQueued_rel {b_ : Bool} {s₀ : State} (s : State) (g : Nat) (x0 : Nat) (h_s : s₀.Rel b_ s) :
    s₀.Rel b_ (State.enterQueued s g x0) := by
  induction x0 generalizing s with
  | zero =>
    unfold State.enterQueued
    repeat'
      first
      | with_reducible assumption
      | with_reducible refine State.rel_some (by assumption) (State.enterOp_rel _ _ _ _ _ ?_)
      | with_reducible apply State.modGroup_rel
      | with_reducible apply State.treeTask_rel
      | simp only [State.rel_mk]
      | split
  | succ n_ ih_ =>
    unfold State.enterQueued
    repeat'
      first
      | with_reducible assumption
      | with_reducible refine State.rel_some (by assumption) (State.enterOp_rel _ _ _ _ _ ?_)
      | with_reducible apply State.modGroup_rel
      | with_reducible apply State.treeTask_rel
      | simp only [State.rel_mk]
      | split
      | with_reducible apply ih_

theorem State.offerUp_rel {b_ : Bool} {s₀ : State} (s : State) (g n : Nat) (again : Bool) (h_s : s₀.Rel b_ s) :
    s₀.Rel b_ (State.offerUp s g n again) := by
  unfold State.offerUp
  repeat'
    first
    | with_reducible assumption
    | with_reducible apply State.collUp_rel
    | with_reducible apply State.modGroup_rel
    | simp only [State.rel_mk]
    | split
    | with_reducible refine State.rel_fst (by assumption) ?_

theorem State.enterAll_rel {b_ : Bool} {s₀ : State} (s : State) (i : Nat) (h_s : s₀.Rel b_ s) :
    s₀.Rel b_ (State.enterAll s i) := by
  unfold State.enterAll
  repeat'
    first
    | with_reducible assumption
    | with_reducible apply State.enterQueued_rel
    | with_reducible apply State.offerUp_rel
    | with_reducible apply State.rel_foldl
    | intro _
    | split
    | dsimp only

theorem State.sendAbort_rel {b_ : Bool} {s₀ : State} (s : State) (g : Nat) (x : Group) (o : CollOp) (e : Edge) (down : Bool) (status origin : Nat) (h_s : s₀.Rel b_ s) :
    s₀.Rel b_ (State.sendAbort s g x o e down status origin) := by
  unfold State.sendAbort
  repeat'
    first
    | with_reducible assumption
    | with_reducible apply State.accept_rel
    | with_reducible apply State.drawn_rel
    | split
    | dsimp only
    | with_reducible refine State.rel_fst (by assumption) ?_

theorem State.cutMsgs_rel {b_ : Bool} {s₀ : State} (s : State) (g : Nat) (h_s : s₀.Rel b_ s) :
    s₀.Rel b_ (State.cutMsgs s g) := by
  unfold State.cutMsgs
  repeat'
    first
    | with_reducible assumption
    | with_reducible apply State.drawn_rel
    | simp only [State.rel_mk]
    | split

theorem State.breakMember_rel {b_ : Bool} {s₀ : State} (s : State) (g : Nat) (x : Group) (status origin : Nat) (h_s : s₀.Rel b_ s) :
    s₀.Rel b_ (State.breakMember s g x status origin) := by
  unfold State.breakMember
  repeat'
    first
    | with_reducible assumption
    | with_reducible apply State.bump_rel
    | with_reducible apply State.cutMsgs_rel
    | with_reducible apply State.enterAll_rel
    | with_reducible apply State.finishSlot_rel
    | with_reducible apply State.modGroup_rel
    | with_reducible apply State.sendAbort_rel
    | with_reducible apply State.taskEnd_rel
    | simp only [State.rel_mk]
    | with_reducible apply State.rel_foldl
    | intro _
    | split

theorem State.breakGroups_rel {b_ : Bool} {s₀ : State} (s : State) (status : Nat) (x0 : Nat) (x1 : List (Nat × Option Nat)) (h_s : s₀.Rel b_ s) :
    s₀.Rel b_ (State.breakGroups s status x0 x1) := by
  induction x0 generalizing s x1 with
  | zero => unfold State.breakGroups; exact h_s
  | succ n_ ih_ =>
    cases x1 with
    | nil => unfold State.breakGroups; exact h_s
    | cons g gs =>
      unfold State.breakGroups
      repeat'
        first
        | with_reducible assumption
        | with_reducible apply State.breakMember_rel
        | with_reducible apply ih_
        | split
        | dsimp only

theorem State.breakGroup_rel {b_ : Bool} {s₀ : State} (s : State) (g status origin : Nat) (h_s : s₀.Rel b_ s) :
    s₀.Rel b_ (State.breakGroup s g status origin) := by
  unfold State.breakGroup
  repeat'
    first
    | with_reducible assumption
    | with_reducible apply State.breakGroups_rel
    | dsimp only
    | with_reducible refine State.rel_fst (by assumption) ?_

theorem State.loseRecvs_rel {b_ : Bool} {s₀ : State} (s : State) (h : Nat) (k : Conn) (st : Nat) (h_s : s₀.Rel b_ s) :
    s₀.Rel b_ (State.loseRecvs s h k st) := by
  unfold State.loseRecvs
  repeat'
    first
    | with_reducible assumption
    | with_reducible apply State.covered_rel
    | with_reducible apply State.finishSlot_rel
    | with_reducible apply State.finishStored_rel
    | with_reducible apply State.freeEntry_rel
    | with_reducible apply State.rel_foldl
    | intro _
    | split
    | dsimp only

theorem State.breakConn_rel {b_ : Bool} {s₀ : State} (s : State) (h status : Nat) (h_s : s₀.Rel b_ s) :
    s₀.Rel b_ (State.breakConn s h status) := by
  unfold State.breakConn
  repeat'
    first
    | with_reducible assumption
    | with_reducible apply State.breakGroups_rel
    | with_reducible apply State.finishSlot_rel
    | with_reducible apply State.freeSlot_rel
    | with_reducible apply State.loseRecvs_rel
    | with_reducible apply State.modConn_rel
    | with_reducible apply State.withdrawAll_rel
    | simp only [State.rel_mk]
    | with_reducible apply State.rel_foldl
    | intro _
    | split
    | with_reducible refine State.rel_fst (by assumption) ?_

theorem State.takeRecv_rel {b_ : Bool} {s₀ : State} (s : State) (m : Envelope) (h_s : s₀.Rel b_ s) :
    s₀.Rel b_ (State.takeRecv s m).1 := by
  unfold State.takeRecv
  repeat'
    first
    | with_reducible assumption
    | with_reducible apply State.bumpBy_rel
    | with_reducible apply State.countMatch_rel
    | with_reducible apply State.modSlot_rel
    | simp only [State.rel_mk]
    | split

theorem State.queuePull_rel {b_ : Bool} {s₀ : State} (s : State) (e : Nat) (h_s : s₀.Rel b_ s) :
    s₀.Rel b_ (State.queuePull s e) := by
  unfold State.queuePull
  repeat'
    first
    | with_reducible assumption
    | with_reducible apply State.finishStored_rel
    | with_reducible apply State.pullTask_rel
    | simp only [State.rel_mk]
    | split

theorem State.matchSend_rel {b_ : Bool} {s₀ : State} (s : State) (h : Nat) (k : Conn) (c : Cell) (h_s : s₀.Rel b_ s) :
    s₀.Rel b_ (State.matchSend s h k c).1 := by
  unfold State.matchSend
  repeat'
    first
    | with_reducible assumption
    | with_reducible apply State.bump_rel
    | with_reducible apply State.countMatch_rel
    | with_reducible apply State.queuePull_rel
    | with_reducible apply State.takeRecv_rel
    | simp only [State.rel_mk, id_eq]
    | split
    | with_reducible refine State.rel_fst (by assumption) ?_

theorem State.noteReadFail_rel {b_ : Bool} {s₀ : State} (s : State) (h q status : Nat) (h_s : s₀.Rel b_ s) :
    s₀.Rel b_ (State.noteReadFail s h q status) := by
  unfold State.noteReadFail
  repeat'
    first
    | with_reducible assumption
    | with_reducible apply State.modEntry_rel
    | with_reducible apply State.modMsg_rel
    | simp only [State.rel_mk]
    | with_reducible apply State.rel_foldl
    | intro _
    | split

theorem State.failMsg_rel {b_ : Bool} {s₀ : State} (s : State) (h q status : Nat) (h_s : s₀.Rel b_ s) :
    s₀.Rel b_ (State.failMsg s h q status) := by
  unfold State.failMsg
  repeat'
    first
    | with_reducible assumption
    | with_reducible apply State.freeEntry_rel
    | with_reducible apply State.modConn_rel
    | with_reducible apply State.noteReadFail_rel
    | with_reducible apply State.sayCtl_rel
    | simp only [State.rel_mk]
    | with_reducible apply State.rel_foldl
    | intro _
    | split

theorem State.moveFront_rel {b_ : Bool} {s₀ : State} (s : State) (h : Nat) (h_s : s₀.Rel b_ s) :
    s₀.Rel b_ (State.moveFront s h) := by
  unfold State.moveFront
  repeat'
    first
    | with_reducible assumption
    | with_reducible apply State.modConn_rel
    | simp only [State.rel_mk]

theorem State.faultCheck_rel {b_ : Bool} {s₀ : State} (s : State) (h : Nat) (h_s : s₀.Rel b_ s) :
    s₀.Rel b_ (State.faultCheck s h) := by
  unfold State.faultCheck
  repeat'
    first
    | with_reducible assumption
    | with_reducible apply State.bump_rel
    | with_reducible apply State.modConn_rel
    | with_reducible apply State.sayRma_rel
    | simp only [State.rel_mk]
    | split

theorem State.writePieces_rel {s₀ : State} (s : State) (i va : Nat) (x0 : List (Nat × Nat)) (x1 : Nat) (h_s : s₀.Rel false s) :
    s₀.Rel false (State.writePieces s i va x0 x1) := by
  induction x0 generalizing s i va x1 with
  | nil =>
    unfold State.writePieces
    repeat'
      first
      | with_reducible assumption
      | with_reducible apply State.dataWrite_rel
      | split
      | dsimp only
  | cons a_ l_ ih_ =>
    unfold State.writePieces
    repeat'
      first
      | with_reducible assumption
      | with_reducible apply State.dataWrite_rel
      | split
      | dsimp only
      | with_reducible apply ih_

theorem State.placeBytes_rel {s₀ : State} (s : State) (h : Nat) (m : RxMsg) (c : Cell) (h_s : s₀.Rel false s) :
    s₀.Rel false (State.placeBytes s h m c).1 := by
  unfold State.placeBytes
  repeat'
    first
    | with_reducible assumption
    | with_reducible apply State.access_rel
    | with_reducible apply State.modEntry_rel
    | with_reducible apply State.modGroup_rel
    | with_reducible apply State.writePieces_rel
    | simp only [State.rel_mk]
    | split
    | with_reducible refine State.rel_fst (by assumption) ?_

theorem State.completeSeg_rel {b_ : Bool} {s₀ : State} (s : State) (h q : Nat) (h_s : s₀.Rel b_ s) :
    s₀.Rel b_ (State.completeSeg s h q) := by
  unfold State.completeSeg
  repeat'
    first
    | with_reducible assumption
    | with_reducible apply State.modConn_rel
    | with_reducible apply State.moveFront_rel
    | with_reducible apply State.sayCtl_rel
    | simp only [State.rel_mk]
    | split

theorem State.settleCell_rel {s₀ : State} (s : State) (h : Nat) (c : Cell) (h_s : s₀.Rel false s) :
    s₀.Rel false (State.settleCell s h c) := by
  unfold State.settleCell
  repeat'
    first
    | with_reducible assumption
    | with_reducible apply State.bump_rel
    | with_reducible apply State.completeSeg_rel
    | with_reducible apply State.countInst_rel
    | with_reducible apply State.failMsg_rel
    | with_reducible apply State.faultCheck_rel
    | with_reducible apply State.modConn_rel
    | with_reducible apply State.moveFront_rel
    | with_reducible apply State.placeBytes_rel
    | simp only [State.rel_mk]
    | split
    | with_reducible refine State.rel_fst (by assumption) ?_

theorem State.forgetRec_rel {b_ : Bool} {s₀ : State} (s : State) (h q : Nat) (h_s : s₀.Rel b_ s) :
    s₀.Rel b_ (State.forgetRec s h q) := by
  unfold State.forgetRec
  repeat'
    first
    | with_reducible assumption
    | with_reducible apply State.modConn_rel
    | simp only [State.rel_mk]
    | split

theorem State.settleMatch_rel {b_ : Bool} {s₀ : State} (s : State) (h : Nat) (h_s : s₀.Rel b_ s) :
    s₀.Rel b_ (State.settleMatch s h) := by
  unfold State.settleMatch
  repeat'
    first
    | with_reducible assumption
    | with_reducible apply State.matchSend_rel
    | with_reducible apply State.modConn_rel
    | simp only [State.rel_mk]
    | split
    | with_reducible refine State.rel_fst (by assumption) ?_

theorem State.collCell_rel {b_ : Bool} {s₀ : State} (s : State) (h : Nat) (c : Cell) (h_s : s₀.Rel b_ s) :
    s₀.Rel b_ (State.collCell s h c).1 := by
  unfold State.collCell
  repeat'
    first
    | with_reducible assumption
    | with_reducible apply State.collUp_rel
    | with_reducible apply State.modGroup_rel
    | simp only [State.rel_mk]
    | split
    | with_reducible refine State.rel_fst (by assumption) ?_

theorem State.growMsg_rel {b_ : Bool} {s₀ : State} (s : State) (id off n x : Nat) (hdr : Option Nat) (h_s : s₀.Rel b_ s) :
    s₀.Rel b_ (State.growMsg s id off n x hdr) := by
  unfold State.growMsg
  repeat'
    first
    | with_reducible assumption
    | with_reducible apply State.modMsg_rel
    | simp only [State.rel_mk, id_eq]
    | split

theorem State.sendColl_rel {b_ : Bool} {s₀ : State} (s : State) (g : Nat) (o : CollOp) (down : Bool) (m : TxMsg) (h_s : s₀.Rel b_ s) :
    s₀.Rel b_ (State.sendColl s g o down m).1 := by
  unfold State.sendColl
  repeat'
    first
    | with_reducible assumption
    | with_reducible apply State.accept_rel
    | with_reducible apply State.modMsg_rel
    | simp only [State.rel_mk, id_eq]
    | split
    | with_reducible refine State.rel_fst (by assumption) ?_

theorem State.downTo_rel {b_ : Bool} {s₀ : State} (s : State) (g : Nat) (x : Group) (o : CollOp) (e : Edge) (avail : Option Nat) (h_s : s₀.Rel b_ s) :
    s₀.Rel b_ (State.downTo s g x o e avail) := by
  unfold State.downTo
  repeat'
    first
    | with_reducible assumption
    | with_reducible apply State.modGroup_rel
    | with_reducible apply State.sendColl_rel
    | simp only [State.rel_mk]
    | split
    | with_reducible refine State.rel_fst (by assumption) ?_

theorem State.openDown_rel {b_ : Bool} {s₀ : State} (s : State) (g : Nat) (x : Group) (o : CollOp) (kids : List (Edge × ChildMsg)) (avail : Nat) (h_s : s₀.Rel b_ s) :
    s₀.Rel b_ (State.openDown s g x o kids avail) := by
  unfold State.openDown
  repeat'
    first
    | with_reducible assumption
    | with_reducible apply State.downTo_rel
    | with_reducible apply State.rel_foldl
    | intro _
    | dsimp only

theorem State.closeDown_rel {b_ : Bool} {s₀ : State} (s : State) (g : Nat) (x : Group) (o : CollOp) (kids : List (Edge × ChildMsg)) (h_s : s₀.Rel b_ s) :
    s₀.Rel b_ (State.closeDown s g x o kids) := by
  unfold State.closeDown
  repeat'
    first
    | with_reducible assumption
    | with_reducible apply State.downTo_rel
    | with_reducible apply State.rel_foldl
    | intro _
    | dsimp only

theorem State.forwardDown_rel {b_ : Bool} {s₀ : State} (s : State) (g : Nat) (x : Group) (o : CollOp) (kids : List (Edge × ChildMsg)) (off n d : Nat) (h_s : s₀.Rel b_ s) :
    s₀.Rel b_ (State.forwardDown s g x o kids off n d) := by
  unfold State.forwardDown
  repeat'
    first
    | with_reducible assumption
    | with_reducible apply State.downTo_rel
    | with_reducible apply State.growMsg_rel
    | with_reducible apply State.modGroup_rel
    | simp only [State.rel_mk, id_eq]
    | with_reducible apply State.rel_foldl
    | intro _
    | split

theorem State.placeResult_rel {s₀ : State} (s : State) (g : Nat) (x : Group) (o : CollOp) (off n d : Nat) (h_s : s₀.Rel false s) :
    s₀.Rel false (State.placeResult s g x o off n d).st := by
  unfold State.placeResult
  repeat'
    first
    | with_reducible assumption
    | with_reducible apply State.access_rel
    | with_reducible apply State.countInst_rel
    | with_reducible apply State.modGroup_rel
    | with_reducible apply State.writePieces_rel
    | simp only [State.rel_mk, CollPlace.st_done, CollPlace.st_wait]
    | split
    | with_reducible refine State.rel_fst (by assumption) ?_
    | with_reducible refine State.rel_done (by assumption) ?_
    | with_reducible refine State.rel_wait (by assumption) ?_

theorem State.completeOp_rel {b_ : Bool} {s₀ : State} (s : State) (g : Nat) (x : Group) (o : CollOp) (h_s : s₀.Rel b_ s) :
    s₀.Rel b_ (State.completeOp s g x o) := by
  unfold State.completeOp
  repeat'
    first
    | with_reducible assumption
    | with_reducible apply State.bump_rel
    | with_reducible apply State.enterAll_rel
    | with_reducible apply State.finishSlot_rel
    | with_reducible apply State.modGroup_rel
    | with_reducible apply State.taskEnd_rel
    | simp only [State.rel_mk]
    | split

theorem State.zeroCell_rel {s₀ : State} (s : State) (h : Nat) (m : RxMsg) (q idx : Nat) (h_s : s₀.Rel false s) :
    s₀.Rel false (State.zeroCell s h m q idx).1 := by
  unfold State.zeroCell
  repeat'
    first
    | with_reducible assumption
    | with_reducible apply State.access_rel
    | with_reducible apply State.modEntry_rel
    | with_reducible apply State.writePieces_rel
    | simp only [State.rel_mk]
    | split
    | with_reducible refine State.rel_fst (by assumption) ?_

theorem State.zeroSegment_rel {s₀ : State} (s : State) (h : Nat) (m : RxMsg) (r : SegRec) (h_s : s₀.Rel false s) :
    s₀.Rel false (State.zeroSegment s h m r).1 := by
  unfold State.zeroSegment
  refine State.rel_foldl_fst ?_ ?_
  · intro a i h
    exact State.zeroCell_rel _ _ _ _ _ h
  · exact h_s

theorem State.checkTag_rel {s₀ : State} (s : State) (h q : Nat) (h_s : s₀.Rel false s) :
    s₀.Rel false (State.checkTag s h q) := by
  unfold State.checkTag
  repeat'
    first
    | with_reducible assumption
    | with_reducible apply State.bump_rel
    | with_reducible apply State.completeSeg_rel
    | with_reducible apply State.failMsg_rel
    | with_reducible apply State.faultCheck_rel
    | with_reducible apply State.modConn_rel
    | with_reducible apply State.moveFront_rel
    | with_reducible apply State.zeroSegment_rel
    | simp only [State.rel_mk]
    | split
    | with_reducible refine State.rel_fst (by assumption) ?_

theorem State.retireKey_rel {b_ : Bool} {s₀ : State} (s : State) (h : Nat) (h_s : s₀.Rel b_ s) :
    s₀.Rel b_ (State.retireKey s h) := by
  unfold State.retireKey
  repeat'
    first
    | with_reducible assumption
    | with_reducible apply State.modConn_rel
    | simp only [State.rel_mk]
    | split

theorem State.installKey_rel {b_ : Bool} {s₀ : State} (s : State) (h e : Nat) (key : BitVec 256) (h_s : s₀.Rel b_ s) :
    s₀.Rel b_ (State.installKey s h e key) := by
  unfold State.installKey
  repeat'
    first
    | with_reducible assumption
    | with_reducible apply State.modConn_rel
    | with_reducible apply State.needContext_rel
    | with_reducible apply State.openIfWork_rel
    | with_reducible apply State.sayRma_rel
    | simp only [State.rel_mk]
    | split

theorem State.settleRound_rel {s₀ : State} (s : State) (h : Nat) (h_s : s₀.Rel false s) :
    s₀.Rel false (State.settleRound s h) := by
  unfold State.settleRound
  repeat'
    first
    | with_reducible assumption
    | with_reducible apply State.checkTag_rel
    | with_reducible apply State.settleCell_rel
    | with_reducible apply State.settleMatch_rel
    | with_reducible apply State.rel_foldl
    | intro _
    | split
    | dsimp only

theorem State.settle_rel {s₀ : State} (s : State) (h : Nat) (x0 : Nat) (h_s : s₀.Rel false s) :
    s₀.Rel false (State.settle s h x0) := by
  induction x0 generalizing s h with
  | zero =>
    unfold State.settle
    repeat'
      first
      | with_reducible assumption
      | with_reducible apply State.settleRound_rel
      | split
      | dsimp only
  | succ n_ ih_ =>
    unfold State.settle
    repeat'
      first
      | with_reducible assumption
      | with_reducible apply State.settleRound_rel
      | split
      | dsimp only
      | with_reducible apply ih_

theorem State.settleAll_rel {s₀ : State} (s : State) (h : Nat) (h_s : s₀.Rel false s) :
    s₀.Rel false (State.settleAll s h) := by
  unfold State.settleAll
  repeat'
    first
    | with_reducible assumption
    | with_reducible apply State.settle_rel
    | dsimp only

theorem State.retryInst_rel {s₀ : State} (s : State) (i : Nat) (h_s : s₀.Rel false s) :
    s₀.Rel false (State.retryInst s i) := by
  unfold State.retryInst
  repeat'
    first
    | with_reducible assumption
    | with_reducible apply State.settleAll_rel
    | with_reducible apply State.rel_foldl
    | intro _
    | dsimp only

theorem State.waitContext_rel {b_ : Bool} {s₀ : State} (s : State) (h : Nat) (c : Cell) (h_s : s₀.Rel b_ s) :
    s₀.Rel b_ (State.waitContext s h c) := by
  unfold State.waitContext
  repeat'
    first
    | with_reducible assumption
    | with_reducible apply State.needContext_rel
    | simp only [State.rel_mk]

theorem State.withCtl_rel {b_ : Bool} {s₀ : State} (s : State) (c : Cell) (typ kind : Nat) (f : State → Nat → Conn → State) (h_s : s₀.Rel b_ s) (h_f : ∀ y0 y1 y2, s₀.Rel b_ y0 → s₀.Rel b_ (f y0 y1 y2)) :
    s₀.Rel b_ (State.withCtl s c typ kind f) := by
  unfold State.withCtl
  repeat'
    first
    | with_reducible assumption
    | with_reducible apply h_f
    | with_reducible apply State.bump_rel
    | with_reducible apply State.needContext_rel
    | with_reducible apply State.receive_rel
    | with_reducible apply State.waitContext_rel
    | simp only [id_eq]
    | intro _
    | split

theorem State.withRma_rel {b_ : Bool} {s₀ : State} (s : State) (c : Cell) (op : Nat) (f : State → Nat → Conn → State) (h_s : s₀.Rel b_ s) (h_f : ∀ y0 y1 y2, s₀.Rel b_ y0 → s₀.Rel b_ (f y0 y1 y2)) :
    s₀.Rel b_ (State.withRma s c op f) := by
  unfold State.withRma
  repeat'
    first
    | with_reducible assumption
    | with_reducible apply h_f
    | with_reducible apply State.withCtl_rel
    | intro _
    | split
    | dsimp only

theorem State.enterOpen_rel {b_ : Bool} {s₀ : State} (s : State) (h gen wm front : Nat) (h_s : s₀.Rel b_ s) :
    s₀.Rel b_ (State.enterOpen s h gen wm front) := by
  unfold State.enterOpen
  repeat'
    first
    | with_reducible assumption
    | with_reducible apply State.applyWm_rel
    | with_reducible apply State.modConn_rel
    | with_reducible apply State.sayRma_rel
    | simp only [State.rel_mk]
    | split

theorem State.peerReset_rel {s₀ : State} (s : State) (h wm : Nat) (h_s : s₀.Rel false s) :
    s₀.Rel false (State.peerReset s h wm) := by
  unfold State.peerReset
  repeat'
    first
    | with_reducible assumption
    | with_reducible apply State.abandonConn_rel
    | with_reducible apply State.modConn_rel
    | simp only [State.rel_mk]

theorem State.takeOpen_rel {s₀ : State} (s : State) (c : Cell) (h_s : s₀.Rel false s) :
    s₀.Rel false (State.takeOpen s c) := by
  unfold State.takeOpen
  repeat'
    first
    | with_reducible assumption
    | with_reducible apply State.applyWm_rel
    | with_reducible apply State.bump_rel
    | with_reducible apply State.enterOpen_rel
    | with_reducible apply State.jrnlConn_rel
    | with_reducible apply State.modConn_rel
    | with_reducible apply State.needContext_rel
    | with_reducible apply State.peerReset_rel
    | with_reducible apply State.sayCtl_rel
    | with_reducible apply State.waitContext_rel
    | simp only [State.rel_mk]
    | split

theorem execOpenConn_rel {s₀ : State} (c : Cell) (v : View) (s : State) {t_ : State} (h_s : s₀.Rel false s) (e_ : execOpenConn c v s = .next t_) :
    s₀.Rel false t_ := by
  unfold execOpenConn at e_
  injection e_ with e_
  subst e_
  repeat'
    first
    | with_reducible assumption
    | with_reducible apply State.receive_rel
    | with_reducible apply State.see_rel
    | with_reducible apply State.takeOpen_rel
    | intro _
    | split
    | dsimp only

theorem execOpenAck_rel {b_ : Bool} {s₀ : State} (c : Cell) (v : View) (s : State) {t_ : State} (h_s : s₀.Rel b_ s) (e_ : execOpenAck c v s = .next t_) :
    s₀.Rel b_ t_ := by
  unfold execOpenAck at e_
  injection e_ with e_
  subst e_
  repeat'
    first
    | with_reducible assumption
    | with_reducible apply State.applyFront_rel
    | with_reducible apply State.applyWm_rel
    | with_reducible apply State.enterOpen_rel
    | with_reducible apply State.jrnlConn_rel
    | with_reducible apply State.progressOn_rel
    | with_reducible apply State.see_rel
    | with_reducible apply State.withCtl_rel
    | intro _
    | split
    | dsimp only

theorem State.noteDtime_rel {b_ : Bool} {s₀ : State} (s : State) (h q t : Nat) (h_s : s₀.Rel b_ s) :
    s₀.Rel b_ (State.noteDtime s h q t) := by
  unfold State.noteDtime
  repeat'
    first
    | with_reducible assumption
    | with_reducible apply State.modMsg_rel
    | simp only [State.rel_mk]
    | with_reducible apply State.rel_foldl
    | intro _
    | split

theorem execAck_rel {b_ : Bool} {s₀ : State} (c : Cell) (v : View) (s : State) {t_ : State} (h_s : s₀.Rel b_ s) (e_ : execAck c v s = .next t_) :
    s₀.Rel b_ t_ := by
  unfold execAck at e_
  injection e_ with e_
  subst e_
  repeat'
    first
    | with_reducible assumption
    | with_reducible apply State.applyFront_rel
    | with_reducible apply State.applyWm_rel
    | with_reducible apply State.noteDtime_rel
    | with_reducible apply State.retireKey_rel
    | with_reducible apply State.see_rel
    | with_reducible apply State.segDone_rel
    | with_reducible apply State.withCtl_rel
    | intro _
    | split
    | dsimp only

theorem State.faultAgain_rel {b_ : Bool} {s₀ : State} (s : State) (h : Nat) (k : Conn) (qs : List Nat) (h_s : s₀.Rel b_ s) :
    s₀.Rel b_ (State.faultAgain s h k qs) := by
  unfold State.faultAgain
  repeat'
    first
    | with_reducible assumption
    | with_reducible apply State.bump_rel
    | with_reducible apply State.sayRma_rel
    | with_reducible apply State.rel_foldl
    | intro _
    | dsimp only

theorem execProbe_rel {b_ : Bool} {s₀ : State} (c : Cell) (s : State) {t_ : State} (h_s : s₀.Rel b_ s) (e_ : execProbe c s = .next t_) :
    s₀.Rel b_ t_ := by
  unfold execProbe at e_
  injection e_ with e_
  subst e_
  repeat'
    first
    | with_reducible assumption
    | with_reducible apply State.faultAgain_rel
    | with_reducible apply State.openAgain_rel
    | with_reducible apply State.sayCtl_rel
    | with_reducible apply State.withCtl_rel
    | with_reducible apply State.rel_foldl
    | intro _
    | split
    | dsimp only

theorem State.takeEntry_rel {b_ : Bool} {s₀ : State} (s : State) (h e : Nat) (h_s : s₀.Rel b_ s) :
    s₀.Rel b_ (State.takeEntry s h e) := by
  unfold State.takeEntry
  repeat'
    first
    | with_reducible assumption
    | with_reducible apply State.modConn_rel
    | with_reducible apply State.segKnown_rel
    | simp only [State.rel_mk]
    | split

theorem execStatus_rel {b_ : Bool} {s₀ : State} (c : Cell) (v : View) (s : State) {t_ : State} (h_s : s₀.Rel b_ s) (e_ : execStatus c v s = .next t_) :
    s₀.Rel b_ t_ := by
  unfold execStatus at e_
  injection e_ with e_
  subst e_
  repeat'
    first
    | with_reducible assumption
    | with_reducible apply State.applyFront_rel
    | with_reducible apply State.applyWm_rel
    | with_reducible apply State.progressOn_rel
    | with_reducible apply State.see_rel
    | with_reducible apply State.takeEntry_rel
    | with_reducible apply State.withCtl_rel
    | with_reducible apply State.rel_foldl
    | intro _
    | split
    | dsimp only

theorem State.sayProbe_rel {b_ : Bool} {s₀ : State} (s : State) (h : Nat) (k : Conn) (h_s : s₀.Rel b_ s) :
    s₀.Rel b_ (State.sayProbe s h k) := by
  unfold State.sayProbe
  repeat'
    first
    | with_reducible assumption
    | with_reducible apply State.bump_rel
    | with_reducible apply State.sayCtl_rel
    | with_reducible apply State.take_rel
    | with_reducible apply State.rel_foldl
    | intro _
    | split
    | dsimp only

theorem State.timerExpiry_rel {b_ : Bool} {s₀ : State} (s : State) (h : Nat) (h_s : s₀.Rel b_ s) :
    s₀.Rel b_ (State.timerExpiry s h) := by
  unfold State.timerExpiry
  repeat'
    first
    | with_reducible assumption
    | with_reducible apply State.breakConn_rel
    | with_reducible apply State.bump_rel
    | with_reducible apply State.modConn_rel
    | with_reducible apply State.sayCtl_rel
    | with_reducible apply State.sayProbe_rel
    | with_reducible apply State.sayRma_rel
    | simp only [State.rel_mk]
    | with_reducible apply State.rel_foldl
    | intro _
    | split

theorem execRetransmissionTimer_rel {b_ : Bool} {s₀ : State} (h : Word) (v : View) (s : State) {t_ : State} (h_s : s₀.Rel b_ s) (e_ : execRetransmissionTimer h v s = .next t_) :
    s₀.Rel b_ t_ := by
  unfold execRetransmissionTimer at e_
  injection e_ with e_
  subst e_
  repeat'
    first
    | with_reducible assumption
    | with_reducible apply State.see_rel
    | with_reducible apply State.timerExpiry_rel
    | dsimp only

theorem execRemoteGeneration_rel {s₀ : State} (c : Cell) (v : View) (s : State) {t_ : State} (h_s : s₀.Rel false s) (e_ : execRemoteGeneration c v s = .next t_) :
    s₀.Rel false t_ := by
  unfold execRemoteGeneration at e_
  injection e_ with e_
  subst e_
  repeat'
    first
    | with_reducible assumption
    | with_reducible apply State.abandonConn_rel
    | with_reducible apply State.breakConn_rel
    | with_reducible apply State.see_rel
    | with_reducible apply State.withCtl_rel
    | intro _
    | dsimp only

theorem State.swapIn_rel {b_ : Bool} {s₀ : State} (s : State) (h : Nat) (h_s : s₀.Rel b_ s) :
    s₀.Rel b_ (State.swapIn s h) := by
  unfold State.swapIn
  repeat'
    first
    | with_reducible assumption
    | with_reducible apply State.drawn_rel
    | with_reducible apply State.jrnlConn_rel
    | with_reducible apply State.modConn_rel
    | simp only [State.rel_mk]
    | split

theorem execContextSwapComplete_rel {b_ : Bool} {s₀ : State} (h : Word) (s : State) {t_ : State} (h_s : s₀.Rel b_ s) (e_ : execContextSwapComplete h s = .next t_) :
    s₀.Rel b_ t_ := by
  unfold execContextSwapComplete at e_
  injection e_ with e_
  subst e_
  repeat'
    first
    | with_reducible assumption
    | with_reducible apply State.openIfWork_rel
    | with_reducible apply State.swapIn_rel
    | simp only [State.rel_mk]
    | split

theorem State.postNotice_rel {b_ : Bool} {s₀ : State} (s : State) (i : Nat) (c : Cqe) (h_s : s₀.Rel b_ s) :
    s₀.Rel b_ (State.postNotice s i c) := by
  unfold State.postNotice
  repeat'
    first
    | with_reducible assumption
    | with_reducible apply State.bump_rel
    | with_reducible apply State.post_rel
    | split
    | dsimp only

theorem State.recordFault_rel {b_ : Bool} {s₀ : State} (s : State) (h id st : Nat) (m : TxMsg) (h_s : s₀.Rel b_ s) :
    s₀.Rel b_ (State.recordFault s h id st m) := by
  unfold State.recordFault
  repeat'
    first
    | with_reducible assumption
    | with_reducible apply State.bump_rel
    | with_reducible apply State.finishSlot_rel
    | with_reducible apply State.modEntry_rel
    | with_reducible apply State.modMsg_rel
    | with_reducible apply State.postNotice_rel
    | simp only [State.rel_mk, id_eq]
    | split

theorem execFault_rel {b_ : Bool} {s₀ : State} (c : Cell) (v : View) (s : State) {t_ : State} (h_s : s₀.Rel b_ s) (e_ : execFault c v s = .next t_) :
    s₀.Rel b_ t_ := by
  unfold execFault at e_
  injection e_ with e_
  subst e_
  repeat'
    first
    | with_reducible assumption
    | with_reducible apply State.applyWm_rel
    | with_reducible apply State.progressOn_rel
    | with_reducible apply State.recordFault_rel
    | with_reducible apply State.sayRma_rel
    | with_reducible apply State.see_rel
    | with_reducible apply State.withRma_rel
    | simp only [id_eq]
    | intro _
    | split

theorem execFaultConfirm_rel {b_ : Bool} {s₀ : State} (c : Cell) (s : State) {t_ : State} (h_s : s₀.Rel b_ s) (e_ : execFaultConfirm c s = .next t_) :
    s₀.Rel b_ t_ := by
  unfold execFaultConfirm at e_
  injection e_ with e_
  subst e_
  repeat'
    first
    | with_reducible assumption
    | with_reducible apply State.modConn_rel
    | with_reducible apply State.withRma_rel
    | simp only [State.rel_mk]
    | intro _
    | split

theorem State.failServed_rel {b_ : Bool} {s₀ : State} (s : State) (h st : Nat) (m : TxMsg) (h_s : s₀.Rel b_ s) :
    s₀.Rel b_ (State.failServed s h st m) := by
  unfold State.failServed
  repeat'
    first
    | with_reducible assumption
    | with_reducible apply State.bump_rel
    | with_reducible apply State.failMsg_rel
    | with_reducible apply State.faultCheck_rel
    | with_reducible apply State.moveFront_rel
    | split
    | dsimp only

theorem State.sourceLost_rel {b_ : Bool} {s₀ : State} (s : State) (id : Nat) (h_s : s₀.Rel b_ s) :
    s₀.Rel b_ (State.sourceLost s id) := by
  unfold State.sourceLost
  repeat'
    first
    | with_reducible assumption
    | with_reducible apply State.dropMsg_rel
    | with_reducible apply State.failServed_rel
    | with_reducible apply State.finishSlot_rel
    | with_reducible apply State.modMsg_rel
    | with_reducible apply State.sayRma_rel
    | simp only [State.rel_mk, id_eq]
    | split

theorem State.sourceReadFail_rel {b_ : Bool} {s₀ : State} (s : State) (id : Nat) (timeout : Bool) (h_s : s₀.Rel b_ s) :
    s₀.Rel b_ (State.sourceReadFail s id timeout) := by
  unfold State.sourceReadFail
  repeat'
    first
    | with_reducible assumption
    | with_reducible apply State.raise_rel
    | with_reducible apply State.sourceLost_rel
    | simp only [id_eq]
    | split

theorem execSourceReadFail_rel {b_ : Bool} {s₀ : State} (id : Nat) (timeout : Bool) (v : View) (s : State) {t_ : State} (h_s : s₀.Rel b_ s) (e_ : execSourceReadFail id timeout v s = .next t_) :
    s₀.Rel b_ t_ := by
  unfold execSourceReadFail at e_
  injection e_ with e_
  subst e_
  repeat'
    first
    | with_reducible assumption
    | with_reducible apply State.see_rel
    | with_reducible apply State.sourceReadFail_rel
    | simp only [id_eq]

theorem State.takeSourceFault_rel {s₀ : State} (s : State) (h q : Nat) (c : Cell) (h_s : s₀.Rel false s) :
    s₀.Rel false (State.takeSourceFault s h q c) := by
  unfold State.takeSourceFault
  repeat'
    first
    | with_reducible assumption
    | with_reducible apply State.bump_rel
    | with_reducible apply State.failMsg_rel
    | with_reducible apply State.faultCheck_rel
    | with_reducible apply State.modConn_rel
    | with_reducible apply State.moveFront_rel
    | with_reducible apply State.sayRma_rel
    | with_reducible apply State.settleAll_rel
    | simp only [State.rel_mk]
    | split

theorem execSourceFault_rel {s₀ : State} (c : Cell) (s : State) {t_ : State} (h_s : s₀.Rel false s) (e_ : execSourceFault c s = .next t_) :
    s₀.Rel false t_ := by
  unfold execSourceFault at e_
  injection e_ with e_
  subst e_
  repeat'
    first
    | with_reducible assumption
    | with_reducible apply State.takeSourceFault_rel
    | with_reducible apply State.withRma_rel
    | intro _
    | dsimp only

theorem execTag_rel {s₀ : State} (c : Cell) (s : State) {t_ : State} (h_s : s₀.Rel false s) (e_ : execTag c s = .next t_) :
    s₀.Rel false t_ := by
  unfold execTag at e_
  injection e_ with e_
  subst e_
  repeat'
    first
    | with_reducible assumption
    | with_reducible apply State.checkTag_rel
    | with_reducible apply State.modConn_rel
    | with_reducible apply State.settleAll_rel
    | with_reducible apply State.withRma_rel
    | simp only [State.rel_mk]
    | intro _
    | split

theorem State.takeKeySwitch_rel {b_ : Bool} {s₀ : State} (s : State) (h e b : Nat) (h_s : s₀.Rel b_ s) :
    s₀.Rel b_ (State.takeKeySwitch s h e b) := by
  unfold State.takeKeySwitch
  repeat'
    first
    | with_reducible assumption
    | with_reducible apply State.bump_rel
    | with_reducible apply State.forgetRec_rel
    | with_reducible apply State.modConn_rel
    | with_reducible apply State.retireKey_rel
    | with_reducible apply State.sayRma_rel
    | simp only [State.rel_mk]
    | with_reducible apply State.rel_foldl
    | intro _
    | split

theorem execKeySwitch_rel {b_ : Bool} {s₀ : State} (c : Cell) (s : State) {t_ : State} (h_s : s₀.Rel b_ s) (e_ : execKeySwitch c s = .next t_) :
    s₀.Rel b_ t_ := by
  unfold execKeySwitch at e_
  injection e_ with e_
  subst e_
  repeat'
    first
    | with_reducible assumption
    | with_reducible apply State.takeKeySwitch_rel
    | with_reducible apply State.withRma_rel
    | intro _
    | dsimp only

theorem execKeySwitchAck_rel {b_ : Bool} {s₀ : State} (c : Cell) (s : State) {t_ : State} (h_s : s₀.Rel b_ s) (e_ : execKeySwitchAck c s = .next t_) :
    s₀.Rel b_ t_ := by
  unfold execKeySwitchAck at e_
  injection e_ with e_
  subst e_
  repeat'
    first
    | with_reducible assumption
    | with_reducible apply State.bump_rel
    | with_reducible apply State.modConn_rel
    | with_reducible apply State.progressOn_rel
    | with_reducible apply State.retireKey_rel
    | with_reducible apply State.withRma_rel
    | simp only [State.rel_mk]
    | intro _
    | split

theorem execNoKey_rel {b_ : Bool} {s₀ : State} (c : Cell) (s : State) {t_ : State} (h_s : s₀.Rel b_ s) (e_ : execNoKey c s = .next t_) :
    s₀.Rel b_ t_ := by
  unfold execNoKey at e_
  injection e_ with e_
  subst e_
  repeat'
    first
    | with_reducible assumption
    | with_reducible apply State.modConn_rel
    | with_reducible apply State.withRma_rel
    | simp only [State.rel_mk]
    | intro _

theorem State.admitCell_rel {b_ : Bool} {s₀ : State} (s : State) (h : Nat) (k : Conn) (c : Cell) (h_s : s₀.Rel b_ s) :
    s₀.Rel b_ (State.admitCell s h k c).1 := by
  unfold State.admitCell
  repeat'
    first
    | with_reducible assumption
    | with_reducible apply State.bump_rel
    | with_reducible apply State.collCell_rel
    | with_reducible apply State.lookKey_rel
    | with_reducible apply State.take_rel
    | split
    | dsimp only
    | with_reducible refine State.rel_fst (by assumption) ?_

theorem State.meet_rel {b_ : Bool} {s₀ : State} (s : State) (h : Nat) (k : Conn) (c : Cell) (h_s : s₀.Rel b_ s) :
    s₀.Rel b_ (State.meet s h k c).1 := by
  unfold State.meet
  repeat'
    first
    | with_reducible assumption
    | with_reducible apply State.admitCell_rel
    | with_reducible apply State.bump_rel
    | with_reducible apply State.failMsg_rel
    | with_reducible apply State.faultCheck_rel
    | with_reducible apply State.modConn_rel
    | with_reducible apply State.moveFront_rel
    | with_reducible apply State.take_rel
    | simp only [State.rel_mk]
    | split
    | with_reducible refine State.rel_fst (by assumption) ?_

theorem State.unhold_rel {b_ : Bool} {s₀ : State} (s : State) (h : Nat) (c : Cell) (h_s : s₀.Rel b_ s) :
    s₀.Rel b_ (State.unhold s h c) := by
  unfold State.unhold
  repeat'
    first
    | with_reducible assumption
    | with_reducible apply State.bump_rel
    | with_reducible apply State.modConn_rel
    | simp only [State.rel_mk]
    | split

theorem State.countHeld_rel {b_ : Bool} {s₀ : State} (s : State) (h : Nat) (c : Cell) (h_s : s₀.Rel b_ s) :
    s₀.Rel b_ (State.countHeld s h c) := by
  unfold State.countHeld
  repeat'
    first
    | with_reducible assumption
    | with_reducible apply State.bump_rel
    | split
    | dsimp only

theorem State.landCell_rel {s₀ : State} (s : State) (h : Nat) (k : Conn) (c : Cell) (h_s : s₀.Rel false s) :
    s₀.Rel false (State.landCell s h k c) := by
  unfold State.landCell
  repeat'
    first
    | with_reducible assumption
    | with_reducible apply State.checkTag_rel
    | with_reducible apply State.countHeld_rel
    | with_reducible apply State.meet_rel
    | with_reducible apply State.modConn_rel
    | with_reducible apply State.settleAll_rel
    | with_reducible apply State.unhold_rel
    | simp only [State.rel_mk]
    | split
    | with_reducible refine State.rel_fst (by assumption) ?_

theorem State.newRec_rel {b_ : Bool} {s₀ : State} (s : State) (h q : Nat) (h_s : s₀.Rel b_ s) :
    s₀.Rel b_ (State.newRec s h q) := by
  unfold State.newRec
  repeat'
    first
    | with_reducible assumption
    | with_reducible apply State.modConn_rel
    | simp only [State.rel_mk]

theorem State.reclaim_rel {b_ : Bool} {s₀ : State} (s : State) (h q : Nat) (h_s : s₀.Rel b_ s) :
    s₀.Rel b_ (State.reclaim s h q) := by
  unfold State.reclaim
  repeat'
    first
    | with_reducible assumption
    | with_reducible apply State.bump_rel
    | with_reducible apply State.forgetRec_rel
    | dsimp only

theorem State.acceptCell_rel {s₀ : State} (s : State) (h : Nat) (k : Conn) (c : Cell) (h_s : s₀.Rel false s) :
    s₀.Rel false (State.acceptCell s h k c) := by
  unfold State.acceptCell
  repeat'
    first
    | with_reducible assumption
    | with_reducible apply State.bump_rel
    | with_reducible apply State.landCell_rel
    | with_reducible apply State.newRec_rel
    | with_reducible apply State.reclaim_rel
    | split
    | dsimp only

theorem State.classCell_rel {s₀ : State} (s : State) (h : Nat) (k : Conn) (c : Cell) (h_s : s₀.Rel false s) :
    s₀.Rel false (State.classCell s h k c) := by
  unfold State.classCell
  repeat'
    first
    | with_reducible assumption
    | with_reducible apply State.acceptCell_rel
    | with_reducible apply State.bump_rel
    | with_reducible apply State.sayCtl_rel
    | with_reducible apply State.sayRma_rel
    | split
    | dsimp only

theorem State.dataCell_rel {s₀ : State} (s : State) (c : Cell) (h_s : s₀.Rel false s) :
    s₀.Rel false (State.dataCell s c) := by
  unfold State.dataCell
  repeat'
    first
    | with_reducible assumption
    | with_reducible apply State.bump_rel
    | with_reducible apply State.classCell_rel
    | with_reducible apply State.needContext_rel
    | with_reducible apply State.openAgain_rel
    | with_reducible apply State.sayCtl_rel
    | with_reducible apply State.waitContext_rel
    | split
    | dsimp only

theorem execDataCell_rel {s₀ : State} (c : Cell) (s : State) {t_ : State} (h_s : s₀.Rel false s) (e_ : execDataCell c s = .next t_) :
    s₀.Rel false t_ := by
  unfold execDataCell at e_
  injection e_ with e_
  subst e_
  repeat'
    first
    | with_reducible assumption
    | with_reducible apply State.dataCell_rel
    | with_reducible apply State.receive_rel
    | simp only [id_eq]
    | intro _
    | split

theorem State.issueNote_rel {b_ : Bool} {s₀ : State} (s : State) (k : Conn) (q : Option Nat) (c : Cqe) (h_s : s₀.Rel b_ s) :
    s₀.Rel b_ (State.issueNote s k q c).1 := by
  unfold State.issueNote
  repeat'
    first
    | with_reducible assumption
    | with_reducible apply State.bump_rel
    | with_reducible apply State.postIn_rel
    | split
    | dsimp only
    | with_reducible refine State.rel_fst (by assumption) ?_

theorem State.noteWait_rel {b_ : Bool} {s₀ : State} (s : State) (h : Nat) (h_s : s₀.Rel b_ s) :
    s₀.Rel b_ (State.noteWait s h) := by
  unfold State.noteWait
  repeat'
    first
    | with_reducible assumption
    | with_reducible apply State.bump_rel
    | with_reducible apply State.modConn_rel
    | simp only [State.rel_mk]
    | split

theorem State.noteLock_rel {b_ : Bool} {s₀ : State} (s : State) (x : Slot) (st word : Nat) (h_s : s₀.Rel b_ s) :
    s₀.Rel b_ (State.noteLock s x st word) := by
  unfold State.noteLock
  repeat'
    first
    | with_reducible assumption
    | with_reducible apply State.modConn_rel
    | simp only [State.rel_mk]
    | split

theorem State.issueDue_rel {b_ : Bool} {s₀ : State} (s : State) (k : Conn) (d : Due) (h_s : s₀.Rel b_ s) :
    s₀.Rel b_ (State.issueDue s k d).1 := by
  unfold State.issueDue
  repeat'
    first
    | with_reducible assumption
    | with_reducible apply State.bump_rel
    | with_reducible apply State.finishIn_rel
    | with_reducible apply State.issueNote_rel
    | with_reducible apply State.noteLock_rel
    | split
    | dsimp only
    | with_reducible refine State.rel_fst (by assumption) ?_

theorem State.issueGroup_rel {b_ : Bool} {s₀ : State} (s : State) (k : Conn) (l : List Due) (h_s : s₀.Rel b_ s) :
    s₀.Rel b_ (State.issueGroup s k l) := by
  unfold State.issueGroup
  refine State.endGroup_rel _ _ (State.rel_foldl_fst ?_ ?_)
  · intro a d h
    exact State.issueDue_rel _ _ _ h
  · exact h_s

theorem State.coverStored_rel {b_ : Bool} {s₀ : State} (s : State) (h : Nat) (m : RxMsg) (h_s : s₀.Rel b_ s) :
    s₀.Rel b_ (State.coverStored s h m) := by
  unfold State.coverStored
  repeat'
    first
    | with_reducible assumption
    | with_reducible apply State.modConn_rel
    | with_reducible apply State.modEntry_rel
    | simp only [State.rel_mk]
    | split

theorem State.advanceWm_rel {b_ : Bool} {s₀ : State} (s : State) (h : Nat) (p : RxMsg → Bool) (h_s : s₀.Rel b_ s) :
    s₀.Rel b_ (State.advanceWm s h p) := by
  unfold State.advanceWm
  repeat'
    first
    | with_reducible assumption
    | with_reducible apply State.countGroup_rel
    | with_reducible apply State.coverStored_rel
    | with_reducible apply State.faultCheck_rel
    | with_reducible apply State.issueGroup_rel
    | with_reducible apply State.jrnlConn_rel
    | with_reducible apply State.modConn_rel
    | with_reducible apply State.noteWait_rel
    | with_reducible apply State.retireKey_rel
    | with_reducible apply State.sayCtl_rel
    | simp only [State.rel_mk]
    | with_reducible apply State.rel_foldl
    | intro _
    | split

theorem execWmAdvance_rel {b_ : Bool} {s₀ : State} (h : Word) (v : View) (s : State) {t_ : State} (h_s : s₀.Rel b_ s) (e_ : execWmAdvance h v s = .next t_) :
    s₀.Rel b_ t_ := by
  unfold execWmAdvance at e_
  injection e_ with e_
  subst e_
  repeat'
    first
    | with_reducible assumption
    | with_reducible apply State.advanceWm_rel
    | with_reducible apply State.see_rel
    | dsimp only

end Sys2Proof.Machine
end

