-- ==== Sys2Proof/Laws/KeepsAdmin.lean ====
section
/-! SUPPORT. What the model's functions keep of a state (`State.Rel`), one lemma each: the take of a descriptor and the admin commands. -/

set_option linter.unusedSimpArgs false

namespace Sys2Proof.Machine

open Host (Outcome)

theorem State.badTime_rel {b_ : Bool} {s₀ : State} (s : State) (i q : Nat) (e : Entry) (h_s : s₀.Rel b_ s) :
    s₀.Rel b_ (State.badTime s i q e).1 := by
  unfold State.badTime
  repeat'
    first
    | with_reducible assumption
    | with_reducible apply State.bump_rel
    | split
    | dsimp only

theorem State.colour_rel {b_ : Bool} {s₀ : State} (s : State) (i c b pre : Nat) (h_s : s₀.Rel b_ s) :
    s₀.Rel b_ (State.colour s i c b pre).1 := by
  unfold State.colour
  repeat'
    first
    | with_reducible assumption
    | with_reducible apply State.bump_rel
    | with_reducible apply State.occur_rel
    | simp only [State.rel_mk]
    | split

theorem State.police_rel {b_ : Bool} {s₀ : State} (s : State) (i : Nat) (e : Entry) (h_s : s₀.Rel b_ s) :
    s₀.Rel b_ (State.police s i e).1 := by
  unfold State.police
  repeat'
    first
    | with_reducible assumption
    | with_reducible apply State.colour_rel
    | split
    | dsimp only
    | with_reducible refine State.rel_fst (by assumption) ?_

theorem State.judge_rel {b_ : Bool} {s₀ : State} (s : State) (q : Nat) (x : Queue) (e : Entry) (h_s : s₀.Rel b_ s) :
    s₀.Rel b_ (State.judge s q x e).1 := by
  unfold State.judge
  repeat'
    first
    | with_reducible assumption
    | with_reducible apply State.accept_rel
    | with_reducible apply State.badTime_rel
    | with_reducible apply State.police_rel
    | split
    | dsimp only
    | with_reducible refine State.rel_fst (by assumption) ?_

theorem State.fileRecv_rel {b_ : Bool} {s₀ : State} (s : State) (z : Nat) (x : Slot) (h_s : s₀.Rel b_ s) :
    s₀.Rel b_ (State.fileRecv s z x) := by
  unfold State.fileRecv
  repeat'
    first
    | with_reducible assumption
    | with_reducible apply State.countMatch_rel
    | with_reducible apply State.finishSlot_rel
    | with_reducible apply State.lookKey_rel
    | with_reducible apply State.modEntry_rel
    | with_reducible apply State.modSlot_rel
    | with_reducible apply State.queuePull_rel
    | simp only [State.rel_mk]
    | split

theorem State.cancelRecv_rel {b_ : Bool} {s₀ : State} (s : State) (z : Nat) (e : Entry) (h_s : s₀.Rel b_ s) :
    s₀.Rel b_ (State.cancelRecv s z e) := by
  unfold State.cancelRecv
  repeat'
    first
    | with_reducible assumption
    | with_reducible apply State.bump_rel
    | with_reducible apply State.finishSlot_rel
    | simp only [State.rel_mk]
    | split

theorem State.startSend_rel {b_ : Bool} {s₀ : State} (s : State) (z : Nat) (x : Slot) (h_s : s₀.Rel b_ s) :
    s₀.Rel b_ (State.startSend s z x) := by
  unfold State.startSend
  repeat'
    first
    | with_reducible assumption
    | with_reducible apply State.accept_rel
    | with_reducible apply State.finishSlot_rel
    | with_reducible apply State.lookKey_rel
    | split
    | dsimp only
    | with_reducible refine State.rel_fst (by assumption) ?_

theorem State.startDesc_rel {b_ : Bool} {s₀ : State} (s : State) (z : Nat) (h_s : s₀.Rel b_ s) :
    s₀.Rel b_ (State.startDesc s z) := by
  unfold State.startDesc
  repeat'
    first
    | with_reducible assumption
    | with_reducible apply State.cancelRecv_rel
    | with_reducible apply State.fileRecv_rel
    | with_reducible apply State.finishSlot_rel
    | with_reducible apply State.modSlot_rel
    | with_reducible apply State.startSend_rel
    | with_reducible apply State.treeTask_rel
    | simp only [State.rel_mk]
    | split

theorem State.startLaunch_rel {b_ : Bool} {s₀ : State} (s : State) (z : Nat) (x : Slot) (h_s : s₀.Rel b_ s) :
    s₀.Rel b_ (State.startLaunch s z x) := by
  unfold State.startLaunch
  repeat'
    first
    | with_reducible assumption
    | with_reducible apply State.bump_rel
    | with_reducible apply State.modSlot_rel
    | with_reducible apply State.occur_rel
    | with_reducible apply State.startDesc_rel
    | simp only [State.rel_mk]
    | split

theorem State.launchNow_rel {b_ : Bool} {s₀ : State} (s : State) (z : Nat) (h_s : s₀.Rel b_ s) :
    s₀.Rel b_ (State.launchNow s z) := by
  unfold State.launchNow
  repeat'
    first
    | with_reducible assumption
    | with_reducible apply State.startLaunch_rel
    | split
    | dsimp only

theorem State.lateLaunches_rel {b_ : Bool} {s₀ : State} (s : State) (h_s : s₀.Rel b_ s) :
    s₀.Rel b_ (State.lateLaunches s) := by
  unfold State.lateLaunches
  repeat'
    first
    | with_reducible assumption
    | with_reducible apply State.launchNow_rel
    | with_reducible apply State.rel_foldl
    | intro _
    | dsimp only

theorem State.joinGroup_rel {b_ : Bool} {s₀ : State} (s : State) (z : Nat) (e : Entry) (h_s : s₀.Rel b_ s) :
    s₀.Rel b_ (State.joinGroup s z e) := by
  unfold State.joinGroup
  repeat'
    first
    | with_reducible assumption
    | with_reducible apply State.bump_rel
    | with_reducible apply State.enterQueued_rel
    | with_reducible apply State.finishSlot_rel
    | with_reducible apply State.modGroup_rel
    | simp only [State.rel_mk]
    | split

theorem State.raiseFor_rel {b_ : Bool} {s₀ : State} (s : State) (q : Nat) (e : Entry) (h_s : s₀.Rel b_ s) :
    s₀.Rel b_ (State.raiseFor s q e) := by
  unfold State.raiseFor
  repeat'
    first
    | with_reducible assumption
    | with_reducible apply State.startExitOf_rel
    | with_reducible apply State.wakeEvent_rel
    | with_reducible apply State.rel_foldl
    | intro _
    | split
    | dsimp only

theorem State.refuseTake_rel {b_ : Bool} {s₀ : State} (s : State) (q z st : Nat) (k : Slot) (h_s : s₀.Rel b_ s) :
    s₀.Rel b_ (State.refuseTake s q z st k) := by
  unfold State.refuseTake
  repeat'
    first
    | with_reducible assumption
    | with_reducible apply State.countGroup_rel
    | with_reducible apply State.countInst_rel
    | with_reducible apply State.modQueue_rel
    | with_reducible apply State.occurCtl_rel
    | with_reducible apply State.post_rel
    | simp only [State.rel_mk]

theorem State.acceptTake_rel {b_ : Bool} {s₀ : State} (s : State) (q z : Nat) (x : Queue) (k : Slot) (h_s : s₀.Rel b_ s) :
    s₀.Rel b_ (State.acceptTake s q z x k) := by
  unfold State.acceptTake
  repeat'
    first
    | with_reducible assumption
    | with_reducible apply State.clearOwn_rel
    | with_reducible apply State.countGroup_rel
    | with_reducible apply State.countInst_rel
    | with_reducible apply State.joinGroup_rel
    | with_reducible apply State.jrnlPos_rel
    | with_reducible apply State.jrnlSlot_rel
    | with_reducible apply State.modInst_rel
    | with_reducible apply State.modQueue_rel
    | with_reducible apply State.occur_rel
    | with_reducible apply State.occurCtl_rel
    | with_reducible apply State.raiseFor_rel
    | with_reducible apply State.startDesc_rel
    | simp only [State.rel_mk]
    | split

theorem State.reserveTake_rel {b_ : Bool} {s₀ : State} (s : State) (q : Nat) (x : Queue) (h_s : s₀.Rel b_ s) :
    s₀.Rel b_ (State.reserveTake s q x) := by
  unfold State.reserveTake
  repeat'
    first
    | with_reducible assumption
    | with_reducible apply State.drawn_rel
    | with_reducible apply State.modQueue_rel
    | with_reducible apply State.occurCtl_rel
    | simp only [State.rel_mk]

theorem State.takeInto_rel {b_ : Bool} {s₀ : State} (s : State) (q z : Nat) (x : Queue) (e : Entry) (h_s : s₀.Rel b_ s) :
    s₀.Rel b_ (State.takeInto s q z x e) := by
  unfold State.takeInto
  repeat'
    first
    | with_reducible assumption
    | with_reducible apply State.accept_rel
    | with_reducible apply State.acceptTake_rel
    | with_reducible apply State.judge_rel
    | with_reducible apply State.refuseTake_rel
    | with_reducible apply State.reserveTake_rel
    | simp only [State.rel_mk]
    | split
    | with_reducible refine State.rel_fst (by assumption) ?_

theorem State.take_rel {b_ : Bool} {s₀ : State} (s : State) (q op : Nat) (e : Entry) (h_s : s₀.Rel b_ s) :
    s₀.Rel b_ (State.take s q op e) := by
  unfold State.take
  repeat'
    first
    | with_reducible assumption
    | with_reducible apply State.bump_rel
    | with_reducible apply State.modQueue_rel
    | with_reducible apply State.takeInto_rel
    | with_reducible apply State.wakeQueue_rel
    | simp only [State.rel_mk]
    | split

theorem State.adminCheck_rel {b_ : Bool} {s₀ : State} (s : State) (l : List (Bool × Nat)) (run : AdminRun) (h_s : s₀.Rel b_ s) (h_run : s₀.Rel b_ run.st) :
    s₀.Rel b_ (State.adminCheck s l run).st := by
  unfold State.adminCheck
  repeat'
    first
    | with_reducible assumption
    | split
    | dsimp only

theorem State.putAdmin_rel {b_ : Bool} {s₀ : State} (a : AdminRun) (r index : Nat) (e : Entry) (sb : Bool) (ns : List (Nat × Nat)) (h_a : s₀.Rel b_ a.st) :
    s₀.Rel b_ (State.putAdmin a r index e sb ns) := by
  unfold State.putAdmin
  repeat'
    first
    | with_reducible assumption
    | with_reducible apply State.taskStart_rel
    | simp only [State.rel_mk]

theorem State.adminRun_rel {b_ : Bool} {s₀ : State} (s : State) (e : Entry) (run : State → AdminRun) (h_s : s₀.Rel b_ s) (h_run : ∀ y0, s₀.Rel b_ y0 → s₀.Rel b_ (run y0).st) :
    s₀.Rel b_ (State.adminRun s e run).st := by
  unfold State.adminRun
  repeat'
    first
    | with_reducible assumption
    | with_reducible apply h_run
    | split
    | dsimp only

theorem State.adminTake_rel {b_ : Bool} {s₀ : State} (s : State) (code : Nat) (e : Entry) (run : State → AdminRun) (h_s : s₀.Rel b_ s) (h_run : ∀ y0, s₀.Rel b_ y0 → s₀.Rel b_ (run y0).st) :
    s₀.Rel b_ (State.adminTake s code e run) := by
  unfold State.adminTake
  repeat'
    first
    | with_reducible assumption
    | with_reducible apply h_run
    | with_reducible apply State.adminRun_rel
    | with_reducible apply State.clearOwn_rel
    | with_reducible apply State.countGroup_rel
    | with_reducible apply State.drawn_rel
    | with_reducible apply State.jrnlChip_rel
    | with_reducible apply State.modQueue_rel
    | with_reducible apply State.putAdmin_rel
    | with_reducible apply State.wakeQueue_rel
    | simp only [State.rel_mk]
    | intro _
    | split

theorem State.jrnlCfg_rel {b_ : Bool} {s₀ : State} (s : State) (n : Nat) (e : Entry) (result : Nat) (h_s : s₀.Rel b_ s) :
    s₀.Rel b_ (State.jrnlCfg s n e result) := by
  unfold State.jrnlCfg
  repeat'
    first
    | with_reducible assumption
    | with_reducible apply State.jrnlChip_rel
    | dsimp only

theorem State.jrnlInstCfg_rel {b_ : Bool} {s₀ : State} (s : State) (i : Nat) (h_s : s₀.Rel b_ s) :
    s₀.Rel b_ (State.jrnlInstCfg s i) := by
  unfold State.jrnlInstCfg
  repeat'
    first
    | with_reducible assumption
    | with_reducible apply State.jrnlChip_rel
    | dsimp only

theorem State.jrnlGroup_rel {b_ : Bool} {s₀ : State} (s : State) (h : Nat) (e : Entry) (live : Bool) (h_s : s₀.Rel b_ s) :
    s₀.Rel b_ (State.jrnlGroup s h e live) := by
  unfold State.jrnlGroup
  repeat'
    first
    | with_reducible assumption
    | with_reducible apply State.jrnlChip_rel
    | split
    | dsimp only

theorem State.jrnlPd_rel {b_ : Bool} {s₀ : State} (s : State) (pd i : Nat) (live : Bool) (h_s : s₀.Rel b_ s) :
    s₀.Rel b_ (State.jrnlPd s pd i live) := by
  unfold State.jrnlPd
  repeat'
    first
    | with_reducible assumption
    | with_reducible apply State.jrnlChip_rel
    | split
    | dsimp only

theorem State.jrnlQueue_rel {b_ : Bool} {s₀ : State} (s : State) (q : Nat) (h_s : s₀.Rel b_ s) :
    s₀.Rel b_ (State.jrnlQueue s q) := by
  unfold State.jrnlQueue
  repeat'
    first
    | with_reducible assumption
    | with_reducible apply State.jrnlInst_rel
    | split
    | dsimp only

theorem State.jrnlHeaders_rel {b_ : Bool} {s₀ : State} (s : State) (i : Nat) (h_s : s₀.Rel b_ s) :
    s₀.Rel b_ (State.jrnlHeaders s i) := by
  unfold State.jrnlHeaders
  repeat'
    first
    | with_reducible assumption
    | with_reducible apply State.jrnlChip_rel
    | with_reducible apply State.jrnlInst_rel
    | dsimp only

theorem State.writeRegion_rel {b_ : Bool} {s₀ : State} (s : State) (i x : Nat) (h_s : s₀.Rel b_ s) :
    s₀.Rel b_ (State.writeRegion s i x) := by
  unfold State.writeRegion
  repeat'
    first
    | with_reducible assumption
    | with_reducible apply State.instWrite_rel
    | dsimp only

theorem State.clearConnRecord_rel {b_ : Bool} {s₀ : State} (s : State) (i : Nat) (p : CtxPlace) (h_s : s₀.Rel b_ s) :
    s₀.Rel b_ (State.clearConnRecord s i p) := by
  unfold State.clearConnRecord
  repeat'
    first
    | with_reducible assumption
    | with_reducible apply State.instWrite_rel
    | with_reducible apply State.jrnlInst_rel
    | split
    | dsimp only

theorem State.waitDone_rel {b_ : Bool} {s₀ : State} (s : State) (w : AdminWait) (h_s : s₀.Rel b_ s) :
    s₀.Rel b_ (State.waitDone s w) := by
  unfold State.waitDone
  repeat'
    first
    | with_reducible assumption
    | with_reducible apply State.clearConnRecord_rel
    | with_reducible apply State.writeRegion_rel
    | split
    | dsimp only

theorem State.jrnlDone_rel {b_ : Bool} {s₀ : State} (s : State) (x : AdminRec) (h_s : s₀.Rel b_ s) :
    s₀.Rel b_ (State.jrnlDone s x) := by
  unfold State.jrnlDone
  repeat'
    first
    | with_reducible assumption
    | with_reducible apply State.jrnlCfg_rel
    | with_reducible apply State.jrnlChip_rel
    | with_reducible apply State.jrnlConn_rel
    | with_reducible apply State.jrnlGroup_rel
    | with_reducible apply State.jrnlHeaders_rel
    | with_reducible apply State.jrnlInst_rel
    | with_reducible apply State.jrnlInstCfg_rel
    | with_reducible apply State.jrnlPd_rel
    | with_reducible apply State.jrnlQueue_rel
    | with_reducible apply State.waitDone_rel
    | with_reducible apply State.writeRegion_rel
    | with_reducible refine State.rel_ite ?_ ?_
    | split
    | dsimp only

theorem State.adminFinish_rel {b_ : Bool} {s₀ : State} (s : State) (r : Nat) (x : AdminRec) (h_s : s₀.Rel b_ s) :
    s₀.Rel b_ (State.adminFinish s r x) := by
  unfold State.adminFinish
  repeat'
    first
    | with_reducible assumption
    | with_reducible apply State.countGroup_rel
    | with_reducible apply State.jrnlChip_rel
    | with_reducible apply State.jrnlDone_rel
    | with_reducible apply State.post_rel
    | with_reducible apply State.taskEnd_rel
    | simp only [State.rel_mk]
    | split

theorem State.askReset_rel {b_ : Bool} {s₀ : State} (s : State) (h_s : s₀.Rel b_ s) :
    s₀.Rel b_ (State.askReset s) := by
  unfold State.askReset
  repeat'
    first
    | with_reducible assumption
    | simp only [State.rel_mk]

theorem State.mgtCtrlWrite_rel {b_ : Bool} {s₀ : State} (s : State) (w : Word) (h_s : s₀.Rel b_ s) :
    s₀.Rel b_ (State.mgtCtrlWrite s w) := by
  unfold State.mgtCtrlWrite
  repeat'
    first
    | with_reducible assumption
    | with_reducible apply State.askReset_rel
    | with_reducible apply State.setFld_rel
    | split
    | dsimp only

theorem State.ownerCtrlWrite_rel {b_ : Bool} {s₀ : State} (s : State) (w : Word) (h_s : s₀.Rel b_ s) :
    s₀.Rel b_ (State.ownerCtrlWrite s w) := by
  unfold State.ownerCtrlWrite
  repeat'
    first
    | with_reducible assumption
    | with_reducible apply State.mgtCtrlWrite_rel
    | simp only [State.rel_mk]
    | split

theorem State.handOverCtrl_rel {b_ : Bool} {s₀ : State} (s : State) (h_s : s₀.Rel b_ s) :
    s₀.Rel b_ (State.handOverCtrl s) := by
  unfold State.handOverCtrl
  repeat'
    first
    | with_reducible assumption
    | with_reducible apply State.mgtCtrlWrite_rel
    | simp only [State.rel_mk]
    | split

theorem State.createQueue_rel {b_ : Bool} {s₀ : State} (s : State) (e : Entry) (h_s : s₀.Rel b_ s) :
    s₀.Rel b_ (State.createQueue s e).st := by
  unfold State.createQueue
  repeat'
    first
    | with_reducible assumption
    | with_reducible apply State.adminCheck_rel
    | with_reducible apply State.pollBudget_rel
    | with_reducible apply State.setFloor_rel
    | simp only [State.rel_mk]
    | split

theorem execCreateQueue_rel {b_ : Bool} {s₀ : State} (e : Entry) (s : State) {t_ : State} (h_s : s₀.Rel b_ s) (e_ : execCreateQueue e s = .next t_) :
    s₀.Rel b_ t_ := by
  unfold execCreateQueue at e_
  injection e_ with e_
  subst e_
  repeat'
    first
    | with_reducible assumption
    | with_reducible apply State.adminTake_rel
    | with_reducible apply State.createQueue_rel
    | intro _
    | dsimp only

theorem State.removeQueue_rel {b_ : Bool} {s₀ : State} (s : State) (q : Nat) (h_s : s₀.Rel b_ s) :
    s₀.Rel b_ (State.removeQueue s q) := by
  unfold State.removeQueue
  repeat'
    first
    | with_reducible assumption
    | with_reducible apply State.pollBudget_rel
    | simp only [State.rel_mk]

theorem State.destroyQueue_rel {b_ : Bool} {s₀ : State} (s : State) (e : Entry) (ring : List Entry) (h_s : s₀.Rel b_ s) :
    s₀.Rel b_ (State.destroyQueue s e ring).st := by
  unfold State.destroyQueue
  repeat'
    first
    | with_reducible assumption
    | with_reducible apply State.adminCheck_rel
    | with_reducible apply State.removeQueue_rel
    | split
    | dsimp only

theorem execDestroyQueue_rel {b_ : Bool} {s₀ : State} (e : Entry) (ring : List Entry) (s : State) {t_ : State} (h_s : s₀.Rel b_ s) (e_ : execDestroyQueue e ring s = .next t_) :
    s₀.Rel b_ t_ := by
  unfold execDestroyQueue at e_
  injection e_ with e_
  subst e_
  repeat'
    first
    | with_reducible assumption
    | with_reducible apply State.adminTake_rel
    | with_reducible apply State.destroyQueue_rel
    | intro _
    | dsimp only

theorem State.abortEntries_rel {b_ : Bool} {s₀ : State} (s : State) (q : Nat) (x0 : List (Nat × Entry)) (h_s : s₀.Rel b_ s) :
    s₀.Rel b_ (State.abortEntries s q x0).1 := by
  induction x0 generalizing s q with
  | nil =>
    unfold State.abortEntries
    repeat'
      first
      | with_reducible assumption
      | with_reducible apply State.drawn_rel
      | with_reducible apply State.modQueue_rel
      | with_reducible apply State.refuseTake_rel
      | simp only [State.rel_mk]
      | split
  | cons a_ l_ ih_ =>
    unfold State.abortEntries
    repeat'
      first
      | with_reducible assumption
      | with_reducible apply State.drawn_rel
      | with_reducible apply State.modQueue_rel
      | with_reducible apply State.refuseTake_rel
      | simp only [State.rel_mk]
      | split
      | with_reducible apply ih_

theorem State.abortUnstarted_rel {b_ : Bool} {s₀ : State} (s : State) (q : Nat) (h_s : s₀.Rel b_ s) :
    s₀.Rel b_ (State.abortUnstarted s q) := by
  unfold State.abortUnstarted
  repeat'
    first
    | with_reducible assumption
    | with_reducible apply State.enterAll_rel
    | with_reducible apply State.finishSlot_rel
    | simp only [State.rel_mk]
    | with_reducible apply State.rel_foldl
    | intro _
    | split

theorem State.createPd_rel {b_ : Bool} {s₀ : State} (s : State) (e : Entry) (h_s : s₀.Rel b_ s) :
    s₀.Rel b_ (State.createPd s e).st := by
  unfold State.createPd
  repeat'
    first
    | with_reducible assumption
    | with_reducible apply State.adminCheck_rel
    | with_reducible apply State.drawn_rel
    | simp only [State.rel_mk]

theorem execCreatePd_rel {b_ : Bool} {s₀ : State} (e : Entry) (s : State) {t_ : State} (h_s : s₀.Rel b_ s) (e_ : execCreatePd e s = .next t_) :
    s₀.Rel b_ t_ := by
  unfold execCreatePd at e_
  injection e_ with e_
  subst e_
  repeat'
    first
    | with_reducible assumption
    | with_reducible apply State.adminTake_rel
    | with_reducible apply State.createPd_rel
    | intro _
    | dsimp only

theorem State.destroyPd_rel {b_ : Bool} {s₀ : State} (s : State) (e : Entry) (h_s : s₀.Rel b_ s) :
    s₀.Rel b_ (State.destroyPd s e).st := by
  unfold State.destroyPd
  repeat'
    first
    | with_reducible assumption
    | with_reducible apply State.adminCheck_rel
    | simp only [State.rel_mk]

theorem execDestroyPd_rel {b_ : Bool} {s₀ : State} (e : Entry) (s : State) {t_ : State} (h_s : s₀.Rel b_ s) (e_ : execDestroyPd e s = .next t_) :
    s₀.Rel b_ t_ := by
  unfold execDestroyPd at e_
  injection e_ with e_
  subst e_
  repeat'
    first
    | with_reducible assumption
    | with_reducible apply State.adminTake_rel
    | with_reducible apply State.destroyPd_rel
    | intro _
    | dsimp only

theorem State.setRegion_rel {b_ : Bool} {s₀ : State} (s : State) (i x : Nat) (r : Region) (h_s : s₀.Rel b_ s) :
    s₀.Rel b_ (State.setRegion s i x r) := by
  unfold State.setRegion
  repeat'
    first
    | with_reducible assumption
    | simp only [State.rel_mk]

theorem State.registerRegion_rel {b_ : Bool} {s₀ : State} (s : State) (e : Entry) (h_s : s₀.Rel b_ s) :
    s₀.Rel b_ (State.registerRegion s e).st := by
  unfold State.registerRegion
  repeat'
    first
    | with_reducible assumption
    | with_reducible apply State.adminCheck_rel
    | with_reducible apply State.setRegion_rel
    | split
    | dsimp only

theorem execRegisterRegion_rel {b_ : Bool} {s₀ : State} (e : Entry) (s : State) {t_ : State} (h_s : s₀.Rel b_ s) (e_ : execRegisterRegion e s = .next t_) :
    s₀.Rel b_ t_ := by
  unfold execRegisterRegion at e_
  injection e_ with e_
  subst e_
  repeat'
    first
    | with_reducible assumption
    | with_reducible apply State.adminTake_rel
    | with_reducible apply State.registerRegion_rel
    | intro _
    | dsimp only

theorem State.deregisterRegion_rel {b_ : Bool} {s₀ : State} (s : State) (e : Entry) (h_s : s₀.Rel b_ s) :
    s₀.Rel b_ (State.deregisterRegion s e).st := by
  unfold State.deregisterRegion
  repeat'
    first
    | with_reducible assumption
    | with_reducible apply State.drawn_rel
    | with_reducible apply State.setRegion_rel
    | simp only [State.rel_mk]
    | split

theorem execDeregisterRegion_rel {b_ : Bool} {s₀ : State} (e : Entry) (s : State) {t_ : State} (h_s : s₀.Rel b_ s) (e_ : execDeregisterRegion e s = .next t_) :
    s₀.Rel b_ t_ := by
  unfold execDeregisterRegion at e_
  injection e_ with e_
  subst e_
  repeat'
    first
    | with_reducible assumption
    | with_reducible apply State.adminTake_rel
    | with_reducible apply State.deregisterRegion_rel
    | intro _
    | dsimp only

theorem State.createConnection_rel {b_ : Bool} {s₀ : State} (s : State) (e : Entry) (h_s : s₀.Rel b_ s) :
    s₀.Rel b_ (State.createConnection s e).st := by
  unfold State.createConnection
  repeat'
    first
    | with_reducible assumption
    | with_reducible apply State.adminCheck_rel
    | with_reducible apply State.drawn_rel
    | simp only [State.rel_mk]

theorem execCreateConnection_rel {b_ : Bool} {s₀ : State} (e : Entry) (s : State) {t_ : State} (h_s : s₀.Rel b_ s) (e_ : execCreateConnection e s = .next t_) :
    s₀.Rel b_ t_ := by
  unfold execCreateConnection at e_
  injection e_ with e_
  subst e_
  repeat'
    first
    | with_reducible assumption
    | with_reducible apply State.adminTake_rel
    | with_reducible apply State.createConnection_rel
    | intro _
    | dsimp only

theorem State.freeConn_rel {b_ : Bool} {s₀ : State} (s : State) (h : Nat) (h_s : s₀.Rel b_ s) :
    s₀.Rel b_ (State.freeConn s h) := by
  unfold State.freeConn
  repeat'
    first
    | with_reducible assumption
    | with_reducible apply State.breakGroups_rel
    | with_reducible apply State.freeSlot_rel
    | with_reducible apply State.loseRecvs_rel
    | with_reducible apply State.withdrawAll_rel
    | simp only [State.rel_mk]
    | with_reducible apply State.rel_foldl
    | intro _
    | split
    | with_reducible refine State.rel_fst (by assumption) ?_

theorem State.destroyConnection_rel {b_ : Bool} {s₀ : State} (s : State) (e : Entry) (h_s : s₀.Rel b_ s) :
    s₀.Rel b_ (State.destroyConnection s e).st := by
  unfold State.destroyConnection
  repeat'
    first
    | with_reducible assumption
    | with_reducible apply State.adminCheck_rel
    | with_reducible apply State.freeConn_rel
    | dsimp only

theorem execDestroyConnection_rel {b_ : Bool} {s₀ : State} (e : Entry) (s : State) {t_ : State} (h_s : s₀.Rel b_ s) (e_ : execDestroyConnection e s = .next t_) :
    s₀.Rel b_ t_ := by
  unfold execDestroyConnection at e_
  injection e_ with e_
  subst e_
  repeat'
    first
    | with_reducible assumption
    | with_reducible apply State.adminTake_rel
    | with_reducible apply State.destroyConnection_rel
    | intro _
    | dsimp only

theorem State.installKeyRun_rel {b_ : Bool} {s₀ : State} (s : State) (e : Entry) (h_s : s₀.Rel b_ s) :
    s₀.Rel b_ (State.installKeyRun s e).st := by
  unfold State.installKeyRun
  repeat'
    first
    | with_reducible assumption
    | with_reducible apply State.adminCheck_rel
    | dsimp only

theorem execInstallKey_rel {b_ : Bool} {s₀ : State} (e : Entry) (s : State) {t_ : State} (h_s : s₀.Rel b_ s) (e_ : execInstallKey e s = .next t_) :
    s₀.Rel b_ t_ := by
  unfold execInstallKey at e_
  injection e_ with e_
  subst e_
  repeat'
    first
    | with_reducible assumption
    | with_reducible apply State.adminTake_rel
    | with_reducible apply State.installKeyRun_rel
    | intro _
    | dsimp only

theorem State.createGroup_rel {b_ : Bool} {s₀ : State} (s : State) (e : Entry) (tree : HostRead) (h_s : s₀.Rel b_ s) :
    s₀.Rel b_ (State.createGroup s e tree).st := by
  unfold State.createGroup
  repeat'
    first
    | with_reducible assumption
    | with_reducible apply State.adminCheck_rel
    | with_reducible apply State.drawn_rel
    | simp only [State.rel_mk]
    | split

theorem execCreateGroup_rel {b_ : Bool} {s₀ : State} (e : Entry) (tree : HostRead) (s : State) {t_ : State} (h_s : s₀.Rel b_ s) (e_ : execCreateGroup e tree s = .next t_) :
    s₀.Rel b_ t_ := by
  unfold execCreateGroup at e_
  injection e_ with e_
  subst e_
  repeat'
    first
    | with_reducible assumption
    | with_reducible apply State.adminTake_rel
    | with_reducible apply State.createGroup_rel
    | intro _
    | dsimp only

theorem State.destroyGroup_rel {b_ : Bool} {s₀ : State} (s : State) (e : Entry) (h_s : s₀.Rel b_ s) :
    s₀.Rel b_ (State.destroyGroup s e).st := by
  unfold State.destroyGroup
  repeat'
    first
    | with_reducible assumption
    | with_reducible apply State.adminCheck_rel
    | with_reducible apply State.enterAll_rel
    | simp only [State.rel_mk]

theorem execDestroyGroup_rel {b_ : Bool} {s₀ : State} (e : Entry) (s : State) {t_ : State} (h_s : s₀.Rel b_ s) (e_ : execDestroyGroup e s = .next t_) :
    s₀.Rel b_ t_ := by
  unfold execDestroyGroup at e_
  injection e_ with e_
  subst e_
  repeat'
    first
    | with_reducible assumption
    | with_reducible apply State.adminTake_rel
    | with_reducible apply State.destroyGroup_rel
    | intro _
    | dsimp only

theorem State.setEpochOf_rel {b_ : Bool} {s₀ : State} (s : State) (kind e n : Nat) (h_s : s₀.Rel b_ s) :
    s₀.Rel b_ (State.setEpochOf s kind e n) := by
  unfold State.setEpochOf
  repeat'
    first
    | with_reducible assumption
    | with_reducible apply State.setRepoch_rel
    | with_reducible apply State.setSepoch_rel
    | split
    | dsimp only

theorem State.holdImage_rel {b_ : Bool} {s₀ : State} (s : State) (kind e img plan : Nat) (h_s : s₀.Rel b_ s) :
    s₀.Rel b_ (State.holdImage s kind e img plan) := by
  unfold State.holdImage
  repeat'
    first
    | with_reducible assumption
    | with_reducible apply State.setEpochOf_rel
    | with_reducible apply State.wr_rel
    | simp only [State.rel_mk]
    | split

theorem State.loadEpoch_rel {b_ : Bool} {s₀ : State} (s : State) (kind e len crc plan : Nat) (img : HostRead) (h_s : s₀.Rel b_ s) :
    s₀.Rel b_ (State.loadEpoch s kind e len crc plan img).st := by
  unfold State.loadEpoch
  repeat'
    first
    | with_reducible assumption
    | with_reducible apply State.holdImage_rel
    | with_reducible apply State.setEpochOf_rel
    | split
    | dsimp only

theorem State.setTable_rel {b_ : Bool} {s₀ : State} (s : State) (t img : Nat) (h_s : s₀.Rel b_ s) :
    s₀.Rel b_ (State.setTable s t img) := by
  unfold State.setTable
  repeat'
    first
    | with_reducible assumption
    | simp only [State.rel_mk]
    | split

theorem State.loadTable_rel {b_ : Bool} {s₀ : State} (s : State) (t len crc : Nat) (img : HostRead) (h_s : s₀.Rel b_ s) :
    s₀.Rel b_ (State.loadTable s t len crc img).st := by
  unfold State.loadTable
  repeat'
    first
    | with_reducible assumption
    | with_reducible apply State.setTable_rel
    | split
    | dsimp only

end Sys2Proof.Machine
end

