-- ==== Sys2Proof/Laws/KeepsUnits.lean ====
section
/-! SUPPORT. What the model's functions keep of a state (`State.Rel`), one lemma each: the units: locks, resets of instances, collectives, matching, translation, host ports, counters, faults, injection. -/

set_option linter.unusedSimpArgs false

namespace Sys2Proof.Machine

open Host (Outcome)

theorem State.failReq_rel {b_ : Bool} {s₀ : State} (s : State) (h q st : Nat) (h_s : s₀.Rel b_ s) :
    s₀.Rel b_ (State.failReq s h q st) := by
  unfold State.failReq
  repeat'
    first
    | with_reducible assumption
    | with_reducible apply State.failMsg_rel
    | with_reducible apply State.faultCheck_rel
    | with_reducible apply State.moveFront_rel
    | dsimp only

theorem State.passKey_rel {b_ : Bool} {s₀ : State} (s : State) (h q key : Nat) (h_s : s₀.Rel b_ s) :
    s₀.Rel b_ (State.passKey s h q key) := by
  unfold State.passKey
  repeat'
    first
    | with_reducible assumption
    | with_reducible apply State.modConn_rel
    | simp only [State.rel_mk]

theorem State.respond_rel {b_ : Bool} {s₀ : State} (s : State) (h q z : Nat) (u : UnitFields) (h_s : s₀.Rel b_ s) :
    s₀.Rel b_ (State.respond s h q z u) := by
  unfold State.respond
  repeat'
    first
    | with_reducible assumption
    | with_reducible apply State.advanceOver_rel
    | with_reducible apply State.modUnit_rel
    | with_reducible apply State.sendUnit_rel
    | dsimp only

theorem State.hostOp_rel {b_ : Bool} {s₀ : State} (s : State) (kind : UnitKind) (h i key off addr prio tag : Nat) (act : WordAct) (next : Option Waiter) (h_s : s₀.Rel b_ s) :
    s₀.Rel b_ (State.hostOp s kind h i key off addr prio tag act next) := by
  unfold State.hostOp
  repeat'
    first
    | with_reducible assumption
    | with_reducible apply State.holdUnit_rel
    | with_reducible apply State.startOp_rel
    | split
    | dsimp only
    | with_reducible refine State.rel_fst (by assumption) ?_

theorem State.gddrDone_rel {b_ : Bool} {s₀ : State} (s : State) (kind : UnitKind) (h q i key off addr g new : Nat) (u : UnitFields) (h_s : s₀.Rel b_ s) :
    s₀.Rel b_ (State.gddrDone s kind h q i key off addr g new u) := by
  unfold State.gddrDone
  repeat'
    first
    | with_reducible assumption
    | with_reducible apply State.advanceOver_rel
    | with_reducible apply State.sendUnit_rel
    | with_reducible apply State.startOp_rel
    | with_reducible apply State.takeUnit_rel
    | simp only [State.rel_mk]
    | split
    | with_reducible refine State.rel_fst (by assumption) ?_

theorem State.atomicReq_rel {b_ : Bool} {s₀ : State} (s : State) (h : Nat) (h_s : s₀.Rel b_ s) :
    s₀.Rel b_ (State.atomicReq s h) := by
  unfold State.atomicReq
  repeat'
    first
    | with_reducible assumption
    | with_reducible apply State.countOp_rel
    | with_reducible apply State.failReq_rel
    | with_reducible apply State.gddrDone_rel
    | with_reducible apply State.hostOp_rel
    | with_reducible apply State.needContext_rel
    | with_reducible apply State.passKey_rel
    | with_reducible apply State.pathFail_rel
    | with_reducible apply State.wordCheck_rel
    | split
    | dsimp only
    | with_reducible refine State.rel_fst (by assumption) ?_

theorem execAtomicReq_rel {b_ : Bool} {s₀ : State} (h : Word) (v : View) (s : State) {t_ : State} (h_s : s₀.Rel b_ s) (e_ : execAtomicReq h v s = .next t_) :
    s₀.Rel b_ t_ := by
  unfold execAtomicReq at e_
  injection e_ with e_
  subst e_
  repeat'
    first
    | with_reducible assumption
    | with_reducible apply State.atomicReq_rel
    | with_reducible apply State.see_rel
    | dsimp only

theorem State.lockAnswer_rel {b_ : Bool} {s₀ : State} (s : State) (i h q st word waiters : Nat) (h_s : s₀.Rel b_ s) :
    s₀.Rel b_ (State.lockAnswer s i h q st word waiters) := by
  unfold State.lockAnswer
  repeat'
    first
    | with_reducible assumption
    | with_reducible apply State.advanceOver_rel
    | with_reducible apply State.sendUnit_rel
    | with_reducible apply State.takeUnit_rel
    | split
    | dsimp only
    | with_reducible refine State.rel_fst (by assumption) ?_

theorem State.joinHold_rel {b_ : Bool} {s₀ : State} (s : State) (n : Nat) (w : Waiter) (h_s : s₀.Rel b_ s) :
    s₀.Rel b_ (State.joinHold s n w) := by
  unfold State.joinHold
  repeat'
    first
    | with_reducible assumption
    | with_reducible apply State.levelCheck_rel
    | with_reducible apply State.modHeld_rel
    | simp only [State.rel_mk]

theorem State.claim_rel {b_ : Bool} {s₀ : State} (s : State) (i addr : Nat) (a : Master) (h_s : s₀.Rel b_ s) :
    s₀.Rel b_ (State.claim s i addr a).1 := by
  unfold State.claim
  repeat'
    first
    | with_reducible assumption
    | with_reducible apply State.bump_rel
    | with_reducible apply State.occur_rel
    | with_reducible apply State.registryStep_rel
    | with_reducible apply State.take_rel
    | split
    | dsimp only

theorem State.addHeld_rel {b_ : Bool} {s₀ : State} (s : State) (i key off addr : Nat) (a : Master) (prio v : Nat) (h_s : s₀.Rel b_ s) :
    s₀.Rel b_ (State.addHeld s i key off addr a prio v) := by
  unfold State.addHeld
  repeat'
    first
    | with_reducible assumption
    | with_reducible apply State.countOp_rel
    | with_reducible apply State.mismatch_rel
    | with_reducible apply State.occur_rel
    | simp only [State.rel_mk]
    | split

theorem State.acquireReq_rel {b_ : Bool} {s₀ : State} (s : State) (h : Nat) (k : Conn) (m : RxMsg) (a : Nat) (h_s : s₀.Rel b_ s) :
    s₀.Rel b_ (State.acquireReq s h k m a) := by
  unfold State.acquireReq
  repeat'
    first
    | with_reducible assumption
    | with_reducible apply State.addHeld_rel
    | with_reducible apply State.advanceOver_rel
    | with_reducible apply State.claim_rel
    | with_reducible apply State.gddrDone_rel
    | with_reducible apply State.hostOp_rel
    | with_reducible apply State.joinHold_rel
    | with_reducible apply State.lockAnswer_rel
    | with_reducible apply State.pathFail_rel
    | with_reducible apply State.take_rel
    | with_reducible apply State.takeUnit_rel
    | split
    | dsimp only
    | with_reducible refine State.rel_fst (by assumption) ?_

theorem State.releaseDone_rel {b_ : Bool} {s₀ : State} (s : State) (n : Nat) (x : Held) (h_s : s₀.Rel b_ s) :
    s₀.Rel b_ (State.releaseDone s n x) := by
  unfold State.releaseDone
  repeat'
    first
    | with_reducible assumption
    | with_reducible apply State.handOver_rel
    | dsimp only

theorem State.releaseReq_rel {b_ : Bool} {s₀ : State} (s : State) (h : Nat) (k : Conn) (m : RxMsg) (a : Nat) (h_s : s₀.Rel b_ s) :
    s₀.Rel b_ (State.releaseReq s h k m a) := by
  unfold State.releaseReq
  repeat'
    first
    | with_reducible assumption
    | with_reducible apply State.failHeld_rel
    | with_reducible apply State.gddrDone_rel
    | with_reducible apply State.hostOp_rel
    | with_reducible apply State.lockAnswer_rel
    | with_reducible apply State.mismatch_rel
    | with_reducible apply State.pathFail_rel
    | with_reducible apply State.release_rel
    | with_reducible apply State.releaseDone_rel
    | split
    | dsimp only

theorem State.lockReq_rel {b_ : Bool} {s₀ : State} (s : State) (h lop : Nat) (act : State → Conn → RxMsg → Nat → State) (h_s : s₀.Rel b_ s) (h_act : ∀ y0 y1 y2 y3, s₀.Rel b_ y0 → s₀.Rel b_ (act y0 y1 y2 y3)) :
    s₀.Rel b_ (State.lockReq s h lop act) := by
  unfold State.lockReq
  repeat'
    first
    | with_reducible assumption
    | with_reducible apply h_act
    | with_reducible apply State.failReq_rel
    | with_reducible apply State.needContext_rel
    | with_reducible apply State.passKey_rel
    | with_reducible apply State.wordCheck_rel
    | split
    | dsimp only
    | with_reducible refine State.rel_fst (by assumption) ?_

theorem execAcquire_rel {b_ : Bool} {s₀ : State} (h : Word) (v : View) (s : State) {t_ : State} (h_s : s₀.Rel b_ s) (e_ : execAcquire h v s = .next t_) :
    s₀.Rel b_ t_ := by
  unfold execAcquire at e_
  injection e_ with e_
  subst e_
  repeat'
    first
    | with_reducible assumption
    | with_reducible apply State.acquireReq_rel
    | with_reducible apply State.lockReq_rel
    | with_reducible apply State.see_rel
    | intro _
    | dsimp only

theorem execRelease_rel {b_ : Bool} {s₀ : State} (h : Word) (v : View) (s : State) {t_ : State} (h_s : s₀.Rel b_ s) (e_ : execRelease h v s = .next t_) :
    s₀.Rel b_ t_ := by
  unfold execRelease at e_
  injection e_ with e_
  subst e_
  repeat'
    first
    | with_reducible assumption
    | with_reducible apply State.lockReq_rel
    | with_reducible apply State.releaseReq_rel
    | with_reducible apply State.see_rel
    | intro _
    | dsimp only

theorem State.abandonReq_rel {s₀ : State} (s : State) (h : Nat) (h_s : s₀.Rel false s) :
    s₀.Rel false (State.abandonReq s h) := by
  unfold State.abandonReq
  repeat'
    first
    | with_reducible assumption
    | with_reducible apply State.abandonConn_rel
    | with_reducible apply State.advanceOver_rel
    | split
    | dsimp only

theorem execAbandonAll_rel {s₀ : State} (h : Word) (v : View) (s : State) {t_ : State} (h_s : s₀.Rel false s) (e_ : execAbandonAll h v s = .next t_) :
    s₀.Rel false t_ := by
  unfold execAbandonAll at e_
  injection e_ with e_
  subst e_
  repeat'
    first
    | with_reducible assumption
    | with_reducible apply State.abandonReq_rel
    | with_reducible apply State.see_rel
    | dsimp only

theorem State.slotAcquire_rel {s₀ : State} (s : State) (i n : Nat) (h_s : s₀.Rel false s) :
    s₀.Rel false (State.slotAcquire s i n) := by
  unfold State.slotAcquire
  repeat'
    first
    | with_reducible assumption
    | with_reducible apply State.addHeld_rel
    | with_reducible apply State.claim_rel
    | with_reducible apply State.joinHold_rel
    | with_reducible apply State.pathFail_rel
    | with_reducible apply State.slotOutcome_rel
    | with_reducible apply State.startOp_rel
    | with_reducible apply State.take_rel
    | with_reducible apply State.wordCheck_rel
    | with_reducible refine State.rel_mk_write ?_
    | simp only [State.rel_mk, State.rel_mk_ram]
    | split
    | with_reducible refine State.rel_fst (by assumption) ?_

theorem State.retrySlots_rel {s₀ : State} (s : State) (h_s : s₀.Rel false s) :
    s₀.Rel false (State.retrySlots s) := by
  unfold State.retrySlots
  repeat'
    first
    | with_reducible assumption
    | with_reducible apply State.slotAcquire_rel
    | simp only [State.rel_mk]
    | with_reducible apply State.rel_foldl
    | intro _
    | split

theorem State.lkRead_rel {s₀ : State} (s : State) (i n : Nat) (h_s : s₀.Rel false s) :
    s₀.Rel false (State.lkRead s i n) := by
  unfold State.lkRead
  repeat'
    first
    | with_reducible assumption
    | with_reducible apply State.retrySlots_rel
    | with_reducible apply State.setFld_rel
    | with_reducible apply State.slotReturn_rel
    | simp only [State.rel_mk]
    | split

theorem execAtuLkAcquire_rel {s₀ : State} (i : InstId) (n : Fin 256) (v : View) (s : State) {t_ : State} (h_s : s₀.Rel false s) (e_ : execAtuLkAcquire i n v s = .next t_) :
    s₀.Rel false t_ := by
  unfold execAtuLkAcquire at e_
  injection e_ with e_
  subst e_
  repeat'
    first
    | with_reducible assumption
    | with_reducible apply State.lkRead_rel
    | with_reducible apply State.see_rel
    | split
    | dsimp only

theorem State.slotReleased_rel {b_ : Bool} {s₀ : State} (s : State) (i n st : Nat) (h_s : s₀.Rel b_ s) :
    s₀.Rel b_ (State.slotReleased s i n st) := by
  unfold State.slotReleased
  repeat'
    first
    | with_reducible assumption
    | with_reducible apply State.setFld_rel
    | dsimp only

theorem State.slotRelease_rel {s₀ : State} (s : State) (i n h : Nat) (x : Held) (h_s : s₀.Rel false s) :
    s₀.Rel false (State.slotRelease s i n h x) := by
  unfold State.slotRelease
  repeat'
    first
    | with_reducible assumption
    | with_reducible apply State.failHeld_rel
    | with_reducible apply State.mismatch_rel
    | with_reducible apply State.pathFail_rel
    | with_reducible apply State.releaseDone_rel
    | with_reducible apply State.slotReleased_rel
    | with_reducible apply State.startOp_rel
    | with_reducible refine State.rel_mk_write ?_
    | simp only [State.rel_mk, State.rel_mk_ram]
    | split

theorem State.slotWithdraw_rel {s₀ : State} (s : State) (i n : Nat) (h_s : s₀.Rel false s) :
    s₀.Rel false (State.slotWithdraw s i n) := by
  unfold State.slotWithdraw
  repeat'
    first
    | with_reducible assumption
    | with_reducible apply State.setFld_rel
    | with_reducible apply State.slotAcquire_rel
    | with_reducible apply State.slotResult_rel
    | with_reducible apply State.slotReturn_rel
    | with_reducible apply State.withdraw_rel
    | simp only [State.rel_mk]
    | split

theorem State.lkWrite_rel {s₀ : State} (s : State) (i n : Nat) (h_s : s₀.Rel false s) :
    s₀.Rel false (State.lkWrite s i n) := by
  unfold State.lkWrite
  repeat'
    first
    | with_reducible assumption
    | with_reducible apply State.setFld_rel
    | with_reducible apply State.slotRelease_rel
    | with_reducible apply State.slotReleased_rel
    | with_reducible apply State.slotWithdraw_rel
    | split
    | dsimp only

theorem execAtuLkRelease_rel {s₀ : State} (i : InstId) (n : Fin 256) (v : View) (s : State) {t_ : State} (h_s : s₀.Rel false s) (e_ : execAtuLkRelease i n v s = .next t_) :
    s₀.Rel false t_ := by
  unfold execAtuLkRelease at e_
  injection e_ with e_
  subst e_
  repeat'
    first
    | with_reducible assumption
    | with_reducible apply State.lkWrite_rel
    | with_reducible apply State.see_rel
    | split
    | dsimp only

theorem execLkAcquireRetry_rel {b_ : Bool} {s₀ : State} (i : InstId) (n : Fin 256) (s : State) {t_ : State} (h_s : s₀.Rel b_ s) (e_ : execLkAcquireRetry i n s = .next t_) :
    s₀.Rel b_ t_ := by
  unfold execLkAcquireRetry at e_
  injection e_ with e_
  subst e_
  repeat'
    first
    | with_reducible assumption
    | with_reducible apply State.bump_rel
    | with_reducible apply State.slotResult_rel
    | with_reducible apply State.slotReturn_rel
    | simp only [State.rel_mk]
    | split

theorem execLkSlotWithdraw_rel {s₀ : State} (i : InstId) (n : Fin 256) (v : View) (s : State) {t_ : State} (h_s : s₀.Rel false s) (e_ : execLkSlotWithdraw i n v s = .next t_) :
    s₀.Rel false t_ := by
  unfold execLkSlotWithdraw at e_
  injection e_ with e_
  subst e_
  repeat'
    first
    | with_reducible assumption
    | with_reducible apply State.bump_rel
    | with_reducible apply State.see_rel
    | with_reducible apply State.slotWithdraw_rel
    | split
    | dsimp only

theorem State.opOver_rel {b_ : Bool} {s₀ : State} (s : State) (o : UnitOp) (h_s : s₀.Rel b_ s) :
    s₀.Rel b_ (State.opOver s o) := by
  unfold State.opOver
  repeat'
    first
    | with_reducible assumption
    | simp only [State.rel_mk]

theorem State.hostOpOver_rel {b_ : Bool} {s₀ : State} (s : State) (o : UnitOp) (h_s : s₀.Rel b_ s) :
    s₀.Rel b_ (State.hostOpOver s o) := by
  unfold State.hostOpOver
  repeat'
    first
    | with_reducible assumption
    | with_reducible apply State.freeLine_rel
    | with_reducible apply State.opOver_rel
    | dsimp only

theorem State.nextOps_rel {s₀ : State} (s : State) (i addr : Nat) (x0 : Nat) (h_s : s₀.Rel false s) :
    s₀.Rel false (State.nextOps s i addr x0) := by
  induction x0 generalizing s i addr with
  | zero =>
    unfold State.nextOps
    repeat'
      first
      | with_reducible assumption
      | with_reducible apply State.abandon_rel
      | with_reducible apply State.abandonGo_rel
      | with_reducible apply State.opOver_rel
      | with_reducible apply State.passOn_rel
      | with_reducible apply State.slotRelease_rel
      | with_reducible apply State.slotReleased_rel
      | split
      | dsimp only
  | succ n_ ih_ =>
    unfold State.nextOps
    repeat'
      first
      | with_reducible assumption
      | with_reducible apply State.abandon_rel
      | with_reducible apply State.abandonGo_rel
      | with_reducible apply State.opOver_rel
      | with_reducible apply State.passOn_rel
      | with_reducible apply State.slotRelease_rel
      | with_reducible apply State.slotReleased_rel
      | split
      | dsimp only
      | with_reducible apply ih_

theorem State.nextOp_rel {s₀ : State} (s : State) (i addr : Nat) (h_s : s₀.Rel false s) :
    s₀.Rel false (State.nextOp s i addr) := by
  unfold State.nextOp
  repeat'
    first
    | with_reducible assumption
    | with_reducible apply State.nextOps_rel
    | dsimp only

theorem State.countBad_rel {b_ : Bool} {s₀ : State} (s : State) (key : Nat) (x0 : Nat) (h_s : s₀.Rel b_ s) :
    s₀.Rel b_ (State.countBad s key x0) := by
  induction x0 generalizing s key with
  | zero =>
    unfold State.countBad
    repeat'
      first
      | with_reducible assumption
      | with_reducible apply State.mismatch_rel
      | split
      | dsimp only
  | succ n_ ih_ =>
    unfold State.countBad
    repeat'
      first
      | with_reducible assumption
      | with_reducible apply State.mismatch_rel
      | split
      | dsimp only
      | with_reducible apply ih_

theorem State.unholdUnit_rel {b_ : Bool} {s₀ : State} (s : State) (o : UnitOp) (h_s : s₀.Rel b_ s) :
    s₀.Rel b_ (State.unholdUnit s o) := by
  unfold State.unholdUnit
  repeat'
    first
    | with_reducible assumption
    | simp only [State.rel_mk]
    | split

theorem State.wordOpDone_rel {s₀ : State} (s : State) (o : UnitOp) (tries : List (Nat × Nat)) (ur : Bool) (h_s : s₀.Rel false s) :
    s₀.Rel false (State.wordOpDone s o tries ur) := by
  unfold State.wordOpDone
  repeat'
    first
    | with_reducible assumption
    | with_reducible apply State.abandon_rel
    | with_reducible apply State.addHeld_rel
    | with_reducible apply State.bump_rel
    | with_reducible apply State.countBad_rel
    | with_reducible apply State.countOp_rel
    | with_reducible apply State.failHeld_rel
    | with_reducible apply State.failReq_rel
    | with_reducible apply State.mismatch_rel
    | with_reducible apply State.passOn_rel
    | with_reducible apply State.pathFail_rel
    | with_reducible apply State.release_rel
    | with_reducible apply State.respond_rel
    | with_reducible apply State.slotAcquire_rel
    | with_reducible apply State.slotOutcome_rel
    | with_reducible apply State.slotRelease_rel
    | with_reducible apply State.slotReleased_rel
    | with_reducible apply State.unholdUnit_rel
    | with_reducible apply State.wordGiven_rel
    | split
    | dsimp only

theorem execHostWordOpDone_rel {s₀ : State} (k : Nat) (tries : List (Nat × Nat)) (ur : Bool) (v : View) (s : State) {t_ : State} (h_s : s₀.Rel false s) (e_ : execHostWordOpDone k tries ur v s = .next t_) :
    s₀.Rel false t_ := by
  unfold execHostWordOpDone at e_
  injection e_ with e_
  subst e_
  repeat'
    first
    | with_reducible assumption
    | with_reducible apply State.hostOpOver_rel
    | with_reducible apply State.nextOp_rel
    | with_reducible apply State.retrySlots_rel
    | with_reducible apply State.see_rel
    | with_reducible apply State.wordOpDone_rel
    | split
    | dsimp only

theorem State.pendingDone_rel {s₀ : State} (s : State) (o : UnitOp) (h_s : s₀.Rel false s) :
    s₀.Rel false (State.pendingDone s o) := by
  unfold State.pendingDone
  repeat'
    first
    | with_reducible assumption
    | with_reducible apply State.modUnit_rel
    | with_reducible refine State.rel_mk_write ?_
    | simp only [State.rel_mk, State.rel_mk_ram]
    | split

theorem execPendingWriteDone_rel {s₀ : State} (k : Nat) (v : View) (s : State) {t_ : State} (h_s : s₀.Rel false s) (e_ : execPendingWriteDone k v s = .next t_) :
    s₀.Rel false t_ := by
  unfold execPendingWriteDone at e_
  injection e_ with e_
  subst e_
  repeat'
    first
    | with_reducible assumption
    | with_reducible apply State.nextOp_rel
    | with_reducible apply State.opOver_rel
    | with_reducible apply State.pendingDone_rel
    | with_reducible apply State.retrySlots_rel
    | with_reducible apply State.see_rel
    | split
    | dsimp only

theorem execAtomicResp_rel {b_ : Bool} {s₀ : State} (h : Word) (v : View) (s : State) {t_ : State} (h_s : s₀.Rel b_ s) (e_ : execAtomicResp h v s = .next t_) :
    s₀.Rel b_ t_ := by
  unfold execAtomicResp at e_
  injection e_ with e_
  subst e_
  repeat'
    first
    | with_reducible assumption
    | with_reducible apply State.advanceWm_rel
    | with_reducible apply State.see_rel
    | dsimp only

theorem execLockResp_rel {b_ : Bool} {s₀ : State} (h : Word) (v : View) (s : State) {t_ : State} (h_s : s₀.Rel b_ s) (e_ : execLockResp h v s = .next t_) :
    s₀.Rel b_ t_ := by
  unfold execLockResp at e_
  injection e_ with e_
  subst e_
  repeat'
    first
    | with_reducible assumption
    | with_reducible apply State.advanceWm_rel
    | with_reducible apply State.see_rel
    | dsimp only

theorem State.loadImage_rel {b_ : Bool} {s₀ : State} (s : State) (kind : Nat) (e : Entry) (img : HostRead) (h_s : s₀.Rel b_ s) :
    s₀.Rel b_ (State.loadImage s kind e img).st := by
  unfold State.loadImage
  repeat'
    first
    | with_reducible assumption
    | with_reducible apply State.loadEpoch_rel
    | dsimp only

theorem execLoadRoute_rel {b_ : Bool} {s₀ : State} (e : Entry) (img : HostRead) (s : State) {t_ : State} (h_s : s₀.Rel b_ s) (e_ : execLoadRoute e img s = .next t_) :
    s₀.Rel b_ t_ := by
  unfold execLoadRoute at e_
  injection e_ with e_
  subst e_
  repeat'
    first
    | with_reducible assumption
    | with_reducible apply State.adminTake_rel
    | with_reducible apply State.loadImage_rel
    | intro _
    | dsimp only

theorem execLoadSchedule_rel {b_ : Bool} {s₀ : State} (e : Entry) (img : HostRead) (s : State) {t_ : State} (h_s : s₀.Rel b_ s) (e_ : execLoadSchedule e img s = .next t_) :
    s₀.Rel b_ t_ := by
  unfold execLoadSchedule at e_
  injection e_ with e_
  subst e_
  repeat'
    first
    | with_reducible assumption
    | with_reducible apply State.adminTake_rel
    | with_reducible apply State.loadImage_rel
    | intro _
    | dsimp only

theorem State.switchEpoch_rel {b_ : Bool} {s₀ : State} (s : State) (e : Entry) (h_s : s₀.Rel b_ s) :
    s₀.Rel b_ (State.switchEpoch s e).st := by
  unfold State.switchEpoch
  repeat'
    first
    | with_reducible assumption
    | with_reducible apply State.adminCheck_rel
    | with_reducible apply State.switchRoute_rel
    | with_reducible apply State.switchSched_rel
    | split
    | dsimp only

theorem execSwitchEpoch_rel {b_ : Bool} {s₀ : State} (e : Entry) (s : State) {t_ : State} (h_s : s₀.Rel b_ s) (e_ : execSwitchEpoch e s = .next t_) :
    s₀.Rel b_ t_ := by
  unfold execSwitchEpoch at e_
  injection e_ with e_
  subst e_
  repeat'
    first
    | with_reducible assumption
    | with_reducible apply State.adminTake_rel
    | with_reducible apply State.switchEpoch_rel
    | intro _
    | dsimp only

theorem State.invalidateRun_rel {b_ : Bool} {s₀ : State} (s : State) (e : Entry) (h_s : s₀.Rel b_ s) :
    s₀.Rel b_ (State.invalidateRun s e).st := by
  unfold State.invalidateRun
  repeat'
    first
    | with_reducible assumption
    | with_reducible apply State.adminCheck_rel
    | with_reducible apply State.invalidate_rel
    | dsimp only

theorem execInvalidateTranslation_rel {b_ : Bool} {s₀ : State} (e : Entry) (s : State) {t_ : State} (h_s : s₀.Rel b_ s) (e_ : execInvalidateTranslation e s = .next t_) :
    s₀.Rel b_ t_ := by
  unfold execInvalidateTranslation at e_
  injection e_ with e_
  subst e_
  repeat'
    first
    | with_reducible assumption
    | with_reducible apply State.adminTake_rel
    | with_reducible apply State.invalidateRun_rel
    | intro _
    | dsimp only

theorem State.configureRun_rel {b_ : Bool} {s₀ : State} (s : State) (e : Entry) (h_s : s₀.Rel b_ s) :
    s₀.Rel b_ (State.configureRun s e).st := by
  unfold State.configureRun
  repeat'
    first
    | with_reducible assumption
    | with_reducible apply State.adminCheck_rel
    | with_reducible apply State.invalidate_rel
    | with_reducible apply State.modInst_rel
    | simp only [State.rel_mk]
    | split

theorem execConfigureInstance_rel {b_ : Bool} {s₀ : State} (e : Entry) (s : State) {t_ : State} (h_s : s₀.Rel b_ s) (e_ : execConfigureInstance e s = .next t_) :
    s₀.Rel b_ t_ := by
  unfold execConfigureInstance at e_
  injection e_ with e_
  subst e_
  repeat'
    first
    | with_reducible assumption
    | with_reducible apply State.adminTake_rel
    | with_reducible apply State.configureRun_rel
    | intro _
    | dsimp only

theorem State.setInstancesRun_rel {b_ : Bool} {s₀ : State} (s : State) (e : Entry) (h_s : s₀.Rel b_ s) :
    s₀.Rel b_ (State.setInstancesRun s e).st := by
  unfold State.setInstancesRun
  repeat'
    first
    | with_reducible assumption
    | with_reducible apply State.adminCheck_rel
    | with_reducible apply State.markPorts_rel
    | with_reducible apply State.setFld_rel
    | simp only [State.rel_mk]
    | with_reducible apply State.rel_foldl
    | intro _
    | split

theorem execSetInstances_rel {b_ : Bool} {s₀ : State} (e : Entry) (s : State) {t_ : State} (h_s : s₀.Rel b_ s) (e_ : execSetInstances e s = .next t_) :
    s₀.Rel b_ t_ := by
  unfold execSetInstances at e_
  injection e_ with e_
  subst e_
  repeat'
    first
    | with_reducible assumption
    | with_reducible apply State.adminTake_rel
    | with_reducible apply State.setInstancesRun_rel
    | intro _
    | dsimp only

theorem State.idleSlots_rel {b_ : Bool} {s₀ : State} (s : State) (i : Nat) (h_s : s₀.Rel b_ s) :
    s₀.Rel b_ (State.idleSlots s i) := by
  unfold State.idleSlots
  repeat'
    first
    | with_reducible assumption
    | with_reducible apply State.setFld_rel
    | with_reducible apply State.slotResult_rel
    | with_reducible apply State.slotReturn_rel
    | with_reducible apply State.rel_foldl
    | intro _
    | split
    | dsimp only

theorem State.dropWaiting_rel {b_ : Bool} {s₀ : State} (s : State) (i : Nat) (h_s : s₀.Rel b_ s) :
    s₀.Rel b_ (State.dropWaiting s i) := by
  unfold State.dropWaiting
  repeat'
    first
    | with_reducible assumption
    | with_reducible apply State.bumpBy_rel
    | with_reducible apply State.modQueue_rel
    | simp only [State.rel_mk]
    | with_reducible apply State.rel_foldl
    | intro _
    | split

theorem State.dropKept_rel {b_ : Bool} {s₀ : State} (s : State) (i : Nat) (h_s : s₀.Rel b_ s) :
    s₀.Rel b_ (State.dropKept s i) := by
  unfold State.dropKept
  repeat'
    first
    | with_reducible assumption
    | with_reducible apply State.bumpBy_rel
    | simp only [State.rel_mk]
    | with_reducible apply State.rel_foldl
    | intro _

theorem State.dropTasks_rel {s₀ : State} (s : State) (i : Nat) (h_s : s₀.Rel false s) :
    s₀.Rel false (State.dropTasks s i) := by
  unfold State.dropTasks
  repeat'
    first
    | with_reducible assumption
    | with_reducible apply State.bumpBy_rel
    | with_reducible apply State.nextOp_rel
    | with_reducible apply State.opOver_rel
    | with_reducible apply State.taskEnd_rel
    | with_reducible apply State.wordOpDone_rel
    | simp only [State.rel_mk]
    | with_reducible apply State.rel_foldl
    | intro _

theorem State.dropLate_rel {b_ : Bool} {s₀ : State} (s : State) (i : Nat) (h_s : s₀.Rel b_ s) :
    s₀.Rel b_ (State.dropLate s i) := by
  unfold State.dropLate
  repeat'
    first
    | with_reducible assumption
    | with_reducible apply State.bumpBy_rel
    | with_reducible apply State.taskEnd_rel
    | with_reducible apply State.rel_foldl
    | intro _
    | dsimp only

theorem State.clearSlots_rel {b_ : Bool} {s₀ : State} (s : State) (i : Nat) (h_s : s₀.Rel b_ s) :
    s₀.Rel b_ (State.clearSlots s i) := by
  unfold State.clearSlots
  repeat'
    first
    | with_reducible assumption
    | with_reducible apply State.jrnlInst_rel
    | with_reducible apply State.rel_foldl
    | intro _
    | dsimp only

theorem State.dropWork_rel {s₀ : State} (s : State) (i : Nat) (h_s : s₀.Rel false s) :
    s₀.Rel false (State.dropWork s i) := by
  unfold State.dropWork
  repeat'
    first
    | with_reducible assumption
    | with_reducible apply State.abandon_rel
    | with_reducible apply State.clearSlots_rel
    | with_reducible apply State.dropLate_rel
    | simp only [State.rel_mk]
    | split

theorem State.resetBegin_rel {s₀ : State} (s : State) (i : Nat) (h_s : s₀.Rel false s) :
    s₀.Rel false (State.resetBegin s i) := by
  unfold State.resetBegin
  repeat'
    first
    | with_reducible assumption
    | with_reducible apply State.abandonAll_rel
    | with_reducible apply State.breakGroups_rel
    | with_reducible apply State.dropKept_rel
    | with_reducible apply State.dropTasks_rel
    | with_reducible apply State.dropWaiting_rel
    | with_reducible apply State.dropWork_rel
    | with_reducible apply State.idleSlots_rel
    | with_reducible apply State.modConn_rel
    | with_reducible apply State.sayCtl_rel
    | with_reducible apply State.setFlag_rel
    | with_reducible apply State.setFld_rel
    | with_reducible apply State.withdraw_rel
    | simp only [State.rel_mk]
    | with_reducible apply State.rel_foldl
    | intro _
    | split
    | with_reducible refine State.rel_fst (by assumption) ?_

theorem State.resetEnd_rel {b_ : Bool} {s₀ : State} (s : State) (i : Nat) (h_s : s₀.Rel b_ s) :
    s₀.Rel b_ (State.resetEnd s i) := by
  unfold State.resetEnd
  repeat'
    first
    | with_reducible assumption
    | with_reducible apply State.clearInstCounters_rel
    | with_reducible apply State.invalidate_rel
    | with_reducible apply State.jrnlQueue_rel
    | with_reducible apply State.modInst_rel
    | with_reducible apply State.removeQueue_rel
    | with_reducible apply State.setFlag_rel
    | with_reducible apply State.setRegion_rel
    | with_reducible apply State.writeRegion_rel
    | simp only [State.rel_mk]
    | with_reducible apply State.rel_foldl
    | intro _

theorem State.resetRun_rel {s₀ : State} (s : State) (e : Entry) (h_s : s₀.Rel false s) :
    s₀.Rel false (State.resetRun s e).st := by
  unfold State.resetRun
  repeat'
    first
    | with_reducible assumption
    | with_reducible apply State.adminCheck_rel
    | with_reducible apply State.resetBegin_rel
    | dsimp only

theorem execResetInstance_rel {s₀ : State} (e : Entry) (s : State) {t_ : State} (h_s : s₀.Rel false s) (e_ : execResetInstance e s = .next t_) :
    s₀.Rel false t_ := by
  unfold execResetInstance at e_
  injection e_ with e_
  subst e_
  repeat'
    first
    | with_reducible assumption
    | with_reducible apply State.adminTake_rel
    | with_reducible apply State.resetRun_rel
    | intro _
    | dsimp only

theorem State.armRun_rel {b_ : Bool} {s₀ : State} (s : State) (e : Entry) (h_s : s₀.Rel b_ s) :
    s₀.Rel b_ (State.armRun s e).st := by
  unfold State.armRun
  repeat'
    first
    | with_reducible assumption
    | with_reducible apply State.adminCheck_rel
    | with_reducible apply State.arm_rel
    | split
    | dsimp only

theorem execArmPageLog_rel {b_ : Bool} {s₀ : State} (e : Entry) (s : State) {t_ : State} (h_s : s₀.Rel b_ s) (e_ : execArmPageLog e s = .next t_) :
    s₀.Rel b_ t_ := by
  unfold execArmPageLog at e_
  injection e_ with e_
  subst e_
  repeat'
    first
    | with_reducible assumption
    | with_reducible apply State.adminTake_rel
    | with_reducible apply State.armRun_rel
    | intro _
    | dsimp only

theorem State.arm_rel {b_ : Bool} {s₀ : State} (s : State) (i : Nat) (log : Option (Nat × Nat)) (h_s : s₀.Rel b_ s) :
    s₀.Rel b_ (State.arm s i log) := by
  unfold State.arm
  repeat'
    first
    | with_reducible assumption
    | with_reducible apply State.modInst_rel
    | with_reducible apply State.setFlag_rel
    | with_reducible apply State.wr_rel
    | simp only [State.rel_mk]
    | split

theorem execLoadTable_rel {b_ : Bool} {s₀ : State} (e : Entry) (img : HostRead) (s : State) {t_ : State} (h_s : s₀.Rel b_ s) (e_ : execLoadTable e img s = .next t_) :
    s₀.Rel b_ t_ := by
  unfold execLoadTable at e_
  injection e_ with e_
  subst e_
  repeat'
    first
    | with_reducible assumption
    | with_reducible apply State.adminTake_rel
    | with_reducible apply State.loadTable_rel
    | intro _
    | dsimp only

theorem State.destroyOn_rel {b_ : Bool} {s₀ : State} (s : State) (q : Nat) (left : List (Nat × Entry)) (h_s : s₀.Rel b_ s) :
    s₀.Rel b_ (State.destroyOn s q left).1 := by
  unfold State.destroyOn
  repeat'
    first
    | with_reducible assumption
    | with_reducible apply State.abortEntries_rel
    | with_reducible apply State.abortUnstarted_rel
    | with_reducible apply State.removeQueue_rel
    | split
    | dsimp only
    | with_reducible refine State.rel_fst (by assumption) ?_

theorem State.adminGoOn_rel {b_ : Bool} {s₀ : State} (s : State) (r : Nat) (x : AdminRec) (h_s : s₀.Rel b_ s) :
    s₀.Rel b_ (State.adminGoOn s r x).1 := by
  unfold State.adminGoOn
  repeat'
    first
    | with_reducible assumption
    | with_reducible apply State.arm_rel
    | with_reducible apply State.destroyOn_rel
    | with_reducible apply State.installKey_rel
    | with_reducible apply State.invalidate_rel
    | with_reducible apply State.modInst_rel
    | with_reducible apply State.resetEnd_rel
    | with_reducible apply State.retireKey_rel
    | simp only [State.rel_mk]
    | split
    | with_reducible refine State.rel_fst (by assumption) ?_

theorem State.flrGoOn_rel {s₀ : State} (s : State) (i : Nat) (h_s : s₀.Rel false s) :
    s₀.Rel false (State.flrGoOn s i) := by
  unfold State.flrGoOn
  repeat'
    first
    | with_reducible assumption
    | with_reducible apply State.jrnlDone_rel
    | with_reducible apply State.resetBegin_rel
    | with_reducible apply State.resetEnd_rel
    | simp only [State.rel_mk]
    | split

theorem execAdminComplete_rel {s₀ : State} (r : Nat) (v : View) (s : State) {t_ : State} (h_s : s₀.Rel false s) (e_ : execAdminComplete r v s = .next t_) :
    s₀.Rel false t_ := by
  unfold execAdminComplete at e_
  injection e_ with e_
  subst e_
  repeat'
    first
    | with_reducible assumption
    | with_reducible apply State.adminFinish_rel
    | with_reducible apply State.adminGoOn_rel
    | with_reducible apply State.flrGoOn_rel
    | with_reducible apply State.handOverCtrl_rel
    | with_reducible apply State.see_rel
    | split
    | dsimp only
    | with_reducible refine State.rel_fst (by assumption) ?_

theorem State.aqStart_rel {b_ : Bool} {s₀ : State} (s : State) (h_s : s₀.Rel b_ s) :
    s₀.Rel b_ (State.aqStart s) := by
  unfold State.aqStart
  repeat'
    first
    | with_reducible assumption
    | with_reducible apply State.pollBudget_rel
    | with_reducible apply State.setFloor_rel
    | simp only [State.rel_mk]

theorem State.aqCtrlWrite_rel {b_ : Bool} {s₀ : State} (s : State) (w : Word) (h_s : s₀.Rel b_ s) :
    s₀.Rel b_ (State.aqCtrlWrite s w) := by
  unfold State.aqCtrlWrite
  repeat'
    first
    | with_reducible assumption
    | with_reducible apply State.aqRewind_rel
    | with_reducible apply State.aqStart_rel
    | with_reducible apply State.aqStop_rel
    | with_reducible apply State.setFld_rel
    | with_reducible apply State.wr_rel
    | split
    | dsimp only

theorem execAqEnable_rel {b_ : Bool} {s₀ : State} (w : Word) (s : State) {t_ : State} (h_s : s₀.Rel b_ s) (e_ : execAqEnable w s = .next t_) :
    s₀.Rel b_ t_ := by
  unfold execAqEnable at e_
  injection e_ with e_
  subst e_
  repeat'
    first
    | with_reducible assumption
    | with_reducible apply State.aqCtrlWrite_rel
    | with_reducible apply State.setup_rel
    | dsimp only

theorem execAqDisable_rel {b_ : Bool} {s₀ : State} (w : Word) (s : State) {t_ : State} (h_s : s₀.Rel b_ s) (e_ : execAqDisable w s = .next t_) :
    s₀.Rel b_ t_ := by
  unfold execAqDisable at e_
  injection e_ with e_
  subst e_
  repeat'
    first
    | with_reducible assumption
    | with_reducible apply State.aqCtrlWrite_rel
    | with_reducible apply State.setup_rel
    | dsimp only

theorem State.contribution_rel {b_ : Bool} {s₀ : State} (s : State) (g : Nat) (x : Group) (o : CollOp) (e : Entry) (data : HostRead) (h_s : s₀.Rel b_ s) :
    s₀.Rel b_ (State.contribution s g x o e data).1 := by
  unfold State.contribution
  repeat'
    first
    | with_reducible assumption
    | with_reducible apply State.access_rel
    | with_reducible apply State.lookKey_rel
    | split
    | dsimp only
    | with_reducible refine State.rel_fst (by assumption) ?_

theorem State.sendUp_rel {b_ : Bool} {s₀ : State} (s : State) (g : Nat) (x : Group) (o : CollOp) (e : Edge) (seen : Nat) (h_s : s₀.Rel b_ s) :
    s₀.Rel b_ (State.sendUp s g x o e seen) := by
  unfold State.sendUp
  repeat'
    first
    | with_reducible assumption
    | with_reducible apply State.modGroup_rel
    | with_reducible apply State.offerUp_rel
    | with_reducible apply State.sendColl_rel
    | simp only [State.rel_mk]
    | split
    | with_reducible refine State.rel_fst (by assumption) ?_

theorem State.rootOutcome_rel {b_ : Bool} {s₀ : State} (s : State) (g : Nat) (x : Group) (o : CollOp) (kids : List (Edge × ChildMsg)) (h_s : s₀.Rel b_ s) :
    s₀.Rel b_ (State.rootOutcome s g x o kids) := by
  unfold State.rootOutcome
  repeat'
    first
    | with_reducible assumption
    | with_reducible apply State.closeDown_rel
    | with_reducible apply State.completeOp_rel
    | with_reducible apply State.modGroup_rel
    | with_reducible apply State.openDown_rel
    | simp only [State.rel_mk]
    | split

theorem State.readOwn_rel {b_ : Bool} {s₀ : State} (s : State) (g : Nat) (x : Group) (o : CollOp) (e : Entry) (data : HostRead) (h_s : s₀.Rel b_ s) :
    s₀.Rel b_ (State.readOwn s g x o e data).1 := by
  unfold State.readOwn
  repeat'
    first
    | with_reducible assumption
    | with_reducible apply State.contribution_rel
    | with_reducible apply State.modGroup_rel
    | with_reducible apply State.needTile_rel
    | simp only [State.rel_mk]
    | split
    | with_reducible refine State.rel_fst (by assumption) ?_

theorem State.stepOp_rel {b_ : Bool} {s₀ : State} (s : State) (g n : Nat) (h_s : s₀.Rel b_ s) :
    s₀.Rel b_ (State.stepOp s g n) := by
  unfold State.stepOp
  repeat'
    first
    | with_reducible assumption
    | with_reducible apply State.bump_rel
    | with_reducible apply State.modGroup_rel
    | with_reducible apply State.rootOutcome_rel
    | with_reducible apply State.sendUp_rel
    | with_reducible apply State.taskEnd_rel
    | split
    | dsimp only

theorem State.treeStep_rel {b_ : Bool} {s₀ : State} (s : State) (g n : Nat) (data : HostRead) (h_s : s₀.Rel b_ s) :
    s₀.Rel b_ (State.treeStep s g n data) := by
  unfold State.treeStep
  repeat'
    first
    | with_reducible assumption
    | with_reducible apply State.offerUp_rel
    | with_reducible apply State.readOwn_rel
    | with_reducible apply State.stepOp_rel
    | with_reducible apply State.treeTask_rel
    | split
    | dsimp only
    | with_reducible refine State.rel_fst (by assumption) ?_

theorem execTreeStep_rel {b_ : Bool} {s₀ : State} (g : Word) (n : Word) (data : HostRead) (v : View) (s : State) {t_ : State} (h_s : s₀.Rel b_ s) (e_ : execTreeStep g n data v s = .next t_) :
    s₀.Rel b_ t_ := by
  unfold execTreeStep at e_
  injection e_ with e_
  subst e_
  repeat'
    first
    | with_reducible assumption
    | with_reducible apply State.see_rel
    | with_reducible apply State.treeStep_rel
    | dsimp only

theorem State.spanUp_rel {b_ : Bool} {s₀ : State} (s : State) (g : Nat) (x : Group) (o : CollOp) (kids : List (Edge × ChildMsg)) (n : Nat) (h_s : s₀.Rel b_ s) :
    s₀.Rel b_ (State.spanUp s g x o kids n) := by
  unfold State.spanUp
  repeat'
    first
    | with_reducible assumption
    | with_reducible apply State.bumpBy_rel
    | with_reducible apply State.growMsg_rel
    | with_reducible apply State.modGroup_rel
    | simp only [State.rel_mk, id_eq]
    | split

theorem State.rootEnd_rel {b_ : Bool} {s₀ : State} (s : State) (g : Nat) (x : Group) (o : CollOp) (kids : List (Edge × ChildMsg)) (h_s : s₀.Rel b_ s) :
    s₀.Rel b_ (State.rootEnd s g x o kids) := by
  unfold State.rootEnd
  repeat'
    first
    | with_reducible assumption
    | with_reducible apply State.closeDown_rel
    | with_reducible apply State.completeOp_rel
    | with_reducible apply State.downTo_rel
    | with_reducible apply State.forwardDown_rel
    | with_reducible apply State.growMsg_rel
    | with_reducible apply State.modGroup_rel
    | with_reducible apply State.modMsg_rel
    | simp only [State.rel_mk, id_eq]
    | with_reducible apply State.rel_foldl
    | intro _
    | split

theorem State.spanRoot_rel {s₀ : State} (s : State) (g : Nat) (x : Group) (o : CollOp) (kids : List (Edge × ChildMsg)) (n : Nat) (h_s : s₀.Rel false s) :
    s₀.Rel false (State.spanRoot s g x o kids n) := by
  unfold State.spanRoot
  repeat'
    first
    | with_reducible assumption
    | with_reducible apply State.bumpBy_rel
    | with_reducible apply State.forwardDown_rel
    | with_reducible apply State.modGroup_rel
    | with_reducible apply State.placeResult_rel
    | with_reducible apply State.rootEnd_rel
    | simp only [State.rel_mk, CollPlace.st_done, CollPlace.st_wait]
    | split
    | with_reducible refine State.rel_done (by assumption) ?_
    | with_reducible refine State.rel_wait (by assumption) ?_

theorem State.spanCombine_rel {s₀ : State} (s : State) (g n : Nat) (h_s : s₀.Rel false s) :
    s₀.Rel false (State.spanCombine s g n) := by
  unfold State.spanCombine
  repeat'
    first
    | with_reducible assumption
    | with_reducible apply State.spanRoot_rel
    | with_reducible apply State.spanUp_rel
    | split
    | dsimp only

theorem execSpanCombine_rel {s₀ : State} (g : Word) (n : Word) (v : View) (s : State) {t_ : State} (h_s : s₀.Rel false s) (e_ : execSpanCombine g n v s = .next t_) :
    s₀.Rel false t_ := by
  unfold execSpanCombine at e_
  injection e_ with e_
  subst e_
  repeat'
    first
    | with_reducible assumption
    | with_reducible apply State.see_rel
    | with_reducible apply State.spanCombine_rel
    | dsimp only

theorem State.downPlaced_rel {b_ : Bool} {s₀ : State} (s : State) (g : Nat) (x : Group) (o : CollOp) (kids : List (Edge × ChildMsg)) (m d total : Nat) (h_s : s₀.Rel b_ s) :
    s₀.Rel b_ (State.downPlaced s g x o kids m d total) := by
  unfold State.downPlaced
  repeat'
    first
    | with_reducible assumption
    | with_reducible apply State.closeDown_rel
    | with_reducible apply State.completeOp_rel
    | with_reducible apply State.forwardDown_rel
    | with_reducible apply State.modGroup_rel
    | simp only [State.rel_mk]
    | split

theorem State.downMessage_rel {s₀ : State} (s : State) (g n : Nat) (h_s : s₀.Rel false s) :
    s₀.Rel false (State.downMessage s g n) := by
  unfold State.downMessage
  repeat'
    first
    | with_reducible assumption
    | with_reducible apply State.downPlaced_rel
    | with_reducible apply State.modGroup_rel
    | with_reducible apply State.openDown_rel
    | with_reducible apply State.placeResult_rel
    | simp only [State.rel_mk, CollPlace.st_done, CollPlace.st_wait]
    | split
    | with_reducible refine State.rel_done (by assumption) ?_
    | with_reducible refine State.rel_wait (by assumption) ?_

theorem execDownMessage_rel {s₀ : State} (g : Word) (n : Word) (v : View) (s : State) {t_ : State} (h_s : s₀.Rel false s) (e_ : execDownMessage g n v s = .next t_) :
    s₀.Rel false t_ := by
  unfold execDownMessage at e_
  injection e_ with e_
  subst e_
  repeat'
    first
    | with_reducible assumption
    | with_reducible apply State.downMessage_rel
    | with_reducible apply State.see_rel
    | dsimp only

theorem State.takeAbort_rel {b_ : Bool} {s₀ : State} (s : State) (h : Nat) (h_s : s₀.Rel b_ s) :
    s₀.Rel b_ (State.takeAbort s h) := by
  unfold State.takeAbort
  repeat'
    first
    | with_reducible assumption
    | with_reducible apply State.breakGroup_rel
    | with_reducible apply State.modConn_rel
    | simp only [State.rel_mk]
    | split

theorem execCollectiveAbort_rel {b_ : Bool} {s₀ : State} (h : Word) (v : View) (s : State) {t_ : State} (h_s : s₀.Rel b_ s) (e_ : execCollectiveAbort h v s = .next t_) :
    s₀.Rel b_ t_ := by
  unfold execCollectiveAbort at e_
  injection e_ with e_
  subst e_
  repeat'
    first
    | with_reducible assumption
    | with_reducible apply State.advanceWm_rel
    | with_reducible apply State.see_rel
    | with_reducible apply State.takeAbort_rel
    | dsimp only

theorem State.copyStored_rel {s₀ : State} (s : State) (e : Nat) (h_s : s₀.Rel false s) :
    s₀.Rel false (State.copyStored s e) := by
  unfold State.copyStored
  repeat'
    first
    | with_reducible assumption
    | with_reducible apply State.access_rel
    | with_reducible apply State.bump_rel
    | with_reducible apply State.covered_rel
    | with_reducible apply State.finishStored_rel
    | with_reducible apply State.needContext_rel
    | with_reducible apply State.writePieces_rel
    | split
    | dsimp only
    | with_reducible refine State.rel_fst (by assumption) ?_

theorem execUnexpectedCopy_rel {s₀ : State} (e : Nat) (v : View) (s : State) {t_ : State} (h_s : s₀.Rel false s) (e_ : execUnexpectedCopy e v s = .next t_) :
    s₀.Rel false t_ := by
  unfold execUnexpectedCopy at e_
  injection e_ with e_
  subst e_
  repeat'
    first
    | with_reducible assumption
    | with_reducible apply State.copyStored_rel
    | with_reducible apply State.see_rel
    | dsimp only

theorem State.startPull_rel {b_ : Bool} {s₀ : State} (s : State) (e : Nat) (h_s : s₀.Rel b_ s) :
    s₀.Rel b_ (State.startPull s e) := by
  unfold State.startPull
  repeat'
    first
    | with_reducible assumption
    | with_reducible apply State.accept_rel
    | with_reducible apply State.bump_rel
    | with_reducible apply State.modConn_rel
    | with_reducible apply State.modEntry_rel
    | with_reducible apply State.pullTask_rel
    | with_reducible apply State.taskEnd_rel
    | simp only [State.rel_mk]
    | split
    | with_reducible refine State.rel_fst (by assumption) ?_

theorem execPullStart_rel {b_ : Bool} {s₀ : State} (e : Nat) (s : State) {t_ : State} (h_s : s₀.Rel b_ s) (e_ : execPullStart e s = .next t_) :
    s₀.Rel b_ t_ := by
  unfold execPullStart at e_
  injection e_ with e_
  subst e_
  repeat'
    first
    | with_reducible assumption
    | with_reducible apply State.startPull_rel
    | dsimp only

theorem State.serveRead_rel {b_ : Bool} {s₀ : State} (s : State) (h : Nat) (h_s : s₀.Rel b_ s) :
    s₀.Rel b_ (State.serveRead s h) := by
  unfold State.serveRead
  repeat'
    first
    | with_reducible assumption
    | with_reducible apply State.accept_rel
    | with_reducible apply State.modConn_rel
    | simp only [State.rel_mk]
    | split
    | with_reducible refine State.rel_fst (by assumption) ?_

theorem execReadReq_rel {b_ : Bool} {s₀ : State} (h : Word) (v : View) (s : State) {t_ : State} (h_s : s₀.Rel b_ s) (e_ : execReadReq h v s = .next t_) :
    s₀.Rel b_ t_ := by
  unfold execReadReq at e_
  injection e_ with e_
  subst e_
  repeat'
    first
    | with_reducible assumption
    | with_reducible apply State.advanceWm_rel
    | with_reducible apply State.see_rel
    | with_reducible apply State.serveRead_rel
    | dsimp only

theorem State.loadTlb_rel {b_ : Bool} {s₀ : State} (s : State) (tile : Nat) (e : TlbEntry) (h_s : s₀.Rel b_ s) :
    s₀.Rel b_ (State.loadTlb s tile e) := by
  unfold State.loadTlb
  repeat'
    first
    | with_reducible assumption
    | simp only [State.rel_mk]
    | split

theorem State.walkFault_rel {b_ : Bool} {s₀ : State} (s : State) (m : Miss) (status level : Nat) (h_s : s₀.Rel b_ s) :
    s₀.Rel b_ (State.walkFault s m status level) := by
  unfold State.walkFault
  repeat'
    first
    | with_reducible assumption
    | with_reducible apply State.failWaits_rel
    | with_reducible apply State.xltFault_rel
    | dsimp only

theorem State.walkLeaf_rel {b_ : Bool} {s₀ : State} (s : State) (m : Miss) (level ptr : Nat) (e : Word64) (h_s : s₀.Rel b_ s) :
    s₀.Rel b_ (State.walkLeaf s m level ptr e) := by
  unfold State.walkLeaf
  repeat'
    first
    | with_reducible assumption
    | with_reducible apply State.flagUpdate_rel
    | with_reducible apply State.loadTlb_rel
    | with_reducible apply State.walkFault_rel
    | split
    | dsimp only
    | with_reducible refine State.rel_fst (by assumption) ?_

theorem State.missOver_rel {b_ : Bool} {s₀ : State} (s : State) (m : Miss) (h_s : s₀.Rel b_ s) :
    s₀.Rel b_ (State.missOver s m) := by
  unfold State.missOver
  repeat'
    first
    | with_reducible assumption
    | simp only [State.rel_mk]

theorem State.missRetry_rel {s₀ : State} (s : State) (m : Miss) (h_s : s₀.Rel false s) :
    s₀.Rel false (State.missRetry s m) := by
  unfold State.missRetry
  repeat'
    first
    | with_reducible assumption
    | with_reducible apply State.retryInst_rel
    | with_reducible apply State.retrySlots_rel
    | with_reducible apply State.taskEnd_rel
    | split
    | dsimp only

theorem State.lateTask_rel {b_ : Bool} {s₀ : State} (s : State) (i : Nat) (h_s : s₀.Rel b_ s) :
    s₀.Rel b_ (State.lateTask s i) := by
  unfold State.lateTask
  repeat'
    first
    | with_reducible assumption
    | with_reducible apply State.bump_rel
    | split
    | dsimp only

theorem State.countReads_rel {b_ : Bool} {s₀ : State} (s : State) (n : Nat) (h_s : s₀.Rel b_ s) :
    s₀.Rel b_ (State.countReads s n) := by
  unfold State.countReads
  repeat'
    first
    | with_reducible assumption
    | with_reducible apply State.bumpBy_rel
    | with_reducible apply State.occur_rel
    | dsimp only

theorem State.missDone_rel {b_ : Bool} {s₀ : State} (s : State) (m : Miss) (reads : List HostRead) (h_s : s₀.Rel b_ s) :
    s₀.Rel b_ (State.missDone s m reads) := by
  unfold State.missDone
  repeat'
    first
    | with_reducible assumption
    | with_reducible apply State.countReads_rel
    | with_reducible apply State.drawn_rel
    | with_reducible apply State.failWaits_rel
    | with_reducible apply State.lateTask_rel
    | with_reducible apply State.missOver_rel
    | with_reducible apply State.raise_rel
    | with_reducible apply State.raiseStanding_rel
    | with_reducible apply State.walkFault_rel
    | with_reducible apply State.walkLeaf_rel
    | split
    | dsimp only

theorem execTranslationMiss_rel {s₀ : State} (t : TileId) (i : InstId) (va : Nat) (reads : List HostRead) (s : State) {t_ : State} (h_s : s₀.Rel false s) (e_ : execTranslationMiss t i va reads s = .next t_) :
    s₀.Rel false t_ := by
  unfold execTranslationMiss at e_
  injection e_ with e_
  subst e_
  repeat'
    first
    | with_reducible assumption
    | with_reducible apply State.missDone_rel
    | with_reducible apply State.missRetry_rel
    | split
    | dsimp only

theorem State.modTlb_rel {b_ : Bool} {s₀ : State} (s : State) (tile i ptr : Nat) (f : TlbEntry → Option TlbEntry) (h_s : s₀.Rel b_ s) :
    s₀.Rel b_ (State.modTlb s tile i ptr f) := by
  unfold State.modTlb
  repeat'
    first
    | with_reducible assumption
    | simp only [State.rel_mk]
    | split

theorem State.accessedDone_rel {b_ : Bool} {s₀ : State} (s : State) (u : FlagUpdate) (found : Word64) (h_s : s₀.Rel b_ s) :
    s₀.Rel b_ (State.accessedDone s u found) := by
  unfold State.accessedDone
  repeat'
    first
    | with_reducible assumption
    | with_reducible apply State.bump_rel
    | with_reducible apply State.lateTask_rel
    | with_reducible apply State.loadTlb_rel
    | simp only [State.rel_mk]
    | split

theorem State.dirtyDone_rel {b_ : Bool} {s₀ : State} (s : State) (u : FlagUpdate) (found : Word64) (room : Nat) (h_s : s₀.Rel b_ s) :
    s₀.Rel b_ (State.dirtyDone s u found room) := by
  unfold State.dirtyDone
  repeat'
    first
    | with_reducible assumption
    | with_reducible apply State.bump_rel
    | with_reducible apply State.lateTask_rel
    | with_reducible apply State.logPage_rel
    | with_reducible apply State.modInst_rel
    | with_reducible apply State.modTlb_rel
    | simp only [State.rel_mk]
    | split

theorem State.updateDone_rel {b_ : Bool} {s₀ : State} (s : State) (u : FlagUpdate) (found : Word64) (ur : Bool) (room : Nat) (h_s : s₀.Rel b_ s) :
    s₀.Rel b_ (State.updateDone s u found ur room) := by
  unfold State.updateDone
  repeat'
    first
    | with_reducible assumption
    | with_reducible apply State.accessedDone_rel
    | with_reducible apply State.atomicUr_rel
    | with_reducible apply State.dirtyDone_rel
    | with_reducible apply State.freeLine_rel
    | with_reducible apply State.lateTask_rel
    | with_reducible apply State.raise_rel
    | with_reducible apply State.walkFault_rel
    | simp only [State.rel_mk]
    | split

theorem execFlagUpdateDone_rel {s₀ : State} (k : Nat) (found : Word64) (ur : Bool) (room : Nat) (s : State) {t_ : State} (h_s : s₀.Rel false s) (e_ : execFlagUpdateDone k found ur room s = .next t_) :
    s₀.Rel false t_ := by
  unfold execFlagUpdateDone at e_
  injection e_ with e_
  subst e_
  repeat'
    first
    | with_reducible assumption
    | with_reducible apply State.missRetry_rel
    | with_reducible apply State.updateDone_rel
    | split
    | dsimp only

theorem State.extCtrlWrite_rel {b_ : Bool} {s₀ : State} (s : State) (i n : Nat) (w : Word) (h_s : s₀.Rel b_ s) :
    s₀.Rel b_ (State.extCtrlWrite s i n w) := by
  unfold State.extCtrlWrite
  repeat'
    first
    | with_reducible assumption
    | with_reducible apply State.setFlag_rel
    | split
    | dsimp only

theorem execExtentValidSet_rel {b_ : Bool} {s₀ : State} (i : InstId) (n : Fin 16) (w : Word) (s : State) {t_ : State} (h_s : s₀.Rel b_ s) (e_ : execExtentValidSet i n w s = .next t_) :
    s₀.Rel b_ t_ := by
  unfold execExtentValidSet at e_
  injection e_ with e_
  subst e_
  repeat'
    first
    | with_reducible assumption
    | with_reducible apply State.extCtrlWrite_rel
    | split
    | dsimp only

theorem State.xltCtrlWrite_rel {b_ : Bool} {s₀ : State} (s : State) (w : Word) (h_s : s₀.Rel b_ s) :
    s₀.Rel b_ (State.xltCtrlWrite s w) := by
  unfold State.xltCtrlWrite
  repeat'
    first
    | with_reducible assumption
    | with_reducible apply State.endStanding_rel
    | with_reducible apply State.setFlag_rel
    | with_reducible apply State.setFld_rel
    | split
    | dsimp only

theorem execDevlistLock_rel {b_ : Bool} {s₀ : State} (w : Word) (s : State) {t_ : State} (h_s : s₀.Rel b_ s) (e_ : execDevlistLock w s = .next t_) :
    s₀.Rel b_ t_ := by
  unfold execDevlistLock at e_
  injection e_ with e_
  subst e_
  repeat'
    first
    | with_reducible assumption
    | with_reducible apply State.setup_rel
    | with_reducible apply State.xltCtrlWrite_rel
    | dsimp only

theorem execXltFaultInfoRead_rel {b_ : Bool} {s₀ : State} (who : Fin 9) (s : State) {t_ : State} (h_s : s₀.Rel b_ s) (e_ : execXltFaultInfoRead who s = .next t_) :
    s₀.Rel b_ t_ := by
  unfold execXltFaultInfoRead at e_
  injection e_ with e_
  subst e_
  repeat'
    first
    | with_reducible assumption
    | with_reducible apply State.setFlag_rel
    | simp only [State.rel_mk]

theorem State.instMapWrite_rel {b_ : Bool} {s₀ : State} (s : State) (i : Nat) (w : Word) (h_s : s₀.Rel b_ s) :
    s₀.Rel b_ (State.instMapWrite s i w) := by
  unfold State.instMapWrite
  repeat'
    first
    | with_reducible assumption
    | with_reducible apply State.markSuspended_rel
    | with_reducible apply State.setFlag_rel
    | with_reducible apply State.wr_rel
    | split
    | dsimp only

theorem execInstMapWrite_rel {b_ : Bool} {s₀ : State} (i : InstId) (w : Word) (s : State) {t_ : State} (h_s : s₀.Rel b_ s) (e_ : execInstMapWrite i w s = .next t_) :
    s₀.Rel b_ t_ := by
  unfold execInstMapWrite at e_
  injection e_ with e_
  subst e_
  repeat'
    first
    | with_reducible assumption
    | with_reducible apply State.instMapWrite_rel
    | with_reducible apply State.setup_rel
    | dsimp only

theorem State.keptFails_rel {s₀ : State} (s : State) (o : HostOut) (h_s : s₀.Rel false s) :
    s₀.Rel false (State.keptFails s o) := by
  unfold State.keptFails
  repeat'
    first
    | with_reducible assumption
    | with_reducible apply State.hostOpOver_rel
    | with_reducible apply State.missRetry_rel
    | with_reducible apply State.nextOp_rel
    | with_reducible apply State.updateDone_rel
    | with_reducible apply State.wordOpDone_rel
    | split
    | dsimp only

theorem State.failAtomics_rel {s₀ : State} (s : State) (p f : Nat) (h_s : s₀.Rel false s) :
    s₀.Rel false (State.failAtomics s p f) := by
  unfold State.failAtomics
  repeat'
    first
    | with_reducible assumption
    | with_reducible apply State.keptFails_rel
    | simp only [State.rel_mk]
    | with_reducible apply State.rel_foldl
    | intro _
    | split

theorem State.fnConfig_rel {s₀ : State} (s : State) (p f : Nat) (c : FnCfg) (h_s : s₀.Rel false s) :
    s₀.Rel false (State.fnConfig s p f c) := by
  unfold State.fnConfig
  repeat'
    first
    | with_reducible assumption
    | with_reducible apply State.endStanding_rel
    | with_reducible apply State.failAtomics_rel
    | with_reducible apply State.markSuspended_rel
    | with_reducible apply State.reissue_rel
    | with_reducible apply State.retrySlots_rel
    | with_reducible apply State.setFlag_rel
    | simp only [State.rel_mk]
    | split

theorem execBusMasterEnableChange_rel {s₀ : State} (p : PortId) (f : Fin 17) (bme atomicEn : Bool) (bars : List (Nat × Nat)) (s : State) {t_ : State} (h_s : s₀.Rel false s) (e_ : execBusMasterEnableChange p f bme atomicEn bars s = .next t_) :
    s₀.Rel false t_ := by
  unfold execBusMasterEnableChange at e_
  injection e_ with e_
  subst e_
  repeat'
    first
    | with_reducible assumption
    | with_reducible apply State.fnConfig_rel
    | dsimp only

theorem State.opLost_rel {s₀ : State} (s : State) (o : UnitOp) (h_s : s₀.Rel false s) :
    s₀.Rel false (State.opLost s o) := by
  unfold State.opLost
  repeat'
    first
    | with_reducible assumption
    | with_reducible apply State.abandon_rel
    | with_reducible apply State.failHeld_rel
    | with_reducible apply State.failReq_rel
    | with_reducible apply State.nextOp_rel
    | with_reducible apply State.opOver_rel
    | with_reducible apply State.release_rel
    | with_reducible apply State.slotAcquire_rel
    | with_reducible apply State.slotOutcome_rel
    | with_reducible apply State.slotRelease_rel
    | with_reducible apply State.slotReleased_rel
    | with_reducible apply State.unholdUnit_rel
    | split
    | dsimp only

theorem State.portLocks_rel {s₀ : State} (s : State) (p : Nat) (h_s : s₀.Rel false s) :
    s₀.Rel false (State.portLocks s p) := by
  unfold State.portLocks
  repeat'
    first
    | with_reducible assumption
    | with_reducible apply State.abandonAll_rel
    | with_reducible apply State.idleSlots_rel
    | with_reducible apply State.sendAbandonAll_rel
    | with_reducible apply State.withdrawAll_rel
    | simp only [State.rel_mk]
    | with_reducible apply State.rel_foldl
    | intro _
    | split

theorem State.keepAgain_rel {b_ : Bool} {s₀ : State} (s : State) (p n : Nat) (h_s : s₀.Rel b_ s) :
    s₀.Rel b_ (State.keepAgain s p n) := by
  unfold State.keepAgain
  repeat'
    first
    | with_reducible assumption
    | simp only [State.rel_mk]
    | split

theorem State.portDown_rel {s₀ : State} (s : State) (p n : Nat) (h_s : s₀.Rel false s) :
    s₀.Rel false (State.portDown s p n) := by
  unfold State.portDown
  repeat'
    first
    | with_reducible assumption
    | with_reducible apply State.bump_rel
    | with_reducible apply State.keepAgain_rel
    | with_reducible apply State.markSuspended_rel
    | with_reducible apply State.opLost_rel
    | with_reducible apply State.portLocks_rel
    | with_reducible apply State.raiseStanding_rel
    | with_reducible apply State.wr_rel
    | simp only [State.rel_mk]
    | with_reducible apply State.rel_foldl
    | intro _
    | split

theorem execHostPortReset_rel {s₀ : State} (p : PortId) (unacked : Nat) (v : View) (s : State) {t_ : State} (h_s : s₀.Rel false s) (e_ : execHostPortReset p unacked v s = .next t_) :
    s₀.Rel false t_ := by
  unfold execHostPortReset at e_
  injection e_ with e_
  subst e_
  repeat'
    first
    | with_reducible assumption
    | with_reducible apply State.portDown_rel
    | with_reducible apply State.see_rel
    | dsimp only

theorem State.fnReset_rel {b_ : Bool} {s₀ : State} (s : State) (p f : Nat) (h_s : s₀.Rel b_ s) :
    s₀.Rel b_ (State.fnReset s p f) := by
  unfold State.fnReset
  repeat'
    first
    | with_reducible assumption
    | with_reducible apply State.markSuspended_rel
    | with_reducible apply State.setFlag_rel
    | simp only [State.rel_mk]
    | split

theorem State.flrBegin_rel {s₀ : State} (s : State) (i : Nat) (h_s : s₀.Rel false s) :
    s₀.Rel false (State.flrBegin s i) := by
  unfold State.flrBegin
  repeat'
    first
    | with_reducible assumption
    | with_reducible apply State.resetBegin_rel
    | simp only [State.rel_mk]
    | split

theorem State.flrDo_rel {s₀ : State} (s : State) (p f : Nat) (h_s : s₀.Rel false s) :
    s₀.Rel false (State.flrDo s p f) := by
  unfold State.flrDo
  repeat'
    first
    | with_reducible assumption
    | with_reducible apply State.aqStop_rel
    | with_reducible apply State.bump_rel
    | with_reducible apply State.flrBegin_rel
    | with_reducible apply State.fnReset_rel
    | split
    | dsimp only

theorem execFlr_rel {s₀ : State} (p : PortId) (f : Fin 17) (v : View) (s : State) {t_ : State} (h_s : s₀.Rel false s) (e_ : execFlr p f v s = .next t_) :
    s₀.Rel false t_ := by
  unfold execFlr at e_
  injection e_ with e_
  subst e_
  repeat'
    first
    | with_reducible assumption
    | with_reducible apply State.flrDo_rel
    | with_reducible apply State.see_rel
    | dsimp only

theorem State.hptCtrlWrite_rel {s₀ : State} (s : State) (p : Nat) (w : Word) (n : Nat) (h_s : s₀.Rel false s) :
    s₀.Rel false (State.hptCtrlWrite s p w n) := by
  unfold State.hptCtrlWrite
  repeat'
    first
    | with_reducible assumption
    | with_reducible apply State.portDown_rel
    | with_reducible apply State.setFld_rel
    | with_reducible apply State.wr_rel
    | split
    | dsimp only

theorem execHptDisable_rel {s₀ : State} (p : PortId) (w : Word) (unacked : Nat) (v : View) (s : State) {t_ : State} (h_s : s₀.Rel false s) (e_ : execHptDisable p w unacked v s = .next t_) :
    s₀.Rel false t_ := by
  unfold execHptDisable at e_
  injection e_ with e_
  subst e_
  repeat'
    first
    | with_reducible assumption
    | with_reducible apply State.hptCtrlWrite_rel
    | with_reducible apply State.see_rel
    | with_reducible apply State.setup_rel
    | dsimp only

theorem execHptRetrain_rel {s₀ : State} (p : PortId) (w : Word) (unacked : Nat) (v : View) (s : State) {t_ : State} (h_s : s₀.Rel false s) (e_ : execHptRetrain p w unacked v s = .next t_) :
    s₀.Rel false t_ := by
  unfold execHptRetrain at e_
  injection e_ with e_
  subst e_
  repeat'
    first
    | with_reducible assumption
    | with_reducible apply State.hptCtrlWrite_rel
    | with_reducible apply State.see_rel
    | with_reducible apply State.setup_rel
    | dsimp only

theorem State.sendMsi_rel {b_ : Bool} {s₀ : State} (s : State) (h_s : s₀.Rel b_ s) :
    s₀.Rel b_ (State.sendMsi s) := by
  unfold State.sendMsi
  repeat'
    first
    | with_reducible assumption
    | simp only [State.rel_mk]
    | split

theorem State.portTrained_rel {b_ : Bool} {s₀ : State} (s : State) (p : Nat) (cxl : Bool) (rate width : Nat) (cache : Bool) (base : Nat) (h_s : s₀.Rel b_ s) :
    s₀.Rel b_ (State.portTrained s p cxl rate width cache base) := by
  unfold State.portTrained
  repeat'
    first
    | with_reducible assumption
    | with_reducible apply State.markSuspended_rel
    | with_reducible apply State.sendMsi_rel
    | with_reducible apply State.wr_rel
    | simp only [State.rel_mk]
    | split

theorem execHostPortLinkUp_rel {b_ : Bool} {s₀ : State} (p : PortId) (cxl : Bool) (rate : Fin 6) (width : Fin 5) (cache : Bool) (base : Word64) (s : State) {t_ : State} (h_s : s₀.Rel b_ s) (e_ : execHostPortLinkUp p cxl rate width cache base s = .next t_) :
    s₀.Rel b_ t_ := by
  unfold execHostPortLinkUp at e_
  injection e_ with e_
  subst e_
  repeat'
    first
    | with_reducible assumption
    | with_reducible apply State.portTrained_rel
    | dsimp only

theorem State.writeStall_rel {b_ : Bool} {s₀ : State} (s : State) (p : Nat) (acked : Bool) (h_s : s₀.Rel b_ s) :
    s₀.Rel b_ (State.writeStall s p acked) := by
  unfold State.writeStall
  repeat'
    first
    | with_reducible assumption
    | with_reducible apply State.drawn_rel
    | with_reducible apply State.endStanding_rel
    | with_reducible apply State.markSuspended_rel
    | with_reducible apply State.raiseStanding_rel
    | split
    | dsimp only

theorem execWriteStall_rel {b_ : Bool} {s₀ : State} (p : PortId) (acked : Bool) (s : State) {t_ : State} (h_s : s₀.Rel b_ s) (e_ : execWriteStall p acked s = .next t_) :
    s₀.Rel b_ t_ := by
  unfold execWriteStall at e_
  injection e_ with e_
  subst e_
  repeat'
    first
    | with_reducible assumption
    | with_reducible apply State.writeStall_rel
    | dsimp only

theorem State.readFailed_rel {b_ : Bool} {s₀ : State} (s : State) (p f : Nat) (timeout : Bool) (h_s : s₀.Rel b_ s) :
    s₀.Rel b_ (State.readFailed s p f timeout) := by
  unfold State.readFailed
  repeat'
    first
    | with_reducible assumption
    | with_reducible apply State.raise_rel
    | split
    | dsimp only

theorem execCplTimeout_rel {b_ : Bool} {s₀ : State} (p : PortId) (f : Fin 17) (s : State) {t_ : State} (h_s : s₀.Rel b_ s) (e_ : execCplTimeout p f s = .next t_) :
    s₀.Rel b_ t_ := by
  unfold execCplTimeout at e_
  injection e_ with e_
  subst e_
  repeat'
    first
    | with_reducible assumption
    | with_reducible apply State.readFailed_rel
    | dsimp only

theorem execPoison_rel {b_ : Bool} {s₀ : State} (p : PortId) (f : Fin 17) (s : State) {t_ : State} (h_s : s₀.Rel b_ s) (e_ : execPoison p f s = .next t_) :
    s₀.Rel b_ t_ := by
  unfold execPoison at e_
  injection e_ with e_
  subst e_
  repeat'
    first
    | with_reducible assumption
    | with_reducible apply State.readFailed_rel
    | dsimp only

theorem execAtomicUr_rel {s₀ : State} (k : Nat) (v : View) (s : State) {t_ : State} (h_s : s₀.Rel false s) (e_ : execAtomicUr k v s = .next t_) :
    s₀.Rel false t_ := by
  unfold execAtomicUr at e_
  injection e_ with e_
  subst e_
  repeat'
    first
    | with_reducible assumption
    | with_reducible apply State.hostOpOver_rel
    | with_reducible apply State.nextOp_rel
    | with_reducible apply State.retrySlots_rel
    | with_reducible apply State.see_rel
    | with_reducible apply State.wordOpDone_rel
    | split
    | dsimp only

theorem State.modRequester_rel {b_ : Bool} {s₀ : State} (s : State) (who : Nat) (f : Requester → Requester) (h_s : s₀.Rel b_ s) :
    s₀.Rel b_ (State.modRequester s who f) := by
  unfold State.modRequester
  repeat'
    first
    | with_reducible assumption
    | simp only [State.rel_mk]

theorem State.answer_rel {b_ : Bool} {s₀ : State} (s : State) (who n v : Nat) (h_s : s₀.Rel b_ s) :
    s₀.Rel b_ (State.answer s who n v) := by
  unfold State.answer
  repeat'
    first
    | with_reducible assumption
    | simp only [State.rel_mk]

theorem State.latchFor_rel {b_ : Bool} {s₀ : State} (s : State) (who a : Nat) (w : Word) (h_s : s₀.Rel b_ s) :
    s₀.Rel b_ (State.latchFor s who a w) := by
  unfold State.latchFor
  repeat'
    first
    | with_reducible assumption
    | with_reducible apply State.modRequester_rel
    | simp only [State.rel_mk]

theorem State.latched_rel {b_ : Bool} {s₀ : State} (s : State) (who a : Nat) (w : Word) (h_s : s₀.Rel b_ s) :
    s₀.Rel b_ (State.latched s who a w).1 := by
  unfold State.latched
  repeat'
    first
    | with_reducible assumption
    | with_reducible apply State.modRequester_rel
    | simp only [State.rel_mk]
    | split

theorem State.readLow_rel {b_ : Bool} {s₀ : State} (s : State) (who a : Nat) (lo hi : Word) (h_s : s₀.Rel b_ s) :
    s₀.Rel b_ (State.readLow s who a lo hi) := by
  unfold State.readLow
  repeat'
    first
    | with_reducible assumption
    | with_reducible apply State.answer_rel
    | with_reducible apply State.latchFor_rel
    | dsimp only

theorem State.countingClock_rel {b_ : Bool} {s₀ : State} (s : State) (b : Nat) (outside : List (Nat × Nat)) (occs : List (Nat × Nat × Nat)) (h_s : s₀.Rel b_ s) :
    s₀.Rel b_ (State.countingClock s b outside occs) := by
  unfold State.countingClock
  repeat'
    first
    | with_reducible assumption
    | with_reducible apply State.occur_rel
    | simp only [State.rel_mk]
    | with_reducible apply State.rel_foldl
    | intro _
    | split

theorem execCountingClock_rel {b_ : Bool} {s₀ : State} (b : Fin 146) (conds : List (Nat × Nat)) (occs : List (Nat × Nat × Nat)) (s : State) {t_ : State} (h_s : s₀.Rel b_ s) (e_ : execCountingClock b conds occs s = .next t_) :
    s₀.Rel b_ t_ := by
  unfold execCountingClock at e_
  injection e_ with e_
  subst e_
  repeat'
    first
    | with_reducible assumption
    | with_reducible apply State.countingClock_rel
    | dsimp only

theorem State.setCtr_rel {b_ : Bool} {s₀ : State} (s : State) (b c : Nat) (x : ProgCtr) (h_s : s₀.Rel b_ s) :
    s₀.Rel b_ (State.setCtr s b c x) := by
  unfold State.setCtr
  repeat'
    first
    | with_reducible assumption
    | simp only [State.rel_mk]

theorem State.cntValRead_rel {b_ : Bool} {s₀ : State} (s : State) (who b c : Nat) (h_s : s₀.Rel b_ s) :
    s₀.Rel b_ (State.cntValRead s who b c) := by
  unfold State.cntValRead
  repeat'
    first
    | with_reducible assumption
    | with_reducible apply State.answer_rel
    | with_reducible apply State.latchFor_rel
    | with_reducible apply State.latched_rel
    | split
    | dsimp only
    | with_reducible refine State.rel_fst (by assumption) ?_

theorem execCntValRead_rel {b_ : Bool} {s₀ : State} (who : Fin 9) (b : Fin 146) (c : Fin 8) (s : State) {t_ : State} (h_s : s₀.Rel b_ s) (e_ : execCntValRead who b c s = .next t_) :
    s₀.Rel b_ t_ := by
  unfold execCntValRead at e_
  injection e_ with e_
  subst e_
  repeat'
    first
    | with_reducible assumption
    | with_reducible apply State.cntValRead_rel
    | dsimp only

theorem State.cntSelWrite_rel {b_ : Bool} {s₀ : State} (s : State) (b c : Nat) (w : Word) (h_s : s₀.Rel b_ s) :
    s₀.Rel b_ (State.cntSelWrite s b c w) := by
  unfold State.cntSelWrite
  repeat'
    first
    | with_reducible assumption
    | with_reducible apply State.setCtr_rel
    | simp only [State.rel_mk]
    | split

theorem execCntSelWrite_rel {b_ : Bool} {s₀ : State} (b : Fin 146) (c : Fin 8) (w : Word) (s : State) {t_ : State} (h_s : s₀.Rel b_ s) (e_ : execCntSelWrite b c w s = .next t_) :
    s₀.Rel b_ t_ := by
  unfold execCntSelWrite at e_
  injection e_ with e_
  subst e_
  repeat'
    first
    | with_reducible assumption
    | with_reducible apply State.cntSelWrite_rel
    | with_reducible apply State.setup_rel
    | dsimp only

theorem State.cntValWrite_rel {b_ : Bool} {s₀ : State} (s : State) (b c : Nat) (w : Word) (h_s : s₀.Rel b_ s) :
    s₀.Rel b_ (State.cntValWrite s b c w) := by
  unfold State.cntValWrite
  repeat'
    first
    | with_reducible assumption
    | with_reducible apply State.setCtr_rel
    | simp only [State.rel_mk]
    | split

theorem State.cntCtrlWrite_rel {b_ : Bool} {s₀ : State} (s : State) (w : Word) (h_s : s₀.Rel b_ s) :
    s₀.Rel b_ (State.cntCtrlWrite s w) := by
  unfold State.cntCtrlWrite
  repeat'
    first
    | with_reducible assumption
    | with_reducible apply State.setFlag_rel
    | with_reducible apply State.setFld_rel
    | simp only [State.rel_mk]
    | split

theorem execCntCtrlEnable_rel {b_ : Bool} {s₀ : State} (w : Word) (s : State) {t_ : State} (h_s : s₀.Rel b_ s) (e_ : execCntCtrlEnable w s = .next t_) :
    s₀.Rel b_ t_ := by
  unfold execCntCtrlEnable at e_
  injection e_ with e_
  subst e_
  repeat'
    first
    | with_reducible assumption
    | with_reducible apply State.cntCtrlWrite_rel
    | with_reducible apply State.setup_rel
    | dsimp only

theorem State.snapshot_rel {b_ : Bool} {s₀ : State} (s : State) (T : Nat) (h_s : s₀.Rel b_ s) :
    s₀.Rel b_ (State.snapshot s T) := by
  unfold State.snapshot
  repeat'
    first
    | with_reducible assumption
    | with_reducible apply State.modQueue_rel
    | simp only [State.rel_mk]
    | with_reducible apply State.rel_foldl
    | intro _

theorem State.skipDump_rel {b_ : Bool} {s₀ : State} (s : State) (a : Nat) (h_s : s₀.Rel b_ s) :
    s₀.Rel b_ (State.skipDump s a) := by
  unfold State.skipDump
  repeat'
    first
    | with_reducible assumption
    | with_reducible apply State.bump_rel
    | with_reducible apply State.occur_rel
    | simp only [State.rel_mk]

theorem State.loseDump_rel {b_ : Bool} {s₀ : State} (s : State) (h_s : s₀.Rel b_ s) :
    s₀.Rel b_ (State.loseDump s) := by
  unfold State.loseDump
  repeat'
    first
    | with_reducible assumption
    | with_reducible apply State.raise_rel
    | with_reducible apply State.skipDump_rel
    | dsimp only

theorem State.dumpDue_rel {b_ : Bool} {s₀ : State} (s : State) (T f : Nat) (h_s : s₀.Rel b_ s) :
    s₀.Rel b_ (State.dumpDue s T f) := by
  unfold State.dumpDue
  repeat'
    first
    | with_reducible assumption
    | with_reducible apply State.loseDump_rel
    | with_reducible apply State.skipDump_rel
    | with_reducible apply State.snapshot_rel
    | split
    | dsimp only

theorem State.writeDump_rel {b_ : Bool} {s₀ : State} (s : State) (d : Dump) (h_s : s₀.Rel b_ s) :
    s₀.Rel b_ (State.writeDump s d) := by
  unfold State.writeDump
  repeat'
    first
    | with_reducible assumption
    | with_reducible apply State.bump_rel
    | with_reducible apply State.chipWrite_rel
    | with_reducible apply State.occur_rel
    | with_reducible apply State.setFld_rel
    | simp only [State.rel_mk]
    | with_reducible apply State.rel_foldl
    | intro _
    | split

theorem State.dumpWrite_rel {b_ : Bool} {s₀ : State} (s : State) (own : Bool) (h_s : s₀.Rel b_ s) :
    s₀.Rel b_ (State.dumpWrite s own) := by
  unfold State.dumpWrite
  repeat'
    first
    | with_reducible assumption
    | with_reducible apply State.loseDump_rel
    | with_reducible apply State.modQueue_rel
    | with_reducible apply State.writeDump_rel
    | simp only [State.rel_mk]
    | with_reducible apply State.rel_foldl
    | intro _
    | split

theorem execDumpWrite_rel {b_ : Bool} {s₀ : State} (own : Bool) (s : State) {t_ : State} (h_s : s₀.Rel b_ s) (e_ : execDumpWrite own s = .next t_) :
    s₀.Rel b_ t_ := by
  unfold execDumpWrite at e_
  injection e_ with e_
  subst e_
  repeat'
    first
    | with_reducible assumption
    | with_reducible apply State.dumpWrite_rel
    | dsimp only

theorem State.forceSources_rel {b_ : Bool} {s₀ : State} (s : State) (blk : Nat) (is : List Nat) (h_s : s₀.Rel b_ s) :
    s₀.Rel b_ (State.forceSources s blk is) := by
  unfold State.forceSources
  repeat'
    first
    | with_reducible assumption
    | with_reducible apply State.drawn_rel
    | with_reducible apply State.raiseTogether_rel
    | split
    | dsimp only

theorem execFltForce_rel {b_ : Bool} {s₀ : State} (blk : Nat) (w : Word) (s : State) {t_ : State} (h_s : s₀.Rel b_ s) (e_ : execFltForce blk w s = .next t_) :
    s₀.Rel b_ t_ := by
  unfold execFltForce at e_
  injection e_ with e_
  subst e_
  repeat'
    first
    | with_reducible assumption
    | with_reducible apply State.forceSources_rel
    | split
    | dsimp only

theorem execFltStatusClear_rel {b_ : Bool} {s₀ : State} (blk : Nat) (w : Word) (s : State) {t_ : State} (h_s : s₀.Rel b_ s) (e_ : execFltStatusClear blk w s = .next t_) :
    s₀.Rel b_ t_ := by
  unfold execFltStatusClear at e_
  injection e_ with e_
  subst e_
  repeat'
    first
    | with_reducible assumption
    | with_reducible apply State.clearStatus_rel
    | split
    | dsimp only

theorem execFltUnackClear_rel {b_ : Bool} {s₀ : State} (blk : Nat) (w : Word) (s : State) {t_ : State} (h_s : s₀.Rel b_ s) (e_ : execFltUnackClear blk w s = .next t_) :
    s₀.Rel b_ t_ := by
  unfold execFltUnackClear at e_
  injection e_ with e_
  subst e_
  repeat'
    first
    | with_reducible assumption
    | with_reducible apply State.clearUnack_rel
    | split
    | dsimp only

theorem execFltFirstClear_rel {b_ : Bool} {s₀ : State} (blk : Nat) (w : Word) (s : State) {t_ : State} (h_s : s₀.Rel b_ s) (e_ : execFltFirstClear blk w s = .next t_) :
    s₀.Rel b_ t_ := by
  unfold execFltFirstClear at e_
  injection e_ with e_
  subst e_
  repeat'
    first
    | with_reducible assumption
    | with_reducible apply State.clearFirst_rel
    | split
    | dsimp only

theorem execMsiXMessage_rel {b_ : Bool} {s₀ : State} (s : State) {t_ : State} (h_s : s₀.Rel b_ s) (e_ : execMsiXMessage s = .next t_) :
    s₀.Rel b_ t_ := by
  unfold execMsiXMessage at e_
  injection e_ with e_
  subst e_
  repeat'
    first
    | with_reducible assumption
    | with_reducible apply State.sendMsi_rel
    | dsimp only

theorem execErrNPulseEnd_rel {b_ : Bool} {s₀ : State} (s : State) {t_ : State} (h_s : s₀.Rel b_ s) (e_ : execErrNPulseEnd s = .next t_) :
    s₀.Rel b_ t_ := by
  unfold execErrNPulseEnd at e_
  injection e_ with e_
  subst e_
  repeat'
    first
    | with_reducible assumption
    | with_reducible apply State.startPulse_rel
    | simp only [State.rel_mk]
    | split

theorem State.watchdog_rel {b_ : Bool} {s₀ : State} (s : State) (t eng : Nat) (h_s : s₀.Rel b_ s) :
    s₀.Rel b_ (State.watchdog s t eng) := by
  unfold State.watchdog
  repeat'
    first
    | with_reducible assumption
    | with_reducible apply State.raise_rel
    | split
    | dsimp only

theorem execEngineWatchdog_rel {b_ : Bool} {s₀ : State} (t : TileId) (eng : Fin 4) (s : State) {t_ : State} (h_s : s₀.Rel b_ s) (e_ : execEngineWatchdog t eng s = .next t_) :
    s₀.Rel b_ t_ := by
  unfold execEngineWatchdog at e_
  injection e_ with e_
  subst e_
  repeat'
    first
    | with_reducible assumption
    | with_reducible apply State.watchdog_rel
    | dsimp only

theorem State.cutTokens_rel {b_ : Bool} {s₀ : State} (s : State) (i c : Nat) (h_s : s₀.Rel b_ s) :
    s₀.Rel b_ (State.cutTokens s i c) := by
  unfold State.cutTokens
  repeat'
    first
    | with_reducible assumption
    | simp only [State.rel_mk]

theorem State.polCtrlWrite_rel {b_ : Bool} {s₀ : State} (s : State) (i c : Nat) (w : Word) (h_s : s₀.Rel b_ s) :
    s₀.Rel b_ (State.polCtrlWrite s i c w) := by
  unfold State.polCtrlWrite
  repeat'
    first
    | with_reducible assumption
    | with_reducible apply State.setFlag_rel
    | with_reducible apply State.wr_rel
    | simp only [State.rel_mk]
    | split

theorem State.polWrite_rel {b_ : Bool} {s₀ : State} (s : State) (i c n : Nat) (w : Word) (h_s : s₀.Rel b_ s) :
    s₀.Rel b_ (State.polWrite s i c n w) := by
  unfold State.polWrite
  repeat'
    first
    | with_reducible assumption
    | with_reducible apply State.cutTokens_rel
    | with_reducible apply State.setFlag_rel
    | with_reducible apply State.setFld_rel
    | with_reducible apply State.wr_rel
    | split
    | dsimp only

theorem execPolEnable_rel {b_ : Bool} {s₀ : State} (i : InstId) (c : ClassId) (w : Word) (s : State) {t_ : State} (h_s : s₀.Rel b_ s) (e_ : execPolEnable i c w s = .next t_) :
    s₀.Rel b_ t_ := by
  unfold execPolEnable at e_
  injection e_ with e_
  subst e_
  repeat'
    first
    | with_reducible assumption
    | with_reducible apply State.polCtrlWrite_rel
    | with_reducible apply State.setup_rel
    | dsimp only

theorem execPolWrite_rel {b_ : Bool} {s₀ : State} (i : InstId) (c : ClassId) (n : Fin 4) (w : Word) (s : State) {t_ : State} (h_s : s₀.Rel b_ s) (e_ : execPolWrite i c n w s = .next t_) :
    s₀.Rel b_ t_ := by
  unfold execPolWrite at e_
  injection e_ with e_
  subst e_
  repeat'
    first
    | with_reducible assumption
    | with_reducible apply State.polCtrlWrite_rel
    | with_reducible apply State.polWrite_rel
    | with_reducible apply State.setup_rel
    | split
    | dsimp only

theorem State.sourceXltFail_rel {b_ : Bool} {s₀ : State} (s : State) (id st : Nat) (m : TxMsg) (h_s : s₀.Rel b_ s) :
    s₀.Rel b_ (State.sourceXltFail s id st m) := by
  unfold State.sourceXltFail
  repeat'
    first
    | with_reducible assumption
    | with_reducible apply State.dropMsg_rel
    | with_reducible apply State.failServed_rel
    | with_reducible apply State.finishSlot_rel
    | with_reducible apply State.modMsg_rel
    | with_reducible apply State.recordFault_rel
    | with_reducible apply State.sayRma_rel
    | simp only [State.rel_mk, id_eq]
    | split

theorem State.chunkSource_rel {b_ : Bool} {s₀ : State} (s : State) (c : Chunk) (h_s : s₀.Rel b_ s) :
    s₀.Rel b_ (State.chunkSource s c).1 := by
  unfold State.chunkSource
  repeat'
    first
    | with_reducible assumption
    | with_reducible apply State.access_rel
    | with_reducible apply State.sourceXltFail_rel
    | simp only [id_eq]
    | split
    | with_reducible refine State.rel_fst (by assumption) ?_

theorem State.connChunk_rel {b_ : Bool} {s₀ : State} (s : State) (h : Nat) (h_s : s₀.Rel b_ s) :
    s₀.Rel b_ (State.connChunk s h).1 := by
  unfold State.connChunk
  repeat'
    first
    | with_reducible assumption
    | with_reducible apply State.chunkSource_rel
    | with_reducible apply State.needContext_rel
    | with_reducible apply State.openIfWork_rel
    | split
    | dsimp only
    | with_reducible refine State.rel_fst (by assumption) ?_

theorem State.readyChunks_rel {b_ : Bool} {s₀ : State} (s : State) (h_s : s₀.Rel b_ s) :
    s₀.Rel b_ (State.readyChunks s).1 := by
  unfold State.readyChunks
  have key : ∀ (l : List (Nat × Conn)) (a : State × List Chunk), s₀.Rel b_ a.1 →
      s₀.Rel b_ (l.foldl (fun a x => match a.1.connChunk x.1 with
        | (s, some c) => (s, a.2 ++ [c])
        | (s, none) => (s, a.2)) a).1 := by
    intro l
    induction l with
    | nil => exact fun _ h => h
    | cons x t ih =>
      intro a h
      refine ih _ ?_
      dsimp only
      split
      all_goals
        refine State.rel_fst (by assumption) ?_
        exact State.connChunk_rel _ _ h
  exact key _ _ h_s

theorem State.settleDeficits_rel {b_ : Bool} {s₀ : State} (s : State) (l : List Chunk) (x : Chunk) (h_s : s₀.Rel b_ s) :
    s₀.Rel b_ (State.settleDeficits s l x) := by
  unfold State.settleDeficits
  repeat'
    first
    | with_reducible assumption
    | with_reducible apply State.bumpBy_rel
    | simp only [State.rel_mk]
    | split

theorem State.sendMsgCell_rel {b_ : Bool} {s₀ : State} (s : State) (h : Nat) (k : Conn) (m : TxMsg) (g : SendSeg) (idx data : Nat) (h_s : s₀.Rel b_ s) :
    s₀.Rel b_ (State.sendMsgCell s h k m g idx data) := by
  unfold State.sendMsgCell
  repeat'
    first
    | with_reducible assumption
    | with_reducible apply State.inject_rel
    | with_reducible apply State.modConn_rel
    | simp only [State.rel_mk]
    | split

theorem State.sendTag_rel {b_ : Bool} {s₀ : State} (s : State) (h q : Nat) (typ : Nat) (h_s : s₀.Rel b_ s) :
    s₀.Rel b_ (State.sendTag s h q typ) := by
  unfold State.sendTag
  repeat'
    first
    | with_reducible assumption
    | with_reducible apply State.modConn_rel
    | with_reducible apply State.sayRma_rel
    | simp only [State.rel_mk]
    | split

theorem State.sendCells_rel {b_ : Bool} {s₀ : State} (s : State) (h : Nat) (m : TxMsg) (q first count data : Nat) (h_s : s₀.Rel b_ s) :
    s₀.Rel b_ (State.sendCells s h m q first count data) := by
  unfold State.sendCells
  repeat'
    first
    | with_reducible assumption
    | with_reducible apply State.sendMsgCell_rel
    | with_reducible apply State.rel_foldl
    | intro _
    | split
    | dsimp only

theorem State.sendRun_rel {b_ : Bool} {s₀ : State} (s : State) (c : Chunk) (m : TxMsg) (q data : Nat) (h_s : s₀.Rel b_ s) :
    s₀.Rel b_ (State.sendRun s c m q data) := by
  unfold State.sendRun
  repeat'
    first
    | with_reducible assumption
    | with_reducible apply State.bumpBy_rel
    | with_reducible apply State.countInst_rel
    | with_reducible apply State.modConn_rel
    | with_reducible apply State.occur_rel
    | with_reducible apply State.sendCells_rel
    | with_reducible apply State.sendTag_rel
    | simp only [State.rel_mk]
    | split

theorem State.sendChunk_rel {b_ : Bool} {s₀ : State} (s : State) (c : Chunk) (data : HostRead) (h_s : s₀.Rel b_ s) :
    s₀.Rel b_ (State.sendChunk s c data) := by
  unfold State.sendChunk
  repeat'
    first
    | with_reducible assumption
    | with_reducible apply State.assignSeq_rel
    | with_reducible apply State.needContext_rel
    | with_reducible apply State.sendRun_rel
    | with_reducible apply State.sourceReadFail_rel
    | simp only [id_eq]
    | split

theorem State.sendCtl_rel {b_ : Bool} {s₀ : State} (s : State) (c : CtlCell) (h_s : s₀.Rel b_ s) :
    s₀.Rel b_ (State.sendCtl s c) := by
  unfold State.sendCtl
  repeat'
    first
    | with_reducible assumption
    | with_reducible apply State.inject_rel
    | simp only [State.rel_mk]

theorem State.countChunk_rel {b_ : Bool} {s₀ : State} (s : State) (c : Chunk) (h_s : s₀.Rel b_ s) :
    s₀.Rel b_ (State.countChunk s c) := by
  unfold State.countChunk
  repeat'
    first
    | with_reducible assumption
    | with_reducible apply State.bump_rel
    | with_reducible apply State.occur_rel
    | dsimp only

theorem State.grant_rel {b_ : Bool} {s₀ : State} (s : State) (data : HostRead) (h_s : s₀.Rel b_ s) :
    s₀.Rel b_ (State.grant s data) := by
  unfold State.grant
  repeat'
    first
    | with_reducible assumption
    | with_reducible apply State.bump_rel
    | with_reducible apply State.bumpBy_rel
    | with_reducible apply State.countChunk_rel
    | with_reducible apply State.readyChunks_rel
    | with_reducible apply State.sendChunk_rel
    | with_reducible apply State.sendCtl_rel
    | with_reducible apply State.settleDeficits_rel
    | simp only [State.rel_mk]
    | split
    | with_reducible refine State.rel_fst (by assumption) ?_

theorem execChunkGrant_rel {b_ : Bool} {s₀ : State} (data : HostRead) (v : View) (s : State) {t_ : State} (h_s : s₀.Rel b_ s) (e_ : execChunkGrant data v s = .next t_) :
    s₀.Rel b_ t_ := by
  unfold execChunkGrant at e_
  injection e_ with e_
  subst e_
  repeat'
    first
    | with_reducible assumption
    | with_reducible apply State.grant_rel
    | with_reducible apply State.see_rel
    | dsimp only

theorem State.sampleQueues_rel {b_ : Bool} {s₀ : State} (s : State) (h_s : s₀.Rel b_ s) :
    s₀.Rel b_ (State.sampleQueues s) := by
  unfold State.sampleQueues
  repeat'
    first
    | with_reducible assumption
    | with_reducible apply State.modQueue_rel
    | simp only [State.rel_mk]
    | with_reducible apply State.rel_foldl
    | intro _
    | split

theorem execQueueSample_rel {b_ : Bool} {s₀ : State} (s : State) {t_ : State} (h_s : s₀.Rel b_ s) (e_ : execQueueSample s = .next t_) :
    s₀.Rel b_ t_ := by
  unfold execQueueSample at e_
  injection e_ with e_
  subst e_
  repeat'
    first
    | with_reducible assumption
    | with_reducible apply State.sampleQueues_rel
    | dsimp only

end Sys2Proof.Machine
end

