-- ==== Sys2Proof/Laws/KeepsChip.lean ====
section
/-! SUPPORT. What the model's functions keep of a state (`State.Rel`), one lemma each: lanes, memory, time, power, start-up, transits, routes, set-up space, sideband, replay and work. -/

set_option linter.unusedSimpArgs false

namespace Sys2Proof.Machine

open Host (Outcome)

theorem State.sendCell_rel {b_ : Bool} {s₀ : State} (s : State) (p : Nat) (h : HeldCell) (h_s : s₀.Rel b_ s) :
    s₀.Rel b_ (State.sendCell s p h).1 := by
  unfold State.sendCell
  repeat'
    first
    | with_reducible assumption
    | with_reducible apply State.bump_rel
    | with_reducible apply State.modLink_rel
    | with_reducible apply State.release_rel
    | simp only [State.rel_mk]
    | split

theorem State.fillCells_rel {s₀ : State} (s : State) (p : Nat) (x0 : Nat) (x1 : List Cell) (h_s : s₀.Rel false s) :
    s₀.Rel false (State.fillCells s p x0 x1).1 := by
  induction x0 generalizing s p x1 with
  | zero =>
    unfold State.fillCells
    repeat'
      first
      | with_reducible assumption
      | with_reducible apply State.bump_rel
      | with_reducible apply State.modLink_rel
      | with_reducible apply State.replay_rel
      | with_reducible apply State.sendCell_rel
      | simp only [State.rel_mk]
      | split
      | with_reducible refine State.rel_fst (by assumption) ?_
  | succ n_ ih_ =>
    unfold State.fillCells
    repeat'
      first
      | with_reducible assumption
      | with_reducible apply State.bump_rel
      | with_reducible apply State.modLink_rel
      | with_reducible apply State.replay_rel
      | with_reducible apply State.sendCell_rel
      | simp only [State.rel_mk]
      | split
      | with_reducible refine State.rel_fst (by assumption) ?_
      | with_reducible apply ih_

theorem State.raiseMark_rel {b_ : Bool} {s₀ : State} (s : State) (p : Nat) (h_s : s₀.Rel b_ s) :
    s₀.Rel b_ (State.raiseMark s p) := by
  unfold State.raiseMark
  repeat'
    first
    | with_reducible assumption
    | with_reducible apply State.say_rel
    | simp only [State.rel_mk]
    | split

theorem State.takeTransit_rel {b_ : Bool} {s₀ : State} (s : State) (p : Nat) (h_s : s₀.Rel b_ s) :
    s₀.Rel b_ (State.takeTransit s p).1 := by
  unfold State.takeTransit
  repeat'
    first
    | with_reducible assumption
    | with_reducible apply State.take_rel
    | simp only [State.rel_mk]

theorem State.wordSent_rel {b_ : Bool} {s₀ : State} (s : State) (l p : Nat) (w : LinkWord) (h_s : s₀.Rel b_ s) :
    s₀.Rel b_ (State.wordSent s l p w) := by
  unfold State.wordSent
  repeat'
    first
    | with_reducible assumption
    | with_reducible apply State.modLane_rel
    | with_reducible apply State.modLink_rel
    | simp only [State.rel_mk]
    | with_reducible apply State.rel_foldl
    | intro _
    | split

theorem State.stuff_rel {b_ : Bool} {s₀ : State} (s : State) (l stuffed : Nat) (h_s : s₀.Rel b_ s) :
    s₀.Rel b_ (State.stuff s l stuffed) := by
  unfold State.stuff
  repeat'
    first
    | with_reducible assumption
    | with_reducible apply State.bump_rel
    | with_reducible apply State.bumpBy_rel
    | with_reducible apply State.modLane_rel
    | with_reducible apply State.raise_rel
    | with_reducible apply State.setFld_rel
    | simp only [State.rel_mk]
    | split

theorem State.sendField_rel {b_ : Bool} {s₀ : State} (s : State) (l p : Nat) (w : Option LinkWord) (h_s : s₀.Rel b_ s) :
    s₀.Rel b_ (State.sendField s l p w) := by
  unfold State.sendField
  repeat'
    first
    | with_reducible assumption
    | with_reducible apply State.modLane_rel
    | with_reducible apply State.wordSent_rel
    | simp only [State.rel_mk]
    | split

theorem State.codewordField_rel {b_ : Bool} {s₀ : State} (s : State) (l p : Nat) (h_s : s₀.Rel b_ s) :
    s₀.Rel b_ (State.codewordField s l p).1 := by
  unfold State.codewordField
  repeat'
    first
    | with_reducible assumption
    | with_reducible apply State.modLink_rel
    | with_reducible apply State.raiseMark_rel
    | with_reducible apply State.sendField_rel
    | simp only [State.rel_mk]
    | split

theorem State.codewordCells_rel {s₀ : State} (s : State) (l p : Nat) (carries : Bool) (h_s : s₀.Rel false s) :
    s₀.Rel false (State.codewordCells s l p carries).1 := by
  unfold State.codewordCells
  repeat'
    first
    | with_reducible assumption
    | with_reducible apply State.fillCells_rel
    | with_reducible apply State.modLane_rel
    | with_reducible apply State.occur_rel
    | with_reducible apply State.occurLane_rel
    | with_reducible apply State.takeTransit_rel
    | simp only [State.rel_mk]
    | split
    | with_reducible refine State.rel_fst (by assumption) ?_

theorem State.codewordSend_rel {s₀ : State} (s : State) (l stuffed : Nat) (h_s : s₀.Rel false s) :
    s₀.Rel false (State.codewordSend s l stuffed) := by
  unfold State.codewordSend
  repeat'
    first
    | with_reducible assumption
    | with_reducible apply State.applyPhase_rel
    | with_reducible apply State.codewordCells_rel
    | with_reducible apply State.codewordField_rel
    | with_reducible apply State.drain_rel
    | with_reducible apply State.stuff_rel
    | simp only [State.rel_mk]
    | split
    | with_reducible refine State.rel_fst (by assumption) ?_

theorem execCodewordSend_rel {s₀ : State} (l : LaneId) (stuffed : Nat) (s : State) {t_ : State} (h_s : s₀.Rel false s) (e_ : execCodewordSend l stuffed s = .next t_) :
    s₀.Rel false t_ := by
  unfold execCodewordSend at e_
  injection e_ with e_
  subst e_
  repeat'
    first
    | with_reducible assumption
    | with_reducible apply State.codewordSend_rel
    | dsimp only

theorem State.takeCell_rel {b_ : Bool} {s₀ : State} (s : State) (p : Nat) (c : Cell) (h_s : s₀.Rel b_ s) :
    s₀.Rel b_ (State.takeCell s p c) := by
  unfold State.takeCell
  repeat'
    first
    | with_reducible assumption
    | with_reducible apply State.modLink_rel
    | simp only [State.rel_mk]
    | split

theorem State.takeCells_rel {b_ : Bool} {s₀ : State} (s : State) (l p : Nat) (cs : List Cell) (h_s : s₀.Rel b_ s) :
    s₀.Rel b_ (State.takeCells s l p cs) := by
  unfold State.takeCells
  repeat'
    first
    | with_reducible assumption
    | with_reducible apply State.modLane_rel
    | with_reducible apply State.sayAck_rel
    | with_reducible apply State.takeCell_rel
    | simp only [State.rel_mk]
    | with_reducible apply State.rel_foldl
    | intro _
    | split

theorem State.takeWord_rel {b_ : Bool} {s₀ : State} (s : State) (l p : Nat) (w : LinkWord) (h_s : s₀.Rel b_ s) :
    s₀.Rel b_ (State.takeWord s l p w) := by
  unfold State.takeWord
  repeat'
    first
    | with_reducible assumption
    | with_reducible apply State.bump_rel
    | with_reducible apply State.modLink_rel
    | simp only [State.rel_mk]
    | split

theorem State.uncorrectable_rel {b_ : Bool} {s₀ : State} (s : State) (l p : Nat) (h_s : s₀.Rel b_ s) :
    s₀.Rel b_ (State.uncorrectable s l p) := by
  unfold State.uncorrectable
  repeat'
    first
    | with_reducible assumption
    | with_reducible apply State.bump_rel
    | with_reducible apply State.linkLost_rel
    | with_reducible apply State.modLink_rel
    | with_reducible apply State.occurLane_rel
    | with_reducible apply State.say_rel
    | simp only [State.rel_mk]
    | split

theorem State.codeword_rel {b_ : Bool} {s₀ : State} (s : State) (l : Nat) (good : Bool) (cells : List Cell) (w : LinkWord) (corrected slip : Bool) (unstuffed : Nat) (punctured : Bool) (h_s : s₀.Rel b_ s) :
    s₀.Rel b_ (State.codeword s l good cells w corrected slip unstuffed punctured) := by
  unfold State.codeword
  repeat'
    first
    | with_reducible assumption
    | with_reducible apply State.bump_rel
    | with_reducible apply State.modLane_rel
    | with_reducible apply State.occur_rel
    | with_reducible apply State.occurLane_rel
    | with_reducible apply State.takeCells_rel
    | with_reducible apply State.takeWord_rel
    | with_reducible apply State.uncorrectable_rel
    | simp only [State.rel_mk]
    | split

theorem execCodeword_rel {b_ : Bool} {s₀ : State} (l : LaneId) (good : Bool) (cells : List Cell) (w : LinkWord) (corrected slip : Bool) (unstuffed : Nat) (punctured : Bool) (s : State) {t_ : State} (h_s : s₀.Rel b_ s) (e_ : execCodeword l good cells w corrected slip unstuffed punctured s = .next t_) :
    s₀.Rel b_ t_ := by
  unfold execCodeword at e_
  injection e_ with e_
  subst e_
  repeat'
    first
    | with_reducible assumption
    | with_reducible apply State.codeword_rel
    | dsimp only

theorem execNakRepeat_rel {b_ : Bool} {s₀ : State} (l : LaneId) (s : State) {t_ : State} (h_s : s₀.Rel b_ s) (e_ : execNakRepeat l s = .next t_) :
    s₀.Rel b_ t_ := by
  unfold execNakRepeat at e_
  injection e_ with e_
  subst e_
  repeat'
    first
    | with_reducible assumption
    | with_reducible apply State.say_rel
    | split
    | dsimp only

theorem execNoReplayTimeout_rel {b_ : Bool} {s₀ : State} (l : LaneId) (s : State) {t_ : State} (h_s : s₀.Rel b_ s) (e_ : execNoReplayTimeout l s = .next t_) :
    s₀.Rel b_ t_ := by
  unfold execNoReplayTimeout at e_
  injection e_ with e_
  subst e_
  repeat'
    first
    | with_reducible assumption
    | with_reducible apply State.linkLost_rel
    | split
    | dsimp only

theorem State.takeNak_rel {b_ : Bool} {s₀ : State} (s : State) (p n : Nat) (h_s : s₀.Rel b_ s) :
    s₀.Rel b_ (State.takeNak s p n) := by
  unfold State.takeNak
  repeat'
    first
    | with_reducible assumption
    | with_reducible apply State.bump_rel
    | with_reducible apply State.linkLost_rel
    | with_reducible apply State.modLink_rel
    | with_reducible apply State.occurLane_rel
    | with_reducible apply State.say_rel
    | simp only [State.rel_mk]
    | split

theorem execNak_rel {b_ : Bool} {s₀ : State} (l : LaneId) (next : BitVec 12) (s : State) {t_ : State} (h_s : s₀.Rel b_ s) (e_ : execNak l next s = .next t_) :
    s₀.Rel b_ t_ := by
  unfold execNak at e_
  injection e_ with e_
  subst e_
  repeat'
    first
    | with_reducible assumption
    | with_reducible apply State.heard_rel
    | with_reducible apply State.takeNak_rel
    | split
    | dsimp only

theorem execReplay_rel {b_ : Bool} {s₀ : State} (l : LaneId) (lseq : BitVec 12) (s : State) {t_ : State} (h_s : s₀.Rel b_ s) (e_ : execReplay l lseq s = .next t_) :
    s₀.Rel b_ t_ := by
  unfold execReplay at e_
  injection e_ with e_
  subst e_
  repeat'
    first
    | with_reducible assumption
    | with_reducible apply State.heard_rel
    | with_reducible apply State.modLink_rel
    | simp only [State.rel_mk]
    | split

theorem execLinkAck_rel {s₀ : State} (l : LaneId) (next : BitVec 12) (s : State) {t_ : State} (h_s : s₀.Rel false s) (e_ : execLinkAck l next s = .next t_) :
    s₀.Rel false t_ := by
  unfold execLinkAck at e_
  injection e_ with e_
  subst e_
  repeat'
    first
    | with_reducible assumption
    | with_reducible apply State.applyPhase_rel
    | with_reducible apply State.exitCheck_rel
    | with_reducible apply State.heard_rel
    | with_reducible apply State.modLink_rel
    | with_reducible apply State.replay_rel
    | simp only [State.rel_mk]
    | split

theorem execCredit_rel {b_ : Bool} {s₀ : State} (l : LaneId) (data : BitVec 16) (s : State) {t_ : State} (h_s : s₀.Rel b_ s) (e_ : execCredit l data s = .next t_) :
    s₀.Rel b_ t_ := by
  unfold execCredit at e_
  injection e_ with e_
  subst e_
  repeat'
    first
    | with_reducible assumption
    | with_reducible apply State.exitCheck_rel
    | with_reducible apply State.heard_rel
    | with_reducible apply State.modLink_rel
    | simp only [State.rel_mk]
    | split

theorem State.phaseReqWrite_rel {b_ : Bool} {s₀ : State} (s : State) (l n : Nat) (h_s : s₀.Rel b_ s) :
    s₀.Rel b_ (State.phaseReqWrite s l n) := by
  unfold State.phaseReqWrite
  repeat'
    first
    | with_reducible assumption
    | with_reducible apply State.requestPhase_rel
    | with_reducible apply State.setFld_rel
    | split
    | dsimp only

theorem execPhaseReq_rel {b_ : Bool} {s₀ : State} (l : LaneId) (target : Fin 3) (power : Bool) (s : State) {t_ : State} (h_s : s₀.Rel b_ s) (e_ : execPhaseReq l target power s = .next t_) :
    s₀.Rel b_ t_ := by
  unfold execPhaseReq at e_
  injection e_ with e_
  subst e_
  repeat'
    first
    | with_reducible assumption
    | with_reducible apply State.phaseReqWrite_rel
    | with_reducible apply State.requestPhase_rel
    | with_reducible apply State.setup_rel
    | split
    | dsimp only

theorem execPhase_rel {b_ : Bool} {s₀ : State} (l : LaneId) (data : BitVec 16) (s : State) {t_ : State} (h_s : s₀.Rel b_ s) (e_ : execPhase l data s = .next t_) :
    s₀.Rel b_ t_ := by
  unfold execPhase at e_
  injection e_ with e_
  subst e_
  repeat'
    first
    | with_reducible assumption
    | with_reducible apply State.heard_rel
    | with_reducible apply State.takePhase_rel
    | split
    | dsimp only

theorem execWake_rel {b_ : Bool} {s₀ : State} (l : LaneId) (data : BitVec 16) (s : State) {t_ : State} (h_s : s₀.Rel b_ s) (e_ : execWake l data s = .next t_) :
    s₀.Rel b_ t_ := by
  unfold execWake at e_
  injection e_ with e_
  subst e_
  repeat'
    first
    | with_reducible assumption
    | with_reducible apply State.heard_rel
    | with_reducible apply State.startExitOf_rel
    | split
    | dsimp only

theorem execWakePattern_rel {b_ : Bool} {s₀ : State} (l : LaneId) (s : State) {t_ : State} (h_s : s₀.Rel b_ s) (e_ : execWakePattern l s = .next t_) :
    s₀.Rel b_ t_ := by
  unfold execWakePattern at e_
  injection e_ with e_
  subst e_
  repeat'
    first
    | with_reducible assumption
    | with_reducible apply State.startExitOf_rel
    | split
    | dsimp only

theorem execLaneExitTimeout_rel {b_ : Bool} {s₀ : State} (l : LaneId) (s : State) {t_ : State} (h_s : s₀.Rel b_ s) (e_ : execLaneExitTimeout l s = .next t_) :
    s₀.Rel b_ t_ := by
  unfold execLaneExitTimeout at e_
  injection e_ with e_
  subst e_
  repeat'
    first
    | with_reducible assumption
    | with_reducible apply State.askTraining_rel
    | with_reducible apply State.leaveLink_rel
    | split
    | dsimp only

theorem execRetrain_rel {b_ : Bool} {s₀ : State} (l : LaneId) (w : Word) (s : State) {t_ : State} (h_s : s₀.Rel b_ s) (e_ : execRetrain l w s = .next t_) :
    s₀.Rel b_ t_ := by
  unfold execRetrain at e_
  injection e_ with e_
  subst e_
  repeat'
    first
    | with_reducible assumption
    | with_reducible apply State.laneCtrlWrite_rel
    | with_reducible apply State.setup_rel
    | dsimp only

theorem execTrain_rel {b_ : Bool} {s₀ : State} (l : LaneId) (data : BitVec 16) (eq : Fin 32) (eqValid : Bool) (s : State) {t_ : State} (h_s : s₀.Rel b_ s) (e_ : execTrain l data eq eqValid s = .next t_) :
    s₀.Rel b_ t_ := by
  unfold execTrain at e_
  injection e_ with e_
  subst e_
  repeat'
    first
    | with_reducible assumption
    | with_reducible apply State.heard_rel
    | with_reducible apply State.takeTrain_rel
    | dsimp only

theorem execTrainingTimeout_rel {b_ : Bool} {s₀ : State} (l : LaneId) (s : State) {t_ : State} (h_s : s₀.Rel b_ s) (e_ : execTrainingTimeout l s = .next t_) :
    s₀.Rel b_ t_ := by
  unfold execTrainingTimeout at e_
  injection e_ with e_
  subst e_
  repeat'
    first
    | with_reducible assumption
    | with_reducible apply State.trainFail_rel
    | split
    | dsimp only

theorem execTrainingRetry_rel {b_ : Bool} {s₀ : State} (l : LaneId) (s : State) {t_ : State} (h_s : s₀.Rel b_ s) (e_ : execTrainingRetry l s = .next t_) :
    s₀.Rel b_ t_ := by
  unfold execTrainingRetry at e_
  injection e_ with e_
  subst e_
  repeat'
    first
    | with_reducible assumption
    | with_reducible apply State.startTraining_rel
    | split
    | dsimp only

theorem execLinkLost_rel {b_ : Bool} {s₀ : State} (l : LaneId) (s : State) {t_ : State} (h_s : s₀.Rel b_ s) (e_ : execLinkLost l s = .next t_) :
    s₀.Rel b_ t_ := by
  unfold execLinkLost at e_
  injection e_ with e_
  subst e_
  repeat'
    first
    | with_reducible assumption
    | with_reducible apply State.linkLost_rel
    | dsimp only

theorem execLinkDown_rel {b_ : Bool} {s₀ : State} (l : LaneId) (s : State) {t_ : State} (h_s : s₀.Rel b_ s) (e_ : execLinkDown l s = .next t_) :
    s₀.Rel b_ t_ := by
  unfold execLinkDown at e_
  injection e_ with e_
  subst e_
  repeat'
    first
    | with_reducible assumption
    | with_reducible apply State.heard_rel
    | with_reducible apply State.linkLost_rel
    | dsimp only

theorem execLaneEnable_rel {b_ : Bool} {s₀ : State} (l : LaneId) (w : Word) (s : State) {t_ : State} (h_s : s₀.Rel b_ s) (e_ : execLaneEnable l w s = .next t_) :
    s₀.Rel b_ t_ := by
  unfold execLaneEnable at e_
  injection e_ with e_
  subst e_
  repeat'
    first
    | with_reducible assumption
    | with_reducible apply State.laneCtrlWrite_rel
    | with_reducible apply State.setup_rel
    | dsimp only

theorem State.resetSending_rel {b_ : Bool} {s₀ : State} (s : State) (h : Nat) (h_s : s₀.Rel b_ s) :
    s₀.Rel b_ (State.resetSending s h) := by
  unfold State.resetSending
  repeat'
    first
    | with_reducible assumption
    | with_reducible apply State.modConn_rel
    | simp only [State.rel_mk]
    | with_reducible apply State.rel_foldl
    | intro _
    | split

theorem State.repostRecvs_rel {b_ : Bool} {s₀ : State} (s : State) (zs : List Nat) (h_s : s₀.Rel b_ s) :
    s₀.Rel b_ (State.repostRecvs s zs) := by
  unfold State.repostRecvs
  repeat'
    first
    | with_reducible assumption
    | with_reducible apply State.fileRecv_rel
    | with_reducible apply State.rel_foldl
    | intro _
    | split
    | dsimp only

theorem State.dropUncovered_rel {b_ : Bool} {s₀ : State} (s : State) (h : Nat) (h_s : s₀.Rel b_ s) :
    s₀.Rel b_ (State.dropUncovered s h) := by
  unfold State.dropUncovered
  repeat'
    first
    | with_reducible assumption
    | with_reducible apply State.covered_rel
    | with_reducible apply State.freeEntry_rel
    | with_reducible apply State.rel_foldl
    | intro _
    | dsimp only

theorem State.dropStaged_rel {b_ : Bool} {s₀ : State} (s : State) (h : Nat) (k : Conn) (h_s : s₀.Rel b_ s) :
    s₀.Rel b_ (State.dropStaged s h k) := by
  unfold State.dropStaged
  repeat'
    first
    | with_reducible assumption
    | with_reducible apply State.modGroup_rel
    | simp only [State.rel_mk]
    | with_reducible apply State.rel_foldl
    | intro _
    | split

theorem State.dropUnrecorded_rel {b_ : Bool} {s₀ : State} (s : State) (h : Nat) (h_s : s₀.Rel b_ s) :
    s₀.Rel b_ (State.dropUnrecorded s h) := by
  unfold State.dropUnrecorded
  repeat'
    first
    | with_reducible assumption
    | with_reducible apply State.dropMsg_rel
    | with_reducible apply State.modEntry_rel
    | with_reducible apply State.queuePull_rel
    | simp only [State.rel_mk]
    | with_reducible apply State.rel_foldl
    | intro _
    | split

theorem State.rebuildConn_rel {b_ : Bool} {s₀ : State} (s : State) (h : Nat) (h_s : s₀.Rel b_ s) :
    s₀.Rel b_ (State.rebuildConn s h) := by
  unfold State.rebuildConn
  repeat'
    first
    | with_reducible assumption
    | with_reducible apply State.dropStaged_rel
    | with_reducible apply State.dropUncovered_rel
    | with_reducible apply State.dropUnrecorded_rel
    | with_reducible apply State.modConn_rel
    | with_reducible apply State.needContext_rel
    | with_reducible apply State.openIfWork_rel
    | with_reducible apply State.repostRecvs_rel
    | with_reducible apply State.resetSending_rel
    | split
    | dsimp only

theorem State.memCtrlWrite_rel {b_ : Bool} {s₀ : State} (s : State) (w : Word) (h_s : s₀.Rel b_ s) :
    s₀.Rel b_ (State.memCtrlWrite s w) := by
  unfold State.memCtrlWrite
  repeat'
    first
    | with_reducible assumption
    | with_reducible apply State.setFld_rel
    | split
    | dsimp only

theorem execMemEnable_rel {b_ : Bool} {s₀ : State} (w : Word) (s : State) {t_ : State} (h_s : s₀.Rel b_ s) (e_ : execMemEnable w s = .next t_) :
    s₀.Rel b_ t_ := by
  unfold execMemEnable at e_
  injection e_ with e_
  subst e_
  repeat'
    first
    | with_reducible assumption
    | with_reducible apply State.memCtrlWrite_rel
    | with_reducible apply State.setup_rel
    | dsimp only

theorem State.memHostBaseWrite_rel {b_ : Bool} {s₀ : State} (s : State) (v : Word64) (h_s : s₀.Rel b_ s) :
    s₀.Rel b_ (State.memHostBaseWrite s v) := by
  unfold State.memHostBaseWrite
  repeat'
    first
    | with_reducible assumption
    | with_reducible apply State.wr64_rel
    | split
    | dsimp only

theorem execMemHostBaseWrite_rel {b_ : Bool} {s₀ : State} (v : Word64) (s : State) {t_ : State} (h_s : s₀.Rel b_ s) (e_ : execMemHostBaseWrite v s = .next t_) :
    s₀.Rel b_ t_ := by
  unfold execMemHostBaseWrite at e_
  injection e_ with e_
  subst e_
  repeat'
    first
    | with_reducible assumption
    | with_reducible apply State.memHostBaseWrite_rel
    | with_reducible apply State.setup_rel
    | dsimp only

theorem State.loseLine_rel {s₀ : State} (s : State) (p n : Nat) (h_s : s₀.Rel false s) :
    s₀.Rel false (State.loseLine s p n) := by
  unfold State.loseLine
  simp only [State.rel_mk_ram]
  refine State.rel_foldl (fun s j h => ?_) h_s
  exact ⟨⟨h.keeps.fuses, h.keeps.pending, h.keeps.regsOk, fun w => Memory.wf_ramWrite (h.keeps.memOk w) _ _ _⟩, by simp⟩

theorem State.rebuildKey_rel {b_ : Bool} {s₀ : State} (s : State) (h : Nat) (h_s : s₀.Rel b_ s) :
    s₀.Rel b_ (State.rebuildKey s h) := by
  unfold State.rebuildKey
  repeat'
    first
    | with_reducible assumption
    | with_reducible apply State.modConn_rel
    | simp only [State.rel_mk]
    | split

theorem State.spoilStaging_rel {b_ : Bool} {s₀ : State} (s : State) (g n : Nat) (lost : Bool) (h_s : s₀.Rel b_ s) :
    s₀.Rel b_ (State.spoilStaging s g n lost) := by
  unfold State.spoilStaging
  repeat'
    first
    | with_reducible assumption
    | with_reducible apply State.modGroup_rel
    | simp only [State.rel_mk]
    | split

theorem State.restoreAreas_rel {s₀ : State} (s : State) (l : MemLoss) (h_s : s₀.Rel false s) :
    s₀.Rel false (State.restoreAreas s l) := by
  unfold State.restoreAreas
  repeat'
    first
    | with_reducible assumption
    | with_reducible apply State.forgetRec_rel
    | with_reducible apply State.loseLine_rel
    | with_reducible apply State.modEntry_rel
    | with_reducible apply State.rebuildConn_rel
    | with_reducible apply State.rebuildKey_rel
    | with_reducible apply State.spoilStaging_rel
    | simp only [State.rel_mk]
    | with_reducible apply State.rel_foldl
    | intro _
    | split

theorem State.markFailed_rel {b_ : Bool} {s₀ : State} (s : State) (d : Nat) (h_s : s₀.Rel b_ s) :
    s₀.Rel b_ (State.markFailed s d) := by
  unfold State.markFailed
  repeat'
    first
    | with_reducible assumption
    | with_reducible apply State.setFld_rel
    | with_reducible apply State.stand_rel
    | dsimp only

theorem State.deviceFailed_rel {s₀ : State} (s : State) (d : Nat) (unack : Bool) (l : MemLoss) (h_s : s₀.Rel false s) :
    s₀.Rel false (State.deviceFailed s d unack l) := by
  unfold State.deviceFailed
  repeat'
    first
    | with_reducible assumption
    | with_reducible apply State.markFailed_rel
    | with_reducible apply State.raise_rel
    | with_reducible apply State.raiseWith_rel
    | with_reducible apply State.restoreAreas_rel
    | split
    | dsimp only

theorem State.devicesFailed_rel {s₀ : State} (s : State) (ds : List Nat) (l : MemLoss) (h_s : s₀.Rel false s) :
    s₀.Rel false (State.devicesFailed s ds l) := by
  unfold State.devicesFailed
  repeat'
    first
    | with_reducible assumption
    | with_reducible apply State.deviceFailed_rel
    | with_reducible apply State.markFailed_rel
    | with_reducible apply State.raiseTogether_rel
    | with_reducible apply State.restoreAreas_rel
    | with_reducible apply State.rel_foldl
    | intro _
    | split
    | dsimp only

theorem execMemTrained_rel {s₀ : State} (fails : List (Fin 12)) (loss : MemLoss) (s : State) {t_ : State} (h_s : s₀.Rel false s) (e_ : execMemTrained fails loss s = .next t_) :
    s₀.Rel false t_ := by
  unfold execMemTrained at e_
  injection e_ with e_
  subst e_
  repeat'
    first
    | with_reducible assumption
    | with_reducible apply State.devicesFailed_rel
    | with_reducible apply State.setFld_rel
    | split
    | dsimp only

theorem State.endWork_rel {s₀ : State} (s : State) (w : MemWork) (h_s : s₀.Rel false s) :
    s₀.Rel false (State.endWork s w) := by
  unfold State.endWork
  repeat'
    first
    | with_reducible assumption
    | with_reducible apply State.breakConn_rel
    | with_reducible apply State.bump_rel
    | with_reducible apply State.failMsg_rel
    | with_reducible apply State.faultCheck_rel
    | with_reducible apply State.finishSlot_rel
    | with_reducible apply State.modEntry_rel
    | with_reducible apply State.moveFront_rel
    | with_reducible apply State.settleAll_rel
    | with_reducible apply State.sourceLost_rel
    | with_reducible apply State.spoilStaging_rel
    | simp only [State.rel_mk, id_eq]
    | split

theorem execUncorrectableRead_rel {s₀ : State} (dev : Fin 12) (chan : Fin 4) (work : MemWork) (loss : MemLoss) (v : View) (s : State) {t_ : State} (h_s : s₀.Rel false s) (e_ : execUncorrectableRead dev chan work loss v s = .next t_) :
    s₀.Rel false t_ := by
  unfold execUncorrectableRead at e_
  injection e_ with e_
  subst e_
  repeat'
    first
    | with_reducible assumption
    | with_reducible apply State.bump_rel
    | with_reducible apply State.deviceFailed_rel
    | with_reducible apply State.endWork_rel
    | with_reducible apply State.raise_rel
    | with_reducible apply State.see_rel
    | simp only [State.rel_mk, State.rel_mk_ram]
    | split

theorem execRebuildDone_rel {b_ : Bool} {s₀ : State} (s : State) {t_ : State} (h_s : s₀.Rel b_ s) (e_ : execRebuildDone s = .next t_) :
    s₀.Rel b_ t_ := by
  unfold execRebuildDone at e_
  injection e_ with e_
  subst e_
  repeat'
    first
    | with_reducible assumption
    | with_reducible apply State.setFld_rel
    | split
    | dsimp only

theorem execPatrolScrub_rel {b_ : Bool} {s₀ : State} (corrected : List (Fin 12 × Fin 4)) (s : State) {t_ : State} (h_s : s₀.Rel b_ s) (e_ : execPatrolScrub corrected s = .next t_) :
    s₀.Rel b_ t_ := by
  unfold execPatrolScrub at e_
  injection e_ with e_
  subst e_
  repeat'
    first
    | with_reducible assumption
    | with_reducible apply State.bump_rel
    | with_reducible apply State.raise_rel
    | with_reducible apply State.rel_foldl
    | intro _
    | split
    | dsimp only

theorem execMemTemperatureRead_rel {b_ : Bool} {s₀ : State} (temps : List (Fin 12 × BitVec 8)) (s : State) {t_ : State} (h_s : s₀.Rel b_ s) (e_ : execMemTemperatureRead temps s = .next t_) :
    s₀.Rel b_ t_ := by
  unfold execMemTemperatureRead at e_
  injection e_ with e_
  subst e_
  repeat'
    first
    | with_reducible assumption
    | simp only [State.rel_mk, State.rel_mk_ram]
    | split

theorem execPeriodicRetraining_rel {s₀ : State} (dev : Fin 12) (ok : Bool) (loss : MemLoss) (s : State) {t_ : State} (h_s : s₀.Rel false s) (e_ : execPeriodicRetraining dev ok loss s = .next t_) :
    s₀.Rel false t_ := by
  unfold execPeriodicRetraining at e_
  injection e_ with e_
  subst e_
  repeat'
    first
    | with_reducible assumption
    | with_reducible apply State.bump_rel
    | with_reducible apply State.deviceFailed_rel
    | split
    | dsimp only

theorem State.hostLine_rel {s₀ : State} (s : State) (p n : Nat) (wr : Option (BitVec 512 × Word64)) (h_s : s₀.Rel false s) :
    s₀.Rel false (State.hostLine s p n wr) := by
  unfold State.hostLine
  repeat' split
  all_goals try exact h_s
  · exact ⟨⟨h_s.keeps.fuses, h_s.keeps.pending, h_s.keeps.regsOk, fun w => Memory.wf_writeMasked (h_s.keeps.memOk w) _ _ _⟩, by simp⟩
  · exact ⟨⟨h_s.keeps.fuses, h_s.keeps.pending, h_s.keeps.regsOk, h_s.keeps.memOk⟩, by simp⟩

theorem execCxlMemHostAccess_rel {s₀ : State} (p : PortId) (line : Nat) (wr : Option (BitVec 512 × Word64)) (s : State) {t_ : State} (h_s : s₀.Rel false s) (e_ : execCxlMemHostAccess p line wr s = .next t_) :
    s₀.Rel false t_ := by
  unfold execCxlMemHostAccess at e_
  injection e_ with e_
  subst e_
  repeat'
    first
    | with_reducible assumption
    | with_reducible apply State.hostLine_rel
    | dsimp only

theorem State.activateRoute_rel {b_ : Bool} {s₀ : State} (s : State) (e T : Nat) (h_s : s₀.Rel b_ s) :
    s₀.Rel b_ (State.activateRoute s e T) := by
  unfold State.activateRoute
  repeat'
    first
    | with_reducible assumption
    | with_reducible apply State.setFld_rel
    | with_reducible apply State.setRepoch_rel
    | simp only [State.rel_mk]
    | split

theorem State.routeTide_rel {b_ : Bool} {s₀ : State} (s : State) (e : Nat) (h_s : s₀.Rel b_ s) :
    s₀.Rel b_ (State.routeTide s e) := by
  unfold State.routeTide
  repeat'
    first
    | with_reducible assumption
    | with_reducible apply State.activateRoute_rel
    | with_reducible apply State.drain_rel
    | split
    | dsimp only

theorem State.conflictCheck_rel {b_ : Bool} {s₀ : State} (s : State) (e : Nat) (h_s : s₀.Rel b_ s) :
    s₀.Rel b_ (State.conflictCheck s e) := by
  unfold State.conflictCheck
  repeat'
    first
    | with_reducible assumption
    | with_reducible apply State.bump_rel
    | with_reducible apply State.setXrec_rel
    | simp only [State.rel_mk]
    | with_reducible apply State.rel_foldl
    | intro _

theorem State.resendLater_rel {b_ : Bool} {s₀ : State} (s : State) (e : Nat) (h_s : s₀.Rel b_ s) :
    s₀.Rel b_ (State.resendLater s e) := by
  unfold State.resendLater
  repeat'
    first
    | with_reducible assumption
    | with_reducible apply State.modConn_rel
    | simp only [State.rel_mk]
    | with_reducible apply State.rel_foldl
    | intro _
    | split

theorem State.activateSched_rel {b_ : Bool} {s₀ : State} (s : State) (e T : Nat) (h_s : s₀.Rel b_ s) :
    s₀.Rel b_ (State.activateSched s e T) := by
  unfold State.activateSched
  repeat'
    first
    | with_reducible assumption
    | with_reducible apply State.conflictCheck_rel
    | with_reducible apply State.endStanding_rel
    | with_reducible apply State.resendLater_rel
    | with_reducible apply State.setFld_rel
    | with_reducible apply State.setSepoch_rel
    | simp only [State.rel_mk]
    | split

theorem State.schedTide_rel {b_ : Bool} {s₀ : State} (s : State) (e : Nat) (h_s : s₀.Rel b_ s) :
    s₀.Rel b_ (State.schedTide s e) := by
  unfold State.schedTide
  repeat'
    first
    | with_reducible assumption
    | with_reducible apply State.activateSched_rel
    | split
    | dsimp only

theorem State.autoSwitch_rel {b_ : Bool} {s₀ : State} (s : State) (kind e plan declared T : Nat) (h_s : s₀.Rel b_ s) :
    s₀.Rel b_ (State.autoSwitch s kind e plan declared T) := by
  unfold State.autoSwitch
  repeat'
    first
    | with_reducible assumption
    | with_reducible apply State.switchRoute_rel
    | with_reducible apply State.switchSched_rel
    | split
    | dsimp only

theorem State.autoTide_rel {b_ : Bool} {s₀ : State} (s : State) (T : Nat) (h_s : s₀.Rel b_ s) :
    s₀.Rel b_ (State.autoTide s T) := by
  unfold State.autoTide
  repeat'
    first
    | with_reducible assumption
    | with_reducible apply State.autoSwitch_rel
    | split
    | dsimp only

theorem State.tideDump_rel {b_ : Bool} {s₀ : State} (s : State) (last f : Nat) (h_s : s₀.Rel b_ s) :
    s₀.Rel b_ (State.tideDump s last f) := by
  unfold State.tideDump
  repeat'
    first
    | with_reducible assumption
    | with_reducible apply State.dumpDue_rel
    | simp only [State.rel_mk]
    | split

theorem State.atTide_rel {b_ : Bool} {s₀ : State} (s : State) (h_s : s₀.Rel b_ s) :
    s₀.Rel b_ (State.atTide s) := by
  unfold State.atTide
  repeat'
    first
    | with_reducible assumption
    | with_reducible apply State.autoTide_rel
    | with_reducible apply State.lateLaunches_rel
    | with_reducible apply State.progress_rel
    | with_reducible apply State.routeTide_rel
    | with_reducible apply State.schedTide_rel
    | with_reducible apply State.setTime_rel
    | with_reducible apply State.tideDigest_rel
    | with_reducible apply State.tideDump_rel
    | simp only [State.rel_mk]
    | split

theorem State.stepTo_rel {s₀ : State} (s : State) (t : Nat) (h_s : s₀.Rel false s) :
    s₀.Rel false (State.stepTo s t) := by
  unfold State.stepTo
  repeat'
    first
    | with_reducible assumption
    | with_reducible apply State.atTide_rel
    | simp only [State.rel_mk_time]
    | simp only [State.rel_mk]

theorem State.tickCoarse_rel {s₀ : State} (s : State) (h_s : s₀.Rel false s) :
    s₀.Rel false (State.tickCoarse s) := by
  unfold State.tickCoarse
  repeat'
    first
    | with_reducible assumption
    | simp only [State.rel_mk_time]
    | simp only [State.rel_mk]
    | split

theorem State.tickFine_rel {s₀ : State} (s : State) (h_s : s₀.Rel false s) :
    s₀.Rel false (State.tickFine s) := by
  unfold State.tickFine
  repeat'
    first
    | with_reducible assumption
    | simp only [State.rel_mk_time]
    | simp only [State.rel_mk]
    | split

theorem State.tick_rel {s₀ : State} (s : State) (h_s : s₀.Rel false s) :
    s₀.Rel false (State.tick s) := by
  unfold State.tick
  repeat'
    first
    | with_reducible assumption
    | with_reducible apply State.tickCoarse_rel
    | with_reducible apply State.tickFine_rel
    | split
    | dsimp only

theorem execTide_rel {b_ : Bool} {s₀ : State} (s : State) {t_ : State} (h_s : s₀.Rel b_ s) (e_ : execTide s = .next t_) :
    s₀.Rel b_ t_ := by
  unfold execTide at e_
  injection e_ with e_
  subst e_
  repeat'
    first
    | with_reducible assumption
    | with_reducible apply State.atTide_rel
    | dsimp only

theorem State.retireSched_rel {b_ : Bool} {s₀ : State} (s : State) (e : Nat) (h_s : s₀.Rel b_ s) :
    s₀.Rel b_ (State.retireSched s e) := by
  unfold State.retireSched
  repeat'
    first
    | with_reducible assumption
    | with_reducible apply State.setSepoch_rel
    | split
    | dsimp only

theorem execScheduleEpochRetire_rel {b_ : Bool} {s₀ : State} (s : State) {t_ : State} (h_s : s₀.Rel b_ s) (e_ : execScheduleEpochRetire s = .next t_) :
    s₀.Rel b_ t_ := by
  unfold execScheduleEpochRetire at e_
  injection e_ with e_
  subst e_
  repeat'
    first
    | with_reducible assumption
    | with_reducible apply State.retireSched_rel
    | dsimp only

theorem State.exchangeMissed_rel {b_ : Bool} {s₀ : State} (s : State) (h_s : s₀.Rel b_ s) :
    s₀.Rel b_ (State.exchangeMissed s) := by
  unfold State.exchangeMissed
  repeat'
    first
    | with_reducible assumption
    | with_reducible apply State.parentLost_rel
    | with_reducible apply State.setGood_rel
    | simp only [State.rel_mk]
    | split

theorem State.startExchange_rel {b_ : Bool} {s₀ : State} (s : State) (h_s : s₀.Rel b_ s) :
    s₀.Rel b_ (State.startExchange s) := by
  unfold State.startExchange
  repeat'
    first
    | with_reducible assumption
    | with_reducible apply State.exchangeMissed_rel
    | with_reducible apply State.say_rel
    | simp only [State.rel_mk]
    | split

theorem execTsExchange_rel {b_ : Bool} {s₀ : State} (s : State) {t_ : State} (h_s : s₀.Rel b_ s) (e_ : execTsExchange s = .next t_) :
    s₀.Rel b_ t_ := by
  unfold execTsExchange at e_
  injection e_ with e_
  subst e_
  repeat'
    first
    | with_reducible assumption
    | with_reducible apply State.startExchange_rel
    | dsimp only

theorem execExchangeMissed_rel {b_ : Bool} {s₀ : State} (s : State) {t_ : State} (h_s : s₀.Rel b_ s) (e_ : execExchangeMissed s = .next t_) :
    s₀.Rel b_ t_ := by
  unfold execExchangeMissed at e_
  injection e_ with e_
  subst e_
  repeat'
    first
    | with_reducible assumption
    | with_reducible apply State.exchangeMissed_rel
    | split
    | dsimp only

theorem execTsReq_rel {b_ : Bool} {s₀ : State} (l : LaneId) (num : BitVec 8) (s : State) {t_ : State} (h_s : s₀.Rel b_ s) (e_ : execTsReq l num s = .next t_) :
    s₀.Rel b_ t_ := by
  unfold execTsReq at e_
  injection e_ with e_
  subst e_
  repeat'
    first
    | with_reducible assumption
    | with_reducible apply State.heard_rel
    | with_reducible apply State.say_rel
    | simp only [State.rel_mk]
    | split

theorem execTsResp_rel {b_ : Bool} {s₀ : State} (l : LaneId) (num : BitVec 8) (s : State) {t_ : State} (h_s : s₀.Rel b_ s) (e_ : execTsResp l num s = .next t_) :
    s₀.Rel b_ t_ := by
  unfold execTsResp at e_
  injection e_ with e_
  subst e_
  repeat'
    first
    | with_reducible assumption
    | with_reducible apply State.heard_rel
    | simp only [State.rel_mk]
    | split

theorem State.steer_rel {b_ : Bool} {s₀ : State} (s : State) (o : Int) (h_s : s₀.Rel b_ s) :
    s₀.Rel b_ (State.steer s o) := by
  unfold State.steer
  repeat'
    first
    | with_reducible assumption
    | with_reducible apply State.drawn_rel
    | simp only [State.rel_mk]
    | split

theorem State.exchangeDone_rel {s₀ : State} (s : State) (offset : Int) (h_s : s₀.Rel false s) :
    s₀.Rel false (State.exchangeDone s offset) := by
  unfold State.exchangeDone
  repeat'
    first
    | with_reducible assumption
    | with_reducible apply State.progress_rel
    | with_reducible apply State.requestPhase_rel
    | with_reducible apply State.setGood_rel
    | with_reducible apply State.setTime_rel
    | with_reducible apply State.steer_rel
    | with_reducible apply State.stepTo_rel
    | simp only [State.rel_mk]
    | split

theorem State.finishExchange_rel {s₀ : State} (s : State) (t2 t3 : Nat) (h_s : s₀.Rel false s) :
    s₀.Rel false (State.finishExchange s t2 t3) := by
  unfold State.finishExchange
  repeat'
    first
    | with_reducible assumption
    | with_reducible apply State.drawn_rel
    | with_reducible apply State.exchangeDone_rel
    | with_reducible apply State.occur_rel
    | with_reducible apply State.setFld_rel
    | with_reducible apply State.wr_rel
    | split
    | dsimp only

theorem execTsData_rel {s₀ : State} (l : LaneId) (t2 : Word) (t3 : Word) (s : State) {t_ : State} (h_s : s₀.Rel false s) (e_ : execTsData l t2 t3 s = .next t_) :
    s₀.Rel false t_ := by
  unfold execTsData at e_
  injection e_ with e_
  subst e_
  repeat'
    first
    | with_reducible assumption
    | with_reducible apply State.finishExchange_rel
    | split
    | dsimp only

theorem execHoldoverLimit_rel {b_ : Bool} {s₀ : State} (s : State) {t_ : State} (h_s : s₀.Rel b_ s) (e_ : execHoldoverLimit s = .next t_) :
    s₀.Rel b_ t_ := by
  unfold execHoldoverLimit at e_
  injection e_ with e_
  subst e_
  repeat'
    first
    | with_reducible assumption
    | with_reducible apply State.setGood_rel
    | with_reducible apply State.setTime_rel
    | simp only [State.rel_mk]
    | split

theorem execHoldoverLinkRaise_rel {b_ : Bool} {s₀ : State} (s : State) {t_ : State} (h_s : s₀.Rel b_ s) (e_ : execHoldoverLinkRaise s = .next t_) :
    s₀.Rel b_ t_ := by
  unfold execHoldoverLinkRaise at e_
  injection e_ with e_
  subst e_
  repeat'
    first
    | with_reducible assumption
    | with_reducible apply State.startExitOf_rel
    | simp only [State.rel_mk]
    | split

theorem State.ppsAlign_rel {s₀ : State} (s : State) (h_s : s₀.Rel false s) :
    s₀.Rel false (State.ppsAlign s) := by
  unfold State.ppsAlign
  repeat'
    first
    | with_reducible assumption
    | with_reducible apply State.progress_rel
    | with_reducible apply State.setTime_rel
    | with_reducible apply State.steer_rel
    | with_reducible apply State.stepTo_rel
    | simp only [State.rel_mk]
    | split

theorem State.ppsCount_rel {b_ : Bool} {s₀ : State} (s : State) (valid : Bool) (h_s : s₀.Rel b_ s) :
    s₀.Rel b_ (State.ppsCount s valid) := by
  unfold State.ppsCount
  repeat'
    first
    | with_reducible assumption
    | with_reducible apply State.endStanding_rel
    | with_reducible apply State.setFlag_rel
    | simp only [State.rel_mk]
    | split

theorem State.loadSet_rel {s₀ : State} (s : State) (h_s : s₀.Rel false s) :
    s₀.Rel false (State.loadSet s) := by
  unfold State.loadSet
  repeat'
    first
    | with_reducible assumption
    | with_reducible apply State.setFlag_rel
    | with_reducible apply State.stepTo_rel
    | simp only [State.rel_mk]

theorem State.ppsEdge_rel {s₀ : State} (s : State) (valid : Bool) (h_s : s₀.Rel false s) :
    s₀.Rel false (State.ppsEdge s valid) := by
  unfold State.ppsEdge
  repeat'
    first
    | with_reducible assumption
    | with_reducible apply State.loadSet_rel
    | with_reducible apply State.ppsAlign_rel
    | with_reducible apply State.ppsCount_rel
    | with_reducible apply State.setTime_rel
    | simp only [State.rel_mk]
    | split

theorem execPpsEdge_rel {s₀ : State} (valid : Bool) (s : State) {t_ : State} (h_s : s₀.Rel false s) (e_ : execPpsEdge valid s = .next t_) :
    s₀.Rel false t_ := by
  unfold execPpsEdge at e_
  injection e_ with e_
  subst e_
  repeat'
    first
    | with_reducible assumption
    | with_reducible apply State.ppsEdge_rel
    | dsimp only

theorem State.timeInLost_rel {b_ : Bool} {s₀ : State} (s : State) (h_s : s₀.Rel b_ s) :
    s₀.Rel b_ (State.timeInLost s) := by
  unfold State.timeInLost
  repeat'
    first
    | with_reducible assumption
    | with_reducible apply State.raiseStanding_rel
    | with_reducible apply State.raiseTogether_rel
    | with_reducible apply State.setFlag_rel
    | with_reducible apply State.stand_rel
    | with_reducible apply State.startHoldover_rel
    | simp only [State.rel_mk]
    | split

theorem execTimeInLost_rel {b_ : Bool} {s₀ : State} (s : State) {t_ : State} (h_s : s₀.Rel b_ s) (e_ : execTimeInLost s = .next t_) :
    s₀.Rel b_ t_ := by
  unfold execTimeInLost at e_
  injection e_ with e_
  subst e_
  repeat'
    first
    | with_reducible assumption
    | with_reducible apply State.timeInLost_rel
    | dsimp only

theorem execPpsEdgeLate_rel {b_ : Bool} {s₀ : State} (s : State) {t_ : State} (h_s : s₀.Rel b_ s) (e_ : execPpsEdgeLate s = .next t_) :
    s₀.Rel b_ t_ := by
  unfold execPpsEdgeLate at e_
  injection e_ with e_
  subst e_
  repeat'
    first
    | with_reducible assumption
    | with_reducible apply State.timeInLost_rel
    | dsimp only

theorem execStandbyTakeover_rel {b_ : Bool} {s₀ : State} (s : State) {t_ : State} (h_s : s₀.Rel b_ s) (e_ : execStandbyTakeover s = .next t_) :
    s₀.Rel b_ t_ := by
  unfold execStandbyTakeover at e_
  injection e_ with e_
  subst e_
  repeat'
    first
    | with_reducible assumption
    | with_reducible apply State.raiseStanding_rel
    | with_reducible apply State.setFlag_rel
    | with_reducible apply State.setTime_rel
    | simp only [State.rel_mk]
    | split

theorem State.timCtrlWrite_rel {b_ : Bool} {s₀ : State} (s : State) (w : Word) (h_s : s₀.Rel b_ s) :
    s₀.Rel b_ (State.timCtrlWrite s w) := by
  unfold State.timCtrlWrite
  repeat'
    first
    | with_reducible assumption
    | with_reducible apply State.endStanding_rel
    | with_reducible apply State.setFlag_rel
    | with_reducible apply State.setFld_rel
    | with_reducible apply State.setGood_rel
    | with_reducible apply State.setTime_rel
    | simp only [State.rel_mk]
    | split

theorem execTimCtrlWrite_rel {b_ : Bool} {s₀ : State} (w : Word) (s : State) {t_ : State} (h_s : s₀.Rel b_ s) (e_ : execTimCtrlWrite w s = .next t_) :
    s₀.Rel b_ t_ := by
  unfold execTimCtrlWrite at e_
  injection e_ with e_
  subst e_
  repeat'
    first
    | with_reducible assumption
    | with_reducible apply State.setup_rel
    | with_reducible apply State.timCtrlWrite_rel
    | dsimp only

theorem execSetArm_rel {b_ : Bool} {s₀ : State} (w : Word) (s : State) {t_ : State} (h_s : s₀.Rel b_ s) (e_ : execSetArm w s = .next t_) :
    s₀.Rel b_ t_ := by
  unfold execSetArm at e_
  injection e_ with e_
  subst e_
  repeat'
    first
    | with_reducible assumption
    | with_reducible apply State.setup_rel
    | with_reducible apply State.timCtrlWrite_rel
    | dsimp only

theorem State.timNowRead_rel {b_ : Bool} {s₀ : State} (s : State) (who : Nat) (h_s : s₀.Rel b_ s) :
    s₀.Rel b_ (State.timNowRead s who) := by
  unfold State.timNowRead
  repeat'
    first
    | with_reducible assumption
    | with_reducible apply State.readLow_rel
    | dsimp only

theorem execTimNowRead_rel {b_ : Bool} {s₀ : State} (who : Fin 9) (s : State) {t_ : State} (h_s : s₀.Rel b_ s) (e_ : execTimNowRead who s = .next t_) :
    s₀.Rel b_ t_ := by
  unfold execTimNowRead at e_
  injection e_ with e_
  subst e_
  repeat'
    first
    | with_reducible assumption
    | with_reducible apply State.timNowRead_rel
    | dsimp only

theorem execTimeOutPulse_rel {b_ : Bool} {s₀ : State} (s : State) {t_ : State} (h_s : s₀.Rel b_ s) (e_ : execTimeOutPulse s = .next t_) :
    s₀.Rel b_ t_ := by
  unfold execTimeOutPulse at e_
  injection e_ with e_
  subst e_
  repeat'
    first
    | with_reducible assumption
    | simp only [State.rel_mk]
    | split

theorem State.ringRoom_rel {b_ : Bool} {s₀ : State} (s : State) (q : Nat) (x : Queue) (n : Nat) (h_s : s₀.Rel b_ s) :
    s₀.Rel b_ (State.ringRoom s q x n) := by
  unfold State.ringRoom
  repeat'
    first
    | with_reducible assumption
    | with_reducible apply State.advanceWm_rel
    | with_reducible apply State.flushCq_rel
    | with_reducible apply State.modQueue_rel
    | simp only [State.rel_mk]
    | with_reducible apply State.rel_foldl
    | intro _

theorem State.ringRead_rel {b_ : Bool} {s₀ : State} (s : State) (q : Nat) (x : Queue) (n : Nat) (h_s : s₀.Rel b_ s) :
    s₀.Rel b_ (State.ringRead s q x n) := by
  unfold State.ringRead
  repeat'
    first
    | with_reducible assumption
    | with_reducible apply State.modQueue_rel
    | with_reducible apply State.ringRoom_rel
    | with_reducible apply State.wakeQueue_rel
    | simp only [State.rel_mk]
    | split

theorem State.poll_rel {b_ : Bool} {s₀ : State} (s : State) (q n : Nat) (running : Bool) (h_s : s₀.Rel b_ s) :
    s₀.Rel b_ (State.poll s q n running) := by
  unfold State.poll
  repeat'
    first
    | with_reducible assumption
    | with_reducible apply State.bump_rel
    | with_reducible apply State.occurCtl_rel
    | with_reducible apply State.ringRead_rel
    | with_reducible apply State.setFloor_rel
    | split
    | dsimp only

theorem State.readWoken_rel {b_ : Bool} {s₀ : State} (s : State) (h_s : s₀.Rel b_ s) :
    s₀.Rel b_ (State.readWoken s) := by
  unfold State.readWoken
  repeat'
    first
    | with_reducible assumption
    | with_reducible apply State.ringRoom_rel
    | with_reducible apply State.rel_foldl
    | intro _
    | split
    | dsimp only

theorem execPoll_rel {b_ : Bool} {s₀ : State} (q : Nat) (n : Nat) (s : State) {t_ : State} (h_s : s₀.Rel b_ s) (e_ : execPoll q n s = .next t_) :
    s₀.Rel b_ t_ := by
  unfold execPoll at e_
  injection e_ with e_
  subst e_
  repeat'
    first
    | with_reducible assumption
    | with_reducible apply State.poll_rel
    | dsimp only

theorem execAonPoll_rel {b_ : Bool} {s₀ : State} (q : Nat) (n : Nat) (s : State) {t_ : State} (h_s : s₀.Rel b_ s) (e_ : execAonPoll q n s = .next t_) :
    s₀.Rel b_ t_ := by
  unfold execAonPoll at e_
  injection e_ with e_
  subst e_
  repeat'
    first
    | with_reducible assumption
    | with_reducible apply State.poll_rel
    | dsimp only

theorem State.snoop_rel {b_ : Bool} {s₀ : State} (s : State) (q n : Nat) (h_s : s₀.Rel b_ s) :
    s₀.Rel b_ (State.snoop s q n) := by
  unfold State.snoop
  repeat'
    first
    | with_reducible assumption
    | with_reducible apply State.occurCtl_rel
    | with_reducible apply State.ringRead_rel
    | with_reducible apply State.wakeQueue_rel
    | split
    | dsimp only

theorem execSnoop_rel {b_ : Bool} {s₀ : State} (q : Nat) (n : Nat) (s : State) {t_ : State} (h_s : s₀.Rel b_ s) (e_ : execSnoop q n s = .next t_) :
    s₀.Rel b_ t_ := by
  unfold execSnoop at e_
  injection e_ with e_
  subst e_
  repeat'
    first
    | with_reducible assumption
    | with_reducible apply State.snoop_rel
    | dsimp only

theorem State.ringError_rel {b_ : Bool} {s₀ : State} (s : State) (q : Nat) (timeout : Bool) (h_s : s₀.Rel b_ s) :
    s₀.Rel b_ (State.ringError s q timeout) := by
  unfold State.ringError
  repeat'
    first
    | with_reducible assumption
    | with_reducible apply State.aqStop_rel
    | with_reducible apply State.raise_rel
    | simp only [State.rel_mk]
    | split

theorem execRingReadError_rel {b_ : Bool} {s₀ : State} (q : Nat) (timeout : Bool) (s : State) {t_ : State} (h_s : s₀.Rel b_ s) (e_ : execRingReadError q timeout s = .next t_) :
    s₀.Rel b_ t_ := by
  unfold execRingReadError at e_
  injection e_ with e_
  subst e_
  repeat'
    first
    | with_reducible assumption
    | with_reducible apply State.ringError_rel
    | dsimp only

theorem execRingRereadTimer_rel {b_ : Bool} {s₀ : State} (q : Nat) (n : Nat) (s : State) {t_ : State} (h_s : s₀.Rel b_ s) (e_ : execRingRereadTimer q n s = .next t_) :
    s₀.Rel b_ t_ := by
  unfold execRingRereadTimer at e_
  injection e_ with e_
  subst e_
  repeat'
    first
    | with_reducible assumption
    | with_reducible apply State.ringRead_rel
    | split
    | dsimp only

theorem execCqEntryReturned_rel {b_ : Bool} {s₀ : State} (q : Nat) (n : Nat) (s : State) {t_ : State} (h_s : s₀.Rel b_ s) (e_ : execCqEntryReturned q n s = .next t_) :
    s₀.Rel b_ t_ := by
  unfold execCqEntryReturned at e_
  injection e_ with e_
  subst e_
  repeat'
    first
    | with_reducible assumption
    | with_reducible apply State.ringRead_rel
    | split
    | dsimp only

theorem execSend_rel {b_ : Bool} {s₀ : State} (q : QueueId) (e : Entry) (v : View) (s : State) {t_ : State} (h_s : s₀.Rel b_ s) (e_ : execSend q e v s = .next t_) :
    s₀.Rel b_ t_ := by
  unfold execSend at e_
  injection e_ with e_
  subst e_
  repeat'
    first
    | with_reducible assumption
    | with_reducible apply State.see_rel
    | with_reducible apply State.take_rel
    | dsimp only

theorem execPostRecv_rel {b_ : Bool} {s₀ : State} (q : QueueId) (e : Entry) (v : View) (s : State) {t_ : State} (h_s : s₀.Rel b_ s) (e_ : execPostRecv q e v s = .next t_) :
    s₀.Rel b_ t_ := by
  unfold execPostRecv at e_
  injection e_ with e_
  subst e_
  repeat'
    first
    | with_reducible assumption
    | with_reducible apply State.see_rel
    | with_reducible apply State.take_rel
    | dsimp only

theorem execWriteMsg_rel {b_ : Bool} {s₀ : State} (q : QueueId) (e : Entry) (v : View) (s : State) {t_ : State} (h_s : s₀.Rel b_ s) (e_ : execWriteMsg q e v s = .next t_) :
    s₀.Rel b_ t_ := by
  unfold execWriteMsg at e_
  injection e_ with e_
  subst e_
  repeat'
    first
    | with_reducible assumption
    | with_reducible apply State.see_rel
    | with_reducible apply State.take_rel
    | dsimp only

theorem execWriteImm_rel {b_ : Bool} {s₀ : State} (q : QueueId) (e : Entry) (v : View) (s : State) {t_ : State} (h_s : s₀.Rel b_ s) (e_ : execWriteImm q e v s = .next t_) :
    s₀.Rel b_ t_ := by
  unfold execWriteImm at e_
  injection e_ with e_
  subst e_
  repeat'
    first
    | with_reducible assumption
    | with_reducible apply State.see_rel
    | with_reducible apply State.take_rel
    | dsimp only

theorem execReadMsg_rel {b_ : Bool} {s₀ : State} (q : QueueId) (e : Entry) (v : View) (s : State) {t_ : State} (h_s : s₀.Rel b_ s) (e_ : execReadMsg q e v s = .next t_) :
    s₀.Rel b_ t_ := by
  unfold execReadMsg at e_
  injection e_ with e_
  subst e_
  repeat'
    first
    | with_reducible assumption
    | with_reducible apply State.see_rel
    | with_reducible apply State.take_rel
    | dsimp only

theorem execAtomic_rel {b_ : Bool} {s₀ : State} (q : QueueId) (e : Entry) (v : View) (s : State) {t_ : State} (h_s : s₀.Rel b_ s) (e_ : execAtomic q e v s = .next t_) :
    s₀.Rel b_ t_ := by
  unfold execAtomic at e_
  injection e_ with e_
  subst e_
  repeat'
    first
    | with_reducible assumption
    | with_reducible apply State.see_rel
    | with_reducible apply State.take_rel
    | dsimp only

theorem execLockAcquire_rel {b_ : Bool} {s₀ : State} (q : QueueId) (e : Entry) (v : View) (s : State) {t_ : State} (h_s : s₀.Rel b_ s) (e_ : execLockAcquire q e v s = .next t_) :
    s₀.Rel b_ t_ := by
  unfold execLockAcquire at e_
  injection e_ with e_
  subst e_
  repeat'
    first
    | with_reducible assumption
    | with_reducible apply State.see_rel
    | with_reducible apply State.take_rel
    | dsimp only

theorem execLockRelease_rel {b_ : Bool} {s₀ : State} (q : QueueId) (e : Entry) (v : View) (s : State) {t_ : State} (h_s : s₀.Rel b_ s) (e_ : execLockRelease q e v s = .next t_) :
    s₀.Rel b_ t_ := by
  unfold execLockRelease at e_
  injection e_ with e_
  subst e_
  repeat'
    first
    | with_reducible assumption
    | with_reducible apply State.see_rel
    | with_reducible apply State.take_rel
    | dsimp only

theorem execCollective_rel {b_ : Bool} {s₀ : State} (q : QueueId) (e : Entry) (v : View) (s : State) {t_ : State} (h_s : s₀.Rel b_ s) (e_ : execCollective q e v s = .next t_) :
    s₀.Rel b_ t_ := by
  unfold execCollective at e_
  injection e_ with e_
  subst e_
  repeat'
    first
    | with_reducible assumption
    | with_reducible apply State.see_rel
    | with_reducible apply State.take_rel
    | dsimp only

theorem execCancelRecv_rel {b_ : Bool} {s₀ : State} (q : QueueId) (e : Entry) (v : View) (s : State) {t_ : State} (h_s : s₀.Rel b_ s) (e_ : execCancelRecv q e v s = .next t_) :
    s₀.Rel b_ t_ := by
  unfold execCancelRecv at e_
  injection e_ with e_
  subst e_
  repeat'
    first
    | with_reducible assumption
    | with_reducible apply State.see_rel
    | with_reducible apply State.take_rel
    | dsimp only

theorem execNop_rel {b_ : Bool} {s₀ : State} (q : QueueId) (e : Entry) (v : View) (s : State) {t_ : State} (h_s : s₀.Rel b_ s) (e_ : execNop q e v s = .next t_) :
    s₀.Rel b_ t_ := by
  unfold execNop at e_
  injection e_ with e_
  subst e_
  repeat'
    first
    | with_reducible assumption
    | with_reducible apply State.see_rel
    | with_reducible apply State.take_rel
    | dsimp only

theorem execLaunchPowerRaise_rel {b_ : Bool} {s₀ : State} (k : Nat) (s : State) {t_ : State} (h_s : s₀.Rel b_ s) (e_ : execLaunchPowerRaise k s = .next t_) :
    s₀.Rel b_ t_ := by
  unfold execLaunchPowerRaise at e_
  injection e_ with e_
  subst e_
  repeat'
    first
    | with_reducible assumption
    | with_reducible apply State.raiseFor_rel
    | split
    | dsimp only

theorem execLaunchStart_rel {b_ : Bool} {s₀ : State} (k : Nat) (v : View) (s : State) {t_ : State} (h_s : s₀.Rel b_ s) (e_ : execLaunchStart k v s = .next t_) :
    s₀.Rel b_ t_ := by
  unfold execLaunchStart at e_
  injection e_ with e_
  subst e_
  repeat'
    first
    | with_reducible assumption
    | with_reducible apply State.launchNow_rel
    | with_reducible apply State.see_rel
    | dsimp only

theorem State.beginLanes_rel {b_ : Bool} {s₀ : State} (s : State) (t q : Nat) (h_s : s₀.Rel b_ s) :
    s₀.Rel b_ (State.beginLanes s t q) := by
  unfold State.beginLanes
  repeat'
    first
    | with_reducible assumption
    | with_reducible apply State.modTile_rel
    | with_reducible apply State.requestPhase_rel
    | with_reducible apply State.setLinkPhase_rel
    | simp only [State.rel_mk]
    | with_reducible apply State.rel_foldl
    | intro _
    | split

theorem State.lanesWait_rel {b_ : Bool} {s₀ : State} (s : State) (t q : Nat) (h_s : s₀.Rel b_ s) :
    s₀.Rel b_ (State.lanesWait s t q) := by
  unfold State.lanesWait
  repeat'
    first
    | with_reducible assumption
    | with_reducible apply State.requestPhase_rel
    | with_reducible apply State.wakeEvent_rel
    | with_reducible apply State.rel_foldl
    | intro _
    | split
    | dsimp only

theorem State.beginStep_rel {b_ : Bool} {s₀ : State} (s : State) (t q k : Nat) (h_s : s₀.Rel b_ s) :
    s₀.Rel b_ (State.beginStep s t q k) := by
  unfold State.beginStep
  repeat'
    first
    | with_reducible assumption
    | with_reducible apply State.beginLanes_rel
    | with_reducible apply State.setFld_rel
    | split
    | dsimp only

theorem State.startEntry_rel {b_ : Bool} {s₀ : State} (s : State) (t r : Nat) (h_s : s₀.Rel b_ s) :
    s₀.Rel b_ (State.startEntry s t r) := by
  unfold State.startEntry
  repeat'
    first
    | with_reducible assumption
    | with_reducible apply State.beginStep_rel
    | with_reducible apply State.bump_rel
    | with_reducible apply State.modTile_rel
    | with_reducible apply State.occur_rel
    | with_reducible apply State.setFld_rel
    | with_reducible apply State.startSeq_rel
    | simp only [State.rel_mk]
    | split

theorem State.requestTile_rel {b_ : Bool} {s₀ : State} (s : State) (t r cause : Nat) (h_s : s₀.Rel b_ s) :
    s₀.Rel b_ (State.requestTile s t r cause) := by
  unfold State.requestTile
  repeat'
    first
    | with_reducible assumption
    | with_reducible apply State.bump_rel
    | with_reducible apply State.latchReq_rel
    | with_reducible apply State.modTile_rel
    | with_reducible apply State.startEntry_rel
    | with_reducible apply State.startExit_rel
    | simp only [State.rel_mk]
    | split

theorem State.issueLatch_rel {b_ : Bool} {s₀ : State} (s : State) (t : Nat) (h_s : s₀.Rel b_ s) :
    s₀.Rel b_ (State.issueLatch s t) := by
  unfold State.issueLatch
  repeat'
    first
    | with_reducible assumption
    | with_reducible apply State.modTile_rel
    | with_reducible apply State.requestTile_rel
    | with_reducible apply State.setFld_rel
    | with_reducible apply State.wakeEvent_rel
    | simp only [State.rel_mk]
    | split

theorem State.loseBanks_rel {b_ : Bool} {s₀ : State} (s : State) (t mask : Nat) (h_s : s₀.Rel b_ s) :
    s₀.Rel b_ (State.loseBanks s t mask) := by
  unfold State.loseBanks
  repeat'
    first
    | with_reducible assumption
    | simp only [State.rel_mk]
    | split

theorem State.evictPosted_rel {b_ : Bool} {s₀ : State} (s : State) (t : Nat) (h_s : s₀.Rel b_ s) :
    s₀.Rel b_ (State.evictPosted s t) := by
  unfold State.evictPosted
  repeat'
    first
    | with_reducible assumption
    | simp only [State.rel_mk]
    | split

theorem State.entryDone_rel {b_ : Bool} {s₀ : State} (s : State) (t r : Nat) (h_s : s₀.Rel b_ s) :
    s₀.Rel b_ (State.entryDone s t r) := by
  unfold State.entryDone
  repeat'
    first
    | with_reducible assumption
    | with_reducible apply State.bump_rel
    | with_reducible apply State.linkOffHere_rel
    | with_reducible apply State.loseBanks_rel
    | with_reducible apply State.modLane_rel
    | with_reducible apply State.occur_rel
    | with_reducible apply State.pllCheck_rel
    | with_reducible apply State.setFld_rel
    | simp only [State.rel_mk]
    | with_reducible apply State.rel_foldl
    | intro _
    | split

theorem State.tileBack_rel {b_ : Bool} {s₀ : State} (s : State) (t : Nat) (h_s : s₀.Rel b_ s) :
    s₀.Rel b_ (State.tileBack s t) := by
  unfold State.tileBack
  repeat'
    first
    | with_reducible assumption
    | with_reducible apply State.dispatch_rel
    | with_reducible apply State.startTraining_rel
    | dsimp only

theorem State.resumeTile_rel {b_ : Bool} {s₀ : State} (s : State) (t : Nat) (h_s : s₀.Rel b_ s) :
    s₀.Rel b_ (State.resumeTile s t) := by
  unfold State.resumeTile
  repeat'
    first
    | with_reducible assumption
    | with_reducible apply State.exitCheck_rel
    | with_reducible apply State.setFld_rel
    | with_reducible apply State.startTraining_rel
    | with_reducible apply State.tileBack_rel
    | with_reducible apply State.rel_foldl
    | intro _
    | split
    | dsimp only

theorem State.verifyBanks_rel {b_ : Bool} {s₀ : State} (s : State) (t : Nat) (codes : List Word) (h_s : s₀.Rel b_ s) :
    s₀.Rel b_ (State.verifyBanks s t codes) := by
  unfold State.verifyBanks
  repeat'
    first
    | with_reducible assumption
    | with_reducible apply State.bumpBy_rel
    | with_reducible apply State.loseBanks_rel
    | with_reducible apply State.modTile_rel
    | with_reducible apply State.raise_rel
    | with_reducible apply State.setFld_rel
    | simp only [State.rel_mk]
    | split

theorem State.finishChange_rel {b_ : Bool} {s₀ : State} (s : State) (t : Nat) (h_s : s₀.Rel b_ s) :
    s₀.Rel b_ (State.finishChange s t) := by
  unfold State.finishChange
  repeat'
    first
    | with_reducible assumption
    | with_reducible apply State.entryDone_rel
    | with_reducible apply State.issueLatch_rel
    | with_reducible apply State.modTile_rel
    | with_reducible apply State.setFld_rel
    | with_reducible apply State.startEntry_rel
    | simp only [State.rel_mk]
    | split

theorem State.unwind_rel {b_ : Bool} {s₀ : State} (s : State) (t cause : Nat) (h_s : s₀.Rel b_ s) :
    s₀.Rel b_ (State.unwind s t cause) := by
  unfold State.unwind
  repeat'
    first
    | with_reducible assumption
    | with_reducible apply State.bump_rel
    | with_reducible apply State.issueLatch_rel
    | with_reducible apply State.modLink_rel
    | with_reducible apply State.modTile_rel
    | with_reducible apply State.occur_rel
    | with_reducible apply State.requestPhase_rel
    | with_reducible apply State.setFld_rel
    | with_reducible apply State.tileBack_rel
    | simp only [State.rel_mk]
    | with_reducible apply State.rel_foldl
    | intro _

theorem State.nextAction_rel {b_ : Bool} {s₀ : State} (s : State) (t q k : Nat) (h_s : s₀.Rel b_ s) :
    s₀.Rel b_ (State.nextAction s t q k) := by
  unfold State.nextAction
  repeat'
    first
    | with_reducible assumption
    | with_reducible apply State.beginStep_rel
    | with_reducible apply State.finishChange_rel
    | with_reducible apply State.unwind_rel
    | split
    | dsimp only

theorem State.stepEffect_rel {b_ : Bool} {s₀ : State} (s : State) (t a : Nat) (codes : List Word) (h_s : s₀.Rel b_ s) :
    s₀.Rel b_ (State.stepEffect s t a codes) := by
  unfold State.stepEffect
  repeat'
    first
    | with_reducible assumption
    | with_reducible apply State.evictPosted_rel
    | with_reducible apply State.resumeTile_rel
    | with_reducible apply State.verifyBanks_rel
    | with_reducible apply State.wr_rel
    | with_reducible apply State.rel_foldl
    | intro _
    | split
    | dsimp only

theorem State.stepDone_rel {b_ : Bool} {s₀ : State} (s : State) (t : Nat) (codes : List Word) (good : Bool) (h_s : s₀.Rel b_ s) :
    s₀.Rel b_ (State.stepDone s t codes good) := by
  unfold State.stepDone
  repeat'
    first
    | with_reducible assumption
    | with_reducible apply State.lanesWait_rel
    | with_reducible apply State.nextAction_rel
    | with_reducible apply State.raise_rel
    | with_reducible apply State.stepEffect_rel
    | split
    | dsimp only

theorem execSequenceStepDone_rel {b_ : Bool} {s₀ : State} (t : TileId) (codes : List Word) (powerGood : Bool) (s : State) {t_ : State} (h_s : s₀.Rel b_ s) (e_ : execSequenceStepDone t codes powerGood s = .next t_) :
    s₀.Rel b_ t_ := by
  unfold execSequenceStepDone at e_
  injection e_ with e_
  subst e_
  repeat'
    first
    | with_reducible assumption
    | with_reducible apply State.stepDone_rel
    | dsimp only

theorem execPwrTileReq_rel {b_ : Bool} {s₀ : State} (t : TileId) (w : Word) (sideband : Bool) (s : State) {t_ : State} (h_s : s₀.Rel b_ s) (e_ : execPwrTileReq t w sideband s = .next t_) :
    s₀.Rel b_ t_ := by
  unfold execPwrTileReq at e_
  injection e_ with e_
  subst e_
  repeat'
    first
    | with_reducible assumption
    | with_reducible apply State.requestTile_rel
    | with_reducible apply State.setup_rel
    | split
    | dsimp only

theorem execWakeEvent_rel {b_ : Bool} {s₀ : State} (t : TileId) (cause : BitVec 8) (s : State) {t_ : State} (h_s : s₀.Rel b_ s) (e_ : execWakeEvent t cause s = .next t_) :
    s₀.Rel b_ t_ := by
  unfold execWakeEvent at e_
  injection e_ with e_
  subst e_
  repeat'
    first
    | with_reducible assumption
    | with_reducible apply State.wakeEvent_rel
    | split
    | dsimp only

theorem execStandingReturn_rel {b_ : Bool} {s₀ : State} (t : TileId) (s : State) {t_ : State} (h_s : s₀.Rel b_ s) (e_ : execStandingReturn t s = .next t_) :
    s₀.Rel b_ t_ := by
  unfold execStandingReturn at e_
  injection e_ with e_
  subst e_
  repeat'
    first
    | with_reducible assumption
    | with_reducible apply State.requestTile_rel
    | split
    | dsimp only

theorem State.acquireAgain_rel {b_ : Bool} {s₀ : State} (s : State) (h_s : s₀.Rel b_ s) :
    s₀.Rel b_ (State.acquireAgain s) := by
  unfold State.acquireAgain
  repeat'
    first
    | with_reducible assumption
    | simp only [State.rel_mk]

theorem execPllLock_rel {b_ : Bool} {s₀ : State} (s : State) {t_ : State} (h_s : s₀.Rel b_ s) (e_ : execPllLock s = .next t_) :
    s₀.Rel b_ t_ := by
  unfold execPllLock at e_
  injection e_ with e_
  subst e_
  repeat'
    first
    | with_reducible assumption
    | with_reducible apply State.acquireAgain_rel
    | with_reducible apply State.readWoken_rel
    | with_reducible apply State.setFld_rel
    | with_reducible apply State.setGood_rel
    | with_reducible apply State.setTime_rel
    | simp only [State.rel_mk]
    | split

theorem execBankReload_rel {b_ : Bool} {s₀ : State} (t : TileId) (b : Fin 8) (s : State) {t_ : State} (h_s : s₀.Rel b_ s) (e_ : execBankReload t b s = .next t_) :
    s₀.Rel b_ t_ := by
  unfold execBankReload at e_
  injection e_ with e_
  subst e_
  repeat'
    first
    | with_reducible assumption
    | with_reducible apply State.modTile_rel
    | simp only [State.rel_mk]
    | split

theorem State.thermalFaults_rel {b_ : Bool} {s₀ : State} (s : State) (t temp : Nat) (h_s : s₀.Rel b_ s) :
    s₀.Rel b_ (State.thermalFaults s t temp) := by
  unfold State.thermalFaults
  repeat'
    first
    | with_reducible assumption
    | with_reducible apply State.endStanding_rel
    | with_reducible apply State.raiseTogether_rel
    | with_reducible apply State.stand_rel
    | split
    | dsimp only

theorem State.thermalWake_rel {b_ : Bool} {s₀ : State} (s : State) (t temp : Nat) (h_s : s₀.Rel b_ s) :
    s₀.Rel b_ (State.thermalWake s t temp) := by
  unfold State.thermalWake
  repeat'
    first
    | with_reducible assumption
    | with_reducible apply State.bump_rel
    | with_reducible apply State.wakeEvent_rel
    | split
    | dsimp only

theorem execThermalSample_rel {b_ : Bool} {s₀ : State} (t : TileId) (temp : BitVec 8) (s : State) {t_ : State} (h_s : s₀.Rel b_ s) (e_ : execThermalSample t temp s = .next t_) :
    s₀.Rel b_ t_ := by
  unfold execThermalSample at e_
  injection e_ with e_
  subst e_
  repeat'
    first
    | with_reducible assumption
    | with_reducible apply State.setFld_rel
    | with_reducible apply State.thermalFaults_rel
    | with_reducible apply State.thermalWake_rel
    | dsimp only

theorem execBrownout_rel {b_ : Bool} {s₀ : State} (t : TileId) (s : State) {t_ : State} (h_s : s₀.Rel b_ s) (e_ : execBrownout t s = .next t_) :
    s₀.Rel b_ t_ := by
  unfold execBrownout at e_
  injection e_ with e_
  subst e_
  repeat'
    first
    | with_reducible assumption
    | with_reducible apply State.modTile_rel
    | with_reducible apply State.setFld_rel
    | simp only [State.rel_mk]

theorem execPowerUp_rel {s₀ : State} (owner : Fin 8) (sbOnly : Bool) (sbAddr : Fin 16) (s : State) {t_ : State} (h_s : s₀.Rel false s) (e_ : execPowerUp owner sbOnly sbAddr s = .next t_) :
    s₀.Rel false t_ := by
  unfold execPowerUp at e_
  injection e_ with e_
  subst e_
  repeat'
    first
    | with_reducible assumption
    | with_reducible apply State.setFld_rel
    | exact ⟨⟨h_s.keeps.fuses, h_s.keeps.pending, h_s.keeps.regsOk, h_s.keeps.memOk⟩, by simp⟩
    | simp only [State.rel_mk]
    | split

theorem State.firmwareLoad_rel {b_ : Bool} {s₀ : State} (s : State) (flash : HostRead) (readErr : Option (BitVec 24)) (sigOk : Bool) (version : BitVec 16) (h_s : s₀.Rel b_ s) :
    s₀.Rel b_ (State.firmwareLoad s flash readErr sigOk version) := by
  unfold State.firmwareLoad
  repeat'
    first
    | with_reducible assumption
    | with_reducible apply State.raise_rel
    | with_reducible apply State.setFld_rel
    | with_reducible apply State.wr_rel
    | simp only [State.rel_mk]
    | split

theorem execFirmwareLoad_rel {b_ : Bool} {s₀ : State} (flash : HostRead) (readErr : Option (BitVec 24)) (sigOk : Bool) (version : BitVec 16) (s : State) {t_ : State} (h_s : s₀.Rel b_ s) (e_ : execFirmwareLoad flash readErr sigOk version s = .next t_) :
    s₀.Rel b_ t_ := by
  unfold execFirmwareLoad at e_
  injection e_ with e_
  subst e_
  repeat'
    first
    | with_reducible assumption
    | with_reducible apply State.firmwareLoad_rel
    | dsimp only

theorem execSelfTest_rel {b_ : Bool} {s₀ : State} (fail : Option (BitVec 8)) (s : State) {t_ : State} (h_s : s₀.Rel b_ s) (e_ : execSelfTest fail s = .next t_) :
    s₀.Rel b_ t_ := by
  unfold execSelfTest at e_
  injection e_ with e_
  subst e_
  repeat'
    first
    | with_reducible assumption
    | with_reducible apply State.progress_rel
    | with_reducible apply State.raise_rel
    | with_reducible apply State.setFld_rel
    | with_reducible apply State.startTraining_rel
    | split
    | dsimp only

theorem State.deviceReset_rel {s₀ : State} (s : State) (late : List Nat) (h_s : s₀.Rel false s) :
    s₀.Rel false (State.deviceReset s late) := by
  unfold State.deviceReset
  have base : ∀ r : State, r.part = s.part → r.pending = s.pending →
      r.regs = s.regs.filter (fun x => (fltBlock x.1).isSome) → r.ram.cells = s.ram.cells → s₀.Rel false r :=
    fun r h1 h2 h3 h4 =>
      ⟨⟨by rw [h1]; exact h_s.keeps.fuses, by rw [h2]; exact h_s.keeps.pending,
        fun w => by unfold State.regsOk; rw [h3]; exact Map.rising_filter (h_s.keeps.regsOk w),
        fun w => by unfold State.memOk; rw [h4]; exact h_s.keeps.memOk w⟩, by simp⟩
  repeat'
    first
    | with_reducible assumption
    | with_reducible apply State.setFld_rel
    | with_reducible apply State.wr_rel
    | with_reducible apply State.resetFaultBlock_rel
    | with_reducible apply State.rel_foldl
    | intro _
    | split
    | dsimp only
    | exact base _ rfl rfl rfl rfl

theorem execPwrGoodFall_rel {s₀ : State} (late : List PortId) (s : State) {t_ : State} (h_s : s₀.Rel false s) (e_ : execPwrGoodFall late s = .next t_) :
    s₀.Rel false t_ := by
  unfold execPwrGoodFall at e_
  injection e_ with e_
  subst e_
  repeat'
    first
    | with_reducible assumption
    | with_reducible apply State.deviceReset_rel
    | with_reducible apply State.setFld_rel
    | simp only [State.rel_mk]
    | split

theorem execResetN_rel {b_ : Bool} {s₀ : State} (low : Bool) (s : State) {t_ : State} (h_s : s₀.Rel b_ s) (e_ : execResetN low s = .next t_) :
    s₀.Rel b_ t_ := by
  unfold execResetN at e_
  injection e_ with e_
  subst e_
  repeat'
    first
    | with_reducible assumption
    | with_reducible apply State.askReset_rel
    | simp only [State.rel_mk]
    | split

theorem execDevReset_rel {b_ : Bool} {s₀ : State} (w : Word) (s : State) {t_ : State} (h_s : s₀.Rel b_ s) (e_ : execDevReset w s = .next t_) :
    s₀.Rel b_ t_ := by
  unfold execDevReset at e_
  injection e_ with e_
  subst e_
  repeat'
    first
    | with_reducible assumption
    | with_reducible apply State.mgtCtrlWrite_rel
    | with_reducible apply State.setup_rel
    | dsimp only

theorem execDeviceResetBegin_rel {s₀ : State} (late : List PortId) (s : State) {t_ : State} (h_s : s₀.Rel false s) (e_ : execDeviceResetBegin late s = .next t_) :
    s₀.Rel false t_ := by
  unfold execDeviceResetBegin at e_
  injection e_ with e_
  subst e_
  repeat'
    first
    | with_reducible assumption
    | with_reducible apply State.deviceReset_rel
    | split
    | dsimp only

theorem execDigest_rel {b_ : Bool} {s₀ : State} (l : LaneId) (c : Cell) (s : State) {t_ : State} (h_s : s₀.Rel b_ s) (e_ : execDigest l c s = .next t_) :
    s₀.Rel b_ t_ := by
  unfold execDigest at e_
  injection e_ with e_
  subst e_
  repeat'
    first
    | with_reducible assumption
    | with_reducible apply State.progress_rel
    | with_reducible apply State.receiveMgmt_rel
    | with_reducible apply State.takeDigest_rel
    | intro _
    | split
    | dsimp only

theorem State.digestAgain_rel {b_ : Bool} {s₀ : State} (s : State) (p : Nat) (h_s : s₀.Rel b_ s) :
    s₀.Rel b_ (State.digestAgain s p) := by
  unfold State.digestAgain
  repeat'
    first
    | with_reducible assumption
    | with_reducible apply State.sendRecord_rel
    | split
    | dsimp only

theorem execDigestRetry_rel {b_ : Bool} {s₀ : State} (l : LaneId) (s : State) {t_ : State} (h_s : s₀.Rel b_ s) (e_ : execDigestRetry l s = .next t_) :
    s₀.Rel b_ t_ := by
  unfold execDigestRetry at e_
  injection e_ with e_
  subst e_
  repeat'
    first
    | with_reducible assumption
    | with_reducible apply State.digestAgain_rel
    | dsimp only

theorem execDigestTimeout_rel {b_ : Bool} {s₀ : State} (l : LaneId) (s : State) {t_ : State} (h_s : s₀.Rel b_ s) (e_ : execDigestTimeout l s = .next t_) :
    s₀.Rel b_ t_ := by
  unfold execDigestTimeout at e_
  injection e_ with e_
  subst e_
  repeat'
    first
    | with_reducible assumption
    | with_reducible apply State.quarantine_rel
    | split
    | dsimp only

theorem State.profileCtrlWrite_rel {b_ : Bool} {s₀ : State} (s : State) (w : Word) (h_s : s₀.Rel b_ s) :
    s₀.Rel b_ (State.profileCtrlWrite s w) := by
  unfold State.profileCtrlWrite
  repeat'
    first
    | with_reducible assumption
    | with_reducible apply State.progress_rel
    | with_reducible apply State.sendDigest_rel
    | with_reducible apply State.setFlag_rel
    | with_reducible apply State.wr_rel
    | with_reducible apply State.rel_foldl
    | intro _
    | split
    | dsimp only

theorem execProfileValid_rel {b_ : Bool} {s₀ : State} (w : Word) (s : State) {t_ : State} (h_s : s₀.Rel b_ s) (e_ : execProfileValid w s = .next t_) :
    s₀.Rel b_ t_ := by
  unfold execProfileValid at e_
  injection e_ with e_
  subst e_
  repeat'
    first
    | with_reducible assumption
    | with_reducible apply State.profileCtrlWrite_rel
    | with_reducible apply State.setup_rel
    | dsimp only

theorem State.unpowered_rel {s₀ : State} (s : State) (h_s : s₀.Rel false s) :
    s₀.Rel false (State.unpowered s) := by
  unfold State.unpowered
  exact ⟨⟨h_s.keeps.fuses, h_s.keeps.pending, fun _ => rfl, fun _ => rfl⟩, by simp⟩

theorem execVddAonRemoval_rel {s₀ : State} (s : State) {t_ : State} (h_s : s₀.Rel false s) (e_ : execVddAonRemoval s = .next t_) :
    s₀.Rel false t_ := by
  unfold execVddAonRemoval at e_
  injection e_ with e_
  subst e_
  repeat'
    first
    | with_reducible assumption
    | with_reducible apply State.unpowered_rel
    | dsimp only

theorem execRailOutOfRange_rel {s₀ : State} (rail : Fin 7) (s : State) {t_ : State} (h_s : s₀.Rel false s) (e_ : execRailOutOfRange rail s = .next t_) :
    s₀.Rel false t_ := by
  unfold execRailOutOfRange at e_
  split at e_
  · contradiction
  · injection e_ with e_
    subst e_
    repeat' split
    · exact State.unpowered_rel s h_s
    · exact ⟨⟨h_s.keeps.fuses, h_s.keeps.pending, h_s.keeps.regsOk, fun _ => rfl⟩, by simp⟩
    · exact h_s

theorem execTestAccessInstruction_rel {b_ : Bool} {s₀ : State} (i : TapInstr) (s : State) {t_ : State} (h_s : s₀.Rel b_ s) (e_ : execTestAccessInstruction i s = .next t_) :
    s₀.Rel b_ t_ := by
  unfold execTestAccessInstruction at e_
  injection e_ with e_
  subst e_
  repeat'
    first
    | with_reducible assumption
    | simp only [State.rel_mk]
    | split

theorem State.showXsrc_rel {b_ : Bool} {s₀ : State} (s : State) (r : XRec) (h_s : s₀.Rel b_ s) :
    s₀.Rel b_ (State.showXsrc s r) := by
  unfold State.showXsrc
  repeat'
    first
    | with_reducible assumption
    | with_reducible apply State.wr_rel
    | dsimp only

theorem State.xsrcCmdWrite_rel {b_ : Bool} {s₀ : State} (s : State) (w : Word) (h_s : s₀.Rel b_ s) :
    s₀.Rel b_ (State.xsrcCmdWrite s w) := by
  unfold State.xsrcCmdWrite
  repeat'
    first
    | with_reducible assumption
    | with_reducible apply State.setFlag_rel
    | with_reducible apply State.setFld_rel
    | with_reducible apply State.setXrec_rel
    | with_reducible apply State.showXsrc_rel
    | split
    | dsimp only

theorem execXsrcRead_rel {b_ : Bool} {s₀ : State} (w : Word) (s : State) {t_ : State} (h_s : s₀.Rel b_ s) (e_ : execXsrcRead w s = .next t_) :
    s₀.Rel b_ t_ := by
  unfold execXsrcRead at e_
  injection e_ with e_
  subst e_
  repeat'
    first
    | with_reducible assumption
    | with_reducible apply State.setup_rel
    | with_reducible apply State.xsrcCmdWrite_rel
    | dsimp only

theorem execXsrcWrite_rel {b_ : Bool} {s₀ : State} (w : Word) (s : State) {t_ : State} (h_s : s₀.Rel b_ s) (e_ : execXsrcWrite w s = .next t_) :
    s₀.Rel b_ t_ := by
  unfold execXsrcWrite at e_
  injection e_ with e_
  subst e_
  repeat'
    first
    | with_reducible assumption
    | with_reducible apply State.setup_rel
    | with_reducible apply State.xsrcCmdWrite_rel
    | dsimp only

theorem State.windowRead_rel {b_ : Bool} {s₀ : State} (s : State) (n slot : Nat) (h_s : s₀.Rel b_ s) :
    s₀.Rel b_ (State.windowRead s n slot) := by
  unfold State.windowRead
  repeat'
    first
    | with_reducible assumption
    | with_reducible apply State.chunkSource_rel
    | with_reducible apply State.needContext_rel
    | simp only [State.rel_mk]
    | with_reducible apply State.rel_foldl
    | intro _
    | split
    | with_reducible refine State.rel_fst (by assumption) ?_

theorem execWindowPayloadRead_rel {b_ : Bool} {s₀ : State} (n : Fin 4096) (slot : Nat) (s : State) {t_ : State} (h_s : s₀.Rel b_ s) (e_ : execWindowPayloadRead n slot s = .next t_) :
    s₀.Rel b_ t_ := by
  unfold execWindowPayloadRead at e_
  injection e_ with e_
  subst e_
  repeat'
    first
    | with_reducible assumption
    | with_reducible apply State.windowRead_rel
    | split
    | dsimp only

theorem State.fillWindow_rel {b_ : Bool} {s₀ : State} (s : State) (dst most : Nat) (x0 : List HostRead) (h_s : s₀.Rel b_ s) :
    s₀.Rel b_ (State.fillWindow s dst most x0) := by
  induction x0 generalizing s most with
  | nil =>
    unfold State.fillWindow
    repeat'
      first
      | with_reducible assumption
      | with_reducible apply State.chunkSource_rel
      | with_reducible apply State.sendChunk_rel
      | split
      | dsimp only
      | with_reducible refine State.rel_fst (by assumption) ?_
  | cons a_ l_ ih_ =>
    unfold State.fillWindow
    repeat'
      first
      | with_reducible assumption
      | with_reducible apply State.chunkSource_rel
      | with_reducible apply State.sendChunk_rel
      | split
      | dsimp only
      | with_reducible refine State.rel_fst (by assumption) ?_
      | with_reducible apply ih_

theorem State.resendFirst_rel {b_ : Bool} {s₀ : State} (s : State) (l : List CellRef) (h_s : s₀.Rel b_ s) :
    s₀.Rel b_ (State.resendFirst s l) := by
  unfold State.resendFirst
  repeat'
    first
    | with_reducible assumption
    | with_reducible apply State.modConn_rel
    | simp only [State.rel_mk]
    | with_reducible apply State.rel_foldl
    | intro _
    | split

theorem State.dropTransit_rel {b_ : Bool} {s₀ : State} (s : State) (c : Cell) (e k p : Nat) (h_s : s₀.Rel b_ s) :
    s₀.Rel b_ (State.dropTransit s c e k p) := by
  unfold State.dropTransit
  repeat'
    first
    | with_reducible assumption
    | with_reducible apply State.bump_rel
    | with_reducible apply State.reportDown_rel
    | dsimp only

theorem State.collide_rel {b_ : Bool} {s₀ : State} (s : State) (info : Nat) (h_s : s₀.Rel b_ s) :
    s₀.Rel b_ (State.collide s info) := by
  unfold State.collide
  repeat'
    first
    | with_reducible assumption
    | with_reducible apply State.bump_rel
    | with_reducible apply State.raise_rel
    | dsimp only

theorem State.putTransit_rel {b_ : Bool} {s₀ : State} (s : State) (p t : Nat) (c : Cell) (info : Nat) (h_s : s₀.Rel b_ s) :
    s₀.Rel b_ (State.putTransit s p t c info) := by
  unfold State.putTransit
  repeat'
    first
    | with_reducible assumption
    | with_reducible refine State.rel_some (by assumption) (State.claimOutput_rel _ _ _ _ _ ?_)
    | with_reducible apply State.collide_rel
    | split
    | dsimp only

theorem State.emitWindow_rel {b_ : Bool} {s₀ : State} (s : State) (p e k n slot : Nat) (cells : List Cell) (h_s : s₀.Rel b_ s) :
    s₀.Rel b_ (State.emitWindow s p e k n slot cells) := by
  unfold State.emitWindow
  repeat'
    first
    | with_reducible assumption
    | with_reducible apply State.dropTransit_rel
    | with_reducible apply State.putTransit_rel
    | with_reducible apply State.rel_foldl
    | intro _
    | split
    | dsimp only

theorem State.sendWindow_rel {b_ : Bool} {s₀ : State} (s : State) (e n slot : Nat) (r : XRec) (data : List HostRead) (h_s : s₀.Rel b_ s) :
    s₀.Rel b_ (State.sendWindow s e n slot r data) := by
  unfold State.sendWindow
  repeat'
    first
    | with_reducible assumption
    | with_reducible apply State.emitWindow_rel
    | with_reducible apply State.fillWindow_rel
    | with_reducible apply State.markLater_rel
    | with_reducible apply State.occur_rel
    | with_reducible apply State.rememberWindow_rel
    | with_reducible apply State.resendFirst_rel
    | with_reducible apply State.take_rel
    | simp only [State.rel_mk]
    | split

theorem State.windowSource_rel {b_ : Bool} {s₀ : State} (s : State) (n slot : Nat) (data : List HostRead) (h_s : s₀.Rel b_ s) :
    s₀.Rel b_ (State.windowSource s n slot data) := by
  unfold State.windowSource
  repeat'
    first
    | with_reducible assumption
    | with_reducible apply State.sendWindow_rel
    | split
    | dsimp only

theorem execWindowSource_rel {b_ : Bool} {s₀ : State} (n : Fin 4096) (slot : Nat) (data : List HostRead) (s : State) {t_ : State} (h_s : s₀.Rel b_ s) (e_ : execWindowSource n slot data s = .next t_) :
    s₀.Rel b_ t_ := by
  unfold execWindowSource at e_
  injection e_ with e_
  subst e_
  repeat'
    first
    | with_reducible assumption
    | with_reducible apply State.windowSource_rel
    | dsimp only

theorem State.takeMark_rel {b_ : Bool} {s₀ : State} (s : State) (p : Nat) (d : BitVec 16) (h_s : s₀.Rel b_ s) :
    s₀.Rel b_ (State.takeMark s p d) := by
  unfold State.takeMark
  repeat'
    first
    | with_reducible assumption
    | with_reducible apply State.markLater_rel
    | simp only [State.rel_mk]
    | split

theorem execMark_rel {b_ : Bool} {s₀ : State} (l : LaneId) (data : BitVec 16) (s : State) {t_ : State} (h_s : s₀.Rel b_ s) (e_ : execMark l data s = .next t_) :
    s₀.Rel b_ t_ := by
  unfold execMark at e_
  injection e_ with e_
  subst e_
  repeat'
    first
    | with_reducible assumption
    | with_reducible apply State.heard_rel
    | with_reducible apply State.takeMark_rel
    | split
    | dsimp only

theorem State.switchTransit_rel {b_ : Bool} {s₀ : State} (s : State) (p : Nat) (w : Window) (c : Cell) (h_s : s₀.Rel b_ s) :
    s₀.Rel b_ (State.switchTransit s p w c) := by
  unfold State.switchTransit
  repeat'
    first
    | with_reducible assumption
    | with_reducible apply State.bump_rel
    | with_reducible refine State.rel_some (by assumption) (State.claimOutput_rel _ _ _ _ _ ?_)
    | with_reducible apply State.collide_rel
    | with_reducible apply State.drawn_rel
    | with_reducible apply State.dropTransit_rel
    | with_reducible apply State.rememberWindow_rel
    | simp only [State.rel_mk]
    | split

theorem State.takeTransitCell_rel {b_ : Bool} {s₀ : State} (s : State) (p : Nat) (c : Cell) (h_s : s₀.Rel b_ s) :
    s₀.Rel b_ (State.takeTransitCell s p c) := by
  unfold State.takeTransitCell
  repeat'
    first
    | with_reducible assumption
    | with_reducible apply State.bump_rel
    | with_reducible apply State.switchTransit_rel
    | simp only [State.rel_mk]
    | split

theorem execTransitCell_rel {b_ : Bool} {s₀ : State} (l : LaneId) (c : Cell) (s : State) {t_ : State} (h_s : s₀.Rel b_ s) (e_ : execTransitCell l c s = .next t_) :
    s₀.Rel b_ t_ := by
  unfold execTransitCell at e_
  injection e_ with e_
  subst e_
  repeat'
    first
    | with_reducible assumption
    | with_reducible apply State.takeTransitCell_rel
    | dsimp only

theorem State.transitDown_rel {b_ : Bool} {s₀ : State} (s : State) (e k : Nat) (h_s : s₀.Rel b_ s) :
    s₀.Rel b_ (State.transitDown s e k) := by
  unfold State.transitDown
  repeat'
    first
    | with_reducible assumption
    | with_reducible apply State.backupFailed_rel
    | with_reducible apply State.backupSwitch_rel
    | with_reducible apply State.rel_foldl
    | intro _
    | dsimp only

theorem execTransitDown_rel {b_ : Bool} {s₀ : State} (c : Cell) (s : State) {t_ : State} (h_s : s₀.Rel b_ s) (e_ : execTransitDown c s = .next t_) :
    s₀.Rel b_ t_ := by
  unfold execTransitDown at e_
  injection e_ with e_
  subst e_
  repeat'
    first
    | with_reducible assumption
    | with_reducible apply State.receiveMgmt_rel
    | with_reducible apply State.transitDown_rel
    | intro _
    | dsimp only

theorem execLaneHold_rel {b_ : Bool} {s₀ : State} (l : LaneId) (hold : Bool) (s : State) {t_ : State} (h_s : s₀.Rel b_ s) (e_ : execLaneHold l hold s = .next t_) :
    s₀.Rel b_ t_ := by
  unfold execLaneHold at e_
  injection e_ with e_
  subst e_
  repeat'
    first
    | with_reducible assumption
    | with_reducible apply State.startExitOf_rel
    | simp only [State.rel_mk]
    | split

theorem execScheduleWake_rel {b_ : Bool} {s₀ : State} (l : LaneId) (s : State) {t_ : State} (h_s : s₀.Rel b_ s) (e_ : execScheduleWake l s = .next t_) :
    s₀.Rel b_ t_ := by
  unfold execScheduleWake at e_
  injection e_ with e_
  subst e_
  repeat'
    first
    | with_reducible assumption
    | with_reducible apply State.startExitOf_rel
    | with_reducible apply State.wakeEvent_rel
    | split
    | dsimp only

theorem State.endpointWrite_rel {b_ : Bool} {s₀ : State} (s : State) (w : Word) (h_s : s₀.Rel b_ s) :
    s₀.Rel b_ (State.endpointWrite s w) := by
  unfold State.endpointWrite
  repeat'
    first
    | with_reducible assumption
    | with_reducible apply State.wr_rel
    | split
    | dsimp only

theorem execEndpointWrite_rel {b_ : Bool} {s₀ : State} (w : Word) (s : State) {t_ : State} (h_s : s₀.Rel b_ s) (e_ : execEndpointWrite w s = .next t_) :
    s₀.Rel b_ t_ := by
  unfold execEndpointWrite at e_
  injection e_ with e_
  subst e_
  repeat'
    first
    | with_reducible assumption
    | with_reducible apply State.endpointWrite_rel
    | with_reducible apply State.setup_rel
    | dsimp only

theorem execRoute_rel {b_ : Bool} {s₀ : State} (k : Nat) (s : State) {t_ : State} (h_s : s₀.Rel b_ s) (e_ : execRoute k s = .next t_) :
    s₀.Rel b_ t_ := by
  unfold execRoute at e_
  injection e_ with e_
  subst e_
  repeat'
    first
    | with_reducible assumption
    | with_reducible apply State.routeCell_rel
    | simp only [State.rel_mk]
    | split

theorem State.takeDrain_rel {b_ : Bool} {s₀ : State} (s : State) (p : Nat) (c : Cell) (h_s : s₀.Rel b_ s) :
    s₀.Rel b_ (State.takeDrain s p c) := by
  unfold State.takeDrain
  repeat'
    first
    | with_reducible assumption
    | with_reducible apply State.drainEpoch_rel
    | simp only [State.rel_mk]
    | split

theorem execDrain_rel {b_ : Bool} {s₀ : State} (l : LaneId) (c : Cell) (s : State) {t_ : State} (h_s : s₀.Rel b_ s) (e_ : execDrain l c s = .next t_) :
    s₀.Rel b_ t_ := by
  unfold execDrain at e_
  injection e_ with e_
  subst e_
  repeat'
    first
    | with_reducible assumption
    | with_reducible apply State.receiveMgmt_rel
    | with_reducible apply State.takeDrain_rel
    | intro _
    | split
    | dsimp only

theorem State.forceRetire_rel {b_ : Bool} {s₀ : State} (s : State) (e : Nat) (h_s : s₀.Rel b_ s) :
    s₀.Rel b_ (State.forceRetire s e) := by
  unfold State.forceRetire
  repeat'
    first
    | with_reducible assumption
    | with_reducible apply State.dropStamped_rel
    | with_reducible apply State.sendDrain_rel
    | with_reducible apply State.setFld_rel
    | with_reducible apply State.setRepoch_rel
    | with_reducible apply State.rel_foldl
    | intro _
    | split
    | dsimp only

theorem execForcedRetirement_rel {b_ : Bool} {s₀ : State} (s : State) {t_ : State} (h_s : s₀.Rel b_ s) (e_ : execForcedRetirement s = .next t_) :
    s₀.Rel b_ t_ := by
  unfold execForcedRetirement at e_
  injection e_ with e_
  subst e_
  repeat'
    first
    | with_reducible assumption
    | with_reducible apply State.forceRetire_rel
    | dsimp only

theorem State.faultWrite_rel {b_ : Bool} {s₀ : State} (s : State) (b a : Nat) (w : Word) (h_s : s₀.Rel b_ s) :
    s₀.Rel b_ (State.faultWrite s b a w) := by
  unfold State.faultWrite
  repeat'
    first
    | with_reducible assumption
    | with_reducible apply State.clearFirst_rel
    | with_reducible apply State.clearStatus_rel
    | with_reducible apply State.clearUnack_rel
    | with_reducible apply State.forceSources_rel
    | with_reducible apply State.setFld_rel
    | with_reducible apply State.wr_rel
    | split
    | dsimp only

theorem State.plainWrite_rel {b_ : Bool} {s₀ : State} (s : State) (r : RegRow) (a : Nat) (w : Word) (h_s : s₀.Rel b_ s) :
    s₀.Rel b_ (State.plainWrite s r a w) := by
  unfold State.plainWrite
  repeat'
    first
    | with_reducible assumption
    | with_reducible apply State.wr_rel
    | dsimp only

theorem State.routeCtrlWrite_rel {b_ : Bool} {s₀ : State} (s : State) (w : Word) (h_s : s₀.Rel b_ s) :
    s₀.Rel b_ (State.routeCtrlWrite s w) := by
  unfold State.routeCtrlWrite
  repeat'
    first
    | with_reducible assumption
    | with_reducible apply State.wr_rel
    | split
    | dsimp only

theorem State.retryWrite_rel {b_ : Bool} {s₀ : State} (s : State) (c : Nat) (w : Word) (h_s : s₀.Rel b_ s) :
    s₀.Rel b_ (State.retryWrite s c w) := by
  unfold State.retryWrite
  repeat'
    first
    | with_reducible assumption
    | with_reducible apply State.wr_rel
    | split
    | dsimp only

theorem State.hostPathWrite_rel {b_ : Bool} {s₀ : State} (s : State) (w : Word) (h_s : s₀.Rel b_ s) :
    s₀.Rel b_ (State.hostPathWrite s w) := by
  unfold State.hostPathWrite
  repeat'
    first
    | with_reducible assumption
    | with_reducible apply State.wr_rel
    | with_reducible apply State.rel_foldl
    | intro _
    | split
    | dsimp only

theorem State.jrnlCtrlWrite_rel {b_ : Bool} {s₀ : State} (s : State) (w : Word) (h_s : s₀.Rel b_ s) :
    s₀.Rel b_ (State.jrnlCtrlWrite s w) := by
  unfold State.jrnlCtrlWrite
  repeat'
    first
    | with_reducible assumption
    | with_reducible apply State.setFld_rel
    | split
    | dsimp only

theorem State.tileCtrlWrite_rel {b_ : Bool} {s₀ : State} (s : State) (t : Nat) (w : Word) (h_s : s₀.Rel b_ s) :
    s₀.Rel b_ (State.tileCtrlWrite s t w) := by
  unfold State.tileCtrlWrite
  repeat'
    first
    | with_reducible assumption
    | with_reducible apply State.setFld_rel
    | split
    | dsimp only

theorem State.regWrite_rel {s₀ : State} (s : State) (who a : Nat) (r : RegRow) (i j : Nat) (w : Word) (h_s : s₀.Rel false s) :
    s₀.Rel false (State.regWrite s who a r i j w) := by
  unfold State.regWrite
  repeat'
    first
    | with_reducible assumption
    | with_reducible apply State.aqCtrlWrite_rel
    | with_reducible apply State.cntCtrlWrite_rel
    | with_reducible apply State.cntSelWrite_rel
    | with_reducible apply State.cntValWrite_rel
    | with_reducible apply State.endpointWrite_rel
    | with_reducible apply State.extCtrlWrite_rel
    | with_reducible apply State.hostPathWrite_rel
    | with_reducible apply State.hptCtrlWrite_rel
    | with_reducible apply State.instMapWrite_rel
    | with_reducible apply State.jrnlCtrlWrite_rel
    | with_reducible apply State.laneCtrlWrite_rel
    | with_reducible apply State.lkWrite_rel
    | with_reducible apply State.memCtrlWrite_rel
    | with_reducible apply State.mgtCtrlWrite_rel
    | with_reducible apply State.ownerCtrlWrite_rel
    | with_reducible apply State.plainWrite_rel
    | with_reducible apply State.polCtrlWrite_rel
    | with_reducible apply State.polWrite_rel
    | with_reducible apply State.profileCtrlWrite_rel
    | with_reducible apply State.progress_rel
    | with_reducible apply State.requestTile_rel
    | with_reducible apply State.retryWrite_rel
    | with_reducible apply State.routeCtrlWrite_rel
    | with_reducible apply State.tileCtrlWrite_rel
    | with_reducible apply State.timCtrlWrite_rel
    | with_reducible apply State.xltCtrlWrite_rel
    | with_reducible apply State.xsrcCmdWrite_rel
    | with_reducible refine State.rel_ite ?_ ?_
    | split
    | dsimp only

theorem State.wideWrite_rel {b_ : Bool} {s₀ : State} (s : State) (r : RegRow) (i j a : Nat) (v : Word64) (h_s : s₀.Rel b_ s) :
    s₀.Rel b_ (State.wideWrite s r i j a v) := by
  unfold State.wideWrite
  repeat'
    first
    | with_reducible assumption
    | with_reducible apply State.memHostBaseWrite_rel
    | with_reducible apply State.wr64_rel
    | simp only [State.rel_mk]
    | split

theorem State.dropHalf_rel {b_ : Bool} {s₀ : State} (s : State) (who : Nat) (h_s : s₀.Rel b_ s) :
    s₀.Rel b_ (State.dropHalf s who) := by
  unfold State.dropHalf
  repeat'
    first
    | with_reducible assumption
    | with_reducible apply State.modRequester_rel
    | simp only [State.rel_mk]

theorem State.write4_rel {s₀ : State} (s : State) (who a : Nat) (w : Word) (h_s : s₀.Rel false s) :
    s₀.Rel false (State.write4 s who a w) := by
  unfold State.write4
  repeat'
    first
    | with_reducible assumption
    | with_reducible apply State.dropHalf_rel
    | with_reducible apply State.faultWrite_rel
    | with_reducible apply State.modRequester_rel
    | with_reducible apply State.regWrite_rel
    | with_reducible apply State.wideWrite_rel
    | simp only [State.rel_mk]
    | split

theorem State.write8_rel {s₀ : State} (s : State) (who a : Nat) (v : Word64) (h_s : s₀.Rel false s) :
    s₀.Rel false (State.write8 s who a v) := by
  unfold State.write8
  repeat'
    first
    | with_reducible assumption
    | with_reducible apply State.dropHalf_rel
    | with_reducible apply State.wideWrite_rel
    | with_reducible apply State.write4_rel
    | split
    | dsimp only

theorem State.accessWrite_rel {s₀ : State} (s : State) (who a n : Nat) (v : Word64) (h_s : s₀.Rel false s) :
    s₀.Rel false (State.accessWrite s who a n v) := by
  unfold State.accessWrite
  repeat'
    first
    | with_reducible assumption
    | with_reducible apply State.write4_rel
    | with_reducible apply State.write8_rel
    | split
    | dsimp only

theorem State.read4_rel {b_ : Bool} {s₀ : State} (s : State) (who a : Nat) (h_s : s₀.Rel b_ s) :
    s₀.Rel b_ (State.read4 s who a).1 := by
  unfold State.read4
  repeat'
    first
    | with_reducible assumption
    | with_reducible apply State.cntValRead_rel
    | with_reducible apply State.latchFor_rel
    | with_reducible apply State.latched_rel
    | with_reducible apply State.setFlag_rel
    | with_reducible apply State.timNowRead_rel
    | split
    | dsimp only
    | with_reducible refine State.rel_fst (by assumption) ?_

theorem State.accessRead_rel {s₀ : State} (s : State) (who a n : Nat) (h_s : s₀.Rel false s) :
    s₀.Rel false (State.accessRead s who a n) := by
  unfold State.accessRead
  repeat'
    first
    | with_reducible assumption
    | with_reducible apply State.answer_rel
    | with_reducible apply State.lkRead_rel
    | with_reducible apply State.read4_rel
    | simp only [State.rel_mk]
    | split
    | with_reducible refine State.rel_fst (by assumption) ?_

theorem execRegisterWrite_rel {s₀ : State} (p : PortId) (a n : Nat) (v : Word64) (view : View) (s : State) {t_ : State} (h_s : s₀.Rel false s) (e_ : execRegisterWrite p a n v view s = .next t_) :
    s₀.Rel false t_ := by
  unfold execRegisterWrite at e_
  injection e_ with e_
  subst e_
  repeat'
    first
    | with_reducible assumption
    | with_reducible apply State.accessWrite_rel
    | with_reducible apply State.see_rel
    | dsimp only

theorem execLowHalfRead_rel {s₀ : State} (p : PortId) (a n : Nat) (view : View) (s : State) {t_ : State} (h_s : s₀.Rel false s) (e_ : execLowHalfRead p a n view s = .next t_) :
    s₀.Rel false t_ := by
  unfold execLowHalfRead at e_
  injection e_ with e_
  subst e_
  repeat'
    first
    | with_reducible assumption
    | with_reducible apply State.accessRead_rel
    | with_reducible apply State.see_rel
    | dsimp only

theorem State.sbStatus_rel {b_ : Bool} {s₀ : State} (s : State) (n : Nat) (h_s : s₀.Rel b_ s) :
    s₀.Rel b_ (State.sbStatus s n) := by
  unfold State.sbStatus
  repeat'
    first
    | with_reducible assumption
    | simp only [State.rel_mk]

theorem State.sbBad_rel {b_ : Bool} {s₀ : State} (s : State) (h_s : s₀.Rel b_ s) :
    s₀.Rel b_ (State.sbBad s) := by
  unfold State.sbBad
  repeat'
    first
    | with_reducible assumption
    | with_reducible apply State.raise_rel
    | with_reducible apply State.sbStatus_rel
    | dsimp only

theorem State.sbCount_rel {b_ : Bool} {s₀ : State} (s : State) (h_s : s₀.Rel b_ s) :
    s₀.Rel b_ (State.sbCount s) := by
  unfold State.sbCount
  repeat'
    first
    | with_reducible assumption
    | with_reducible apply State.occur_rel
    | dsimp only

theorem State.sbTake_rel {b_ : Bool} {s₀ : State} (s : State) (ok writes : Bool) (run : State → State) (h_s : s₀.Rel b_ s) (h_run : ∀ y0, s₀.Rel b_ y0 → s₀.Rel b_ (run y0)) :
    s₀.Rel b_ (State.sbTake s ok writes run) := by
  unfold State.sbTake
  repeat'
    first
    | with_reducible assumption
    | with_reducible apply h_run
    | with_reducible apply State.sbBad_rel
    | with_reducible apply State.sbStatus_rel
    | split
    | dsimp only

theorem execRegRead_rel {b_ : Bool} {s₀ : State} (ok : Bool) (a : BitVec 24) (s : State) {t_ : State} (h_s : s₀.Rel b_ s) (e_ : execRegRead ok a s = .next t_) :
    s₀.Rel b_ t_ := by
  unfold execRegRead at e_
  injection e_ with e_
  subst e_
  repeat'
    first
    | with_reducible assumption
    | with_reducible apply State.read4_rel
    | with_reducible apply State.sbCount_rel
    | with_reducible apply State.sbTake_rel
    | simp only [State.rel_mk]
    | intro _
    | with_reducible refine State.rel_fst (by assumption) ?_

theorem execRegWrite_rel {s₀ : State} (ok : Bool) (a : BitVec 24) (w : Word) (v : View) (s : State) {t_ : State} (h_s : s₀.Rel false s) (e_ : execRegWrite ok a w v s = .next t_) :
    s₀.Rel false t_ := by
  unfold execRegWrite at e_
  injection e_ with e_
  subst e_
  repeat'
    first
    | with_reducible assumption
    | with_reducible apply State.sbCount_rel
    | with_reducible apply State.sbStatus_rel
    | with_reducible apply State.sbTake_rel
    | with_reducible apply State.see_rel
    | with_reducible apply State.write4_rel
    | intro _
    | dsimp only

theorem State.imageOpen_rel {b_ : Bool} {s₀ : State} (s : State) (kind n len crc plan : Nat) (h_s : s₀.Rel b_ s) :
    s₀.Rel b_ (State.imageOpen s kind n len crc plan) := by
  unfold State.imageOpen
  repeat'
    first
    | with_reducible assumption
    | with_reducible apply State.sbStatus_rel
    | with_reducible apply State.setEpochOf_rel
    | simp only [State.rel_mk]
    | split

theorem State.sbLive_rel {b_ : Bool} {s₀ : State} (s : State) (run : State → State) (h_s : s₀.Rel b_ s) (h_run : ∀ y0, s₀.Rel b_ y0 → s₀.Rel b_ (run y0)) :
    s₀.Rel b_ (State.sbLive s run) := by
  unfold State.sbLive
  repeat'
    first
    | with_reducible assumption
    | with_reducible apply h_run
    | with_reducible apply State.sbStatus_rel
    | split
    | dsimp only

theorem execImageOpen_rel {b_ : Bool} {s₀ : State} (ok : Bool) (target : BitVec 8) (len crc plan : Word) (s : State) {t_ : State} (h_s : s₀.Rel b_ s) (e_ : execImageOpen ok target len crc plan s = .next t_) :
    s₀.Rel b_ t_ := by
  unfold execImageOpen at e_
  injection e_ with e_
  subst e_
  repeat'
    first
    | with_reducible assumption
    | with_reducible apply State.imageOpen_rel
    | with_reducible apply State.sbCount_rel
    | with_reducible apply State.sbLive_rel
    | with_reducible apply State.sbTake_rel
    | intro _
    | split
    | dsimp only

theorem State.setImageBytes_rel {b_ : Bool} {s₀ : State} (s : State) (o : SbImage) (x : Nat) (h_s : s₀.Rel b_ s) :
    s₀.Rel b_ (State.setImageBytes s o x) := by
  unfold State.setImageBytes
  repeat'
    first
    | with_reducible assumption
    | simp only [State.rel_mk]
    | split

theorem State.imageData_rel {b_ : Bool} {s₀ : State} (s : State) (off : Nat) (data : List (BitVec 8)) (h_s : s₀.Rel b_ s) :
    s₀.Rel b_ (State.imageData s off data) := by
  unfold State.imageData
  repeat'
    first
    | with_reducible assumption
    | with_reducible apply State.sbStatus_rel
    | with_reducible apply State.setEpochOf_rel
    | with_reducible apply State.setImageBytes_rel
    | split
    | dsimp only

theorem execImageData_rel {b_ : Bool} {s₀ : State} (ok : Bool) (off : Word) (data : List (BitVec 8)) (s : State) {t_ : State} (h_s : s₀.Rel b_ s) (e_ : execImageData ok off data s = .next t_) :
    s₀.Rel b_ t_ := by
  unfold execImageData at e_
  injection e_ with e_
  subst e_
  repeat'
    first
    | with_reducible assumption
    | with_reducible apply State.imageData_rel
    | with_reducible apply State.sbCount_rel
    | with_reducible apply State.sbLive_rel
    | with_reducible apply State.sbTake_rel
    | intro _
    | dsimp only

theorem State.keepCopy_rel {b_ : Bool} {s₀ : State} (s : State) (o : SbImage) (img : Nat) (h_s : s₀.Rel b_ s) :
    s₀.Rel b_ (State.keepCopy s o img) := by
  unfold State.keepCopy
  repeat'
    first
    | with_reducible assumption
    | with_reducible apply State.jrnlChip_rel
    | simp only [State.rel_mk, State.rel_mk_ram]

theorem State.imageClose_rel {b_ : Bool} {s₀ : State} (s : State) (h_s : s₀.Rel b_ s) :
    s₀.Rel b_ (State.imageClose s) := by
  unfold State.imageClose
  repeat'
    first
    | with_reducible assumption
    | with_reducible apply State.keepCopy_rel
    | with_reducible apply State.loadEpoch_rel
    | with_reducible apply State.loadTable_rel
    | with_reducible apply State.sbStatus_rel
    | simp only [State.rel_mk]
    | split

theorem execImageClose_rel {b_ : Bool} {s₀ : State} (ok : Bool) (s : State) {t_ : State} (h_s : s₀.Rel b_ s) (e_ : execImageClose ok s = .next t_) :
    s₀.Rel b_ t_ := by
  unfold execImageClose at e_
  injection e_ with e_
  subst e_
  repeat'
    first
    | with_reducible assumption
    | with_reducible apply State.imageClose_rel
    | with_reducible apply State.sbCount_rel
    | with_reducible apply State.sbLive_rel
    | with_reducible apply State.sbStatus_rel
    | with_reducible apply State.sbTake_rel
    | intro _
    | split
    | dsimp only

theorem State.runByCode_rel {s₀ : State} (s : State) (e : Entry) (h_s : s₀.Rel false s) :
    s₀.Rel false (State.runByCode s e).st := by
  unfold State.runByCode
  repeat'
    first
    | with_reducible assumption
    | with_reducible apply State.armRun_rel
    | with_reducible apply State.configureRun_rel
    | with_reducible apply State.createConnection_rel
    | with_reducible apply State.createPd_rel
    | with_reducible apply State.createQueue_rel
    | with_reducible apply State.deregisterRegion_rel
    | with_reducible apply State.destroyConnection_rel
    | with_reducible apply State.destroyGroup_rel
    | with_reducible apply State.destroyPd_rel
    | with_reducible apply State.destroyQueue_rel
    | with_reducible apply State.installKeyRun_rel
    | with_reducible apply State.invalidateRun_rel
    | with_reducible apply State.registerRegion_rel
    | with_reducible apply State.resetRun_rel
    | with_reducible apply State.setInstancesRun_rel
    | with_reducible apply State.switchEpoch_rel
    | with_reducible refine State.rel_ite_st ?_ ?_
    | split
    | dsimp only

theorem State.sbAdmin_rel {s₀ : State} (s : State) (e : Entry) (h_s : s₀.Rel false s) :
    s₀.Rel false (State.sbAdmin s e) := by
  unfold State.sbAdmin
  repeat'
    first
    | with_reducible assumption
    | with_reducible apply State.adminRun_rel
    | with_reducible apply State.countGroup_rel
    | with_reducible apply State.drawn_rel
    | with_reducible apply State.jrnlChip_rel
    | with_reducible apply State.putAdmin_rel
    | with_reducible apply State.runByCode_rel
    | with_reducible apply State.sbCount_rel
    | with_reducible apply State.sbStatus_rel
    | with_reducible apply State.wakeEvent_rel
    | intro _
    | split
    | dsimp only

theorem execAdmin_rel {s₀ : State} (ok : Bool) (e : Entry) (v : View) (s : State) {t_ : State} (h_s : s₀.Rel false s) (e_ : execAdmin ok e v s = .next t_) :
    s₀.Rel false t_ := by
  unfold execAdmin at e_
  injection e_ with e_
  subst e_
  repeat'
    first
    | with_reducible assumption
    | with_reducible apply State.sbAdmin_rel
    | with_reducible apply State.sbLive_rel
    | with_reducible apply State.sbStatus_rel
    | with_reducible apply State.sbTake_rel
    | with_reducible apply State.see_rel
    | intro _
    | split
    | dsimp only

theorem execDeviceReset_rel {b_ : Bool} {s₀ : State} (ok : Bool) (s : State) {t_ : State} (h_s : s₀.Rel b_ s) (e_ : execDeviceReset ok s = .next t_) :
    s₀.Rel b_ t_ := by
  unfold execDeviceReset at e_
  injection e_ with e_
  subst e_
  repeat'
    first
    | with_reducible assumption
    | with_reducible apply State.askReset_rel
    | with_reducible apply State.sbCount_rel
    | with_reducible apply State.sbStatus_rel
    | with_reducible apply State.sbTake_rel
    | intro _
    | dsimp only

theorem execSbWrite_rel {b_ : Bool} {s₀ : State} (w : Word) (s : State) {t_ : State} (h_s : s₀.Rel b_ s) (e_ : execSbWrite w s = .next t_) :
    s₀.Rel b_ t_ := by
  unfold execSbWrite at e_
  injection e_ with e_
  subst e_
  repeat'
    first
    | with_reducible assumption
    | with_reducible apply State.ownerCtrlWrite_rel
    | with_reducible apply State.setup_rel
    | dsimp only

theorem State.putInst_rel {b_ : Bool} {s₀ : State} (s : State) (x : JInst) (h_s : s₀.Rel b_ s) :
    s₀.Rel b_ (State.putInst s x) := by
  unfold State.putInst
  repeat'
    first
    | with_reducible assumption
    | with_reducible apply State.arm_rel
    | with_reducible apply State.modInst_rel
    | with_reducible apply State.setFld_rel
    | simp only [State.rel_mk]
    | split

theorem State.putImage_rel {b_ : Bool} {s₀ : State} (s : State) (m : JImage) (h_s : s₀.Rel b_ s) :
    s₀.Rel b_ (State.putImage s m) := by
  unfold State.putImage
  repeat'
    first
    | with_reducible assumption
    | with_reducible apply State.holdImage_rel
    | with_reducible apply State.setTable_rel
    | split
    | dsimp only

theorem State.putEpoch_rel {b_ : Bool} {s₀ : State} (s : State) (x : JEpoch) (h_s : s₀.Rel b_ s) :
    s₀.Rel b_ (State.putEpoch s x) := by
  unfold State.putEpoch
  repeat'
    first
    | with_reducible assumption
    | with_reducible apply State.setEpochOf_rel
    | with_reducible apply State.setFld_rel
    | with_reducible apply State.switchRoute_rel
    | with_reducible apply State.switchSched_rel
    | simp only [State.rel_mk]
    | split

theorem State.putGroup_rel {b_ : Bool} {s₀ : State} (s : State) (g : JGroup) (h_s : s₀.Rel b_ s) :
    s₀.Rel b_ (State.putGroup s g) := by
  unfold State.putGroup
  repeat'
    first
    | with_reducible assumption
    | simp only [State.rel_mk]
    | split

theorem State.putRegion_rel {b_ : Bool} {s₀ : State} (s : State) (i x w : Nat) (h_s : s₀.Rel b_ s) :
    s₀.Rel b_ (State.putRegion s i x w) := by
  unfold State.putRegion
  repeat'
    first
    | with_reducible assumption
    | simp only [State.rel_mk]

theorem State.restoreConfig_rel {b_ : Bool} {s₀ : State} (s : State) (r : Journal) (h_s : s₀.Rel b_ s) :
    s₀.Rel b_ (State.restoreConfig s r) := by
  unfold State.restoreConfig
  repeat'
    first
    | with_reducible assumption
    | with_reducible apply State.putEpoch_rel
    | with_reducible apply State.putGroup_rel
    | with_reducible apply State.putImage_rel
    | with_reducible apply State.putInst_rel
    | with_reducible apply State.putRegion_rel
    | with_reducible apply State.setFld_rel
    | simp only [State.rel_mk]
    | with_reducible apply State.rel_foldl
    | intro _

theorem State.putQueue_rel {b_ : Bool} {s₀ : State} (s : State) (q rec64 : Nat) (h_s : s₀.Rel b_ s) :
    s₀.Rel b_ (State.putQueue s q rec64) := by
  unfold State.putQueue
  repeat'
    first
    | with_reducible assumption
    | simp only [State.rel_mk]
    | split

theorem State.putConn_rel {b_ : Bool} {s₀ : State} (s : State) (c : JConn) (h_s : s₀.Rel b_ s) :
    s₀.Rel b_ (State.putConn s c) := by
  unfold State.putConn
  repeat'
    first
    | with_reducible assumption
    | simp only [State.rel_mk]
    | split

theorem State.restoreWork_rel {b_ : Bool} {s₀ : State} (s : State) (r : Journal) (h_s : s₀.Rel b_ s) :
    s₀.Rel b_ (State.restoreWork s r) := by
  unfold State.restoreWork
  repeat'
    first
    | with_reducible assumption
    | with_reducible apply State.pollBudget_rel
    | with_reducible apply State.putConn_rel
    | with_reducible apply State.putQueue_rel
    | with_reducible apply State.rel_foldl
    | intro _
    | dsimp only

theorem State.putSlot_rel {b_ : Bool} {s₀ : State} (s : State) (r : Journal) (z b : Nat) (h_s : s₀.Rel b_ s) :
    s₀.Rel b_ (State.putSlot s r z b) := by
  unfold State.putSlot
  repeat'
    first
    | with_reducible assumption
    | with_reducible apply State.modInst_rel
    | with_reducible apply State.modQueue_rel
    | simp only [State.rel_mk]
    | split

theorem State.failSlot_rel {b_ : Bool} {s₀ : State} (s : State) (z : Nat) (h_s : s₀.Rel b_ s) :
    s₀.Rel b_ (State.failSlot s z) := by
  unfold State.failSlot
  repeat'
    first
    | with_reducible assumption
    | with_reducible apply State.finishSlot_rel
    | with_reducible apply State.freeSlot_rel
    | split
    | dsimp only

theorem State.restoreStore_rel {b_ : Bool} {s₀ : State} (s : State) (h_s : s₀.Rel b_ s) :
    s₀.Rel b_ (State.restoreStore s) := by
  unfold State.restoreStore
  repeat'
    first
    | with_reducible assumption
    | with_reducible apply State.queuePull_rel
    | simp only [State.rel_mk]
    | with_reducible apply State.rel_foldl
    | intro _
    | split

theorem State.keepSeq_rel {b_ : Bool} {s₀ : State} (s : State) (z : Nat) (seq : Option Nat) (h_s : s₀.Rel b_ s) :
    s₀.Rel b_ (State.keepSeq s z seq) := by
  unfold State.keepSeq
  repeat'
    first
    | with_reducible assumption
    | simp only [State.rel_mk]
    | split

theorem State.repostUnit_rel {s₀ : State} (s : State) (z : Nat) (x : Slot) (h_s : s₀.Rel false s) :
    s₀.Rel false (State.repostUnit s z x) := by
  unfold State.repostUnit
  repeat'
    first
    | with_reducible assumption
    | with_reducible apply State.modHeld_rel
    | with_reducible apply State.modUnit_rel
    | with_reducible apply State.sendUnit_rel
    | with_reducible refine State.rel_mk_write ?_
    | simp only [State.rel_mk, State.rel_mk_ram]
    | split

theorem State.repost_rel {s₀ : State} (s : State) (z : Nat) (h_s : s₀.Rel false s) :
    s₀.Rel false (State.repost s z) := by
  unfold State.repost
  repeat'
    first
    | with_reducible assumption
    | with_reducible apply State.joinGroup_rel
    | with_reducible apply State.keepSeq_rel
    | with_reducible apply State.modSlot_rel
    | with_reducible apply State.repostUnit_rel
    | with_reducible apply State.startDesc_rel
    | simp only [State.rel_mk]
    | split

theorem State.restoreHeld_rel {b_ : Bool} {s₀ : State} (s : State) (h_s : s₀.Rel b_ s) :
    s₀.Rel b_ (State.restoreHeld s) := by
  unfold State.restoreHeld
  repeat'
    first
    | with_reducible assumption
    | simp only [State.rel_mk]

theorem State.settleHeld_rel {s₀ : State} (s : State) (h_s : s₀.Rel false s) :
    s₀.Rel false (State.settleHeld s) := by
  unfold State.settleHeld
  repeat'
    first
    | with_reducible assumption
    | with_reducible apply State.abandonAll_rel
    | with_reducible apply State.levelCheck_rel
    | with_reducible apply State.rel_foldl
    | intro _
    | dsimp only

theorem State.restoreColl_rel {b_ : Bool} {s₀ : State} (s : State) (h_s : s₀.Rel b_ s) :
    s₀.Rel b_ (State.restoreColl s) := by
  unfold State.restoreColl
  repeat'
    first
    | with_reducible assumption
    | with_reducible apply State.covered_rel
    | simp only [State.rel_mk]
    | with_reducible apply State.rel_foldl
    | intro _
    | split

theorem State.restoreSlots_rel {b_ : Bool} {s₀ : State} (s : State) (r : Journal) (h_s : s₀.Rel b_ s) :
    s₀.Rel b_ (State.restoreSlots s r) := by
  unfold State.restoreSlots
  repeat'
    first
    | with_reducible assumption
    | with_reducible apply State.failSlot_rel
    | with_reducible apply State.putSlot_rel
    | with_reducible apply State.restoreColl_rel
    | with_reducible apply State.restoreHeld_rel
    | with_reducible apply State.restoreStore_rel
    | with_reducible apply State.rel_foldl
    | intro _
    | dsimp only

theorem State.repostSlots_rel {s₀ : State} (s : State) (r : Journal) (h_s : s₀.Rel false s) :
    s₀.Rel false (State.repostSlots s r) := by
  unfold State.repostSlots
  repeat'
    first
    | with_reducible assumption
    | with_reducible apply State.repost_rel
    | with_reducible apply State.resetSending_rel
    | with_reducible apply State.settleHeld_rel
    | with_reducible apply State.rel_foldl
    | intro _
    | dsimp only

theorem State.recordLost_rel {b_ : Bool} {s₀ : State} (s : State) (r : Journal) (i : Nat) (h_s : s₀.Rel b_ s) :
    s₀.Rel b_ (State.recordLost s r i) := by
  unfold State.recordLost
  repeat'
    first
    | with_reducible assumption
    | with_reducible apply State.jrnlConn_rel
    | with_reducible apply State.jrnlInst_rel
    | with_reducible apply State.jrnlInstCfg_rel
    | with_reducible apply State.rel_foldl
    | intro _
    | split
    | dsimp only

theorem State.replayCommand_rel {s₀ : State} (s : State) (x : JAdmin) (h_s : s₀.Rel false s) :
    s₀.Rel false (State.replayCommand s x).st := by
  unfold State.replayCommand
  repeat'
    first
    | with_reducible assumption
    | with_reducible apply State.createGroup_rel
    | with_reducible apply State.destroyQueue_rel
    | with_reducible apply State.loadImage_rel
    | with_reducible apply State.loadTable_rel
    | with_reducible apply State.runByCode_rel
    | with_reducible apply State.switchEpoch_rel
    | split
    | dsimp only

theorem State.replayAdmin_rel {s₀ : State} (s : State) (x : JAdmin) (h_s : s₀.Rel false s) :
    s₀.Rel false (State.replayAdmin s x) := by
  unfold State.replayAdmin
  repeat'
    first
    | with_reducible assumption
    | with_reducible apply State.adminRun_rel
    | with_reducible apply State.modQueue_rel
    | with_reducible apply State.putAdmin_rel
    | with_reducible apply State.replayCommand_rel
    | simp only [State.rel_mk]
    | intro _
    | split

theorem State.restoreAdmin_rel {s₀ : State} (s : State) (r : Journal) (h_s : s₀.Rel false s) :
    s₀.Rel false (State.restoreAdmin s r) := by
  unfold State.restoreAdmin
  repeat'
    first
    | with_reducible assumption
    | with_reducible apply State.aqStart_rel
    | with_reducible apply State.replayAdmin_rel
    | with_reducible apply State.rel_foldl
    | intro _
    | split
    | dsimp only

theorem State.replayEnd_rel {b_ : Bool} {s₀ : State} (s : State) (n : Nat) (h_s : s₀.Rel b_ s) :
    s₀.Rel b_ (State.replayEnd s n) := by
  unfold State.replayEnd
  repeat'
    first
    | with_reducible assumption
    | with_reducible apply State.setFld_rel
    | dsimp only

theorem State.replayTasks_rel {b_ : Bool} {s₀ : State} (s : State) (h_s : s₀.Rel b_ s) :
    s₀.Rel b_ (State.replayTasks s) := by
  unfold State.replayTasks
  repeat'
    first
    | with_reducible assumption
    | with_reducible apply State.occur_rel
    | with_reducible apply State.rel_foldl
    | intro _
    | dsimp only

theorem State.restoreAll_rel {s₀ : State} (s : State) (r : Journal) (v : View) (h_s : s₀.Rel false s) :
    s₀.Rel false (State.restoreAll s r v) := by
  unfold State.restoreAll
  repeat'
    first
    | with_reducible assumption
    | with_reducible apply State.recordLost_rel
    | with_reducible apply State.replayTasks_rel
    | with_reducible apply State.repostSlots_rel
    | with_reducible apply State.restoreAdmin_rel
    | with_reducible apply State.restoreConfig_rel
    | with_reducible apply State.restoreSlots_rel
    | with_reducible apply State.restoreWork_rel
    | with_reducible apply State.see_rel
    | with_reducible apply State.rel_foldl
    | intro _
    | dsimp only

theorem State.openWork_rel {b_ : Bool} {s₀ : State} (s : State) (h : Nat) (h_s : s₀.Rel b_ s) :
    s₀.Rel b_ (State.openWork s h) := by
  unfold State.openWork
  repeat'
    first
    | with_reducible assumption
    | with_reducible apply State.needContext_rel
    | with_reducible apply State.openIfWork_rel
    | split
    | dsimp only

theorem State.replay_rel {s₀ : State} (s : State) (r : Journal) (v : View) (h_s : s₀.Rel false s) :
    s₀.Rel false (State.replay s r v) := by
  unfold State.replay
  repeat'
    first
    | with_reducible assumption
    | with_reducible apply State.openWork_rel
    | with_reducible apply State.progress_rel
    | with_reducible apply State.raise_rel
    | with_reducible apply State.replayEnd_rel
    | with_reducible apply State.restoreAll_rel
    | simp only [State.rel_mk_time]
    | simp only [State.rel_mk]
    | with_reducible apply State.rel_foldl
    | intro _
    | split

theorem execJournalReplay_rel {s₀ : State} (w : Word) (r : Journal) (v : View) (s : State) {t_ : State} (h_s : s₀.Rel false s) (e_ : execJournalReplay w r v s = .next t_) :
    s₀.Rel false t_ := by
  unfold execJournalReplay at e_
  injection e_ with e_
  subst e_
  repeat'
    first
    | with_reducible assumption
    | with_reducible apply State.jrnlCtrlWrite_rel
    | with_reducible apply State.replay_rel
    | with_reducible apply State.setup_rel
    | split
    | dsimp only

end Sys2Proof.Machine
end

