-- ==== Sys2Proof/Laws/Regs.lean ====
section
/-! SUPPORT. The laws of bit fields and of the register file: what a read answers after a write. -/

namespace Sys2Proof.Machine

theorem testBit_bits {w : Nat} (v : BitVec w) (hi lo i : Nat) :
    (bits v hi lo).testBit i = (decide (i < hi + 1 - lo) && v.getLsbD (lo + i)) := by
  unfold bits
  rw [Nat.testBit_mod_two_pow, Nat.testBit_div_two_pow, BitVec.testBit_toNat, Nat.add_comm i lo]

theorem getLsbD_setBits {w : Nat} (v : BitVec w) (hi lo n i : Nat) (h : i < w) :
    (setBits v hi lo n).getLsbD i =
      if lo ≤ i ∧ i < lo + (hi + 1 - lo) then n.testBit (i - lo) else v.getLsbD i := by
  have m : ((2 ^ (hi + 1 - lo) - 1) * 2 ^ lo).testBit i = decide (lo ≤ i ∧ i < lo + (hi + 1 - lo)) := by
    rw [Nat.testBit_mul_two_pow, Nat.testBit_two_pow_sub_one]
    by_cases h1 : lo ≤ i
    · by_cases h2 : i - lo < hi + 1 - lo
      · have h3 : lo ≤ i ∧ i < lo + (hi + 1 - lo) := ⟨h1, by omega⟩
        simp [h1, h2, h3]
      · have h3 : ¬(lo ≤ i ∧ i < lo + (hi + 1 - lo)) := by omega
        simp [h1, h2]
        omega
    · have h3 : ¬(lo ≤ i ∧ i < lo + (hi + 1 - lo)) := by omega
      simp [h1]
  simp only [setBits, BitVec.getLsbD_or, BitVec.getLsbD_and, BitVec.getLsbD_not, BitVec.getLsbD_ofNat, m, h, decide_true,
    Bool.true_and]
  by_cases hc : lo ≤ i ∧ i < lo + (hi + 1 - lo)
  · rw [Nat.testBit_mul_two_pow]
    simp [hc]
  · simp [hc]

/-- A field reads what was written into it, cut to its width. -/
theorem bits_setBits {w : Nat} (v : BitVec w) (hi lo n : Nat) (h : hi < w) (hl : lo ≤ hi) :
    bits (setBits v hi lo n) hi lo = n % 2 ^ (hi + 1 - lo) := by
  refine Nat.eq_of_testBit_eq fun i => ?_
  rw [testBit_bits, Nat.testBit_mod_two_pow]
  by_cases hi' : i < hi + 1 - lo
  · rw [getLsbD_setBits _ _ _ _ _ (by omega), if_pos (by omega)]
    simp [hi']
  · simp [hi']

/-- Writing one field leaves a field that shares no bit with it. -/
theorem bits_setBits_other {w : Nat} (v : BitVec w) (hi lo n hi' lo' : Nat) (h : hi' < w) (hl : hi' < lo ∨ hi < lo') :
    bits (setBits v hi lo n) hi' lo' = bits v hi' lo' := by
  refine Nat.eq_of_testBit_eq fun i => ?_
  rw [testBit_bits, testBit_bits]
  by_cases hi2 : i < hi' + 1 - lo'
  · rw [getLsbD_setBits _ _ _ _ _ (by omega), if_neg (by omega)]
  · simp [hi2]

variable (s : State) (a b : Nat) (w : Word) (f g : Fld) (n : Nat)

@[simp] theorem State.rd_wr : (s.wr a w).rd b = if b = a then w else s.rd b := by
  simp only [State.rd, State.wr, Map.getD]
  unfold Map.put
  split
  · rename_i h
    subst h
    simp only [Map.get?_erase]
    split
    · rename_i h; subst h; rfl
    · rfl
  · simp only [Map.get?_set]
    split <;> rfl

@[simp] theorem State.rd_wr_self : (s.wr a w).rd a = w := by simp

theorem State.rd_wr_other (h : b ≠ a) : (s.wr a w).rd b = s.rd b := by simp [h]

theorem State.rd_setFld_other (h : b ≠ f.addr) : (s.setFld f n).rd b = s.rd b := by
  simp [State.setFld, h]

/-- A field of a 32-bit register reads what was set. -/
theorem State.fld_setFld (h : f.hi < 32) (hl : f.lo ≤ f.hi) : (s.setFld f n).fld f = n % 2 ^ (f.hi + 1 - f.lo) := by
  simp only [State.fld, if_pos h, State.setFld, State.rd_wr_self]
  exact bits_setBits _ _ _ _ h hl

/-- Setting a field of one register leaves the fields of every other 32-bit register. -/
theorem State.fld_setFld_other (h : g.addr ≠ f.addr) (hg : g.hi < 32) : (s.setFld f n).fld g = s.fld g := by
  simp only [State.fld, if_pos hg, State.rd_setFld_other _ _ _ _ h]

/-- Setting a field leaves the other fields of its register. -/
theorem State.fld_setFld_beside (h : g.addr = f.addr) (hg : g.hi < 32) (hd : g.hi < f.lo ∨ f.hi < g.lo) :
    (s.setFld f n).fld g = s.fld g := by
  simp only [State.fld, if_pos hg, State.setFld, h, State.rd_wr_self]
  exact bits_setBits_other _ _ _ _ _ _ hg hd

theorem State.wr_regs_only : (s.wr a w) = { s with regs := (s.wr a w).regs } := rfl

theorem State.setFld_regs_only : (s.setFld f n) = { s with regs := (s.setFld f n).regs } := rfl

end Sys2Proof.Machine
end

