-- ==== Sys2Proof/Laws/State.lean ====
section
/-! SUPPORT. What the plain updates of State leave alone: one lemma for each field and update, each true by unfolding. -/

namespace Sys2Proof.Machine

/-! `State.setRegion` writes obj alone. -/
@[simp] theorem State.setRegion_part (s : State) (i x : Nat) (r : Region) : (s.setRegion i x r).part = s.part := rfl
@[simp] theorem State.setRegion_now (s : State) (i x : Nat) (r : Region) : (s.setRegion i x r).now = s.now := rfl
@[simp] theorem State.setRegion_draws (s : State) (i x : Nat) (r : Region) : (s.setRegion i x r).draws = s.draws := rfl
@[simp] theorem State.setRegion_regs (s : State) (i x : Nat) (r : Region) : (s.setRegion i x r).regs = s.regs := rfl
@[simp] theorem State.setRegion_req (s : State) (i x : Nat) (r : Region) : (s.setRegion i x r).req = s.req := rfl
@[simp] theorem State.setRegion_flt (s : State) (i x : Nat) (r : Region) : (s.setRegion i x r).flt = s.flt := rfl
@[simp] theorem State.setRegion_rt (s : State) (i x : Nat) (r : Region) : (s.setRegion i x r).rt = s.rt := rfl
@[simp] theorem State.setRegion_lnk (s : State) (i x : Nat) (r : Region) : (s.setRegion i x r).lnk = s.lnk := rfl
@[simp] theorem State.setRegion_pwr (s : State) (i x : Nat) (r : Region) : (s.setRegion i x r).pwr = s.pwr := rfl
@[simp] theorem State.setRegion_tim (s : State) (i x : Nat) (r : Region) : (s.setRegion i x r).tim = s.tim := rfl
@[simp] theorem State.setRegion_xpt (s : State) (i x : Nat) (r : Region) : (s.setRegion i x r).xpt = s.xpt := rfl
@[simp] theorem State.setRegion_obj_queues (s : State) (i x : Nat) (r : Region) : (s.setRegion i x r).obj.queues = s.obj.queues := rfl
@[simp] theorem State.setRegion_obj_slots (s : State) (i x : Nat) (r : Region) : (s.setRegion i x r).obj.slots = s.obj.slots := rfl
@[simp] theorem State.setRegion_obj_adm (s : State) (i x : Nat) (r : Region) : (s.setRegion i x r).obj.adm = s.obj.adm := rfl
@[simp] theorem State.setRegion_obj_flr (s : State) (i x : Nat) (r : Region) : (s.setRegion i x r).obj.flr = s.obj.flr := rfl
@[simp] theorem State.setRegion_obj_insts (s : State) (i x : Nat) (r : Region) : (s.setRegion i x r).obj.insts = s.obj.insts := rfl
@[simp] theorem State.setRegion_obj_pds (s : State) (i x : Nat) (r : Region) : (s.setRegion i x r).obj.pds = s.obj.pds := rfl
@[simp] theorem State.setRegion_inj (s : State) (i x : Nat) (r : Region) : (s.setRegion i x r).inj = s.inj := rfl
@[simp] theorem State.setRegion_hpt (s : State) (i x : Nat) (r : Region) : (s.setRegion i x r).hpt = s.hpt := rfl
@[simp] theorem State.setRegion_xlt (s : State) (i x : Nat) (r : Region) : (s.setRegion i x r).xlt = s.xlt := rfl
@[simp] theorem State.setRegion_mat (s : State) (i x : Nat) (r : Region) : (s.setRegion i x r).mat = s.mat := rfl
@[simp] theorem State.setRegion_ram (s : State) (i x : Nat) (r : Region) : (s.setRegion i x r).ram = s.ram := rfl
@[simp] theorem State.setRegion_atu (s : State) (i x : Nat) (r : Region) : (s.setRegion i x r).atu = s.atu := rfl
@[simp] theorem State.setRegion_col (s : State) (i x : Nat) (r : Region) : (s.setRegion i x r).col = s.col := rfl
@[simp] theorem State.setRegion_cnt (s : State) (i x : Nat) (r : Region) : (s.setRegion i x r).cnt = s.cnt := rfl
@[simp] theorem State.setRegion_mgt (s : State) (i x : Nat) (r : Region) : (s.setRegion i x r).mgt = s.mgt := rfl
@[simp] theorem State.setRegion_kept (s : State) (i x : Nat) (r : Region) : (s.setRegion i x r).kept = s.kept := rfl
@[simp] theorem State.setRegion_lastRead (s : State) (i x : Nat) (r : Region) : (s.setRegion i x r).lastRead = s.lastRead := rfl
@[simp] theorem State.setRegion_pending (s : State) (i x : Nat) (r : Region) : (s.setRegion i x r).pending = s.pending := rfl

/-! `State.askReset` writes mgt alone. -/
@[simp] theorem State.askReset_part (s : State) : (s.askReset).part = s.part := rfl
@[simp] theorem State.askReset_now (s : State) : (s.askReset).now = s.now := rfl
@[simp] theorem State.askReset_draws (s : State) : (s.askReset).draws = s.draws := rfl
@[simp] theorem State.askReset_regs (s : State) : (s.askReset).regs = s.regs := rfl
@[simp] theorem State.askReset_req (s : State) : (s.askReset).req = s.req := rfl
@[simp] theorem State.askReset_flt (s : State) : (s.askReset).flt = s.flt := rfl
@[simp] theorem State.askReset_rt (s : State) : (s.askReset).rt = s.rt := rfl
@[simp] theorem State.askReset_lnk (s : State) : (s.askReset).lnk = s.lnk := rfl
@[simp] theorem State.askReset_pwr (s : State) : (s.askReset).pwr = s.pwr := rfl
@[simp] theorem State.askReset_tim (s : State) : (s.askReset).tim = s.tim := rfl
@[simp] theorem State.askReset_xpt (s : State) : (s.askReset).xpt = s.xpt := rfl
@[simp] theorem State.askReset_obj (s : State) : (s.askReset).obj = s.obj := rfl
@[simp] theorem State.askReset_inj (s : State) : (s.askReset).inj = s.inj := rfl
@[simp] theorem State.askReset_hpt (s : State) : (s.askReset).hpt = s.hpt := rfl
@[simp] theorem State.askReset_xlt (s : State) : (s.askReset).xlt = s.xlt := rfl
@[simp] theorem State.askReset_mat (s : State) : (s.askReset).mat = s.mat := rfl
@[simp] theorem State.askReset_ram (s : State) : (s.askReset).ram = s.ram := rfl
@[simp] theorem State.askReset_atu (s : State) : (s.askReset).atu = s.atu := rfl
@[simp] theorem State.askReset_col (s : State) : (s.askReset).col = s.col := rfl
@[simp] theorem State.askReset_cnt (s : State) : (s.askReset).cnt = s.cnt := rfl
@[simp] theorem State.askReset_mgt_pwrGood (s : State) : (s.askReset).mgt.pwrGood = s.mgt.pwrGood := rfl
@[simp] theorem State.askReset_mgt_resetN (s : State) : (s.askReset).mgt.resetN = s.mgt.resetN := rfl
@[simp] theorem State.askReset_mgt_vddAon (s : State) : (s.askReset).mgt.vddAon = s.mgt.vddAon := rfl
@[simp] theorem State.askReset_mgt_sampled (s : State) : (s.askReset).mgt.sampled = s.mgt.sampled := rfl
@[simp] theorem State.askReset_mgt_failover (s : State) : (s.askReset).mgt.failover = s.mgt.failover := rfl
@[simp] theorem State.askReset_mgt_fwRunning (s : State) : (s.askReset).mgt.fwRunning = s.mgt.fwRunning := rfl
@[simp] theorem State.askReset_mgt_agree (s : State) : (s.askReset).mgt.agree = s.mgt.agree := rfl
@[simp] theorem State.askReset_mgt_lastRec (s : State) : (s.askReset).mgt.lastRec = s.mgt.lastRec := rfl
@[simp] theorem State.askReset_mgt_tideRecs (s : State) : (s.askReset).mgt.tideRecs = s.mgt.tideRecs := rfl
@[simp] theorem State.askReset_mgt_rootId (s : State) : (s.askReset).mgt.rootId = s.mgt.rootId := rfl
@[simp] theorem State.askReset_mgt_sbOpen (s : State) : (s.askReset).mgt.sbOpen = s.mgt.sbOpen := rfl
@[simp] theorem State.askReset_mgt_ctrlWait (s : State) : (s.askReset).mgt.ctrlWait = s.mgt.ctrlWait := rfl
@[simp] theorem State.askReset_mgt_stage (s : State) : (s.askReset).mgt.stage = s.mgt.stage := rfl
@[simp] theorem State.askReset_mgt_tap (s : State) : (s.askReset).mgt.tap = s.mgt.tap := rfl
@[simp] theorem State.askReset_kept (s : State) : (s.askReset).kept = s.kept := rfl
@[simp] theorem State.askReset_lastRead (s : State) : (s.askReset).lastRead = s.lastRead := rfl
@[simp] theorem State.askReset_pending (s : State) : (s.askReset).pending = s.pending := rfl

/-! `State.modAgree` writes mgt alone. -/
@[simp] theorem State.modAgree_part (s : State) (p : Nat) (f : Agree → Agree) : (s.modAgree p f).part = s.part := rfl
@[simp] theorem State.modAgree_now (s : State) (p : Nat) (f : Agree → Agree) : (s.modAgree p f).now = s.now := rfl
@[simp] theorem State.modAgree_draws (s : State) (p : Nat) (f : Agree → Agree) : (s.modAgree p f).draws = s.draws := rfl
@[simp] theorem State.modAgree_regs (s : State) (p : Nat) (f : Agree → Agree) : (s.modAgree p f).regs = s.regs := rfl
@[simp] theorem State.modAgree_req (s : State) (p : Nat) (f : Agree → Agree) : (s.modAgree p f).req = s.req := rfl
@[simp] theorem State.modAgree_flt (s : State) (p : Nat) (f : Agree → Agree) : (s.modAgree p f).flt = s.flt := rfl
@[simp] theorem State.modAgree_rt (s : State) (p : Nat) (f : Agree → Agree) : (s.modAgree p f).rt = s.rt := rfl
@[simp] theorem State.modAgree_lnk (s : State) (p : Nat) (f : Agree → Agree) : (s.modAgree p f).lnk = s.lnk := rfl
@[simp] theorem State.modAgree_pwr (s : State) (p : Nat) (f : Agree → Agree) : (s.modAgree p f).pwr = s.pwr := rfl
@[simp] theorem State.modAgree_tim (s : State) (p : Nat) (f : Agree → Agree) : (s.modAgree p f).tim = s.tim := rfl
@[simp] theorem State.modAgree_xpt (s : State) (p : Nat) (f : Agree → Agree) : (s.modAgree p f).xpt = s.xpt := rfl
@[simp] theorem State.modAgree_obj (s : State) (p : Nat) (f : Agree → Agree) : (s.modAgree p f).obj = s.obj := rfl
@[simp] theorem State.modAgree_inj (s : State) (p : Nat) (f : Agree → Agree) : (s.modAgree p f).inj = s.inj := rfl
@[simp] theorem State.modAgree_hpt (s : State) (p : Nat) (f : Agree → Agree) : (s.modAgree p f).hpt = s.hpt := rfl
@[simp] theorem State.modAgree_xlt (s : State) (p : Nat) (f : Agree → Agree) : (s.modAgree p f).xlt = s.xlt := rfl
@[simp] theorem State.modAgree_mat (s : State) (p : Nat) (f : Agree → Agree) : (s.modAgree p f).mat = s.mat := rfl
@[simp] theorem State.modAgree_ram (s : State) (p : Nat) (f : Agree → Agree) : (s.modAgree p f).ram = s.ram := rfl
@[simp] theorem State.modAgree_atu (s : State) (p : Nat) (f : Agree → Agree) : (s.modAgree p f).atu = s.atu := rfl
@[simp] theorem State.modAgree_col (s : State) (p : Nat) (f : Agree → Agree) : (s.modAgree p f).col = s.col := rfl
@[simp] theorem State.modAgree_cnt (s : State) (p : Nat) (f : Agree → Agree) : (s.modAgree p f).cnt = s.cnt := rfl
@[simp] theorem State.modAgree_mgt_pwrGood (s : State) (p : Nat) (f : Agree → Agree) : (s.modAgree p f).mgt.pwrGood = s.mgt.pwrGood := rfl
@[simp] theorem State.modAgree_mgt_resetN (s : State) (p : Nat) (f : Agree → Agree) : (s.modAgree p f).mgt.resetN = s.mgt.resetN := rfl
@[simp] theorem State.modAgree_mgt_vddAon (s : State) (p : Nat) (f : Agree → Agree) : (s.modAgree p f).mgt.vddAon = s.mgt.vddAon := rfl
@[simp] theorem State.modAgree_mgt_sampled (s : State) (p : Nat) (f : Agree → Agree) : (s.modAgree p f).mgt.sampled = s.mgt.sampled := rfl
@[simp] theorem State.modAgree_mgt_resetDue (s : State) (p : Nat) (f : Agree → Agree) : (s.modAgree p f).mgt.resetDue = s.mgt.resetDue := rfl
@[simp] theorem State.modAgree_mgt_failover (s : State) (p : Nat) (f : Agree → Agree) : (s.modAgree p f).mgt.failover = s.mgt.failover := rfl
@[simp] theorem State.modAgree_mgt_fwRunning (s : State) (p : Nat) (f : Agree → Agree) : (s.modAgree p f).mgt.fwRunning = s.mgt.fwRunning := rfl
@[simp] theorem State.modAgree_mgt_lastRec (s : State) (p : Nat) (f : Agree → Agree) : (s.modAgree p f).mgt.lastRec = s.mgt.lastRec := rfl
@[simp] theorem State.modAgree_mgt_tideRecs (s : State) (p : Nat) (f : Agree → Agree) : (s.modAgree p f).mgt.tideRecs = s.mgt.tideRecs := rfl
@[simp] theorem State.modAgree_mgt_rootId (s : State) (p : Nat) (f : Agree → Agree) : (s.modAgree p f).mgt.rootId = s.mgt.rootId := rfl
@[simp] theorem State.modAgree_mgt_sbOpen (s : State) (p : Nat) (f : Agree → Agree) : (s.modAgree p f).mgt.sbOpen = s.mgt.sbOpen := rfl
@[simp] theorem State.modAgree_mgt_ctrlWait (s : State) (p : Nat) (f : Agree → Agree) : (s.modAgree p f).mgt.ctrlWait = s.mgt.ctrlWait := rfl
@[simp] theorem State.modAgree_mgt_stage (s : State) (p : Nat) (f : Agree → Agree) : (s.modAgree p f).mgt.stage = s.mgt.stage := rfl
@[simp] theorem State.modAgree_mgt_tap (s : State) (p : Nat) (f : Agree → Agree) : (s.modAgree p f).mgt.tap = s.mgt.tap := rfl
@[simp] theorem State.modAgree_kept (s : State) (p : Nat) (f : Agree → Agree) : (s.modAgree p f).kept = s.kept := rfl
@[simp] theorem State.modAgree_lastRead (s : State) (p : Nat) (f : Agree → Agree) : (s.modAgree p f).lastRead = s.lastRead := rfl
@[simp] theorem State.modAgree_pending (s : State) (p : Nat) (f : Agree → Agree) : (s.modAgree p f).pending = s.pending := rfl

/-! `State.opOver` writes atu alone. -/
@[simp] theorem State.opOver_part (s : State) (o : UnitOp) : (s.opOver o).part = s.part := rfl
@[simp] theorem State.opOver_now (s : State) (o : UnitOp) : (s.opOver o).now = s.now := rfl
@[simp] theorem State.opOver_draws (s : State) (o : UnitOp) : (s.opOver o).draws = s.draws := rfl
@[simp] theorem State.opOver_regs (s : State) (o : UnitOp) : (s.opOver o).regs = s.regs := rfl
@[simp] theorem State.opOver_req (s : State) (o : UnitOp) : (s.opOver o).req = s.req := rfl
@[simp] theorem State.opOver_flt (s : State) (o : UnitOp) : (s.opOver o).flt = s.flt := rfl
@[simp] theorem State.opOver_rt (s : State) (o : UnitOp) : (s.opOver o).rt = s.rt := rfl
@[simp] theorem State.opOver_lnk (s : State) (o : UnitOp) : (s.opOver o).lnk = s.lnk := rfl
@[simp] theorem State.opOver_pwr (s : State) (o : UnitOp) : (s.opOver o).pwr = s.pwr := rfl
@[simp] theorem State.opOver_tim (s : State) (o : UnitOp) : (s.opOver o).tim = s.tim := rfl
@[simp] theorem State.opOver_xpt (s : State) (o : UnitOp) : (s.opOver o).xpt = s.xpt := rfl
@[simp] theorem State.opOver_obj (s : State) (o : UnitOp) : (s.opOver o).obj = s.obj := rfl
@[simp] theorem State.opOver_inj (s : State) (o : UnitOp) : (s.opOver o).inj = s.inj := rfl
@[simp] theorem State.opOver_hpt (s : State) (o : UnitOp) : (s.opOver o).hpt = s.hpt := rfl
@[simp] theorem State.opOver_xlt (s : State) (o : UnitOp) : (s.opOver o).xlt = s.xlt := rfl
@[simp] theorem State.opOver_mat (s : State) (o : UnitOp) : (s.opOver o).mat = s.mat := rfl
@[simp] theorem State.opOver_ram (s : State) (o : UnitOp) : (s.opOver o).ram = s.ram := rfl
@[simp] theorem State.opOver_atu_held (s : State) (o : UnitOp) : (s.opOver o).atu.held = s.atu.held := rfl
@[simp] theorem State.opOver_atu_nextHeld (s : State) (o : UnitOp) : (s.opOver o).atu.nextHeld = s.atu.nextHeld := rfl
@[simp] theorem State.opOver_atu_grants (s : State) (o : UnitOp) : (s.opOver o).atu.grants = s.atu.grants := rfl
@[simp] theorem State.opOver_atu_arrivals (s : State) (o : UnitOp) : (s.opOver o).atu.arrivals = s.atu.arrivals := rfl
@[simp] theorem State.opOver_atu_reading (s : State) (o : UnitOp) : (s.opOver o).atu.reading = s.atu.reading := rfl
@[simp] theorem State.opOver_atu_idleSince (s : State) (o : UnitOp) : (s.opOver o).atu.idleSince = s.atu.idleSince := rfl
@[simp] theorem State.opOver_col (s : State) (o : UnitOp) : (s.opOver o).col = s.col := rfl
@[simp] theorem State.opOver_cnt (s : State) (o : UnitOp) : (s.opOver o).cnt = s.cnt := rfl
@[simp] theorem State.opOver_mgt (s : State) (o : UnitOp) : (s.opOver o).mgt = s.mgt := rfl
@[simp] theorem State.opOver_kept (s : State) (o : UnitOp) : (s.opOver o).kept = s.kept := rfl
@[simp] theorem State.opOver_lastRead (s : State) (o : UnitOp) : (s.opOver o).lastRead = s.lastRead := rfl
@[simp] theorem State.opOver_pending (s : State) (o : UnitOp) : (s.opOver o).pending = s.pending := rfl

/-! `State.modHeld` writes atu alone. -/
@[simp] theorem State.modHeld_part (s : State) (n : Nat) (f : Held → Held) : (s.modHeld n f).part = s.part := rfl
@[simp] theorem State.modHeld_now (s : State) (n : Nat) (f : Held → Held) : (s.modHeld n f).now = s.now := rfl
@[simp] theorem State.modHeld_draws (s : State) (n : Nat) (f : Held → Held) : (s.modHeld n f).draws = s.draws := rfl
@[simp] theorem State.modHeld_regs (s : State) (n : Nat) (f : Held → Held) : (s.modHeld n f).regs = s.regs := rfl
@[simp] theorem State.modHeld_req (s : State) (n : Nat) (f : Held → Held) : (s.modHeld n f).req = s.req := rfl
@[simp] theorem State.modHeld_flt (s : State) (n : Nat) (f : Held → Held) : (s.modHeld n f).flt = s.flt := rfl
@[simp] theorem State.modHeld_rt (s : State) (n : Nat) (f : Held → Held) : (s.modHeld n f).rt = s.rt := rfl
@[simp] theorem State.modHeld_lnk (s : State) (n : Nat) (f : Held → Held) : (s.modHeld n f).lnk = s.lnk := rfl
@[simp] theorem State.modHeld_pwr (s : State) (n : Nat) (f : Held → Held) : (s.modHeld n f).pwr = s.pwr := rfl
@[simp] theorem State.modHeld_tim (s : State) (n : Nat) (f : Held → Held) : (s.modHeld n f).tim = s.tim := rfl
@[simp] theorem State.modHeld_xpt (s : State) (n : Nat) (f : Held → Held) : (s.modHeld n f).xpt = s.xpt := rfl
@[simp] theorem State.modHeld_obj (s : State) (n : Nat) (f : Held → Held) : (s.modHeld n f).obj = s.obj := rfl
@[simp] theorem State.modHeld_inj (s : State) (n : Nat) (f : Held → Held) : (s.modHeld n f).inj = s.inj := rfl
@[simp] theorem State.modHeld_hpt (s : State) (n : Nat) (f : Held → Held) : (s.modHeld n f).hpt = s.hpt := rfl
@[simp] theorem State.modHeld_xlt (s : State) (n : Nat) (f : Held → Held) : (s.modHeld n f).xlt = s.xlt := rfl
@[simp] theorem State.modHeld_mat (s : State) (n : Nat) (f : Held → Held) : (s.modHeld n f).mat = s.mat := rfl
@[simp] theorem State.modHeld_ram (s : State) (n : Nat) (f : Held → Held) : (s.modHeld n f).ram = s.ram := rfl
@[simp] theorem State.modHeld_atu_nextHeld (s : State) (n : Nat) (f : Held → Held) : (s.modHeld n f).atu.nextHeld = s.atu.nextHeld := rfl
@[simp] theorem State.modHeld_atu_grants (s : State) (n : Nat) (f : Held → Held) : (s.modHeld n f).atu.grants = s.atu.grants := rfl
@[simp] theorem State.modHeld_atu_arrivals (s : State) (n : Nat) (f : Held → Held) : (s.modHeld n f).atu.arrivals = s.atu.arrivals := rfl
@[simp] theorem State.modHeld_atu_ops (s : State) (n : Nat) (f : Held → Held) : (s.modHeld n f).atu.ops = s.atu.ops := rfl
@[simp] theorem State.modHeld_atu_reading (s : State) (n : Nat) (f : Held → Held) : (s.modHeld n f).atu.reading = s.atu.reading := rfl
@[simp] theorem State.modHeld_atu_idleSince (s : State) (n : Nat) (f : Held → Held) : (s.modHeld n f).atu.idleSince = s.atu.idleSince := rfl
@[simp] theorem State.modHeld_col (s : State) (n : Nat) (f : Held → Held) : (s.modHeld n f).col = s.col := rfl
@[simp] theorem State.modHeld_cnt (s : State) (n : Nat) (f : Held → Held) : (s.modHeld n f).cnt = s.cnt := rfl
@[simp] theorem State.modHeld_mgt (s : State) (n : Nat) (f : Held → Held) : (s.modHeld n f).mgt = s.mgt := rfl
@[simp] theorem State.modHeld_kept (s : State) (n : Nat) (f : Held → Held) : (s.modHeld n f).kept = s.kept := rfl
@[simp] theorem State.modHeld_lastRead (s : State) (n : Nat) (f : Held → Held) : (s.modHeld n f).lastRead = s.lastRead := rfl
@[simp] theorem State.modHeld_pending (s : State) (n : Nat) (f : Held → Held) : (s.modHeld n f).pending = s.pending := rfl

/-! `State.dropHeld` writes atu alone. -/
@[simp] theorem State.dropHeld_part (s : State) (n : Nat) : (s.dropHeld n).part = s.part := rfl
@[simp] theorem State.dropHeld_now (s : State) (n : Nat) : (s.dropHeld n).now = s.now := rfl
@[simp] theorem State.dropHeld_draws (s : State) (n : Nat) : (s.dropHeld n).draws = s.draws := rfl
@[simp] theorem State.dropHeld_regs (s : State) (n : Nat) : (s.dropHeld n).regs = s.regs := rfl
@[simp] theorem State.dropHeld_req (s : State) (n : Nat) : (s.dropHeld n).req = s.req := rfl
@[simp] theorem State.dropHeld_flt (s : State) (n : Nat) : (s.dropHeld n).flt = s.flt := rfl
@[simp] theorem State.dropHeld_rt (s : State) (n : Nat) : (s.dropHeld n).rt = s.rt := rfl
@[simp] theorem State.dropHeld_lnk (s : State) (n : Nat) : (s.dropHeld n).lnk = s.lnk := rfl
@[simp] theorem State.dropHeld_pwr (s : State) (n : Nat) : (s.dropHeld n).pwr = s.pwr := rfl
@[simp] theorem State.dropHeld_tim (s : State) (n : Nat) : (s.dropHeld n).tim = s.tim := rfl
@[simp] theorem State.dropHeld_xpt (s : State) (n : Nat) : (s.dropHeld n).xpt = s.xpt := rfl
@[simp] theorem State.dropHeld_obj (s : State) (n : Nat) : (s.dropHeld n).obj = s.obj := rfl
@[simp] theorem State.dropHeld_inj (s : State) (n : Nat) : (s.dropHeld n).inj = s.inj := rfl
@[simp] theorem State.dropHeld_hpt (s : State) (n : Nat) : (s.dropHeld n).hpt = s.hpt := rfl
@[simp] theorem State.dropHeld_xlt (s : State) (n : Nat) : (s.dropHeld n).xlt = s.xlt := rfl
@[simp] theorem State.dropHeld_mat (s : State) (n : Nat) : (s.dropHeld n).mat = s.mat := rfl
@[simp] theorem State.dropHeld_ram (s : State) (n : Nat) : (s.dropHeld n).ram = s.ram := rfl
@[simp] theorem State.dropHeld_atu_nextHeld (s : State) (n : Nat) : (s.dropHeld n).atu.nextHeld = s.atu.nextHeld := rfl
@[simp] theorem State.dropHeld_atu_grants (s : State) (n : Nat) : (s.dropHeld n).atu.grants = s.atu.grants := rfl
@[simp] theorem State.dropHeld_atu_arrivals (s : State) (n : Nat) : (s.dropHeld n).atu.arrivals = s.atu.arrivals := rfl
@[simp] theorem State.dropHeld_atu_ops (s : State) (n : Nat) : (s.dropHeld n).atu.ops = s.atu.ops := rfl
@[simp] theorem State.dropHeld_atu_reading (s : State) (n : Nat) : (s.dropHeld n).atu.reading = s.atu.reading := rfl
@[simp] theorem State.dropHeld_atu_idleSince (s : State) (n : Nat) : (s.dropHeld n).atu.idleSince = s.atu.idleSince := rfl
@[simp] theorem State.dropHeld_col (s : State) (n : Nat) : (s.dropHeld n).col = s.col := rfl
@[simp] theorem State.dropHeld_cnt (s : State) (n : Nat) : (s.dropHeld n).cnt = s.cnt := rfl
@[simp] theorem State.dropHeld_mgt (s : State) (n : Nat) : (s.dropHeld n).mgt = s.mgt := rfl
@[simp] theorem State.dropHeld_kept (s : State) (n : Nat) : (s.dropHeld n).kept = s.kept := rfl
@[simp] theorem State.dropHeld_lastRead (s : State) (n : Nat) : (s.dropHeld n).lastRead = s.lastRead := rfl
@[simp] theorem State.dropHeld_pending (s : State) (n : Nat) : (s.dropHeld n).pending = s.pending := rfl

/-! `State.clearInstCounters` writes cnt alone. -/
@[simp] theorem State.clearInstCounters_part (s : State) (i : Nat) : (s.clearInstCounters i).part = s.part := rfl
@[simp] theorem State.clearInstCounters_now (s : State) (i : Nat) : (s.clearInstCounters i).now = s.now := rfl
@[simp] theorem State.clearInstCounters_draws (s : State) (i : Nat) : (s.clearInstCounters i).draws = s.draws := rfl
@[simp] theorem State.clearInstCounters_regs (s : State) (i : Nat) : (s.clearInstCounters i).regs = s.regs := rfl
@[simp] theorem State.clearInstCounters_req (s : State) (i : Nat) : (s.clearInstCounters i).req = s.req := rfl
@[simp] theorem State.clearInstCounters_flt (s : State) (i : Nat) : (s.clearInstCounters i).flt = s.flt := rfl
@[simp] theorem State.clearInstCounters_rt (s : State) (i : Nat) : (s.clearInstCounters i).rt = s.rt := rfl
@[simp] theorem State.clearInstCounters_lnk (s : State) (i : Nat) : (s.clearInstCounters i).lnk = s.lnk := rfl
@[simp] theorem State.clearInstCounters_pwr (s : State) (i : Nat) : (s.clearInstCounters i).pwr = s.pwr := rfl
@[simp] theorem State.clearInstCounters_tim (s : State) (i : Nat) : (s.clearInstCounters i).tim = s.tim := rfl
@[simp] theorem State.clearInstCounters_xpt (s : State) (i : Nat) : (s.clearInstCounters i).xpt = s.xpt := rfl
@[simp] theorem State.clearInstCounters_obj (s : State) (i : Nat) : (s.clearInstCounters i).obj = s.obj := rfl
@[simp] theorem State.clearInstCounters_inj (s : State) (i : Nat) : (s.clearInstCounters i).inj = s.inj := rfl
@[simp] theorem State.clearInstCounters_hpt (s : State) (i : Nat) : (s.clearInstCounters i).hpt = s.hpt := rfl
@[simp] theorem State.clearInstCounters_xlt (s : State) (i : Nat) : (s.clearInstCounters i).xlt = s.xlt := rfl
@[simp] theorem State.clearInstCounters_mat (s : State) (i : Nat) : (s.clearInstCounters i).mat = s.mat := rfl
@[simp] theorem State.clearInstCounters_ram (s : State) (i : Nat) : (s.clearInstCounters i).ram = s.ram := rfl
@[simp] theorem State.clearInstCounters_atu (s : State) (i : Nat) : (s.clearInstCounters i).atu = s.atu := rfl
@[simp] theorem State.clearInstCounters_col (s : State) (i : Nat) : (s.clearInstCounters i).col = s.col := rfl
@[simp] theorem State.clearInstCounters_cnt_regionMiss (s : State) (i : Nat) : (s.clearInstCounters i).cnt.regionMiss = s.cnt.regionMiss := rfl
@[simp] theorem State.clearInstCounters_cnt_prog (s : State) (i : Nat) : (s.clearInstCounters i).cnt.prog = s.cnt.prog := rfl
@[simp] theorem State.clearInstCounters_cnt_last (s : State) (i : Nat) : (s.clearInstCounters i).cnt.last = s.cnt.last := rfl
@[simp] theorem State.clearInstCounters_cnt_hist (s : State) (i : Nat) : (s.clearInstCounters i).cnt.hist = s.cnt.hist := rfl
@[simp] theorem State.clearInstCounters_cnt_dump (s : State) (i : Nat) : (s.clearInstCounters i).cnt.dump = s.cnt.dump := rfl
@[simp] theorem State.clearInstCounters_cnt_seq (s : State) (i : Nat) : (s.clearInstCounters i).cnt.seq = s.cnt.seq := rfl
@[simp] theorem State.clearInstCounters_cnt_skipped (s : State) (i : Nat) : (s.clearInstCounters i).cnt.skipped = s.cnt.skipped := rfl
@[simp] theorem State.clearInstCounters_cnt_prevTide (s : State) (i : Nat) : (s.clearInstCounters i).cnt.prevTide = s.cnt.prevTide := rfl
@[simp] theorem State.clearInstCounters_mgt (s : State) (i : Nat) : (s.clearInstCounters i).mgt = s.mgt := rfl
@[simp] theorem State.clearInstCounters_kept (s : State) (i : Nat) : (s.clearInstCounters i).kept = s.kept := rfl
@[simp] theorem State.clearInstCounters_lastRead (s : State) (i : Nat) : (s.clearInstCounters i).lastRead = s.lastRead := rfl
@[simp] theorem State.clearInstCounters_pending (s : State) (i : Nat) : (s.clearInstCounters i).pending = s.pending := rfl

/-! `State.setCtr` writes cnt alone. -/
@[simp] theorem State.setCtr_part (s : State) (b c : Nat) (x : ProgCtr) : (s.setCtr b c x).part = s.part := rfl
@[simp] theorem State.setCtr_now (s : State) (b c : Nat) (x : ProgCtr) : (s.setCtr b c x).now = s.now := rfl
@[simp] theorem State.setCtr_draws (s : State) (b c : Nat) (x : ProgCtr) : (s.setCtr b c x).draws = s.draws := rfl
@[simp] theorem State.setCtr_regs (s : State) (b c : Nat) (x : ProgCtr) : (s.setCtr b c x).regs = s.regs := rfl
@[simp] theorem State.setCtr_req (s : State) (b c : Nat) (x : ProgCtr) : (s.setCtr b c x).req = s.req := rfl
@[simp] theorem State.setCtr_flt (s : State) (b c : Nat) (x : ProgCtr) : (s.setCtr b c x).flt = s.flt := rfl
@[simp] theorem State.setCtr_rt (s : State) (b c : Nat) (x : ProgCtr) : (s.setCtr b c x).rt = s.rt := rfl
@[simp] theorem State.setCtr_lnk (s : State) (b c : Nat) (x : ProgCtr) : (s.setCtr b c x).lnk = s.lnk := rfl
@[simp] theorem State.setCtr_pwr (s : State) (b c : Nat) (x : ProgCtr) : (s.setCtr b c x).pwr = s.pwr := rfl
@[simp] theorem State.setCtr_tim (s : State) (b c : Nat) (x : ProgCtr) : (s.setCtr b c x).tim = s.tim := rfl
@[simp] theorem State.setCtr_xpt (s : State) (b c : Nat) (x : ProgCtr) : (s.setCtr b c x).xpt = s.xpt := rfl
@[simp] theorem State.setCtr_obj (s : State) (b c : Nat) (x : ProgCtr) : (s.setCtr b c x).obj = s.obj := rfl
@[simp] theorem State.setCtr_inj (s : State) (b c : Nat) (x : ProgCtr) : (s.setCtr b c x).inj = s.inj := rfl
@[simp] theorem State.setCtr_hpt (s : State) (b c : Nat) (x : ProgCtr) : (s.setCtr b c x).hpt = s.hpt := rfl
@[simp] theorem State.setCtr_xlt (s : State) (b c : Nat) (x : ProgCtr) : (s.setCtr b c x).xlt = s.xlt := rfl
@[simp] theorem State.setCtr_mat (s : State) (b c : Nat) (x : ProgCtr) : (s.setCtr b c x).mat = s.mat := rfl
@[simp] theorem State.setCtr_ram (s : State) (b c : Nat) (x : ProgCtr) : (s.setCtr b c x).ram = s.ram := rfl
@[simp] theorem State.setCtr_atu (s : State) (b c : Nat) (x : ProgCtr) : (s.setCtr b c x).atu = s.atu := rfl
@[simp] theorem State.setCtr_col (s : State) (b c : Nat) (x : ProgCtr) : (s.setCtr b c x).col = s.col := rfl
@[simp] theorem State.setCtr_cnt_regionMiss (s : State) (b c : Nat) (x : ProgCtr) : (s.setCtr b c x).cnt.regionMiss = s.cnt.regionMiss := rfl
@[simp] theorem State.setCtr_cnt_last (s : State) (b c : Nat) (x : ProgCtr) : (s.setCtr b c x).cnt.last = s.cnt.last := rfl
@[simp] theorem State.setCtr_cnt_hist (s : State) (b c : Nat) (x : ProgCtr) : (s.setCtr b c x).cnt.hist = s.cnt.hist := rfl
@[simp] theorem State.setCtr_cnt_inst (s : State) (b c : Nat) (x : ProgCtr) : (s.setCtr b c x).cnt.inst = s.cnt.inst := rfl
@[simp] theorem State.setCtr_cnt_instHist (s : State) (b c : Nat) (x : ProgCtr) : (s.setCtr b c x).cnt.instHist = s.cnt.instHist := rfl
@[simp] theorem State.setCtr_cnt_dump (s : State) (b c : Nat) (x : ProgCtr) : (s.setCtr b c x).cnt.dump = s.cnt.dump := rfl
@[simp] theorem State.setCtr_cnt_seq (s : State) (b c : Nat) (x : ProgCtr) : (s.setCtr b c x).cnt.seq = s.cnt.seq := rfl
@[simp] theorem State.setCtr_cnt_skipped (s : State) (b c : Nat) (x : ProgCtr) : (s.setCtr b c x).cnt.skipped = s.cnt.skipped := rfl
@[simp] theorem State.setCtr_cnt_prevTide (s : State) (b c : Nat) (x : ProgCtr) : (s.setCtr b c x).cnt.prevTide = s.cnt.prevTide := rfl
@[simp] theorem State.setCtr_mgt (s : State) (b c : Nat) (x : ProgCtr) : (s.setCtr b c x).mgt = s.mgt := rfl
@[simp] theorem State.setCtr_kept (s : State) (b c : Nat) (x : ProgCtr) : (s.setCtr b c x).kept = s.kept := rfl
@[simp] theorem State.setCtr_lastRead (s : State) (b c : Nat) (x : ProgCtr) : (s.setCtr b c x).lastRead = s.lastRead := rfl
@[simp] theorem State.setCtr_pending (s : State) (b c : Nat) (x : ProgCtr) : (s.setCtr b c x).pending = s.pending := rfl

/-! `State.endStanding` writes flt alone. -/
@[simp] theorem State.endStanding_part (s : State) (blk i : Nat) : (s.endStanding blk i).part = s.part := rfl
@[simp] theorem State.endStanding_now (s : State) (blk i : Nat) : (s.endStanding blk i).now = s.now := rfl
@[simp] theorem State.endStanding_draws (s : State) (blk i : Nat) : (s.endStanding blk i).draws = s.draws := rfl
@[simp] theorem State.endStanding_regs (s : State) (blk i : Nat) : (s.endStanding blk i).regs = s.regs := rfl
@[simp] theorem State.endStanding_req (s : State) (blk i : Nat) : (s.endStanding blk i).req = s.req := rfl
@[simp] theorem State.endStanding_flt_last (s : State) (blk i : Nat) : (s.endStanding blk i).flt.last = s.flt.last := rfl
@[simp] theorem State.endStanding_flt_sticky (s : State) (blk i : Nat) : (s.endStanding blk i).flt.sticky = s.flt.sticky := rfl
@[simp] theorem State.endStanding_flt_msiDue (s : State) (blk i : Nat) : (s.endStanding blk i).flt.msiDue = s.flt.msiDue := rfl
@[simp] theorem State.endStanding_flt_msiLast (s : State) (blk i : Nat) : (s.endStanding blk i).flt.msiLast = s.flt.msiLast := rfl
@[simp] theorem State.endStanding_flt_msiSent (s : State) (blk i : Nat) : (s.endStanding blk i).flt.msiSent = s.flt.msiSent := rfl
@[simp] theorem State.endStanding_flt_pulse (s : State) (blk i : Nat) : (s.endStanding blk i).flt.pulse = s.flt.pulse := rfl
@[simp] theorem State.endStanding_flt_pulseNext (s : State) (blk i : Nat) : (s.endStanding blk i).flt.pulseNext = s.flt.pulseNext := rfl
@[simp] theorem State.endStanding_flt_pulseEnd (s : State) (blk i : Nat) : (s.endStanding blk i).flt.pulseEnd = s.flt.pulseEnd := rfl
@[simp] theorem State.endStanding_rt (s : State) (blk i : Nat) : (s.endStanding blk i).rt = s.rt := rfl
@[simp] theorem State.endStanding_lnk (s : State) (blk i : Nat) : (s.endStanding blk i).lnk = s.lnk := rfl
@[simp] theorem State.endStanding_pwr (s : State) (blk i : Nat) : (s.endStanding blk i).pwr = s.pwr := rfl
@[simp] theorem State.endStanding_tim (s : State) (blk i : Nat) : (s.endStanding blk i).tim = s.tim := rfl
@[simp] theorem State.endStanding_xpt (s : State) (blk i : Nat) : (s.endStanding blk i).xpt = s.xpt := rfl
@[simp] theorem State.endStanding_obj (s : State) (blk i : Nat) : (s.endStanding blk i).obj = s.obj := rfl
@[simp] theorem State.endStanding_inj (s : State) (blk i : Nat) : (s.endStanding blk i).inj = s.inj := rfl
@[simp] theorem State.endStanding_hpt (s : State) (blk i : Nat) : (s.endStanding blk i).hpt = s.hpt := rfl
@[simp] theorem State.endStanding_xlt (s : State) (blk i : Nat) : (s.endStanding blk i).xlt = s.xlt := rfl
@[simp] theorem State.endStanding_mat (s : State) (blk i : Nat) : (s.endStanding blk i).mat = s.mat := rfl
@[simp] theorem State.endStanding_ram (s : State) (blk i : Nat) : (s.endStanding blk i).ram = s.ram := rfl
@[simp] theorem State.endStanding_atu (s : State) (blk i : Nat) : (s.endStanding blk i).atu = s.atu := rfl
@[simp] theorem State.endStanding_col (s : State) (blk i : Nat) : (s.endStanding blk i).col = s.col := rfl
@[simp] theorem State.endStanding_cnt (s : State) (blk i : Nat) : (s.endStanding blk i).cnt = s.cnt := rfl
@[simp] theorem State.endStanding_mgt (s : State) (blk i : Nat) : (s.endStanding blk i).mgt = s.mgt := rfl
@[simp] theorem State.endStanding_kept (s : State) (blk i : Nat) : (s.endStanding blk i).kept = s.kept := rfl
@[simp] theorem State.endStanding_lastRead (s : State) (blk i : Nat) : (s.endStanding blk i).lastRead = s.lastRead := rfl
@[simp] theorem State.endStanding_pending (s : State) (blk i : Nat) : (s.endStanding blk i).pending = s.pending := rfl

/-! `State.modInst` writes obj alone. -/
@[simp] theorem State.modInst_part (s : State) (i : Nat) (f : Inst → Inst) : (s.modInst i f).part = s.part := rfl
@[simp] theorem State.modInst_now (s : State) (i : Nat) (f : Inst → Inst) : (s.modInst i f).now = s.now := rfl
@[simp] theorem State.modInst_draws (s : State) (i : Nat) (f : Inst → Inst) : (s.modInst i f).draws = s.draws := rfl
@[simp] theorem State.modInst_regs (s : State) (i : Nat) (f : Inst → Inst) : (s.modInst i f).regs = s.regs := rfl
@[simp] theorem State.modInst_req (s : State) (i : Nat) (f : Inst → Inst) : (s.modInst i f).req = s.req := rfl
@[simp] theorem State.modInst_flt (s : State) (i : Nat) (f : Inst → Inst) : (s.modInst i f).flt = s.flt := rfl
@[simp] theorem State.modInst_rt (s : State) (i : Nat) (f : Inst → Inst) : (s.modInst i f).rt = s.rt := rfl
@[simp] theorem State.modInst_lnk (s : State) (i : Nat) (f : Inst → Inst) : (s.modInst i f).lnk = s.lnk := rfl
@[simp] theorem State.modInst_pwr (s : State) (i : Nat) (f : Inst → Inst) : (s.modInst i f).pwr = s.pwr := rfl
@[simp] theorem State.modInst_tim (s : State) (i : Nat) (f : Inst → Inst) : (s.modInst i f).tim = s.tim := rfl
@[simp] theorem State.modInst_xpt (s : State) (i : Nat) (f : Inst → Inst) : (s.modInst i f).xpt = s.xpt := rfl
@[simp] theorem State.modInst_obj_queues (s : State) (i : Nat) (f : Inst → Inst) : (s.modInst i f).obj.queues = s.obj.queues := rfl
@[simp] theorem State.modInst_obj_slots (s : State) (i : Nat) (f : Inst → Inst) : (s.modInst i f).obj.slots = s.obj.slots := rfl
@[simp] theorem State.modInst_obj_adm (s : State) (i : Nat) (f : Inst → Inst) : (s.modInst i f).obj.adm = s.obj.adm := rfl
@[simp] theorem State.modInst_obj_flr (s : State) (i : Nat) (f : Inst → Inst) : (s.modInst i f).obj.flr = s.obj.flr := rfl
@[simp] theorem State.modInst_obj_pds (s : State) (i : Nat) (f : Inst → Inst) : (s.modInst i f).obj.pds = s.obj.pds := rfl
@[simp] theorem State.modInst_obj_regions (s : State) (i : Nat) (f : Inst → Inst) : (s.modInst i f).obj.regions = s.obj.regions := rfl
@[simp] theorem State.modInst_inj (s : State) (i : Nat) (f : Inst → Inst) : (s.modInst i f).inj = s.inj := rfl
@[simp] theorem State.modInst_hpt (s : State) (i : Nat) (f : Inst → Inst) : (s.modInst i f).hpt = s.hpt := rfl
@[simp] theorem State.modInst_xlt (s : State) (i : Nat) (f : Inst → Inst) : (s.modInst i f).xlt = s.xlt := rfl
@[simp] theorem State.modInst_mat (s : State) (i : Nat) (f : Inst → Inst) : (s.modInst i f).mat = s.mat := rfl
@[simp] theorem State.modInst_ram (s : State) (i : Nat) (f : Inst → Inst) : (s.modInst i f).ram = s.ram := rfl
@[simp] theorem State.modInst_atu (s : State) (i : Nat) (f : Inst → Inst) : (s.modInst i f).atu = s.atu := rfl
@[simp] theorem State.modInst_col (s : State) (i : Nat) (f : Inst → Inst) : (s.modInst i f).col = s.col := rfl
@[simp] theorem State.modInst_cnt (s : State) (i : Nat) (f : Inst → Inst) : (s.modInst i f).cnt = s.cnt := rfl
@[simp] theorem State.modInst_mgt (s : State) (i : Nat) (f : Inst → Inst) : (s.modInst i f).mgt = s.mgt := rfl
@[simp] theorem State.modInst_kept (s : State) (i : Nat) (f : Inst → Inst) : (s.modInst i f).kept = s.kept := rfl
@[simp] theorem State.modInst_lastRead (s : State) (i : Nat) (f : Inst → Inst) : (s.modInst i f).lastRead = s.lastRead := rfl
@[simp] theorem State.modInst_pending (s : State) (i : Nat) (f : Inst → Inst) : (s.modInst i f).pending = s.pending := rfl

/-! `State.modConn` writes xpt alone. -/
@[simp] theorem State.modConn_part (s : State) (h : Nat) (f : Conn → Conn) : (s.modConn h f).part = s.part := rfl
@[simp] theorem State.modConn_now (s : State) (h : Nat) (f : Conn → Conn) : (s.modConn h f).now = s.now := rfl
@[simp] theorem State.modConn_draws (s : State) (h : Nat) (f : Conn → Conn) : (s.modConn h f).draws = s.draws := rfl
@[simp] theorem State.modConn_regs (s : State) (h : Nat) (f : Conn → Conn) : (s.modConn h f).regs = s.regs := rfl
@[simp] theorem State.modConn_req (s : State) (h : Nat) (f : Conn → Conn) : (s.modConn h f).req = s.req := rfl
@[simp] theorem State.modConn_flt (s : State) (h : Nat) (f : Conn → Conn) : (s.modConn h f).flt = s.flt := rfl
@[simp] theorem State.modConn_rt (s : State) (h : Nat) (f : Conn → Conn) : (s.modConn h f).rt = s.rt := rfl
@[simp] theorem State.modConn_lnk (s : State) (h : Nat) (f : Conn → Conn) : (s.modConn h f).lnk = s.lnk := rfl
@[simp] theorem State.modConn_pwr (s : State) (h : Nat) (f : Conn → Conn) : (s.modConn h f).pwr = s.pwr := rfl
@[simp] theorem State.modConn_tim (s : State) (h : Nat) (f : Conn → Conn) : (s.modConn h f).tim = s.tim := rfl
@[simp] theorem State.modConn_xpt_msgs (s : State) (h : Nat) (f : Conn → Conn) : (s.modConn h f).xpt.msgs = s.xpt.msgs := rfl
@[simp] theorem State.modConn_xpt_nextMsg (s : State) (h : Nat) (f : Conn → Conn) : (s.modConn h f).xpt.nextMsg = s.xpt.nextMsg := rfl
@[simp] theorem State.modConn_xpt_curve (s : State) (h : Nat) (f : Conn → Conn) : (s.modConn h f).xpt.curve = s.xpt.curve := rfl
@[simp] theorem State.modConn_xpt_swaps (s : State) (h : Nat) (f : Conn → Conn) : (s.modConn h f).xpt.swaps = s.xpt.swaps := rfl
@[simp] theorem State.modConn_obj (s : State) (h : Nat) (f : Conn → Conn) : (s.modConn h f).obj = s.obj := rfl
@[simp] theorem State.modConn_inj (s : State) (h : Nat) (f : Conn → Conn) : (s.modConn h f).inj = s.inj := rfl
@[simp] theorem State.modConn_hpt (s : State) (h : Nat) (f : Conn → Conn) : (s.modConn h f).hpt = s.hpt := rfl
@[simp] theorem State.modConn_xlt (s : State) (h : Nat) (f : Conn → Conn) : (s.modConn h f).xlt = s.xlt := rfl
@[simp] theorem State.modConn_mat (s : State) (h : Nat) (f : Conn → Conn) : (s.modConn h f).mat = s.mat := rfl
@[simp] theorem State.modConn_ram (s : State) (h : Nat) (f : Conn → Conn) : (s.modConn h f).ram = s.ram := rfl
@[simp] theorem State.modConn_atu (s : State) (h : Nat) (f : Conn → Conn) : (s.modConn h f).atu = s.atu := rfl
@[simp] theorem State.modConn_col (s : State) (h : Nat) (f : Conn → Conn) : (s.modConn h f).col = s.col := rfl
@[simp] theorem State.modConn_cnt (s : State) (h : Nat) (f : Conn → Conn) : (s.modConn h f).cnt = s.cnt := rfl
@[simp] theorem State.modConn_mgt (s : State) (h : Nat) (f : Conn → Conn) : (s.modConn h f).mgt = s.mgt := rfl
@[simp] theorem State.modConn_kept (s : State) (h : Nat) (f : Conn → Conn) : (s.modConn h f).kept = s.kept := rfl
@[simp] theorem State.modConn_lastRead (s : State) (h : Nat) (f : Conn → Conn) : (s.modConn h f).lastRead = s.lastRead := rfl
@[simp] theorem State.modConn_pending (s : State) (h : Nat) (f : Conn → Conn) : (s.modConn h f).pending = s.pending := rfl

/-! `State.cutTokens` writes inj alone. -/
@[simp] theorem State.cutTokens_part (s : State) (i c : Nat) : (s.cutTokens i c).part = s.part := rfl
@[simp] theorem State.cutTokens_now (s : State) (i c : Nat) : (s.cutTokens i c).now = s.now := rfl
@[simp] theorem State.cutTokens_draws (s : State) (i c : Nat) : (s.cutTokens i c).draws = s.draws := rfl
@[simp] theorem State.cutTokens_regs (s : State) (i c : Nat) : (s.cutTokens i c).regs = s.regs := rfl
@[simp] theorem State.cutTokens_req (s : State) (i c : Nat) : (s.cutTokens i c).req = s.req := rfl
@[simp] theorem State.cutTokens_flt (s : State) (i c : Nat) : (s.cutTokens i c).flt = s.flt := rfl
@[simp] theorem State.cutTokens_rt (s : State) (i c : Nat) : (s.cutTokens i c).rt = s.rt := rfl
@[simp] theorem State.cutTokens_lnk (s : State) (i c : Nat) : (s.cutTokens i c).lnk = s.lnk := rfl
@[simp] theorem State.cutTokens_pwr (s : State) (i c : Nat) : (s.cutTokens i c).pwr = s.pwr := rfl
@[simp] theorem State.cutTokens_tim (s : State) (i c : Nat) : (s.cutTokens i c).tim = s.tim := rfl
@[simp] theorem State.cutTokens_xpt (s : State) (i c : Nat) : (s.cutTokens i c).xpt = s.xpt := rfl
@[simp] theorem State.cutTokens_obj (s : State) (i c : Nat) : (s.cutTokens i c).obj = s.obj := rfl
@[simp] theorem State.cutTokens_inj_ctl (s : State) (i c : Nat) : (s.cutTokens i c).inj.ctl = s.inj.ctl := rfl
@[simp] theorem State.cutTokens_inj_cur (s : State) (i c : Nat) : (s.cutTokens i c).inj.cur = s.inj.cur := rfl
@[simp] theorem State.cutTokens_inj_fresh (s : State) (i c : Nat) : (s.cutTokens i c).inj.fresh = s.inj.fresh := rfl
@[simp] theorem State.cutTokens_inj_instDef (s : State) (i c : Nat) : (s.cutTokens i c).inj.instDef = s.inj.instDef := rfl
@[simp] theorem State.cutTokens_inj_classCur (s : State) (i c : Nat) : (s.cutTokens i c).inj.classCur = s.inj.classCur := rfl
@[simp] theorem State.cutTokens_inj_classFresh (s : State) (i c : Nat) : (s.cutTokens i c).inj.classFresh = s.inj.classFresh := rfl
@[simp] theorem State.cutTokens_inj_classDef (s : State) (i c : Nat) : (s.cutTokens i c).inj.classDef = s.inj.classDef := rfl
@[simp] theorem State.cutTokens_hpt (s : State) (i c : Nat) : (s.cutTokens i c).hpt = s.hpt := rfl
@[simp] theorem State.cutTokens_xlt (s : State) (i c : Nat) : (s.cutTokens i c).xlt = s.xlt := rfl
@[simp] theorem State.cutTokens_mat (s : State) (i c : Nat) : (s.cutTokens i c).mat = s.mat := rfl
@[simp] theorem State.cutTokens_ram (s : State) (i c : Nat) : (s.cutTokens i c).ram = s.ram := rfl
@[simp] theorem State.cutTokens_atu (s : State) (i c : Nat) : (s.cutTokens i c).atu = s.atu := rfl
@[simp] theorem State.cutTokens_col (s : State) (i c : Nat) : (s.cutTokens i c).col = s.col := rfl
@[simp] theorem State.cutTokens_cnt (s : State) (i c : Nat) : (s.cutTokens i c).cnt = s.cnt := rfl
@[simp] theorem State.cutTokens_mgt (s : State) (i c : Nat) : (s.cutTokens i c).mgt = s.mgt := rfl
@[simp] theorem State.cutTokens_kept (s : State) (i c : Nat) : (s.cutTokens i c).kept = s.kept := rfl
@[simp] theorem State.cutTokens_lastRead (s : State) (i c : Nat) : (s.cutTokens i c).lastRead = s.lastRead := rfl
@[simp] theorem State.cutTokens_pending (s : State) (i c : Nat) : (s.cutTokens i c).pending = s.pending := rfl

/-! `State.modLink` writes lnk alone. -/
@[simp] theorem State.modLink_part (s : State) (p : Nat) (f : Link → Link) : (s.modLink p f).part = s.part := rfl
@[simp] theorem State.modLink_now (s : State) (p : Nat) (f : Link → Link) : (s.modLink p f).now = s.now := rfl
@[simp] theorem State.modLink_draws (s : State) (p : Nat) (f : Link → Link) : (s.modLink p f).draws = s.draws := rfl
@[simp] theorem State.modLink_regs (s : State) (p : Nat) (f : Link → Link) : (s.modLink p f).regs = s.regs := rfl
@[simp] theorem State.modLink_req (s : State) (p : Nat) (f : Link → Link) : (s.modLink p f).req = s.req := rfl
@[simp] theorem State.modLink_flt (s : State) (p : Nat) (f : Link → Link) : (s.modLink p f).flt = s.flt := rfl
@[simp] theorem State.modLink_rt (s : State) (p : Nat) (f : Link → Link) : (s.modLink p f).rt = s.rt := rfl
@[simp] theorem State.modLink_lnk_lanes (s : State) (p : Nat) (f : Link → Link) : (s.modLink p f).lnk.lanes = s.lnk.lanes := rfl
@[simp] theorem State.modLink_lnk_eqTable (s : State) (p : Nat) (f : Link → Link) : (s.modLink p f).lnk.eqTable = s.lnk.eqTable := rfl
@[simp] theorem State.modLink_lnk_line (s : State) (p : Nat) (f : Link → Link) : (s.modLink p f).lnk.line = s.lnk.line := rfl
@[simp] theorem State.modLink_pwr (s : State) (p : Nat) (f : Link → Link) : (s.modLink p f).pwr = s.pwr := rfl
@[simp] theorem State.modLink_tim (s : State) (p : Nat) (f : Link → Link) : (s.modLink p f).tim = s.tim := rfl
@[simp] theorem State.modLink_xpt (s : State) (p : Nat) (f : Link → Link) : (s.modLink p f).xpt = s.xpt := rfl
@[simp] theorem State.modLink_obj (s : State) (p : Nat) (f : Link → Link) : (s.modLink p f).obj = s.obj := rfl
@[simp] theorem State.modLink_inj (s : State) (p : Nat) (f : Link → Link) : (s.modLink p f).inj = s.inj := rfl
@[simp] theorem State.modLink_hpt (s : State) (p : Nat) (f : Link → Link) : (s.modLink p f).hpt = s.hpt := rfl
@[simp] theorem State.modLink_xlt (s : State) (p : Nat) (f : Link → Link) : (s.modLink p f).xlt = s.xlt := rfl
@[simp] theorem State.modLink_mat (s : State) (p : Nat) (f : Link → Link) : (s.modLink p f).mat = s.mat := rfl
@[simp] theorem State.modLink_ram (s : State) (p : Nat) (f : Link → Link) : (s.modLink p f).ram = s.ram := rfl
@[simp] theorem State.modLink_atu (s : State) (p : Nat) (f : Link → Link) : (s.modLink p f).atu = s.atu := rfl
@[simp] theorem State.modLink_col (s : State) (p : Nat) (f : Link → Link) : (s.modLink p f).col = s.col := rfl
@[simp] theorem State.modLink_cnt (s : State) (p : Nat) (f : Link → Link) : (s.modLink p f).cnt = s.cnt := rfl
@[simp] theorem State.modLink_mgt (s : State) (p : Nat) (f : Link → Link) : (s.modLink p f).mgt = s.mgt := rfl
@[simp] theorem State.modLink_kept (s : State) (p : Nat) (f : Link → Link) : (s.modLink p f).kept = s.kept := rfl
@[simp] theorem State.modLink_lastRead (s : State) (p : Nat) (f : Link → Link) : (s.modLink p f).lastRead = s.lastRead := rfl
@[simp] theorem State.modLink_pending (s : State) (p : Nat) (f : Link → Link) : (s.modLink p f).pending = s.pending := rfl

/-! `State.modLane` writes lnk alone. -/
@[simp] theorem State.modLane_part (s : State) (l : Nat) (f : Lane → Lane) : (s.modLane l f).part = s.part := rfl
@[simp] theorem State.modLane_now (s : State) (l : Nat) (f : Lane → Lane) : (s.modLane l f).now = s.now := rfl
@[simp] theorem State.modLane_draws (s : State) (l : Nat) (f : Lane → Lane) : (s.modLane l f).draws = s.draws := rfl
@[simp] theorem State.modLane_regs (s : State) (l : Nat) (f : Lane → Lane) : (s.modLane l f).regs = s.regs := rfl
@[simp] theorem State.modLane_req (s : State) (l : Nat) (f : Lane → Lane) : (s.modLane l f).req = s.req := rfl
@[simp] theorem State.modLane_flt (s : State) (l : Nat) (f : Lane → Lane) : (s.modLane l f).flt = s.flt := rfl
@[simp] theorem State.modLane_rt (s : State) (l : Nat) (f : Lane → Lane) : (s.modLane l f).rt = s.rt := rfl
@[simp] theorem State.modLane_lnk_links (s : State) (l : Nat) (f : Lane → Lane) : (s.modLane l f).lnk.links = s.lnk.links := rfl
@[simp] theorem State.modLane_lnk_eqTable (s : State) (l : Nat) (f : Lane → Lane) : (s.modLane l f).lnk.eqTable = s.lnk.eqTable := rfl
@[simp] theorem State.modLane_lnk_line (s : State) (l : Nat) (f : Lane → Lane) : (s.modLane l f).lnk.line = s.lnk.line := rfl
@[simp] theorem State.modLane_pwr (s : State) (l : Nat) (f : Lane → Lane) : (s.modLane l f).pwr = s.pwr := rfl
@[simp] theorem State.modLane_tim (s : State) (l : Nat) (f : Lane → Lane) : (s.modLane l f).tim = s.tim := rfl
@[simp] theorem State.modLane_xpt (s : State) (l : Nat) (f : Lane → Lane) : (s.modLane l f).xpt = s.xpt := rfl
@[simp] theorem State.modLane_obj (s : State) (l : Nat) (f : Lane → Lane) : (s.modLane l f).obj = s.obj := rfl
@[simp] theorem State.modLane_inj (s : State) (l : Nat) (f : Lane → Lane) : (s.modLane l f).inj = s.inj := rfl
@[simp] theorem State.modLane_hpt (s : State) (l : Nat) (f : Lane → Lane) : (s.modLane l f).hpt = s.hpt := rfl
@[simp] theorem State.modLane_xlt (s : State) (l : Nat) (f : Lane → Lane) : (s.modLane l f).xlt = s.xlt := rfl
@[simp] theorem State.modLane_mat (s : State) (l : Nat) (f : Lane → Lane) : (s.modLane l f).mat = s.mat := rfl
@[simp] theorem State.modLane_ram (s : State) (l : Nat) (f : Lane → Lane) : (s.modLane l f).ram = s.ram := rfl
@[simp] theorem State.modLane_atu (s : State) (l : Nat) (f : Lane → Lane) : (s.modLane l f).atu = s.atu := rfl
@[simp] theorem State.modLane_col (s : State) (l : Nat) (f : Lane → Lane) : (s.modLane l f).col = s.col := rfl
@[simp] theorem State.modLane_cnt (s : State) (l : Nat) (f : Lane → Lane) : (s.modLane l f).cnt = s.cnt := rfl
@[simp] theorem State.modLane_mgt (s : State) (l : Nat) (f : Lane → Lane) : (s.modLane l f).mgt = s.mgt := rfl
@[simp] theorem State.modLane_kept (s : State) (l : Nat) (f : Lane → Lane) : (s.modLane l f).kept = s.kept := rfl
@[simp] theorem State.modLane_lastRead (s : State) (l : Nat) (f : Lane → Lane) : (s.modLane l f).lastRead = s.lastRead := rfl
@[simp] theorem State.modLane_pending (s : State) (l : Nat) (f : Lane → Lane) : (s.modLane l f).pending = s.pending := rfl

/-! `State.loseBanks` writes xpt alone. -/
@[simp] theorem State.loseBanks_part (s : State) (t mask : Nat) : (s.loseBanks t mask).part = s.part := rfl
@[simp] theorem State.loseBanks_now (s : State) (t mask : Nat) : (s.loseBanks t mask).now = s.now := rfl
@[simp] theorem State.loseBanks_draws (s : State) (t mask : Nat) : (s.loseBanks t mask).draws = s.draws := rfl
@[simp] theorem State.loseBanks_regs (s : State) (t mask : Nat) : (s.loseBanks t mask).regs = s.regs := rfl
@[simp] theorem State.loseBanks_req (s : State) (t mask : Nat) : (s.loseBanks t mask).req = s.req := rfl
@[simp] theorem State.loseBanks_flt (s : State) (t mask : Nat) : (s.loseBanks t mask).flt = s.flt := rfl
@[simp] theorem State.loseBanks_rt (s : State) (t mask : Nat) : (s.loseBanks t mask).rt = s.rt := rfl
@[simp] theorem State.loseBanks_lnk (s : State) (t mask : Nat) : (s.loseBanks t mask).lnk = s.lnk := rfl
@[simp] theorem State.loseBanks_pwr (s : State) (t mask : Nat) : (s.loseBanks t mask).pwr = s.pwr := rfl
@[simp] theorem State.loseBanks_tim (s : State) (t mask : Nat) : (s.loseBanks t mask).tim = s.tim := rfl
@[simp] theorem State.loseBanks_xpt_msgs (s : State) (t mask : Nat) : (s.loseBanks t mask).xpt.msgs = s.xpt.msgs := rfl
@[simp] theorem State.loseBanks_xpt_nextMsg (s : State) (t mask : Nat) : (s.loseBanks t mask).xpt.nextMsg = s.xpt.nextMsg := rfl
@[simp] theorem State.loseBanks_xpt_curve (s : State) (t mask : Nat) : (s.loseBanks t mask).xpt.curve = s.xpt.curve := rfl
@[simp] theorem State.loseBanks_xpt_swaps (s : State) (t mask : Nat) : (s.loseBanks t mask).xpt.swaps = s.xpt.swaps := rfl
@[simp] theorem State.loseBanks_obj (s : State) (t mask : Nat) : (s.loseBanks t mask).obj = s.obj := rfl
@[simp] theorem State.loseBanks_inj (s : State) (t mask : Nat) : (s.loseBanks t mask).inj = s.inj := rfl
@[simp] theorem State.loseBanks_hpt (s : State) (t mask : Nat) : (s.loseBanks t mask).hpt = s.hpt := rfl
@[simp] theorem State.loseBanks_xlt (s : State) (t mask : Nat) : (s.loseBanks t mask).xlt = s.xlt := rfl
@[simp] theorem State.loseBanks_mat (s : State) (t mask : Nat) : (s.loseBanks t mask).mat = s.mat := rfl
@[simp] theorem State.loseBanks_ram (s : State) (t mask : Nat) : (s.loseBanks t mask).ram = s.ram := rfl
@[simp] theorem State.loseBanks_atu (s : State) (t mask : Nat) : (s.loseBanks t mask).atu = s.atu := rfl
@[simp] theorem State.loseBanks_col (s : State) (t mask : Nat) : (s.loseBanks t mask).col = s.col := rfl
@[simp] theorem State.loseBanks_cnt (s : State) (t mask : Nat) : (s.loseBanks t mask).cnt = s.cnt := rfl
@[simp] theorem State.loseBanks_mgt (s : State) (t mask : Nat) : (s.loseBanks t mask).mgt = s.mgt := rfl
@[simp] theorem State.loseBanks_kept (s : State) (t mask : Nat) : (s.loseBanks t mask).kept = s.kept := rfl
@[simp] theorem State.loseBanks_lastRead (s : State) (t mask : Nat) : (s.loseBanks t mask).lastRead = s.lastRead := rfl
@[simp] theorem State.loseBanks_pending (s : State) (t mask : Nat) : (s.loseBanks t mask).pending = s.pending := rfl

/-! `State.evictPosted` writes mat alone. -/
@[simp] theorem State.evictPosted_part (s : State) (t : Nat) : (s.evictPosted t).part = s.part := rfl
@[simp] theorem State.evictPosted_now (s : State) (t : Nat) : (s.evictPosted t).now = s.now := rfl
@[simp] theorem State.evictPosted_draws (s : State) (t : Nat) : (s.evictPosted t).draws = s.draws := rfl
@[simp] theorem State.evictPosted_regs (s : State) (t : Nat) : (s.evictPosted t).regs = s.regs := rfl
@[simp] theorem State.evictPosted_req (s : State) (t : Nat) : (s.evictPosted t).req = s.req := rfl
@[simp] theorem State.evictPosted_flt (s : State) (t : Nat) : (s.evictPosted t).flt = s.flt := rfl
@[simp] theorem State.evictPosted_rt (s : State) (t : Nat) : (s.evictPosted t).rt = s.rt := rfl
@[simp] theorem State.evictPosted_lnk (s : State) (t : Nat) : (s.evictPosted t).lnk = s.lnk := rfl
@[simp] theorem State.evictPosted_pwr (s : State) (t : Nat) : (s.evictPosted t).pwr = s.pwr := rfl
@[simp] theorem State.evictPosted_tim (s : State) (t : Nat) : (s.evictPosted t).tim = s.tim := rfl
@[simp] theorem State.evictPosted_xpt (s : State) (t : Nat) : (s.evictPosted t).xpt = s.xpt := rfl
@[simp] theorem State.evictPosted_obj (s : State) (t : Nat) : (s.evictPosted t).obj = s.obj := rfl
@[simp] theorem State.evictPosted_inj (s : State) (t : Nat) : (s.evictPosted t).inj = s.inj := rfl
@[simp] theorem State.evictPosted_hpt (s : State) (t : Nat) : (s.evictPosted t).hpt = s.hpt := rfl
@[simp] theorem State.evictPosted_xlt (s : State) (t : Nat) : (s.evictPosted t).xlt = s.xlt := rfl
@[simp] theorem State.evictPosted_mat_store (s : State) (t : Nat) : (s.evictPosted t).mat.store = s.mat.store := rfl
@[simp] theorem State.evictPosted_mat_nextStore (s : State) (t : Nat) : (s.evictPosted t).mat.nextStore = s.mat.nextStore := rfl
@[simp] theorem State.evictPosted_mat_pullWait (s : State) (t : Nat) : (s.evictPosted t).mat.pullWait = s.mat.pullWait := rfl
@[simp] theorem State.evictPosted_mat_formats (s : State) (t : Nat) : (s.evictPosted t).mat.formats = s.mat.formats := rfl
@[simp] theorem State.evictPosted_mat_protocols (s : State) (t : Nat) : (s.evictPosted t).mat.protocols = s.mat.protocols := rfl
@[simp] theorem State.evictPosted_ram (s : State) (t : Nat) : (s.evictPosted t).ram = s.ram := rfl
@[simp] theorem State.evictPosted_atu (s : State) (t : Nat) : (s.evictPosted t).atu = s.atu := rfl
@[simp] theorem State.evictPosted_col (s : State) (t : Nat) : (s.evictPosted t).col = s.col := rfl
@[simp] theorem State.evictPosted_cnt (s : State) (t : Nat) : (s.evictPosted t).cnt = s.cnt := rfl
@[simp] theorem State.evictPosted_mgt (s : State) (t : Nat) : (s.evictPosted t).mgt = s.mgt := rfl
@[simp] theorem State.evictPosted_kept (s : State) (t : Nat) : (s.evictPosted t).kept = s.kept := rfl
@[simp] theorem State.evictPosted_lastRead (s : State) (t : Nat) : (s.evictPosted t).lastRead = s.lastRead := rfl
@[simp] theorem State.evictPosted_pending (s : State) (t : Nat) : (s.evictPosted t).pending = s.pending := rfl

/-! `State.acquireAgain` writes tim alone. -/
@[simp] theorem State.acquireAgain_part (s : State) : (s.acquireAgain).part = s.part := rfl
@[simp] theorem State.acquireAgain_now (s : State) : (s.acquireAgain).now = s.now := rfl
@[simp] theorem State.acquireAgain_draws (s : State) : (s.acquireAgain).draws = s.draws := rfl
@[simp] theorem State.acquireAgain_regs (s : State) : (s.acquireAgain).regs = s.regs := rfl
@[simp] theorem State.acquireAgain_req (s : State) : (s.acquireAgain).req = s.req := rfl
@[simp] theorem State.acquireAgain_flt (s : State) : (s.acquireAgain).flt = s.flt := rfl
@[simp] theorem State.acquireAgain_rt (s : State) : (s.acquireAgain).rt = s.rt := rfl
@[simp] theorem State.acquireAgain_lnk (s : State) : (s.acquireAgain).lnk = s.lnk := rfl
@[simp] theorem State.acquireAgain_pwr (s : State) : (s.acquireAgain).pwr = s.pwr := rfl
@[simp] theorem State.acquireAgain_tim_slew (s : State) : (s.acquireAgain).tim.slew = s.tim.slew := rfl
@[simp] theorem State.acquireAgain_tim_slewUsed (s : State) : (s.acquireAgain).tim.slewUsed = s.tim.slewUsed := rfl
@[simp] theorem State.acquireAgain_tim_slewUs (s : State) : (s.acquireAgain).tim.slewUs = s.tim.slewUs := rfl
@[simp] theorem State.acquireAgain_tim_rate (s : State) : (s.acquireAgain).tim.rate = s.tim.rate := rfl
@[simp] theorem State.acquireAgain_tim_drift (s : State) : (s.acquireAgain).tim.drift = s.tim.drift := rfl
@[simp] theorem State.acquireAgain_tim_xchgNo (s : State) : (s.acquireAgain).tim.xchgNo = s.tim.xchgNo := rfl
@[simp] theorem State.acquireAgain_tim_t1 (s : State) : (s.acquireAgain).tim.t1 = s.tim.t1 := rfl
@[simp] theorem State.acquireAgain_tim_t4 (s : State) : (s.acquireAgain).tim.t4 = s.tim.t4 := rfl
@[simp] theorem State.acquireAgain_tim_t2 (s : State) : (s.acquireAgain).tim.t2 = s.tim.t2 := rfl
@[simp] theorem State.acquireAgain_tim_held (s : State) : (s.acquireAgain).tim.held = s.tim.held := rfl
@[simp] theorem State.acquireAgain_tim_stepped (s : State) : (s.acquireAgain).tim.stepped = s.tim.stepped := rfl
@[simp] theorem State.acquireAgain_tim_lastGood (s : State) : (s.acquireAgain).tim.lastGood = s.tim.lastGood := rfl
@[simp] theorem State.acquireAgain_tim_ppsEdges (s : State) : (s.acquireAgain).tim.ppsEdges = s.tim.ppsEdges := rfl
@[simp] theorem State.acquireAgain_tim_lastTide (s : State) : (s.acquireAgain).tim.lastTide = s.tim.lastTide := rfl
@[simp] theorem State.acquireAgain_tim_raised (s : State) : (s.acquireAgain).tim.raised = s.tim.raised := rfl
@[simp] theorem State.acquireAgain_tim_sched0 (s : State) : (s.acquireAgain).tim.sched0 = s.tim.sched0 := rfl
@[simp] theorem State.acquireAgain_tim_sched1 (s : State) : (s.acquireAgain).tim.sched1 = s.tim.sched1 := rfl
@[simp] theorem State.acquireAgain_tim_schedSwitchAt (s : State) : (s.acquireAgain).tim.schedSwitchAt = s.tim.schedSwitchAt := rfl
@[simp] theorem State.acquireAgain_tim_schedRetireFrom (s : State) : (s.acquireAgain).tim.schedRetireFrom = s.tim.schedRetireFrom := rfl
@[simp] theorem State.acquireAgain_tim_recs (s : State) : (s.acquireAgain).tim.recs = s.tim.recs := rfl
@[simp] theorem State.acquireAgain_tim_windows (s : State) : (s.acquireAgain).tim.windows = s.tim.windows := rfl
@[simp] theorem State.acquireAgain_tim_lastSent (s : State) : (s.acquireAgain).tim.lastSent = s.tim.lastSent := rfl
@[simp] theorem State.acquireAgain_tim_transitIn (s : State) : (s.acquireAgain).tim.transitIn = s.tim.transitIn := rfl
@[simp] theorem State.acquireAgain_tim_transitOut (s : State) : (s.acquireAgain).tim.transitOut = s.tim.transitOut := rfl
@[simp] theorem State.acquireAgain_tim_markOut (s : State) : (s.acquireAgain).tim.markOut = s.tim.markOut := rfl
@[simp] theorem State.acquireAgain_tim_begun (s : State) : (s.acquireAgain).tim.begun = s.tim.begun := rfl
@[simp] theorem State.acquireAgain_tim_resend (s : State) : (s.acquireAgain).tim.resend = s.tim.resend := rfl
@[simp] theorem State.acquireAgain_tim_ready (s : State) : (s.acquireAgain).tim.ready = s.tim.ready := rfl
@[simp] theorem State.acquireAgain_tim_holds (s : State) : (s.acquireAgain).tim.holds = s.tim.holds := rfl
@[simp] theorem State.acquireAgain_tim_timeOut (s : State) : (s.acquireAgain).tim.timeOut = s.tim.timeOut := rfl
@[simp] theorem State.acquireAgain_xpt (s : State) : (s.acquireAgain).xpt = s.xpt := rfl
@[simp] theorem State.acquireAgain_obj (s : State) : (s.acquireAgain).obj = s.obj := rfl
@[simp] theorem State.acquireAgain_inj (s : State) : (s.acquireAgain).inj = s.inj := rfl
@[simp] theorem State.acquireAgain_hpt (s : State) : (s.acquireAgain).hpt = s.hpt := rfl
@[simp] theorem State.acquireAgain_xlt (s : State) : (s.acquireAgain).xlt = s.xlt := rfl
@[simp] theorem State.acquireAgain_mat (s : State) : (s.acquireAgain).mat = s.mat := rfl
@[simp] theorem State.acquireAgain_ram (s : State) : (s.acquireAgain).ram = s.ram := rfl
@[simp] theorem State.acquireAgain_atu (s : State) : (s.acquireAgain).atu = s.atu := rfl
@[simp] theorem State.acquireAgain_col (s : State) : (s.acquireAgain).col = s.col := rfl
@[simp] theorem State.acquireAgain_cnt (s : State) : (s.acquireAgain).cnt = s.cnt := rfl
@[simp] theorem State.acquireAgain_mgt (s : State) : (s.acquireAgain).mgt = s.mgt := rfl
@[simp] theorem State.acquireAgain_kept (s : State) : (s.acquireAgain).kept = s.kept := rfl
@[simp] theorem State.acquireAgain_lastRead (s : State) : (s.acquireAgain).lastRead = s.lastRead := rfl
@[simp] theorem State.acquireAgain_pending (s : State) : (s.acquireAgain).pending = s.pending := rfl

/-! `State.modTile` writes pwr alone. -/
@[simp] theorem State.modTile_part (s : State) (t : Nat) (f : TilePwr → TilePwr) : (s.modTile t f).part = s.part := rfl
@[simp] theorem State.modTile_now (s : State) (t : Nat) (f : TilePwr → TilePwr) : (s.modTile t f).now = s.now := rfl
@[simp] theorem State.modTile_draws (s : State) (t : Nat) (f : TilePwr → TilePwr) : (s.modTile t f).draws = s.draws := rfl
@[simp] theorem State.modTile_regs (s : State) (t : Nat) (f : TilePwr → TilePwr) : (s.modTile t f).regs = s.regs := rfl
@[simp] theorem State.modTile_req (s : State) (t : Nat) (f : TilePwr → TilePwr) : (s.modTile t f).req = s.req := rfl
@[simp] theorem State.modTile_flt (s : State) (t : Nat) (f : TilePwr → TilePwr) : (s.modTile t f).flt = s.flt := rfl
@[simp] theorem State.modTile_rt (s : State) (t : Nat) (f : TilePwr → TilePwr) : (s.modTile t f).rt = s.rt := rfl
@[simp] theorem State.modTile_lnk (s : State) (t : Nat) (f : TilePwr → TilePwr) : (s.modTile t f).lnk = s.lnk := rfl
@[simp] theorem State.modTile_pwr_tasks (s : State) (t : Nat) (f : TilePwr → TilePwr) : (s.modTile t f).pwr.tasks = s.pwr.tasks := rfl
@[simp] theorem State.modTile_pwr_table (s : State) (t : Nat) (f : TilePwr → TilePwr) : (s.modTile t f).pwr.table = s.pwr.table := rfl
@[simp] theorem State.modTile_pwr_pllStarting (s : State) (t : Nat) (f : TilePwr → TilePwr) : (s.modTile t f).pwr.pllStarting = s.pwr.pllStarting := rfl
@[simp] theorem State.modTile_tim (s : State) (t : Nat) (f : TilePwr → TilePwr) : (s.modTile t f).tim = s.tim := rfl
@[simp] theorem State.modTile_xpt (s : State) (t : Nat) (f : TilePwr → TilePwr) : (s.modTile t f).xpt = s.xpt := rfl
@[simp] theorem State.modTile_obj (s : State) (t : Nat) (f : TilePwr → TilePwr) : (s.modTile t f).obj = s.obj := rfl
@[simp] theorem State.modTile_inj (s : State) (t : Nat) (f : TilePwr → TilePwr) : (s.modTile t f).inj = s.inj := rfl
@[simp] theorem State.modTile_hpt (s : State) (t : Nat) (f : TilePwr → TilePwr) : (s.modTile t f).hpt = s.hpt := rfl
@[simp] theorem State.modTile_xlt (s : State) (t : Nat) (f : TilePwr → TilePwr) : (s.modTile t f).xlt = s.xlt := rfl
@[simp] theorem State.modTile_mat (s : State) (t : Nat) (f : TilePwr → TilePwr) : (s.modTile t f).mat = s.mat := rfl
@[simp] theorem State.modTile_ram (s : State) (t : Nat) (f : TilePwr → TilePwr) : (s.modTile t f).ram = s.ram := rfl
@[simp] theorem State.modTile_atu (s : State) (t : Nat) (f : TilePwr → TilePwr) : (s.modTile t f).atu = s.atu := rfl
@[simp] theorem State.modTile_col (s : State) (t : Nat) (f : TilePwr → TilePwr) : (s.modTile t f).col = s.col := rfl
@[simp] theorem State.modTile_cnt (s : State) (t : Nat) (f : TilePwr → TilePwr) : (s.modTile t f).cnt = s.cnt := rfl
@[simp] theorem State.modTile_mgt (s : State) (t : Nat) (f : TilePwr → TilePwr) : (s.modTile t f).mgt = s.mgt := rfl
@[simp] theorem State.modTile_kept (s : State) (t : Nat) (f : TilePwr → TilePwr) : (s.modTile t f).kept = s.kept := rfl
@[simp] theorem State.modTile_lastRead (s : State) (t : Nat) (f : TilePwr → TilePwr) : (s.modTile t f).lastRead = s.lastRead := rfl
@[simp] theorem State.modTile_pending (s : State) (t : Nat) (f : TilePwr → TilePwr) : (s.modTile t f).pending = s.pending := rfl

/-! `State.modQueue` writes obj alone. -/
@[simp] theorem State.modQueue_part (s : State) (q : Nat) (f : Queue → Queue) : (s.modQueue q f).part = s.part := rfl
@[simp] theorem State.modQueue_now (s : State) (q : Nat) (f : Queue → Queue) : (s.modQueue q f).now = s.now := rfl
@[simp] theorem State.modQueue_draws (s : State) (q : Nat) (f : Queue → Queue) : (s.modQueue q f).draws = s.draws := rfl
@[simp] theorem State.modQueue_regs (s : State) (q : Nat) (f : Queue → Queue) : (s.modQueue q f).regs = s.regs := rfl
@[simp] theorem State.modQueue_req (s : State) (q : Nat) (f : Queue → Queue) : (s.modQueue q f).req = s.req := rfl
@[simp] theorem State.modQueue_flt (s : State) (q : Nat) (f : Queue → Queue) : (s.modQueue q f).flt = s.flt := rfl
@[simp] theorem State.modQueue_rt (s : State) (q : Nat) (f : Queue → Queue) : (s.modQueue q f).rt = s.rt := rfl
@[simp] theorem State.modQueue_lnk (s : State) (q : Nat) (f : Queue → Queue) : (s.modQueue q f).lnk = s.lnk := rfl
@[simp] theorem State.modQueue_pwr (s : State) (q : Nat) (f : Queue → Queue) : (s.modQueue q f).pwr = s.pwr := rfl
@[simp] theorem State.modQueue_tim (s : State) (q : Nat) (f : Queue → Queue) : (s.modQueue q f).tim = s.tim := rfl
@[simp] theorem State.modQueue_xpt (s : State) (q : Nat) (f : Queue → Queue) : (s.modQueue q f).xpt = s.xpt := rfl
@[simp] theorem State.modQueue_obj_slots (s : State) (q : Nat) (f : Queue → Queue) : (s.modQueue q f).obj.slots = s.obj.slots := rfl
@[simp] theorem State.modQueue_obj_adm (s : State) (q : Nat) (f : Queue → Queue) : (s.modQueue q f).obj.adm = s.obj.adm := rfl
@[simp] theorem State.modQueue_obj_flr (s : State) (q : Nat) (f : Queue → Queue) : (s.modQueue q f).obj.flr = s.obj.flr := rfl
@[simp] theorem State.modQueue_obj_insts (s : State) (q : Nat) (f : Queue → Queue) : (s.modQueue q f).obj.insts = s.obj.insts := rfl
@[simp] theorem State.modQueue_obj_pds (s : State) (q : Nat) (f : Queue → Queue) : (s.modQueue q f).obj.pds = s.obj.pds := rfl
@[simp] theorem State.modQueue_obj_regions (s : State) (q : Nat) (f : Queue → Queue) : (s.modQueue q f).obj.regions = s.obj.regions := rfl
@[simp] theorem State.modQueue_inj (s : State) (q : Nat) (f : Queue → Queue) : (s.modQueue q f).inj = s.inj := rfl
@[simp] theorem State.modQueue_hpt (s : State) (q : Nat) (f : Queue → Queue) : (s.modQueue q f).hpt = s.hpt := rfl
@[simp] theorem State.modQueue_xlt (s : State) (q : Nat) (f : Queue → Queue) : (s.modQueue q f).xlt = s.xlt := rfl
@[simp] theorem State.modQueue_mat (s : State) (q : Nat) (f : Queue → Queue) : (s.modQueue q f).mat = s.mat := rfl
@[simp] theorem State.modQueue_ram (s : State) (q : Nat) (f : Queue → Queue) : (s.modQueue q f).ram = s.ram := rfl
@[simp] theorem State.modQueue_atu (s : State) (q : Nat) (f : Queue → Queue) : (s.modQueue q f).atu = s.atu := rfl
@[simp] theorem State.modQueue_col (s : State) (q : Nat) (f : Queue → Queue) : (s.modQueue q f).col = s.col := rfl
@[simp] theorem State.modQueue_cnt (s : State) (q : Nat) (f : Queue → Queue) : (s.modQueue q f).cnt = s.cnt := rfl
@[simp] theorem State.modQueue_mgt (s : State) (q : Nat) (f : Queue → Queue) : (s.modQueue q f).mgt = s.mgt := rfl
@[simp] theorem State.modQueue_kept (s : State) (q : Nat) (f : Queue → Queue) : (s.modQueue q f).kept = s.kept := rfl
@[simp] theorem State.modQueue_lastRead (s : State) (q : Nat) (f : Queue → Queue) : (s.modQueue q f).lastRead = s.lastRead := rfl
@[simp] theorem State.modQueue_pending (s : State) (q : Nat) (f : Queue → Queue) : (s.modQueue q f).pending = s.pending := rfl

/-! `State.modSlot` writes obj alone. -/
@[simp] theorem State.modSlot_part (s : State) (k : Nat) (f : Slot → Slot) : (s.modSlot k f).part = s.part := rfl
@[simp] theorem State.modSlot_now (s : State) (k : Nat) (f : Slot → Slot) : (s.modSlot k f).now = s.now := rfl
@[simp] theorem State.modSlot_draws (s : State) (k : Nat) (f : Slot → Slot) : (s.modSlot k f).draws = s.draws := rfl
@[simp] theorem State.modSlot_regs (s : State) (k : Nat) (f : Slot → Slot) : (s.modSlot k f).regs = s.regs := rfl
@[simp] theorem State.modSlot_req (s : State) (k : Nat) (f : Slot → Slot) : (s.modSlot k f).req = s.req := rfl
@[simp] theorem State.modSlot_flt (s : State) (k : Nat) (f : Slot → Slot) : (s.modSlot k f).flt = s.flt := rfl
@[simp] theorem State.modSlot_rt (s : State) (k : Nat) (f : Slot → Slot) : (s.modSlot k f).rt = s.rt := rfl
@[simp] theorem State.modSlot_lnk (s : State) (k : Nat) (f : Slot → Slot) : (s.modSlot k f).lnk = s.lnk := rfl
@[simp] theorem State.modSlot_pwr (s : State) (k : Nat) (f : Slot → Slot) : (s.modSlot k f).pwr = s.pwr := rfl
@[simp] theorem State.modSlot_tim (s : State) (k : Nat) (f : Slot → Slot) : (s.modSlot k f).tim = s.tim := rfl
@[simp] theorem State.modSlot_xpt (s : State) (k : Nat) (f : Slot → Slot) : (s.modSlot k f).xpt = s.xpt := rfl
@[simp] theorem State.modSlot_obj_queues (s : State) (k : Nat) (f : Slot → Slot) : (s.modSlot k f).obj.queues = s.obj.queues := rfl
@[simp] theorem State.modSlot_obj_adm (s : State) (k : Nat) (f : Slot → Slot) : (s.modSlot k f).obj.adm = s.obj.adm := rfl
@[simp] theorem State.modSlot_obj_flr (s : State) (k : Nat) (f : Slot → Slot) : (s.modSlot k f).obj.flr = s.obj.flr := rfl
@[simp] theorem State.modSlot_obj_insts (s : State) (k : Nat) (f : Slot → Slot) : (s.modSlot k f).obj.insts = s.obj.insts := rfl
@[simp] theorem State.modSlot_obj_pds (s : State) (k : Nat) (f : Slot → Slot) : (s.modSlot k f).obj.pds = s.obj.pds := rfl
@[simp] theorem State.modSlot_obj_regions (s : State) (k : Nat) (f : Slot → Slot) : (s.modSlot k f).obj.regions = s.obj.regions := rfl
@[simp] theorem State.modSlot_inj (s : State) (k : Nat) (f : Slot → Slot) : (s.modSlot k f).inj = s.inj := rfl
@[simp] theorem State.modSlot_hpt (s : State) (k : Nat) (f : Slot → Slot) : (s.modSlot k f).hpt = s.hpt := rfl
@[simp] theorem State.modSlot_xlt (s : State) (k : Nat) (f : Slot → Slot) : (s.modSlot k f).xlt = s.xlt := rfl
@[simp] theorem State.modSlot_mat (s : State) (k : Nat) (f : Slot → Slot) : (s.modSlot k f).mat = s.mat := rfl
@[simp] theorem State.modSlot_ram (s : State) (k : Nat) (f : Slot → Slot) : (s.modSlot k f).ram = s.ram := rfl
@[simp] theorem State.modSlot_atu (s : State) (k : Nat) (f : Slot → Slot) : (s.modSlot k f).atu = s.atu := rfl
@[simp] theorem State.modSlot_col (s : State) (k : Nat) (f : Slot → Slot) : (s.modSlot k f).col = s.col := rfl
@[simp] theorem State.modSlot_cnt (s : State) (k : Nat) (f : Slot → Slot) : (s.modSlot k f).cnt = s.cnt := rfl
@[simp] theorem State.modSlot_mgt (s : State) (k : Nat) (f : Slot → Slot) : (s.modSlot k f).mgt = s.mgt := rfl
@[simp] theorem State.modSlot_kept (s : State) (k : Nat) (f : Slot → Slot) : (s.modSlot k f).kept = s.kept := rfl
@[simp] theorem State.modSlot_lastRead (s : State) (k : Nat) (f : Slot → Slot) : (s.modSlot k f).lastRead = s.lastRead := rfl
@[simp] theorem State.modSlot_pending (s : State) (k : Nat) (f : Slot → Slot) : (s.modSlot k f).pending = s.pending := rfl

/-! `State.wr` writes regs alone. -/
@[simp] theorem State.wr_part (s : State) (a : Nat) (w : Word) : (s.wr a w).part = s.part := rfl
@[simp] theorem State.wr_now (s : State) (a : Nat) (w : Word) : (s.wr a w).now = s.now := rfl
@[simp] theorem State.wr_draws (s : State) (a : Nat) (w : Word) : (s.wr a w).draws = s.draws := rfl
@[simp] theorem State.wr_req (s : State) (a : Nat) (w : Word) : (s.wr a w).req = s.req := rfl
@[simp] theorem State.wr_flt (s : State) (a : Nat) (w : Word) : (s.wr a w).flt = s.flt := rfl
@[simp] theorem State.wr_rt (s : State) (a : Nat) (w : Word) : (s.wr a w).rt = s.rt := rfl
@[simp] theorem State.wr_lnk (s : State) (a : Nat) (w : Word) : (s.wr a w).lnk = s.lnk := rfl
@[simp] theorem State.wr_pwr (s : State) (a : Nat) (w : Word) : (s.wr a w).pwr = s.pwr := rfl
@[simp] theorem State.wr_tim (s : State) (a : Nat) (w : Word) : (s.wr a w).tim = s.tim := rfl
@[simp] theorem State.wr_xpt (s : State) (a : Nat) (w : Word) : (s.wr a w).xpt = s.xpt := rfl
@[simp] theorem State.wr_obj (s : State) (a : Nat) (w : Word) : (s.wr a w).obj = s.obj := rfl
@[simp] theorem State.wr_inj (s : State) (a : Nat) (w : Word) : (s.wr a w).inj = s.inj := rfl
@[simp] theorem State.wr_hpt (s : State) (a : Nat) (w : Word) : (s.wr a w).hpt = s.hpt := rfl
@[simp] theorem State.wr_xlt (s : State) (a : Nat) (w : Word) : (s.wr a w).xlt = s.xlt := rfl
@[simp] theorem State.wr_mat (s : State) (a : Nat) (w : Word) : (s.wr a w).mat = s.mat := rfl
@[simp] theorem State.wr_ram (s : State) (a : Nat) (w : Word) : (s.wr a w).ram = s.ram := rfl
@[simp] theorem State.wr_atu (s : State) (a : Nat) (w : Word) : (s.wr a w).atu = s.atu := rfl
@[simp] theorem State.wr_col (s : State) (a : Nat) (w : Word) : (s.wr a w).col = s.col := rfl
@[simp] theorem State.wr_cnt (s : State) (a : Nat) (w : Word) : (s.wr a w).cnt = s.cnt := rfl
@[simp] theorem State.wr_mgt (s : State) (a : Nat) (w : Word) : (s.wr a w).mgt = s.mgt := rfl
@[simp] theorem State.wr_kept (s : State) (a : Nat) (w : Word) : (s.wr a w).kept = s.kept := rfl
@[simp] theorem State.wr_lastRead (s : State) (a : Nat) (w : Word) : (s.wr a w).lastRead = s.lastRead := rfl
@[simp] theorem State.wr_pending (s : State) (a : Nat) (w : Word) : (s.wr a w).pending = s.pending := rfl

/-! `State.drawn` writes draws alone. -/
@[simp] theorem State.drawn_part (s : State) : (s.drawn).part = s.part := rfl
@[simp] theorem State.drawn_now (s : State) : (s.drawn).now = s.now := rfl
@[simp] theorem State.drawn_regs (s : State) : (s.drawn).regs = s.regs := rfl
@[simp] theorem State.drawn_req (s : State) : (s.drawn).req = s.req := rfl
@[simp] theorem State.drawn_flt (s : State) : (s.drawn).flt = s.flt := rfl
@[simp] theorem State.drawn_rt (s : State) : (s.drawn).rt = s.rt := rfl
@[simp] theorem State.drawn_lnk (s : State) : (s.drawn).lnk = s.lnk := rfl
@[simp] theorem State.drawn_pwr (s : State) : (s.drawn).pwr = s.pwr := rfl
@[simp] theorem State.drawn_tim (s : State) : (s.drawn).tim = s.tim := rfl
@[simp] theorem State.drawn_xpt (s : State) : (s.drawn).xpt = s.xpt := rfl
@[simp] theorem State.drawn_obj (s : State) : (s.drawn).obj = s.obj := rfl
@[simp] theorem State.drawn_inj (s : State) : (s.drawn).inj = s.inj := rfl
@[simp] theorem State.drawn_hpt (s : State) : (s.drawn).hpt = s.hpt := rfl
@[simp] theorem State.drawn_xlt (s : State) : (s.drawn).xlt = s.xlt := rfl
@[simp] theorem State.drawn_mat (s : State) : (s.drawn).mat = s.mat := rfl
@[simp] theorem State.drawn_ram (s : State) : (s.drawn).ram = s.ram := rfl
@[simp] theorem State.drawn_atu (s : State) : (s.drawn).atu = s.atu := rfl
@[simp] theorem State.drawn_col (s : State) : (s.drawn).col = s.col := rfl
@[simp] theorem State.drawn_cnt (s : State) : (s.drawn).cnt = s.cnt := rfl
@[simp] theorem State.drawn_mgt (s : State) : (s.drawn).mgt = s.mgt := rfl
@[simp] theorem State.drawn_kept (s : State) : (s.drawn).kept = s.kept := rfl
@[simp] theorem State.drawn_lastRead (s : State) : (s.drawn).lastRead = s.lastRead := rfl
@[simp] theorem State.drawn_pending (s : State) : (s.drawn).pending = s.pending := rfl

/-! `State.modRequester` writes req alone. -/
@[simp] theorem State.modRequester_part (s : State) (who : Nat) (f : Requester → Requester) : (s.modRequester who f).part = s.part := rfl
@[simp] theorem State.modRequester_now (s : State) (who : Nat) (f : Requester → Requester) : (s.modRequester who f).now = s.now := rfl
@[simp] theorem State.modRequester_draws (s : State) (who : Nat) (f : Requester → Requester) : (s.modRequester who f).draws = s.draws := rfl
@[simp] theorem State.modRequester_regs (s : State) (who : Nat) (f : Requester → Requester) : (s.modRequester who f).regs = s.regs := rfl
@[simp] theorem State.modRequester_flt (s : State) (who : Nat) (f : Requester → Requester) : (s.modRequester who f).flt = s.flt := rfl
@[simp] theorem State.modRequester_rt (s : State) (who : Nat) (f : Requester → Requester) : (s.modRequester who f).rt = s.rt := rfl
@[simp] theorem State.modRequester_lnk (s : State) (who : Nat) (f : Requester → Requester) : (s.modRequester who f).lnk = s.lnk := rfl
@[simp] theorem State.modRequester_pwr (s : State) (who : Nat) (f : Requester → Requester) : (s.modRequester who f).pwr = s.pwr := rfl
@[simp] theorem State.modRequester_tim (s : State) (who : Nat) (f : Requester → Requester) : (s.modRequester who f).tim = s.tim := rfl
@[simp] theorem State.modRequester_xpt (s : State) (who : Nat) (f : Requester → Requester) : (s.modRequester who f).xpt = s.xpt := rfl
@[simp] theorem State.modRequester_obj (s : State) (who : Nat) (f : Requester → Requester) : (s.modRequester who f).obj = s.obj := rfl
@[simp] theorem State.modRequester_inj (s : State) (who : Nat) (f : Requester → Requester) : (s.modRequester who f).inj = s.inj := rfl
@[simp] theorem State.modRequester_hpt (s : State) (who : Nat) (f : Requester → Requester) : (s.modRequester who f).hpt = s.hpt := rfl
@[simp] theorem State.modRequester_xlt (s : State) (who : Nat) (f : Requester → Requester) : (s.modRequester who f).xlt = s.xlt := rfl
@[simp] theorem State.modRequester_mat (s : State) (who : Nat) (f : Requester → Requester) : (s.modRequester who f).mat = s.mat := rfl
@[simp] theorem State.modRequester_ram (s : State) (who : Nat) (f : Requester → Requester) : (s.modRequester who f).ram = s.ram := rfl
@[simp] theorem State.modRequester_atu (s : State) (who : Nat) (f : Requester → Requester) : (s.modRequester who f).atu = s.atu := rfl
@[simp] theorem State.modRequester_col (s : State) (who : Nat) (f : Requester → Requester) : (s.modRequester who f).col = s.col := rfl
@[simp] theorem State.modRequester_cnt (s : State) (who : Nat) (f : Requester → Requester) : (s.modRequester who f).cnt = s.cnt := rfl
@[simp] theorem State.modRequester_mgt (s : State) (who : Nat) (f : Requester → Requester) : (s.modRequester who f).mgt = s.mgt := rfl
@[simp] theorem State.modRequester_kept (s : State) (who : Nat) (f : Requester → Requester) : (s.modRequester who f).kept = s.kept := rfl
@[simp] theorem State.modRequester_lastRead (s : State) (who : Nat) (f : Requester → Requester) : (s.modRequester who f).lastRead = s.lastRead := rfl
@[simp] theorem State.modRequester_pending (s : State) (who : Nat) (f : Requester → Requester) : (s.modRequester who f).pending = s.pending := rfl

/-! `State.answer` writes lastRead alone. -/
@[simp] theorem State.answer_part (s : State) (who n v : Nat) : (s.answer who n v).part = s.part := rfl
@[simp] theorem State.answer_now (s : State) (who n v : Nat) : (s.answer who n v).now = s.now := rfl
@[simp] theorem State.answer_draws (s : State) (who n v : Nat) : (s.answer who n v).draws = s.draws := rfl
@[simp] theorem State.answer_regs (s : State) (who n v : Nat) : (s.answer who n v).regs = s.regs := rfl
@[simp] theorem State.answer_req (s : State) (who n v : Nat) : (s.answer who n v).req = s.req := rfl
@[simp] theorem State.answer_flt (s : State) (who n v : Nat) : (s.answer who n v).flt = s.flt := rfl
@[simp] theorem State.answer_rt (s : State) (who n v : Nat) : (s.answer who n v).rt = s.rt := rfl
@[simp] theorem State.answer_lnk (s : State) (who n v : Nat) : (s.answer who n v).lnk = s.lnk := rfl
@[simp] theorem State.answer_pwr (s : State) (who n v : Nat) : (s.answer who n v).pwr = s.pwr := rfl
@[simp] theorem State.answer_tim (s : State) (who n v : Nat) : (s.answer who n v).tim = s.tim := rfl
@[simp] theorem State.answer_xpt (s : State) (who n v : Nat) : (s.answer who n v).xpt = s.xpt := rfl
@[simp] theorem State.answer_obj (s : State) (who n v : Nat) : (s.answer who n v).obj = s.obj := rfl
@[simp] theorem State.answer_inj (s : State) (who n v : Nat) : (s.answer who n v).inj = s.inj := rfl
@[simp] theorem State.answer_hpt (s : State) (who n v : Nat) : (s.answer who n v).hpt = s.hpt := rfl
@[simp] theorem State.answer_xlt (s : State) (who n v : Nat) : (s.answer who n v).xlt = s.xlt := rfl
@[simp] theorem State.answer_mat (s : State) (who n v : Nat) : (s.answer who n v).mat = s.mat := rfl
@[simp] theorem State.answer_ram (s : State) (who n v : Nat) : (s.answer who n v).ram = s.ram := rfl
@[simp] theorem State.answer_atu (s : State) (who n v : Nat) : (s.answer who n v).atu = s.atu := rfl
@[simp] theorem State.answer_col (s : State) (who n v : Nat) : (s.answer who n v).col = s.col := rfl
@[simp] theorem State.answer_cnt (s : State) (who n v : Nat) : (s.answer who n v).cnt = s.cnt := rfl
@[simp] theorem State.answer_mgt (s : State) (who n v : Nat) : (s.answer who n v).mgt = s.mgt := rfl
@[simp] theorem State.answer_kept (s : State) (who n v : Nat) : (s.answer who n v).kept = s.kept := rfl
@[simp] theorem State.answer_pending (s : State) (who n v : Nat) : (s.answer who n v).pending = s.pending := rfl

/-! `State.inject` writes rt alone. -/
@[simp] theorem State.inject_part (s : State) (c : Cell) : (s.inject c).part = s.part := rfl
@[simp] theorem State.inject_now (s : State) (c : Cell) : (s.inject c).now = s.now := rfl
@[simp] theorem State.inject_draws (s : State) (c : Cell) : (s.inject c).draws = s.draws := rfl
@[simp] theorem State.inject_regs (s : State) (c : Cell) : (s.inject c).regs = s.regs := rfl
@[simp] theorem State.inject_req (s : State) (c : Cell) : (s.inject c).req = s.req := rfl
@[simp] theorem State.inject_flt (s : State) (c : Cell) : (s.inject c).flt = s.flt := rfl
@[simp] theorem State.inject_rt_table0 (s : State) (c : Cell) : (s.inject c).rt.table0 = s.rt.table0 := rfl
@[simp] theorem State.inject_rt_table1 (s : State) (c : Cell) : (s.inject c).rt.table1 = s.rt.table1 := rfl
@[simp] theorem State.inject_rt_switchAt (s : State) (c : Cell) : (s.inject c).rt.switchAt = s.rt.switchAt := rfl
@[simp] theorem State.inject_rt_retireFrom (s : State) (c : Cell) : (s.inject c).rt.retireFrom = s.rt.retireFrom := rfl
@[simp] theorem State.inject_rt_outQ (s : State) (c : Cell) : (s.inject c).rt.outQ = s.rt.outQ := rfl
@[simp] theorem State.inject_rt_delivered (s : State) (c : Cell) : (s.inject c).rt.delivered = s.rt.delivered := rfl
@[simp] theorem State.inject_rt_drainIn (s : State) (c : Cell) : (s.inject c).rt.drainIn = s.rt.drainIn := rfl
@[simp] theorem State.inject_rt_drainOut (s : State) (c : Cell) : (s.inject c).rt.drainOut = s.rt.drainOut := rfl
@[simp] theorem State.inject_lnk (s : State) (c : Cell) : (s.inject c).lnk = s.lnk := rfl
@[simp] theorem State.inject_pwr (s : State) (c : Cell) : (s.inject c).pwr = s.pwr := rfl
@[simp] theorem State.inject_tim (s : State) (c : Cell) : (s.inject c).tim = s.tim := rfl
@[simp] theorem State.inject_xpt (s : State) (c : Cell) : (s.inject c).xpt = s.xpt := rfl
@[simp] theorem State.inject_obj (s : State) (c : Cell) : (s.inject c).obj = s.obj := rfl
@[simp] theorem State.inject_inj (s : State) (c : Cell) : (s.inject c).inj = s.inj := rfl
@[simp] theorem State.inject_hpt (s : State) (c : Cell) : (s.inject c).hpt = s.hpt := rfl
@[simp] theorem State.inject_xlt (s : State) (c : Cell) : (s.inject c).xlt = s.xlt := rfl
@[simp] theorem State.inject_mat (s : State) (c : Cell) : (s.inject c).mat = s.mat := rfl
@[simp] theorem State.inject_ram (s : State) (c : Cell) : (s.inject c).ram = s.ram := rfl
@[simp] theorem State.inject_atu (s : State) (c : Cell) : (s.inject c).atu = s.atu := rfl
@[simp] theorem State.inject_col (s : State) (c : Cell) : (s.inject c).col = s.col := rfl
@[simp] theorem State.inject_cnt (s : State) (c : Cell) : (s.inject c).cnt = s.cnt := rfl
@[simp] theorem State.inject_mgt (s : State) (c : Cell) : (s.inject c).mgt = s.mgt := rfl
@[simp] theorem State.inject_kept (s : State) (c : Cell) : (s.inject c).kept = s.kept := rfl
@[simp] theorem State.inject_lastRead (s : State) (c : Cell) : (s.inject c).lastRead = s.lastRead := rfl
@[simp] theorem State.inject_pending (s : State) (c : Cell) : (s.inject c).pending = s.pending := rfl

/-! `State.modMsg` writes xpt alone. -/
@[simp] theorem State.modMsg_part (s : State) (id : Nat) (f : TxMsg → TxMsg) : (s.modMsg id f).part = s.part := rfl
@[simp] theorem State.modMsg_now (s : State) (id : Nat) (f : TxMsg → TxMsg) : (s.modMsg id f).now = s.now := rfl
@[simp] theorem State.modMsg_draws (s : State) (id : Nat) (f : TxMsg → TxMsg) : (s.modMsg id f).draws = s.draws := rfl
@[simp] theorem State.modMsg_regs (s : State) (id : Nat) (f : TxMsg → TxMsg) : (s.modMsg id f).regs = s.regs := rfl
@[simp] theorem State.modMsg_req (s : State) (id : Nat) (f : TxMsg → TxMsg) : (s.modMsg id f).req = s.req := rfl
@[simp] theorem State.modMsg_flt (s : State) (id : Nat) (f : TxMsg → TxMsg) : (s.modMsg id f).flt = s.flt := rfl
@[simp] theorem State.modMsg_rt (s : State) (id : Nat) (f : TxMsg → TxMsg) : (s.modMsg id f).rt = s.rt := rfl
@[simp] theorem State.modMsg_lnk (s : State) (id : Nat) (f : TxMsg → TxMsg) : (s.modMsg id f).lnk = s.lnk := rfl
@[simp] theorem State.modMsg_pwr (s : State) (id : Nat) (f : TxMsg → TxMsg) : (s.modMsg id f).pwr = s.pwr := rfl
@[simp] theorem State.modMsg_tim (s : State) (id : Nat) (f : TxMsg → TxMsg) : (s.modMsg id f).tim = s.tim := rfl
@[simp] theorem State.modMsg_xpt_conns (s : State) (id : Nat) (f : TxMsg → TxMsg) : (s.modMsg id f).xpt.conns = s.xpt.conns := rfl
@[simp] theorem State.modMsg_xpt_nextMsg (s : State) (id : Nat) (f : TxMsg → TxMsg) : (s.modMsg id f).xpt.nextMsg = s.xpt.nextMsg := rfl
@[simp] theorem State.modMsg_xpt_curve (s : State) (id : Nat) (f : TxMsg → TxMsg) : (s.modMsg id f).xpt.curve = s.xpt.curve := rfl
@[simp] theorem State.modMsg_xpt_swaps (s : State) (id : Nat) (f : TxMsg → TxMsg) : (s.modMsg id f).xpt.swaps = s.xpt.swaps := rfl
@[simp] theorem State.modMsg_obj (s : State) (id : Nat) (f : TxMsg → TxMsg) : (s.modMsg id f).obj = s.obj := rfl
@[simp] theorem State.modMsg_inj (s : State) (id : Nat) (f : TxMsg → TxMsg) : (s.modMsg id f).inj = s.inj := rfl
@[simp] theorem State.modMsg_hpt (s : State) (id : Nat) (f : TxMsg → TxMsg) : (s.modMsg id f).hpt = s.hpt := rfl
@[simp] theorem State.modMsg_xlt (s : State) (id : Nat) (f : TxMsg → TxMsg) : (s.modMsg id f).xlt = s.xlt := rfl
@[simp] theorem State.modMsg_mat (s : State) (id : Nat) (f : TxMsg → TxMsg) : (s.modMsg id f).mat = s.mat := rfl
@[simp] theorem State.modMsg_ram (s : State) (id : Nat) (f : TxMsg → TxMsg) : (s.modMsg id f).ram = s.ram := rfl
@[simp] theorem State.modMsg_atu (s : State) (id : Nat) (f : TxMsg → TxMsg) : (s.modMsg id f).atu = s.atu := rfl
@[simp] theorem State.modMsg_col (s : State) (id : Nat) (f : TxMsg → TxMsg) : (s.modMsg id f).col = s.col := rfl
@[simp] theorem State.modMsg_cnt (s : State) (id : Nat) (f : TxMsg → TxMsg) : (s.modMsg id f).cnt = s.cnt := rfl
@[simp] theorem State.modMsg_mgt (s : State) (id : Nat) (f : TxMsg → TxMsg) : (s.modMsg id f).mgt = s.mgt := rfl
@[simp] theorem State.modMsg_kept (s : State) (id : Nat) (f : TxMsg → TxMsg) : (s.modMsg id f).kept = s.kept := rfl
@[simp] theorem State.modMsg_lastRead (s : State) (id : Nat) (f : TxMsg → TxMsg) : (s.modMsg id f).lastRead = s.lastRead := rfl
@[simp] theorem State.modMsg_pending (s : State) (id : Nat) (f : TxMsg → TxMsg) : (s.modMsg id f).pending = s.pending := rfl

/-! `State.dropMsg` writes xpt alone. -/
@[simp] theorem State.dropMsg_part (s : State) (id : Nat) : (s.dropMsg id).part = s.part := rfl
@[simp] theorem State.dropMsg_now (s : State) (id : Nat) : (s.dropMsg id).now = s.now := rfl
@[simp] theorem State.dropMsg_draws (s : State) (id : Nat) : (s.dropMsg id).draws = s.draws := rfl
@[simp] theorem State.dropMsg_regs (s : State) (id : Nat) : (s.dropMsg id).regs = s.regs := rfl
@[simp] theorem State.dropMsg_req (s : State) (id : Nat) : (s.dropMsg id).req = s.req := rfl
@[simp] theorem State.dropMsg_flt (s : State) (id : Nat) : (s.dropMsg id).flt = s.flt := rfl
@[simp] theorem State.dropMsg_rt (s : State) (id : Nat) : (s.dropMsg id).rt = s.rt := rfl
@[simp] theorem State.dropMsg_lnk (s : State) (id : Nat) : (s.dropMsg id).lnk = s.lnk := rfl
@[simp] theorem State.dropMsg_pwr (s : State) (id : Nat) : (s.dropMsg id).pwr = s.pwr := rfl
@[simp] theorem State.dropMsg_tim (s : State) (id : Nat) : (s.dropMsg id).tim = s.tim := rfl
@[simp] theorem State.dropMsg_xpt_conns (s : State) (id : Nat) : (s.dropMsg id).xpt.conns = s.xpt.conns := rfl
@[simp] theorem State.dropMsg_xpt_nextMsg (s : State) (id : Nat) : (s.dropMsg id).xpt.nextMsg = s.xpt.nextMsg := rfl
@[simp] theorem State.dropMsg_xpt_curve (s : State) (id : Nat) : (s.dropMsg id).xpt.curve = s.xpt.curve := rfl
@[simp] theorem State.dropMsg_xpt_swaps (s : State) (id : Nat) : (s.dropMsg id).xpt.swaps = s.xpt.swaps := rfl
@[simp] theorem State.dropMsg_obj (s : State) (id : Nat) : (s.dropMsg id).obj = s.obj := rfl
@[simp] theorem State.dropMsg_inj (s : State) (id : Nat) : (s.dropMsg id).inj = s.inj := rfl
@[simp] theorem State.dropMsg_hpt (s : State) (id : Nat) : (s.dropMsg id).hpt = s.hpt := rfl
@[simp] theorem State.dropMsg_xlt (s : State) (id : Nat) : (s.dropMsg id).xlt = s.xlt := rfl
@[simp] theorem State.dropMsg_mat (s : State) (id : Nat) : (s.dropMsg id).mat = s.mat := rfl
@[simp] theorem State.dropMsg_ram (s : State) (id : Nat) : (s.dropMsg id).ram = s.ram := rfl
@[simp] theorem State.dropMsg_atu (s : State) (id : Nat) : (s.dropMsg id).atu = s.atu := rfl
@[simp] theorem State.dropMsg_col (s : State) (id : Nat) : (s.dropMsg id).col = s.col := rfl
@[simp] theorem State.dropMsg_cnt (s : State) (id : Nat) : (s.dropMsg id).cnt = s.cnt := rfl
@[simp] theorem State.dropMsg_mgt (s : State) (id : Nat) : (s.dropMsg id).mgt = s.mgt := rfl
@[simp] theorem State.dropMsg_kept (s : State) (id : Nat) : (s.dropMsg id).kept = s.kept := rfl
@[simp] theorem State.dropMsg_lastRead (s : State) (id : Nat) : (s.dropMsg id).lastRead = s.lastRead := rfl
@[simp] theorem State.dropMsg_pending (s : State) (id : Nat) : (s.dropMsg id).pending = s.pending := rfl

/-! `State.modEntry` writes mat alone. -/
@[simp] theorem State.modEntry_part (s : State) (e : Nat) (f : StoreEntry → StoreEntry) : (s.modEntry e f).part = s.part := rfl
@[simp] theorem State.modEntry_now (s : State) (e : Nat) (f : StoreEntry → StoreEntry) : (s.modEntry e f).now = s.now := rfl
@[simp] theorem State.modEntry_draws (s : State) (e : Nat) (f : StoreEntry → StoreEntry) : (s.modEntry e f).draws = s.draws := rfl
@[simp] theorem State.modEntry_regs (s : State) (e : Nat) (f : StoreEntry → StoreEntry) : (s.modEntry e f).regs = s.regs := rfl
@[simp] theorem State.modEntry_req (s : State) (e : Nat) (f : StoreEntry → StoreEntry) : (s.modEntry e f).req = s.req := rfl
@[simp] theorem State.modEntry_flt (s : State) (e : Nat) (f : StoreEntry → StoreEntry) : (s.modEntry e f).flt = s.flt := rfl
@[simp] theorem State.modEntry_rt (s : State) (e : Nat) (f : StoreEntry → StoreEntry) : (s.modEntry e f).rt = s.rt := rfl
@[simp] theorem State.modEntry_lnk (s : State) (e : Nat) (f : StoreEntry → StoreEntry) : (s.modEntry e f).lnk = s.lnk := rfl
@[simp] theorem State.modEntry_pwr (s : State) (e : Nat) (f : StoreEntry → StoreEntry) : (s.modEntry e f).pwr = s.pwr := rfl
@[simp] theorem State.modEntry_tim (s : State) (e : Nat) (f : StoreEntry → StoreEntry) : (s.modEntry e f).tim = s.tim := rfl
@[simp] theorem State.modEntry_xpt (s : State) (e : Nat) (f : StoreEntry → StoreEntry) : (s.modEntry e f).xpt = s.xpt := rfl
@[simp] theorem State.modEntry_obj (s : State) (e : Nat) (f : StoreEntry → StoreEntry) : (s.modEntry e f).obj = s.obj := rfl
@[simp] theorem State.modEntry_inj (s : State) (e : Nat) (f : StoreEntry → StoreEntry) : (s.modEntry e f).inj = s.inj := rfl
@[simp] theorem State.modEntry_hpt (s : State) (e : Nat) (f : StoreEntry → StoreEntry) : (s.modEntry e f).hpt = s.hpt := rfl
@[simp] theorem State.modEntry_xlt (s : State) (e : Nat) (f : StoreEntry → StoreEntry) : (s.modEntry e f).xlt = s.xlt := rfl
@[simp] theorem State.modEntry_mat_posted (s : State) (e : Nat) (f : StoreEntry → StoreEntry) : (s.modEntry e f).mat.posted = s.mat.posted := rfl
@[simp] theorem State.modEntry_mat_nextStore (s : State) (e : Nat) (f : StoreEntry → StoreEntry) : (s.modEntry e f).mat.nextStore = s.mat.nextStore := rfl
@[simp] theorem State.modEntry_mat_pullWait (s : State) (e : Nat) (f : StoreEntry → StoreEntry) : (s.modEntry e f).mat.pullWait = s.mat.pullWait := rfl
@[simp] theorem State.modEntry_mat_formats (s : State) (e : Nat) (f : StoreEntry → StoreEntry) : (s.modEntry e f).mat.formats = s.mat.formats := rfl
@[simp] theorem State.modEntry_mat_protocols (s : State) (e : Nat) (f : StoreEntry → StoreEntry) : (s.modEntry e f).mat.protocols = s.mat.protocols := rfl
@[simp] theorem State.modEntry_ram (s : State) (e : Nat) (f : StoreEntry → StoreEntry) : (s.modEntry e f).ram = s.ram := rfl
@[simp] theorem State.modEntry_atu (s : State) (e : Nat) (f : StoreEntry → StoreEntry) : (s.modEntry e f).atu = s.atu := rfl
@[simp] theorem State.modEntry_col (s : State) (e : Nat) (f : StoreEntry → StoreEntry) : (s.modEntry e f).col = s.col := rfl
@[simp] theorem State.modEntry_cnt (s : State) (e : Nat) (f : StoreEntry → StoreEntry) : (s.modEntry e f).cnt = s.cnt := rfl
@[simp] theorem State.modEntry_mgt (s : State) (e : Nat) (f : StoreEntry → StoreEntry) : (s.modEntry e f).mgt = s.mgt := rfl
@[simp] theorem State.modEntry_kept (s : State) (e : Nat) (f : StoreEntry → StoreEntry) : (s.modEntry e f).kept = s.kept := rfl
@[simp] theorem State.modEntry_lastRead (s : State) (e : Nat) (f : StoreEntry → StoreEntry) : (s.modEntry e f).lastRead = s.lastRead := rfl
@[simp] theorem State.modEntry_pending (s : State) (e : Nat) (f : StoreEntry → StoreEntry) : (s.modEntry e f).pending = s.pending := rfl

/-! `State.freeEntry` writes mat alone. -/
@[simp] theorem State.freeEntry_part (s : State) (e : Nat) : (s.freeEntry e).part = s.part := rfl
@[simp] theorem State.freeEntry_now (s : State) (e : Nat) : (s.freeEntry e).now = s.now := rfl
@[simp] theorem State.freeEntry_draws (s : State) (e : Nat) : (s.freeEntry e).draws = s.draws := rfl
@[simp] theorem State.freeEntry_regs (s : State) (e : Nat) : (s.freeEntry e).regs = s.regs := rfl
@[simp] theorem State.freeEntry_req (s : State) (e : Nat) : (s.freeEntry e).req = s.req := rfl
@[simp] theorem State.freeEntry_flt (s : State) (e : Nat) : (s.freeEntry e).flt = s.flt := rfl
@[simp] theorem State.freeEntry_rt (s : State) (e : Nat) : (s.freeEntry e).rt = s.rt := rfl
@[simp] theorem State.freeEntry_lnk (s : State) (e : Nat) : (s.freeEntry e).lnk = s.lnk := rfl
@[simp] theorem State.freeEntry_pwr (s : State) (e : Nat) : (s.freeEntry e).pwr = s.pwr := rfl
@[simp] theorem State.freeEntry_tim (s : State) (e : Nat) : (s.freeEntry e).tim = s.tim := rfl
@[simp] theorem State.freeEntry_xpt (s : State) (e : Nat) : (s.freeEntry e).xpt = s.xpt := rfl
@[simp] theorem State.freeEntry_obj (s : State) (e : Nat) : (s.freeEntry e).obj = s.obj := rfl
@[simp] theorem State.freeEntry_inj (s : State) (e : Nat) : (s.freeEntry e).inj = s.inj := rfl
@[simp] theorem State.freeEntry_hpt (s : State) (e : Nat) : (s.freeEntry e).hpt = s.hpt := rfl
@[simp] theorem State.freeEntry_xlt (s : State) (e : Nat) : (s.freeEntry e).xlt = s.xlt := rfl
@[simp] theorem State.freeEntry_mat_posted (s : State) (e : Nat) : (s.freeEntry e).mat.posted = s.mat.posted := rfl
@[simp] theorem State.freeEntry_mat_nextStore (s : State) (e : Nat) : (s.freeEntry e).mat.nextStore = s.mat.nextStore := rfl
@[simp] theorem State.freeEntry_mat_formats (s : State) (e : Nat) : (s.freeEntry e).mat.formats = s.mat.formats := rfl
@[simp] theorem State.freeEntry_mat_protocols (s : State) (e : Nat) : (s.freeEntry e).mat.protocols = s.mat.protocols := rfl
@[simp] theorem State.freeEntry_ram (s : State) (e : Nat) : (s.freeEntry e).ram = s.ram := rfl
@[simp] theorem State.freeEntry_atu (s : State) (e : Nat) : (s.freeEntry e).atu = s.atu := rfl
@[simp] theorem State.freeEntry_col (s : State) (e : Nat) : (s.freeEntry e).col = s.col := rfl
@[simp] theorem State.freeEntry_cnt (s : State) (e : Nat) : (s.freeEntry e).cnt = s.cnt := rfl
@[simp] theorem State.freeEntry_mgt (s : State) (e : Nat) : (s.freeEntry e).mgt = s.mgt := rfl
@[simp] theorem State.freeEntry_kept (s : State) (e : Nat) : (s.freeEntry e).kept = s.kept := rfl
@[simp] theorem State.freeEntry_lastRead (s : State) (e : Nat) : (s.freeEntry e).lastRead = s.lastRead := rfl
@[simp] theorem State.freeEntry_pending (s : State) (e : Nat) : (s.freeEntry e).pending = s.pending := rfl

/-! `State.coverColl` writes col alone. -/
@[simp] theorem State.coverColl_part (s : State) (g n h : Nat) (down : Bool) : (s.coverColl g n h down).part = s.part := rfl
@[simp] theorem State.coverColl_now (s : State) (g n h : Nat) (down : Bool) : (s.coverColl g n h down).now = s.now := rfl
@[simp] theorem State.coverColl_draws (s : State) (g n h : Nat) (down : Bool) : (s.coverColl g n h down).draws = s.draws := rfl
@[simp] theorem State.coverColl_regs (s : State) (g n h : Nat) (down : Bool) : (s.coverColl g n h down).regs = s.regs := rfl
@[simp] theorem State.coverColl_req (s : State) (g n h : Nat) (down : Bool) : (s.coverColl g n h down).req = s.req := rfl
@[simp] theorem State.coverColl_flt (s : State) (g n h : Nat) (down : Bool) : (s.coverColl g n h down).flt = s.flt := rfl
@[simp] theorem State.coverColl_rt (s : State) (g n h : Nat) (down : Bool) : (s.coverColl g n h down).rt = s.rt := rfl
@[simp] theorem State.coverColl_lnk (s : State) (g n h : Nat) (down : Bool) : (s.coverColl g n h down).lnk = s.lnk := rfl
@[simp] theorem State.coverColl_pwr (s : State) (g n h : Nat) (down : Bool) : (s.coverColl g n h down).pwr = s.pwr := rfl
@[simp] theorem State.coverColl_tim (s : State) (g n h : Nat) (down : Bool) : (s.coverColl g n h down).tim = s.tim := rfl
@[simp] theorem State.coverColl_xpt (s : State) (g n h : Nat) (down : Bool) : (s.coverColl g n h down).xpt = s.xpt := rfl
@[simp] theorem State.coverColl_obj (s : State) (g n h : Nat) (down : Bool) : (s.coverColl g n h down).obj = s.obj := rfl
@[simp] theorem State.coverColl_inj (s : State) (g n h : Nat) (down : Bool) : (s.coverColl g n h down).inj = s.inj := rfl
@[simp] theorem State.coverColl_hpt (s : State) (g n h : Nat) (down : Bool) : (s.coverColl g n h down).hpt = s.hpt := rfl
@[simp] theorem State.coverColl_xlt (s : State) (g n h : Nat) (down : Bool) : (s.coverColl g n h down).xlt = s.xlt := rfl
@[simp] theorem State.coverColl_mat (s : State) (g n h : Nat) (down : Bool) : (s.coverColl g n h down).mat = s.mat := rfl
@[simp] theorem State.coverColl_ram (s : State) (g n h : Nat) (down : Bool) : (s.coverColl g n h down).ram = s.ram := rfl
@[simp] theorem State.coverColl_atu (s : State) (g n h : Nat) (down : Bool) : (s.coverColl g n h down).atu = s.atu := rfl
@[simp] theorem State.coverColl_col_formats (s : State) (g n h : Nat) (down : Bool) : (s.coverColl g n h down).col.formats = s.col.formats := rfl
@[simp] theorem State.coverColl_cnt (s : State) (g n h : Nat) (down : Bool) : (s.coverColl g n h down).cnt = s.cnt := rfl
@[simp] theorem State.coverColl_mgt (s : State) (g n h : Nat) (down : Bool) : (s.coverColl g n h down).mgt = s.mgt := rfl
@[simp] theorem State.coverColl_kept (s : State) (g n h : Nat) (down : Bool) : (s.coverColl g n h down).kept = s.kept := rfl
@[simp] theorem State.coverColl_lastRead (s : State) (g n h : Nat) (down : Bool) : (s.coverColl g n h down).lastRead = s.lastRead := rfl
@[simp] theorem State.coverColl_pending (s : State) (g n h : Nat) (down : Bool) : (s.coverColl g n h down).pending = s.pending := rfl

/-! `State.sbStatus` writes lastRead alone. -/
@[simp] theorem State.sbStatus_part (s : State) (n : Nat) : (s.sbStatus n).part = s.part := rfl
@[simp] theorem State.sbStatus_now (s : State) (n : Nat) : (s.sbStatus n).now = s.now := rfl
@[simp] theorem State.sbStatus_draws (s : State) (n : Nat) : (s.sbStatus n).draws = s.draws := rfl
@[simp] theorem State.sbStatus_regs (s : State) (n : Nat) : (s.sbStatus n).regs = s.regs := rfl
@[simp] theorem State.sbStatus_req (s : State) (n : Nat) : (s.sbStatus n).req = s.req := rfl
@[simp] theorem State.sbStatus_flt (s : State) (n : Nat) : (s.sbStatus n).flt = s.flt := rfl
@[simp] theorem State.sbStatus_rt (s : State) (n : Nat) : (s.sbStatus n).rt = s.rt := rfl
@[simp] theorem State.sbStatus_lnk (s : State) (n : Nat) : (s.sbStatus n).lnk = s.lnk := rfl
@[simp] theorem State.sbStatus_pwr (s : State) (n : Nat) : (s.sbStatus n).pwr = s.pwr := rfl
@[simp] theorem State.sbStatus_tim (s : State) (n : Nat) : (s.sbStatus n).tim = s.tim := rfl
@[simp] theorem State.sbStatus_xpt (s : State) (n : Nat) : (s.sbStatus n).xpt = s.xpt := rfl
@[simp] theorem State.sbStatus_obj (s : State) (n : Nat) : (s.sbStatus n).obj = s.obj := rfl
@[simp] theorem State.sbStatus_inj (s : State) (n : Nat) : (s.sbStatus n).inj = s.inj := rfl
@[simp] theorem State.sbStatus_hpt (s : State) (n : Nat) : (s.sbStatus n).hpt = s.hpt := rfl
@[simp] theorem State.sbStatus_xlt (s : State) (n : Nat) : (s.sbStatus n).xlt = s.xlt := rfl
@[simp] theorem State.sbStatus_mat (s : State) (n : Nat) : (s.sbStatus n).mat = s.mat := rfl
@[simp] theorem State.sbStatus_ram (s : State) (n : Nat) : (s.sbStatus n).ram = s.ram := rfl
@[simp] theorem State.sbStatus_atu (s : State) (n : Nat) : (s.sbStatus n).atu = s.atu := rfl
@[simp] theorem State.sbStatus_col (s : State) (n : Nat) : (s.sbStatus n).col = s.col := rfl
@[simp] theorem State.sbStatus_cnt (s : State) (n : Nat) : (s.sbStatus n).cnt = s.cnt := rfl
@[simp] theorem State.sbStatus_mgt (s : State) (n : Nat) : (s.sbStatus n).mgt = s.mgt := rfl
@[simp] theorem State.sbStatus_kept (s : State) (n : Nat) : (s.sbStatus n).kept = s.kept := rfl
@[simp] theorem State.sbStatus_pending (s : State) (n : Nat) : (s.sbStatus n).pending = s.pending := rfl

/-! `State.modGroup` writes col alone. -/
@[simp] theorem State.modGroup_part (s : State) (g : Nat) (f : Group → Group) : (s.modGroup g f).part = s.part := rfl
@[simp] theorem State.modGroup_now (s : State) (g : Nat) (f : Group → Group) : (s.modGroup g f).now = s.now := rfl
@[simp] theorem State.modGroup_draws (s : State) (g : Nat) (f : Group → Group) : (s.modGroup g f).draws = s.draws := rfl
@[simp] theorem State.modGroup_regs (s : State) (g : Nat) (f : Group → Group) : (s.modGroup g f).regs = s.regs := rfl
@[simp] theorem State.modGroup_req (s : State) (g : Nat) (f : Group → Group) : (s.modGroup g f).req = s.req := rfl
@[simp] theorem State.modGroup_flt (s : State) (g : Nat) (f : Group → Group) : (s.modGroup g f).flt = s.flt := rfl
@[simp] theorem State.modGroup_rt (s : State) (g : Nat) (f : Group → Group) : (s.modGroup g f).rt = s.rt := rfl
@[simp] theorem State.modGroup_lnk (s : State) (g : Nat) (f : Group → Group) : (s.modGroup g f).lnk = s.lnk := rfl
@[simp] theorem State.modGroup_pwr (s : State) (g : Nat) (f : Group → Group) : (s.modGroup g f).pwr = s.pwr := rfl
@[simp] theorem State.modGroup_tim (s : State) (g : Nat) (f : Group → Group) : (s.modGroup g f).tim = s.tim := rfl
@[simp] theorem State.modGroup_xpt (s : State) (g : Nat) (f : Group → Group) : (s.modGroup g f).xpt = s.xpt := rfl
@[simp] theorem State.modGroup_obj (s : State) (g : Nat) (f : Group → Group) : (s.modGroup g f).obj = s.obj := rfl
@[simp] theorem State.modGroup_inj (s : State) (g : Nat) (f : Group → Group) : (s.modGroup g f).inj = s.inj := rfl
@[simp] theorem State.modGroup_hpt (s : State) (g : Nat) (f : Group → Group) : (s.modGroup g f).hpt = s.hpt := rfl
@[simp] theorem State.modGroup_xlt (s : State) (g : Nat) (f : Group → Group) : (s.modGroup g f).xlt = s.xlt := rfl
@[simp] theorem State.modGroup_mat (s : State) (g : Nat) (f : Group → Group) : (s.modGroup g f).mat = s.mat := rfl
@[simp] theorem State.modGroup_ram (s : State) (g : Nat) (f : Group → Group) : (s.modGroup g f).ram = s.ram := rfl
@[simp] theorem State.modGroup_atu (s : State) (g : Nat) (f : Group → Group) : (s.modGroup g f).atu = s.atu := rfl
@[simp] theorem State.modGroup_col_formats (s : State) (g : Nat) (f : Group → Group) : (s.modGroup g f).col.formats = s.col.formats := rfl
@[simp] theorem State.modGroup_cnt (s : State) (g : Nat) (f : Group → Group) : (s.modGroup g f).cnt = s.cnt := rfl
@[simp] theorem State.modGroup_mgt (s : State) (g : Nat) (f : Group → Group) : (s.modGroup g f).mgt = s.mgt := rfl
@[simp] theorem State.modGroup_kept (s : State) (g : Nat) (f : Group → Group) : (s.modGroup g f).kept = s.kept := rfl
@[simp] theorem State.modGroup_lastRead (s : State) (g : Nat) (f : Group → Group) : (s.modGroup g f).lastRead = s.lastRead := rfl
@[simp] theorem State.modGroup_pending (s : State) (g : Nat) (f : Group → Group) : (s.modGroup g f).pending = s.pending := rfl

/-! `State.setXrec` writes tim alone. -/
@[simp] theorem State.setXrec_part (s : State) (e n : Nat) (r : XRec) : (s.setXrec e n r).part = s.part := rfl
@[simp] theorem State.setXrec_now (s : State) (e n : Nat) (r : XRec) : (s.setXrec e n r).now = s.now := rfl
@[simp] theorem State.setXrec_draws (s : State) (e n : Nat) (r : XRec) : (s.setXrec e n r).draws = s.draws := rfl
@[simp] theorem State.setXrec_regs (s : State) (e n : Nat) (r : XRec) : (s.setXrec e n r).regs = s.regs := rfl
@[simp] theorem State.setXrec_req (s : State) (e n : Nat) (r : XRec) : (s.setXrec e n r).req = s.req := rfl
@[simp] theorem State.setXrec_flt (s : State) (e n : Nat) (r : XRec) : (s.setXrec e n r).flt = s.flt := rfl
@[simp] theorem State.setXrec_rt (s : State) (e n : Nat) (r : XRec) : (s.setXrec e n r).rt = s.rt := rfl
@[simp] theorem State.setXrec_lnk (s : State) (e n : Nat) (r : XRec) : (s.setXrec e n r).lnk = s.lnk := rfl
@[simp] theorem State.setXrec_pwr (s : State) (e n : Nat) (r : XRec) : (s.setXrec e n r).pwr = s.pwr := rfl
@[simp] theorem State.setXrec_tim_slew (s : State) (e n : Nat) (r : XRec) : (s.setXrec e n r).tim.slew = s.tim.slew := rfl
@[simp] theorem State.setXrec_tim_slewUsed (s : State) (e n : Nat) (r : XRec) : (s.setXrec e n r).tim.slewUsed = s.tim.slewUsed := rfl
@[simp] theorem State.setXrec_tim_slewUs (s : State) (e n : Nat) (r : XRec) : (s.setXrec e n r).tim.slewUs = s.tim.slewUs := rfl
@[simp] theorem State.setXrec_tim_rate (s : State) (e n : Nat) (r : XRec) : (s.setXrec e n r).tim.rate = s.tim.rate := rfl
@[simp] theorem State.setXrec_tim_drift (s : State) (e n : Nat) (r : XRec) : (s.setXrec e n r).tim.drift = s.tim.drift := rfl
@[simp] theorem State.setXrec_tim_coarse (s : State) (e n : Nat) (r : XRec) : (s.setXrec e n r).tim.coarse = s.tim.coarse := rfl
@[simp] theorem State.setXrec_tim_xchgNo (s : State) (e n : Nat) (r : XRec) : (s.setXrec e n r).tim.xchgNo = s.tim.xchgNo := rfl
@[simp] theorem State.setXrec_tim_xchg (s : State) (e n : Nat) (r : XRec) : (s.setXrec e n r).tim.xchg = s.tim.xchg := rfl
@[simp] theorem State.setXrec_tim_t1 (s : State) (e n : Nat) (r : XRec) : (s.setXrec e n r).tim.t1 = s.tim.t1 := rfl
@[simp] theorem State.setXrec_tim_t4 (s : State) (e n : Nat) (r : XRec) : (s.setXrec e n r).tim.t4 = s.tim.t4 := rfl
@[simp] theorem State.setXrec_tim_t2 (s : State) (e n : Nat) (r : XRec) : (s.setXrec e n r).tim.t2 = s.tim.t2 := rfl
@[simp] theorem State.setXrec_tim_missed (s : State) (e n : Nat) (r : XRec) : (s.setXrec e n r).tim.missed = s.tim.missed := rfl
@[simp] theorem State.setXrec_tim_stepDue (s : State) (e n : Nat) (r : XRec) : (s.setXrec e n r).tim.stepDue = s.tim.stepDue := rfl
@[simp] theorem State.setXrec_tim_held (s : State) (e n : Nat) (r : XRec) : (s.setXrec e n r).tim.held = s.tim.held := rfl
@[simp] theorem State.setXrec_tim_aligned (s : State) (e n : Nat) (r : XRec) : (s.setXrec e n r).tim.aligned = s.tim.aligned := rfl
@[simp] theorem State.setXrec_tim_stepped (s : State) (e n : Nat) (r : XRec) : (s.setXrec e n r).tim.stepped = s.tim.stepped := rfl
@[simp] theorem State.setXrec_tim_lastGood (s : State) (e n : Nat) (r : XRec) : (s.setXrec e n r).tim.lastGood = s.tim.lastGood := rfl
@[simp] theorem State.setXrec_tim_holdFrom (s : State) (e n : Nat) (r : XRec) : (s.setXrec e n r).tim.holdFrom = s.tim.holdFrom := rfl
@[simp] theorem State.setXrec_tim_ppsEdges (s : State) (e n : Nat) (r : XRec) : (s.setXrec e n r).tim.ppsEdges = s.tim.ppsEdges := rfl
@[simp] theorem State.setXrec_tim_lastTide (s : State) (e n : Nat) (r : XRec) : (s.setXrec e n r).tim.lastTide = s.tim.lastTide := rfl
@[simp] theorem State.setXrec_tim_raised (s : State) (e n : Nat) (r : XRec) : (s.setXrec e n r).tim.raised = s.tim.raised := rfl
@[simp] theorem State.setXrec_tim_sched0 (s : State) (e n : Nat) (r : XRec) : (s.setXrec e n r).tim.sched0 = s.tim.sched0 := rfl
@[simp] theorem State.setXrec_tim_sched1 (s : State) (e n : Nat) (r : XRec) : (s.setXrec e n r).tim.sched1 = s.tim.sched1 := rfl
@[simp] theorem State.setXrec_tim_schedSwitchAt (s : State) (e n : Nat) (r : XRec) : (s.setXrec e n r).tim.schedSwitchAt = s.tim.schedSwitchAt := rfl
@[simp] theorem State.setXrec_tim_schedRetireFrom (s : State) (e n : Nat) (r : XRec) : (s.setXrec e n r).tim.schedRetireFrom = s.tim.schedRetireFrom := rfl
@[simp] theorem State.setXrec_tim_windows (s : State) (e n : Nat) (r : XRec) : (s.setXrec e n r).tim.windows = s.tim.windows := rfl
@[simp] theorem State.setXrec_tim_lastSent (s : State) (e n : Nat) (r : XRec) : (s.setXrec e n r).tim.lastSent = s.tim.lastSent := rfl
@[simp] theorem State.setXrec_tim_transitIn (s : State) (e n : Nat) (r : XRec) : (s.setXrec e n r).tim.transitIn = s.tim.transitIn := rfl
@[simp] theorem State.setXrec_tim_transitOut (s : State) (e n : Nat) (r : XRec) : (s.setXrec e n r).tim.transitOut = s.tim.transitOut := rfl
@[simp] theorem State.setXrec_tim_markOut (s : State) (e n : Nat) (r : XRec) : (s.setXrec e n r).tim.markOut = s.tim.markOut := rfl
@[simp] theorem State.setXrec_tim_begun (s : State) (e n : Nat) (r : XRec) : (s.setXrec e n r).tim.begun = s.tim.begun := rfl
@[simp] theorem State.setXrec_tim_resend (s : State) (e n : Nat) (r : XRec) : (s.setXrec e n r).tim.resend = s.tim.resend := rfl
@[simp] theorem State.setXrec_tim_ready (s : State) (e n : Nat) (r : XRec) : (s.setXrec e n r).tim.ready = s.tim.ready := rfl
@[simp] theorem State.setXrec_tim_holds (s : State) (e n : Nat) (r : XRec) : (s.setXrec e n r).tim.holds = s.tim.holds := rfl
@[simp] theorem State.setXrec_tim_timeOut (s : State) (e n : Nat) (r : XRec) : (s.setXrec e n r).tim.timeOut = s.tim.timeOut := rfl
@[simp] theorem State.setXrec_xpt (s : State) (e n : Nat) (r : XRec) : (s.setXrec e n r).xpt = s.xpt := rfl
@[simp] theorem State.setXrec_obj (s : State) (e n : Nat) (r : XRec) : (s.setXrec e n r).obj = s.obj := rfl
@[simp] theorem State.setXrec_inj (s : State) (e n : Nat) (r : XRec) : (s.setXrec e n r).inj = s.inj := rfl
@[simp] theorem State.setXrec_hpt (s : State) (e n : Nat) (r : XRec) : (s.setXrec e n r).hpt = s.hpt := rfl
@[simp] theorem State.setXrec_xlt (s : State) (e n : Nat) (r : XRec) : (s.setXrec e n r).xlt = s.xlt := rfl
@[simp] theorem State.setXrec_mat (s : State) (e n : Nat) (r : XRec) : (s.setXrec e n r).mat = s.mat := rfl
@[simp] theorem State.setXrec_ram (s : State) (e n : Nat) (r : XRec) : (s.setXrec e n r).ram = s.ram := rfl
@[simp] theorem State.setXrec_atu (s : State) (e n : Nat) (r : XRec) : (s.setXrec e n r).atu = s.atu := rfl
@[simp] theorem State.setXrec_col (s : State) (e n : Nat) (r : XRec) : (s.setXrec e n r).col = s.col := rfl
@[simp] theorem State.setXrec_cnt (s : State) (e n : Nat) (r : XRec) : (s.setXrec e n r).cnt = s.cnt := rfl
@[simp] theorem State.setXrec_mgt (s : State) (e n : Nat) (r : XRec) : (s.setXrec e n r).mgt = s.mgt := rfl
@[simp] theorem State.setXrec_kept (s : State) (e n : Nat) (r : XRec) : (s.setXrec e n r).kept = s.kept := rfl
@[simp] theorem State.setXrec_lastRead (s : State) (e n : Nat) (r : XRec) : (s.setXrec e n r).lastRead = s.lastRead := rfl
@[simp] theorem State.setXrec_pending (s : State) (e n : Nat) (r : XRec) : (s.setXrec e n r).pending = s.pending := rfl

/-! `State.markLater` writes tim alone. -/
@[simp] theorem State.markLater_part (s : State) (p t d : Nat) : (s.markLater p t d).part = s.part := rfl
@[simp] theorem State.markLater_now (s : State) (p t d : Nat) : (s.markLater p t d).now = s.now := rfl
@[simp] theorem State.markLater_draws (s : State) (p t d : Nat) : (s.markLater p t d).draws = s.draws := rfl
@[simp] theorem State.markLater_regs (s : State) (p t d : Nat) : (s.markLater p t d).regs = s.regs := rfl
@[simp] theorem State.markLater_req (s : State) (p t d : Nat) : (s.markLater p t d).req = s.req := rfl
@[simp] theorem State.markLater_flt (s : State) (p t d : Nat) : (s.markLater p t d).flt = s.flt := rfl
@[simp] theorem State.markLater_rt (s : State) (p t d : Nat) : (s.markLater p t d).rt = s.rt := rfl
@[simp] theorem State.markLater_lnk (s : State) (p t d : Nat) : (s.markLater p t d).lnk = s.lnk := rfl
@[simp] theorem State.markLater_pwr (s : State) (p t d : Nat) : (s.markLater p t d).pwr = s.pwr := rfl
@[simp] theorem State.markLater_tim_slew (s : State) (p t d : Nat) : (s.markLater p t d).tim.slew = s.tim.slew := rfl
@[simp] theorem State.markLater_tim_slewUsed (s : State) (p t d : Nat) : (s.markLater p t d).tim.slewUsed = s.tim.slewUsed := rfl
@[simp] theorem State.markLater_tim_slewUs (s : State) (p t d : Nat) : (s.markLater p t d).tim.slewUs = s.tim.slewUs := rfl
@[simp] theorem State.markLater_tim_rate (s : State) (p t d : Nat) : (s.markLater p t d).tim.rate = s.tim.rate := rfl
@[simp] theorem State.markLater_tim_drift (s : State) (p t d : Nat) : (s.markLater p t d).tim.drift = s.tim.drift := rfl
@[simp] theorem State.markLater_tim_coarse (s : State) (p t d : Nat) : (s.markLater p t d).tim.coarse = s.tim.coarse := rfl
@[simp] theorem State.markLater_tim_xchgNo (s : State) (p t d : Nat) : (s.markLater p t d).tim.xchgNo = s.tim.xchgNo := rfl
@[simp] theorem State.markLater_tim_xchg (s : State) (p t d : Nat) : (s.markLater p t d).tim.xchg = s.tim.xchg := rfl
@[simp] theorem State.markLater_tim_t1 (s : State) (p t d : Nat) : (s.markLater p t d).tim.t1 = s.tim.t1 := rfl
@[simp] theorem State.markLater_tim_t4 (s : State) (p t d : Nat) : (s.markLater p t d).tim.t4 = s.tim.t4 := rfl
@[simp] theorem State.markLater_tim_t2 (s : State) (p t d : Nat) : (s.markLater p t d).tim.t2 = s.tim.t2 := rfl
@[simp] theorem State.markLater_tim_missed (s : State) (p t d : Nat) : (s.markLater p t d).tim.missed = s.tim.missed := rfl
@[simp] theorem State.markLater_tim_stepDue (s : State) (p t d : Nat) : (s.markLater p t d).tim.stepDue = s.tim.stepDue := rfl
@[simp] theorem State.markLater_tim_held (s : State) (p t d : Nat) : (s.markLater p t d).tim.held = s.tim.held := rfl
@[simp] theorem State.markLater_tim_aligned (s : State) (p t d : Nat) : (s.markLater p t d).tim.aligned = s.tim.aligned := rfl
@[simp] theorem State.markLater_tim_stepped (s : State) (p t d : Nat) : (s.markLater p t d).tim.stepped = s.tim.stepped := rfl
@[simp] theorem State.markLater_tim_lastGood (s : State) (p t d : Nat) : (s.markLater p t d).tim.lastGood = s.tim.lastGood := rfl
@[simp] theorem State.markLater_tim_holdFrom (s : State) (p t d : Nat) : (s.markLater p t d).tim.holdFrom = s.tim.holdFrom := rfl
@[simp] theorem State.markLater_tim_ppsEdges (s : State) (p t d : Nat) : (s.markLater p t d).tim.ppsEdges = s.tim.ppsEdges := rfl
@[simp] theorem State.markLater_tim_lastTide (s : State) (p t d : Nat) : (s.markLater p t d).tim.lastTide = s.tim.lastTide := rfl
@[simp] theorem State.markLater_tim_raised (s : State) (p t d : Nat) : (s.markLater p t d).tim.raised = s.tim.raised := rfl
@[simp] theorem State.markLater_tim_sched0 (s : State) (p t d : Nat) : (s.markLater p t d).tim.sched0 = s.tim.sched0 := rfl
@[simp] theorem State.markLater_tim_sched1 (s : State) (p t d : Nat) : (s.markLater p t d).tim.sched1 = s.tim.sched1 := rfl
@[simp] theorem State.markLater_tim_schedSwitchAt (s : State) (p t d : Nat) : (s.markLater p t d).tim.schedSwitchAt = s.tim.schedSwitchAt := rfl
@[simp] theorem State.markLater_tim_schedRetireFrom (s : State) (p t d : Nat) : (s.markLater p t d).tim.schedRetireFrom = s.tim.schedRetireFrom := rfl
@[simp] theorem State.markLater_tim_recs (s : State) (p t d : Nat) : (s.markLater p t d).tim.recs = s.tim.recs := rfl
@[simp] theorem State.markLater_tim_windows (s : State) (p t d : Nat) : (s.markLater p t d).tim.windows = s.tim.windows := rfl
@[simp] theorem State.markLater_tim_lastSent (s : State) (p t d : Nat) : (s.markLater p t d).tim.lastSent = s.tim.lastSent := rfl
@[simp] theorem State.markLater_tim_transitIn (s : State) (p t d : Nat) : (s.markLater p t d).tim.transitIn = s.tim.transitIn := rfl
@[simp] theorem State.markLater_tim_transitOut (s : State) (p t d : Nat) : (s.markLater p t d).tim.transitOut = s.tim.transitOut := rfl
@[simp] theorem State.markLater_tim_begun (s : State) (p t d : Nat) : (s.markLater p t d).tim.begun = s.tim.begun := rfl
@[simp] theorem State.markLater_tim_resend (s : State) (p t d : Nat) : (s.markLater p t d).tim.resend = s.tim.resend := rfl
@[simp] theorem State.markLater_tim_ready (s : State) (p t d : Nat) : (s.markLater p t d).tim.ready = s.tim.ready := rfl
@[simp] theorem State.markLater_tim_holds (s : State) (p t d : Nat) : (s.markLater p t d).tim.holds = s.tim.holds := rfl
@[simp] theorem State.markLater_tim_timeOut (s : State) (p t d : Nat) : (s.markLater p t d).tim.timeOut = s.tim.timeOut := rfl
@[simp] theorem State.markLater_xpt (s : State) (p t d : Nat) : (s.markLater p t d).xpt = s.xpt := rfl
@[simp] theorem State.markLater_obj (s : State) (p t d : Nat) : (s.markLater p t d).obj = s.obj := rfl
@[simp] theorem State.markLater_inj (s : State) (p t d : Nat) : (s.markLater p t d).inj = s.inj := rfl
@[simp] theorem State.markLater_hpt (s : State) (p t d : Nat) : (s.markLater p t d).hpt = s.hpt := rfl
@[simp] theorem State.markLater_xlt (s : State) (p t d : Nat) : (s.markLater p t d).xlt = s.xlt := rfl
@[simp] theorem State.markLater_mat (s : State) (p t d : Nat) : (s.markLater p t d).mat = s.mat := rfl
@[simp] theorem State.markLater_ram (s : State) (p t d : Nat) : (s.markLater p t d).ram = s.ram := rfl
@[simp] theorem State.markLater_atu (s : State) (p t d : Nat) : (s.markLater p t d).atu = s.atu := rfl
@[simp] theorem State.markLater_col (s : State) (p t d : Nat) : (s.markLater p t d).col = s.col := rfl
@[simp] theorem State.markLater_cnt (s : State) (p t d : Nat) : (s.markLater p t d).cnt = s.cnt := rfl
@[simp] theorem State.markLater_mgt (s : State) (p t d : Nat) : (s.markLater p t d).mgt = s.mgt := rfl
@[simp] theorem State.markLater_kept (s : State) (p t d : Nat) : (s.markLater p t d).kept = s.kept := rfl
@[simp] theorem State.markLater_lastRead (s : State) (p t d : Nat) : (s.markLater p t d).lastRead = s.lastRead := rfl
@[simp] theorem State.markLater_pending (s : State) (p t d : Nat) : (s.markLater p t d).pending = s.pending := rfl

/-! `State.failWaits` writes xlt alone. -/
@[simp] theorem State.failWaits_part (s : State) (m : Miss) (status : Nat) : (s.failWaits m status).part = s.part := rfl
@[simp] theorem State.failWaits_now (s : State) (m : Miss) (status : Nat) : (s.failWaits m status).now = s.now := rfl
@[simp] theorem State.failWaits_draws (s : State) (m : Miss) (status : Nat) : (s.failWaits m status).draws = s.draws := rfl
@[simp] theorem State.failWaits_regs (s : State) (m : Miss) (status : Nat) : (s.failWaits m status).regs = s.regs := rfl
@[simp] theorem State.failWaits_req (s : State) (m : Miss) (status : Nat) : (s.failWaits m status).req = s.req := rfl
@[simp] theorem State.failWaits_flt (s : State) (m : Miss) (status : Nat) : (s.failWaits m status).flt = s.flt := rfl
@[simp] theorem State.failWaits_rt (s : State) (m : Miss) (status : Nat) : (s.failWaits m status).rt = s.rt := rfl
@[simp] theorem State.failWaits_lnk (s : State) (m : Miss) (status : Nat) : (s.failWaits m status).lnk = s.lnk := rfl
@[simp] theorem State.failWaits_pwr (s : State) (m : Miss) (status : Nat) : (s.failWaits m status).pwr = s.pwr := rfl
@[simp] theorem State.failWaits_tim (s : State) (m : Miss) (status : Nat) : (s.failWaits m status).tim = s.tim := rfl
@[simp] theorem State.failWaits_xpt (s : State) (m : Miss) (status : Nat) : (s.failWaits m status).xpt = s.xpt := rfl
@[simp] theorem State.failWaits_obj (s : State) (m : Miss) (status : Nat) : (s.failWaits m status).obj = s.obj := rfl
@[simp] theorem State.failWaits_inj (s : State) (m : Miss) (status : Nat) : (s.failWaits m status).inj = s.inj := rfl
@[simp] theorem State.failWaits_hpt (s : State) (m : Miss) (status : Nat) : (s.failWaits m status).hpt = s.hpt := rfl
@[simp] theorem State.failWaits_xlt_tlb (s : State) (m : Miss) (status : Nat) : (s.failWaits m status).xlt.tlb = s.xlt.tlb := rfl
@[simp] theorem State.failWaits_xlt_misses (s : State) (m : Miss) (status : Nat) : (s.failWaits m status).xlt.misses = s.xlt.misses := rfl
@[simp] theorem State.failWaits_xlt_updates (s : State) (m : Miss) (status : Nat) : (s.failWaits m status).xlt.updates = s.xlt.updates := rfl
@[simp] theorem State.failWaits_mat (s : State) (m : Miss) (status : Nat) : (s.failWaits m status).mat = s.mat := rfl
@[simp] theorem State.failWaits_ram (s : State) (m : Miss) (status : Nat) : (s.failWaits m status).ram = s.ram := rfl
@[simp] theorem State.failWaits_atu (s : State) (m : Miss) (status : Nat) : (s.failWaits m status).atu = s.atu := rfl
@[simp] theorem State.failWaits_col (s : State) (m : Miss) (status : Nat) : (s.failWaits m status).col = s.col := rfl
@[simp] theorem State.failWaits_cnt (s : State) (m : Miss) (status : Nat) : (s.failWaits m status).cnt = s.cnt := rfl
@[simp] theorem State.failWaits_mgt (s : State) (m : Miss) (status : Nat) : (s.failWaits m status).mgt = s.mgt := rfl
@[simp] theorem State.failWaits_kept (s : State) (m : Miss) (status : Nat) : (s.failWaits m status).kept = s.kept := rfl
@[simp] theorem State.failWaits_lastRead (s : State) (m : Miss) (status : Nat) : (s.failWaits m status).lastRead = s.lastRead := rfl
@[simp] theorem State.failWaits_pending (s : State) (m : Miss) (status : Nat) : (s.failWaits m status).pending = s.pending := rfl

/-! `State.missOver` writes xlt alone. -/
@[simp] theorem State.missOver_part (s : State) (m : Miss) : (s.missOver m).part = s.part := rfl
@[simp] theorem State.missOver_now (s : State) (m : Miss) : (s.missOver m).now = s.now := rfl
@[simp] theorem State.missOver_draws (s : State) (m : Miss) : (s.missOver m).draws = s.draws := rfl
@[simp] theorem State.missOver_regs (s : State) (m : Miss) : (s.missOver m).regs = s.regs := rfl
@[simp] theorem State.missOver_req (s : State) (m : Miss) : (s.missOver m).req = s.req := rfl
@[simp] theorem State.missOver_flt (s : State) (m : Miss) : (s.missOver m).flt = s.flt := rfl
@[simp] theorem State.missOver_rt (s : State) (m : Miss) : (s.missOver m).rt = s.rt := rfl
@[simp] theorem State.missOver_lnk (s : State) (m : Miss) : (s.missOver m).lnk = s.lnk := rfl
@[simp] theorem State.missOver_pwr (s : State) (m : Miss) : (s.missOver m).pwr = s.pwr := rfl
@[simp] theorem State.missOver_tim (s : State) (m : Miss) : (s.missOver m).tim = s.tim := rfl
@[simp] theorem State.missOver_xpt (s : State) (m : Miss) : (s.missOver m).xpt = s.xpt := rfl
@[simp] theorem State.missOver_obj (s : State) (m : Miss) : (s.missOver m).obj = s.obj := rfl
@[simp] theorem State.missOver_inj (s : State) (m : Miss) : (s.missOver m).inj = s.inj := rfl
@[simp] theorem State.missOver_hpt (s : State) (m : Miss) : (s.missOver m).hpt = s.hpt := rfl
@[simp] theorem State.missOver_xlt_tlb (s : State) (m : Miss) : (s.missOver m).xlt.tlb = s.xlt.tlb := rfl
@[simp] theorem State.missOver_xlt_updates (s : State) (m : Miss) : (s.missOver m).xlt.updates = s.xlt.updates := rfl
@[simp] theorem State.missOver_xlt_failed (s : State) (m : Miss) : (s.missOver m).xlt.failed = s.xlt.failed := rfl
@[simp] theorem State.missOver_mat (s : State) (m : Miss) : (s.missOver m).mat = s.mat := rfl
@[simp] theorem State.missOver_ram (s : State) (m : Miss) : (s.missOver m).ram = s.ram := rfl
@[simp] theorem State.missOver_atu (s : State) (m : Miss) : (s.missOver m).atu = s.atu := rfl
@[simp] theorem State.missOver_col (s : State) (m : Miss) : (s.missOver m).col = s.col := rfl
@[simp] theorem State.missOver_cnt (s : State) (m : Miss) : (s.missOver m).cnt = s.cnt := rfl
@[simp] theorem State.missOver_mgt (s : State) (m : Miss) : (s.missOver m).mgt = s.mgt := rfl
@[simp] theorem State.missOver_kept (s : State) (m : Miss) : (s.missOver m).kept = s.kept := rfl
@[simp] theorem State.missOver_lastRead (s : State) (m : Miss) : (s.missOver m).lastRead = s.lastRead := rfl
@[simp] theorem State.missOver_pending (s : State) (m : Miss) : (s.missOver m).pending = s.pending := rfl

end Sys2Proof.Machine
end

