-- ==== Sys2Proof/WellFormed.lean ====
section
/-! DEFINITION. The form of the operands of a command beyond their types: what an event of the table can carry. -/

namespace Sys2Proof

open Sys2Proof.Machine

/-- A check of completion rings names rings of the queue table, or the admin completion ring, and counts entries of a ring
(02 R37, R46). -/
def viewOk (v : View) : Bool := v.all (fun x => decide (x.1 ≤ 65536 ∧ x.2 ≤ 65536))

/-- The number of a descriptor slot of some instance (06 R225). -/
def slotKeyOk (k : Nat) : Bool := decide (k < 128 * 1048576)

/-- Lines of the CXL.mem windows: a window holds at most 2 GiB (15 R458). -/
def lossOk (m : MemLoss) : Bool := m.lines.all (fun l => decide (l.2 < 2 ^ 25))

/-- The block of the fault registers (18 R512). -/
def faultBlockOk (b : Nat) : Bool := allBlocks.contains b

/-- A size that an access to set-up space can have, and its alignment (21 R568). -/
def accessSize (n : Nat) : Bool := n == 1 || n == 2 || n == 4 || n == 8
def accessAligned (a n : Nat) : Bool := a % max 1 n == 0

/-- N is a number of instances, and every record names a number that exists (06 R225, R232, 12 R384). -/
def journalOk (r : Journal) : Bool :=
  [1, 2, 4, 8, 16, 32, 64, 128].contains r.n && r.insts.all (fun x => decide (x.inst < r.n)) &&
    r.images.all (fun m => decide (m.kind ≤ 2)) && r.epochs.all (fun x => decide (x.kind < 2 ∧ x.number < 2 ∧ x.state ≤ 4)) &&
    r.queues.all (fun q => decide (q.1 < 65536)) && r.slots.all (fun x => decide (x.1 < r.n ∧ x.2.1 < 1048576 / r.n)) &&
    r.admin.all (fun x => decide (x.number < 64))

/-- Whether the operands of a command are ones that the event can have. -/
def Instr.wf : Instr → Bool
  | .poll q n => decide (q ≤ 65536) && decide (n ≤ 65536)
  | .aonPoll q n => decide (q ≤ 65536) && decide (n ≤ 65536)
  | .snoop q n => decide (q ≤ 65536) && decide (n ≤ 65536)
  | .ringReadError q _ => decide (q ≤ 65536)
  | .ringRereadTimer q n => decide (q ≤ 65536) && decide (n ≤ 65536)
  | .cqEntryReturned q n => decide (q ≤ 65536) && decide (n ≤ 65536)
  | .send _ _ v => viewOk v
  | .postRecv _ _ v => viewOk v
  | .writeMsg _ _ v => viewOk v
  | .writeImm _ _ v => viewOk v
  | .readMsg _ _ v => viewOk v
  | .atomic _ _ v => viewOk v
  | .lockAcquire _ _ v => viewOk v
  | .lockRelease _ _ v => viewOk v
  | .collective _ _ v => viewOk v
  | .cancelRecv _ _ v => viewOk v
  | .nop _ _ v => viewOk v
  | .launchPowerRaise k => slotKeyOk k
  | .launchStart k v => slotKeyOk k && viewOk v
  | .createQueue _ => true
  | .destroyQueue _ ring => decide (ring.length ≤ 65536)
  | .createPd _ => true
  | .destroyPd _ => true
  | .registerRegion _ => true
  | .deregisterRegion _ => true
  | .createConnection _ => true
  | .destroyConnection _ => true
  | .installKey _ => true
  | .createGroup _ _ => true
  | .destroyGroup _ => true
  | .loadRoute _ _ => true
  | .loadSchedule _ _ => true
  | .switchEpoch _ => true
  | .invalidateTranslation _ => true
  | .configureInstance _ => true
  | .setInstances _ => true
  | .resetInstance _ => true
  | .armPageLog _ => true
  | .loadTable _ _ => true
  | .adminComplete r v => decide (r < 192) && viewOk v
  | .aqEnable _ => true
  | .aqDisable _ => true
  | .endpointWrite _ => true
  | .route _ => true
  | .codewordSend _ stuffed => decide (stuffed ≤ 1056)
  | .tide => true
  | .drain _ _ => true
  | .forcedRetirement => true
  | .scheduleEpochRetire => true
  | .tsExchange => true
  | .tsReq _ _ => true
  | .tsResp _ _ => true
  | .tsData _ _ _ => true
  | .exchangeMissed => true
  | .holdoverLimit => true
  | .holdoverLinkRaise => true
  | .ppsEdge _ => true
  | .setArm _ => true
  | .timeInLost => true
  | .standbyTakeover => true
  | .timCtrlWrite _ => true
  | .timNowRead _ => true
  | .timeOutPulse => true
  | .xsrcRead _ => true
  | .xsrcWrite _ => true
  | .windowPayloadRead _ _ => true
  | .windowSource _ _ data => decide (data.length ≤ 60)
  | .mark _ _ => true
  | .transitCell _ _ => true
  | .transitDown _ => true
  | .laneHold _ _ => true
  | .scheduleWake _ => true
  | .openConn _ v => viewOk v
  | .openAck _ v => viewOk v
  | .dataCell _ => true
  | .wmAdvance _ v => viewOk v
  | .ack _ v => viewOk v
  | .probe _ => true
  | .status _ v => viewOk v
  | .retransmissionTimer _ v => viewOk v
  | .remoteGeneration _ v => viewOk v
  | .contextSwapComplete _ => true
  | .writeStall _ _ => true
  | .journalReplay _ r v => journalOk r && viewOk v
  | .unexpectedCopy _ v => viewOk v
  | .pullStart _ => true
  | .readReq _ v => viewOk v
  | .sourceReadFail _ _ v => viewOk v
  | .sourceFault _ => true
  | .fault _ v => viewOk v
  | .faultConfirm _ => true
  | .tag _ => true
  | .keySwitch _ => true
  | .keySwitchAck _ => true
  | .noKey _ => true
  | .atomicReq _ v => viewOk v
  | .acquire _ v => viewOk v
  | .release _ v => viewOk v
  | .abandonAll _ v => viewOk v
  | .hostWordOpDone _ _ _ v => viewOk v
  | .pendingWriteDone _ v => viewOk v
  | .atomicResp _ v => viewOk v
  | .lockResp _ v => viewOk v
  | .atuLkAcquire _ _ v => viewOk v
  | .atuLkRelease _ _ v => viewOk v
  | .lkAcquireRetry _ _ => true
  | .lkSlotWithdraw _ _ v => viewOk v
  | .treeStep _ _ _ v => viewOk v
  | .spanCombine _ _ v => viewOk v
  | .downMessage _ _ v => viewOk v
  | .collectiveAbort _ v => viewOk v
  | .translationMiss _ _ va reads => decide (va < 2 ^ 48) && decide (reads.length ≤ 4)
  | .flagUpdateDone _ _ _ room => decide (room ≤ 2 ^ 20)
  | .extentValidSet _ _ _ => true
  | .devlistLock _ => true
  | .xltFaultInfoRead _ => true
  | .instMapWrite _ _ => true
  | .busMasterEnableChange _ _ _ _ bars => bars.all (fun b => decide (0 < b.2) && b.1 % b.2 == 0)
  | .chunkGrant _ v => viewOk v
  | .polEnable _ _ _ => true
  | .polWrite _ _ _ _ => true
  | .queueSample => true
  | .codeword _ _ cells _ _ _ unstuffed _ => decide (cells.length ≤ 12) && decide (unstuffed ≤ 1056)
  | .nakRepeat _ => true
  | .noReplayTimeout _ => true
  | .nak _ _ => true
  | .replay _ _ => true
  | .linkAck _ _ => true
  | .credit _ _ => true
  | .phaseReq _ _ _ => true
  | .phase _ _ => true
  | .wake _ _ => true
  | .wakePattern _ => true
  | .laneExitTimeout _ => true
  | .retrain _ _ => true
  | .train _ _ _ _ => true
  | .trainingTimeout _ => true
  | .trainingRetry _ => true
  | .linkLost _ => true
  | .linkDown _ => true
  | .hostPortReset _ _ v => viewOk v
  | .flr _ _ v => viewOk v
  | .hptDisable _ _ _ v => viewOk v
  | .hptRetrain _ _ _ v => viewOk v
  | .cplTimeout _ _ => true
  | .poison _ _ => true
  | .atomicUr _ v => viewOk v
  | .memEnable _ => true
  | .memTrained _ loss => lossOk loss
  | .memHostBaseWrite _ => true
  | .uncorrectableRead _ _ _ loss v => lossOk loss && viewOk v
  | .rebuildDone => true
  | .patrolScrub _ => true
  | .memTemperatureRead _ => true
  | .pwrTileReq _ _ _ => true
  | .wakeEvent _ _ => true
  | .standingReturn _ => true
  | .sequenceStepDone _ codes _ => decide (codes.length ≤ 8)
  | .pllLock => true
  | .bankReload _ _ => true
  | .thermalSample _ _ => true
  | .brownout _ => true
  | .fltForce blk _ => faultBlockOk blk
  | .fltStatusClear blk _ => faultBlockOk blk
  | .fltUnackClear blk _ => faultBlockOk blk
  | .fltFirstClear blk _ => faultBlockOk blk
  | .msiXMessage => true
  | .errNPulseEnd => true
  | .dumpWrite _ => true
  | .cntValRead _ _ _ => true
  | .cntSelWrite _ _ _ => true
  | .cntCtrlEnable _ => true
  | .powerUp _ _ _ => true
  | .firmwareLoad _ _ _ _ => true
  | .selfTest _ => true
  | .pwrGoodFall _ => true
  | .resetN _ => true
  | .devReset _ => true
  | .deviceResetBegin _ => true
  | .digest _ _ => true
  | .digestRetry _ => true
  | .digestTimeout _ => true
  | .profileValid _ => true
  | .regRead _ a => a.toNat % 4 == 0
  | .regWrite _ a _ v => a.toNat % 4 == 0 && viewOk v
  | .imageOpen _ _ _ _ _ => true
  | .imageData _ _ data => decide (1 ≤ data.length ∧ data.length ≤ 240)
  | .imageClose _ => true
  | .admin _ _ v => viewOk v
  | .deviceReset _ => true
  | .sbWrite _ => true
  | .registerWrite _ a n _ view => accessAligned a n && accessSize n && viewOk view
  | .ppsEdgeLate => true
  | .engineWatchdog _ _ => true
  | .periodicRetraining _ _ loss => lossOk loss
  | .vddAonRemoval => true
  | .railOutOfRange _ => true
  | .hostPortLinkUp _ _ _ _ _ _ => true
  | .laneEnable _ _ => true
  | .cxlMemHostAccess _ line _ => decide (line < 2 ^ 25)
  | .countingClock _ _ _ => true
  | .lowHalfRead _ a n view => accessAligned a n && accessSize n && viewOk view
  | .testAccessInstruction _ => true

end Sys2Proof
end

