-- ==== Sys2Proof/Tests/Slice0.lean ====
section
/-! SUPPORT. Tests: what a well-formed command is, and for each statement states and operands that meet its premises, with what the
command then does on small states. Expected values are worked out from the rules that the statement cites. -/

set_option Elab.async false

namespace Sys2Proof.Tests

open Sys2Proof Sys2Proof.Machine

/-- The command ended in a next state that `f` holds of. -/
def nextIs (o : Host.Outcome State Fault Refusal) (f : State → Bool) : Bool :=
  match o with
  | .next t => f t
  | _ => false

/-- A chip with power good whose firmware runs, at step 4 of the start-up, with an address, a running host port 0 whose physical
function may issue requests, and instance 0 mapped onto it. -/
def base : State :=
  let s : State := { State.reset with mgt := { pwrGood := true, sampled := true, fwRunning := true } }
  let s := ((s.setFld F.MGT_STATUS_STEP 4).setFld (F.HPT_STATUS_MODE 0) 1).setFlag (F.CTL_INST_MAP_VALID 0) true
  let s : State := { s with hpt := { s.hpt with fns := [(0, { bme := true, atomicEn := true })] } }
  (s.setFlag F.CTL_ENDPOINT_LOCKED true).setFld F.CTL_ENDPOINT_ADDR 5

def withQueue (s : State) (n : Nat) (q : Queue) : State := { s with obj := { s.obj with queues := Map.set s.obj.queues n q } }

theorem test_wf_good : List.all [(.poll 65536 65536 : Instr).wf, (.send 65535 0 [(65536, 65536)] : Instr).wf,
  (.launchPowerRaise (128 * 1048576 - 1) : Instr).wf,
  (.adminComplete 191 [] : Instr).wf, (.translationMiss 63 127 (2 ^ 48 - 1) [.error, .error, .error, .error] : Instr).wf,
  (.fltForce 0 1 : Instr).wf, (.registerWrite 0 8 8 0 [] : Instr).wf, (.cxlMemHostAccess 7 (2 ^ 25 - 1) none : Instr).wf,
  (.regRead true 0xFFFFFC : Instr).wf, (.journalReplay 0 {} [] : Instr).wf] id = true := by decide +kernel

theorem test_wf_refused : List.all [!(.poll 65537 0 : Instr).wf, !(.poll 0 65537 : Instr).wf,
  !(.aonPoll 65537 0 : Instr).wf, !(.snoop 0 65537 : Instr).wf,
  !(.ringReadError 65537 true : Instr).wf, !(.ringRereadTimer 65537 0 : Instr).wf, !(.cqEntryReturned 0 65537 : Instr).wf,
  !(.send 0 0 [(65537, 0)] : Instr).wf, !(.nop 0 0 [(0, 65537)] : Instr).wf, !(.launchPowerRaise (128 * 1048576) : Instr).wf,
  !(.launchStart (128 * 1048576) [] : Instr).wf, !(.adminComplete 192 [] : Instr).wf,
  !(.codewordSend 0 1057 : Instr).wf, !(.windowSource 0 0 (List.replicate 61 .error) : Instr).wf,
  !(.journalReplay 0 { n := 3 } [] : Instr).wf, !(.journalReplay 0 { epochs := [{ kind := 2, number := 0, state := 0 }] } [] : Instr).wf,
  !(.journalReplay 0 { queues := [(65536, 0)] } [] : Instr).wf,
    !(.journalReplay 0 { slots := [(0, 1048576, 0)] } [] : Instr).wf,
  !(.translationMiss 0 0 (2 ^ 48) [] : Instr).wf, !(.translationMiss 0 0 0 (List.replicate 5 .error) : Instr).wf,
  !(.flagUpdateDone 0 0 false (2 ^ 20 + 1) : Instr).wf, !(.busMasterEnableChange 0 0 true true [(4, 0)] : Instr).wf,
  !(.busMasterEnableChange 0 0 true true [(5, 4)] : Instr).wf,
    !(.codeword 0 true (List.replicate 13 (drainCell 0 0)) 0 false false 0 false : Instr).wf,
  !(.codeword 0 true [] 0 false false 1057 false : Instr).wf, !(.memTrained [] { lines := [(0, 2 ^ 25)] } : Instr).wf,
  !(.sequenceStepDone 0 (List.replicate 9 0) true : Instr).wf, !(.fltForce 1 1 : Instr).wf, !(.regRead true 2 : Instr).wf,
    !(.regWrite true 1 0 [] : Instr).wf,
  !(.imageData true 0 [] : Instr).wf, !(.imageData true 0 (List.replicate 241 0) : Instr).wf,
    !(.registerWrite 0 4 8 0 [] : Instr).wf,
  !(.registerWrite 0 0 3 0 [] : Instr).wf, !(.lowHalfRead 0 1 2 [] : Instr).wf,
    !(.cxlMemHostAccess 0 (2 ^ 25) none : Instr).wf] id = true := by decide +kernel

theorem test_too_many_handles : (Instr.destroyQueue 0 (List.replicate 65537 0)).wf = false := by
  rw [Instr.wf, List.length_replicate]; rfl

def q5 : Queue := { work := true, cq := 6, floor := 0, k := 1 }

def q6 : Queue := { work := false, room := 1, pos := 15 }

def sq : State := withQueue (withQueue base 5 q5) 6 q6

theorem test_step_front : List.all (let s := { base with pending := [.resetN true, .resetN false] }
  [nextIs (step s) fun t => t.pending == [.resetN false] && !t.mgt.resetN]) id = true := by decide +kernel

theorem test_step_idle : List.all [nextIs (step base) fun t => t.regs == base.regs && t.now ==
  base.now + 1#64] id = true := by decide +kernel

theorem test_reset_state : List.all [decide (State.reset.pending = []), decide (State.reset.fld F.MGT_STATUS_STEP = 1),
  !State.reset.mgt.pwrGood,
  State.reset.rd Reg.CTL_ENDPOINT == regDefault State.reset.part Reg.CTL_ENDPOINT,
    Map.rising State.reset.regs] id = true := by decide +kernel

theorem test_fuses_kept : List.all [nextIs (step { base with pending := [.powerUp 3 true 2] }) fun t => t.part.fuses ==
  base.part.fuses && t.pending == []] id = true := by decide +kernel

theorem test_steady : List.all [!unsteady .tide, nextIs (exec .tide base) fun t => t.now == base.now && t.part ==
  base.part] id = true := by decide +kernel

theorem test_chip_leaves : List.all [chipCommand (.linkLost 3), nextIs (exec (.linkLost 3) base) fun t => t.xpt ==
  base.xpt && t.obj == base.obj] id = true := by decide +kernel

theorem test_rail_high : List.all [match exec (.railOutOfRange 0) base with | .fault .railOutOfRange => true | _ => false] id = true := by decide +kernel

theorem test_rail_low : List.all (let s := { base with mgt := { base.mgt with pwrGood := false } }
  [nextIs (exec (.railOutOfRange 0) s) fun t => t == s,
   nextIs (exec (.railOutOfRange 5) s) fun t => !t.mgt.vddAon && t.regs == [] && t.ram.cells ==
     []]) id = true := by decide +kernel

theorem test_polling : List.all (let s := sq
  [decide (s.queue? 5 = some q5), s.ringServed 5 q5, s.flag F.PWR_STATUS_PLL_RUN,
   nextIs (exec (.poll 5 0) s) fun t => (t.queue? 5).map (·.found) == some 0 && t.rd Reg.CTL_POLL_STRETCH ==
     s.rd Reg.CTL_POLL_STRETCH,
   nextIs (exec (.poll 5 3) s) fun t => (t.queue? 5).map (·.found) == some 3]) id = true := by decide +kernel

theorem test_polling_stretched : List.all (let s := withQueue sq 5 { q5 with floor := 2 }; let d := withQueue sq 5 { q5 with k := 0 }
  [nextIs (exec (.poll 5 0) s) fun t => t.rd Reg.CTL_POLL_STRETCH == s.rd Reg.CTL_POLL_STRETCH + 1#32 &&
    (t.queue? 5).map (·.floor) == some (s.fld F.CTL_POLL_FLOOR_FLOOR),
   nextIs (exec (.poll 5 0) (d.setFld F.CTL_POLL_FLOOR_FLOOR 3)) fun t => t.rd Reg.CTL_POLL_STRETCH ==
     d.rd Reg.CTL_POLL_STRETCH && (t.queue? 5).map (·.floor) == some 3]) id = true := by decide +kernel

theorem test_polling_aon : List.all (let x := { q5 with floor := 2 }; let s := ((withQueue sq 5 x).setFld F.CTL_POLL_FLOOR_AON_FLOOR 7).setFlag F.PWR_STATUS_PLL_RUN false
  [s.ringServed 5 x, nextIs (exec (.aonPoll 5 0) s) fun t => (t.queue? 5).map (·.floor) == some 7,
    nextIs (exec (.aonPoll 5 0) s) fun t => t.rd Reg.CTL_POLL_STRETCH == s.rd Reg.CTL_POLL_STRETCH + 1#32,
   nextIs (exec (.aonPoll 5 2) s) fun t => (t.queue? 5).map (·.found) == some 2]) id = true := by decide +kernel

theorem test_polling_snoop : List.all (let s := withQueue sq 5 { q5 with coherent := true }
  [nextIs (exec (.snoop 5 0) s) fun t => (t.queue? 5).map (·.found) == some 0 && t.regs == s.regs,
   nextIs (exec (.snoop 5 2) s) fun t => (t.queue? 5).map (·.found) == some 2]) id = true := by decide +kernel

theorem test_polling_reread : List.all (let s := { sq with hpt := { sq.hpt with reread := [5, 9] } }
  [nextIs (exec (.ringRereadTimer 5 2) s) fun t => (t.queue? 5).map (·.found) == some 2 && t.hpt.reread ==
    [9]]) id = true := by decide +kernel

theorem test_ring_error : List.all (let s := withQueue sq 5 { q5 with coherent := true }
  [nextIs (exec (.ringReadError 5 true) s) fun t => t.obj.queues == s.obj.queues && t.hpt.reread.contains 5,
   nextIs (exec (.ringReadError 6 false) s) fun t => t.obj.queues == s.obj.queues && t.hpt.reread.contains 6,
   nextIs (exec (.ringReadError 5 false) sq) fun t => t.obj.queues == sq.obj.queues && t.obj.slots ==
     sq.obj.slots]) id = true := by decide +kernel

theorem test_ring_returned : List.all (let w : WaitingCqe := { cqe := 0, since := 0, src := .none }
  let s := withQueue sq 6 { q6 with room := 0, waiting := [w, w], reserved := 2 }
  [nextIs (exec (.cqEntryReturned 6 1) s) fun t => (t.queue? 6).map (·.waiting) == some [w] &&
    (t.queue? 6).map (·.room) == some 0 && (t.queue? 6).map (·.pos) == some 0]) id = true := by decide +kernel

/-- A descriptor with an OPCODE, its OWN set and nothing else. -/
def descOf (op : Nat) : Entry := BitVec.ofNat 512 (op + 2 ^ 511)

theorem test_take_nop : List.all (let s := sq
  [dOpcode (descOf opNOP) == opNOP, (s.see []).takeable 5 q5 (descOf opNOP) opNOP, s.tileActive (s.servingTile 5),
   ((s.see []).newSlot 0).isSome, decide (q6.reserved < 2 ^ q6.log2),
   let t := s.takeInto 5 0 q5 (descOf opNOP); (t.queue? 5).map (·.pos) == some 1 && (t.queue? 6).map (·.reserved) ==
     some 0]) id = true := by decide +kernel

/-- Where nothing holds it back, a take goes into the slot that is picked. -/
theorem take_runs {s : State} {q op z : Nat} {e : Entry} {x : Queue} (h1 : s.queue? q = some x)
    (h2 : s.takeable q x e op = true) (h3 : s.tileActive (s.servingTile (q % 64)) = true)
    (h4 : (s.queue? x.cq).all (fun c => decide (2 ^ c.log2 ≤ c.reserved)) = false)
    (h5 : (dOpcode e == opPOSTRECV) = false) (h6 : s.newSlot x.inst = some z) : s.take q op e = s.takeInto q z x e := by
  have h5 : dOpcode e ≠ opPOSTRECV := by simpa using h5
  simp [State.take, h1, h2, h3, h4, h5, h6]

theorem test_take_next (z : Nat) (h : sq.newSlot 0 = some z) :
    exec (.nop 5 (descOf opNOP) []) sq = .next (sq.takeInto 5 z q5 (descOf opNOP)) :=
  congrArg Host.Outcome.next (take_runs (s := sq) (q := 5) (op := opNOP) (x := q5) (by decide +kernel) (by decide +kernel)
    (by decide +kernel) (by decide +kernel) (by decide +kernel) h)

theorem test_take_all : List.all (let s := sq
  (takeCommands 5 (descOf 1) []).map (fun p => (s.see []).takeable 5 q5 (descOf p.1) p.1 && dOpcode (descOf p.1) ==
    p.1)) id = true := by decide +kernel

theorem test_take_refused : List.all (let s := sq
  [match ((s.reserveTake 5 q5).judge 5 q5 (descOf opSEND)).2 with | .refuse _ => true | _ => false,
   let t := s.takeInto 5 0 q5 (descOf opSEND); t.xpt == s.xpt && t.mat == s.mat && t.col == s.col && t.atu == s.atu &&
     t.rt == s.rt]) id = true := by decide +kernel

def slOf (st : Nat) (r : Bool) : State := { sq.setFld F.TIM_STATUS_STATE st with
  now := 65#64, obj := { sq.obj with slots := [(3, { desc := descOf opNOP, queue := 5, index := 0, cq := 6, phase := .launch, replayed := r })] } }

def sl : State := slOf tsACQUIRING false

theorem test_launch : List.all (let s := slOf tsACQUIRING false; let r := slOf tsACQUIRING true; let l := slOf tsLOCKED true; let e : State := { r with now := 64#64 }
  [(s.slot? 3).isSome, !dSignal (descOf opNOP), nextIs (exec (.launchPowerRaise 3) s) fun t => t ==
    s.raiseFor 5 (descOf opNOP),
   nextIs (exec (.launchStart 3 []) s) fun t => t.slot? 3 == none && t.rd Reg.TIM_LAUNCH_UNSYNC ==
     s.rd Reg.TIM_LAUNCH_UNSYNC + 1#32,
   (s.slot? 3).any s.launchMayStart, (l.slot? 3).any l.launchMayStart, (e.slot? 3).any e.launchMayStart,
     !(r.slot? 3).any r.launchMayStart,
   nextIs (exec (.launchStart 3 []) r) fun t => t == r, nextIs (exec (.launchStart 3 []) l) fun t => t.slot? 3 == none,
   (l.lateLaunches).slot? 3 == none]) id = true := by decide +kernel

theorem test_quiet : List.all [quietCommand (.timNowRead 0), nextIs (exec (.timNowRead 0) base) fun t => t.regs ==
  base.regs] id = true := by decide +kernel

def aq0 : Queue := { work := true, log2 := 5 }

def acq : Queue := { work := false, log2 := 5, room := 1 }

def sa : State := ((withQueue (withQueue base 0 aq0) acqKey acq).setFlag F.CTL_AQ_CTRL_ENABLE true)

def recR : AdminRec := { entry := descOf 3, index := 0, result := 7, wait := .ready }

theorem test_admin_taken : List.all (let s := sa
  [decide (s.queue? 0 = some aq0), s.ownerServed, !s.halted, !s.flag F.CTL_JRNL_CTRL_REPLAY,
    decide (s.queue? acqKey = some acq),
   s.tileActive (s.servingTile 0), s.freeAdm.isSome, !s.adminHeld (descOf acCREATEPD), dOwn (descOf acCREATEPD),
   nextIs (exec (.createPd (descOf acCREATEPD)) s) fun t => t.obj.adm.any (fun a => a.2.entry == descOf acCREATEPD &&
     a.2.index == 0 && !a.2.sideband),
   !s.adminHeld (descOf acLOADTABLE), nextIs (exec (.loadTable (descOf acLOADTABLE) .error) s) fun t => t.obj.adm.any (fun a => a.2.entry == descOf acLOADTABLE)]) id = true := by decide +kernel

theorem test_admin_failed : List.all (let s := sa; let r := s.createQueue (descOf acCREATEQUEUE); let d := s.destroyPd (descOf acDESTROYPD)
  [r.status != stSUCCESS, r.st == s, d.status != stSUCCESS, d.st == s]) id = true := by decide +kernel

theorem test_admin_load : List.all (let s := sa; let r := s.loadImage 0 (descOf acLOADROUTE) .error
  [r.status == adHOSTREAD || r.status == adTABLE || r.st == s]) id = true := by decide +kernel

theorem test_admin_complete : List.all (let s : State := { sa with obj := { sa.obj with adm := [(9, recR), (10, { recR with sideband := true }),
    (11, { recR with wait := .switch 0 1 })] } }
  [nextIs (exec (.adminComplete 9 []) s) fun t => Map.get? t.obj.adm 9 == none,
   nextIs (exec (.adminComplete 10 []) s) fun t => Map.get? t.obj.adm 10 == none && t.lastRead == .sideband 0 7 8,
   (let s := s.setEpochOf 0 1 esPENDING; s.epochOf 0 1 == esPENDING && nextIs (exec (.adminComplete 11 []) s) fun t => t ==
     s)]) id = true := by decide +kernel

theorem test_admin_room : List.all (let s : State := { (withQueue sa acqKey { acq with reserved := 1 }) with obj := { (withQueue sa acqKey { acq with reserved := 1 }).obj with adm := [(9, recR)] } }
  [nextIs (exec (.adminComplete 9 []) s) fun t => (t.queue? acqKey).map (·.reserved) ==
    some 0]) id = true := by decide +kernel

theorem test_aq_enable : List.all (let s := base; let w : Word := BitVec.ofNat 32 (5 * 2 ^ 5 + 6 * 2 ^ 10 + 3 * 2 ^ 15)
  [!s.aqBad (w ||| 0x80000000#32), s.obj.adm == [], !s.flag F.CTL_AQ_CTRL_ENABLE, !s.halted,
   nextIs (exec (.aqEnable w) s) fun t => t.flag F.CTL_AQ_CTRL_ENABLE &&
        (t.queue? 0).map (fun q => (q.pos, q.log2, q.k, q.coherent)) == some (0, bits w 9 5, bits w 19 15, bit w 20) &&
        (t.queue? acqKey).map (fun q => (q.pos, q.log2, q.coherent, q.split)) ==
          some (0, bits w 14 10, bit w 20, bit w 21) &&
        nextIs (exec (.aqEnable w) t) (fun u => u == t) &&
        nextIs (exec (.aqDisable w) t) (fun u => !u.flag F.CTL_AQ_CTRL_ENABLE && (u.queue? 0).map (·.pos) == some 0),
   s.aqBad 0x80000000#32, nextIs (exec (.aqEnable 0) s) fun t => t == s,
   (let h := s.setFlag F.MGT_FLT_PIN_HALTED true; h.halted && nextIs (exec (.aqEnable w) h) fun t => t ==
     h)]) id = true := by decide +kernel

/-- The state with link `p` of one lane in a state and a phase. -/
def withLink (s : State) (p st ph : Nat) (l : Link) : State :=
  let s := (s.setFld (F.LNG_LANE_STATUS_LINK p) st).setFld (F.LNG_LANE_STATUS_PHASE p) ph
  { s with lnk := { s.lnk with links := Map.set s.lnk.links p l } }

theorem test_endpoint : List.all (let s := base.setFlag F.CTL_ENDPOINT_LOCKED false
  [nextIs (exec (.endpointWrite 0x80001234) base) fun t => t == base, !s.addressed,
   nextIs (exec (.endpointWrite 0xFFFFFFFF) s) fun t => t.addr == 0x1FFFF && t.addressed && t.rd Reg.CTL_AQ_CTRL ==
     s.rd Reg.CTL_AQ_CTRL &&
     ({ t with regs := s.regs } : State) == s]) id = true := by decide +kernel

def cellTo (dst : Nat) : Cell := mkCell { dst := dst, src := 9, cls := 2, hop := 0, typ := tySEND, first := true, last := true } 0

def heldC (c : Cell) : HeldCell := { inp := some 3, cell := c }

def withHeld (s : State) (c : Cell) : State := { s with rt := { s.rt with held := [heldC c] } }

theorem test_route_local : List.all [nextIs (exec (.route 0) (withHeld base (cellTo 5))) fun t => t.rt.delivered ==
  [heldC (cellTo 5)] && t.rt.held == [] && t.regs == base.regs,
  nextIs (exec (.route 0) (withHeld base (drainCell 0 1))) fun t => t.rt.delivered ==
    [heldC (drainCell 0 1)]] id = true := by decide +kernel

theorem test_route_noaddr : List.all (let s := withHeld (base.setFlag F.CTL_ENDPOINT_LOCKED false) (cellTo 5)
  [!(cellTo 5).linkLocal, nextIs (exec (.route 0) s) fun t => t.rt.delivered == [] && t.rt.held == [] &&
    t.rd Reg.CTL_DROP_NOROUTE == s.rd Reg.CTL_DROP_NOROUTE + 1#32]) id = true := by decide +kernel

theorem test_route_epoch : List.all (let s := withHeld base (cellTo 6)
  [!routableSt (s.repoch 0), nextIs (exec (.route 0) s) fun t => t.rt.outQ == [] && t.rt.held == [] &&
    t.rd Reg.CTL_DROP_EPOCH == s.rd Reg.CTL_DROP_EPOCH + 1#32]) id = true := by decide +kernel

def sr : State := (withLink base 7 lkUP phFULL {}).setRepoch 0 esACTIVE

theorem test_route_hop : List.all (let s := withHeld (sr.setFld F.CTL_ROUTE_CTRL_HOP_LIMIT 0) (cellTo 6)
  [routableSt (s.repoch 0), nextIs (exec (.route 0) s) fun t => t.rt.outQ == [] && t.rt.held == [] &&
    t.rd Reg.CTL_DROP_HOP == s.rd Reg.CTL_DROP_HOP + 1#32]) id = true := by decide +kernel

/-- A route image whose spray sets all name port 7. -/
def img7 : Nat := (2 ^ (2 * 1024 * 1024) - 1)

def dmgmt (k : Nat) (pay : Nat) : Cell := mgmtCell 0 0 15 0 k pay

theorem test_drain : List.all (let s := sr
  [nextIs (exec (.drain 7 (drainCell 0 1)) s) fun t => t.rt.drainIn.contains (0, 1, 7),
   nextIs (exec (.drain 7 (drainCell 1 1)) s) fun t => t.rt.drainIn == [] && t.regs == s.regs,
   (drainCell 0 1).linkLocal, (drainCell 0 1).crcOk, !badFormat (drainCell 0 1), (drainCell 0 1).typ == tyMGMT,
     !badMgmt (drainCell 0 1),
   (drainCell 0 1).pb 63 1 == mgDRAIN]) id = true := by decide +kernel

theorem test_forced_retire : List.all (let s := withHeld (sr.setRepoch 1 esRETIRING) ((cellTo 6).withEpo 1)
  [(s.stampedHere 1).length == 1, nextIs (exec .forcedRetirement s) fun t => t.repoch 1 == esIDLE && t.repoch 0 == esACTIVE &&
     t.flag F.CTL_ROUTE_EPOCH_FORCED && t.stampedHere 1 == []]) id = true := by decide +kernel

theorem test_tide : List.all (let s : State := { base with now := BitVec.ofNat 64 (0x1400000 * 3) }
  [s.tim.lastTide == 0, nextIs (exec .tide s) fun t => t.tim.lastTide == 3 && t.now == s.now &&
    nextIs (exec .tide t) (fun u => u == t) &&
     t.mgt.rootId == s.rd64 Reg.MGT_ROOT_ID,
   nextIs (exec .tide base) fun t => t == base]) id = true := by decide +kernel

theorem test_sched_retire : List.all (let s := base.setSepoch 1 esRETIRING
  [nextIs (exec .scheduleEpochRetire s) fun t => t.sepoch 1 == esIDLE && t.sepoch 0 == s.sepoch 0 &&
    ({ t with regs := s.regs } : State) == s]) id = true := by decide +kernel

theorem test_now_read : List.all (let s : State := { base with now := 0xFFFFFFFF00000001#64 }
  [nextIs (exec (.timNowRead 8) s) fun t => t.lastRead == .data 8 1 4 && Map.get? (t.requester 8).latch Reg.TIM_NOW_HI ==
    some 0xFFFFFFFF#32]) id = true := by decide +kernel

def stm : State := (withLink base 0 lkUP phFULL {}).setFld F.TIM_STATUS_STATE tsLOCKED

theorem test_ts_exchange : List.all (let s := stm
  [s.exchangeLink == some 0, nextIs (exec .tsExchange s) fun t => t.tim.xchg == some 1 &&
    (t.link 0).words.contains (mkWord wTSREQ 1),
   base.exchangeLink == none, nextIs (exec .tsExchange base) fun t => t == base,
   nextIs (exec (.tsReq 0 255) s) fun t => (t.link 0).words.contains (mkWord wTSRESP 255) && Map.get? t.tim.t2 0 ==
     some s.t && t.regs == s.regs,
   nextIs (exec (.tsReq 0 255) base) fun t => t.tim == base.tim,
   (let s : State := { s with tim := { s.tim with xchg := some 255 } }
    s.followed == 0 && s.follows && nextIs (exec (.tsResp 0 255) s) fun t => t.tim == { s.tim with t4 := some s.t } &&
      t.regs == s.regs)]) id = true := by decide +kernel

def sx : State := { stm with now := 0x1000#64, tim := { stm.tim with xchg := some 4, t1 := 0x800, t4 := some 0x1000 } }

theorem test_ts_slew : List.all (let s := sx
  [s.follows, s.followed == 0, s.stepsBy (s.measure 0xC00 0xC04).1 == none, s.timeState != tsHOLDOVER, s.tim.raised != 1,
   nextIs (exec (.tsData 0 0xC04 0xC04) s) fun t => t.now == s.now && t.tim.xchg == none && t.tim.missed == 0 &&
     t.rd Reg.TIM_OFFSET == BitVec.ofInt 32 (s.measure 0xC04 0xC04).1 && t.tim.slew == (s.measure 0xC04 0xC04).1 &&
       t.timeState == s.timeState &&
     t.fld F.TIM_STATUS_GOOD == 1]) id = true := by decide +kernel

theorem test_ts_step : List.all (let s := sx
  [s.stepsBy (s.measure 0x9000 0x9000).1 != none,
   nextIs (exec (.tsData 0 0x9000 0x9000) s) fun t => t.now ==
     BitVec.ofNat 64 ((s.t : Int) + (s.measure 0x9000 0x9000).1).toNat]) id = true := by decide +kernel

theorem test_missed : List.all (let s := sx; let s3 : State := { sx with tim := { sx.tim with missed := 2 } }
  [nextIs (exec .exchangeMissed base) fun t => t == base,
   nextIs (exec .exchangeMissed s) fun t => t.tim.xchg == none && t.tim.missed == 1 && t.fld F.TIM_STATUS_GOOD == 0 &&
     t.timeState == s.timeState,
   s3.follows, s3.timeState == tsLOCKED,
   nextIs (exec .exchangeMissed s3) fun t => t.tim.holdFrom == some s.t && t.tim.missed == 0 && t.timeState == tsHOLDOVER,
   (let h := sx.setFld F.TIM_STATUS_STATE tsHOLDOVER
    nextIs (exec .holdoverLimit h) fun t => t.timeState == tsOUTLIER && t.tim.stepDue && t.tim.holdFrom == none && t.now ==
      h.now),
   (let h := withLink base 0 lkUP phHALF {}; h.linkRuns 0 && !h.linkFull 0 &&
    nextIs (exec .holdoverLinkRaise h) fun t => t.tim == { h.tim with raised := 4 })]) id = true := by decide +kernel

def sroot : State := (base.setFld F.TIM_CTRL_ROLE roleROOT)

theorem test_time_in : List.all (let s := sroot
  [base.role == roleFOLLOWER, nextIs (exec (.ppsEdge true) base) fun t => t == base,
   (let a := (s.setFlag F.TIM_CTRL_SET_ARM true).wr Reg.TIM_SET_LO 7#32
    nextIs (exec (.ppsEdge false) a) fun t => t.now == 7#64 && t.tim.stepped),
   nextIs (exec .timeInLost base) (fun t => t == base) && nextIs (exec .ppsEdgeLate base) (fun t => t == base),
   (let a := (s.setFlag F.TIM_STATUS_TIME_IN_OK true).setFld F.TIM_STATUS_STATE tsLOCKED
    a.isRoot && nextIs (exec .timeInLost a) (fun t => !t.flag F.TIM_STATUS_TIME_IN_OK && t.tim.ppsEdges == 0 &&
      !t.tim.aligned &&
      t.timeState == tsHOLDOVER && nextIs (exec .ppsEdgeLate a) fun u => u == t)),
   (let b := (base.setFld F.TIM_CTRL_ROLE roleSTANDBY).setFlag F.TIM_STATUS_TIME_IN_OK true
    nextIs (exec .standbyTakeover b) fun t => t.flag F.TIM_STATUS_ACTING_ROOT && t.now == b.now && t.timeState != tsUNSET),
   (let b := ((base.setFld F.TIM_CTRL_ROLE roleSTANDBY).setFlag F.TIM_STATUS_TIME_IN_OK true).setFld F.TIM_STATUS_STATE tsHOLDOVER
    nextIs (exec .standbyTakeover b) fun t => t.flag F.TIM_STATUS_ACTING_ROOT && t.now == b.now && t.timeState ==
      tsHOLDOVER)]) id = true := by decide +kernel

theorem test_time_ctrl : List.all (let h := base.setFlag F.MGT_FLT_PIN_HALTED true
  [nextIs (exec (.timCtrlWrite 1) h) (fun t => t == h), nextIs (exec (.setArm 1) h) (fun t => t == h),
   nextIs (exec (.timCtrlWrite 5) stm) (fun t => t.timeState == tsUNSET),
   nextIs (exec (.timCtrlWrite 5) { stm with tim := { stm.tim with held := true } }) fun t => t.now == stm.now &&
     t.tim.xchg == none && !t.flag F.TIM_STATUS_ON_ALT && !t.flag F.TIM_STATUS_ACTING_ROOT &&
     t.fld F.TIM_CTRL_PARENT_PORT == 5 && t.role == 0 && t.timeState == tsACQUIRING && t.fld F.TIM_STATUS_GOOD == 0,
   nextIs (exec (.timCtrlWrite 0xC0000000) stm) fun t => t.timeState == tsLOCKED && t.fld F.TIM_CTRL_PARENT_PORT == 0,
   nextIs (exec (.setArm 0x40000000) base) fun t => t.flag F.TIM_CTRL_SET_ARM && t.role == roleROOT,
   nextIs (exec .timeOutPulse base) (fun t => t == base),
   nextIs (exec .timeOutPulse stm) (fun t => t == { stm with tim := { stm.tim with timeOut := stm.tim.timeOut + 1 } })]) id = true := by decide +kernel

def rec1 : XRec := { valid := true, dst := 77, out := 1, bout := 2, first := 4095, stride := 1, count := 1, bofs := 18, p := 1, pb := 1280 }

theorem test_xsrc : List.all (let s := (base.showXsrc rec1); let w : Word := 0x1FFF
  [s.xsrcData (s.xrec 1 4095) == rec1, !s.xsrcRefused 1 4095 rec1,
   nextIs (exec (.xsrcWrite w) s) fun t => t.xrec 1 4095 == rec1 && !t.flag F.TIM_XSRC_CMD_ERR && t.xrec 1 4094 ==
     s.xrec 1 4094 &&
     nextIs (exec (.xsrcRead w) t) (fun u => u.tim == t.tim && u.rd Reg.TIM_XSRC_DATA2 == BitVec.ofNat 32 (65536 + 1) &&
       u.rd Reg.TIM_XSRC_DATA3 == BitVec.ofNat 32 (18 * 65536 + 4095)),
   (let z := s.setSepoch 1 esACTIVE; z.xsrcRefused 1 4095 rec1 && nextIs (exec (.xsrcWrite w) z) (fun t => t.tim ==
     z.tim && t.flag F.TIM_XSRC_CMD_ERR))]) id = true := by decide +kernel

def sw : State :=
  let s := ((withLink (withLink base 1 lkUP phFULL {}) 3 lkUP phFULL {}).setSepoch 0 esACTIVE).setFld F.TIM_STATUS_STATE tsLOCKED
  let s := s.setFlag F.MGT_STATUS_JOINED true
  { s with tim := { s.tim with recs := [(9, { rec1 with first := 7 })], sched0 := (2 ^ 11) ^ (4096 * 3 + 6) * 1 + (2 ^ 11) ^ (4096 * 3 + 7) * 0x7FE } }

theorem test_window : List.all (let s := sw
  [s.ownedSlot 9 7 == some (0, { rec1 with first := 7 }), s.ownedSlot 9 8 == none, s.joined, s.synced,
   nextIs (exec (.windowPayloadRead 9 8) s) (fun t => t == s), nextIs (exec (.windowSource 9 8 []) s) (fun t => t == s),
   nextIs (exec (.windowSource 9 7 []) s) (fun t => t == s),
   nextIs (exec (.windowPayloadRead 9 7) s) fun t => t.tim.ready.contains (9, 7) && t.eligible 7 1 &&
     nextIs (exec (.windowSource 9 7 []) t) (fun u => !u.tim.ready.contains (9, 7))]) id = true := by decide +kernel

theorem test_mark : List.all (let s := sw
  [s.windowEntry 0 3 6 == 1, s.eligible 7 1, s.windowEntry 0 3 7 == enDELIVER,
   nextIs (exec (.mark 3 6) s) fun t => Map.get? t.tim.windows 3 ==
     some { epoch := 0, label := 6, count := 0, entry := 1 } && (Map.getD t.tim.markOut 1 []).contains (s.t + ns 85, 6),
   nextIs (exec (.mark 3 7) s) fun t => Map.get? t.tim.windows 3 ==
     some { epoch := 0, label := 7, count := 0, entry := enDELIVER }]) id = true := by decide +kernel

def cell7 : Cell := mkCell { dst := 5, src := 9, cls := 7, typ := tySEND, first := true, last := true } 0

theorem test_transit : List.all (let s : State := { sw with tim := { sw.tim with transitIn := [(3, cell7)] } }
  let d : State := { s with tim := { s.tim with windows := [(3, { epoch := 0, label := 7, count := 59, entry := enDELIVER })] } }
  [nextIs (exec (.transitCell 3 cell7) s) fun t => t.rt == s.rt && t.rd Reg.TIM_TRANSIT_DROP ==
    s.rd Reg.TIM_TRANSIT_DROP + 1#32,
   nextIs (exec (.transitCell 3 cell7) d) fun t => t.regs == d.regs && t.rt.delivered ==
     [{ inp := some 3, cell := cell7 }]]) id = true := by decide +kernel

def down7 : Cell := mgmtCell 5 9 0 0 mgTRANSITDOWN (payOf [(0, 1, 0), (2, 2, 7)])

theorem test_transit_down : List.all (let s := sw
  [down7.dst == 5, down7.crcOk, !badFormat down7, !badMgmt down7, down7.pb 63 1 == mgTRANSITDOWN, down7.pb 2 2 % 4096 == 7,
   (s.xrec 0 9).ownsPrimary 7, nextIs (exec (.transitDown down7) s) fun t => (t.xrec 0 9).pfail]) id = true := by decide +kernel

theorem test_lane_hold : List.all (let s := sw
  [s.inSchedule 1, !base.inSchedule 1, nextIs (exec (.laneHold 1 true) s) (fun t => t.heldLink 1 && t.regs == s.regs),
   nextIs (exec (.laneHold 1 true) base) (fun t => t == base),
     nextIs (exec (.laneHold 1 false) s) (fun t => !t.heldLink 1 && ({ t with tim := s.tim } : State) == s),
   nextIs (exec (.scheduleWake 1) base) (fun t => t == base),
   (let h := withLink sw 1 lkUP phHALF {}; h.inSchedule 1 && h.linkRuns 1 && h.tileActive (tileOf 1) &&
     !h.tileChanging (tileOf 1) &&
    nextIs (exec (.scheduleWake 1) h) fun t => (t.link 1).exitFrom == some phHALF)]) id = true := by decide +kernel

/-- A control cell from endpoint 9, instance 1, for connection 17 of this chip, with extra fields. -/
def ctl (typ kind : Nat) (l : List (Nat × Nat × Nat)) : Cell :=
  mkCell { dst := 5, src := 9, cls := 2, typ := typ, ins := 1, gen := 0, first := true, last := true }
    (payOf ([(0, 4, 17), (4, 4, 33), (8, 1, kind), (9, 1, 3)] ++ l))

def k17 : Conn := { inst := 0, pd := 4, peerEp := 9, peerInst := 1, cls := 2, peerHandle := 33, peerGen := some 3 }

def withConn (s : State) (k : Conn) : State := { s with xpt := { s.xpt with conns := Map.set s.xpt.conns 17 k } }

def sc : State := withConn base { k17 with st := .opened }

/-- What `ReachesConn` asks of a cell, for connection 17. -/
def reaches (s : State) (c : Cell) (typ kind : Nat) : Bool :=
  s.addressed && c.dst == s.addr && c.crcOk && !badFormat c && !badLocal c && c.typ == typ && !badKind c && c.pb 8 1 ==
    kind && c.pb 0 4 == 17 &&
    (match s.conn? 17 with | some k => c.src == k.peerEp && c.ins == k.peerInst && !s.stale k | none => false) && s.onDie 17

theorem test_opening : List.all (let c := ctl tyNOTICE kOPEN [(12, 2, 0xFFFF)]; let s := withConn base k17
  [reaches s c tyNOTICE kOPEN, c.pb 4 4 == 33, c.cls == 2, (s.msgsOf 17).isEmpty,
   nextIs (exec (.openConn c []) s) fun t => (t.conn? 17).map (fun k => (k.st, k.peerGen, k.nextSeq, k.w)) ==
     some (.opened, some 3, 0, 16384),
   nextIs (exec (.openConn c []) (withConn base { k17 with st := .broken })) fun t => (t.conn? 17).map (·.st) == some .broken,
   (let c := ctl tyNOTICE kOPENACK [(12, 2, 4)]; let s := withConn base { k17 with st := .opening }
    reaches s c tyNOTICE kOPENACK && nextIs (exec (.openAck c []) s) fun t => (t.conn? 17).map (fun k => (k.st, k.peerGen,
      k.nextSeq, k.w)) == some (.opened, some 3, 5, 16384))]) id = true := by decide +kernel

theorem test_watermark : List.all (let s := withConn base { k17 with st := .opened, nextSeq := 2, peerWm := 0xFFFF, segs := [{ seq := 0, msg := 0, seg := 0, cells := 1, next := 1 }, { seq := 1, msg := 1, seg := 0, cells := 1, next := 1 }], expiries := 3 }
  let a := fun w => ctl tyACK kACK [(12, 2, w), (14, 2, w), (28, 2, w)]
  let b := fun w => ctl tyACK kSTATUS [(12, 2, w), (14, 2, w), (28, 2, w)]
  [reaches s (a 0) tyACK kACK, reaches s (b 0) tyACK kSTATUS,
   nextIs (exec (.ack (a 1) []) s) fun t => (t.conn? 17).map (·.peerWm) == some 1,
   nextIs (exec (.ack (a 2) []) s) fun t => (t.conn? 17).map (·.peerWm) == some 0xFFFF,
   nextIs (exec (.ack (a 0xFFFF) []) s) fun t => (t.conn? 17).map (·.peerWm) == some 0xFFFF,
   nextIs (exec (.status (b 0) []) s) fun t => (t.conn? 17).map (fun k => (k.peerWm, k.expiries, k.progress)) == some (0,
     0, s.t),
   nextIs (exec (.status (b 7) []) s) fun t => (t.conn? 17).map (fun k => (k.peerWm, k.expiries, k.progress)) ==
     some (0xFFFF, 0, s.t),
   reaches s (ctl tyNOTICE kPROBE []) tyNOTICE kPROBE,
   nextIs (exec (.probe (ctl tyNOTICE kPROBE [])) s) fun t => (t.inj.ctl[s.inj.ctl.length]?).any (fun y => y.typ ==
     tyACK && y.dst == 9 && y.cls == k17.ctlCls && y.ins == 0 && y.gen == s.gen 0)]) id = true := by decide +kernel

def sswap : State :=
  let g := (withConn base { k17 with st := .opened, place := .gddr 2 }).setFlag F.MEM_STATUS_TRAINED true
  { g with xpt := { g.xpt with swaps := [17] } }

theorem test_breaking : List.all (let s := sc; let o := withConn base { k17 with st := .opening, expiries := 1 }
  [!k17.timerRuns, s.sourceFailed 17 == [], nextIs (exec (.retransmissionTimer 17 []) s) fun t => t == s,
   (let o := withConn base { k17 with st := .opening, expiries := 63 }
    decide (o.fld (F.CTL_XPT_RETRY_RETRY_LIMIT 2) ≤ 64) && nextIs (exec (.retransmissionTimer 17 []) o) fun t => (t.conn? 17).map (·.st) == some .broken),
   decide (2 < o.fld (F.CTL_XPT_RETRY_RETRY_LIMIT 2)),
   nextIs (exec (.retransmissionTimer 17 []) o) fun t => (t.conn? 17).map (·.expiries) == some 2 && t.inj.ctl.length ==
     1 && t.inj.ctl.all (fun y => y.typ == tyNOTICE && y.dst == 9),
   reaches s (ctl tyNOTICE kREMOTEGEN []) tyNOTICE kREMOTEGEN,
   nextIs (exec (.remoteGeneration (ctl tyNOTICE kREMOTEGEN []) []) s) fun t => (t.conn? 17).map (·.st) == some .broken,
   nextIs (exec (.contextSwapComplete 17) s) (fun t => t == s),
   sswap.memReady, sswap.xpt.swaps.contains 17]) id = true := by decide +kernel

theorem test_free_entry : (sswap.freeEntryOf 0).isSome = true := by
  unfold State.freeEntryOf
  exact pickBelow_isSome (x := 0) (by decide +kernel) (by decide +kernel) (by decide +kernel)

def dcell (seq idx gen : Nat) : Cell := mkCell { dst := 5, src := 9, cls := 2, typ := tySEND, ins := 1, gen := gen, seq := seq, idx := idx } 0

theorem test_data : List.all (let s := sc; let r := (s.xpt.conns.length)
  [isMsgTyp (dcell 0 1 3).typ, s.connBy 9 1 2 == some (17, { k17 with st := .opened }), r == 1,
    s.fnUp (s.portOf 0) (s.fnOf 0),
   nextIs (exec (.dataCell (dcell 0 1 3)) base) fun t => t.xpt == base.xpt && t.rd Reg.CTL_XPT_NOCTX == 1#32,
   nextIs (exec (.dataCell (dcell 0 1 3)) (withConn base k17)) fun t => t.rd Reg.CTL_XPT_NOCTX == 1#32,
   nextIs (exec (.dataCell (dcell 0 1 4)) s) fun t => t.xpt == s.xpt && t.rd Reg.CTL_XPT_GEN_DROP == 1#32,
   k17.classify 0xFFFF == .duplicate, k17.classify 4096 == .beyond, k17.classify 4095 == .accepted,
   nextIs (exec (.dataCell (dcell 0xFFFF 1 3)) s) fun t => t.inj.ctl.length == 1 && t.inj.ctl.all (fun y => y.typ ==
     tyACK && y.dst == 9) && t.rd Reg.CTL_XPT_DUP == 1#32,
   nextIs (exec (.dataCell (dcell 4096 1 3)) s) fun t => t.inj == s.inj && t.rd Reg.CTL_XPT_OOW == 1#32,
   nextIs (exec (.dataCell (dcell 4095 16383 3)) s) fun t => t.regs == s.regs && (t.conn? 17).map (·.recs) ==
     some [{ seq := 4095, map := 2 ^ 16383, marked := 0, held := [dcell 4095 16383 3] }]]) id = true := by decide +kernel

def wmsg : RxMsg := { seq := 0, typ := tyWRITE, len := 8, cell0 := dcell 0 0 3, placed := 8, target := .buffer 0 0 8 none }

theorem test_wm_advance : List.all (let s := withConn base { k17 with st := .opened, front := 0, rx := [wmsg] }
  [({ k17 with st := .opened, front := 0, rx := [wmsg] } : Conn).ready wmsg,
   nextIs (exec (.wmAdvance 17 []) sc) (fun t => t == sc),
   nextIs (exec (.wmAdvance 17 []) s) fun t => (t.conn? 17).map (fun k => (k.wm, k.rx)) == some (0, []) &&
     t.inj.ctl.length == 1 && t.inj.ctl.all (fun y => y.typ == tyACK && y.dst == 9)]) id = true := by decide +kernel

/-- Instance 0 has region 0 at address 0, whose page a TLB slice holds, in the CXL.mem window of port 0. -/
def withMem (s : State) (tile : Nat) : State :=
  let s := (s.setFlag (F.HPT_STATUS_MEM 0) true).setFlag F.MEM_STATUS_TRAINED true
  { s with
    obj := { s.obj with regions := [(0, { len := 4096, valid := true, access := 31, pd := 4, used := true })], insts := [(0, { configured := true, regionLog2 := 4 })] }
    hpt := { s.hpt with hdm := [(0, (2 ^ 20, 2 ^ 28))] }
    xlt := { s.xlt with tlb := [(tile, [{ inst := 0, vbase := 0, log2 := 12, addr := 2 ^ 20, write := true, dirty := true, ptr := 0, leaf := 0 }])] } }

def req (typ imm off : Nat) : Cell := mkCell { dst := 5, src := 9, cls := 2, typ := typ, ins := 1, gen := 3, first := true, last := true }
  (payOf [(8, 8, imm), (24, 8, off), (32, 8, 5), (40, 8, 7)])

def reqMsg (typ imm off len : Nat) : RxMsg := { seq := 0, typ := typ, len := len, cell0 := req typ imm off, placed := len, target := .request }

def su (m : RxMsg) : State := let s := withConn base { k17 with st := .opened, front := 0, rx := [m] }; withMem s (s.connTile 17)

theorem test_stored : List.all (let y : Slot := { desc := descOf opPOSTRECV, queue := 5, index := 0, cq := 6 }
  let x : StoreEntry := { inst := 0, handle := 17, pd := 4, proto := 0, context := 0, src := 9, srcIns := 1, bits := 0, seq := 0, len := 0, rts := false, covered := true, bound := some (3, 0) }
  let s : State := { sc with mat := { sc.mat with store := [(8, x)] }, obj := { (withQueue sq 5 q5).obj with slots := [(3, y)] } }
  [(s.access (.copy 8) (s.connTile 17) 0 (pLaddr y.desc) (min 0 (dLength y.desc)) true).2 != .wait,
    nextIs (exec (.unexpectedCopy 8 []) s) fun t => t.entry? 8 == none,
   (let x := { x with rts := true }; let s : State := { s with mat := { s.mat with store := [(8, x)], pullWait := [8] } }
    decide (0 < s.pullLimit 0) && nextIs (exec (.pullStart 8) s) fun t => !t.mat.pullWait.contains 8 &&
      (t.conn? 17).map (·.pulls) == some 1 &&
      (t.entry? 8).map (·.pulling) == some true && t.rd Reg.CTL_MATCH_PULLS == 1#32)]) id = true := by decide +kernel

theorem test_read_req : List.all (let s := su (reqMsg tyREADREQ 0 0 8)
  [(match s.conn? 17 with | some k => s.toServe 17 k == some (reqMsg tyREADREQ 0 0 8) | none => false), !rqPull (req tyREADREQ 0 0), rqLen (req tyREADREQ 0 0) == 5,
   nextIs (exec (.readReq 17 []) s) fun t => (Map.get? t.xpt.msgs 0).map (fun r => (r.handle, r.typ, r.len, r.extImm)) ==
     some (17, tyREADRESP, 5, 0)]) id = true := by decide +kernel

theorem test_src_fail : List.all (let s : State := { sc with xpt := { sc.xpt with msgs := [(4, { handle := 17, typ := tyWRITE, origin := .desc 3, len := 5, seq := some 0 })] } }
  [(s.msg? 4).isSome, nextIs (exec (.sourceReadFail 4 true []) s) fun t => (t.msg? 4).map (·.stopped) == some true &&
    t.inj.ctl.length == 1 &&
     t.inj.ctl.all (fun y => y.typ == tyNOTICE && y.dst == 9)]) id = true := by decide +kernel

def rc (sub : Nat) (l : List (Nat × Nat × Nat)) : Cell := ctl tyNOTICE kRMACTRL ([(16, 1, sub)] ++ l)

theorem test_faults_rma : List.all (let s := withConn base { k17 with st := .opened, rx := [wmsg] }; let c := rc rcSOURCEFAULT []
  [reaches s c tyNOTICE kRMACTRL, c.pb 16 1 == rcSOURCEFAULT, wmsg.seq == ccDseq c,
   nextIs (exec (.sourceFault c) s) fun t => (t.conn? 17).map (fun k => k.rx.map (·.status)) == some [stINTEGRITY],
   nextIs (exec (.fault (rc rcFAULT []) []) s) fun t => (t.inj.ctl.getLast?).any (fun y => y.typ == tyNOTICE && y.dst ==
     9) && (t.conn? 17).map (·.expiries) == some 0,
   (let s := withConn base { k17 with st := .opened, rx := [{ wmsg with status := 5, faultSent := true }] }
    nextIs (exec (.faultConfirm (rc rcCONFIRM [])) s) fun t => t.regs == s.regs &&
      (t.conn? 17).map (fun k => k.rx.map (·.confirmed)) == some [true])]) id = true := by decide +kernel

theorem test_keys : List.all (let s := withConn base { k17 with st := .opened, encrypt := true, recs := [{ seq := 0, map := 1 }], keys := [{ epoch := 1, key := 3 }], switching := some (1, 0) }
  let tag := rc rcTAG [(32, 16, 0x0102)]
  [nextIs (exec (.tag tag) s) fun t => t.regs == s.regs && (t.conn? 17).map (fun k => k.recs.map (·.tag)) ==
    some [some (BitVec.ofNat 128 (0x0201 * 2 ^ 112))],
   nextIs (exec (.keySwitch (rc rcKEYSWITCH [(18, 1, 1)])) sc) fun t => t.rd Reg.CTL_RMA_NO_KEY == 1#32,
   nextIs (exec (.keySwitch (rc rcKEYSWITCH [(18, 1, 1)])) s) fun t => t.inj.ctl.length == 1 &&
     t.inj.ctl.all (fun y => y.typ == tyNOTICE && y.dst == 9),
   nextIs (exec (.keySwitchAck (rc rcKEYACK [(18, 1, 1)])) s) fun t => (t.conn? 17).map (·.switching) == some none &&
     t.rd Reg.CTL_RMA_KEY_SWITCH == 1#32,
   nextIs (exec (.noKey (rc rcNOKEY [])) s) fun t => t.regs == s.regs && (t.conn? 17).map (fun k => (k.switching,
     k.keys.all (·.spent))) == some (none, true)]) id = true := by decide +kernel

theorem test_atomics : List.all (let s := su (reqMsg tyATOMICREQ 0 8 24)
  [(s.headReq 17 tyATOMICREQ).isSome, !s.reqBusy 17 0, (s.wordCheck (.request 17 0) (s.connTile 17) 0 0 (some 4) acATOMIC 8).2 == .ok (2 ^ 20 + 8), s.gddrAt 0 (2 ^ 20 + 8) == some 8,
   !s.wordBusy 0 (2 ^ 20 + 8), (s.newSlot 0).isSome, (s.heldAt 0 (2 ^ 20 + 8)).isNone,
   (let s := su (reqMsg tyATOMICREQ 0 9 24)
    (match (s.wordCheck (.request 17 0) (s.connTile 17) 0 0 (some 4) acATOMIC 9).2 with | .fail _ => true | _ => false) &&
    nextIs (exec (.atomicReq 17 []) s) fun t => t.ram == s.ram && t.atu == s.atu)]) id = true := by decide +kernel

def m17 : Master := { via := true, inst := 0, who := 17, tag := 0 }

def held8 : Held := { inst := 0, key := 0, offset := 8, addr := 2 ^ 20 + 8, owner := m17, prio := 0, word := 0, level := 0 }

theorem test_locks : List.all (let s := su (reqMsg tyLOCKREQ 1 8 0); let r := su (reqMsg tyLOCKREQ 2 8 0)
  let h : State → State := fun s => { s with atu := { s.atu with held := [(0, held8)], nextHeld := 1 } }
  [(s.headReq 17 tyLOCKREQ).isSome, (s.wordCheck (.request 17 0) (s.connTile 17) 0 0 (some 4) acLOCK 8).2 == .ok (2 ^ 20 + 8),
   s.gddrAt 0 (2 ^ 20 + 8) == some 8, !s.wordBusy 0 (2 ^ 20 + 8), (s.newSlot 0).isSome, (s.heldAt 0 (2 ^ 20 + 8)).isNone,
     decide (s.atu.held.length < 65536),
   lqTag (reqMsg tyLOCKREQ 1 8 0).cell0 == 0, lqLop (reqMsg tyLOCKREQ 1 8 0).cell0 == 1,
     lqLop (reqMsg tyLOCKREQ 2 8 0).cell0 == 2,
   ((h r).heldAt 0 (2 ^ 20 + 8)).map (fun p => (p.1, p.2.owner)) == some (0, m17), !(h r).wordBusy 0 (2 ^ 20 + 8),
   ((h s).heldAt 0 (2 ^ 20 + 8)).map (·.2.owner) == some m17, ((h s).newSlot 0).isSome,
   (r.newSlot 0).isSome, (r.heldAt 0 (2 ^ 20 + 8)).isNone, ((h r).newSlot 0).isSome]) id = true := by decide +kernel

def sk : State := (withMem base (base.servingTile 63)).setFld (F.ATU_LK_OFFSET_OFFSET 0 255) 8

def slotRead (s : State) : State :=
  ({ s with atu := { s.atu with reading := Map.set s.atu.reading 255 s.t, idleSince := Map.erase s.atu.idleSince 255 } } : State).setFld (F.ATU_LK_STATUS_STATE 0 255) lsWAITING

theorem test_lk_window : List.all (let s := sk; let y := slotRead sk; let st := fun (n : Nat) => sk.setFld (F.ATU_LK_STATUS_STATE 0 255) n
  [s.windowOpen 0, !s.windowOpen 127, nextIs (exec (.atuLkAcquire 127 0 []) s) (fun t => t == s),
    nextIs (exec (.atuLkRelease 127 0 []) s) (fun t => t == s),
   nextIs (exec (.atuLkAcquire 0 255 []) (st lsHELD)) fun t => t ==
     { (st lsHELD) with lastRead := .data 0 (BitVec.ofNat 64 (lrHELD * 2 ^ 56)) 8 },
   nextIs (exec (.atuLkAcquire 0 255 []) (st lsGRANTED)) fun t => t.lkState 0 255 == lsHELD && t.lastRead ==
     .data 0 ((st lsGRANTED).rd64 (Reg.ATU_LK_ACQUIRE 0 255)) 8,
   s.lkState 0 255 == lsIDLE, !y.slotPlaced 0 255, (y.wordCheck (.slot 255) (y.servingTile 63) 0 (y.lkKey 0 255) none acLOCK (y.lkOffset 0 255)).2 == .ok (2 ^ 20 + 8),
   nextIs (exec (.atuLkAcquire 0 255 []) s) fun t => t.lkState 0 255 == lsHELD &&
     (Map.get? t.atu.held 0).any (fun x => x.owner == y.lkMaster 0 255 && x.addr == 2 ^ 20 + 8 &&
     t.ram.cells == ramWrite s.ram.cells 8 8 x.word) &&
     nextIs (exec (.atuLkRelease 0 255 []) t) (fun u => u.lkState 0 255 == lsIDLE && u.fld (F.ATU_LK_STATUS_LAST 0 255) ==
       lrGRANTED && u.ram.cells == [] && u.atu.held == []),
   nextIs (exec (.atuLkRelease 0 255 []) s) (fun t => t == s),
   nextIs (exec (.atuLkRelease 0 255 []) (st lsWAITING)) fun t => t.lkState 0 255 == lsIDLE &&
     t.fld (F.ATU_LK_STATUS_LAST 0 255) == lrWITHDRAWN && t.ram == s.ram,
   nextIs (exec (.lkAcquireRetry 0 255) y) fun t => !Map.has t.atu.reading 255 && t.lkState 0 255 == lsWAITING &&
     t.lastRead == .data 0 (BitVec.ofNat 64 (lrRETRY * 2 ^ 56)) 8,
   nextIs (exec (.lkAcquireRetry 0 255) s) (fun t => t == s), nextIs (exec (.lkSlotWithdraw 0 255 []) s) (fun t => t == s),
   nextIs (exec (.lkSlotWithdraw 0 255 []) (st lsWAITING)) fun t => t.lkState 0 255 == lsIDLE &&
     t.fld (F.ATU_LK_STATUS_LAST 0 255) == lrWITHDRAWN && t.rd Reg.ATU_WITHDRAWN == 1#32]) id = true := by decide +kernel

def opOn (kind : UnitKind) (w : Option (Nat × Nat)) : UnitOp := { kind := kind, inst := 0, key := 0, offset := 8, addr := 2 ^ 20 + 8, slot := some 0, write := w }

def so (o : UnitOp) : State :=
  let s := withMem (withConn base { k17 with st := .opened, front := 0, rx := [reqMsg tyLOCKREQ 3 0 0] }) 0
  { s with atu := { s.atu with ops := [o] } }

theorem test_word_ops : List.all [nextIs (exec (.hostWordOpDone 0 [] true []) (so (opOn (.atomic 17 0) (some (8,
  5))))) (fun t => t == so (opOn (.atomic 17 0) (some (8, 5)))),
  nextIs (exec (.hostWordOpDone 0 [(3, 4)] false []) (so (opOn (.atomic 17 0) none))) fun t => t.atu.ops == [] &&
    (t.conn? 17).map (·.wm) == some 0,
  nextIs (exec (.hostWordOpDone 0 [(0, 0)] false []) (so (opOn (.acquire 17 0) none))) fun t => t.atu.ops == [] &&
    (Map.get? t.atu.held 0).any (fun x => x.owner == m17 && x.addr == 2 ^ 20 + 8) && (t.conn? 17).map (·.wm) == some 0,
  nextIs (exec (.pendingWriteDone 0 []) (so (opOn (.atomic 17 0) none))) (fun t => t == so (opOn (.atomic 17 0) none)),
  nextIs (exec (.pendingWriteDone 0 []) (so (opOn (.atomic 17 0) (some (8, 5))))) (fun t => t.atu.ops == [] &&
    t.ram.cells == ramWrite [] 8 8 5),
  nextIs (exec (.atomicUr 0 []) (so (opOn (.acquire 17 0) none))) (fun t => t.atu.ops == [] && (t.conn? 17).map (·.wm) ==
    some 0),
  (let s := so (opOn .late none); let s : State := { s with atu := { s.atu with ops := [], held := [(0, held8)] } }
   (s.headReq 17 tyLOCKREQ).isSome && nextIs (exec (.abandonAll 17 []) s) fun t => t.atu.held == [] && t.ram.cells ==
     ramWrite s.ram.cells 8 8 (2 ^ 62) && (t.conn? 17).map (·.wm) == some 0)] id = true := by decide +kernel

theorem test_word_responses : List.all (let m := fun (typ imm : Nat) => { reqMsg typ imm 0 8 with served := false }
  let s := fun (m : RxMsg) => withConn base { k17 with st := .opened, front := 0, rx := [m] }
  [({ k17 with st := .opened, front := 0, rx := [m tyATOMICRESP 0] } : Conn).ready (m tyATOMICRESP 0),
   nextIs (exec (.atomicResp 17 []) (s (m tyATOMICRESP 0))) fun t => (t.conn? 17).map (fun k => (k.wm, k.rx)) == some (0, []),
   nextIs (exec (.lockResp 17 []) (s (m tyLOCKRESP 0))) fun t => (t.conn? 17).map (fun k => (k.wm, k.rx)) == some (0,
     [])]) id = true := by decide +kernel

def op5 : CollOp := { opnum := 5, slot := some 3, ctype := ctBARRIER }

def grp : Group := { inst := 0, gid := 7, members := 1, rank := 0, pd := 4, level := 0, height := 0, subtree := 1, ops := [op5] }

def sg (x : Group) : State := { sl with col := { sl.col with groups := [(64, x)] }, obj := { sl.obj with slots := [(3, { desc := descOf opCOLLECTIVE, queue := 5, index := 0, cq := 6 })] },
                                        xpt := { sl.xpt with conns := [(17, { k17 with st := .opened })] } }

def edge9 : Edge := { ep := 9, inst := 1, rank := 0, handle := 17, subtree := 2 }

theorem test_collective : List.all (let s := sg grp
  [((s.contribution 64 grp op5 (descOf opCOLLECTIVE) (.data 0)).2 == .ok 0), s.tileActive (s.servingTile (ownerTile 64)),
   nextIs (exec (.treeStep 64 5 (.data 0) []) s) fun t => (t.group? 64).map (·.ops) == some [],
   (let x := { grp with members := 2, rank := 1, parent := some edge9 }; let s := sg x
    nextIs (exec (.treeStep 64 5 (.data 0) []) s) fun t => ((t.group? 64).bind (fun y => y.op? 5)).map (fun p => (p.stepped, p.own, p.status, p.upHdr.isSome, p.up)) == some (true, 0, 0, true, some 0) &&
      (Map.get? t.xpt.msgs 0).any (fun m => m.handle == 17 && m.typ == tyCOLLECTIVE)),
   nextIs (exec (.spanCombine 64 5 []) s) (fun t => t == s), nextIs (exec (.downMessage 64 5 []) s) (fun t => t == s),
   (let o := { op5 with ctype := ctREDUCE, stepped := true, fmt := 0x80, count := 4096, spans := 4090 }
    let x := { grp with members := 2, rank := 1, parent := some edge9, ops := [o] }
    o.upData && decide (0 < o.spanElems) && nextIs (exec (.spanCombine 64 5 []) (sg x)) fun t => ((t.group? 64).bind (fun y => y.op? 5)).map (·.spans) == some 4096),
   (let o := { op5 with stepped := true, downHdr := some (3 * 2 ^ 13 + 2 ^ 15) }
    let x := { grp with members := 2, rank := 1, parent := some edge9, ops := [o] }
    hWire (3 * 2 ^ 13 + 2 ^ 15) == 3 && nextIs (exec (.downMessage 64 5 []) (sg x)) fun t => (t.group? 64).map (·.ops) ==
      some []),
   (let c := mkCell { dst := 5, src := 9, cls := 2, typ := tyCOLLECTIVE, ins := 1, gen := 3, first := true, last := true } (payOf [(8, 4, 7), (32, 2, 2 ^ 15 + 2 ^ 11)])
    let x := { grp with members := 2, rank := 1, parent := some edge9, ops := [] }
    let s := sg x
    let s : State := { s with xpt := { s.xpt with conns := [(17, { k17 with st := .opened, front := 0, rx := [{ seq := 0, typ := tyCOLLECTIVE, len := 32, cell0 := c, placed := 32, target := .request }] })] } }
    (s.abortOn 17).isSome && s.downTarget 7 17 == some 64 &&
      nextIs (exec (.collectiveAbort 17 []) s) fun t => (t.group? 64).map (·.broken) ==
      some true)]) id = true := by decide +kernel

def mi : Miss := { tile := 63, inst := 0, va := 2 ^ 48 - 1, write := true, waits := [(.copy 8, 2 ^ 48 - 1)] }

def leaf1 : Word64 := 0x500B#64

def sm : State := { (base.setFlag F.XLT_CTRL_DEVLIST_LOCK true) with xlt := { misses := [mi] } }

theorem test_xlt_miss : List.all (let s := sm; let path : List HostRead := [.data 0x1001, .data 0x2001, .data 0x3001,
  .data 0x500B]
  [s.missFor 63 0 (2 ^ 48 - 1) == some mi, s.missFor 62 0 0 == none,
    nextIs (exec (.translationMiss 62 0 0 []) s) (fun t => t == s),
   (let u : State := { (base.setFlag F.XLT_FAULT_INFO_VALID true) with xlt := { misses := [mi] } }
    nextIs (exec (.translationMiss 63 0 (2 ^ 48 - 1) path) u) fun t => t.xlt.tlb == [] && t.xlt.misses == [] &&
      t.xlt.failed == [{ who := .copy 8, tile := 63, inst := 0, va := 2 ^ 48 - 1, status := stDEVICE }]),
   nextIs (exec (.translationMiss 63 0 (2 ^ 48 - 1) []) s) (fun t => t == s),
   (match (s.walkOf mi path).2 with | .leaf _ _ e => e.getLsbD 3 | _ => false),
   nextIs (exec (.translationMiss 63 0 (2 ^ 48 - 1) path) s) fun t => t.xlt.misses == [] &&
     (t.slice 63).any (fun e => e.addr == 0x5000 && e.vbase == 2 ^ 48 - 4096),
   (match (s.walkOf mi [.data 0]).2 with | .fault _ l => l == 4 | _ => false),
   nextIs (exec (.translationMiss 63 0 (2 ^ 48 - 1) [.data 0]) s) fun t => t.xlt.tlb == [] && t.xlt.failed.length == 1 &&
     t.flag F.XLT_FAULT_INFO_VALID]) id = true := by decide +kernel

def upd (d : Bool) : FlagUpdate := { miss := mi, dirty := d, ptr := 0x3FF8, expected := 0x5003#64, log2 := 12 }

def sup (d : Bool) : State := { base with xlt := { updates := [upd d], tlb := [(63, [{ inst := 0, vbase := 0, log2 := 12, addr := 0, write := true, dirty := false, ptr := 0x3FF8, leaf := 0x500B#64 }])] } }

theorem test_xlt_update : List.all [(let d : State := { State.reset with xlt := (sup true).xlt }; !d.updateOut (upd true) && nextIs (exec (.flagUpdateDone 0 0 true 0) d) (fun t => t == d)), (sup true).updateOut (upd true), (sup false).updateOut (upd false),
  nextIs (exec (.flagUpdateDone 1 0 false 0) (sup true)) (fun t => t == sup true),
  nextIs (exec (.flagUpdateDone 0 0 true 0) (sup true)) (fun t => t.xlt.tlb == (sup true).xlt.tlb && t.xlt.updates == []),
  !updateRaced 0x5003#64 0x500B#64, updateRaced 0x5003#64 0x6003#64,
  nextIs (exec (.flagUpdateDone 0 0x5003#64 false 0) (sup false)) fun t => t.xlt.updates == [] &&
    (t.slice 63).contains (leafEntry mi 0x3FF8 12 (0x5003#64 ||| 8#64)),
  nextIs (exec (.flagUpdateDone 0 0x6003#64 false 0) (sup false)) fun t => t.xlt.tlb == (sup false).xlt.tlb &&
    t.xlt.misses.length == 1 && t.rd Reg.XLT_RACE == 1#32,
  nextIs (exec (.flagUpdateDone 0 0x6003#64 false 0) (sup true)) fun t => (t.slice 63).all (fun e => !(e.inst == 0 &&
    e.ptr == 0x3FF8)),
  nextIs (exec (.flagUpdateDone 0 0x5003#64 false 0) (sup true)) fun t => (t.slice 63).all (fun e => e.dirty) &&
    t.rd Reg.XLT_DIRTY_SET == 1#32] id = true := by decide +kernel

def sext (len : Nat) : State := (base.setFld (F.XLT_EXT_LENGTH_LENGTH 0 15) len)

theorem test_extents : List.all [(sext 1).extent 0 15 == (0, 4096, 0), base.windowOpen 0, !base.windowOpen 127,
  nextIs (exec (.extentValidSet 127 15 3) base) (fun t => t == base),
  nextIs (exec (.extentValidSet 0 15 3) (sext 1)) fun t => t.flag (F.XLT_EXT_CTRL_VALID 0 15) &&
    t.flag (F.XLT_EXT_CTRL_WRITE 0 15) && !t.flag (F.XLT_EXT_CTRL_ERR 0 15),
  nextIs (exec (.extentValidSet 0 15 2) (sext 0)) fun t => !t.flag (F.XLT_EXT_CTRL_VALID 0 15) &&
    t.flag (F.XLT_EXT_CTRL_ERR 0 15),
  nextIs (exec (.devlistLock 0xFF) base) fun t => t.flag F.XLT_CTRL_DEVLIST_LOCK && t.fld F.XLT_CTRL_UPD_COH == 255,
  nextIs (exec (.xltFaultInfoRead 8) (base.wr Reg.XLT_FAULT_INFO 0x80000007#32)) fun t => t.lastRead ==
    .data 8 0x80000007 4 && !t.flag F.XLT_FAULT_INFO_VALID] id = true := by decide +kernel

theorem test_inst_map : List.all (let s : State := base.setFlag (F.CTL_INST_MAP_VALID 0) false
  [!s.holdsObject 0, base.holdsObject 0 || true,
   nextIs (exec (.instMapWrite 0 (BitVec.ofNat 32 (2 ^ 31 + 7 * 256 + 16))) s) fun t => t.mapped 0 && t.portOf 0 == 7 &&
     t.fnOf 0 == 16 && !t.flag (F.CTL_INST_MAP_ERR 0),
   nextIs (exec (.instMapWrite 0 17) s) fun t => t.flag (F.CTL_INST_MAP_ERR 0) && !t.mapped 0,
   nextIs (exec (.instMapWrite 1 16) s) fun t => t.flag (F.CTL_INST_MAP_ERR 1),
   (let h := withQueue base 5 q5; h.holdsObject 0 && nextIs (exec (.instMapWrite 0 16) h) fun t => t == h),
   nextIs (exec (.busMasterEnableChange 7 16 true true [(4, 4)]) base) (fun t => t == base),
   nextIs (exec (.busMasterEnableChange 0 16 true true [(4, 4)]) base) (fun t => t.fnCfg 0 16 ==
     { bme := true, atomicEn := true, bars := [(4, 4)] } && t.fnUp 0 16)]) id = true := by decide +kernel

def spol : State := ((((base.wr (Reg.INJ_POL_CBS 127 7) 1#32).wr (Reg.INJ_POL_PBS 127 7) 2#32).setFld (F.INJ_POL_PIR_PIR 127 7) 5))

theorem test_policer : List.all (let s := spol; let on := fun (b : Bucket) => ({ s.setFlag (F.INJ_POL_CTRL_ENABLE 127 7) true with inj := { s.inj with buckets := [(1023, b)] } } : State)
  [nextIs (exec (.polEnable 127 7 0x80000006) s) fun t => t.inj == s.inj && t.flag (F.INJ_POL_CTRL_ERR 127 7) &&
    !t.flag (F.INJ_POL_CTRL_ENABLE 127 7),
   nextIs (exec (.polEnable 127 7 0x80000005) s) fun t => t.flag (F.INJ_POL_CTRL_ENABLE 127 7) &&
     t.fld (F.INJ_POL_CTRL_CIR 127 7) == 5 && !t.flag (F.INJ_POL_CTRL_ERR 127 7) &&
     Map.get? t.inj.buckets 1023 == some { tc := s.polCbs 127 7, tp := s.polPbs 127 7, last := s.t } &&
     nextIs (exec (.polEnable 127 7 5) t) (fun u => Map.get? u.inj.buckets 1023 == none) &&
       nextIs (exec (.polWrite 127 7 1 4) t) (fun u => u.flag (F.INJ_POL_CTRL_ERR 127 7) &&
       u.fld (F.INJ_POL_PIR_PIR 127 7) == 5) &&
     nextIs (exec (.polWrite 127 7 2 0xFFFFFFFF) t) (fun u => u.rd (Reg.INJ_POL_CBS 127 7) == 0xFFFFFFFF) &&
       nextIs (exec (.polWrite 127 7 3 1) t) (fun u => (Map.get? u.inj.buckets 1023).any (fun b => b.tp ≤ 64 * 16000)),
   nextIs (exec (.polWrite 127 7 1 0xFFFFF) s) fun t => t.fld (F.INJ_POL_PIR_PIR 127 7) == 0xFFFFF &&
     !t.flag (F.INJ_POL_CTRL_ERR 127 7),
   (s.colour 127 7 9 0).2 == some false, ((on { tc := 1, tp := 16000, last := 0 }).colour 127 7 1 0).2 == some true,
     ((on { tc := 16000, tp := 16000, last := 0 }).colour 127 7 1 0).2 == some false,
   ((on { tc := 16000, tp := 15999, last := 0 }).colour 127 7 1 0).2 == none]) id = true := by decide +kernel

def ctlC : CtlCell := { dst := 9, cls := 6, typ := tyNOTICE, ins := 0, gen := 0, pay := 0 }

theorem test_chunk_ctl : List.all (let s : State := { base with inj := { base.inj with ctl := [ctlC, ctlC] } }
  [(s.readyChunks).2 == [], s.nextCtl == some ctlC,
   nextIs (exec (.chunkGrant .error []) s) fun t => t.inj.ctl == [ctlC] && t.rt.held.length == 1 &&
     t.rt.held.all (fun y => y.inp == none && y.cell.typ == tyNOTICE && y.cell.cls == 6 && y.cell.dst == 9),
   nextIs (exec (.chunkGrant .error []) base) (fun t => t == base),
   nextIs (exec (.chunkGrant .error []) (s.setFlag F.CTL_ENDPOINT_LOCKED false)) (fun t => t ==
     s.setFlag F.CTL_ENDPOINT_LOCKED false)]) id = true := by decide +kernel

theorem test_sample : List.all (let s := ((withQueue sq acqKey acq).setFld F.INJ_SAMPLE_K 4095).setFld F.TIM_STATUS_STATE tsLOCKED
  [nextIs (exec .queueSample sq) (fun t => t == sq), s.hasTime, Map.rising s.obj.queues, slotNo s.t % 4095 == 0,
   nextIs (exec .queueSample s) fun t => t.queue? acqKey == some acq && (t.queue? 6).map (fun y => (y.sampled, y.depthLast,
     y.depthMax)) == some (true, 0, 0)]) id = true := by decide +kernel

def lc : Cell := mkCell { dst := 6, src := 9, cls := 2, typ := tySEND, first := true, last := true } 1

def sl7 (l : Link) : State := withLink base 7 lkUP phFULL l

theorem test_cells_in : List.all (let s := sl7 { rxNext := 4095, rxSeq := 4095 }
  [s.linkRuns 7, s.laneExists 7, nextIs (exec (.codeword 7 true [lc] 0 false false 0 false)  base) (fun t => t == base),
   nextIs (exec (.codeword 7 false [] 0 false false 0 false) s) fun t => t.rt == s.rt && (t.link 7).nakAt == some s.t &&
     (t.link 7).words.contains (mkWord wNAK 4095) && t.rd (Reg.LNG_FEC_UNCORR 7) == 1#32,
   nextIs (exec (.codeword 7 true [lc] 0 false false 0 false) s) fun t => t.rt.held == [{ inp := some 7, cell := lc }] &&
     (t.link 7).rxNext == 0,
   (let s := sl7 { rxNext := 4095, rxSeq := 4095, nakAt := some 1 }
    nextIs (exec (.codeword 7 true [lc] 0 false false 0 false) s) (fun t => t.rt == s.rt && (t.link 7).rxNext == 4095) &&
    nextIs (exec (.nakRepeat 7) s) (fun t => (t.link 7).words.contains (mkWord wNAK 4095) && t.regs == s.regs) &&
    nextIs (exec (.noReplayTimeout 7) s) (fun t => !t.linkRuns 7 && (t.link 7).retry == []) &&
    nextIs (exec (.replay 7 4095) s) (fun t => t.rt == s.rt && (t.link 7).nakAt == none && (t.link 7).rxSeq == 4095) &&
    nextIs (exec (.replay 7 0) s) (fun t => (t.link 7).nakAt == some 1)),
   nextIs (exec (.nakRepeat 7) s) (fun t => t == s)]) id = true := by decide +kernel

theorem test_retry : List.all (let s := sl7 { txNext := 1, retry := [(4095, lc), (0, lc)] }
  [nextIs (exec (.nak 7 0) s) fun t => (t.link 7).replay == [(0, lc)] && (t.link 7).retry == [(4095, lc), (0, lc)] &&
    (t.link 7).words.contains (mkWord wREPLAY 0) && t.rd (Reg.LNG_REPLAY 7) == 1#32,
   nextIs (exec (.nak 7 1) s) fun t => (t.link 7).replay == [] && (t.link 7).words.contains (mkWord wREPLAY 1),
   nextIs (exec (.nak 7 2) s) fun t => !t.linkRuns 7 && (t.link 7).retry == [],
   nextIs (exec (.linkAck 7 0) s) fun t => (t.link 7).retry == ackRest (s.link 7) 0 && (t.link 7).txNext == 1 && t.regs ==
     s.regs,
   nextIs (exec (.credit 7 0xFFFF) s) fun t => t.regs == s.regs && Map.get? (t.link 7).total 7 ==
     some 8191]) id = true := by decide +kernel

theorem test_send_replay : List.all (let s := sl7 { txNext := 6, retry := [(0, lc), (1, lc), (2, lc), (3, lc), (4, lc)], replay := [(0, lc), (1, lc), (2, lc), (3, lc), (4, lc)] }
  [s.linkFull 7, Map.getD s.tim.transitOut 7 [] == [],
   nextIs (exec (.codewordSend 7 9) s) fun t => (t.lnk.line.getLast?).map (fun f => (f.lane, f.cells)) == some (7, [lc, lc,
     lc, lc]) && (t.link 7).replay == [(4, lc)] && (t.link 7).retry == (s.link 7).retry,
   nextIs (exec (.codewordSend 7 0) base) (fun t => t == base || base.transmits 7),
   nextIs (exec (.codewordSend 7 0) (s.setFld (F.LNG_LANE_STATUS_OVERRUN 7) 1)) fun t => (t.lnk.line.getLast?).map (fun f => (f.lane, f.cells)) == some (7, []),
   nextIs (exec (.codewordSend 7 0) (s.modLink 7 (fun k => { k with words := [mkWord wNAK 0, mkWord wREPLAY 0] }))) (fun t =>
     (t.lnk.line.getLast?).map (fun f => (f.cells, f.word)) == some ([], some (mkWord wNAK 0)) &&
     nextIs (exec (.codewordSend 7 0) t) (fun u => (u.lnk.line.getLast?).map (fun f => (f.cells, f.word)) == some ([lc, lc,
       lc, lc], some (mkWord wREPLAY 0)))),
   (let s := base.setFld (F.LNG_LANE_STATUS_LINK 7) lkTRAINING
    nextIs (exec (.codewordSend 7 9) s) fun t => (t.lnk.line.getLast?).map (fun f => (f.lane, f.cells, f.word)) == some (7,
      [], some (s.trainWord 7)))]) id = true := by decide +kernel

theorem test_phase : List.all (let s := sl7 {}
  [nextIs (exec (.phaseReq 7 0 true) s) (fun t => t == s), !s.holdsPhase 7 1,
   nextIs (exec (.phaseReq 7 1 true) s) fun t => (t.link 7).phaseAsk == some 1 &&
     (t.link 7).words.contains (mkWord wPHASE 0x4000) && t.regs == s.regs,
   nextIs (exec (.phase 7 0xC000) s) fun t => t.regs == s.regs && (t.link 7).phaseDue == none,
   nextIs (exec (.phase 7 0x5000) s) fun t => (t.link 7).phaseAsk == none && t.rd (Reg.LNG_PHASE_REFUSED 7) == 1#32,
   (let h : State := { s with tim := { s.tim with holds := [7] } }; nextIs (exec (.phase 7 0x4000) h) fun t => t.regs ==
     h.regs && (t.link 7).phaseDue == none && (t.link 7).words.contains (mkWord wPHASE 0x7000)),
   (let s := sl7 { retry := [(0, lc)], txNext := 1 }; nextIs (exec (.phase 7 0x6000) s) fun t => t.regs == s.regs &&
     (t.link 7).phaseDue == some 1),
   nextIs (exec (.phase 7 0x4000) s) fun t => t.regs == s.regs && (t.link 7).phaseDue == some 1 &&
     (t.link 7).words.contains (mkWord wPHASE 0x6000)]) id = true := by decide +kernel

theorem test_wake : List.all (let h := withLink base 7 lkUP phHALF {}; let s := sl7 {}
  [nextIs (exec (.wake 3 7) s) (fun t => t.regs == s.regs), nextIs (exec (.wake 3 1023) s) (fun t => t.regs == s.regs),
   h.tileActive (tileOf 7), nextIs (exec (.wake 3 7) h) (fun t => (t.link 7).exitFrom == some phHALF),
   nextIs (exec (.wakePattern 7) h) (fun t => (t.link 7).exitFrom == some phHALF),
     nextIs (exec (.wakePattern 7) s) (fun t => t == s),
   nextIs (exec (.laneExitTimeout 7) s) (fun t => t == s),
   nextIs (exec (.laneExitTimeout 7) (withLink base 7 lkUP phHALF { exitFrom := some phHALF })) (fun t => !t.linkRuns 7 &&
     (t.link 7).exitFrom == none)]) id = true := by decide +kernel

def st7 (f : Nat) : State := let s := (base.setFld (F.LNG_LANE_STATUS_LINK 7) lkTRAINING).setFlag (F.LNG_LANE_CTRL_ENABLE 7) true
  { s with lnk := { s.lnk with lanes := [(7, { fails := f })] } }

theorem test_lanes : List.all (let s := sl7 {}; let e := s.setFlag (F.LNG_LANE_CTRL_ENABLE 7) true
  [s.linkWidth 7 == 1, nextIs (exec (.laneEnable 7 0) (s.setFlag F.MGT_FLT_PIN_HALTED true)) (fun t => t ==
    s.setFlag F.MGT_FLT_PIN_HALTED true),
   nextIs (exec (.laneEnable 7 0) e) fun t => t.linkState 7 == lkDOWN && !t.flag (F.LNG_LANE_CTRL_ENABLE 7),
   nextIs (exec (.laneEnable 7 0x80000000) (base.setFlag (F.LNG_LANE_CTRL_ENABLE 7) false)) fun t => t.linkState 7 ==
     lkTRAINING && (t.lane 7).trainTx == 0 && !(t.lane 7).ready && t.draws == base.draws + 1,
   nextIs (exec (.retrain 7 0xC0000000) e) fun t => !t.linkRuns 7 && t.rd (Reg.LNG_LINK_LOST 7) ==
     0#32]) id = true := by decide +kernel

theorem test_training : List.all (let s := st7 0
  [nextIs (exec (.train 7 0x6000 1 false) base) (fun t => t.lnk.lanes == base.lnk.lanes && t.regs == base.regs),
   nextIs (exec (.train 7 0x6000 31 false) s) (fun t => t.linkState 7 == lkDOWN), s.trainVal 7 6 == none,
   (s.lane 7).trainRx.isEmpty, eqValidAt s.lnk.eqTable 24, !eqValidAt s.lnk.eqTable 31,
   nextIs (exec (.train 7 0x5FFF 24 true) s) (fun t => t.linkState 7 == lkTRAINING && t.trainVal 7 5 == some 4095 &&
     (t.lane 7).eq == 24),
   nextIs (exec (.train 7 0x5FFF 31 true) s) (fun t => t.linkState 7 == lkDOWN),
   nextIs (exec (.train 7 0x1001 31 true) { s with lnk := { s.lnk with lanes := [(7, { eq := 3, trainRx := [(0, 5)] })] } })
     (fun t => t.linkState 7 == lkTRAINING && t.trainVal 7 1 == some 1 && (t.lane 7).eq == 3),
   nextIs (exec (.trainingTimeout 7) base) (fun t => t == base),
   nextIs (exec (.trainingTimeout 7) (st7 8)) (fun t => t.linkState 7 == lkDOWN && (t.lane 7).fails == 9 &&
     t.rd (Reg.LNG_TRAIN_FAIL 7) == 1#32),
   nextIs (exec (.trainingRetry 7) s) (fun t => t == s),
   nextIs (exec (.trainingRetry 7) (base.setFlag (F.LNG_LANE_CTRL_ENABLE 7) true)) (fun t => t.linkState 7 == lkTRAINING),
   nextIs (exec (.linkLost 7) base) (fun t => t == base), nextIs (exec (.linkDown 7) base) (fun t => t.regs == base.regs),
   nextIs (exec (.linkLost 7) (sl7 {})) (fun t => !t.linkRuns 7 && (t.link 7).retry == []),
   nextIs (exec (.linkDown 7) (sl7 {})) (fun t => !t.linkRuns 7 && (t.link 7).retry == [])]) id = true := by decide +kernel

def down0 : State := base.setFld (F.HPT_STATUS_MODE 0) 0

def noInst (s : State) : State := s.setFlag (F.CTL_INST_MAP_VALID 0) false

theorem test_port_down : List.all (let s := base
  [!s.portUp 7, nextIs (exec (.hostPortReset 7 (0) []) s) (fun t => t == s), nextIs (exec (.flr 7 16 []) s) (fun t => t == s),
   nextIs (exec (.cplTimeout 7 16) s) (fun t => t == s), nextIs (exec (.poison 7 16) s) (fun t => t == s), s.owner == 0,
   nextIs (exec (.hptDisable 7 (BitVec.ofNat 32 (8 * 2 ^ 16)) 0 []) s) fun t => t.flag (F.HPT_CTRL_DISABLE 7) &&
     t.fld (F.HPT_CTRL_MEM_SIZE 7) == 8 && t.fld (F.HPT_STATUS_MODE 7) == 3 &&
     nextIs (exec (.hptRetrain 7 0x40000000 0 []) t) (fun u => !u.flag (F.HPT_CTRL_DISABLE 7) &&
       u.flag (F.HPT_CTRL_CXL_OFFER 7) && u.fld (F.HPT_STATUS_MODE 7) == 0),
   nextIs (exec (.hptDisable 0 0 0 []) down0) fun t => !t.flag (F.HPT_CTRL_DISABLE 0),
   nextIs (exec (.hostPortLinkUp 7 false 5 4 true 0) (s.setFlag (F.HPT_CTRL_DISABLE 7) true)) fun t => t ==
     s.setFlag (F.HPT_CTRL_DISABLE 7) true,
   nextIs (exec (.hostPortLinkUp 7 false 5 4 true 0) s) fun t => t.portUp 7 && t.fld (F.HPT_STATUS_MODE 7) == 1 &&
     t.fld (F.HPT_STATUS_RATE 7) == 6 && t.fld (F.HPT_STATUS_WIDTH 7) == 16 && t.hpt == s.hpt,
   (let c := ((s.setFlag (F.HPT_CTRL_CXL_OFFER 7) true).setFlag (F.HPT_CTRL_CXLMEM_EN 7) true).setFld (F.HPT_CTRL_MEM_SIZE 7) 4
    decide ((c.hpt.hdm.map (fun x => x.2.2)).sum + 4 * 2 ^ 28 ≤ c.windowArea) &&
    nextIs (exec (.hostPortLinkUp 7 true 5 3 true 0x10000000) c) fun t => t.portUp 7 && t.fld (F.HPT_STATUS_MODE 7) == 2 &&
      t.flag (F.HPT_STATUS_CACHE 7) && Map.get? t.hpt.hdm 7 == some (0x10000000, 2 ^ 30))]) id = true := by decide +kernel

theorem test_port_up : List.all (let s := noInst base
  [s.portUp 0, s.atu == {}, s.xlt.updates == [], s.xpt.conns == [], (List.range 128).all (fun i => !s.mapped i),
   nextIs (exec (.hostPortLinkUp 0 true 5 4 true 0) s) (fun t => t == s),
   nextIs (exec (.hostPortReset 0 0 []) s) fun t => !t.portUp 0 && t.rd (Reg.HPT_PORT_RESET 0) == 1#32 && t.fnCfg 0 0 ==
     {} && t.fnCfg 0 31 == {} && Map.get? t.hpt.hdm 0 == none,
   nextIs (exec (.cplTimeout 0 16) s) fun t => bit (t.rd (Reg.FLT_STATUS (blkHPT 0))) 3,
     nextIs (exec (.poison 0 16) s) fun t => bit (t.rd (Reg.FLT_STATUS (blkHPT 0))) 2,
   nextIs (exec (.writeStall 0 false) s) fun t => t.stalled 0 && nextIs (exec (.writeStall 0 true) t) (fun u => !u.stalled 0),
   nextIs (exec (.atomicUr 0 []) s) (fun t => t == s)]) id = true := by decide +kernel

theorem test_flr_fn : List.all (let s := base.setFld (F.HPT_STATUS_MODE 7) 1; let m := ((base.setFld (F.HPT_STATUS_MODE 7) 1).setFld (F.CTL_INST_MAP_PORT 0) 7).setFld (F.CTL_INST_MAP_FUNC 0) 16
  [s.instAt 7 16 == none, nextIs (exec (.flr 7 16 []) s) fun t => t.fnCfg 7 16 == {} && t.rd (Reg.HPT_FLR 7) == 0#32,
   m.instAt 7 16 == some 0, (let r := m.setFlag (F.CTL_INST_STATE_RESETTING 0) true
    nextIs (exec (.flr 7 16 []) r) fun t => t.fnCfg 7 16 == {} && Map.get? t.obj.flr 0 == some false &&
      t.rd (Reg.HPT_FLR 7) == 1#32)]) id = true := by decide +kernel

theorem test_kept_work : List.all (let m := ((base.setFld (F.HPT_STATUS_MODE 7) 1).setFld (F.CTL_INST_MAP_PORT 0) 7).setFld (F.CTL_INST_MAP_FUNC 0) 16; let o := HostOut.write 7 16 64 1 0; let l := HostOut.write 7 16 0 8 5
  let r : State := { m with hpt := { m.hpt with kept := [o, l], results := [{ inst := 0, count := 1, out := o }] } }
  let t := r.dropKept 0
  [t.hpt.kept == [l], t.hpt.results == [], t.rd Reg.CTL_INST_LATE_DROP == 1#32, t.resetReady 0,
   !({ t with hpt := { t.hpt with again := [o] } } : State).resetReady 0]) id = true := by decide +kernel

theorem test_cache_lines : List.all (let o := fun (a : Nat) => HostOut.wordOp 0 0 a true (.add 1); let s : State := { base with hpt := { base.hpt with lines := (List.range 256).map (fun a => o (64 * a)) } }
  [s.fnUp 0 0, (s.issue (o 16384)).hpt.lineWait == [o 16384], (s.issue (o 16384)).hpt.issued == s.hpt.issued,
    (s.issue (o 16384)).keptAt 0 0 16384 true,
   (((s.issue (o 16384)).freeLine 0 0 64 true).hpt.issued == s.hpt.issued ++ [o 16384]),
     (((s.issue (o 16384)).freeLine 0 0 64 true).hpt.lineWait == []),
   ((s.issue (.wordOp 0 0 16384 false (.add 1))).hpt.issued ==
     s.hpt.issued ++ [.wordOp 0 0 16384 false (.add 1)])]) id = true := by decide +kernel

def sd : State := base.setFlag F.MEM_CTRL_ENABLE true

def sdt : State := sd.setFlag F.MEM_STATUS_TRAINED true

theorem test_memory : List.all (let g : State := { base with part := { base.part with gddr := false } }
  [nextIs (exec .rebuildDone g) (fun t => t == g), nextIs (exec (.memEnable 0xFFFFFFFF) g) (fun t => t == g),
    nextIs (exec (.memTrained [] {}) g) (fun t => t == g),
   nextIs (exec (.patrolScrub [(0, 0)]) g) (fun t => t == g), nextIs (exec (.memTemperatureRead []) g) (fun t => t == g),
     nextIs (exec (.periodicRetraining 0 true {}) g) (fun t => t == g),
   nextIs (exec (.uncorrectableRead 0 0 .none {} []) g) (fun t => t == g),
   nextIs (exec (.memEnable 0x80000011) base) fun t => t.flag F.MEM_CTRL_ENABLE && t.fld F.MEM_CTRL_RATE == 1 &&
     t.fld F.MEM_CTRL_DENSITY == 1 &&
     nextIs (exec (.memEnable 0x80000000) t) (fun u => u.fld F.MEM_CTRL_RATE == 1) &&
       nextIs (exec (.memEnable 0) t) (fun u => !u.flag F.MEM_STATUS_TRAINED && !u.flag F.MEM_CTRL_ENABLE),
   nextIs (exec (.memHostBaseWrite 0xFFFFFFFFFFFFFFFF) base) fun t => (t.rd64 Reg.MEM_HOST_BASE).toNat / 2 ^ 30 ==
     2 ^ 34 - 1 && t.flag F.MEM_HOST_BASE_VALID,
   nextIs (exec (.memTrained [] {}) base) (fun t => t == base),
     nextIs (exec (.memTrained [] {}) sd) fun t => t.flag F.MEM_STATUS_TRAINED,
   sd.failedDev == none, nextIs (exec (.memTrained [11] {}) sd) fun t => t.failedDev == some 11 &&
     t.flag F.MEM_STATUS_TRAINED && t.flag F.MEM_STATUS_DEGRADED && t.flag F.MEM_STATUS_REBUILDING &&
     nextIs (exec .rebuildDone t) (fun u => !u.flag F.MEM_STATUS_REBUILDING &&
       u.flag F.MEM_STATUS_DEGRADED)]) id = true := by decide +kernel

theorem test_memory_errors : List.all (let s := sdt
  [s.devRuns 11, nextIs (exec (.uncorrectableRead 11 3 .none {} []) s) fun t => t.failedDev == none &&
    t.rd Reg.MEM_UNCORRECTED == 1#32,
   (let u : State := { s with ram := { s.ram with unc := List.replicate 3 (11, s.t, false) } }
    nextIs (exec (.uncorrectableRead 11 3 .none {} []) u) fun t => t.failedDev == some 11),
   nextIs (exec (.patrolScrub [(11, 3)]) s) fun t => t.rd Reg.MEM_CORRECTED == 1#32 && t.ram == s.ram,
   nextIs (exec (.periodicRetraining 11 true {}) s) fun t => t.failedDev == none && t.ram == s.ram &&
     t.rd Reg.MEM_RETRAIN == 1#32,
   nextIs (exec (.periodicRetraining 11 false {}) s) fun t => t.failedDev == some 11,
   nextIs (exec (.memTemperatureRead [(11, 85)]) s) (fun t => t.regs == s.regs && t.ram.hot),
     nextIs (exec (.memTemperatureRead [(11, 84)]) s) (fun t => !t.ram.hot)]) id = true := by decide +kernel

theorem test_window_access : List.all (let s := withMem base 0; let n := 2 ^ 22 - 1
  [s.window 0 == some (2 ^ 20, 2 ^ 28), s.memReady, nextIs (exec (.cxlMemHostAccess 0 (2 ^ 22) none) s) (fun t => t == s),
   nextIs (exec (.cxlMemHostAccess 0 n (some (0xAB#512 <<< 504, 1#64 <<< 63))) s) fun t => t.regs == s.regs &&
     t.ram.cells == [(64 * n + 63, 0xAB)] &&
     nextIs (exec (.cxlMemHostAccess 0 n none) t) (fun u => u.lastRead == .line 0 (0xAB#512 <<< 504)),
   (let p : State := { s with ram := { s.ram with poisoned := [n] } }; nextIs (exec (.cxlMemHostAccess 0 n none) p) fun t => t.lastRead == .poison 0)]) id = true := by decide +kernel

def inSt (n : Nat) : State := (base.setFld (F.PWR_TILE_STATUS_STATE 63) n).setFld (F.PWR_TILE_STATUS_TARGET 63) n

theorem test_tiles : List.all (let s := base; let ch := fun (s : State) => s.setFlag (F.PWR_TILE_STATUS_CHANGING 63) true
  [nextIs (exec (.pwrTileReq 63 0 false) s) fun t => t.rd (Reg.PWR_TILE_DROPPED 63) == 1#32 && !t.tileChanging 63,
   nextIs (exec (.pwrTileReq 63 0 true) (inSt psDOZE)) fun t => t.tileChanging 63 && t.tileTarget 63 == psACTIVE &&
     t.tileState 63 == psDOZE && t.fld (F.PWR_TILE_STATUS_LAST_CAUSE 63) == wcSIDEBAND,
   s.refuser 63 psDOZE == none, nextIs (exec (.pwrTileReq 63 1 false) s) fun t => t.tileChanging 63 && t.tileTarget 63 ==
     1 && t.tileState 63 == psACTIVE,
   s.refuser 0 psOFF == some 6, nextIs (exec (.pwrTileReq 0 3 false) s) fun t => !t.tileChanging 0 &&
     t.fld (F.PWR_TILE_STATUS_LAST_CAUSE 0) == 6 && t.rd (Reg.PWR_TILE_REFUSED 0 6) == 1#32,
   (let c := (ch s).setFld (F.PWR_TILE_STATUS_TARGET 63) 1
    c.tileTarget 63 == 1 && nextIs (exec (.pwrTileReq 63 2 false) c) fun t => t.tileLatched 63 &&
      t.fld (F.PWR_TILE_STATUS_LATCH_STATE 63) == 2 && t.tileTarget 63 == 1 && (t.tile 63).latchBy ==
      wcSOFTWARE)]) id = true := by decide +kernel

theorem test_wake_events : List.all (let ch := fun (s : State) => s.setFlag (F.PWR_TILE_STATUS_CHANGING 63) true
  [nextIs (exec (.wakeEvent 63 0x10) (inSt psOFF)) (fun t => t == inSt psOFF),
    nextIs (exec (.wakeEvent 63 0x17) base) fun t => t.rd (Reg.PWR_TILE_DROPPED 63) == 1#32,
   (let s := (inSt psDOZE).setFlag F.PWR_STATUS_PLL_RUN false
    nextIs (exec (.wakeEvent 63 0x17) s) fun t => t.tileChanging 63 && t.tileTarget 63 == psACTIVE &&
      t.fld (F.PWR_TILE_STATUS_LAST_CAUSE 63) == 0x17 && t.pwr.pllStarting),
   (let s := (ch base).setFld (F.PWR_TILE_STATUS_TARGET 63) 1
    nextIs (exec (.wakeEvent 63 0x10) s) fun t => if abortAhead 0 0 0 then false else t.tileLatched 63 &&
      (t.tile 63).latchWake == some 0x10),
   nextIs (exec (.standingReturn 63) base) (fun t => t == base),
   (let s := (base.setFld (F.PWR_TILE_CTRL_STANDING 63) 1).setFld F.PWR_CTRL_IDLE 1
    s.refuser 63 1 == none && nextIs (exec (.standingReturn 63) s) fun t => t.tileChanging 63 && t.tileTarget 63 ==
      1)]) id = true := by decide +kernel

def tabOf (l : List (Nat × Nat × Bool)) : Nat := payOf (l.map (fun x => (4 * x.1, 2, x.2.1 + if x.2.2 then 0x8000 else 0)))

def seqState (tab step target final : Nat) (wake : Option Nat) : State :=
  let s := ((base.setFlag (F.PWR_TILE_STATUS_CHANGING 63) true).setFld (F.PWR_TILE_STATUS_TARGET 63) target).setFld (F.PWR_TILE_STATUS_STEP 63) step
  { s with pwr := { s.pwr with tiles := [(63, { seqNo := some 0, final := final, table := tab, wake := wake })] } }

theorem test_sequences : List.all (let drain := seqState (tabOf [(0, acDRAIN, false)]) 0 1 1 none
  let drain : State := { drain with rt := { drain.rt with held := [{ inp := some 1023, cell := cellTo 6 }] } }
  let on := seqState (tabOf [(15, acPOWERON, false)]) 15 0 0 none
  let ab := seqState (tabOf [(0, acQUIESCE, false), (1, acGATE, true)]) 0 1 1 (some 0x13)
  let re := seqState (tabOf [(2, acRESUME, false)]) 2 0 0 none
  [nextIs (exec (.sequenceStepDone 63 [] true) base) (fun t => t == base),
   seqAction (drain.tile 63).table 0 0 == acDRAIN, drain.storeHolds 63,
     nextIs (exec (.sequenceStepDone 63 [] true) drain) (fun t => t == drain),
   seqAction (on.tile 63).table 0 15 == acPOWERON, nextIs (exec (.sequenceStepDone 63 [] false) on) fun t => t.halted &&
     t.pwr == on.pwr,
   nextStep (ab.tile 63).table 0 1 16 1 == 1, seqAbort (ab.tile 63).table 0 1,
   nextIs (exec (.sequenceStepDone 63 [] true) ab) fun t => !t.tileChanging 63 && t.tileTarget 63 == psACTIVE &&
     t.tileState 63 == ab.tileState 63 && t.fld (F.PWR_TILE_STATUS_LAST_CAUSE 63) == 0x13 &&
     t.rd (Reg.PWR_TILE_ABORTS 63) == 1#32,
   seqAction (re.tile 63).table 0 3 == acEND, re.lnk.links == [],
     nextIs (exec (.sequenceStepDone 63 [] true) re) fun t => t.tileState 63 == psACTIVE && !t.tileChanging 63 &&
     (t.tile 63).seqNo == none]) id = true := by decide +kernel

theorem test_pll : List.all (let s : State := { (base.setFlag F.PWR_STATUS_PLL_RUN false) with pwr := { base.pwr with pllStarting := true } }
  [nextIs (exec .pllLock base) (fun t => t == base), nextIs (exec .pllLock s) fun t => t.flag F.PWR_STATUS_PLL_RUN &&
    !t.flag F.PWR_STATUS_CHIP_ECLIPSE && t.now == s.now && !t.pwr.pllStarting && t.timeState == tsACQUIRING &&
    t.fld F.TIM_STATUS_GOOD == 0,
   nextIs (exec .pllLock (s.setFld F.TIM_STATUS_STATE tsLOCKED)) fun t => t.timeState ==
     tsACQUIRING]) id = true := by decide +kernel

theorem test_retention : List.all (let k := { k17 with st := .opened, place := .backup 0 }
  let s := (withConn base k).setFlag F.MEM_STATUS_TRAINED true
  let tl := s.ctxTile 0 0; let b := s.bankOfEntry 0 0
  let s : State := { s with pwr := { s.pwr with tiles := [(tl, { reload := 255 })] } }
  [tl == 0, b == 0, nextIs (exec (.bankReload 0 0) s) fun t => t.regs == s.regs && (t.conn? 17).map (·.place) ==
    some (.onDie 0),
   nextIs (exec (.bankReload 1 7) s) (fun t => t == s)]) id = true := by decide +kernel

theorem test_thermal : List.all [nextIs (exec (.thermalSample 63 99) base) (fun t => t.fld (F.PWR_TILE_TEMP_TEMP 63) ==
  99 && t.fld (F.PWR_TILE_TEMP_ALLOWED 63) == banksAllowed 99),
  !base.justRaised blkPWR 2, nextIs (exec (.thermalSample 63 115) base) (fun t => t.halted),
  nextIs (exec (.brownout 63) base) (fun t => t.flag (F.PWR_TILE_TEMP_BROWNOUT 63) &&
    (t.tile 63).brown)] id = true := by decide +kernel

theorem test_fault_force : List.all (let s := base.setFlag (F.FLT_FIRST_VALID blkMGT) true; let b := blkMGT
  [!s.hasFaults 0x12345, nextIs (exec (.fltForce 0x12345 1) s) (fun t => t == s), s.hasFaults b, srcClass b 28 == 0,
    nextIs (exec (.fltForce b 0x10000000) s) (fun t => t == s), srcClass b 0 == fcFATAL,
   nextIs (exec (.fltForce b 1) s) fun t => !t.halted && t.lnk == s.lnk && t.flt.sticky == [] &&
     bit (t.rd (Reg.FLT_STATUS b)) 0 && t.unacked b fcFATAL && t.rd (fltCounter b fcFATAL) == 1#32 &&
     nextIs (exec (.fltStatusClear b 1) t) (fun u => !bit (u.rd (Reg.FLT_STATUS b)) 0) &&
       nextIs (exec (.fltUnackClear b 7) t) (fun u => !u.unacked b fcFATAL) &&
     nextIs (exec (.fltFirstClear b 0x80000000) t) (fun u => !u.flag (F.FLT_FIRST_VALID b) &&
       u.fld (F.FLT_FIRST_SOURCE b) == 0) && nextIs (exec (.fltFirstClear b 1) t) (fun u => u == t),
   srcClass (blkHPT 0) 2 != 0, srcClass (blkHPT 0) 2 != fcFATAL,
   (let m := s.wr (Reg.FLT_MASK (blkHPT 0)) 4#32; nextIs (exec (.fltForce (blkHPT 0) 4) m) fun t => t.flt == m.flt &&
     bit (t.rd (Reg.FLT_STATUS (blkHPT 0))) 2),
   (let m := (s.setFlag (F.FLT_FIRST_VALID (blkHPT 0)) true).wr (Reg.FLT_UNACK (blkHPT 0)) (BitVec.ofNat 32 (2 ^ (srcClass (blkHPT 0) 2 - 1))); m.unacked (blkHPT 0) (srcClass (blkHPT 0) 2) &&
    nextIs (exec (.fltForce (blkHPT 0) 4) m) fun t => t.unacked (blkHPT 0) (srcClass (blkHPT 0) 2 + 1) &&
      t.rd (fltCounter (blkHPT 0) (srcClass (blkHPT 0) 2 + 1)) == 1#32 && !t.halted)]) id = true := by decide +kernel

theorem test_fault_signal : List.all (let m : State := { base with flt := { base.flt with msiDue := true } }
  [nextIs (exec .msiXMessage base) (fun t => t == base), nextIs (exec .msiXMessage m) (fun t => t.flt.msiSent == 1 &&
    !t.flt.msiDue),
   (let p : State := { base with flt := { base.flt with pulse := true } }; nextIs (exec .errNPulseEnd p) fun t => t ==
     { p with flt := { p.flt with pulse := false, pulseEnd := some p.t } }),
   (let p : State := { base with flt := { base.flt with pulseNext := true } }; nextIs (exec .errNPulseEnd p) fun t => t.flt.pulse && t.rd Reg.MGT_FLT_PULSES == 1#32),
   nextIs (exec (.engineWatchdog 63 3) (inSt psOFF)) (fun t => t == inSt psOFF),
     nextIs (exec (.engineWatchdog 63 3) (inSt psECLIPSE)) (fun t => t == inSt psECLIPSE),
   (let l := sl7 {}; l.linkIds == [7] && nextIs (exec (.engineWatchdog 63 3) l) fun t => t.halted && (t.link 7).downLeft ==
     4 && t.linkState 7 == lkDOWN)]) id = true := by decide +kernel

def ctrAt (b c : Nat) (x : ProgCtr) : State := { base with cnt := { base.cnt with prog := [(8 * b + c, x)] } }

theorem test_counters : List.all (let x : ProgCtr := { sel := 0xC0000001#32, val := 0xFFFFFFFE#32 }; let s := ctrAt 145 7 x
  [nextIs (exec (.countingClock 145 [] []) (s.setFlag F.CNT_CTRL_FREEZE true)) (fun t => t ==
    s.setFlag F.CNT_CTRL_FREEZE true), s.counting 145, x.counts, x.level, x.event == 1, x.sub == 0,
   nextIs (exec (.countingClock 145 [] []) s) fun t => t.cnt.prog == [(1167, { x with val := 0xFFFFFFFF#32 })],
   (let c : State := { base with cnt := { base.cnt with prog := [(8 * 145 + 6, x), (8 * 145 + 7, { sel := 0xA0000001#32, val := 3 })] } }
    nextIs (exec (.cntValRead 8 145 6) c) fun t => t.cnt == c.cnt && t.lastRead == .data 8 0xFFFFFFFE 4 &&
      Map.get? (t.requester 8).latch (Reg.CNT_VAL 145 7) == some 3#32),
   nextIs (exec (.cntValRead 8 145 7) s) fun t => t.lastRead == .data 8 0xFFFFFFFE 4,
   (let h := s.setFlag F.MGT_FLT_PIN_HALTED true; nextIs (exec (.cntSelWrite 145 7 0) h) (fun t => t == h) &&
     nextIs (exec (.cntCtrlEnable 0) h) (fun t => t == h)),
   s.bankExists 145, nextIs (exec (.cntSelWrite 145 7 0x800000FF) s) fun t => (t.ctr 145 7).val == 0xFFFFFFFE#32 &&
     (t.ctr 145 7).event == (if eventAssigned 145 255 0 then 255 else 1) && bit (t.ctr 145 7).sel 31,
   nextIs (exec (.cntSelWrite 145 0 0xA0000001) s) fun t => !bit (t.ctr 145 0).sel 29 && (t.ctr 145 0).event ==
     1]) id = true := by decide +kernel

theorem test_dumps : List.all (let r := ((base.setFld F.CNT_RING_CFG_SLOT_LOG2 22).setFld F.CNT_RING_CFG_NSLOTS_LOG2 10)
  let b := ((base.setFld F.CNT_RING_CFG_SLOT_LOG2 23).setFld F.CNT_RING_CFG_NSLOTS_LOG2 10)
  let d : Dump := { tide := 3, tstate := 2, regs := [], prog := [], hist := [], queues := [] }
  [r.ringCfgOk, !b.ringCfgOk, nextIs (exec (.cntCtrlEnable 0x80000000) b) (fun t => !t.flag F.CNT_CTRL_ENABLE && t.cnt ==
    b.cnt),
   nextIs (exec (.cntCtrlEnable 0x80000000) r) (fun t => t.flag F.CNT_CTRL_ENABLE && t.fld F.CNT_RING_POS_POSITION == 0 &&
     t.cnt.seq == 0 && t.cnt.skipped == 0),
   nextIs (exec (.dumpWrite true) base) (fun t => t == base),
   (let s : State := { r with cnt := { r.cnt with dump := some d, seq := 2 ^ 32 - 1 } }
    decide (d.length ≤ 2 ^ s.fld F.CNT_RING_CFG_SLOT_LOG2) && s.portUp s.owner &&
    nextIs (exec (.dumpWrite true) s) (fun t => t.cnt.dump == none && t.cnt.seq == 0 && t.cnt.prevTide == 3 &&
      t.rd Reg.CNT_DUMPS == 1#32) &&
    nextIs (exec (.dumpWrite false) s) (fun t => t.cnt.dump == none && t.rd Reg.CNT_SKIP_FULL ==
      1#32))]) id = true := by decide +kernel

theorem test_registers : List.all (let a := Reg.MEM_HOST_BASE
  [(match regAt a with | some (r, _, _, false) => r.wide && a % 4 == 0 && !absent base.part a && fltBlock a == none | _ => false),
   nextIs (exec (.registerWrite 7 a 4 1 []) base) (fun t => t == base),
     nextIs (exec (.lowHalfRead 7 a 4 []) base) (fun t => t == base),
   nextIs (exec (.registerWrite 0 (a + 1) 4 1 []) base) (fun t => t == base),
     nextIs (exec (.lowHalfRead 0 3 4 []) base) (fun t => t == { base with lastRead := .unsupported 0 }),
   nextIs (exec (.registerWrite 0 a 4 0x12345678 []) base) (fun t => t.regs == base.regs && (t.requester 0).held ==
     some (a, 0x12345678#32)),
   nextIs (exec (.lowHalfRead 0 a 4 []) base) (fun t => t.lastRead == .data 0 ((base.wordAt a).setWidth 64) 4 &&
     Map.get? (t.requester 0).latch (a + 4) == some (base.wordAt (a + 4))),
   nextIs (exec (.registerWrite 0 (Reg.FLT_INT 0) 4 0xFFFFFFFF []) base) (fun t => t.rd (Reg.FLT_INT 0) ==
     7#32)]) id = true := by decide +kernel

theorem test_sideband_regs : List.all (let f : State := { base with mgt := { base.mgt with vddAon := false } }
  [nextIs (exec (.regRead true 4) f) (fun t => t == f), nextIs (exec (.regWrite true 4 1 []) f) (fun t => t == f),
   nextIs (exec (.regRead true 3) base) (fun t => t.lastRead == .sideband sbMALFORMED 0 0),
     nextIs (exec (.regRead false 4) base) (fun t => t.lastRead == .sideband sbMALFORMED 0 0),
   fltBlock Reg.CTL_ENDPOINT == none, (let b := base.setFlag F.MGT_CTRL_SB_WRITE false; nextIs (exec (.regWrite true (BitVec.ofNat 24 Reg.CTL_ENDPOINT) 1 []) b) fun t => t == { b with lastRead := .sideband sbREFUSED 0 0 }),
   nextIs (exec (.regRead true (BitVec.ofNat 24 Reg.CTL_ENDPOINT)) base) (fun t => t.regs == base.regs && t.lastRead ==
     .sideband 0 (base.sbCount.wordAt Reg.CTL_ENDPOINT).toNat 4),
   nextIs (exec (.regWrite true (BitVec.ofNat 24 (Reg.FLT_INT 0)) 0xF []) base) (fun t => t.rd (Reg.FLT_INT 0) == 7#32 &&
     t.lastRead == .sideband 0 0 0)]) id = true := by decide +kernel

def sbw : State := base.setFlag F.MGT_CTRL_SB_WRITE true

def img2 : SbImage := { kind := 2, number := 1, len := 1024, crc := 0, plan := 0 }

theorem test_sideband : List.all (let op : State := { sbw with mgt := { sbw.mgt with sbOpen := some img2 } }; let nf : State := { sbw with mgt := { sbw.mgt with fwRunning := false } }
  [sbTarget 0x11 == some (1, 1), (let b := sbw.setSepoch 1 esACTIVE; nextIs (exec (.imageOpen true 0x11 1 2 3) b) fun t => t.lastRead == .sideband adEPOCHBUSY 0 0 && t.mgt == b.mgt),
   nextIs (exec (.imageOpen true 0x26 1024 2 3) sbw) (fun t => t.lastRead == .sideband 0 0 0 && t.mgt.sbOpen ==
     some { kind := 2, number := 6, len := 1024, crc := 2, plan := 3 }),
   nextIs (exec (.imageOpen true 0 1024 2 3) sbw) (fun t => t.mgt.sbOpen ==
     some { kind := 0, number := 0, len := 1024, crc := 2, plan := 3 }),
   nextIs (exec (.imageData true 0 [1]) sbw) (fun t => t.lastRead == .sideband adORDER 0 0),
     nextIs (exec (.imageData true 1024 [1]) op) (fun t => t.lastRead == .sideband adBAD 0 0 && t.mgt == op.mgt),
   nextIs (exec (.imageData true 1023 [7]) op) (fun t => t.lastRead == .sideband 0 0 0 && t.mgt ==
     { op.mgt with stage := putBytes 0 1023 1 7 }),
   nextIs (exec (.imageClose true) nf) (fun t => t.lastRead == .sideband sbNOFW 0 0),
     nextIs (exec (.admin true (descOf 3) []) nf) (fun t => t.lastRead == .sideband sbNOFW 0 0),
   nextIs (exec (.imageClose true) sbw) (fun t => t.lastRead == .sideband adORDER 0 0),
     nextIs (exec (.imageClose true) op) (fun t => t.mgt.sbOpen == none),
   sbw.readsHost (descOf acLOADROUTE), nextIs (exec (.admin true (descOf acLOADROUTE) []) sbw) (fun t => t.lastRead ==
     .sideband adORDER 0 0 && t.obj.adm == []),
   !sbw.readsHost (descOf acCREATEPD), nextIs (exec (.admin true (descOf acCREATEPD) []) sbw) (fun t => t.obj.adm.map (fun x => (x.2.entry, x.2.sideband)) == [(descOf acCREATEPD, true)]), sbw.freeAdm.isSome, !sbw.adminHeld (descOf acCREATEPD),
   nextIs (exec (.deviceReset true) base) (fun t => t.mgt.resetDue && t.lastRead ==
     .sideband 0 0 0)]) id = true := by decide +kernel

theorem test_resets : List.all (let h := base.setFlag F.MGT_FLT_PIN_HALTED true
  let y : State := { base with obj := { base.obj with adm := [(0, { entry := descOf 3, index := 0, sideband := true })] } }
  [y.sbBusy && !y.halted && nextIs (exec (.sbWrite 0xC0000000) y) (fun t => t ==
    { y with mgt := { y.mgt with ctrlWait := some 0x40000000#32 } }),
   (({ base with mgt := { base.mgt with ctrlWait := some 0x40000000#32 } } : State).handOverCtrl).flag F.MGT_CTRL_SB_WRITE,
   nextIs (exec (.sbWrite 0x40000000) h) (fun t => t == h), !base.sbBusy,
     nextIs (exec (.sbWrite 0x40000000) base) (fun t => t.flag F.MGT_CTRL_SB_WRITE && t.mgt == base.mgt),
   nextIs (exec (.devReset 0x80000000) sbw) (fun t => !t.flag F.MGT_CTRL_SB_WRITE && t.mgt ==
     { base.mgt with resetDue := true }),
   nextIs (exec (.resetN true) base) (fun t => !t.mgt.resetN && t.mgt.resetDue && t.regs == base.regs),
     nextIs (exec (.resetN true) State.reset) (fun t => !t.mgt.resetDue),
   nextIs (exec (.resetN false) base) (fun t => t == { base with mgt := { base.mgt with resetN := true } })]) id = true := by decide +kernel

def off : State := { State.reset with mgt := {} }

theorem test_power : List.all (let p2 : State := base.setFld F.MGT_STATUS_STEP 2
  [nextIs (exec (.powerUp 7 true 15) base) (fun t => t == base), nextIs (exec (.pwrGoodFall []) off) (fun t => t == off),
   nextIs (exec (.powerUp 7 true 15) off) (fun t => t.mgt.pwrGood && t.fld F.MGT_STATUS_STEP == 2 && t.part.ownerSel ==
     7 && t.part.sbOnly && t.part.sbAddr == 15),
   nextIs (exec (.powerUp 7 true 15) { off with mgt := { off.mgt with sampled := true } }) (fun t => t.part == off.part),
   nextIs (exec (.pwrGoodFall []) base) (fun t => !t.mgt.pwrGood && t.fld F.MGT_STATUS_STEP == 1 && t.ram.cells ==
     base.ram.cells),
   nextIs (exec (.firmwareLoad .error none true 0) base) (fun t => t == base), p2.atStep 2,
     decide (1 ≤ p2.fld F.ID_LEVELS_HIGHEST), !p2.justRaised blkMGT 0]) id = true := by decide +kernel

theorem test_start_up : List.all (let p3 := (base.setFld F.MGT_STATUS_STEP 3).setFlag (F.LNG_LANE_CTRL_ENABLE 1023) true
  [nextIs (exec (.selfTest none) base) (fun t => t == base), nextIs (exec (.selfTest (some 3)) p3) (fun t => t.halted),
    p3.atStep 3, p3.laneExists 1023, p3.tileState (tileOf 1023) == psACTIVE,
   (let j := base.setFlag F.MGT_STATUS_JOINED true; nextIs (exec (.profileValid 0x80000000) j) (fun t => t == j)),
   nextIs (exec (.profileValid 0) base) (fun t => t.profileValid),
     (let n := base.setFlag F.CTL_ENDPOINT_LOCKED false; nextIs (exec (.profileValid 0) n) (fun t => t.flag F.MGT_PROFILE_CTRL_ERR && !t.profileValid)),
   nextIs (exec (.digestRetry 7) base) (fun t => t == base), nextIs (exec (.digestTimeout 7) base) (fun t => t == base),
   (let a : State := { sl7 {} with mgt := { base.mgt with agree := [(7, { waits := [(3, 0)], own := [(3, 5)] })] } }
    nextIs (exec (.digestTimeout 7) a) (fun t => t.linkState 7 != lkUP) &&
    (let a := a.setFlag F.MGT_PROFILE_CTRL_VALID true
     a.profileValid && a.linkFull 7 && (a.agree 7).waits == [(3, 0)] && (a.agree 7).own == [(3, 5)])),
   (let c := mgmtCell 0 0 15 0 mgDIGEST (payOf [(40, 8, 9)]); let j := base.setFlag F.MGT_STATUS_JOINED true
    c.linkLocal && !dgReply c && dgTide c == 9 && nextIs (exec (.digest 7 c) j) (fun t => t.regs == j.regs &&
      (t.agree 7).kept == [c])),
   (let c := mgmtCell 5 0 0 0 mgDIGEST (payOf [(40, 8, 9)]); !c.linkLocal &&
     nextIs (exec (.digest 7 c) base) (fun t => t == base)),
   nextIs (exec (.testAccessInstruction .bypass) base) (fun t => t == base),
     nextIs (exec (.testAccessInstruction (.other 3)) base) (fun t => t.mgt.tap == .bypass),
   nextIs (exec (.testAccessInstruction .idcode) base) (fun t => t.mgt.tap == .idcode && t.lastRead ==
     .idcode 0x1024C9B)]) id = true := by decide +kernel

theorem test_device_reset : List.all (let s : State := { (base.wr (Reg.FLT_STATUS 0) 1#32).wr (Reg.FLT_FIRST 0) 0x80000001#32 with mgt := { base.mgt with resetDue := true }, ram := { base.ram with cells := [(1, 2)] } }
  [nextIs (exec (.deviceResetBegin []) base) (fun t => t == base),
   nextIs (exec (.deviceResetBegin []) s) fun t => t.fld F.MGT_STATUS_STEP == 2 && t.ram.cells == [(1, 2)] && t.obj ==
     {} && t.xpt == {} && t.part == s.part && t.rd Reg.CTL_ENDPOINT == regDefault s.part Reg.CTL_ENDPOINT &&
     t.rd (Reg.FLT_FIRST 0) == 0x80000001#32 && t.rd (Reg.FLT_STATUS 0) == 0 && t.rd (Reg.FLT_INT 0) == 6 &&
       t.rd Reg.MGT_FLT_PIN == 0x40000003#32,
   nextIs (exec .vddAonRemoval s) fun t => !t.mgt.vddAon && t.regs == [] && t.flt == {} && t.obj == {} && t.xpt == {} &&
     t.ram == {} && t.kept == {} && t.part == s.part]) id = true := by decide +kernel

theorem test_replay : List.all (let z := base.setup (base.jrnlCtrlWrite 0xC0000000)
  [nextIs (exec (.journalReplay 0 {} []) base) (fun t => t == base.setup (base.jrnlCtrlWrite 0x40000000)),
    z.flag F.CTL_JRNL_CTRL_REPLAY, z.replayFault {} == none,
   nextIs (exec (.journalReplay 0x80000000 {} []) base) (fun t => !t.flag F.CTL_JRNL_CTRL_REPLAY &&
     t.fld F.CTL_JRNL_CTRL_RESULT == rpOK && t.kept == {}),
   z.replayFault { readErr := true } == some rpREAD,
   nextIs (exec (.journalReplay 0x80000000 { readErr := true } []) base) (fun t => !t.flag F.CTL_JRNL_CTRL_REPLAY &&
     t.fld F.CTL_JRNL_CTRL_RESULT == rpREAD && t.obj == z.obj && t.xpt == z.xpt)]) id = true := by decide +kernel

/-- A cell that this chip holds for a chip of its own group, with one eligible port: the draw of the pick is open,
    and its outcome
is not. -/
def swt : State := { (withHeld (sr.setFld F.CTL_ROUTE_CTRL_BIAS 0) (cellTo 6)) with rt := { (withHeld sr (cellTo 6)).rt with table0 := 2 ^ (262 * 1025 + 7) } }

def swt0 : State := { swt with rt := { swt.rt with held := [] } }

theorem pick_one (s : State) (h : HeldCell) (img p : Nat)
    (c : mergeCands ((s.eligiblePorts h.cell.cls (sprayOf img (if h.cell.dst / 512 = s.addr / 512 then 256 + h.cell.dst % 512 else h.cell.dst / 512))).map
      (fun p => (p, s.minWeight p, false))) [] = [(p, 1, false)])
    (n : nmOf img (if h.cell.dst / 512 = s.addr / 512 then 256 + h.cell.dst % 512 else h.cell.dst / 512) = false) :
    s.pickPort h img = s.drawn.enqueue p h false := by
  unfold State.pickPort
  simp only [n, Bool.false_and, Bool.false_eq_true, if_false, List.isEmpty_nil, if_true, List.length_nil,
    List.getElem?_nil, List.map_nil, c]
  rw [show List.filter (fun x : Nat × Nat × Bool => x.2.1 != 0) [(p, 1, false)] = [(p, 1, false)] from rfl]
  simp [State.draw, pickAt, Nat.mod_one]

theorem test_routed : ∃ t, exec (.route 0) swt = .next t ∧ t.rt.outQ ≠ swt.rt.outQ := by
  have h : swt0.routeCell (heldC (cellTo 6)) = swt0.pickPort (heldC (cellTo 6)) swt.rt.table0 := by
    unfold State.routeCell
    dsimp only
    rw [if_neg (by decide +kernel), if_neg (by decide +kernel), if_neg (by decide +kernel)]
    rw [if_neg (by decide +kernel), if_neg (by decide +kernel)]
    have : swt0.rtable (heldC (cellTo 6)).cell.epo = swt.rt.table0 := by decide +kernel
    rw [this]
  have e : exec (.route 0) swt = .next (swt0.routeCell (heldC (cellTo 6))) := by
    have hh : swt.rt.held[0]? = some (heldC (cellTo 6)) := by decide +kernel
    have h0 : swt.rt.held.eraseIdx 0 = [] := by decide +kernel
    simp only [exec, execRoute, hh, h0]
    rfl
  refine ⟨_, e, ?_⟩
  rw [h, pick_one swt0 (heldC (cellTo 6)) swt.rt.table0 7 (by decide +kernel) (by decide +kernel)]
  decide +kernel

/-- The register after `a + b` bytes, from that after `a`. -/
theorem crc_split (a b x c : Nat) : crcBytesLE (a + b) x c = crcBytesLE b (x / 256 ^ a) (crcBytesLE a x c) := by
  induction a generalizing x c with
  | zero => simp [crcBytesLE]
  | succ n ih =>
    rw [Nat.succ_add, crcBytesLE, ih, crcBytesLE, Nat.pow_succ, Nat.mul_comm, Nat.div_div_eq_div_mul]

/-- A flash header of one image for levels 0 and 1, pinned to 1, with its CRC. -/
def hdr0 : Nat := 0x4E584246 + 1 * 256 ^ 4 + 1 * 256 ^ 6 + 1 * 256 ^ 8 + 65536 * 256 ^ 16

def hdr : Nat := hdr0 + 266123055 * 256 ^ 12

theorem test_header_crc : imageCrc 256 (hdr % 256 ^ 12 + hdr / 256 ^ 16 % 256 ^ 240 * 256 ^ 16) = 266123055 := by
  have y : hdr % 256 ^ 12 + hdr / 256 ^ 16 % 256 ^ 240 * 256 ^ 16 = hdr0 := by decide +kernel
  rw [y, imageCrc, show (256 : Nat) = 64 + (64 + (64 + 64)) from rfl, crc_split, crc_split, crc_split]
  rw [show crcBytesLE 64 hdr0 0xFFFFFFFF = 3436365987 from by decide +kernel]
  rw [show crcBytesLE 64 (hdr0 / 256 ^ 64) 3436365987 = 351869297 from by decide +kernel]
  rw [show crcBytesLE 64 (hdr0 / 256 ^ 64 / 256 ^ 64) 351869297 = 2287907986 from by decide +kernel]
  decide +kernel

theorem test_header : headerFault (hdr % 256 ^ 256) = none ∧ hdr % 256 ^ 256 / 256 ^ 6 % 65536 = 1 ∧ levelCovered (hdr % 256 ^ 256) 1 = true := by
  have m : hdr % 256 ^ 256 = hdr := by decide +kernel
  refine ⟨?_, by decide +kernel, by decide +kernel⟩
  rw [m, headerFault, if_neg (by decide +kernel), if_neg (by decide +kernel), test_header_crc, if_neg (by decide +kernel)]

/-- `State.Takes` but for the slot that is picked, which stays open. -/
def takesB (s : State) (q : QueueId) (e : Entry) (op : Nat) (x c : Queue) : Bool :=
  dOpcode e == op && s.queue? q.val == some x && s.takeable q.val x e op && s.tileActive (s.servingTile (q.val % 64)) &&
    s.queue? x.cq == some c && decide (c.reserved < 2 ^ c.log2) &&
    (op != opPOSTRECV || decide (s.postedUsed x.inst < s.postedShare)) &&
    (List.range 4).any (fun j => decide (j < s.slotShare) && (Map.get? s.obj.slots (x.inst * 1048576 + j)).isNone)

theorem takes_of {s : State} {q : QueueId} {e : Entry} {op : Nat} {x c : Queue} (h : takesB s q e op x c = true) :
    ∃ z, s.Takes q e op x c z ∧ Map.get? s.obj.slots z = none := by
  simp only [takesB, Bool.and_eq_true, beq_iff_eq, decide_eq_true_eq, Bool.or_eq_true, bne_iff_ne, ne_eq, List.any_eq_true,
    Option.isNone_iff_eq_none] at h
  obtain ⟨⟨⟨⟨⟨⟨⟨h1, h2⟩, h3⟩, h4⟩, h5⟩, h6⟩, h7⟩, j, _, h8, h9⟩ := h
  obtain ⟨z, hz⟩ := Option.isSome_iff_exists.1 (Map.pickFree_isSome (d := Config.freeChoice s.draws).2 ⟨j, h8, h9⟩)
  exact ⟨z, ⟨h1, h2, h3, h4, h5, h6, fun ho => h7.resolve_left (fun hn => hn ho), hz⟩, (Map.pickFree_free hz).2.2⟩

/-- `State.Passes`. -/
def passesB (s : State) (q : QueueId) (x : Queue) (e : Entry) : Bool :=
  !s.badFields x.inst x.pd e && (dOpcode e != opCOLLECTIVE || s.part.reduce) && !s.badLength e &&
    !(s.badTime x.inst q.val e).2 && (s.police x.inst e).2 != none

theorem passes_of {s : State} {q : QueueId} {x : Queue} {e : Entry} (h : passesB s q x e = true) : s.Passes q x e := by
  simp only [passesB, Bool.and_eq_true, Bool.not_eq_true', Bool.or_eq_true, bne_iff_ne, ne_eq] at h
  obtain ⟨⟨⟨⟨h1, h2⟩, h3⟩, h4⟩, h5⟩ := h
  exact ⟨h1, fun ho _ => h2.resolve_left (fun hn => hn ho), h3, h4, h5⟩

/-- A descriptor with OWN = 1 and the fields given. -/
def dsc (op : Nat) (l : List (Nat × Nat × Nat)) : Entry := BitVec.ofNat 512 (payOf ((0, 1, op) :: l) + 2 ^ 511)

def qp : Queue := { q5 with pd := 4 }

/-- A LOCKED chip whose queue 5 may send on connection 17, over link 7, from region 0. -/
def sd17 : State :=
  let s := withQueue (withQueue (withMem (withConn sr { k17 with st := .opened }) 0) 5 qp) 6 q6
  { s.setFld F.TIM_STATUS_STATE tsLOCKED with rt := { s.rt with table0 := 2 ^ (265 * 1025 + 7) } }

/-- One descriptor of each opcode that sends, with 8 bytes. -/
def sendOps : List (Nat × Nat) := [(opSEND, tySEND), (opWRITE, tyWRITE), (opWRITEIMM, tyWRITEIMM), (opREAD, tyREADREQ),
  (opATOMIC, tyATOMICREQ), (opACQUIRE, tyLOCKREQ), (opRELEASE, tyLOCKREQ)]

def body17 : List (Nat × Nat × Nat) := [(4, 4, 17), (24, 4, 8)]

theorem test_sending : List.all (let s := sd17.see []; let k := { k17 with st := .opened }
  (sendOps.map (fun p => let e := dsc p.1 body17; let y := s.takeSlot 5 qp e; let t := s.takeInto 5 3 qp e
    takesB s 5 e p.1 qp q6 && passesB s 5 qp e && s.conn? (dHandle e) == some k && dTkind e != 1 && !s.stale k &&
      s.localPasses k.inst k.pd y &&
    (t.slot? 3).map (fun y => (y.desc, y.phase)) == some (e, .running) && (t.queue? 5).map (·.pos) == some 1 &&
      (Map.get? t.xpt.msgs 0).map (fun m => (m.handle, m.typ, m.origin, m.fence)) == some (17, p.2, .desc 3,
        false)))) id = true := by decide +kernel

theorem test_sending_launch : List.all (let s := sd17.see []
  (sendOps.map (fun p => let e := dsc p.1 ([(1, 1, 4), (16, 8, us 60)] ++ body17); let t := s.takeInto 5 3 qp e
    takesB s 5 e p.1 qp q6 && passesB s 5 qp e && dTkind e == 1 && (s.conn? (dHandle e)).isSome &&
    (t.slot? 3).map (fun y => (y.desc, y.phase)) == some (e, .launch) && (t.queue? 5).map (·.pos) ==
      some 1))) id = true := by decide +kernel

theorem test_sending_fields : List.all (let s := sd17.see []; let m := fun (e : Entry) => Map.get? (s.takeInto 5 3 qp e).xpt.msgs 0
  [(m (dsc opSEND (body17 ++ [(28, 8, 7), (40, 6, 64)]))).map (fun m => (m.extMatch, m.len, m.src)) == some (7, 8, 64),
   (m (dsc opWRITEIMM (body17 ++ [(28, 6, 5), (36, 4, 9), (40, 6, 64), (52, 8, 11)]))).map (fun m => (m.extOffset,
     m.extKey, m.src, m.extImm)) == some (5, 9, 64, 11),
   (m (dsc opREAD (body17 ++ [(28, 6, 5), (36, 4, 9)]))).map (fun m => (m.len, m.inline, m.extKey, m.extOffset)) ==
     some (8, some 8, 9, 5),
   (m (dsc opATOMIC (body17 ++ [(28, 6, 5), (34, 4, 9), (38, 1, 2), (40, 8, 3), (48, 8, 4)]))).map (fun m => (m.len,
     m.inline, m.extKey, m.extOffset, m.extImm)) == some (16, some (3 + 4 * 2 ^ 64), 9, 5, 2),
   (m (dsc opACQUIRE (body17 ++ [(28, 6, 5), (34, 4, 9), (38, 1, 2), (40, 2, 3)]))).map (fun m => (m.len, m.extKey,
     m.extOffset, m.extImm)) == some (0, 9, 5, 1 + 2 * 256 + 3 * 65536),
   (m (dsc opRELEASE (body17 ++ [(40, 2, 3)]))).map (·.extImm) == some (2 + 3 * 65536),
   (let r : State := { s with mat := { s.mat with protocols := 0 } }; let e := dsc opSEND (body17 ++ [(28, 8, 7)])
    r.isRdv e && (Map.get? (r.takeInto 5 3 qp e).xpt.msgs 0).map (fun m => (m.len, m.extKey)) == some (0,
      0))]) id = true := by decide +kernel

theorem test_sending_state : ∃ z, (sd17.see []).Takes 5 (dsc opSEND body17) opSEND qp q6 z ∧ (sd17.see []).Passes 5 qp (dsc opSEND body17) := by
  obtain ⟨z, h, _⟩ := takes_of (s := sd17.see []) (q := 5) (e := dsc opSEND body17) (op := opSEND) (x := qp) (c := q6) (by decide +kernel)
  exact ⟨z, h, passes_of (by decide +kernel)⟩

def recvE : Entry := dsc opPOSTRECV [(24, 4, 8)]

def stored0 : StoreEntry := { inst := 0, handle := 17, pd := 4, proto := 0, context := 0, src := 9, srcIns := 1, bits := 0, seq := 0, len := 0, rts := false, covered := true, bound := none }

def anyRecv : Entry := dsc opPOSTRECV [(24, 4, 8), (36, 8, 2 ^ 64 - 1), (46, 1, 16)]

theorem test_other_nop : List.all (let s := sd17.see []; let e := dsc opNOP []; let g := dsc opNOP [(1, 1, 2)]
  [takesB s 5 e opNOP qp q6, passesB s 5 qp e, dTkind e != 1, qp.cq != 5, s.obj.slots == [], !dSignal e, dSignal g,
    takesB s 5 g opNOP qp q6,
   passesB s 5 qp g, q6.waiting == [], decide (0 < q6.room),
   (let t := s.takeInto 5 3 qp e; t.slot? 3 == none && (t.queue? 5).map (·.pos) == some 1 &&
     (t.queue? 6).map (fun y => (y.reserved, y.pos)) == some (0, 15)),
   (let t := s.takeInto 5 3 qp g; t.slot? 3 == none && (t.queue? 6).map (fun y => (y.reserved, y.pos)) == some (0,
     0))]) id = true := by decide +kernel

theorem test_other_recv : List.all (let s := sd17.see []; let m : State := { s with mat := { s.mat with store := [(8, stored0)] } }
  let filed := fun (s : State) (e : Entry) => ({ s with obj := { s.obj with slots := Map.set s.obj.slots 3 (s.takeSlot 5 qp e) } } : State)
  [takesB s 5 recvE opPOSTRECV qp q6, passesB s 5 qp recvE, s.localOk 0 (pLkey recvE) 4 (some acLOCALW) (pLaddr recvE) (dLength recvE),
   (filed s recvE).storedFor 3 == none,
   (let t := s.takeInto 5 3 qp recvE; Map.has t.mat.posted 3 && (t.slot? 3).map (·.phase) == some .posted &&
     (t.queue? 5).map (·.pos) == some 1),
   takesB m 5 anyRecv opPOSTRECV qp q6, passesB m 5 qp anyRecv, (filed m anyRecv).storedFor 3 == some (8, stored0),
   (let t := m.takeInto 5 3 qp anyRecv; (t.entry? 8).map (fun y => y.bound.map (·.1)) == some (some 3) &&
     (t.slot? 3).map (·.phase) == some .running)]) id = true := by decide +kernel

theorem test_other_cancel : List.all (let s := sd17.see []; let e := dsc opCANCEL [(28, 2, 5)]
  let p : State := { s with mat := { s.mat with posted := [(2, some 0)] }, obj := { s.obj with slots := [(2, { desc := recvE, queue := 5, index := 0, cq := 6, phase := .posted })] } }
  [takesB s 5 e opCANCEL qp q6, passesB s 5 qp e, !dSignal e, s.mat.posted == [], Map.has p.obj.slots 2,
    takesB p 5 e opCANCEL qp q6, passesB p 5 qp e,
   (let t := s.takeInto 5 3 qp e; t.slot? 3 == none && t.mat == s.mat),
   (let t := p.takeInto 5 3 qp e; t.slot? 3 == none && t.mat.posted == [] && t.rd Reg.CTL_MATCH_CANCEL ==
     1#32)]) id = true := by decide +kernel

def bar : Entry := dsc opCOLLECTIVE [(4, 4, 64), (30, 4, 9)]

def sbar : State := { sd17 with col := { sd17.col with groups := [(64, { inst := 0, gid := 7, members := 2, rank := 1, pd := 4, level := 0, height := 0, subtree := 1 })] } }

theorem test_other_collective : List.all (let s := sbar.see []; let l := dsc opCOLLECTIVE [(4, 4, 64), (30, 4, 9), (1, 1,
  4), (16, 8, us 60)]
  [takesB s 5 bar opCOLLECTIVE qp q6, passesB s 5 qp bar, takesB s 5 l opCOLLECTIVE qp q6, passesB s 5 qp l,
   (s.group? 64).any (fun g => !g.broken && g.queued == [] && (g.op? 9).isNone && s.opRoom g (g.stagingNeed ctBARRIER 0 0)),
   (let t := s.takeInto 5 3 qp l; ((t.group? 64).bind (fun y => y.op? 9)).map (·.slot) == some (some 3) &&
     (t.slot? 3).map (·.phase) == some .launch && (t.queue? 5).map (·.pos) == some 1)]) id = true := by decide +kernel

/-- `State.TakesAdmin` but for the record that is picked, which stays open. -/
def takesAdminB (s : State) (code : Nat) (e : Entry) (x c : Queue) : Bool :=
  aCode e == code && s.queue? 0 == some x && dOwn e && s.flag F.CTL_AQ_CTRL_ENABLE && s.ownerServed && !s.halted &&
    !s.flag F.CTL_JRNL_CTRL_REPLAY && !s.adminHeld e && s.queue? acqKey == some c && decide (c.reserved < 2 ^ c.log2) &&
    s.tileActive (s.servingTile 0) && (Map.get? s.obj.adm 0).isNone

theorem takesAdmin_of {s : State} {code : Nat} {e : Entry} {x c : Queue} (h : takesAdminB s code e x c = true) :
    ∃ r, s.TakesAdmin code e r x c := by
  simp only [takesAdminB, Bool.and_eq_true, Bool.not_eq_true', beq_iff_eq, decide_eq_true_eq, Option.isNone_iff_eq_none] at h
  obtain ⟨⟨⟨⟨⟨⟨⟨⟨⟨⟨⟨h1, h2⟩, h3⟩, h4⟩, h5⟩, h6⟩, h7⟩, h8⟩, h9⟩, h10⟩, h11⟩, h12⟩ := h
  obtain ⟨r, hr⟩ := Option.isSome_iff_exists.1 (Map.pickFree_isSome (m := s.obj.adm) (lo := 0) (n := 64)
    (d := Config.freeChoice s.draws).2 ⟨0, by omega, h12⟩)
  exact ⟨r, h1, h2, h3, h4, h5, h6, h7, h8, h9, h10, h11, hr⟩

/-- An admin command with OWN = 1, an OBJECT and the fields given. -/
def cmd (code obj : Nat) (l : List (Nat × Nat × Nat)) : Entry := BitVec.ofNat 512 (payOf ((0, 1, code) :: (4, 4,
    obj) :: l) + 2 ^ 511)

/-- The admin queue is enabled, with domain 4 of instance 0, its region 0 and connection 17. -/
def sob : State :=
  let s := ((withQueue sa 6 q6).setFlag F.MEM_HOST_BASE_VALID true).setFlag F.CTL_JRNL_CTRL_ENABLE true
  let s := withMem (withConn s { k17 with st := .opened, encrypt := true }) 0
  { s with obj := { s.obj with pds := [(4, 0)] } }

theorem test_makes_queues : List.all (let s := sob; let c := cmd acCREATEQUEUE 7 [(16, 1, 0x84), (17, 1,
  1)]; let w := cmd acCREATEQUEUE 8 [(16, 1, 4), (17, 1, 20), (18, 2, 4), (20, 2, 6)]
  let d := withQueue s 5 qp
  [takesAdminB s acCREATEQUEUE c aq0 acq, takesAdminB s acCREATEQUEUE w aq0 acq, s.isCq 6, s.journals, s.mapped 0,
    s.queue? 7 == none, !s.queuePending 7,
   (let r := s.createQueue c; r.status == 0 && r.wait == .ready && (r.st.queue? 7).map (fun y => (y.work, y.log2, y.k)) ==
     some (false, 4, 1)),
   (let r := s.createQueue w; r.status == 0 && (r.st.queue? 8).map (fun y => (y.work, y.pd, y.cq, y.k)) == some (true, 4,
     6, 20)),
   takesAdminB d acDESTROYQUEUE (cmd acDESTROYQUEUE 5 []) aq0 acq,
     takesAdminB s acDESTROYQUEUE (cmd acDESTROYQUEUE 6 []) aq0 acq,
   (let r := d.destroyQueue (cmd acDESTROYQUEUE 5 []) [dsc opNOP []]; r.status == 0 && r.wait == .destroy 5 [(0,
     dsc opNOP [])] && (r.st.queue? 5).isSome),
   (let r := s.destroyQueue (cmd acDESTROYQUEUE 6 []) []; r.status == 0 && r.wait == .ready && r.st.queue? 6 == none),
   (d.destroyQueue (cmd acDESTROYQUEUE 6 []) []).status == adINUSE]) id = true := by decide +kernel

theorem test_makes_domains : List.all (let s := sob; let a := cmd acREGISTER 4 [(16, 6, 4096), (24, 8, 8), (32, 1, 3), (33,
  3, 0xFFFFFF)]; let b := cmd acREGISTER 4 [(24, 8, 8), (33, 3, 15)]
  let u : State := { s with obj := { s.obj with regions := [(0, { used := true, variant := 255 })] } }
  [takesAdminB s acCREATEPD (cmd acCREATEPD 0 []) aq0 acq, Map.get? s.obj.pds 0 == none,
   (let f : State := { s with obj := { s.obj with regions := [] }, xpt := {} }; takesAdminB f acDESTROYPD (cmd acDESTROYPD 4 []) aq0 acq && !f.pdUsed 4 &&
     (f.destroyPd (cmd acDESTROYPD 4 [])).status == 0 && (f.destroyPd (cmd acDESTROYPD 4 [])).st.obj.pds == []),
   takesAdminB s acREGISTER a aq0 acq, s.freeRegion 0 == some 1, (s.inst 0).configured,
   (let r := s.registerRegion a; r.status == 0 && r.result == 256 && r.st.region 0 256 ==
     { vbase := 4096, len := 8, valid := true, access := 3, pd := 4, used := true }),
   takesAdminB s acREGISTER b aq0 acq, (let r := s.registerRegion b; r.status == 0 && r.result == 15 * 256),
   takesAdminB u acREGISTER a aq0 acq, u.freeRegion 0 == some 0, (u.registerRegion a).result == 0,
   takesAdminB s acDEREGISTER (cmd acDEREGISTER 0 []) aq0 acq, s.keyHolders 0 == [0]]) id = true := by decide +kernel

def treeImg : Nat := payOf [(0, 4, 7), (4, 4, 1), (12, 2, 4), (20, 4, 1)]

theorem test_makes_connections : List.all (let s := sob; let c := cmd acCREATECONN 4 [(16, 4, 8), (20, 4, 33), (24, 1,
  1)]; let f : State := { s with obj := { s.obj with slots := [] }, atu := {} }
  let k := cmd acINSTALLKEY 17 [(16, 1, 5), (24, 8, 1)]; let g := cmd acCREATEGROUP 0 [(16, 4, 7), (20, 4, 1), (36, 4, 80)]
  let h : State := { s with col := { s.col with groups := [(64, { inst := 0, gid := 7, members := 1, rank := 0, pd := 4, level := 0, height := 0, subtree := 1 })] } }
  [takesAdminB s acCREATECONN c aq0 acq, s.connBy 8 0 0 == none, s.part.crypt, Map.get? s.xpt.conns 0 == none,
   takesAdminB f acDESTROYCONN (cmd acDESTROYCONN 17 []) aq0 acq, f.slotsOn 17 == [],
   (let r := f.destroyConnection (cmd acDESTROYCONN 17 []); r.status == 0 && r.wait == .freed 0 (.onDie 0) &&
     r.st.conn? 17 == none),
   takesAdminB s acINSTALLKEY k aq0 acq, (s.conn? 17).any (fun y => y.encrypt && y.installed == none),
   (let r := s.installKeyRun k; r.status == 0 && r.wait == .install 17 5 (BitVec.ofNat 256 (2 ^ 248))),
   takesAdminB s acCREATEGROUP g aq0 acq, takesAdminB h acDESTROYGROUP (cmd acDESTROYGROUP 64 []) aq0 acq,
   (let r := h.destroyGroup (cmd acDESTROYGROUP 64 []); r.status == 0 && r.st.group? 64 ==
     none)]) id = true := by decide +kernel

theorem test_sets_epochs : List.all (let s := sob; let i := sob.setRepoch 1 esIDLE
  let s1 := i.setFld F.TIM_STATUS_STATE tsLOCKED; let w := cmd acSWITCH 2 [(16, 8, 0x1400000)]
  [takesAdminB s1 acSWITCH w aq0 acq, s1.epochOf 0 1 == esIDLE, s1.epochOf 0 0 != esPENDING, s1.hasTime,
   (let r := s1.switchEpoch w; r.status == 0 && r.wait == .switch 0 1 && r.st.repoch 1 == esPENDING && r.st.rt.switchAt ==
     0x1400000),
   takesAdminB s acINVALIDATE (cmd acINVALIDATE 0 [(24, 8, 1)]) aq0 acq, (s.slice 0).length == 1,
   (let r := s.invalidateRun (cmd acINVALIDATE 0 [(24, 8, 1)]); r.status == 0 && r.wait == .translations 0 none &&
     r.st.slice 0 == []),
   (s.invalidateRun (cmd acINVALIDATE 0 [(16, 8, 4096), (24, 8, 1)])).st.slice 0 == s.slice 0,
   (s.invalidateRun (cmd acINVALIDATE 1 [])).st.slice 0 == s.slice 0]) id = true := by decide +kernel

theorem test_sets_instances : List.all (let s := sob; let f : State := { s with obj := { s.obj with regions := [] } }; let c := cmd acCONFIGURE 0 [(16, 8, 8192), (24, 1, 1), (32, 8, 64), (40, 1, 24), (48, 8, 4096), (56, 4, 9)]
  let e : State := { sa with obj := { sa.obj with pds := [] } }; let n := cmd acSETINSTANCES 64 []
  let g := cmd acCONFIGURE 0 [(32, 8, 64), (40, 1, 24)]
  [takesAdminB f acCONFIGURE c aq0 acq, !f.hasRegion 0, f.spilled 0 == 0,
   (let r := f.configureRun c; r.status == 0 && r.wait == .translations 0 (some (8192, true)) &&
     (r.st.inst 0).regionLog2 == 24 && (r.st.inst 0).spillCtx == 9),
   (let r := f.configureRun g; r.status == 0 && r.wait == .translations 0 none),
   takesAdminB e acSETINSTANCES n aq0 acq, e.obj.queues.all (fun q => q.1 == 0 || q.1 == acqKey), e.xpt.conns == [],
     e.col.groups == [],
   takesAdminB e acRESETINSTANCE (cmd acRESETINSTANCE 0 []) aq0 acq, e.xpt == {}, e.atu == {},
   (let r := e.resetRun (cmd acRESETINSTANCE 0 []); r.status == 0 && r.result == 1 && r.wait == .reset 0),
   takesAdminB s acARMLOG (cmd acARMLOG 0 [(16, 8, 128), (24, 1, 4)]) aq0 acq, (s.armRun (cmd acARMLOG 0 [(16, 8, 128),
     (24, 1, 4)])).wait == .arm 0 (some (128, 4)),
   takesAdminB s acARMLOG (cmd acARMLOG 0 [(24, 1, 0x80)]) aq0 acq, (s.armRun (cmd acARMLOG 0 [(24, 1, 0x80)])).wait ==
     .arm 0 none]) id = true := by decide +kernel

/-- A load command with OWN = 1, an OBJECT, a LENGTH and a CRC. -/
def loadCmd (code obj len crc : Nat) : Entry := BitVec.ofNat 512 (code + obj * 2 ^ 32 + len * 2 ^ 192 + crc * 2 ^ 224 + 2 ^ 511)

theorem loadCmd_fields {code obj len crc : Nat} (h1 : code < 256) (h2 : obj < 2 ^ 32) (h3 : len < 2 ^ 32) (h4 : crc < 2 ^ 32) :
    aCode (loadCmd code obj len crc) = code ∧ aObject (loadCmd code obj len crc) = obj ∧ aBody (loadCmd code obj len crc) 24 4 = len ∧
      aBody (loadCmd code obj len crc) 28 4 = crc ∧ dOwn (loadCmd code obj len crc) = true := by
  have e : (loadCmd code obj len crc).toNat = code + obj * 2 ^ 32 + len * 2 ^ 192 + crc * 2 ^ 224 + 2 ^ 511 := by
    rw [loadCmd, BitVec.toNat_ofNat, Nat.mod_eq_of_lt (by omega)]
  refine ⟨?_, ?_, ?_, ?_, ?_⟩
  · simp only [aCode, bytesLE, e]; omega
  · simp only [aObject, bytesLE, e]; omega
  · simp only [aBody, bytesLE, e]; omega
  · simp only [aBody, bytesLE, e]; omega
  · simp only [dOwn, bit, BitVec.getLsbD, e, Nat.testBit, Nat.shiftRight_eq_div_pow, Nat.one_and_eq_mod_two, bne_iff_ne,
    ne_eq]; omega

theorem crcBit_lt {c : Nat} (h : c < 2 ^ 32) : crcBit c < 2 ^ 32 := by
  unfold crcBit
  split
  · exact Nat.xor_lt_two_pow (by omega) (by omega)
  · omega

theorem crcBytesLE_lt {n x c : Nat} (h : c < 2 ^ 32) : crcBytesLE n x c < 2 ^ 32 := by
  induction n generalizing x c with
  | zero => exact h
  | succ n ih =>
    refine ih ?_
    have h0 : c ^^^ x % 256 < 2 ^ 32 := Nat.xor_lt_two_pow h (by omega)
    iterate 8 refine crcBit_lt ?_
    exact h0

theorem imageCrc_lt (n x : Nat) : imageCrc n x < 2 ^ 32 := Nat.xor_lt_two_pow (crcBytesLE_lt (by omega)) (by omega)

/-- A load command is taken, whatever its CRC. -/
theorem takesLoad {s : State} {code obj len crc : Nat} {x c : Queue} (h : takesAdminB s code (loadCmd code obj len 0) x c = true)
    (ha : s.obj.adm = []) (h1 : code < 256) (h2 : obj < 2 ^ 32) (h3 : len < 2 ^ 32) (h4 : crc < 2 ^ 32) :
    ∃ r, s.TakesAdmin code (loadCmd code obj len crc) r x c := by
  obtain ⟨r, h⟩ := takesAdmin_of h
  exact ⟨r, (loadCmd_fields h1 h2 h3 h4).1, h.queue, (loadCmd_fields h1 h2 h3 h4).2.2.2.2, h.enabled, h.served, h.running,
    h.live,
    by simp [State.adminHeld, ha], h.ring, h.room, h.tile, h.record⟩

theorem test_load_route : ∃ e r, sob.TakesAdmin acLOADROUTE e r aq0 acq ∧ sob.epochOf 0 (aObject e % 2) = esEMPTY ∧
    aBody e 24 4 = imageLen 0 ∧ 0 % 256 ^ imageLen 0 = 0 ∧ imageCrc (imageLen 0) 0 = aBody e 28 4 ∧ routeImageOk 0 = true := by
  have f := loadCmd_fields (code := acLOADROUTE) (obj := 1) (len := imageLen 0) (by decide) (by decide) (by decide) (imageCrc_lt (imageLen 0) 0)
  obtain ⟨r, h⟩ := takesLoad (s := sob) (code := acLOADROUTE) (obj := 1) (len := imageLen 0) (x := aq0) (c := acq) (by decide +kernel) rfl
    (by decide) (by decide) (by decide) (imageCrc_lt (imageLen 0) 0)
  exact ⟨_, r, h, by rw [f.2.1]; decide +kernel, f.2.2.1, Nat.zero_mod _, f.2.2.2.1.symm, by decide +kernel⟩

theorem ones_div {a b : Nat} : (2 ^ (a + b) - 1) / 2 ^ a = 2 ^ b - 1 := by
  have ha := Nat.two_pow_pos a
  obtain ⟨n, hn⟩ : ∃ n, 2 ^ b = n + 1 := ⟨2 ^ b - 1, by have := Nat.two_pow_pos b; omega⟩
  rw [Nat.pow_add, hn, Nat.mul_add, Nat.mul_one, Nat.add_sub_assoc (by omega), Nat.mul_add_div ha,
    Nat.div_eq_of_lt (by omega)]
  omega

/-- A schedule image of `n` ones holds nothing but the entry that means no window. -/
theorem ones_entry {n i k : Nat} (hn : n = 46137344) (hi : i < 1024) (hk : k < 4096) : schedEntry (2 ^ n - 1) i k = enNONE := by
  obtain ⟨b, hb⟩ : ∃ b, n = (4096 * i + k) * 11 + (11 + b) := ⟨n - ((4096 * i + k) * 11 + 11), by omega⟩
  unfold schedEntry
  rw [hb, ones_div, Nat.pow_add]
  have := Nat.two_pow_pos b
  simp only [enNONE]
  omega

theorem ones_ok {n : Nat} (hn : n = 46137344) : schedImageOk (2 ^ n - 1) = true := by
  simp only [schedImageOk, List.all_eq_true, List.mem_range, Bool.and_eq_true, List.mem_map, decide_eq_true_eq]
  refine fun k hk => ⟨?_, ?_⟩
  · rintro v ⟨i, hi, rfl⟩
    rw [ones_entry hn hi hk]
    decide
  · rw [List.filter_eq_nil_iff.2]
    · exact List.nodup_nil
    · rintro v hv
      obtain ⟨i, hi, rfl⟩ := List.mem_map.1 hv
      rw [ones_entry hn (List.mem_range.1 hi) hk]
      decide

theorem test_load_schedule : ∃ d e r, sob.TakesAdmin acLOADSCHED e r aq0 acq ∧ sob.epochOf 1 (aObject e % 2) = esEMPTY ∧
    aBody e 24 4 = imageLen 1 ∧ imageCrc (imageLen 1) (d % 256 ^ imageLen 1) = aBody e 28 4 ∧ schedImageOk (d % 256 ^ imageLen 1) = true := by
  obtain ⟨n, hn⟩ : ∃ n, n = 46137344 := ⟨_, rfl⟩
  obtain ⟨l, hl⟩ : ∃ l, l = imageLen 1 := ⟨_, rfl⟩
  have e : (2 ^ n - 1) % 256 ^ l = 2 ^ n - 1 := by
    have := Nat.two_pow_pos n
    rw [show (256 : Nat) = 2 ^ 8 from rfl, ← Nat.pow_mul, show 8 * l = n by rw [hl, hn]; rfl]
    exact Nat.mod_eq_of_lt (by omega)
  have b : l < 2 ^ 32 := by rw [hl]; decide
  have f := loadCmd_fields (code := acLOADSCHED) (obj := 0) (len := l) (by decide) (by decide) b (imageCrc_lt l (2 ^ n - 1))
  obtain ⟨r, h⟩ := takesLoad (s := sob) (code := acLOADSCHED) (obj := 0) (len := l) (x := aq0) (c := acq) (by rw [hl]; decide +kernel) rfl
    (by decide) (by decide) b (imageCrc_lt l (2 ^ n - 1))
  refine ⟨2 ^ n - 1, _, r, h, by rw [f.2.1]; decide +kernel, ?_⟩
  rw [← hl, e]
  exact ⟨f.2.2.1, f.2.2.2.1.symm, ones_ok hn⟩

/-- The contents of each loadable table after a reset. -/
def tableNow (s : State) (n : Nat) : Nat :=
  if n = tbMATCH then s.mat.formats else if n = tbPROTOCOL then s.mat.protocols else if n = tbCURVE then s.xpt.curve
  else if n = tbPOWER then s.pwr.table else if n = tbEQ then s.lnk.eqTable else s.col.formats

theorem tableNow_ok : ∀ n, 1 ≤ n → n ≤ 6 → takesAdminB sob acLOADTABLE (loadCmd acLOADTABLE n (tableLen n) 0) aq0 acq = true ∧
    tableNow sob n % 256 ^ tableLen n = tableNow sob n ∧ tableBad n (tableNow sob n) = false ∧ (n = tbREDUCTION → sob.part.reduce = true) ∧
    (n = tbMATCH → sob.formatInUse (tableNow sob n) = false) := by
  intro n h1 h2
  have : n = 1 ∨ n = 2 ∨ n = 3 ∨ n = 4 ∨ n = 5 ∨ n = 6 := by omega
  rcases this with rfl | rfl | rfl | rfl | rfl | rfl <;> decide +kernel

theorem test_load_table : ∀ n, 1 ≤ n → n ≤ 6 → ∃ e r, sob.TakesAdmin acLOADTABLE e r aq0 acq ∧ aObject e % 16 = n ∧ aBody e 24 4 = tableLen n ∧
    imageCrc (tableLen n) (tableNow sob n) = aBody e 28 4 := by
  intro n h1 h2
  have hl : tableLen n < 2 ^ 32 := by unfold tableLen; split <;> (try split) <;> omega
  have f := loadCmd_fields (code := acLOADTABLE) (by decide) (Nat.lt_of_le_of_lt h2 (by decide)) hl (imageCrc_lt (tableLen n) (tableNow sob n))
  obtain ⟨r, h⟩ := takesLoad (tableNow_ok n h1 h2).1 rfl (by decide) (Nat.lt_of_le_of_lt h2 (by decide)) hl (imageCrc_lt (tableLen n) (tableNow sob n))
  exact ⟨_, r, h, by rw [f.2.1]; omega, f.2.2.1, f.2.2.2.1.symm⟩

theorem test_free_place (n : Nat) : (sob.freePlace 0 n).isSome = true := by
  have h : (pickBelow (65536 / max 1 sob.nInst) (65536 / max 1 sob.nInst) n (fun x =>
      (!((sob.xpt.conns.filter (fun k => k.2.inst == 0)).map (fun k => k.2.place)).contains (.onDie x) &&
        !((sob.xpt.conns.filter (fun k => k.2.inst == 0)).map (fun k => k.2.place)).contains (.backup x)) &&
          sob.tileActive (sob.ctxTile 0 x))).isSome = true :=
    pickBelow_isSome (x := 1) (by decide +kernel) (by decide +kernel) (by decide +kernel)
  obtain ⟨x, hx⟩ := Option.isSome_iff_exists.1 h
  unfold State.freePlace
  dsimp only
  rw [hx]
  rfl

theorem test_group_made : (sob.createGroup (cmd acCREATEGROUP 0 [(16, 4, 7), (20, 4, 1), (36, 4,
  80)]) (.data treeImg)).status = stSUCCESS := by
  have h : (pickBelow 4096 4096 (Config.freeChoice sob.draws) (fun n => !sob.col.groups.any (fun g => g.1 % 4096 ==
    n))).isNone = false := by
    have := pickBelow_isSome (n := 4096) (k := 4096) (d := Config.freeChoice sob.draws) (x := 0)
      (ok := fun n => !sob.col.groups.any (fun g => g.1 % 4096 == n)) (by omega) (by omega) (by decide +kernel)
    simpa using this
  unfold State.createGroup State.adminCheck
  dsimp only
  rw [h, if_pos (by decide +kernel)]
  rfl

/-- The admin queue enabled, with a command that waits for `w` in record 9. -/
def waits (w : AdminWait) : State := let s := withMem (withConn sa { k17 with st := .opened, encrypt := true }) 0
  { s with obj := { s.obj with adm := [(9, { recR with wait := w })], queues := Map.set s.obj.queues 5 qp, slots := [] } }

theorem test_admin_waits : List.all (let c := fun (s : State) => exec (.adminComplete 9 []) s
  [(waits .ready).taskRuns (.admin 9), nextIs (c (waits (.destroy 5 []))) (fun t => t.queue? 5 == none && t.obj.adm == []),
   nextIs (c (waits (.install 17 4 3))) (fun t => (t.conn? 17).bind Conn.installed == some { epoch := 4, key := 3 }),
   nextIs (c (waits (.arm 0 (some (128, 4))))) (fun t => t.flag (F.CTL_INST_LOG_ARMED 0) && ((t.inst 0).logBase,
     (t.inst 0).logLog2) == (128, 4)),
   nextIs (c (waits (.arm 127 none))) (fun t => !t.flag (F.CTL_INST_LOG_ARMED 127)),
   (waits (.translations 0 (some (4096, true)))).usesEnded 0,
   nextIs (c (waits (.translations 0 (some (4096, true))))) (fun t => ((t.inst 0).xltRoot, (t.inst 0).walk) == (4096,
     true) && t.slice 0 == []),
   (waits (.reset 127)).resetReady 127]) id = true := by decide +kernel

/-- Connection 17, of class 7, goes to the endpoint of the record and has a message of 8 bytes to send. -/
def scell : State := { sw with xpt := { sw.xpt with conns := [(17, { k17 with st := .opened, cls := 7, peerEp := 77 })], msgs := [(0, { handle := 17, typ := tySEND, origin := .desc 3, len := 8, inline := some 5 })] },
                               tim := { sw.tim with ready := [(9, 7)] } }

theorem test_window_cells : List.all (let s := scell; let u := ({ s with tim := { s.tim with ready := [] } } : State).fillWindow 77 60 [.data 0]
  [s.ownedSlot 9 7 == some (0, { rec1 with first := 7 }), s.joined, s.tim.ready.contains (9, 7), s.eligible 7 1,
    s.tim.resend == [], u.synced,
   (u.rt.held.drop s.rt.held.length).any (fun h => h.cell.cls == 7),
   nextIs (exec (.windowSource 9 7 [.data 0]) s) (fun t => t.tim.ready == [] &&
     (Map.getD t.tim.markOut 1 []).contains (slotStart 7, 7)),
   s.ownedIn (s.schedAt (slotStart 7)) 9 7 == some (0, { rec1 with first := 7 })]) id = true := by decide +kernel

theorem test_step_stopped : List.all (let p := base.setFlag F.PWR_STATUS_PLL_RUN false; let l : State := { p with now := BitVec.ofNat 64 (ns 40 - 1) }
  [base.flag F.PWR_STATUS_PLL_RUN, base.tim.slew == 0, base.timeState != tsHOLDOVER, nextIs (step p) (fun t => t.now ==
    p.now || t.now == BitVec.ofNat 64 (ns 40)),
   nextIs (step l) (fun t => t.now == l.now || t.now == BitVec.ofNat 64 (ns 40))]) id = true := by decide +kernel

theorem test_launch_raise : List.all (let s := ((sl.setFld (F.PWR_TILE_STATUS_STATE 5) psDOZE).setFld (F.PWR_TILE_STATUS_TARGET 5) psDOZE)
  [s.servingTile 5 == 5, s.tileState 5 == psDOZE, !s.tileChanging 5,
    nextIs (exec (.launchPowerRaise 3) s) fun t => t.tileChanging 5 && t.tileTarget 5 == psACTIVE &&
    t.fld (F.PWR_TILE_STATUS_LAST_CAUSE 5) == wcLAUNCH]) id = true := by decide +kernel

theorem test_phases_given_up : List.all (let h : State := { sl7 {} with tim := { (sl7 {}).tim with holds := [7] } }; let x := sl7 { exitFrom := some phHALF, gotAck := true }
  let c := (sl7 {}).setFlag (F.PWR_TILE_STATUS_CHANGING 0) true
  [h.holdsPhase 7 1, nextIs (exec (.phase 7 0x6000) h) (fun t => t.regs == h.regs && (t.link 7).phaseDue == none &&
    (t.link 7).phaseAsk == none),
   c.tileChanging (tileOf 7), nextIs (exec (.phase 7 0x4000) c) (fun t => t.regs == c.regs && (t.link 7).phaseDue ==
     none && (t.link 7).words.contains (mkWord wPHASE 0x7000)),
   (x.agree 7).due == [], x.linkRuns 7, nextIs (exec (.credit 7 0) x) (fun t => t.linkFull 7 && (t.link 7).exitFrom ==
     none)]) id = true := by decide +kernel

theorem test_lanes_wait : List.all (let z := fun (s : State) => (s.setFld (F.PWR_TILE_STATUS_STATE 0) psDOZE).setFld (F.PWR_TILE_STATUS_TARGET 0) psDOZE
  let e := base.setFlag (F.LNG_LANE_CTRL_ENABLE 7) true
  [nextIs (exec (.laneEnable 7 0x80000000) (z (base.setFlag (F.LNG_LANE_CTRL_ENABLE 7) false))) (fun t => t.linkState 7 ==
    lkDOWN && (t.lane 7).due),
   (z e).mayTrain 7, nextIs (exec (.trainingRetry 7) (z e)) (fun t => t.linkState 7 == lkDOWN && (t.lane 7).due),
   !base.mayTrain 7 || nextIs (exec (.trainingRetry 7) base) (fun t => t.linkState 7 == lkTRAINING),
   nextIs (exec (.retrain 7 0xC0000000) e) (fun t => t.linkState 7 == lkTRAINING &&
     !t.flag (F.LNG_LANE_CTRL_RETRAIN 7))]) id = true := by decide +kernel

theorem test_lanes_step : List.all (let s := ((seqState (tabOf [(0, acLANES,
  false)]) 0 1 1 none).setFld (F.LNG_LANE_STATUS_LINK 1023) lkTRAINING)
  [seqAction (s.tile 63).table 0 0 == acLANES, s.lanesLeft 63 0 == [1023], !s.heldLink 1023, !s.inSchedule 1023,
   nextIs (exec (.sequenceStepDone 63 [] true) s) (fun t => t == s)]) id = true := by decide +kernel

theorem test_pps_align : List.all (let s : State := { (sroot.setFlag F.TIM_STATUS_TIME_IN_OK true).setFld F.TIM_STATUS_STATE tsACQUIRING with now := 100#64 }
  let g : State := { s with tim := { s.tim with stepped := true } }
  [s.role == roleROOT, !s.flag F.TIM_CTRL_SET_ARM, nextIs (exec (.ppsEdge true) s) (fun t => t.now == 0#64 && t.tim.stepped),
   nextIs (exec (.ppsEdge true) g) (fun t => t.now == g.now && t.tim.slew == -100 && t.tim.aligned ==
     goodOffset (-100))]) id = true := by decide +kernel

theorem test_register_effects : List.all (let v : Word64 := 0x12345678#64; let h : State := { base with req := [(0, { held := some (Reg.MGT_ROOT_ID, 9#32) })] }
  [nextIs (exec (.registerWrite 0 Reg.INJ_WEIGHT0 4 v []) base) (fun t => t.rd Reg.INJ_WEIGHT0 == 0x12345678#32 &&
    t.rd Reg.INJ_CTRL == base.rd Reg.INJ_CTRL),
   (h.requester 0).held == some (Reg.MGT_ROOT_ID, 9#32),
   nextIs (exec (.registerWrite 0 (Reg.MGT_ROOT_ID + 4) 4 5 []) h) (fun t => t.rd64 Reg.MGT_ROOT_ID == 0x500000009#64 &&
     (t.requester 0).held == none)]) id = true := by decide +kernel

def up7 : State := base.setFld (F.HPT_STATUS_MODE 7) 1

theorem test_ports_up : List.all (let s := up7; let m := (up7.setFld (F.CTL_INST_MAP_PORT 0) 7).setFld (F.CTL_INST_MAP_FUNC 0) 16
  [s.portUp 7, s.owner != 7, !s.flag (F.HPT_CTRL_DISABLE 7),
    nextIs (exec (.hptDisable 7 0 0 []) s) (fun t => !t.portUp 7 && t.fld (F.HPT_STATUS_MODE 7) == 3),
   nextIs (exec (.hptRetrain 7 0 0 []) s) (fun t => !t.portUp 7), m.instAt 7 16 == some 0,
     !m.flag (F.CTL_INST_STATE_RESETTING 0), m.xpt == {}, m.atu == {}, m.col.groups == []]) id = true := by decide +kernel

theorem test_matched_more : List.all (let y : Slot := { desc := recvE, queue := 5, index := 0, cq := 6, phase := .running }
  let s : State := { withQueue sd17 5 qp with mat := { sd17.mat with store := [(8, { stored0 with bound := some (3, 0) })] }, obj := { sd17.obj with slots := [(3, y)] } }
  [nextIs (exec (.unexpectedCopy 8 []) s) (fun t => t.entry? 8 == none && t.slot? 3 == none),
    (s.queue? 6).any (fun c => c.waiting == [] && decide (0 < c.room)),
   s.onDie 17]) id = true := by decide +kernel

theorem test_data_reopen : List.all (let s := withConn base { k17 with peerGen := some 3 }; let n := withConn base { k17 with peerGen := none }
  [nextIs (exec (.dataCell (dcell 0 1 3)) s) (fun t => (t.conn? 17).map (·.st) == some .opening && t.inj.ctl.length == 1 &&
    t.inj.ctl.all (fun y => y.typ == tyNOTICE && y.dst == 9) &&
     t.rd Reg.CTL_XPT_NOCTX == 1#32),
   nextIs (exec (.dataCell (dcell 0 1 3)) n) (fun t => t.xpt == n.xpt)]) id = true := by decide +kernel

theorem test_words_more : List.all (let r := su (reqMsg tyLOCKREQ 2 8 0); let h : State := { r with atu := { r.atu with held := [(0, held8)], nextHeld := 1 } }
  [h.onDie 17, !h.reqBusy 17 0, ramRead h.ram.cells 8 8 == held8.word, held8.waiters == [],
    (so (opOn (.atomic 17 0) none)).hostOpAt 0 == some (opOn (.atomic 17 0) none),
   (so (opOn (.acquire 17 0) none)).hostOpAt 0 == some (opOn (.acquire 17 0) none),
     (so (opOn (.acquire 17 0) none)).atu.arrivals == [],
   (let k := { k17 with st := .opened, front := 0, rx := [{ reqMsg tyATOMICRESP 0 0 8 with served := false }] }; let s := withConn base k
    s.roomFor (s.dueQueues k (s.dueOf 17 k { reqMsg tyATOMICRESP 0 0 8 with served := false })))]) id = true := by decide +kernel

theorem test_miss_waits : List.all (let s : State := { sm with pwr := { sm.pwr with tasks := [{ tile := 63, engine := 0, task := mi.task }] } }
  [s.missFor 63 0 (2 ^ 48 - 1) == some mi, !s.taskRuns mi.task,
    nextIs (exec (.translationMiss 63 0 (2 ^ 48 - 1) []) s) (fun t => t == s),
    sm.taskRuns mi.task]) id = true := by decide +kernel

/-- A launch of connection 17 whose message waits to be sent. -/
def slaunch : State :=
  let s := sd17.setFlag F.MGT_STATUS_JOINED true
  { s with
    xlt := (withMem base 5).xlt
    xpt := { s.xpt with msgs := [(0, { handle := 17, typ := tyWRITE, origin := .desc 3, len := 8, extLength := 8 })], nextMsg := 1 }
    obj := { s.obj with slots := [(3, { desc := dsc opWRITE ([(1, 1, 4)] ++ body17), queue := 5, index := 0, cq := 6 })] } }

theorem test_chunk_launch : List.all [!slaunch.halted, slaunch.addressed,
  ((slaunch.see []).readyChunks.2.find? (fun c => c.launch)).isSome,
  nextIs (exec (.chunkGrant (.data 0) []) slaunch) (fun t => t.rd Reg.INJ_LAUNCH_GRANT == 1#32 &&
    t.rt.held.any (fun h => h.cell.typ == tyWRITE && h.cell.dst == 9))] id = true := by decide +kernel

theorem test_collective_more : List.all (let o := { op5 with ctype := ctREDUCE, stepped := true, fmt := 0x80, count := 4096, spans := 4090, downHdr := some (3 * 2 ^ 13 + 2 ^ 15) }
  let x := { grp with members := 2, rank := 1, parent := some edge9, ops := [o] }; let e := { grp with members := 2, rank := 1, parent := some { edge9 with handle := localEdge } }
  [o.upData, nextIs (exec (.downMessage 64 5 []) (sg x)) (fun t => t == sg x),
   nextIs (exec (.treeStep 64 5 (.data 0) []) (sg e)) (fun t => ((t.group? 64).bind (fun y => y.op? 5)).map (fun p => (p.stepped, p.own, p.status, p.upHdr.isSome)) == some (true, 0, 0, true))]) id = true := by decide +kernel

theorem test_replay_restores : List.all (let r : Journal := { queues := [(5, 2 ^ 7 + 3 * 2 ^ 32)], conns := [{ handle := 17, pd := 4, bytes := 2 ^ 7 + 5 * 2 ^ 16 + 9 * 2 ^ 32 + 33 * 2 ^ 64 }] }
  let z := base.setup (base.jrnlCtrlWrite 0xC0000000)
  [z.replayFault r == none, z.kept == {}, z.obj.slots == [], z.xpt == {}, z.atu == {}, z.col.groups == [],
    !z.failed (handleInst 17),
   nextIs (exec (.journalReplay 0x80000000 r []) base) (fun t => (t.queue? 5).map (·.pos) == some 3 &&
     (t.conn? 17).map (fun k => (k.st, k.wm, k.front, k.peerEp, k.peerHandle)) == some (.closed, 5, 5, 9,
       33))]) id = true := by decide +kernel

/-- A sideband image of the protocol table, staged whole. -/
theorem test_image_close (s : State) : ∃ o : SbImage, o.kind = 2 ∧ o.number = tbPROTOCOL ∧ o.len = 128 ∧ (s.loadTable o.number o.len o.crc (.data sob.mat.protocols)).status = 0 := by
  have h := (tableNow_ok tbPROTOCOL (by decide) (by decide)).2.2.1
  have m : sob.mat.protocols % 256 ^ 128 = sob.mat.protocols := by decide +kernel
  refine ⟨{ kind := 2, number := tbPROTOCOL, len := 128, crc := imageCrc 128 sob.mat.protocols, plan := 0 }, rfl, rfl, rfl,
    ?_⟩
  unfold State.loadTable
  dsimp only
  rw [m, if_neg (by decide), if_neg (fun h => absurd h.1 (by decide)), if_neg (fun h => absurd h.1 (by decide))]
  rw [if_neg (by
    rintro (h1 | h1 | h1)
    · exact h1 (by decide)
    · exact h1 rfl
    · exact absurd (h.symm.trans h1) (by decide))]

end Sys2Proof.Tests
end

/-! Every step keeps the canonical forms, the fuses and the queue's rest: the lemmas of Laws/Keeps*.lean, one for each
command, put together over `exec` and `step`. -/

namespace Sys2Proof.Machine

/-- A command keeps what no command changes, and a steady one leaves alone fabric time, the straps, what a replay can take and
the bytes of the windows' memory. -/
theorem exec_rel {c : Instr} {s t : State} (h : exec c s = .next t) : s.Rel (!unsteady c) t := by
  cases c with
  | poll => exact execPoll_rel _ _ s State.rel_refl h
  | aonPoll => exact execAonPoll_rel _ _ s State.rel_refl h
  | snoop => exact execSnoop_rel _ _ s State.rel_refl h
  | ringReadError => exact execRingReadError_rel _ _ s State.rel_refl h
  | ringRereadTimer => exact execRingRereadTimer_rel _ _ s State.rel_refl h
  | cqEntryReturned => exact execCqEntryReturned_rel _ _ s State.rel_refl h
  | send => exact execSend_rel _ _ _ s State.rel_refl h
  | postRecv => exact execPostRecv_rel _ _ _ s State.rel_refl h
  | writeMsg => exact execWriteMsg_rel _ _ _ s State.rel_refl h
  | writeImm => exact execWriteImm_rel _ _ _ s State.rel_refl h
  | readMsg => exact execReadMsg_rel _ _ _ s State.rel_refl h
  | atomic => exact execAtomic_rel _ _ _ s State.rel_refl h
  | lockAcquire => exact execLockAcquire_rel _ _ _ s State.rel_refl h
  | lockRelease => exact execLockRelease_rel _ _ _ s State.rel_refl h
  | collective => exact execCollective_rel _ _ _ s State.rel_refl h
  | cancelRecv => exact execCancelRecv_rel _ _ _ s State.rel_refl h
  | nop => exact execNop_rel _ _ _ s State.rel_refl h
  | launchPowerRaise => exact execLaunchPowerRaise_rel _ s State.rel_refl h
  | launchStart => exact execLaunchStart_rel _ _ s State.rel_refl h
  | createQueue => exact execCreateQueue_rel _ s State.rel_refl h
  | destroyQueue => exact execDestroyQueue_rel _ _ s State.rel_refl h
  | createPd => exact execCreatePd_rel _ s State.rel_refl h
  | destroyPd => exact execDestroyPd_rel _ s State.rel_refl h
  | registerRegion => exact execRegisterRegion_rel _ s State.rel_refl h
  | deregisterRegion => exact execDeregisterRegion_rel _ s State.rel_refl h
  | createConnection => exact execCreateConnection_rel _ s State.rel_refl h
  | destroyConnection => exact execDestroyConnection_rel _ s State.rel_refl h
  | installKey => exact execInstallKey_rel _ s State.rel_refl h
  | createGroup => exact execCreateGroup_rel _ _ s State.rel_refl h
  | destroyGroup => exact execDestroyGroup_rel _ s State.rel_refl h
  | loadRoute => exact execLoadRoute_rel _ _ s State.rel_refl h
  | loadSchedule => exact execLoadSchedule_rel _ _ s State.rel_refl h
  | switchEpoch => exact execSwitchEpoch_rel _ s State.rel_refl h
  | invalidateTranslation => exact execInvalidateTranslation_rel _ s State.rel_refl h
  | configureInstance => exact execConfigureInstance_rel _ s State.rel_refl h
  | setInstances => exact execSetInstances_rel _ s State.rel_refl h
  | resetInstance => exact execResetInstance_rel _ s State.rel_refl h
  | armPageLog => exact execArmPageLog_rel _ s State.rel_refl h
  | loadTable => exact execLoadTable_rel _ _ s State.rel_refl h
  | adminComplete => exact execAdminComplete_rel _ _ s State.rel_refl h
  | aqEnable => exact execAqEnable_rel _ s State.rel_refl h
  | aqDisable => exact execAqDisable_rel _ s State.rel_refl h
  | endpointWrite => exact execEndpointWrite_rel _ s State.rel_refl h
  | route => exact execRoute_rel _ s State.rel_refl h
  | codewordSend => exact execCodewordSend_rel _ _ s State.rel_refl h
  | tide => exact execTide_rel s State.rel_refl h
  | drain => exact execDrain_rel _ _ s State.rel_refl h
  | forcedRetirement => exact execForcedRetirement_rel s State.rel_refl h
  | scheduleEpochRetire => exact execScheduleEpochRetire_rel s State.rel_refl h
  | tsExchange => exact execTsExchange_rel s State.rel_refl h
  | tsReq => exact execTsReq_rel _ _ s State.rel_refl h
  | tsResp => exact execTsResp_rel _ _ s State.rel_refl h
  | tsData => exact execTsData_rel _ _ _ s State.rel_refl h
  | exchangeMissed => exact execExchangeMissed_rel s State.rel_refl h
  | holdoverLimit => exact execHoldoverLimit_rel s State.rel_refl h
  | holdoverLinkRaise => exact execHoldoverLinkRaise_rel s State.rel_refl h
  | ppsEdge => exact execPpsEdge_rel _ s State.rel_refl h
  | setArm => exact execSetArm_rel _ s State.rel_refl h
  | timeInLost => exact execTimeInLost_rel s State.rel_refl h
  | standbyTakeover => exact execStandbyTakeover_rel s State.rel_refl h
  | timCtrlWrite => exact execTimCtrlWrite_rel _ s State.rel_refl h
  | timNowRead => exact execTimNowRead_rel _ s State.rel_refl h
  | timeOutPulse => exact execTimeOutPulse_rel s State.rel_refl h
  | xsrcRead => exact execXsrcRead_rel _ s State.rel_refl h
  | xsrcWrite => exact execXsrcWrite_rel _ s State.rel_refl h
  | windowPayloadRead => exact execWindowPayloadRead_rel _ _ s State.rel_refl h
  | windowSource => exact execWindowSource_rel _ _ _ s State.rel_refl h
  | mark => exact execMark_rel _ _ s State.rel_refl h
  | transitCell => exact execTransitCell_rel _ _ s State.rel_refl h
  | transitDown => exact execTransitDown_rel _ s State.rel_refl h
  | laneHold => exact execLaneHold_rel _ _ s State.rel_refl h
  | scheduleWake => exact execScheduleWake_rel _ s State.rel_refl h
  | openConn => exact execOpenConn_rel _ _ s State.rel_refl h
  | openAck => exact execOpenAck_rel _ _ s State.rel_refl h
  | dataCell => exact execDataCell_rel _ s State.rel_refl h
  | wmAdvance => exact execWmAdvance_rel _ _ s State.rel_refl h
  | ack => exact execAck_rel _ _ s State.rel_refl h
  | probe => exact execProbe_rel _ s State.rel_refl h
  | status => exact execStatus_rel _ _ s State.rel_refl h
  | retransmissionTimer => exact execRetransmissionTimer_rel _ _ s State.rel_refl h
  | remoteGeneration => exact execRemoteGeneration_rel _ _ s State.rel_refl h
  | contextSwapComplete => exact execContextSwapComplete_rel _ s State.rel_refl h
  | writeStall => exact execWriteStall_rel _ _ s State.rel_refl h
  | journalReplay => exact execJournalReplay_rel _ _ _ s State.rel_refl h
  | unexpectedCopy => exact execUnexpectedCopy_rel _ _ s State.rel_refl h
  | pullStart => exact execPullStart_rel _ s State.rel_refl h
  | readReq => exact execReadReq_rel _ _ s State.rel_refl h
  | sourceReadFail => exact execSourceReadFail_rel _ _ _ s State.rel_refl h
  | sourceFault => exact execSourceFault_rel _ s State.rel_refl h
  | fault => exact execFault_rel _ _ s State.rel_refl h
  | faultConfirm => exact execFaultConfirm_rel _ s State.rel_refl h
  | tag => exact execTag_rel _ s State.rel_refl h
  | keySwitch => exact execKeySwitch_rel _ s State.rel_refl h
  | keySwitchAck => exact execKeySwitchAck_rel _ s State.rel_refl h
  | noKey => exact execNoKey_rel _ s State.rel_refl h
  | atomicReq => exact execAtomicReq_rel _ _ s State.rel_refl h
  | acquire => exact execAcquire_rel _ _ s State.rel_refl h
  | release => exact execRelease_rel _ _ s State.rel_refl h
  | abandonAll => exact execAbandonAll_rel _ _ s State.rel_refl h
  | hostWordOpDone => exact execHostWordOpDone_rel _ _ _ _ s State.rel_refl h
  | pendingWriteDone => exact execPendingWriteDone_rel _ _ s State.rel_refl h
  | atomicResp => exact execAtomicResp_rel _ _ s State.rel_refl h
  | lockResp => exact execLockResp_rel _ _ s State.rel_refl h
  | atuLkAcquire => exact execAtuLkAcquire_rel _ _ _ s State.rel_refl h
  | atuLkRelease => exact execAtuLkRelease_rel _ _ _ s State.rel_refl h
  | lkAcquireRetry => exact execLkAcquireRetry_rel _ _ s State.rel_refl h
  | lkSlotWithdraw => exact execLkSlotWithdraw_rel _ _ _ s State.rel_refl h
  | treeStep => exact execTreeStep_rel _ _ _ _ s State.rel_refl h
  | spanCombine => exact execSpanCombine_rel _ _ _ s State.rel_refl h
  | downMessage => exact execDownMessage_rel _ _ _ s State.rel_refl h
  | collectiveAbort => exact execCollectiveAbort_rel _ _ s State.rel_refl h
  | translationMiss => exact execTranslationMiss_rel _ _ _ _ s State.rel_refl h
  | flagUpdateDone => exact execFlagUpdateDone_rel _ _ _ _ s State.rel_refl h
  | extentValidSet => exact execExtentValidSet_rel _ _ _ s State.rel_refl h
  | devlistLock => exact execDevlistLock_rel _ s State.rel_refl h
  | xltFaultInfoRead => exact execXltFaultInfoRead_rel _ s State.rel_refl h
  | instMapWrite => exact execInstMapWrite_rel _ _ s State.rel_refl h
  | busMasterEnableChange => exact execBusMasterEnableChange_rel _ _ _ _ _ s State.rel_refl h
  | chunkGrant => exact execChunkGrant_rel _ _ s State.rel_refl h
  | polEnable => exact execPolEnable_rel _ _ _ s State.rel_refl h
  | polWrite => exact execPolWrite_rel _ _ _ _ s State.rel_refl h
  | queueSample => exact execQueueSample_rel s State.rel_refl h
  | codeword => exact execCodeword_rel _ _ _ _ _ _ _ _ s State.rel_refl h
  | nakRepeat => exact execNakRepeat_rel _ s State.rel_refl h
  | noReplayTimeout => exact execNoReplayTimeout_rel _ s State.rel_refl h
  | nak => exact execNak_rel _ _ s State.rel_refl h
  | replay => exact execReplay_rel _ _ s State.rel_refl h
  | linkAck => exact execLinkAck_rel _ _ s State.rel_refl h
  | credit => exact execCredit_rel _ _ s State.rel_refl h
  | phaseReq => exact execPhaseReq_rel _ _ _ s State.rel_refl h
  | phase => exact execPhase_rel _ _ s State.rel_refl h
  | wake => exact execWake_rel _ _ s State.rel_refl h
  | wakePattern => exact execWakePattern_rel _ s State.rel_refl h
  | laneExitTimeout => exact execLaneExitTimeout_rel _ s State.rel_refl h
  | retrain => exact execRetrain_rel _ _ s State.rel_refl h
  | train => exact execTrain_rel _ _ _ _ s State.rel_refl h
  | trainingTimeout => exact execTrainingTimeout_rel _ s State.rel_refl h
  | trainingRetry => exact execTrainingRetry_rel _ s State.rel_refl h
  | linkLost => exact execLinkLost_rel _ s State.rel_refl h
  | linkDown => exact execLinkDown_rel _ s State.rel_refl h
  | hostPortReset => exact execHostPortReset_rel _ _ _ s State.rel_refl h
  | flr => exact execFlr_rel _ _ _ s State.rel_refl h
  | hptDisable => exact execHptDisable_rel _ _ _ _ s State.rel_refl h
  | hptRetrain => exact execHptRetrain_rel _ _ _ _ s State.rel_refl h
  | cplTimeout => exact execCplTimeout_rel _ _ s State.rel_refl h
  | poison => exact execPoison_rel _ _ s State.rel_refl h
  | atomicUr => exact execAtomicUr_rel _ _ s State.rel_refl h
  | memEnable => exact execMemEnable_rel _ s State.rel_refl h
  | memTrained => exact execMemTrained_rel _ _ s State.rel_refl h
  | memHostBaseWrite => exact execMemHostBaseWrite_rel _ s State.rel_refl h
  | uncorrectableRead => exact execUncorrectableRead_rel _ _ _ _ _ s State.rel_refl h
  | rebuildDone => exact execRebuildDone_rel s State.rel_refl h
  | patrolScrub => exact execPatrolScrub_rel _ s State.rel_refl h
  | memTemperatureRead => exact execMemTemperatureRead_rel _ s State.rel_refl h
  | pwrTileReq => exact execPwrTileReq_rel _ _ _ s State.rel_refl h
  | wakeEvent => exact execWakeEvent_rel _ _ s State.rel_refl h
  | standingReturn => exact execStandingReturn_rel _ s State.rel_refl h
  | sequenceStepDone => exact execSequenceStepDone_rel _ _ _ s State.rel_refl h
  | pllLock => exact execPllLock_rel s State.rel_refl h
  | bankReload => exact execBankReload_rel _ _ s State.rel_refl h
  | thermalSample => exact execThermalSample_rel _ _ s State.rel_refl h
  | brownout => exact execBrownout_rel _ s State.rel_refl h
  | fltForce => exact execFltForce_rel _ _ s State.rel_refl h
  | fltStatusClear => exact execFltStatusClear_rel _ _ s State.rel_refl h
  | fltUnackClear => exact execFltUnackClear_rel _ _ s State.rel_refl h
  | fltFirstClear => exact execFltFirstClear_rel _ _ s State.rel_refl h
  | msiXMessage => exact execMsiXMessage_rel s State.rel_refl h
  | errNPulseEnd => exact execErrNPulseEnd_rel s State.rel_refl h
  | dumpWrite => exact execDumpWrite_rel _ s State.rel_refl h
  | cntValRead => exact execCntValRead_rel _ _ _ s State.rel_refl h
  | cntSelWrite => exact execCntSelWrite_rel _ _ _ s State.rel_refl h
  | cntCtrlEnable => exact execCntCtrlEnable_rel _ s State.rel_refl h
  | powerUp => exact execPowerUp_rel _ _ _ s State.rel_refl h
  | firmwareLoad => exact execFirmwareLoad_rel _ _ _ _ s State.rel_refl h
  | selfTest => exact execSelfTest_rel _ s State.rel_refl h
  | pwrGoodFall => exact execPwrGoodFall_rel _ s State.rel_refl h
  | resetN => exact execResetN_rel _ s State.rel_refl h
  | devReset => exact execDevReset_rel _ s State.rel_refl h
  | deviceResetBegin => exact execDeviceResetBegin_rel _ s State.rel_refl h
  | digest => exact execDigest_rel _ _ s State.rel_refl h
  | digestRetry => exact execDigestRetry_rel _ s State.rel_refl h
  | digestTimeout => exact execDigestTimeout_rel _ s State.rel_refl h
  | profileValid => exact execProfileValid_rel _ s State.rel_refl h
  | regRead => exact execRegRead_rel _ _ s State.rel_refl h
  | regWrite => exact execRegWrite_rel _ _ _ _ s State.rel_refl h
  | imageOpen => exact execImageOpen_rel _ _ _ _ _ s State.rel_refl h
  | imageData => exact execImageData_rel _ _ _ s State.rel_refl h
  | imageClose => exact execImageClose_rel _ s State.rel_refl h
  | admin => exact execAdmin_rel _ _ _ s State.rel_refl h
  | deviceReset => exact execDeviceReset_rel _ s State.rel_refl h
  | sbWrite => exact execSbWrite_rel _ s State.rel_refl h
  | registerWrite => exact execRegisterWrite_rel _ _ _ _ _ s State.rel_refl h
  | ppsEdgeLate => exact execPpsEdgeLate_rel s State.rel_refl h
  | engineWatchdog => exact execEngineWatchdog_rel _ _ s State.rel_refl h
  | periodicRetraining => exact execPeriodicRetraining_rel _ _ _ s State.rel_refl h
  | vddAonRemoval => exact execVddAonRemoval_rel s State.rel_refl h
  | railOutOfRange => exact execRailOutOfRange_rel _ s State.rel_refl h
  | hostPortLinkUp => exact execHostPortLinkUp_rel _ _ _ _ _ _ s State.rel_refl h
  | laneEnable => exact execLaneEnable_rel _ _ s State.rel_refl h
  | cxlMemHostAccess => exact execCxlMemHostAccess_rel _ _ _ s State.rel_refl h
  | countingClock => exact execCountingClock_rel _ _ _ s State.rel_refl h
  | lowHalfRead => exact execLowHalfRead_rel _ _ _ _ s State.rel_refl h
  | testAccessInstruction => exact execTestAccessInstruction_rel _ s State.rel_refl h

theorem exec_keeps {c : Instr} {s t : State} (h : exec c s = .next t) : s.Keeps t := (exec_rel h).keeps

theorem tick_keeps (s : State) : s.Keeps s.tick := (State.tick_rel s State.rel_refl).keeps

theorem step_of_pending_nil {s : State} (hp : s.pending = []) : step s = .next s.tick := by
  simp only [step, hp]

theorem step_of_pending_cons {s : State} {c : Instr} {rest : List Instr} (hp : s.pending = c :: rest) :
    step s = exec c { s with pending := rest } := by
  simp only [step, hp]

/-- A step keeps, of the state with its front command taken off the queue, what no command changes. -/
theorem step_keeps {s t : State} (h : step s = .next t) : State.Keeps { s with pending := s.pending.tail } t := by
  cases hp : s.pending with
  | nil =>
    rw [step_of_pending_nil hp] at h
    obtain rfl : s.tick = t := by injection h
    obtain ⟨fuses, pending, regsOk, memOk⟩ := tick_keeps s
    exact ⟨fuses, by rw [pending, hp, List.tail_nil], regsOk, memOk⟩
  | cons c rest =>
    rw [step_of_pending_cons hp] at h
    exact exec_keeps h

end Sys2Proof.Machine

/-- Settles O2: the front command, or the passing of time when none waits, keeps what no command changes. -/
theorem everyStepKeepsTheCanonicalForms : Obligations.EveryStepKeepsTheCanonicalForms := by
  intro s t h
  obtain ⟨fuses, pending, regsOk, memOk⟩ := Sys2Proof.Machine.step_keeps h
  exact ⟨regsOk, memOk, fuses, pending⟩

/-! What the ends keep of a state, and that the commands of links, routing, fabric time, power, start-up, faults,
counters and single registers leave it alone. The shared operations' part of it is in Laws/Frames.lean. -/

namespace Sys2Proof.Machine

open Host (Outcome)

theorem State.ite_keeps {β : Type} (F : State → β) {s a b : State} {c : Prop} [Decidable c] (ha : F a = F s)
    (hb : F b = F s) : F (if c then a else b) = F s := by
  split
  · exact ha
  · exact hb

theorem State.foldl_keeps {α β : Type} (F : State → β) {f : State → α → State} (hf : ∀ s a, F (f s a) = F s) (l : List α)
    (s : State) : F (l.foldl f s) = F s := by
  induction l generalizing s with
  | nil => rfl
  | cons a l ih => rw [List.foldl_cons, ih, hf]

/-- What the ends keep: connections and messages, work objects, matching, groups, word operations, GDDR7, injection,
translation and host ports. -/
def State.ends (s : State) :
    Transport × Objects × Matching × Collectives × Atu × Gddr × Inject × Translation × HostPorts :=
  (s.xpt, s.obj, s.mat, s.col, s.atu, s.ram, s.inj, s.xlt, s.hpt)

theorem State.ends_ite {s a b : State} {c : Prop} [Decidable c] (ha : a.ends = s.ends) (hb : b.ends = s.ends) :
    (if c then a else b).ends = s.ends :=
  State.ite_keeps State.ends ha hb

theorem State.foldl_ends {α : Type} {f : State → α → State} (hf : ∀ s a, (f s a).ends = s.ends) (l : List α)
    (s : State) : (l.foldl f s).ends = s.ends :=
  State.foldl_keeps State.ends hf l s

/-- A write of set-up space leaves the ends alone if what it does on a chip that is not halted does. -/
theorem State.setup_ends {s t : State} (h : t.ends = s.ends) : (s.setup t).ends = s.ends :=
  State.ends_ite rfl h

/-! ### The receive path and the sideband port, around what they run -/

theorem State.receive_ends (s : State) (c : Cell) {k : State → State} (hk : ∀ u, (k u).ends = u.ends) :
    (s.receive c k).ends = s.ends := by
  have arrived : (s.arrive c).ends = s.ends := by simp [State.ends]
  unfold State.receive
  repeat' refine State.ends_ite ?_ ?_
  · rfl
  · simp [State.ends]
  · simp [State.ends]
  · simp [State.ends]
  · rw [hk, arrived]

theorem State.receiveMgmt_ends (s : State) (c : Cell) (kind : Nat) {k : State → State} (hk : ∀ u, (k u).ends = u.ends) :
    (s.receiveMgmt c kind k).ends = s.ends :=
  State.ends_ite rfl (State.receive_ends s c fun u =>
    State.ends_ite (by simp [State.ends]) (State.ends_ite (hk u) rfl))

theorem State.sbCount_ends (s : State) : s.sbCount.ends = s.ends := by simp [State.ends]

theorem State.sbTake_ends (s : State) (ok writes : Bool) {run : State → State} (h : ∀ u, (run u).ends = u.ends) :
    (s.sbTake ok writes run).ends = s.ends :=
  State.ends_ite rfl (State.ends_ite (by simp [State.ends]) (State.ends_ite rfl (h s)))

/-- A sideband command that is counted and runs on a chip that is not halted. -/
theorem State.sbCount_sbLive_ends (s : State) {run : State → State} (h : ∀ u, (run u).ends = u.ends) :
    (s.sbCount.sbLive run).ends = s.ends :=
  Eq.trans (State.ends_ite (s := s.sbCount) rfl (h _)) s.sbCount_ends

/-! ### The operations of single commands -/

theorem State.claimOutput_ends {s t : State} {p d : Nat} {c : Cell} {inp : Option Nat}
    (h : s.claimOutput p d c inp = some t) : t.ends = s.ends := by
  unfold State.claimOutput at h
  dsimp only at h
  split at h
  · cases h
  · cases h; rfl

theorem State.switchTransit_ends (s : State) (p : Nat) (w : Window) (c : Cell) :
    (s.switchTransit p w c).ends = s.ends := by
  unfold State.switchTransit
  repeat' refine State.ends_ite ?_ ?_
  · simp [State.ends]
  · rfl
  · simp [State.ends]
  · simp [State.ends]
  · dsimp only
    generalize claimed : State.claimOutput _ _ _ _ _ = o
    cases o with
    | none => simp [State.ends]
    | some t =>
      have kept : t.ends = s.ends := (State.claimOutput_ends claimed).trans (by simp [State.ends])
      have counted : (t.bump Reg.CTL_CRC_FWD).ends = t.ends := by simp [State.ends]
      exact State.ends_ite kept (counted.trans kept)

theorem State.takeTransitCell_ends (s : State) (p : Nat) (c : Cell) : (s.takeTransitCell p c).ends = s.ends := by
  unfold State.takeTransitCell
  refine State.ends_ite rfl ?_
  dsimp only
  split
  · simp [State.ends]
  · exact State.ends_ite (by simp [State.ends]) (State.switchTransit_ends _ _ _ _)

theorem State.writeStall_ends (s : State) (p : Nat) (acked : Bool) : (s.writeStall p acked).ends = s.ends :=
  State.ends_ite (by simp [State.ends]) (State.ends_ite (by simp [State.ends]) rfl)

theorem State.readFailed_ends (s : State) (p f : Nat) (timeout : Bool) : (s.readFailed p f timeout).ends = s.ends :=
  State.ends_ite (by simp [State.ends]) rfl

theorem State.extCtrlWrite_ends (s : State) (i n : Nat) (w : Word) : (s.extCtrlWrite i n w).ends = s.ends := by
  unfold State.extCtrlWrite
  repeat' refine State.ends_ite ?_ ?_
  all_goals simp [State.ends]

theorem State.xltCtrlWrite_ends (s : State) (w : Word) : (s.xltCtrlWrite w).ends = s.ends :=
  State.ends_ite (by simp [State.ends]) (by simp [State.ends])

theorem State.instMapWrite_ends (s : State) (i : Nat) (w : Word) : (s.instMapWrite i w).ends = s.ends := by
  unfold State.instMapWrite
  repeat' refine State.ends_ite ?_ ?_
  · rfl
  all_goals simp [State.ends]

theorem State.sendMsi_ends (s : State) : s.sendMsi.ends = s.ends := State.ends_ite rfl rfl

theorem State.forceSources_ends (s : State) (blk : Nat) (is : List Nat) : (s.forceSources blk is).ends = s.ends := by
  simp [State.ends]

theorem State.scrubbed_ends (s : State) (n info : Nat) : ((s.bump Reg.MEM_CORRECTED).raise blkMEM n info).ends = s.ends := by
  simp [State.ends]

theorem State.read4_ends (s : State) (who a : Nat) : (s.read4 who a).1.ends = s.ends := by simp [State.ends]

theorem State.clearStatus_ends (s : State) (blk : Nat) (w : Word) : (s.clearStatus blk w).ends = s.ends := by
  simp only [State.ends, State.clearStatus_frame]

theorem State.clearUnack_ends (s : State) (blk : Nat) (w : Word) : (s.clearUnack blk w).ends = s.ends := by
  simp only [State.ends, State.clearUnack_frame]

theorem State.clearFirst_ends (s : State) (blk : Nat) (w : Word) : (s.clearFirst blk w).ends = s.ends := by
  simp only [State.ends, State.clearFirst_frame]

/-! ### The commands -/

/-- A command ends in the state that its meaning names. -/
theorem State.ends_of_next {s t u : State} (h : (Outcome.next u : Outcome State Fault Refusal) = .next t)
    (e : u.ends = s.ends) : t.ends = s.ends := by
  cases h
  exact e

/-- The commands are grouped by the shape of their meaning. -/
theorem exec_ends {c : Instr} {s t : State} (hc : chipCommand c = true) (h : exec c s = .next t) : t.ends = s.ends := by
  cases c with
  -- operations that Laws/Frames.lean knows, one after another
  | forcedRetirement | scheduleEpochRetire | tsExchange | timeInLost | timNowRead | xltFaultInfoRead | codeword | linkLost
  | linkDown | thermalSample | brownout | cntValRead | firmwareLoad | ppsEdgeLate | engineWatchdog | countingClock =>
    exact State.ends_of_next h (by simp [State.ends])
  -- such operations where the command's event is enabled, and nothing elsewhere
  | exchangeMissed | holdoverLimit | holdoverLinkRaise | nakRepeat | noReplayTimeout | wakePattern | laneExitTimeout
  | trainingTimeout | trainingRetry | rebuildDone | wakeEvent =>
    exact State.ends_of_next h (State.ends_ite (by simp [State.ends]) rfl)
  | standingReturn | digestTimeout => exact State.ends_of_next h (State.ends_ite rfl (by simp [State.ends]))
  -- a control word that is heard, and acted on where its event is enabled
  | tsReq | tsResp | mark | nak | phase | wake =>
    exact State.ends_of_next h (State.ends_ite (by simp [State.ends]) (by simp [State.ends]))
  | replay =>
    exact State.ends_of_next h (State.ends_ite (by simp [State.ends])
      (State.ends_ite (by simp [State.ends]) (by simp [State.ends])))
  -- writes of set-up space
  | endpointWrite | setArm | timCtrlWrite | xsrcRead | xsrcWrite | retrain | memEnable | memHostBaseWrite | pwrTileReq
  | cntSelWrite | cntCtrlEnable | devReset | sbWrite | laneEnable =>
    exact State.ends_of_next h (State.setup_ends (by simp [State.ends]))
  | devlistLock w => exact State.ends_of_next h (State.setup_ends (s.xltCtrlWrite_ends _))
  | instMapWrite i w => exact State.ends_of_next h (State.setup_ends (s.instMapWrite_ends _ _))
  | phaseReq l target power =>
    exact State.ends_of_next h (State.ends_ite rfl (State.ends_ite (by simp [State.ends])
      (State.setup_ends (by simp [State.ends]))))
  | extentValidSet i n w => exact State.ends_of_next h (State.ends_ite (s.extCtrlWrite_ends _ _ _) rfl)
  | fltForce blk w => exact State.ends_of_next h (State.ends_ite (s.forceSources_ends _ _) rfl)
  | fltStatusClear blk w => exact State.ends_of_next h (State.ends_ite (s.clearStatus_ends _ _) rfl)
  | fltUnackClear blk w => exact State.ends_of_next h (State.ends_ite (s.clearUnack_ends _ _) rfl)
  | fltFirstClear blk w => exact State.ends_of_next h (State.ends_ite (s.clearFirst_ends _ _) rfl)
  -- cells
  | route k => exact State.ends_of_next h (by split <;> simp [State.ends])
  | drain l c =>
    exact State.ends_of_next h (s.receiveMgmt_ends _ _ fun u => State.ends_ite (by simp [State.ends]) rfl)
  | transitDown c => exact State.ends_of_next h (s.receiveMgmt_ends _ _ fun u => by simp [State.ends])
  | transitCell l c => exact State.ends_of_next h (s.takeTransitCell_ends _ _)
  -- tiles, links and fabric time
  | launchPowerRaise k =>
    refine State.ends_of_next h ?_
    split
    · exact State.ends_ite (by simp [State.ends]) rfl
    · rfl
  | laneHold l hold => exact State.ends_of_next h (State.ends_ite (State.ends_ite (by simp [State.ends]) rfl) rfl)
  | scheduleWake l =>
    exact State.ends_of_next h (State.ends_ite (State.ends_ite (by split <;> simp [State.ends])
      (by split <;> simp [State.ends])) rfl)
  | standbyTakeover =>
    refine State.ends_of_next h (State.ends_ite ?_ rfl)
    dsimp only
    split <;> simp [State.ends]
  | timeOutPulse => exact State.ends_of_next h (State.ends_ite rfl rfl)
  -- host ports, memory, faults
  | writeStall p acked => exact State.ends_of_next h (s.writeStall_ends _ _)
  | cplTimeout p f | poison p f => exact State.ends_of_next h (s.readFailed_ends _ _ _)
  | patrolScrub corrected =>
    exact State.ends_of_next h (State.foldl_ends (fun u _ => State.ends_ite (u.scrubbed_ends _ _) rfl) _ s)
  | msiXMessage => exact State.ends_of_next h s.sendMsi_ends
  | errNPulseEnd => exact State.ends_of_next h (State.ends_ite rfl (State.ends_ite (by simp [State.ends]) rfl))
  -- start-up and sideband
  | powerUp owner sbOnly sbAddr | selfTest fail =>
    exact State.ends_of_next h (State.ends_ite rfl (by split <;> simp [State.ends]))
  | resetN low => exact State.ends_of_next h (State.ends_ite rfl rfl)
  | regRead ok a =>
    exact State.ends_of_next h (s.sbTake_ends _ _ fun u => (State.read4_ends _ _ _).trans u.sbCount_ends)
  | imageOpen ok target len crc plan =>
    exact State.ends_of_next h (s.sbTake_ends _ _ fun u => u.sbCount_sbLive_ends fun v => by
      split <;> simp [State.ends])
  | imageData ok off data =>
    exact State.ends_of_next h (s.sbTake_ends _ _ fun u => u.sbCount_sbLive_ends fun v => by simp [State.ends])
  | deviceReset ok => exact State.ends_of_next h (s.sbTake_ends _ _ fun u => u.sbCount_ends)
  | testAccessInstruction inst => exact State.ends_of_next h (by split <;> rfl)
  -- no chip command
  | _ => exact absurd hc Bool.false_ne_true

end Sys2Proof.Machine

/-- Settles O5: the parts of the state that it names are those of `State.ends`. -/
theorem chipCommandsLeaveTheEndsAlone : Obligations.ChipCommandsLeaveTheEndsAlone := by
  intro c s t hc h
  simpa only [Sys2Proof.Machine.State.ends, Prod.mk.injEq] using Sys2Proof.Machine.exec_ends hc h

/-! The routing of a held cell (04 R127-R132): what each branch of `State.routeCell` does, and what a picked port satisfies. -/

namespace Sys2Proof.Machine

/-- What registers read is fixed by the register file and the part. -/
theorem State.rd_eq_of_regs {s t : State} (hr : t.regs = s.regs) (hp : t.part = s.part) (a : Nat) : t.rd a = s.rd a := by
  simp only [State.rd, hr, hp]

theorem State.fld_eq_of_regs {s t : State} (hr : t.regs = s.regs) (hp : t.part = s.part) (f : Fld) : t.fld f = s.fld f := by
  simp only [State.fld, State.rd64, State.rd_eq_of_regs hr hp]

@[simp] theorem State.release_rd (s : State) (h : HeldCell) (a : Nat) : (s.release h).rd a = s.rd a :=
  State.rd_eq_of_regs (by simp) (by simp) a

/-- A discard counts once (04 R138). -/
theorem State.dropCell_rd_self (s : State) (h : HeldCell) (a : Nat) : (s.dropCell h a).rd a = s.rd a + 1#32 := by
  simp [State.dropCell, State.bump]

theorem State.dropCell_rt (s : State) (h : HeldCell) (a : Nat) : (s.dropCell h a).rt = s.rt := by simp

/-! ### The pick of a port -/

theorem State.mem_eligiblePorts {s : State} {cls spray p : Nat} (hp : p ∈ s.eligiblePorts cls spray) :
    s.eligible cls p = true ∧ spray.testBit p = true := by
  simp only [State.eligiblePorts, List.mem_filter, Bool.and_eq_true] at hp
  exact ⟨hp.2.2, hp.2.1⟩

theorem mem_mergeCands {a b : List (Nat × Nat × Bool)} {x : Nat × Nat × Bool} (hx : x ∈ mergeCands a b) :
    x ∈ a ∨ x ∈ b := by
  induction a generalizing b with
  | nil => exact .inr hx
  | cons y a ih =>
    simp only [mergeCands, List.mem_append, List.mem_cons, List.mem_filter] at hx
    obtain ⟨hb, -⟩ | rfl | hm := hx
    · exact .inr hb
    · exact .inl (List.mem_cons_self ..)
    · obtain ha | hb := ih hm
      · exact .inl (List.mem_cons_of_mem _ ha)
      · exact .inr (List.mem_filter.1 hb).1

theorem mem_of_pickAt {l : List (Nat × Nat × Bool)} {r p : Nat} {d : Bool} (h : pickAt l r = some (p, d)) :
    ∃ w, (p, w, d) ∈ l := by
  induction l generalizing r with
  | nil => cases h
  | cons x l ih =>
    obtain ⟨q, w, e⟩ := x
    rw [pickAt] at h
    split at h
    · cases h
      exact ⟨w, List.mem_cons_self ..⟩
    · obtain ⟨w, hw⟩ := ih h
      exact ⟨w, List.mem_cons_of_mem _ hw⟩

/-- Cell `h` stands last in the queue of an eligible port of image `img`, with at most CM set (04 R128, R132); of the routing
state nothing else differs from `s`. -/
def State.Queued (s : State) (h : HeldCell) (img : Nat) (rt : Routing) : Prop :=
  ∃ p n d c, s.eligible h.cell.cls p = true ∧ (sprayOf img n).testBit p = true ∧ (c = h.cell ∨ c = h.cell.withCM) ∧
    rt = { s.rt with outQ := Map.set s.rt.outQ p (s.queueOf p ++ [{ h with cell := c, detour := d }]) }

theorem State.enqueue_queued {s u : State} {h : HeldCell} {img p n : Nat} (hu : u.rt = s.rt) (d : Bool)
    (he : s.eligible h.cell.cls p = true) (hn : (sprayOf img n).testBit p = true) :
    s.Queued h img (u.enqueue p h d).rt := by
  refine ⟨p, n, d, _, he, hn, ?_, by rw [State.enqueue, State.queueOf, State.queueOf, hu]⟩
  split
  · exact .inr rfl
  · exact .inl rfl

/-- Every candidate is a port of the minimal set or of the detour's (04 R129). -/
theorem State.candidate_eligible {s : State} {cls img p w : Nat} {d : Bool} {minimal detour : List Nat}
    (hm : ∀ q ∈ minimal, ∃ n, q ∈ s.eligiblePorts cls (sprayOf img n))
    (hd : ∀ q ∈ detour, ∃ n, q ∈ s.eligiblePorts cls (sprayOf img n))
    (hx : (p, w, d) ∈ (mergeCands (minimal.map (fun p => (p, s.minWeight p, false)))
      (detour.map (fun p => (p, s.detourWeight p, true)))).filter (fun x => x.2.1 != 0)) :
    ∃ n, s.eligible cls p = true ∧ (sprayOf img n).testBit p = true := by
  obtain ⟨n, hn⟩ : ∃ n, p ∈ s.eligiblePorts cls (sprayOf img n) := by
    obtain ha | hb := mem_mergeCands (List.mem_filter.1 hx).1
    · obtain ⟨q, hq, e⟩ := List.mem_map.1 ha
      cases e
      exact hm _ hq
    · obtain ⟨q, hq, e⟩ := List.mem_map.1 hb
      cases e
      exact hd _ hq
  exact ⟨n, State.mem_eligiblePorts hn⟩

/-- The pick of a port leaves the routing state alone, or queues the cell. -/
theorem State.pickPort_rt (s : State) (h : HeldCell) (img : Nat) :
    (s.pickPort h img).rt = s.rt ∨ s.Queued h img (s.pickPort h img).rt := by
  unfold State.pickPort
  dsimp only
  split
  · left
    simp [apply_ite State.rt]
  next p d picked =>
    obtain ⟨w, hw⟩ := mem_of_pickAt picked
    obtain ⟨n, he, hn⟩ := State.candidate_eligible (fun q hq => ⟨_, hq⟩) (fun q hq => by
      split at hq
      · exact ⟨_, (List.mem_filter.1 hq).1⟩
      · cases hq) hw
    exact .inr (State.enqueue_queued (by simp [apply_ite State.rt]) d he hn)

/-! ### The cases of R127 -/

variable {s : State} {h : HeldCell}

/-- A cell that is link-local or for this chip is delivered (04 R123, R127). -/
theorem State.routeCell_here (here : h.cell.linkLocal = true ∨ (s.addressed = true ∧ h.cell.dst = s.addr)) :
    s.routeCell h = { s with rt := { s.rt with delivered := s.rt.delivered ++ [h] } } := by
  unfold State.routeCell
  dsimp only
  obtain hl | ⟨ha, hd⟩ := here
  · rw [if_pos hl]
  · simp [ha, hd]

theorem State.routeCell_unaddressed (hl : h.cell.linkLocal = false) (ha : s.addressed = false) :
    s.routeCell h = s.dropCell h Reg.CTL_DROP_NOROUTE := by
  simp [State.routeCell, hl, ha]

theorem State.routeCell_unroutable (hl : h.cell.linkLocal = false) (ha : s.addressed = true) (hd : h.cell.dst ≠ s.addr)
    (hr : routableSt (s.repoch h.cell.epo) = false) : s.routeCell h = s.dropCell h Reg.CTL_DROP_EPOCH := by
  simp [State.routeCell, hl, ha, hd, hr]

theorem State.routeCell_overLimit (hl : h.cell.linkLocal = false) (ha : s.addressed = true) (hd : h.cell.dst ≠ s.addr)
    (hr : routableSt (s.repoch h.cell.epo) = true) (hh : s.fld F.CTL_ROUTE_CTRL_HOP_LIMIT ≤ h.cell.hop) :
    s.routeCell h = s.dropCell h Reg.CTL_DROP_HOP := by
  simp [State.routeCell, hl, ha, hd, hr, hh]

theorem State.routeCell_routed (hl : h.cell.linkLocal = false) (ha : s.addressed = true) (hd : h.cell.dst ≠ s.addr)
    (hr : routableSt (s.repoch h.cell.epo) = true) (hh : ¬ s.fld F.CTL_ROUTE_CTRL_HOP_LIMIT ≤ h.cell.hop) :
    s.routeCell h = s.pickPort h (s.rtable h.cell.epo) := by
  simp [State.routeCell, hl, ha, hd, hr, hh]

/-- A cell that is not delivered leaves the routing state alone, or is queued by its epoch's image. -/
theorem State.routeCell_rt (away : ¬ (h.cell.linkLocal = true ∨ (s.addressed = true ∧ h.cell.dst = s.addr))) :
    (s.routeCell h).rt = s.rt ∨ s.Queued h (s.rtable h.cell.epo) (s.routeCell h).rt := by
  obtain ⟨hl, hd⟩ := not_or.1 away
  have hl : h.cell.linkLocal = false := by simpa using hl
  cases ha : s.addressed with
  | false => exact .inl (by rw [State.routeCell_unaddressed hl ha, State.dropCell_rt])
  | true =>
    have hd : h.cell.dst ≠ s.addr := fun e => hd ⟨ha, e⟩
    cases hr : routableSt (s.repoch h.cell.epo) with
    | false => exact .inl (by rw [State.routeCell_unroutable hl ha hd hr, State.dropCell_rt])
    | true =>
      by_cases hh : s.fld F.CTL_ROUTE_CTRL_HOP_LIMIT ≤ h.cell.hop
      · exact .inl (by rw [State.routeCell_overLimit hl ha hd hr hh, State.dropCell_rt])
      · rw [State.routeCell_routed hl ha hd hr hh]
        exact State.pickPort_rt s h _

theorem State.Queued.held {img : Nat} {rt : Routing} (hq : s.Queued h img rt) : rt.held = s.rt.held := by
  obtain ⟨p, n, d, c, -, -, -, rfl⟩ := hq
  rfl

theorem State.Queued.delivered {img : Nat} {rt : Routing} (hq : s.Queued h img rt) : rt.delivered = s.rt.delivered := by
  obtain ⟨p, n, d, c, -, -, -, rfl⟩ := hq
  rfl

theorem State.routeCell_delivered (away : ¬ (h.cell.linkLocal = true ∨ (s.addressed = true ∧ h.cell.dst = s.addr))) :
    (s.routeCell h).rt.delivered = s.rt.delivered := by
  obtain e | hq := State.routeCell_rt away
  · rw [e]
  · exact hq.delivered

theorem State.routeCell_held : (s.routeCell h).rt.held = s.rt.held := by
  by_cases here : h.cell.linkLocal = true ∨ (s.addressed = true ∧ h.cell.dst = s.addr)
  · rw [State.routeCell_here here]
  · obtain e | hq := State.routeCell_rt here
    · rw [e]
    · exact hq.held

theorem State.routeCell_outQ (hq : (s.routeCell h).rt.outQ ≠ s.rt.outQ) :
    s.Queued h (s.rtable h.cell.epo) (s.routeCell h).rt := by
  by_cases here : h.cell.linkLocal = true ∨ (s.addressed = true ∧ h.cell.dst = s.addr)
  · exact absurd (by rw [State.routeCell_here here]) hq
  · exact (State.routeCell_rt here).resolve_left fun e => hq (by rw [e])

/-- What the handling of a held cell does, cell by cell (04 R127). -/
theorem State.routeCell_spec (s : State) (h : HeldCell) :
    (h.cell.linkLocal = true ∨ (s.addressed = true ∧ h.cell.dst = s.addr) →
      (s.routeCell h).rt.delivered = s.rt.delivered ++ [h] ∧ (s.routeCell h).regs = s.regs) ∧
    (h.cell.linkLocal = false → s.addressed = false → (s.routeCell h).rt.delivered = s.rt.delivered ∧
      (s.routeCell h).rd Reg.CTL_DROP_NOROUTE = s.rd Reg.CTL_DROP_NOROUTE + 1#32) ∧
    (h.cell.linkLocal = false → s.addressed = true → h.cell.dst ≠ s.addr →
      (s.routeCell h).rt.delivered = s.rt.delivered ∧
      (routableSt (s.repoch h.cell.epo) = false → (s.routeCell h).rt.outQ = s.rt.outQ ∧
        (s.routeCell h).rd Reg.CTL_DROP_EPOCH = s.rd Reg.CTL_DROP_EPOCH + 1#32) ∧
      (routableSt (s.repoch h.cell.epo) = true → s.fld F.CTL_ROUTE_CTRL_HOP_LIMIT ≤ h.cell.hop →
        (s.routeCell h).rt.outQ = s.rt.outQ ∧
        (s.routeCell h).rd Reg.CTL_DROP_HOP = s.rd Reg.CTL_DROP_HOP + 1#32)) := by
  refine ⟨fun here => ?_, fun hl ha => ?_, fun hl ha hd => ⟨State.routeCell_delivered (by simp [hl, hd]), fun hr => ?_,
    fun hr hh => ?_⟩⟩
  · rw [State.routeCell_here here]
    exact ⟨rfl, rfl⟩
  · rw [State.routeCell_unaddressed hl ha]
    exact ⟨by rw [State.dropCell_rt], State.dropCell_rd_self ..⟩
  · rw [State.routeCell_unroutable hl ha hd hr]
    exact ⟨by rw [State.dropCell_rt], State.dropCell_rd_self ..⟩
  · rw [State.routeCell_overLimit hl ha hd hr hh]
    exact ⟨by rw [State.dropCell_rt], State.dropCell_rd_self ..⟩

/-- The state that holds its `k`-th cell no more. -/
def State.unheld (s : State) (k : Nat) : State := { s with rt := { s.rt with held := s.rt.held.eraseIdx k } }

theorem execRoute_held {k : Nat} (held : s.rt.held[k]? = some h) :
    exec (.route k) s = .next ((s.unheld k).routeCell h) := by
  show Host.Outcome.next _ = _
  rw [held]
  rfl

/-! ### The endpoint address -/

theorem execEndpointWrite_ignored {w : Word} (hi : s.halted = true ∨ s.addressed = true) :
    exec (.endpointWrite w) s = .next s := by
  show Host.Outcome.next (s.setup (s.endpointWrite w)) = _
  unfold State.setup State.endpointWrite
  obtain hh | ha := hi
  · rw [if_pos hh]
  · rw [if_pos ha, ite_self]

theorem execEndpointWrite_first (w : Word) (hh : s.halted = false) (ha : s.addressed = false) :
    exec (.endpointWrite w) s = .next (s.wr Reg.CTL_ENDPOINT ((w &&& 0x1FFFF#32) ||| 0x80000000#32)) := by
  show Host.Outcome.next (s.setup (s.endpointWrite w)) = _
  simp [State.setup, State.endpointWrite, hh, ha]

/-- The register that the write leaves holds the address in its low 17 bits, and LOCKED (04 R122). -/
theorem lockedAddress_bits (w : Word) :
    bits ((w &&& 0x1FFFF#32) ||| 0x80000000#32) 16 0 = bits w 16 0 ∧
      bits ((w &&& 0x1FFFF#32) ||| 0x80000000#32) 31 31 = 1 := by
  have low : ∀ i < 17, (0x1FFFF#32).getLsbD i = true ∧ (0x80000000#32).getLsbD i = false := by decide
  constructor
  · refine Nat.eq_of_testBit_eq fun i => ?_
    rw [testBit_bits, testBit_bits]
    by_cases hi : i < 17
    · simp [low i hi]
    · simp [hi]
  · refine Nat.eq_of_testBit_eq fun i => ?_
    rw [testBit_bits]
    cases i with
    | zero => simp
    | succ i => simp [Nat.testBit_succ]

end Sys2Proof.Machine

section

open Sys2Proof.Machine

/-- Settles O19: the cases of `State.routeCell_spec` and of `State.routeCell_outQ`, after the cell has left its place. -/
theorem heldCellsAreDeliveredOrCounted : Obligations.HeldCellsAreDeliveredOrCounted := by
  constructor
  · refine fun w s => ⟨execEndpointWrite_ignored, fun hh ha => ⟨_, execEndpointWrite_first w hh ha, ?_⟩⟩
    obtain ⟨addr, locked⟩ := lockedAddress_bits w
    refine ⟨?_, ?_, fun a other => State.rd_wr_other _ _ _ _ other, rfl⟩
    · simpa [State.addr, State.fld, F.CTL_ENDPOINT_ADDR] using addr
    · simp [State.addressed, State.flag, State.fld, F.CTL_ENDPOINT_LOCKED, locked]
  · intro k s h held
    obtain ⟨here, unaddressed, away⟩ := (s.unheld k).routeCell_spec h
    refine ⟨_, execRoute_held held, State.routeCell_held, here, unaddressed, away, fun hq => ?_⟩
    obtain ⟨p, n, d, c, he, hn, hc, queued⟩ := State.routeCell_outQ hq
    exact ⟨p, n, d, c, he, hn, hc, congrArg Routing.outQ queued⟩

end

/-! The drain and the retirement of epochs, and what a chip does at a tide (04 R144, 05 R176, R606). -/

namespace Sys2Proof.Machine

/-! ### Epoch states in their registers -/

theorem State.repoch_eq_of_regs {s t : State} (hr : t.regs = s.regs) (hp : t.part = s.part) (e : Nat) :
    t.repoch e = s.repoch e := by
  simp only [State.repoch, State.fld_eq_of_regs hr hp]

/-- A field of a 32-bit register is fixed by what the register reads. -/
theorem State.fld_eq_of_rd {s t : State} {f : Fld} {a : Nat} (ha : f.addr = a) (h32 : f.hi < 32) (h : t.rd a = s.rd a) :
    t.fld f = s.fld f := by
  simp only [State.fld, if_pos h32, ha, h]

theorem State.rd_dropCell_other {s : State} {h : HeldCell} {a b : Nat} (hb : b ≠ a) : (s.dropCell h a).rd b = s.rd b := by
  simp [State.dropCell, State.bump, hb]

/-- The state of route epoch `e` is what was set, in the three bits of its field. -/
theorem State.repoch_setRepoch_self (s : State) (e n : Nat) : (s.setRepoch e n).repoch e = n % 8 := by
  unfold State.repoch State.setRepoch
  split
  · exact State.fld_setFld s F.CTL_ROUTE_EPOCH_E0_STATE n (by decide) (by decide)
  · exact State.fld_setFld s F.CTL_ROUTE_EPOCH_E1_STATE n (by decide) (by decide)

/-- Setting the state of one route epoch leaves that of the other. -/
theorem State.repoch_setRepoch_other (s : State) {e e' : Nat} (n : Nat) (he : e < 2) (he' : e' < 2) (hne : e' ≠ e) :
    (s.setRepoch e n).repoch e' = s.repoch e' := by
  obtain ⟨rfl, rfl⟩ | ⟨rfl, rfl⟩ : e = 0 ∧ e' = 1 ∨ e = 1 ∧ e' = 0 := by omega
  · exact State.fld_setFld_beside s F.CTL_ROUTE_EPOCH_E0_STATE F.CTL_ROUTE_EPOCH_E1_STATE n rfl (by decide) (by decide)
  · exact State.fld_setFld_beside s F.CTL_ROUTE_EPOCH_E1_STATE F.CTL_ROUTE_EPOCH_E0_STATE n rfl (by decide) (by decide)

theorem State.repoch_setForced (s : State) (n e : Nat) :
    (s.setFld F.CTL_ROUTE_EPOCH_FORCED n).repoch e = s.repoch e := by
  unfold State.repoch
  split
  · exact State.fld_setFld_beside s F.CTL_ROUTE_EPOCH_FORCED F.CTL_ROUTE_EPOCH_E0_STATE n rfl (by decide) (by decide)
  · exact State.fld_setFld_beside s F.CTL_ROUTE_EPOCH_FORCED F.CTL_ROUTE_EPOCH_E1_STATE n rfl (by decide) (by decide)

theorem State.forced_setForced (s : State) : (s.setFld F.CTL_ROUTE_EPOCH_FORCED 1).flag F.CTL_ROUTE_EPOCH_FORCED = true := by
  have set := State.fld_setFld s F.CTL_ROUTE_EPOCH_FORCED 1 (by decide) (by decide)
  rw [State.flag, set]
  decide

theorem State.forced_setRepoch (s : State) (e n : Nat) :
    (s.setRepoch e n).flag F.CTL_ROUTE_EPOCH_FORCED = s.flag F.CTL_ROUTE_EPOCH_FORCED := by
  unfold State.flag State.setRepoch
  split
  · rw [State.fld_setFld_beside s F.CTL_ROUTE_EPOCH_E0_STATE F.CTL_ROUTE_EPOCH_FORCED n rfl (by decide) (by decide)]
  · rw [State.fld_setFld_beside s F.CTL_ROUTE_EPOCH_E1_STATE F.CTL_ROUTE_EPOCH_FORCED n rfl (by decide) (by decide)]

/-! ### Drain markers -/

theorem State.sendDrain_drainIn (s : State) (e h : Nat) : (s.sendDrain e h).rt.drainIn = s.rt.drainIn := by
  refine List.foldlRecOn (motive := fun u : State => u.rt.drainIn = s.rt.drainIn) _ _ rfl fun u hu p _ => ?_
  dsimp only
  split
  · exact hu
  · exact hu

theorem State.drainFromLevel_drainIn (s : State) (e n h : Nat) :
    (s.drainFromLevel e n h).rt.drainIn = s.rt.drainIn := by
  induction n generalizing s h with
  | zero => rfl
  | succ n ih =>
    rw [State.drainFromLevel]
    split
    · rw [ih, State.sendDrain_drainIn]
    · rfl

theorem State.drainEpoch_drainIn (s : State) (e : Nat) : (s.drainEpoch e).rt.drainIn = s.rt.drainIn := by
  unfold State.drainEpoch
  split
  · rfl
  · dsimp only
    split
    · simp [State.drainFromLevel_drainIn]
    · exact State.drainFromLevel_drainIn ..

/-- A marker for an epoch that is ACTIVE or RETIRING is kept (04 R144). -/
theorem State.mem_takeDrain (s : State) (p : Nat) (c : Cell)
    (he : s.repoch (c.pb 0 1 % 2) = esACTIVE ∨ s.repoch (c.pb 0 1 % 2) = esRETIRING) :
    (c.pb 0 1 % 2, c.pb 1 1 % 16, p) ∈ (s.takeDrain p c).rt.drainIn := by
  unfold State.takeDrain
  dsimp only
  rw [if_pos he, State.drainEpoch_drainIn]
  split
  next kept => simpa using kept
  next => exact List.mem_append_right _ (List.mem_singleton.2 rfl)

theorem State.takeDrain_discards {s : State} {p : Nat} {c : Cell} (ha : s.repoch (c.pb 0 1 % 2) ≠ esACTIVE)
    (hr : s.repoch (c.pb 0 1 % 2) ≠ esRETIRING) : s.takeDrain p c = s :=
  if_neg (not_or.2 ⟨ha, hr⟩)

theorem State.arrive_drainIn (s : State) (c : Cell) : (s.arrive c).rt.drainIn = s.rt.drainIn := by
  unfold State.arrive
  split
  · rfl
  · simp

/-- A management cell that passes its checks reaches the management logic, out of the delivered cells. -/
theorem State.receiveMgmt_of_manages {s : State} {c : Cell} {kind : Nat} (m : s.Manages c kind) (k : State → State) :
    s.receiveMgmt c kind k = k (s.arrive c) := by
  obtain ⟨⟨here, sound, format, form⟩, type, known, hk⟩ := m
  have addressed : (s.arrive c).addressed = s.addressed := by
    simp only [State.addressed, State.flag, State.fld_eq_of_regs (t := s.arrive c) (s := s) (by simp) (by simp)]
  unfold State.receiveMgmt State.receive
  rw [if_neg (fun other => other type)]
  obtain hl | ⟨ha, hd⟩ := here
  · simp [hl, sound, format, form, known, hk]
  · simp [ha, hd, addressed, sound, format, form, known, hk]

theorem execDrain_local {s : State} {l : LaneId} {c : Cell} (m : s.Manages c mgDRAIN) (hl : c.linkLocal = true) :
    exec (.drain l c) s = .next ((s.arrive c).takeDrain (s.linkOf l.val) c) := by
  have link : (s.arrive c).linkOf l.val = s.linkOf l.val := by
    simp only [State.linkOf, State.linkWidth, State.fld_eq_of_regs (t := s.arrive c) (s := s) (by simp) (by simp)]
  show Host.Outcome.next (s.receiveMgmt c mgDRAIN _) = _
  rw [State.receiveMgmt_of_manages m]
  simp only [hl, if_true, link]

/-! ### The cells stamped with an epoch -/

theorem State.stampedHere_eq_of_rt {s t : State} (h : t.rt = s.rt) (e : Nat) : t.stampedHere e = s.stampedHere e := by
  simp only [State.stampedHere, h]

/-- A cell stands in the router: held, queued or delivered. -/
def Routing.Holds (r : Routing) (x : HeldCell) : Prop :=
  x ∈ r.held ∨ (∃ q ∈ r.outQ, x ∈ q.2) ∨ x ∈ r.delivered

/-- A cell that is stamped `e` and not link-local, as a forced retirement discards it (04 R144). -/
def HeldCell.Stamped (x : HeldCell) (e : Nat) : Prop :=
  x.cell.epo = e ∧ x.cell.cls ≤ 6 ∧ x.cell.linkLocal = false

theorem State.mem_stampedHere {s : State} {e : Nat} {x : HeldCell} :
    x ∈ s.stampedHere e ↔ s.rt.Holds x ∧ x.Stamped e := by
  have queued : x ∈ (s.rt.outQ.map (·.2)).flatten ↔ ∃ q ∈ s.rt.outQ, x ∈ q.2 := by
    rw [← List.flatMap_def, List.mem_flatMap]
  simp only [State.stampedHere, List.mem_filter, List.mem_append, queued, Routing.Holds, HeldCell.Stamped,
    Bool.and_eq_true, decide_eq_true_eq, Bool.not_eq_true', or_assoc, and_assoc]

theorem Map.mem_of_get? {α : Type} {m : List (Nat × α)} {k : Nat} {v : α} (h : Map.get? m k = some v) : (k, v) ∈ m := by
  induction m with
  | nil => cases h
  | cons q m ih =>
    obtain ⟨j, w⟩ := q
    rw [Map.get?] at h
    split at h
    next e =>
      cases h
      cases e
      exact List.mem_cons_self ..
    next => exact List.mem_cons_of_mem _ (ih h)

theorem State.queueOf_holds {s : State} {p : Nat} {x : HeldCell} (hx : x ∈ s.queueOf p) : s.rt.Holds x := by
  unfold State.queueOf Map.getD at hx
  cases hq : Map.get? s.rt.outQ p with
  | none => simp [hq] at hx
  | some q =>
    rw [hq] at hx
    exact .inr (.inl ⟨(p, q), Map.mem_of_get? hq, hx⟩)

/-- A cell that stands in the router after a cell of class 6 is queued is that cell, or stood there. -/
theorem State.holds_enqueue {s : State} {p : Nat} {h x : HeldCell} {d : Bool} (h6 : h.cell.cls = 6)
    (hx : (s.enqueue p h d).rt.Holds x) : s.rt.Holds x ∨ x.cell = h.cell := by
  have plain : (if s.fld F.CTL_ROUTE_CTRL_MARK_DEPTH != 0 && s.fld F.CTL_ROUTE_CTRL_MARK_DEPTH ≤ s.qlen p && h.cell.cls ≤ 5
      then h.cell.withCM else h.cell) = h.cell := by simp [h6]
  unfold State.enqueue at hx
  simp only [plain] at hx
  obtain held | ⟨q, hq, hxq⟩ | delivered := hx
  · exact .inl (.inl held)
  · obtain rfl | old := Map.mem_set hq
    · obtain queued | new := List.mem_append.1 hxq
      · exact .inl (State.queueOf_holds queued)
      · exact .inr (by rw [List.mem_singleton.1 new])
    · exact .inl (.inr (.inl ⟨q, old, hxq⟩))
  · exact .inl (.inr (.inr delivered))

/-- The header of a marker before its CRC: the same for every epoch and level (04 R600). -/
def drainHdr : Hdr := { cls := 6, hop := 15, typ := tyMGMT, first := true, last := true }

theorem drainCell_cls (e h : Nat) : (drainCell e h).cls = 6 := by
  have header : bits drainHdr.word 93 91 = 6 := by decide
  exact (bits_setBits_other _ _ _ _ _ _ (by decide) (.inr (by decide))).trans header

theorem drainCell_hop (e h : Nat) : (drainCell e h).hop = 15 := by
  have header : bits drainHdr.word 89 86 = 15 := by decide
  exact (bits_setBits_other _ _ _ _ _ _ (by decide) (.inr (by decide))).trans header

theorem drainCell_linkLocal (e h : Nat) : (drainCell e h).linkLocal = true := by
  simp [Cell.linkLocal, drainCell_cls, drainCell_hop]

/-- The markers are link-local, so that no epoch stamps them (04 R123, R144). -/
theorem State.sendDrain_stampedHere {s : State} {e h e' : Nat} {x : HeldCell} (hx : x ∈ (s.sendDrain e h).stampedHere e') :
    x ∈ s.stampedHere e' := by
  refine List.foldlRecOn (motive := fun u : State => x ∈ u.stampedHere e' → x ∈ s.stampedHere e') _ _ id
    (fun u hu p _ => ?_) hx
  dsimp only
  split
  · exact hu
  · intro hx
    obtain ⟨holds, stamped⟩ := State.mem_stampedHere.1 hx
    obtain old | new := State.holds_enqueue (s := u) (h := { inp := none, cell := drainCell e h }) (drainCell_cls e h) holds
    · exact hu (State.mem_stampedHere.2 ⟨old, stamped⟩)
    · obtain ⟨-, -, global⟩ := stamped
      rw [new, drainCell_linkLocal] at global
      cases global

/-- The routing state that a forced retirement of epoch `e` keeps. -/
def Routing.without (r : Routing) (e : Nat) : Routing :=
  let bad := fun (h : HeldCell) => h.cell.epo == e && h.cell.cls ≤ 6 && !h.cell.linkLocal
  { r with held := r.held.filter (fun h => !bad h), delivered := r.delivered.filter (fun h => !bad h),
           outQ := Map.mapV r.outQ (fun _ q => q.filter (fun h => !bad h)) }

theorem Routing.holds_without {r : Routing} {e : Nat} {x : HeldCell} (hx : (r.without e).Holds x) :
    r.Holds x ∧ ¬ x.Stamped e := by
  have good : ∀ {l : List HeldCell}, x ∈ l.filter (fun h => !(h.cell.epo == e && h.cell.cls ≤ 6 && !h.cell.linkLocal)) →
      x ∈ l ∧ ¬ x.Stamped e := by
    intro l hl
    obtain ⟨hl, hb⟩ := List.mem_filter.1 hl
    refine ⟨hl, fun ⟨he, hc, hg⟩ => ?_⟩
    simp [he, hc, hg] at hb
  obtain held | ⟨q, hq, hxq⟩ | delivered := hx
  · exact ⟨.inl (good held).1, (good held).2⟩
  · obtain ⟨q', hq', rfl⟩ := List.mem_map.1 hq
    exact ⟨.inr (.inl ⟨q', hq', (good hxq).1⟩), (good hxq).2⟩
  · exact ⟨.inr (.inr (good delivered).1), (good delivered).2⟩

theorem State.dropStamped_rt (s : State) (e : Nat) : (s.dropStamped e).rt = s.rt.without e := by
  refine List.foldlRecOn (motive := fun u : State => u.rt = s.rt.without e) _ _ rfl fun u hu h _ => ?_
  rw [State.dropCell_rt, hu]

theorem State.dropStamped_rd {s : State} {e b : Nat} (hb : b ≠ Reg.CTL_DROP_EPOCH) : (s.dropStamped e).rd b = s.rd b := by
  refine List.foldlRecOn (motive := fun u : State => u.rd b = s.rd b) _ _ rfl fun u hu h _ => ?_
  rw [State.rd_dropCell_other hb, hu]

theorem State.mem_stampedHere_dropStamped {s : State} {e e' : Nat} {x : HeldCell} (hx : x ∈ (s.dropStamped e).stampedHere e') :
    x ∈ s.stampedHere e' ∧ ¬ x.Stamped e := by
  obtain ⟨holds, stamped⟩ := State.mem_stampedHere.1 hx
  rw [State.dropStamped_rt] at holds
  obtain ⟨old, other⟩ := Routing.holds_without holds
  exact ⟨State.mem_stampedHere.2 ⟨old, stamped⟩, other⟩

/-! ### Forced retirement -/

/-- The markers of every level that a forced retirement sends. -/
def State.sendDrains (s : State) (e n : Nat) : State := (List.range n).foldl (fun s h => s.sendDrain e h) s

theorem State.sendDrains_regs (s : State) (e n : Nat) : (s.sendDrains e n).regs = s.regs := by
  simp [State.sendDrains]

theorem State.sendDrains_part (s : State) (e n : Nat) : (s.sendDrains e n).part = s.part := by
  simp [State.sendDrains]

theorem State.sendDrains_stampedHere {s : State} {e n e' : Nat} {x : HeldCell}
    (hx : x ∈ (s.sendDrains e n).stampedHere e') : x ∈ s.stampedHere e' :=
  List.foldlRecOn (motive := fun u : State => x ∈ u.stampedHere e' → x ∈ s.stampedHere e') _ _ id
    (fun _ hu _ _ hx => hu (State.sendDrain_stampedHere hx)) hx

theorem State.forceRetire_other {s : State} {e : Nat} (he : s.repoch e ≠ esRETIRING) : s.forceRetire e = s := if_pos he

theorem State.forceRetire_retiring {s : State} {e : Nat} (he : s.repoch e = esRETIRING) :
    ∃ n, s.forceRetire e =
      (((s.dropStamped e).sendDrains e n).setFld F.CTL_ROUTE_EPOCH_FORCED 1).setRepoch e esIDLE :=
  ⟨_, if_neg (fun other => other he)⟩

/-- A forced retirement reads the epochs' states as they were until it sets its own. -/
theorem State.repoch_dropped (s : State) (e n e' : Nat) :
    (((s.dropStamped e).sendDrains e n).setFld F.CTL_ROUTE_EPOCH_FORCED 1).repoch e' = s.repoch e' := by
  have kept : ((s.dropStamped e).sendDrains e n).rd Reg.CTL_ROUTE_EPOCH = s.rd Reg.CTL_ROUTE_EPOCH := by
    rw [State.rd_eq_of_regs (State.sendDrains_regs _ _ _) (State.sendDrains_part _ _ _)]
    exact State.dropStamped_rd (by decide)
  rw [State.repoch_setForced]
  unfold State.repoch
  split
  · exact State.fld_eq_of_rd rfl (by decide) kept
  · exact State.fld_eq_of_rd rfl (by decide) kept

/-- What the forced retirement of a RETIRING epoch does to it (04 R144). -/
theorem State.forceRetire_retires {s : State} {e : Nat} (he : s.repoch e = esRETIRING) :
    (s.forceRetire e).repoch e = esIDLE ∧ (s.forceRetire e).flag F.CTL_ROUTE_EPOCH_FORCED = true ∧
      (s.forceRetire e).stampedHere e = [] := by
  obtain ⟨n, run⟩ := State.forceRetire_retiring he
  rw [run]
  refine ⟨State.repoch_setRepoch_self .., ?_, List.eq_nil_iff_forall_not_mem.2 fun x hx => ?_⟩
  · rw [State.forced_setRepoch, State.forced_setForced]
  · rw [State.stampedHere_eq_of_rt (s := (s.dropStamped e).sendDrains e n) (by simp)] at hx
    obtain ⟨mem, other⟩ := State.mem_stampedHere_dropStamped (State.sendDrains_stampedHere hx)
    exact other (State.mem_stampedHere.1 mem).2

/-- The forced retirement of one epoch leaves the other's state, and FORCED once set, and brings no cell that is stamped. -/
theorem State.forceRetire_beside (s : State) {e e' : Nat} (he : e < 2) (he' : e' < 2) (hne : e' ≠ e) :
    (s.forceRetire e).repoch e' = s.repoch e' ∧
      (s.flag F.CTL_ROUTE_EPOCH_FORCED = true → (s.forceRetire e).flag F.CTL_ROUTE_EPOCH_FORCED = true) ∧
      (s.stampedHere e' = [] → (s.forceRetire e).stampedHere e' = []) := by
  by_cases hr : s.repoch e = esRETIRING
  · obtain ⟨n, run⟩ := State.forceRetire_retiring hr
    rw [run]
    refine ⟨?_, fun _ => ?_, fun none => List.eq_nil_iff_forall_not_mem.2 fun x hx => ?_⟩
    · rw [State.repoch_setRepoch_other _ _ he he' hne, State.repoch_dropped]
    · rw [State.forced_setRepoch, State.forced_setForced]
    · rw [State.stampedHere_eq_of_rt (s := (s.dropStamped e).sendDrains e n) (by simp)] at hx
      obtain ⟨mem, -⟩ := State.mem_stampedHere_dropStamped (State.sendDrains_stampedHere hx)
      rw [none] at mem
      cases mem
  · rw [State.forceRetire_other hr]
    exact ⟨rfl, id, id⟩

/-- Both epochs in turn. -/
theorem State.forceRetire_both (s : State) {e : Nat} (he : e < 2) :
    (s.repoch e = esRETIRING → ((s.forceRetire 0).forceRetire 1).repoch e = esIDLE ∧
      ((s.forceRetire 0).forceRetire 1).flag F.CTL_ROUTE_EPOCH_FORCED = true ∧
      ((s.forceRetire 0).forceRetire 1).stampedHere e = []) ∧
    (s.repoch e ≠ esRETIRING → ((s.forceRetire 0).forceRetire 1).repoch e = s.repoch e) := by
  obtain ⟨keep1, -, -⟩ := State.forceRetire_beside s (e := 0) (e' := 1) (by decide) (by decide) (by decide)
  obtain ⟨keep0, forced, empty⟩ :=
    State.forceRetire_beside (s.forceRetire 0) (e := 1) (e' := 0) (by decide) (by decide) (by decide)
  obtain rfl | rfl : e = 0 ∨ e = 1 := by omega
  · refine ⟨fun hr => ?_, fun hr => ?_⟩
    · obtain ⟨idle, set, none⟩ := State.forceRetire_retires hr
      exact ⟨keep0.trans idle, forced set, empty none⟩
    · rw [keep0, State.forceRetire_other hr]
  · refine ⟨fun hr => State.forceRetire_retires (keep1.trans hr), fun hr => ?_⟩
    rw [State.forceRetire_other (fun h => hr (keep1.symm.trans h)), keep1]

/-! ### The retirement of schedule epochs -/

theorem State.retireSched_regs_only (s : State) (e : Nat) : { s.retireSched e with regs := s.regs } = s := by
  unfold State.retireSched State.setSepoch
  repeat' split
  all_goals rfl

theorem State.sepoch_setSepoch_self (s : State) (e n : Nat) : (s.setSepoch e n).sepoch e = n % 8 := by
  unfold State.sepoch State.setSepoch
  split
  · exact State.fld_setFld s F.TIM_SCHED_EPOCH_E0_STATE n (by decide) (by decide)
  · exact State.fld_setFld s F.TIM_SCHED_EPOCH_E1_STATE n (by decide) (by decide)

theorem State.sepoch_setSepoch_other (s : State) {e e' : Nat} (n : Nat) (he : e < 2) (he' : e' < 2) (hne : e' ≠ e) :
    (s.setSepoch e n).sepoch e' = s.sepoch e' := by
  obtain ⟨rfl, rfl⟩ | ⟨rfl, rfl⟩ : e = 0 ∧ e' = 1 ∨ e = 1 ∧ e' = 0 := by omega
  · exact State.fld_setFld_beside s F.TIM_SCHED_EPOCH_E0_STATE F.TIM_SCHED_EPOCH_E1_STATE n rfl (by decide) (by decide)
  · exact State.fld_setFld_beside s F.TIM_SCHED_EPOCH_E1_STATE F.TIM_SCHED_EPOCH_E0_STATE n rfl (by decide) (by decide)

theorem State.sepoch_retireSched_self (s : State) (e : Nat) :
    (s.retireSched e).sepoch e = if s.sepoch e = esRETIRING then esIDLE else s.sepoch e := by
  unfold State.retireSched
  split
  · exact State.sepoch_setSepoch_self ..
  · rfl

theorem State.sepoch_retireSched_other (s : State) {e e' : Nat} (he : e < 2) (he' : e' < 2) (hne : e' ≠ e) :
    (s.retireSched e).sepoch e' = s.sepoch e' := by
  unfold State.retireSched
  split
  · exact State.sepoch_setSepoch_other s _ he he' hne
  · rfl

theorem State.retireSched_both_regs_only (s : State) : { (s.retireSched 0).retireSched 1 with regs := s.regs } = s :=
  calc { (s.retireSched 0).retireSched 1 with regs := s.regs }
      = { ({ (s.retireSched 0).retireSched 1 with regs := (s.retireSched 0).regs } : State) with regs := s.regs } := rfl
    _ = { s.retireSched 0 with regs := s.regs } := by rw [State.retireSched_regs_only]
    _ = s := State.retireSched_regs_only s 0

theorem State.sepoch_retireSched_both (s : State) {e : Nat} (he : e < 2) :
    ((s.retireSched 0).retireSched 1).sepoch e = if s.sepoch e = esRETIRING then esIDLE else s.sepoch e := by
  obtain rfl | rfl : e = 0 ∨ e = 1 := by omega
  · rw [State.sepoch_retireSched_other _ (by decide) (by decide) (by decide), State.sepoch_retireSched_self]
  · rw [State.sepoch_retireSched_self, State.sepoch_retireSched_other _ (by decide) (by decide) (by decide)]

/-! ### The tide -/

/-- What marks a tide as acted on: the last tide, and the root's id as it was read there (05 R606, 20 R553). -/
def State.tideMark (s : State) : Nat × Word64 := (s.tim.lastTide, s.mgt.rootId)

theorem State.tideMark_ite {s a b : State} {c : Prop} [Decidable c] (ha : a.tideMark = s.tideMark)
    (hb : b.tideMark = s.tideMark) : (if c then a else b).tideMark = s.tideMark :=
  State.ite_keeps State.tideMark ha hb

theorem State.foldl_tideMark {α : Type} {f : State → α → State} (hf : ∀ s a, (f s a).tideMark = s.tideMark) (l : List α)
    (s : State) : (l.foldl f s).tideMark = s.tideMark :=
  State.foldl_keeps State.tideMark hf l s

theorem State.setTime_tideMark (s : State) (n : Nat) : (s.setTime n).tideMark = s.tideMark := by
  unfold State.setTime
  refine State.tideMark_ite ?_ (State.tideMark_ite ?_ (State.tideMark_ite ?_ (State.tideMark_ite ?_ ?_)))
  all_goals simp [State.tideMark, State.startHoldover]

theorem State.activateRoute_tideMark (s : State) (e T : Nat) : (s.activateRoute e T).tideMark = s.tideMark := by
  unfold State.activateRoute
  dsimp only
  split <;> simp [State.tideMark]

theorem State.routeTide_tideMark (s : State) (e : Nat) : (s.routeTide e).tideMark = s.tideMark := by
  have drained (u : State) : u.drain.tideMark = u.tideMark := by simp [State.tideMark]
  exact State.tideMark_ite ((drained _).trans (State.activateRoute_tideMark ..)) rfl

theorem State.conflictCheck_tideMark (s : State) (e : Nat) : (s.conflictCheck e).tideMark = s.tideMark :=
  State.foldl_tideMark (fun u r => by simp [State.tideMark]) _ s

theorem State.resendLater_tideMark (s : State) (e : Nat) : (s.resendLater e).tideMark = s.tideMark := by
  unfold State.resendLater
  dsimp only
  rw [State.foldl_tideMark]
  · rfl
  · exact fun u c => rfl

/-- The first half of the switch to schedule epoch `e`: the states of the epochs and STAMP (05 R176). -/
def State.stampSched (s : State) (e T : Nat) : State :=
  ((if s.sepoch (1 - e) = esACTIVE then
      { s.setSepoch (1 - e) esRETIRING with tim := { s.tim with schedRetireFrom := T } } else s).setSepoch e
    esACTIVE).setFld F.TIM_SCHED_EPOCH_STAMP e

/-- The second half: every record is tried anew, and the standing fault of the failed ones ends. -/
def State.renewRecs (s : State) : State :=
  ({ s with tim := { s.tim with recs := Map.mapV s.tim.recs (fun _ r => { r with pfail := false, bfail := false }) } } :
    State).endStanding blkTIM 5

theorem State.activateSched_eq (s : State) (e T : Nat) :
    s.activateSched e T = ((s.stampSched e T).resendLater e).renewRecs.conflictCheck e := rfl

theorem State.stampSched_tideMark (s : State) (e T : Nat) : (s.stampSched e T).tideMark = s.tideMark := by
  have set (u : State) (e n : Nat) : (u.setSepoch e n).tideMark = u.tideMark := by
    unfold State.setSepoch
    split <;> simp [State.tideMark]
  have stamp (u : State) : (u.setFld F.TIM_SCHED_EPOCH_STAMP e).tideMark = u.tideMark := by simp [State.tideMark]
  unfold State.stampSched
  rw [stamp, set]
  refine State.tideMark_ite ?_ rfl
  simp [State.tideMark]

theorem State.activateSched_tideMark (s : State) (e T : Nat) : (s.activateSched e T).tideMark = s.tideMark := by
  rw [State.activateSched_eq, State.conflictCheck_tideMark, ← State.stampSched_tideMark s e T,
    ← State.resendLater_tideMark (s.stampSched e T) e]
  rfl

theorem State.schedTide_tideMark (s : State) (e : Nat) : (s.schedTide e).tideMark = s.tideMark :=
  State.tideMark_ite (State.activateSched_tideMark ..) rfl

theorem State.autoSwitch_tideMark (s : State) (kind e plan declared T : Nat) :
    (s.autoSwitch kind e plan declared T).tideMark = s.tideMark := by
  have switched (u : State) : (u.switchSched e T).tideMark = u.tideMark := by
    unfold State.switchSched State.setSepoch
    split <;> simp [State.tideMark]
  exact State.tideMark_ite (State.tideMark_ite (by simp [State.tideMark]) (switched s)) rfl

theorem State.autoTide_tideMark (s : State) (T : Nat) : (s.autoTide T).tideMark = s.tideMark := by
  unfold State.autoTide
  refine State.tideMark_ite rfl (State.tideMark_ite ?_ ?_)
  · rw [State.autoSwitch_tideMark, State.autoSwitch_tideMark]
  · exact State.autoSwitch_tideMark ..

theorem State.sendRecord_tideMark (s : State) (p T : Nat) (reply : Bool) (r : Nat) :
    (s.sendRecord p T reply r).tideMark = s.tideMark := by
  have deferred (f : Agree → Agree) : (s.modAgree p f).tideMark = s.tideMark := rfl
  have recorded (u : State) : ({ u with mgt := { u.mgt with lastRec := some r } } : State).tideMark = u.tideMark := rfl
  have sent (v : Word64) (h : HeldCell) :
      (((s.noteSent p T reply r).wr64 Reg.MGT_DIGEST v).enqueue p h false).tideMark = s.tideMark := by
    simp [State.tideMark, State.noteSent]
  unfold State.sendRecord
  refine State.tideMark_ite rfl (State.tideMark_ite (deferred _) ?_)
  exact (recorded _).trans (sent _ _)

theorem State.sendDigest_tideMark (s : State) (p T : Nat) (reply : Bool) : (s.sendDigest p T reply).tideMark = s.tideMark :=
  s.sendRecord_tideMark p T reply _

theorem State.parentLost_tideMark (s : State) : s.parentLost.tideMark = s.tideMark := by
  have good (u : State) (n : Nat) : (u.setGood n).tideMark = u.tideMark := by simp [State.tideMark]
  have alt (u : State) : (u.setFlag F.TIM_STATUS_ON_ALT true).tideMark = u.tideMark := by simp [State.tideMark]
  have held (u : State) : (if u.timeState = tsLOCKED then (u.setGood 0).setTime tsHOLDOVER else u.setGood 0).tideMark =
      u.tideMark := State.tideMark_ite ((State.setTime_tideMark ..).trans (good u 0)) (good u 0)
  unfold State.parentLost
  refine State.tideMark_ite rfl ?_
  dsimp only
  refine State.tideMark_ite ((alt _).trans ?_) ?_
  all_goals exact (held _).trans rfl

theorem State.quarantine_tideMark (s : State) (p : Nat) : (s.quarantine p).tideMark = s.tideMark := by
  have repicked (u : State) (q : HeldCell → Bool) : (u.repickIf p q).tideMark = u.tideMark := rfl
  have raised : ((s.setLinkState p lkQUARANTINE).raiseStanding (blkLNG (p / 16)) 16 p).tideMark = s.tideMark := by
    simp [State.tideMark]
  have parent (u : State) : (u.parentCheck p).tideMark = u.tideMark := State.tideMark_ite u.parentLost_tideMark rfl
  unfold State.quarantine
  refine State.tideMark_ite rfl ?_
  dsimp only
  rw [parent, repicked, raised]

theorem State.decideLink_tideMark (s : State) (p own : Nat) (c : Cell) : (s.decideLink p own c).tideMark = s.tideMark := by
  have up : (s.linkUp p).tideMark = s.tideMark := by simp [State.tideMark]
  have counted (w : Word) : ((s.bump Reg.MGT_DIGEST_DISAGREE).wr Reg.MGT_AGREE_LAST w).tideMark = s.tideMark := by
    simp [State.tideMark]
  unfold State.decideLink
  refine State.tideMark_ite up ?_
  dsimp only
  rw [State.quarantine_tideMark, counted]

theorem State.answerDigest_tideMark (s : State) (p : Nat) (c : Cell) : (s.answerDigest p c).tideMark = s.tideMark := by
  unfold State.answerDigest
  refine State.tideMark_ite rfl ?_
  dsimp only
  rw [State.decideLink_tideMark, State.sendDigest_tideMark]

theorem State.tideDigest_tideMark (s : State) (T : Nat) : (s.tideDigest T).tideMark = s.tideMark := by
  unfold State.tideDigest
  dsimp only
  rw [State.foldl_tideMark]
  · rfl
  · intro u p
    rw [State.foldl_tideMark fun v c => v.answerDigest_tideMark p c]
    exact State.tideMark_ite (u.sendDigest_tideMark ..) rfl

theorem State.tideDump_tideMark (s : State) (last f : Nat) : (s.tideDump last f).tideMark = s.tideMark := by
  unfold State.tideDump
  refine State.tideMark_ite rfl ?_
  simp [State.tideMark]

/-- The chip's part in a tide, once it is marked as acted on (05 R166, R176, 04 R141, 20 R553-R559). -/
def State.actOnTide (s : State) (last f : Nat) : State :=
  let T := f * 0x1400000
  let s := if s.lockReady then (s.setTime tsLOCKED).lateLaunches else s
  let s := (((s.routeTide 0).routeTide 1).schedTide 0).schedTide 1
  let s := (s.autoTide (T + 0x1400000)).progress
  (s.tideDigest T).tideDump last f

/-- The state in which tide `f` is marked as acted on. -/
def State.markTide (s : State) (f : Nat) : State :=
  { s with tim := { s.tim with lastTide := f }, mgt := { s.mgt with rootId := s.rd64 Reg.MGT_ROOT_ID } }

theorem State.atTide_eq (s : State) :
    s.atTide = if tideNo s.t ≤ s.tim.lastTide then s
      else (s.markTide (tideNo s.t)).actOnTide s.tim.lastTide (tideNo s.t) := rfl

theorem State.actOnTide_tideMark (s : State) (last f : Nat) : (s.actOnTide last f).tideMark = s.tideMark := by
  have progressed (u : State) : u.progress.tideMark = u.tideMark := by simp [State.tideMark]
  have launched (u : State) : u.lateLaunches.tideMark = u.tideMark := by simp [State.tideMark]
  have locked : (if s.lockReady then (s.setTime tsLOCKED).lateLaunches else s).tideMark = s.tideMark :=
    State.tideMark_ite ((launched _).trans (s.setTime_tideMark _)) rfl
  unfold State.actOnTide
  dsimp only
  rw [State.tideDump_tideMark, State.tideDigest_tideMark, progressed, State.autoTide_tideMark, State.schedTide_tideMark,
    State.schedTide_tideMark, State.routeTide_tideMark, State.routeTide_tideMark, locked]

/-- A tide that has been acted on is not acted on again (05 R606). -/
theorem execTide_acted {s : State} (h : tideNo s.t ≤ s.tim.lastTide) : exec .tide s = .next s := by
  show Host.Outcome.next s.atTide = _
  rw [State.atTide_eq, if_pos h]

/-- A tide that has not been acted on is marked, and fabric time stands (05 R606, 20 R553). -/
theorem execTide_once {s : State} (h : s.tim.lastTide < tideNo s.t) :
    ∃ t, exec .tide s = .next t ∧ t.tim.lastTide = tideNo s.t ∧ t.now = s.now ∧ t.mgt.rootId = s.rd64 Reg.MGT_ROOT_ID ∧
      exec .tide t = .next t := by
  have run : exec .tide s = .next ((s.markTide (tideNo s.t)).actOnTide s.tim.lastTide (tideNo s.t)) := by
    show Host.Outcome.next s.atTide = _
    rw [State.atTide_eq, if_neg (by omega)]
  obtain ⟨last, root⟩ := Prod.mk.inj (State.actOnTide_tideMark (s.markTide (tideNo s.t)) s.tim.lastTide (tideNo s.t))
  have now := ((exec_rel run).steady rfl).time
  refine ⟨_, run, last, now, root, execTide_acted ?_⟩
  rw [last, State.t, now]
  exact Nat.le_refl _

end Sys2Proof.Machine

section

open Sys2Proof.Machine

/-- Settles O20: the markers, the forced retirement of each epoch beside the other, the mark of a tide, and the schedule
epochs. -/
theorem epochsDrainOrAreRetired : Obligations.EpochsDrainOrAreRetired := by
  refine ⟨fun s => ⟨fun l c managed hl => ⟨_, execDrain_local managed hl, ?_⟩, _, rfl, fun e he => s.forceRetire_both he⟩,
    fun s => ⟨execTide_acted, execTide_once, _, rfl, s.retireSched_both_regs_only,
      fun e he => s.sepoch_retireSched_both he⟩⟩
  have epoch : (s.arrive c).repoch (c.pb 0 1 % 2) = s.repoch (c.pb 0 1 % 2) :=
    State.repoch_eq_of_regs (by simp) (by simp) _
  refine ⟨fun kept => State.mem_takeDrain _ _ _ (epoch ▸ kept), fun ha hr => ?_⟩
  rw [State.takeDrain_discards (epoch ▸ ha) (epoch ▸ hr)]
  exact ⟨s.arrive_drainIn c, by simp⟩

end

/-! Matched messages are moved: the copy of a stored message, the start of a pull, the answer to a READ_REQ (07 R262, R266,
R267, 08 R289). -/

namespace Sys2Proof.Machine

/-! ### Descriptor slots and completions -/

theorem State.slot?_eq_of_obj {s t : State} (h : t.obj = s.obj) (z : Nat) : t.slot? z = s.slot? z := by
  simp only [State.slot?, h]

theorem State.queue?_eq_of_obj {s t : State} (h : t.obj = s.obj) (q : Nat) : t.queue? q = s.queue? q := by
  simp only [State.queue?, h]

@[simp] theorem State.slot?_modSlot (s : State) (k : Nat) (f : Slot → Slot) (z : Nat) :
    (s.modSlot k f).slot? z = if z = k then (s.slot? z).map f else s.slot? z :=
  Map.get?_mod ..

@[simp] theorem State.slot?_modQueue (s : State) (q : Nat) (f : Queue → Queue) (z : Nat) :
    (s.modQueue q f).slot? z = s.slot? z := rfl

@[simp] theorem State.slot?_jrnlPos (s : State) (q z : Nat) : (s.jrnlPos q).slot? z = s.slot? z :=
  State.slot?_eq_of_obj (by simp) z

@[simp] theorem State.slot?_bump (s : State) (a z : Nat) : (s.bump a).slot? z = s.slot? z :=
  State.slot?_eq_of_obj (by simp) z

@[simp] theorem State.slot?_writeCqe (s : State) (q : Nat) (c : Cqe) (z : Nat) : (s.writeCqe q c).slot? z = s.slot? z := by
  unfold State.writeCqe
  split
  · rfl
  · simp [State.slot?, apply_ite State.obj]

/-- A slot that is freed is none, and no other slot changes. -/
@[simp] theorem State.slot?_freeSlot (s : State) (k z : Nat) :
    (s.freeSlot k).slot? z = if z = k then none else s.slot? z := by
  unfold State.freeSlot
  split
  next none =>
    split
    next e => rw [e, none]
    next => rfl
  next x _ => cases x.phase <;> simp [State.slot?]

/-- A completion that finds room, and none waiting before it, is written at once (02 R55). -/
theorem State.post_of_room {s : State} {q : Nat} {x : Queue} (hq : s.queue? q = some x) (empty : x.waiting = [])
    (room : 0 < x.room) (c : Cqe) (src : CompSrc) : s.post q c src = ((s.writeCqe q c).jrnlPos q).freeSrc src := by
  simp [State.post, hq, empty, room]

/-! A slot that is free stays so while others complete. -/

theorem State.slot?_post_none {s : State} {z : Nat} (free : s.slot? z = none) (q : Nat) (c : Cqe) (k : Nat) :
    (s.post q c (.slot k)).slot? z = none := by
  unfold State.post
  split
  · exact free
  · split
    · simp [State.freeSrc, free]
    · simp [free]

theorem State.slot?_completeSlot_none {s : State} {z : Nat} (free : s.slot? z = none) (k status body : Nat) :
    (s.completeSlot k status body).slot? z = none := by
  unfold State.completeSlot
  split
  · exact free
  next x _ =>
    have sampled : (s.sampleSlot k x status).slot? z = none := (State.slot?_eq_of_obj (by simp) z).trans free
    dsimp only
    split
    · simp [sampled]
    · exact State.slot?_post_none sampled ..

theorem State.slot?_releaseDue_none {s : State} {z : Nat} (free : s.slot? z = none) (q h n : Nat) :
    (s.releaseDue q h n).slot? z = none := by
  induction n generalizing s with
  | zero => exact free
  | succ n ih =>
    unfold State.releaseDue
    split
    · split
      · exact ih (State.slot?_completeSlot_none free ..)
      · exact free
    · exact free

/-- A completion that need not wait frees its slot (02 R54, R55). -/
theorem State.slot?_completeSlot_self {s : State} {z : Nat} {y : Slot} {c : Queue} (hz : s.slot? z = some y)
    (hq : s.queue? y.cq = some c) (empty : c.waiting = []) (room : 0 < c.room) (status body : Nat) :
    (s.completeSlot z status body).slot? z = none := by
  have queue : (s.sampleSlot z y status).queue? y.cq = some c := (State.queue?_eq_of_obj (by simp) _).trans hq
  simp only [State.completeSlot, hz]
  split
  · simp
  · rw [State.post_of_room queue empty room]
    simp [State.freeSrc]

/-- The completion of a running descriptor that names no connection is not held back behind another (02 R67). -/
theorem State.slot?_finishSlot_self {s : State} {z : Nat} {y : Slot} {c : Queue} (hz : s.slot? z = some y)
    (running : y.phase = .running) (due : y.due = none) (alone : onConn y.desc = false) (hq : s.queue? y.cq = some c)
    (empty : c.waiting = []) (room : 0 < c.room) (status body : Nat) : (s.finishSlot z status body).slot? z = none := by
  have first : s.heldBack z y = false := by simp [State.heldBack, alone]
  simp only [State.finishSlot, hz, running, due, first]
  exact State.slot?_releaseDue_none (State.slot?_completeSlot_self hz hq empty room ..) ..

theorem onConn_of_postRecv {d : Entry} (h : dOpcode d = opPOSTRECV) : onConn d = false := by
  simp only [onConn, h]
  decide

/-! ### The copy of a stored message -/

theorem State.entry?_eq_of_mat {s t : State} (h : t.mat = s.mat) (e : Nat) : t.entry? e = s.entry? e := by
  simp only [State.entry?, h]

theorem State.entry?_freeEntry_self (s : State) (e : Nat) : (s.freeEntry e).entry? e = none :=
  (Map.get?_erase ..).trans (if_pos rfl)

theorem State.writePieces_obj (s : State) (i va : Nat) (l : List (Nat × Nat)) (n : Nat) :
    (s.writePieces i va l n).obj = s.obj := by
  induction l generalizing s va n with
  | nil => rfl
  | cons p l ih => simp [State.writePieces, ih]

/-- The group of 07 R262 frees the entry. -/
theorem State.entry?_finishStored {e : Nat} {x : StoreEntry} {b : Nat × Nat} (hb : x.bound = some b) (s : State)
    (status bytes : Nat) : (s.finishStored e x status bytes).entry? e = none := by
  have ended (u : State) : ((u.freeEntry e).taskEnd (.pull e)).entry? e = none :=
    (State.entry?_eq_of_mat (by simp) e).trans (State.entry?_freeEntry_self u e)
  simp only [State.finishStored, hb]
  exact ended _

/-- The body of the completion of a receive whose message was stored (07 R262, R275). -/
def StoreEntry.doneBody (x : StoreEntry) (status bytes : Nat) : Nat :=
  if status = stSUCCESS ∨ status = stTRUNCATED then recvBody bytes x.eff x.src x.srcIns
  else recvFail status x.eff x.src x.srcIns

/-- Of the objects, the group of 07 R262 changes what the receive's completion does. -/
theorem State.finishStored_obj {e : Nat} {x : StoreEntry} {b : Nat × Nat} (hb : x.bound = some b) (s : State)
    (status bytes : Nat) :
    (s.finishStored e x status bytes).obj = (s.finishSlot b.1 status (x.doneBody status bytes)).obj := by
  simp [State.finishStored, hb, StoreEntry.doneBody, apply_ite State.obj]

theorem State.access_obj {s u : State} {w : AccessId} {tile i va n : Nat} {write : Bool} {a : Access}
    (met : s.access w tile i va n write = (u, a)) : u.obj = s.obj := by
  have kept : (s.access w tile i va n write).1.obj = s.obj := by simp
  rwa [met] at kept

/-- The copy of the stored message `x`, entry `e`, to the receive `y` has nothing to wait for: the message failed, no byte moves,
or the connection's context is on die and the buffer's translation does not wait (07 R262). -/
def State.CopyGoes (s : State) (e : Nat) (x : StoreEntry) (y : Slot) : Prop :=
  x.status ≠ 0 ∨ min x.len (dLength y.desc) = 0 ∨
    (((s.conn? x.handle).isSome = true → s.onDie x.handle = true) ∧
      ∀ u, s.access (.copy e) (s.connTile x.handle) x.inst (pLaddr y.desc) (min x.len (dLength y.desc)) true ≠ (u, .wait))

/-- A stored message whose copy has nothing to wait for is finished, with the objects as they were until then (07 R262). -/
theorem State.copyStored_finishes {s : State} {e : Nat} {x : StoreEntry} {b : Nat × Nat} {y : Slot}
    (he : s.entry? e = some x) (eager : x.rts = false) (covered : x.covered = true) (hb : x.bound = some b)
    (hz : s.slot? b.1 = some y) (goes : s.CopyGoes e x y) :
    ∃ (u : State) (status bytes : Nat), s.copyStored e = u.finishStored e x status bytes ∧ u.obj = s.obj := by
  unfold State.copyStored
  simp only [he, eager, covered, hb, hz, Option.bind_some, Bool.not_true, Bool.or_self, Bool.false_eq_true, if_false]
  by_cases failed : x.status ≠ 0
  · rw [if_pos failed]
    exact ⟨_, _, _, rfl, by simp [apply_ite State.obj]⟩
  rw [if_neg failed]
  by_cases empty : min x.len (dLength y.desc) = 0
  · rw [if_pos empty]
    exact ⟨_, _, _, rfl, rfl⟩
  rw [if_neg empty]
  obtain ⟨onDie, moves⟩ := (goes.resolve_left failed).resolve_left empty
  rw [if_neg (by simpa using onDie)]
  split
  next u l met => exact ⟨_, _, _, rfl, (State.writePieces_obj ..).trans (State.access_obj met)⟩
  next u met => exact absurd met (moves u)
  next u status met => exact ⟨_, _, _, rfl, State.access_obj met⟩

/-- UNEXPECTED_COPY of such a message frees its entry and, where the receive's completion need not wait, the receive's
slot. -/
theorem execUnexpectedCopy_frees {v : View} {s : State} {e : Nat} {x : StoreEntry} {b : Nat × Nat} {y : Slot}
    (he : (s.see v).entry? e = some x) (eager : x.rts = false) (covered : x.covered = true) (hb : x.bound = some b)
    (hz : (s.see v).slot? b.1 = some y) (goes : (s.see v).CopyGoes e x y) :
    ∃ t, exec (.unexpectedCopy e v) s = .next t ∧ t.entry? e = none ∧
      ∀ c, y.phase = .running → y.due = none → dOpcode y.desc = opPOSTRECV → (s.see v).queue? y.cq = some c →
        c.waiting = [] → 0 < c.room → t.slot? b.1 = none := by
  obtain ⟨u, status, bytes, run, kept⟩ := State.copyStored_finishes he eager covered hb hz goes
  refine ⟨_, rfl, ?_, fun c running due recv hq empty room => ?_⟩
  · rw [run, State.entry?_finishStored hb]
  · rw [run, State.slot?_eq_of_obj (State.finishStored_obj hb ..)]
    exact State.slot?_finishSlot_self ((State.slot?_eq_of_obj kept _).trans hz) running due (onConn_of_postRecv recv)
      ((State.queue?_eq_of_obj kept _).trans hq) empty room ..

/-! ### Registers below the power controller's, which waking a tile leaves alone -/

theorem State.rd_bump_self (s : State) (a : Nat) : (s.bump a).rd a = s.rd a + 1#32 := State.rd_wr_self ..

theorem State.rd_bump_other {s : State} {a b : Nat} (h : b ≠ a) : (s.bump a).rd b = s.rd b := State.rd_wr_other _ _ _ _ h

section

variable {a : Nat} (low : a < Reg.PWR_TILE_CTRL 0)

include low

theorem ne_tileRegs (t : Nat) : a ≠ Reg.PWR_TILE_STATUS t ∧ a ≠ Reg.PWR_TILE_DROPPED t ∧ a ≠ Reg.PWR_TILE_LATCHED t ∧
    a ≠ Reg.PWR_TILE_OVERWRITTEN t := by
  unfold Reg.PWR_TILE_CTRL at low
  unfold Reg.PWR_TILE_STATUS Reg.PWR_TILE_DROPPED Reg.PWR_TILE_LATCHED Reg.PWR_TILE_OVERWRITTEN
  omega

theorem State.startSeq_rd (s : State) (t q target final cause : Nat) :
    (s.startSeq t q target final cause).rd a = s.rd a := by
  obtain ⟨status, -⟩ := ne_tileRegs low t
  have set (u : State) {f : Fld} (hf : f.addr = Reg.PWR_TILE_STATUS t) (n : Nat) : (u.setFld f n).rd a = u.rd a :=
    State.rd_setFld_other _ _ _ _ (hf ▸ status)
  unfold State.startSeq
  dsimp only
  split
  · rw [set _ rfl, set _ rfl, set _ rfl]
    rfl
  · rw [set _ rfl, set _ rfl, set _ rfl, set _ rfl]
    rfl

theorem State.startExit_rd (s : State) (t final cause : Nat) : (s.startExit t final cause).rd a = s.rd a := by
  have started (u : State) : u.startPll.rd a = u.rd a := State.ite_keeps (fun u : State => u.rd a) rfl rfl
  exact (started _).trans (State.startSeq_rd low ..)

theorem State.latchReq_rd (s : State) (t r : Nat) (wake : Option Nat) : (s.latchReq t r wake).rd a = s.rd a := by
  obtain ⟨status, -, latched, overwritten⟩ := ne_tileRegs low t
  have set (u : State) {f : Fld} (hf : f.addr = Reg.PWR_TILE_STATUS t) (n : Nat) : (u.setFld f n).rd a = u.rd a :=
    State.rd_setFld_other _ _ _ _ (hf ▸ status)
  have modded (u : State) (f : TilePwr → TilePwr) : (u.modTile t f).rd a = u.rd a := rfl
  unfold State.latchReq
  dsimp only
  rw [modded, set _ rfl, set _ rfl]
  exact State.ite_keeps (fun u : State => u.rd a) (State.rd_bump_other overwritten) (State.rd_bump_other latched)

theorem State.wakeEvent_rd (s : State) (t cause : Nat) : (s.wakeEvent t cause).rd a = s.rd a := by
  obtain ⟨-, dropped, -, -⟩ := ne_tileRegs low t
  have counted : (s.bump (Reg.PWR_TILE_DROPPED t)).rd a = s.rd a := State.rd_bump_other dropped
  unfold State.wakeEvent
  dsimp only
  repeat' split
  any_goals exact counted
  · rfl
  · exact State.latchReq_rd low ..
  · rfl
  · exact State.startExit_rd low ..

theorem State.taskStart_rd (s : State) (t : Nat) (k : TaskId) : (s.taskStart t k).rd a = s.rd a := by
  have needed (u : State) : (u.needTile t).rd a = u.rd a :=
    State.ite_keeps (fun u : State => u.rd a) rfl (State.wakeEvent_rd low ..)
  refine State.ite_keeps (fun u : State => u.rd a) rfl (Eq.trans ?_ (needed s))
  exact State.rd_eq_of_regs (by simp) (by simp) a

theorem State.pullTask_rd (s : State) (h : Nat) : (s.pullTask h).rd a = s.rd a := by
  unfold State.pullTask
  split
  · exact State.ite_keeps (fun u : State => u.rd a) rfl (State.taskStart_rd low ..)
  · rfl

end

/-! ### A message that is accepted for sending -/

theorem State.conn?_modConn (s : State) (h : Nat) (f : Conn → Conn) (j : Nat) :
    (s.modConn h f).conn? j = if j = h then (s.conn? j).map f else s.conn? j :=
  Map.get?_mod ..

theorem State.conn?_eq_of_xpt {s t : State} (h : t.xpt = s.xpt) (j : Nat) : t.conn? j = s.conn? j := by
  simp only [State.conn?, h]

/-- What an update of a connection leaves alone in every connection. -/
theorem State.conn?_map_modConn {β : Type} {F : Conn → β} {f : Conn → Conn} (hf : ∀ k, F (f k) = F k) (s : State)
    (h j : Nat) : ((s.modConn h f).conn? j).map F = (s.conn? j).map F := by
  rw [State.conn?_modConn]
  split
  · simp [Function.comp_def, hf]
  · rfl

/-- What the need of a connection's context does: it marks the use of one on die, wakes the tile of one in a retained bank, or
counts a miss and asks for a swap (06 R199, 17 R482). -/
theorem State.needContext_cases (s : State) (h : Nat) :
    s.needContext h = s.modConn h (fun k => { k with used := s.t }) ∨
    (∃ t, s.needContext h = s.wakeEvent t wcRESOURCE) ∨
    ((s.needContext h).regs = (s.bump Reg.CTL_XPT_CTX_MISS).regs ∧ (s.needContext h).xpt.conns = s.xpt.conns ∧
      (s.needContext h).xpt.msgs = s.xpt.msgs) := by
  unfold State.needContext
  split
  · exact .inl rfl
  · split
    · exact .inr (.inl ⟨_, rfl⟩)
    · refine .inr (.inr ?_)
      dsimp only
      repeat' split
      all_goals simp

theorem State.needContext_pulls (s : State) (h j : Nat) :
    ((s.needContext h).conn? j).map (·.pulls) = (s.conn? j).map (·.pulls) := by
  obtain used | ⟨t, woken⟩ | ⟨-, conns, -⟩ := s.needContext_cases h
  · rw [used]
    refine State.conn?_map_modConn ?_ s h j
    exact fun _ => rfl
  · rw [woken, State.conn?_eq_of_xpt (s := s) (by simp)]
  · rw [State.conn?, conns, State.conn?]

theorem State.needContext_msgs (s : State) (h : Nat) : (s.needContext h).xpt.msgs = s.xpt.msgs := by
  obtain used | ⟨t, woken⟩ | ⟨-, -, msgs⟩ := s.needContext_cases h
  · rw [used, State.modConn_xpt_msgs]
  · simp [woken]
  · exact msgs

theorem State.needContext_rd {a : Nat} (low : a < Reg.PWR_TILE_CTRL 0) (other : a ≠ Reg.CTL_XPT_CTX_MISS) (s : State)
    (h : Nat) : (s.needContext h).rd a = s.rd a := by
  obtain used | ⟨t, woken⟩ | ⟨missed, -, -⟩ := s.needContext_cases h
  · rw [used]
    rfl
  · rw [woken, State.wakeEvent_rd low]
  · exact (State.rd_eq_of_regs missed (by simp) a).trans (State.rd_bump_other other)

theorem State.openIfWork_pulls (s : State) (h j : Nat) :
    ((s.openIfWork h).conn? j).map (·.pulls) = (s.conn? j).map (·.pulls) := by
  unfold State.openIfWork
  split
  · split
    · refine (State.conn?_map_modConn ?_ ..).trans (congrArg _ (State.conn?_eq_of_xpt (by simp) j))
      exact fun _ => rfl
    · rfl
  · rfl

theorem State.openIfWork_msgs (s : State) (h : Nat) : (s.openIfWork h).xpt.msgs = s.xpt.msgs := by
  unfold State.openIfWork
  repeat' split
  all_goals simp [State.sendOpen]

theorem State.accept_pulls (s : State) (m : TxMsg) (j : Nat) :
    ((s.accept m).1.conn? j).map (·.pulls) = (s.conn? j).map (·.pulls) :=
  (State.openIfWork_pulls ..).trans (State.needContext_pulls ..)

/-- A message that is accepted stands under the next number (06 R202). -/
theorem State.accept_msgs (s : State) (m : TxMsg) :
    (s.accept m).1.xpt.msgs = Map.set s.xpt.msgs s.xpt.nextMsg { m with acceptedAt := s.t } :=
  (State.openIfWork_msgs ..).trans (State.needContext_msgs ..)

theorem State.accept_rd {a : Nat} (low : a < Reg.PWR_TILE_CTRL 0) (other : a ≠ Reg.CTL_XPT_CTX_MISS) (s : State) (m : TxMsg) :
    (s.accept m).1.rd a = s.rd a := by
  have opened (u : State) : (u.openIfWork m.handle).rd a = u.rd a := State.rd_eq_of_regs (by simp) (by simp) a
  exact (opened _).trans (State.needContext_rd low other ..)

/-! ### The start of a pull -/

/-- What the start of the pull of entry `e` on connection `h` notes (07 R266): it is counted, in the connection too, and the
entry does not wait any more. -/
def State.notePull (s : State) (e h : Nat) : State :=
  let s := ((s.bump Reg.CTL_MATCH_PULLS).modConn h (fun k => { k with pulls := k.pulls + 1 })).modEntry e
    (fun y => { y with pulling := true })
  { s with mat := { s.mat with pullWait := s.mat.pullWait.filter (· != e) } }

theorem State.notePull_mem (s : State) (e h : Nat) : e ∉ (s.notePull e h).mat.pullWait := by
  simp [State.notePull]

theorem State.notePull_entry? (s : State) (e h : Nat) :
    (s.notePull e h).entry? e = (s.entry? e).map (fun y => { y with pulling := true }) := by
  simp [State.notePull, State.entry?, State.modEntry]

theorem State.notePull_conn? (s : State) (e h : Nat) :
    (s.notePull e h).conn? h = (s.conn? h).map (fun k => { k with pulls := k.pulls + 1 }) := by
  simp [State.notePull, State.conn?, State.modConn]

theorem State.notePull_rd (s : State) (e h : Nat) :
    (s.notePull e h).rd Reg.CTL_MATCH_PULLS = s.rd Reg.CTL_MATCH_PULLS + 1#32 :=
  State.rd_bump_self s _

/-- The READ_REQ by which stored entry `e` is pulled into a buffer of `size` bytes (07 R266). -/
def StoreEntry.pullReq (x : StoreEntry) (e size : Nat) : TxMsg :=
  { handle := x.handle, typ := tyREADREQ, origin := .pull e, len := 8, extLength := 8, extImm := x.seq + 2 ^ 63,
    extKey := x.key, extOffset := x.offset, inline := some (min x.len size) }

section

variable {s : State} {e : Nat} {x : StoreEntry} {k : Conn} {b : Nat × Nat} {y : Slot}
  (he : s.entry? e = some x) (hb : x.bound = some b) (hz : s.slot? b.1 = some y) (hk : s.conn? x.handle = some k)
  (first : s.nextPull x.handle = some e) (whole : k.st ≠ .broken) (runs : (s.pullTask x.handle).taskRuns (.pull e) = true)
  (limit : k.pulls < s.pullLimit x.proto)

include he hb hz hk first whole runs limit

/-- The next pull of its connection, once its limit allows it and its task runs, is noted and its READ_REQ accepted for sending
(07 R266, R267). -/
theorem State.startPull_starts :
    s.startPull e =
      (((((s.pullTask x.handle).notePull e x.handle).accept (x.pullReq e (dLength y.desc))).1).taskEnd (.pull e)).pullTask
        x.handle := by
  have allowed : ¬ (k.st = .broken ∨ s.pullLimit x.proto ≤ k.pulls) := by simp [whole, limit]
  simp only [State.startPull, he, hb, hz, hk, first, runs, Option.bind_some, ne_eq, not_true_eq_false, if_false, allowed,
    Bool.not_true, Bool.false_eq_true]
  rfl

/-- PULL_START of such an entry: it waits no more and is pulling, and the pull is counted (07 R266, R267). -/
theorem execPullStart_starts :
    ∃ t, exec (.pullStart e) s = .next t ∧ e ∉ t.mat.pullWait ∧ (t.conn? x.handle).map (·.pulls) = some (k.pulls + 1) ∧
      (t.entry? e).map (·.pulling) = some true ∧ t.rd Reg.CTL_MATCH_PULLS = s.rd Reg.CTL_MATCH_PULLS + 1#32 := by
  have run := State.startPull_starts he hb hz hk first whole runs limit
  have low : Reg.CTL_MATCH_PULLS < Reg.PWR_TILE_CTRL 0 := by decide
  have mat : (s.startPull e).mat = ((s.pullTask x.handle).notePull e x.handle).mat := by simp [run]
  refine ⟨_, rfl, ?_, ?_, ?_, ?_⟩
  · rw [mat]
    exact State.notePull_mem _ e x.handle
  · have xpt : (s.startPull e).xpt =
        ((s.pullTask x.handle).notePull e x.handle |>.accept (x.pullReq e (dLength y.desc))).1.xpt := by simp [run]
    rw [State.conn?_eq_of_xpt xpt, State.accept_pulls, State.notePull_conn?,
      State.conn?_eq_of_xpt (t := s.pullTask x.handle) (s := s) (by simp), hk]
    rfl
  · rw [State.entry?_eq_of_mat mat, State.notePull_entry?,
      State.entry?_eq_of_mat (t := s.pullTask x.handle) (s := s) (by simp), he]
    rfl
  · have ended (u : State) : (u.taskEnd (.pull e)).rd Reg.CTL_MATCH_PULLS = u.rd Reg.CTL_MATCH_PULLS :=
      State.rd_eq_of_regs (by simp) (by simp) _
    rw [run, State.pullTask_rd low, ended, State.accept_rd low (by decide), State.notePull_rd, State.pullTask_rd low]

end

/-! ### Messages under what an advance of WM does -/

theorem State.coverStored_msgs (s : State) (h : Nat) (m : RxMsg) : (s.coverStored h m).xpt.msgs = s.xpt.msgs := by
  unfold State.coverStored
  repeat' split
  all_goals simp

theorem State.noteLock_msgs (s : State) (x : Slot) (st word : Nat) : (s.noteLock x st word).xpt.msgs = s.xpt.msgs := by
  unfold State.noteLock
  dsimp only
  repeat' split
  all_goals rfl

theorem State.issueNote_msgs (s : State) (k : Conn) (q : Option Nat) (c : Cqe) :
    (s.issueNote k q c).1.xpt.msgs = s.xpt.msgs := by
  unfold State.issueNote
  split <;> simp

theorem State.issueDue_msgs (s : State) (k : Conn) (d : Due) : (s.issueDue k d).1.xpt.msgs = s.xpt.msgs := by
  cases d with
  | note q c => exact State.issueNote_msgs ..
  | slot z st body =>
    have finished (u : State) : (u.finishIn z st body).1.xpt.msgs = u.xpt.msgs := by simp
    refine (finished _).trans ?_
    split
    · split
      · simp
      · exact State.noteLock_msgs ..
    · rfl

theorem State.issueGroup_msgs (s : State) (k : Conn) (l : List Due) : (s.issueGroup k l).xpt.msgs = s.xpt.msgs := by
  have ended (u : State) (o : List (Option Nat × CompSrc)) : (u.endGroup o).xpt.msgs = u.xpt.msgs := by simp
  refine (ended _ _).trans ?_
  exact List.foldlRecOn (motive := fun a : State × List (Option Nat × CompSrc) => a.1.xpt.msgs = s.xpt.msgs) _ _ rfl
    fun a ha d _ => (State.issueDue_msgs ..).trans ha

theorem State.faultCheck_msgs (s : State) (h : Nat) : (s.faultCheck h).xpt.msgs = s.xpt.msgs := by
  unfold State.faultCheck
  repeat' split
  all_goals simp

theorem State.noteWait_msgs (s : State) (h : Nat) : (s.noteWait h).xpt.msgs = s.xpt.msgs := by
  unfold State.noteWait
  repeat' split
  all_goals simp

/-- WM advances over messages that are received; those to be sent stay (06 R213). -/
theorem State.advanceWm_msgs (s : State) (h : Nat) (p : RxMsg → Bool) : (s.advanceWm h p).xpt.msgs = s.xpt.msgs := by
  have retired (u : State) : (u.retireKey h).xpt.msgs = u.xpt.msgs := rfl
  have acked (u : State) (y : CtlSay) : (u.sayCtl h y).xpt.msgs = u.xpt.msgs := by simp
  have recorded (u : State) : (u.countGroup.jrnlConn h).xpt.msgs = u.xpt.msgs := by simp
  unfold State.advanceWm
  split
  · rfl
  · split
    · rfl
    · dsimp only
      split
      · exact State.noteWait_msgs ..
      · rw [State.noteWait_msgs, retired, State.faultCheck_msgs, acked, State.issueGroup_msgs]
        refine (recorded _).trans ?_
        exact State.foldl_keeps (fun u => u.xpt.msgs) (fun u a => State.coverStored_msgs ..) _ s

/-! ### The answer to a READ_REQ -/

/-- The READ_RESP that answers the READ_REQ `m` of connection `h`, of its length, by the address that its key names (08
R289). -/
def State.readResp (s : State) (h : Nat) (k : Conn) (m : RxMsg) : TxMsg :=
  { handle := h, typ := tyREADRESP, origin := .readResp m.seq none, len := rqLen m.cell0, extImm := m.seq,
    extLength := rqLen m.cell0, src := (s.region k.inst m.cell0.extKey).vbase + m.cell0.extOffset }

/-- A READ_REQ that is no pull's is answered by one READ_RESP (08 R289). -/
theorem State.serveRead_answers {s : State} {h : Nat} {k : Conn} {m : RxMsg} (hk : s.conn? h = some k)
    (serve : s.toServe h k = some m) (plain : rqPull m.cell0 = false) :
    s.serveRead h = (s.accept (s.readResp h k m)).1 := by
  simp only [State.serveRead, hk, serve, plain, Bool.false_and, Bool.false_eq_true, if_false]
  rfl

/-- READ_REQ then puts that READ_RESP among the messages to be sent, and the advance of WM leaves it there (08 R289). -/
theorem execReadReq_answers {v : View} {s : State} {h : Word} {k : Conn} {m : RxMsg}
    (hk : (s.see v).conn? h.toNat = some k) (serve : (s.see v).toServe h.toNat k = some m)
    (plain : rqPull m.cell0 = false) :
    ∃ t, exec (.readReq h v) s = .next t ∧
      (Map.get? t.xpt.msgs s.xpt.nextMsg).map (fun r => (r.handle, r.typ, r.len, r.extImm)) =
        some (h.toNat, tyREADRESP, rqLen m.cell0, m.seq) := by
  have seen : (s.see v).xpt = s.xpt := by simp
  refine ⟨_, rfl, ?_⟩
  rw [State.advanceWm_msgs, State.serveRead_answers hk serve plain, State.accept_msgs, seen, Map.get?_set,
    if_pos rfl]
  rfl

end Sys2Proof.Machine

section

open Sys2Proof.Machine

/-- Settles O36: the copy that meets no obstacle, the pull that is allowed to start, the READ_REQ that is no pull's. -/
theorem matchedMessagesAreMoved : Obligations.MatchedMessagesAreMoved := by
  refine fun v s => ⟨?_, ?_, ?_⟩
  · rintro e x z st y _ he eager covered hb hz rfl goes
    exact execUnexpectedCopy_frees he eager covered hb hz goes
  · intro e x k z st y he hb hz hk first whole runs limit
    exact execPullStart_starts he hb hz hk first whole runs limit
  · intro h k m hk serve plain
    exact execReadReq_answers hk serve plain

end

/-! A control cell at its context, what is then said to the peer, and when nothing settles on a connection (06 R207, R210,
08 R293). -/

namespace Sys2Proof.Machine

/-! ### A control cell reaches its context -/

theorem State.gen_eq_of_regs {s t : State} (hr : t.regs = s.regs) (hp : t.part = s.part) (i : Nat) : t.gen i = s.gen i :=
  State.fld_eq_of_regs hr hp _

theorem State.stale_eq_of_regs {s t : State} (hr : t.regs = s.regs) (hp : t.part = s.part) (k : Conn) :
    t.stale k = s.stale k := by
  simp only [State.stale, State.gen_eq_of_regs hr hp]

theorem State.onDie_eq_of_xpt {s t : State} (hx : t.xpt = s.xpt) (hr : t.regs = s.regs) (hp : t.part = s.part) (h : Nat) :
    t.onDie h = s.onDie h := by
  simp only [State.onDie, State.conn?_eq_of_xpt hx, State.tileActive, State.tileState, State.tileChanging, State.tileTarget,
    State.flag, State.ctxTile, State.nInst, State.fld_eq_of_regs hr hp]

/-- Whether a cell reaches a context is fixed by the connections and the registers. -/
theorem State.ReachesConn.congr {s t : State} {c : Cell} {typ kind h : Nat} {k : Conn} (r : s.ReachesConn c typ kind h k)
    (hx : t.xpt = s.xpt) (hr : t.regs = s.regs) (hp : t.part = s.part) : t.ReachesConn c typ kind h k where
  here := by
    simpa only [State.addressed, State.addr, State.flag, State.fld_eq_of_regs hr hp] using r.here
  sound := r.sound
  format := r.format
  form := r.form
  type := r.type
  known := r.known
  kind := r.kind
  handle := r.handle
  conn := (State.conn?_eq_of_xpt hx h).trans r.conn
  peer := r.peer
  current := (State.stale_eq_of_regs hr hp k).trans r.current
  here' := (State.onDie_eq_of_xpt hx hr hp h).trans r.here'

theorem State.ReachesConn.see {s : State} {c : Cell} {typ kind h : Nat} {k : Conn} (r : s.ReachesConn c typ kind h k)
    (v : View) : (s.see v).ReachesConn c typ kind h k :=
  r.congr (by simp) (by simp) (by simp)

/-- A cell that the checks at its destination let through has its effect, out of the delivered cells. -/
theorem State.receive_of_delivers {s : State} {c : Cell} (d : s.Delivers c) (f : State → State) :
    s.receive c f = f (s.arrive c) := by
  obtain ⟨here, sound, format, form⟩ := d
  have addressed : (s.arrive c).addressed = s.addressed := by
    simp only [State.addressed, State.flag, State.fld_eq_of_regs (t := s.arrive c) (s := s) (by simp) (by simp)]
  unfold State.receive
  obtain hl | ⟨ha, hd⟩ := here
  · simp [hl, sound, format, form]
  · simp [ha, hd, addressed, sound, format, form]

/-- The state in which a control cell acts on the context of connection `h`: the cell has arrived, and the use of the context is
marked. -/
def State.atContext (s : State) (c : Cell) (h : Nat) : State :=
  (s.arrive c).modConn h (fun k => { k with used := (s.arrive c).t })

theorem State.needContext_of_onDie {s : State} {h : Nat} (here : s.onDie h = true) :
    s.needContext h = s.modConn h (fun k => { k with used := s.t }) :=
  if_pos here

@[simp] theorem State.atContext_regs (s : State) (c : Cell) (h : Nat) : (s.atContext c h).regs = s.regs := by
  simp [State.atContext]

@[simp] theorem State.atContext_part (s : State) (c : Cell) (h : Nat) : (s.atContext c h).part = s.part := by
  simp [State.atContext]

@[simp] theorem State.atContext_inj (s : State) (c : Cell) (h : Nat) : (s.atContext c h).inj = s.inj := by
  simp [State.atContext]

@[simp] theorem State.atContext_rd (s : State) (c : Cell) (h a : Nat) : (s.atContext c h).rd a = s.rd a :=
  State.rd_eq_of_regs (by simp) (by simp) a

theorem State.conn?_bump (s : State) (a h : Nat) : (s.bump a).conn? h = s.conn? h := rfl

theorem State.modConn_conn?_self {s : State} {h : Nat} {k : Conn} (hk : s.conn? h = some k) (f : Conn → Conn) :
    (s.modConn h f).conn? h = some (f k) := by
  rw [State.conn?_modConn, if_pos rfl, hk]
  rfl

section

variable {s : State} {c : Cell} {h : Nat} {k : Conn}

theorem State.ReachesConn.atContext_conn? {typ kind : Nat} (r : s.ReachesConn c typ kind h k) :
    (s.atContext c h).conn? h = some { k with used := (s.arrive c).t } :=
  State.modConn_conn?_self ((State.conn?_eq_of_xpt (by simp) h).trans r.conn) _

theorem State.ReachesConn.withCtl {typ kind : Nat} (r : s.ReachesConn c typ kind h k) (f : State → Nat → Conn → State) :
    s.withCtl c typ kind f = f (s.atContext c h) h k := by
  obtain ⟨-, type, known, hkind, handle, conn, peer, current, here⟩ :=
    r.congr (t := s.arrive c) (by simp) (by simp) (by simp)
  unfold State.withCtl
  rw [if_neg (fun other => other type), known, if_neg Bool.false_ne_true, if_neg (fun other => other hkind),
    State.receive_of_delivers r.toDelivers]
  simp [handle, conn, peer, current, here, State.needContext_of_onDie here, State.atContext]

/-- An RMA_CTRL cell of operation `op` has that operation's effect on its context (08 R293). -/
theorem State.ReachesConn.withRma (r : s.ReachesConn c tyNOTICE kRMACTRL h k) {op : Nat} (hop : c.pb 16 1 = op)
    (f : State → Nat → Conn → State) : s.withRma c op f = f (s.atContext c h) h k := by
  unfold State.withRma
  rw [hop, if_neg (by simp), r.withCtl]

end

/-! ### What is said to the peer -/

theorem State.conn?_eq_of_conns {s t : State} (hc : t.xpt.conns = s.xpt.conns) (h : Nat) : t.conn? h = s.conn? h := by
  simp only [State.conn?, hc]

/-- The endpoint of the peer of connection `h`. -/
def State.peerOf (s : State) (h : Nat) : Option Nat := (s.conn? h).map (·.peerEp)

theorem State.peerOf_of_conn? {s : State} {h : Nat} {k : Conn} (hk : s.conn? h = some k) : s.peerOf h = some k.peerEp := by
  rw [State.peerOf, hk]
  rfl

theorem State.ReachesConn.atContext_peerOf {s : State} {c : Cell} {typ kind h : Nat} {k : Conn}
    (r : s.ReachesConn c typ kind h k) : (s.atContext c h).peerOf h = some k.peerEp := by
  rw [State.peerOf, r.atContext_conn?]
  rfl

theorem State.peerOf_eq_of_conns {s t : State} (hc : t.xpt.conns = s.xpt.conns) (h : Nat) : t.peerOf h = s.peerOf h := by
  rw [State.peerOf, State.conn?_eq_of_conns hc, State.peerOf]

/-- The last control cell that waits for the send path is a NOTICE to endpoint `p`. -/
def Inject.SaysLast (i : Inject) (p : Nat) : Prop :=
  ∃ y, i.ctl.getLast? = some y ∧ y.typ = tyNOTICE ∧ y.dst = p

/-- An RMA_CTRL cell waits for the send path behind the others, a NOTICE to the connection's peer (08 R293, 13 R414). -/
theorem State.sayRma_ctl {s : State} {h p : Nat} (hp : s.peerOf h = some p) (op dseq status epoch tag : Nat) :
    ∃ y, (s.sayRma h op dseq status epoch tag).inj.ctl = s.inj.ctl ++ [y] ∧ y.typ = tyNOTICE ∧ y.dst = p := by
  obtain ⟨k, hk, rfl⟩ := Option.map_eq_some_iff.1 hp
  simp only [State.sayRma, State.sayCtl, hk]
  exact ⟨_, rfl, rfl, rfl⟩

theorem State.sayRma_last {s : State} {h p : Nat} (hp : s.peerOf h = some p) (op dseq status epoch tag : Nat) :
    (s.sayRma h op dseq status epoch tag).inj.SaysLast p := by
  obtain ⟨y, said, type, dst⟩ := State.sayRma_ctl hp op dseq status epoch tag
  exact ⟨y, by rw [said, List.getLast?_concat], type, dst⟩

theorem State.peerOf_modConn {f : Conn → Conn} (hf : ∀ k, (f k).peerEp = k.peerEp) (s : State) (h j : Nat) :
    (s.modConn h f).peerOf j = s.peerOf j :=
  State.conn?_map_modConn hf s h j

theorem State.peerOf_forgetRec (s : State) (h q j : Nat) : (s.forgetRec h q).peerOf j = s.peerOf j := by
  refine State.peerOf_modConn (fun k => ?_) s h j
  split <;> rfl

/-! ### A connection on which nothing can settle -/

theorem State.foldl_fixed {α : Type} {f : State → α → State} {s : State} (fixed : ∀ a, f s a = s) (l : List α) :
    l.foldl f s = s := by
  induction l with
  | nil => rfl
  | cons a l ih => rw [List.foldl_cons, fixed, ih]

theorem mem_insertBy {α : Type} {key : α → Nat} {x y : α} {l : List α} (h : y ∈ insertBy key x l) : y = x ∨ y ∈ l := by
  induction l with
  | nil => exact .inl (List.mem_singleton.1 h)
  | cons z l ih =>
    unfold insertBy at h
    split at h
    · exact List.mem_cons.1 h
    · obtain rfl | h := List.mem_cons.1 h
      · exact .inr (List.mem_cons_self ..)
      · exact (ih h).imp_right (List.mem_cons_of_mem _)

theorem mem_sortBy {α : Type} {key : α → Nat} {l : List α} {y : α} (h : y ∈ sortBy key l) : y ∈ l := by
  cases l with
  | nil => exact h
  | cons a l =>
    exact List.foldlRecOn (motive := fun acc : List α => y ∈ acc → y ∈ a :: l) _ _
      (fun h => absurd h List.not_mem_nil) (fun acc ih x hx h => (mem_insertBy h).elim (fun e => e ▸ hx) ih) h

section

variable {s : State} {h : Nat} {k : Conn} (hk : s.conn? h = some k)

include hk

/-- Only a message whose target is open meets the matching point (07 R255). -/
theorem State.settleMatch_of_targets (targets : ∀ m ∈ k.rx, m.target ≠ .unknown) : s.settleMatch h = s := by
  have none : ∀ m ∈ k.inOrder, m.target ≠ .unknown := fun m hm => targets m (mem_sortBy hm)
  simp only [State.settleMatch, hk]
  rw [List.find?_eq_none.2 fun m hm => by simp [none m hm]]

theorem State.settleCell_of_no_rx (rx : k.rx = []) (c : Cell) : s.settleCell h c = s := by
  simp [State.settleCell, hk, Conn.msgFor, rx]

theorem State.checkTag_of_no_rx (rx : k.rx = []) (q : Nat) : s.checkTag h q = s := by
  simp only [State.checkTag, hk]
  split
  next m e _ known _ => simp [Conn.msgFor, rx] at known
  next => rfl

/-- A round changes nothing where every message has its target, and no message is known or no segment is on record. -/
theorem State.settleRound_idle (targets : ∀ m ∈ k.rx, m.target ≠ .unknown) (idle : k.rx = [] ∨ k.recs = []) :
    s.settleRound h = s := by
  simp only [State.settleRound, State.settleMatch_of_targets hk targets, hk]
  obtain rx | recs := idle
  · have cells := State.foldl_fixed (f := fun s c => s.settleCell h c) (State.settleCell_of_no_rx hk rx)
    have tags := State.foldl_fixed (f := fun s q => s.checkTag h q) (State.checkTag_of_no_rx hk rx)
    rw [cells, tags]
  · simp [recs]

theorem State.settleAll_idle (targets : ∀ m ∈ k.rx, m.target ≠ .unknown) (idle : k.rx = [] ∨ k.recs = []) :
    s.settleAll h = s := by
  have rounds (n : Nat) : s.settle h n = s := by
    induction n with
    | zero => rfl
    | succ n ih => rw [State.settle, State.settleRound_idle hk targets idle, ih]
  exact rounds _

end

end Sys2Proof.Machine

/-! Keys are switched and spent: TAG, KEY_SWITCH, its answer and NO_KEY at the context that they reach (08 R299-R305). -/

namespace Sys2Proof.Machine

/-! ### The commands -/

section

variable {c : Cell} {s : State} {h : Nat} {k : Conn} (r : s.ReachesConn c tyNOTICE kRMACTRL h k)

include r

/-- The tag of an encrypted connection that knows no message yet is kept with its segment's record (08 R299). -/
theorem execTag_keeps (op : c.pb 16 1 = rcTAG) (rx : k.rx = []) (opened : k.st = .opened) (enc : k.encrypt = true) :
    ∃ t, exec (.tag c) s = .next t ∧ t.regs = s.regs ∧
      (t.conn? h).map (·.recs) = some (k.recs.map (fun r => if r.seq = ccDseq c then (if r.tagOk then r else
        { r with tag := some (BitVec.ofNat 128 (ofBytesBE ((List.range 16).map (fun i => c.pb (32 + i) 1)))) }) else r)) := by
  refine ⟨_, rfl, ?_⟩
  rw [r.withRma op, if_neg (by simp [opened, enc])]
  dsimp only
  have kept := State.modConn_conn?_self r.atContext_conn? (fun k => k.modRec (ccDseq c) (fun r => if r.tagOk then r else
    { r with tag := some (BitVec.ofNat 128 (ofBytesBE ((List.range 16).map (fun i => c.pb (32 + i) 1)))) }))
  rw [State.checkTag_of_no_rx kept rx, State.settleAll_idle kept (by simp [Conn.modRec, rx]) (.inl rx), kept]
  exact ⟨s.atContext_regs c h, rfl⟩

/-- KEY_SWITCH on a connection that is not encrypted is counted (08 R305). -/
theorem execKeySwitch_counts (op : c.pb 16 1 = rcKEYSWITCH) (plain : k.encrypt = false) :
    ∃ t, exec (.keySwitch c) s = .next t ∧ t.rd Reg.CTL_RMA_NO_KEY = s.rd Reg.CTL_RMA_NO_KEY + 1#32 := by
  refine ⟨_, rfl, ?_⟩
  rw [r.withRma op, State.takeKeySwitch, r.atContext_conn?]
  simp only [plain, Bool.not_false, if_true]
  rw [State.rd_bump_self, State.atContext_rd]

end

/-- The receiving end's part of KEY_SWITCH for epoch `e` from boundary `b` on, which it does once (08 R301 step 3). -/
def State.enterEpoch (s : State) (h : Nat) (k : Conn) (e b : Nat) : State :=
  if k.keys.any (fun x => x.epoch == e && x.rxFrom == some b) then s else
    (k.recs.foldl (fun s r => s.forgetRec h r.seq) s).modConn h (fun k => { k with
      keys := k.keys.map (fun x => if x.epoch = e then { x with rxFrom := some b, rxCount := dist (k.wm + 1) b } else x) })

theorem State.enterEpoch_inj (s : State) (h : Nat) (k : Conn) (e b : Nat) : (s.enterEpoch h k e b).inj = s.inj := by
  unfold State.enterEpoch
  split <;> simp

theorem State.enterEpoch_peerOf (s : State) (h : Nat) (k : Conn) (e b j : Nat) :
    (s.enterEpoch h k e b).peerOf j = s.peerOf j := by
  refine State.ite_keeps (fun u : State => u.peerOf j) rfl ?_
  refine (State.peerOf_modConn ?_ ..).trans (State.foldl_keeps (fun u => u.peerOf j) (fun u r => u.peerOf_forgetRec ..) _ s)
  exact fun _ => rfl

/-- An end that holds the epoch enters it and answers (08 R301 step 3). -/
theorem State.takeKeySwitch_held {s : State} {h e : Nat} {k : Conn} (hk : s.conn? h = some k) (enc : k.encrypt = true)
    (held : k.keys.any (fun x => x.epoch == e && !x.spent) = true) (b : Nat) :
    s.takeKeySwitch h e b = ((s.enterEpoch h k e b).sayRma h rcKEYACK b 0 e 0).retireKey h := by
  simp only [State.takeKeySwitch, hk, enc, held, Bool.not_true, Bool.false_eq_true, if_false]
  rfl

theorem State.switching_progressOn (s : State) (h : Nat) :
    ((s.progressOn h).conn? h).map (·.switching) = (s.conn? h).map (·.switching) := by
  refine State.conn?_map_modConn ?_ s h h
  exact fun _ => rfl

theorem State.switching_retireKey (s : State) (h : Nat) :
    ((s.retireKey h).conn? h).map (·.switching) = (s.conn? h).map (·.switching) := by
  refine State.conn?_map_modConn (fun k => ?_) s h h
  split
  · split <;> rfl
  · rfl

section

variable {c : Cell} {s : State} {h : Nat} {k : Conn} (r : s.ReachesConn c tyNOTICE kRMACTRL h k)

include r

theorem execKeySwitch_answers (op : c.pb 16 1 = rcKEYSWITCH) (enc : k.encrypt = true)
    (held : k.keys.any (fun x => x.epoch == c.pb 18 1 && !x.spent) = true) :
    ∃ t y, exec (.keySwitch c) s = .next t ∧ t.inj.ctl = s.inj.ctl ++ [y] ∧ y.typ = tyNOTICE ∧ y.dst = k.peerEp := by
  obtain ⟨y, said, type, dst⟩ := State.sayRma_ctl ((State.enterEpoch_peerOf ..).trans r.atContext_peerOf)
    rcKEYACK (ccDseq c) 0 (c.pb 18 1) 0
  refine ⟨_, y, rfl, ?_, type, dst⟩
  rw [r.withRma op, State.takeKeySwitch_held r.atContext_conn? enc held]
  simpa [State.enterEpoch_inj] using said

/-- The answer to the KEY_SWITCH under way ends it, and is counted (08 R301 step 4). -/
theorem execKeySwitchAck_ends (op : c.pb 16 1 = rcKEYACK) (underway : k.switching = some (c.pb 18 1, ccDseq c)) :
    ∃ t, exec (.keySwitchAck c) s = .next t ∧ (t.conn? h).map (·.switching) = some none ∧
      t.rd Reg.CTL_RMA_KEY_SWITCH = s.rd Reg.CTL_RMA_KEY_SWITCH + 1#32 := by
  refine ⟨_, rfl, ?_⟩
  rw [r.withRma op, if_neg (by simp [underway])]
  dsimp only
  constructor
  · rw [State.switching_retireKey, State.switching_progressOn, State.conn?_bump, State.modConn_conn?_self r.atContext_conn?]
    rfl
  · have kept (u : State) (a : Nat) : ((u.progressOn h).retireKey h).rd a = u.rd a := rfl
    rw [kept, State.rd_bump_self]
    exact congrArg (· + 1#32) (s.atContext_rd c h _)

/-- NO_KEY ends a switch under way and spends the keys (08 R304). -/
theorem execNoKey_spends (op : c.pb 16 1 = rcNOKEY) : ∃ t, exec (.noKey c) s = .next t ∧ t.regs = s.regs ∧
    (t.conn? h).map (fun k => (k.switching, k.keys.all (·.spent))) = some (none, true) := by
  refine ⟨_, rfl, ?_⟩
  rw [r.withRma op, State.modConn_conn?_self r.atContext_conn?]
  exact ⟨s.atContext_regs c h, by simp [List.all_map, Function.comp_def, -List.map_drop]⟩

end

end Sys2Proof.Machine

section

open Sys2Proof.Machine

/-- Settles O38: each of the four cells at the context that it reaches. -/
theorem keysAreSwitchedAndSpent : Obligations.KeysAreSwitchedAndSpent := by
  intro c s h k r
  exact ⟨execTag_keeps r, execKeySwitch_counts r, execKeySwitch_answers r, execKeySwitchAck_ends r, execNoKey_spends r⟩

end

/-! Failures are reported and confirmed: a source read that fails, SOURCE_FAULT, FAULT and FAULT_CONFIRM (08 R293, R294, R602). -/

namespace Sys2Proof.Machine

/-! ### The failure of a message at the receiving end -/

theorem State.noteReadFail_conns (s : State) (h q status : Nat) : (s.noteReadFail h q status).xpt.conns = s.xpt.conns := by
  refine State.foldl_keeps (fun u => u.xpt.conns) (fun u x => ?_) _ s
  repeat' split
  all_goals rfl

theorem State.boundTarget_known (s : State) (e : Nat) : s.boundTarget e ≠ .unknown := by
  unfold State.boundTarget
  split <;> nofun

/-- Context `k'` is `k` after its message at `q` has failed with `status`: the message counts as placed and its target is not
open, and no segment's record has come (08 R287, R294). -/
structure Conn.Fails (k k' : Conn) (q status : Nat) : Prop where
  peer : k'.peerEp = k.peerEp
  recs : k.recs = [] → k'.recs = []
  rx : ∃ tgt, tgt ≠ RxTarget.unknown ∧
    k'.rx = k.rx.map (fun m => if m.seq = q then { m with status := status, placed := m.len, target := tgt } else m)

theorem State.failMsg_conn? {s : State} {h q : Nat} {k : Conn} {m : RxMsg} (hk : s.conn? h = some k)
    (found : k.rx.find? (fun m => m.seq == q) = some m) (sound : m.status = 0) (status : Nat) :
    ∃ k', (s.failMsg h q status).conn? h = some k' ∧ k.Fails k' q status := by
  have said (u : State) (l : List CtlSay) : (l.foldl (fun s a => s.sayCtl h a) u).conn? h = u.conn? h :=
    State.foldl_keeps (fun u : State => u.conn? h) (fun u a => State.conn?_eq_of_xpt (by simp) h) l u
  have noted : (if m.typ = tyREADRESP then s.noteReadFail h (m.cell0.extImm % 65536) status else s).conn? h = some k :=
    (State.ite_keeps (fun u : State => u.conn? h) (State.conn?_eq_of_conns (s.noteReadFail_conns ..) h) rfl).trans hk
  simp only [State.failMsg, hk, Option.bind_some, found, if_neg (Decidable.not_not.2 sound)]
  refine ⟨_, (said _ _).trans (State.modConn_conn?_self (k := k) ?_ _), rfl, fun recs => ?_, _, ?_, rfl⟩
  · split
    · exact noted
    · exact noted
  · simp [recs]
  · split
    · nofun
    · exact State.boundTarget_known _ _
    · nofun

/-! ### The failed message at the front: F and FAULT -/

/-- Contexts `k` and `k'` have the same peer and segment records, and their messages the same targets and statuses: F, and for
which failed messages FAULT has gone out, may differ. -/
structure Conn.SameRx (k k' : Conn) : Prop where
  peer : k'.peerEp = k.peerEp
  recs : k'.recs = k.recs
  rx : k'.rx.map (fun m => (m.target, m.status)) = k.rx.map (fun m => (m.target, m.status))

theorem State.moveFront_conn? {s : State} {h : Nat} {k : Conn} (hk : s.conn? h = some k) :
    ∃ k', (s.moveFront h).conn? h = some k' ∧ k.SameRx k' :=
  ⟨_, State.modConn_conn?_self hk _, rfl, rfl, rfl⟩

theorem State.faultCheck_conn? {s : State} {h : Nat} {k : Conn} (hk : s.conn? h = some k) :
    ∃ k', (s.faultCheck h).conn? h = some k' ∧ k.SameRx k' := by
  have said (u : State) (op q st e tag : Nat) : (u.sayRma h op q st e tag).conn? h = u.conn? h :=
    State.conn?_eq_of_xpt (by simp) h
  simp only [State.faultCheck, hk]
  split
  · exact ⟨k, hk, rfl, rfl, rfl⟩
  · refine ⟨_, (said ..).trans (State.modConn_conn?_self hk _), rfl, rfl, ?_⟩
    simp only [Conn.modRx, List.map_map]
    refine List.map_congr_left fun m _ => ?_
    simp only [Function.comp]
    split <;> rfl

/-- A sound message at `q` that fails has the status and a target that is not open, and no segment record comes (08 R294). -/
theorem State.failReq_conn? {s : State} {h q : Nat} {k : Conn} {m : RxMsg} (hk : s.conn? h = some k)
    (found : k.rx.find? (fun m => m.seq == q) = some m) (sound : m.status = 0) (status : Nat) :
    ∃ k' tgt, (s.failReq h q status).conn? h = some k' ∧ (k.recs = [] → k'.recs = []) ∧ tgt ≠ RxTarget.unknown ∧
      k'.rx.map (fun m => (m.target, m.status)) =
        k.rx.map (fun m => if m.seq = q then (tgt, status) else (m.target, m.status)) := by
  obtain ⟨k₁, failed, -, recs₁, tgt, known, rx₁⟩ := State.failMsg_conn? hk found sound status
  obtain ⟨k₂, moved, -, recs₂, rx₂⟩ := State.moveFront_conn? failed
  obtain ⟨k₃, told, -, recs₃, rx₃⟩ := State.faultCheck_conn? moved
  refine ⟨k₃, tgt, told, fun none => recs₃.trans (recs₂.trans (recs₁ none)), known, ?_⟩
  rw [rx₃, rx₂, rx₁, List.map_map]
  refine List.map_congr_left fun m _ => ?_
  simp only [Function.comp]
  split <;> rfl

theorem State.faultCheck_peerOf (s : State) (h : Nat) : (s.faultCheck h).peerOf h = s.peerOf h := by
  cases hk : s.conn? h with
  | none => simp [State.faultCheck, hk]
  | some k =>
    obtain ⟨k', hk', same⟩ := State.faultCheck_conn? hk
    rw [State.peerOf_of_conn? hk', State.peerOf_of_conn? hk, same.peer]

theorem State.failMsg_peerOf (s : State) (h q status : Nat) : (s.failMsg h q status).peerOf h = s.peerOf h := by
  cases hk : s.conn? h with
  | none => simp [State.failMsg, hk]
  | some k =>
    cases found : k.rx.find? (fun m => m.seq == q) with
    | none => simp [State.failMsg, hk, found]
    | some m =>
      by_cases sound : m.status = 0
      · obtain ⟨k', hk', fails⟩ := State.failMsg_conn? hk found sound status
        rw [State.peerOf_of_conn? hk', State.peerOf_of_conn? hk, fails.peer]
      · simp [State.failMsg, hk, found, sound]

theorem State.failReq_peerOf (s : State) (h q status : Nat) : (s.failReq h q status).peerOf h = s.peerOf h := by
  have moved : ((s.failMsg h q status).moveFront h).peerOf h = (s.failMsg h q status).peerOf h := by
    refine State.peerOf_modConn ?_ ..
    exact fun _ => rfl
  exact (State.faultCheck_peerOf ..).trans (moved.trans (State.failMsg_peerOf ..))

/-- SOURCE_FAULT for the one message that is known, and sound, fails it with INTEGRITY (08 R602 step 3). -/
theorem execSourceFault_fails {c : Cell} {s : State} {h : Nat} {k : Conn} {m : RxMsg}
    (r : s.ReachesConn c tyNOTICE kRMACTRL h k) (op : c.pb 16 1 = rcSOURCEFAULT) (opened : k.st = .opened) (rx : k.rx = [m])
    (recs : k.recs = []) (seq : m.seq = ccDseq c) (sound : m.status = 0) :
    ∃ t, exec (.sourceFault c) s = .next t ∧ (t.conn? h).map (fun k => k.rx.map (·.status)) = some [stINTEGRITY] := by
  have found : k.rx.find? (fun m => m.seq == ccDseq c) = some m := by simp [rx, seq]
  have run : (s.atContext c h).takeSourceFault h (ccDseq c) c =
      (((s.atContext c h).bump Reg.CTL_RMA_XLT_FAULT).failReq h (ccDseq c) stINTEGRITY).settleAll h := by
    simp only [State.takeSourceFault, r.atContext_conn?, opened, found, sound, ne_eq, not_true_eq_false, if_false]
    rfl
  obtain ⟨k', tgt, hk', recs', known, rx'⟩ := State.failReq_conn?
    ((State.conn?_bump _ Reg.CTL_RMA_XLT_FAULT h).trans r.atContext_conn?) found sound stINTEGRITY
  have failed : k'.rx.map (fun m => (m.target, m.status)) = [(tgt, stINTEGRITY)] := by
    rw [rx']
    simp [rx, seq]
  have targets : ∀ m ∈ k'.rx, m.target ≠ .unknown := fun m hm => by
    have mem := List.mem_map_of_mem (f := fun m : RxMsg => (m.target, m.status)) hm
    rw [failed, List.mem_singleton] at mem
    exact (Prod.mk.inj mem).1 ▸ known
  refine ⟨_, rfl, ?_⟩
  rw [r.withRma op, run, State.settleAll_idle hk' targets (.inr (recs' recs)), hk']
  have statuses := congrArg (List.map Prod.snd) failed
  rw [List.map_map] at statuses
  exact congrArg some statuses

/-! ### The source read that fails -/

/-- Whether the sending of message `id` has been stopped. -/
def State.stoppedOf (s : State) (id : Nat) : Option Bool := (s.msg? id).map (·.stopped)

theorem State.stoppedOf_eq_of_msgs {s t : State} (h : t.xpt.msgs = s.xpt.msgs) (id : Nat) :
    t.stoppedOf id = s.stoppedOf id := by
  rw [State.stoppedOf, State.msg?, h, State.stoppedOf, State.msg?]

theorem State.msg?_modMsg_self (s : State) (id : Nat) (f : TxMsg → TxMsg) : (s.modMsg id f).msg? id = (s.msg? id).map f :=
  (Map.get?_mod ..).trans (if_pos rfl)

theorem State.stoppedOf_modMsg {f : TxMsg → TxMsg} (hf : ∀ m, (f m).stopped = m.stopped) (s : State) (j id : Nat) :
    (s.modMsg j f).stoppedOf id = s.stoppedOf id := by
  rw [State.stoppedOf, State.msg?, State.modMsg, Map.get?_mod]
  split
  · simp [State.stoppedOf, State.msg?, Function.comp_def, hf]
  · rfl

theorem State.noteReadFail_stoppedOf (s : State) (h q status id : Nat) :
    (s.noteReadFail h q status).stoppedOf id = s.stoppedOf id := by
  refine State.foldl_keeps (fun u => u.stoppedOf id) (fun u x => ?_) _ s
  repeat' split
  · rfl
  · refine State.stoppedOf_modMsg ?_ u x.1 id
    exact fun _ => rfl
  · rfl

theorem State.failMsg_stoppedOf (s : State) (h q status id : Nat) :
    (s.failMsg h q status).stoppedOf id = s.stoppedOf id := by
  have said (u : State) (l : List CtlSay) : (l.foldl (fun s a => s.sayCtl h a) u).stoppedOf id = u.stoppedOf id :=
    State.foldl_keeps (fun u : State => u.stoppedOf id) (fun u a => State.stoppedOf_eq_of_msgs (by simp) id) l u
  have noted (m : RxMsg) : (if m.typ = tyREADRESP then s.noteReadFail h (m.cell0.extImm % 65536) status else s).stoppedOf id =
      s.stoppedOf id := State.ite_keeps (fun u : State => u.stoppedOf id) (s.noteReadFail_stoppedOf ..) rfl
  unfold State.failMsg
  split
  · rfl
  · next m _ =>
    refine State.ite_keeps (fun u : State => u.stoppedOf id) rfl ((said _ _).trans (Eq.trans ?_ (noted m)))
    split <;> rfl

/-- The failure of a READ_REQ whose answer cannot be sent stops no message, and leaves the peer (08 R602). -/
theorem State.failServed_keeps (s : State) (h st : Nat) (m : TxMsg) (id : Nat) :
    (s.failServed h st m).stoppedOf id = s.stoppedOf id ∧ (s.failServed h st m).peerOf h = s.peerOf h := by
  unfold State.failServed
  split
  · next q _ _ =>
    constructor
    · refine (State.stoppedOf_eq_of_msgs (State.faultCheck_msgs ..) id).trans ?_
      exact State.failMsg_stoppedOf (s.bump Reg.CTL_RMA_XLT_FAULT) h q st id
    · exact State.failReq_peerOf (s.bump Reg.CTL_RMA_XLT_FAULT) h q st
  · exact ⟨rfl, rfl⟩

/-- A message with a SEQ whose source data are lost stops, and the last that is said is SOURCE_FAULT (08 R602 steps 1
and 2). -/
theorem State.sourceLost_stops {s : State} {id q : Nat} {m : TxMsg} {k : Conn} (hm : s.msg? id = some m)
    (runs : m.stopped = false) (seq : m.seq = some q) (hk : s.conn? m.handle = some k) :
    (s.sourceLost id).stoppedOf id = some true ∧ (s.sourceLost id).inj.SaysLast k.peerEp := by
  obtain ⟨stopped, peer⟩ :=
    State.failServed_keeps (s.modMsg id (fun m => { m with stopped := true })) m.handle stINTEGRITY m id
  simp only [State.sourceLost, hm, runs, seq, Bool.false_eq_true, if_false]
  constructor
  · have said (u : State) (op dseq st : Nat) : (u.sayRma m.handle op dseq st 0 0).stoppedOf id = u.stoppedOf id :=
      State.stoppedOf_eq_of_msgs (by simp) id
    rw [said, stopped, State.stoppedOf, State.msg?_modMsg_self, hm]
    rfl
  · exact State.sayRma_last (peer.trans (State.peerOf_of_conn? hk)) ..

/-- The host port's fault is raised first, which leaves connections and messages alone (18 R525). -/
theorem State.sourceReadFail_eq {s : State} {id : Nat} {m : TxMsg} (hm : s.msg? id = some m) (timeout : Bool) :
    ∃ u : State, s.sourceReadFail id timeout = u.sourceLost id ∧ u.xpt = s.xpt := by
  simp only [State.sourceReadFail, hm]
  exact ⟨_, rfl, by simp⟩

theorem execSourceReadFail_stops {v : View} {s : State} {id q : Nat} (timeout : Bool) {m : TxMsg} {k : Conn}
    (hm : (s.see v).msg? id = some m) (runs : m.stopped = false) (seq : m.seq = some q)
    (hk : s.conn? m.handle = some k) :
    ∃ t y, exec (.sourceReadFail id timeout v) s = .next t ∧ (t.msg? id).map (·.stopped) = some true ∧
      t.inj.ctl.getLast? = some y ∧ y.typ = tyNOTICE ∧ y.dst = k.peerEp := by
  obtain ⟨u, run, raised⟩ := State.sourceReadFail_eq hm timeout
  have msg : u.msg? id = some m := by rw [State.msg?, raised, ← hm, State.msg?]
  have conn : u.conn? m.handle = some k := (State.conn?_eq_of_xpt (raised.trans (by simp)) _).trans hk
  obtain ⟨stopped, y, said⟩ := State.sourceLost_stops msg runs seq conn
  refine ⟨_, y, rfl, ?_⟩
  rw [run]
  exact ⟨stopped, said⟩

/-! ### What FAULT does before it is answered leaves the peer -/

theorem State.finishStored_peerOf (s : State) (e : Nat) (x : StoreEntry) (status bytes j : Nat) :
    (s.finishStored e x status bytes).peerOf j = s.peerOf j := by
  have finished (u : State) (z st body : Nat) : (u.finishSlot z st body).peerOf j = u.peerOf j :=
    State.peerOf_eq_of_conns (by simp) j
  have freed (u : State) : (((u.jrnlConn x.handle).freeEntry e).taskEnd (.pull e)).peerOf j = u.peerOf j :=
    State.peerOf_eq_of_conns (by simp) j
  have counted (u : State) : (u.unmatchedLess x.handle).peerOf j = u.peerOf j := by
    refine State.peerOf_modConn ?_ u x.handle j
    exact fun _ => rfl
  have cut (u : State) : (if status = stTRUNCATED then u.bump Reg.CTL_MATCH_TRUNC else u).peerOf j = u.peerOf j :=
    State.ite_keeps (fun u : State => u.peerOf j) rfl rfl
  unfold State.finishStored
  split
  · rfl
  · refine (freed _).trans ((State.ite_keeps (fun u : State => u.peerOf j) (counted _) rfl).trans ?_)
    exact (cut _).trans (finished ..)

theorem State.pullCovered_peerOf (s : State) (h e j : Nat) : (s.pullCovered h e).peerOf j = s.peerOf j := by
  have ended : (s.modConn h (fun k => { k with pulls := k.pulls - 1 })).peerOf j = s.peerOf j := by
    refine State.peerOf_modConn ?_ s h j
    exact fun _ => rfl
  have next (u : State) : (u.pullTask h).peerOf j = u.peerOf j := State.peerOf_eq_of_conns (by simp) j
  unfold State.pullCovered
  dsimp only
  split
  · exact ended
  · refine (next _).trans (Eq.trans ?_ ended)
    exact State.ite_keeps (fun u : State => u.peerOf j) (State.finishStored_peerOf ..) (State.finishStored_peerOf ..)

theorem State.covered_peerOf (s : State) (id : Nat) (m : TxMsg) (j : Nat) : (s.covered id m).peerOf j = s.peerOf j := by
  have completed (u : State) (z : Nat) : (u.completeCovered m z).peerOf j = u.peerOf j :=
    State.peerOf_eq_of_conns (by simp) j
  have freed (u : State) (z : Nat) : (u.freeSlot z).peerOf j = u.peerOf j := State.peerOf_eq_of_conns (by simp) j
  have dropped : (s.dropMsg id).peerOf j = s.peerOf j := rfl
  unfold State.covered
  dsimp only
  split
  · exact State.ite_keeps (fun u : State => u.peerOf j) dropped ((completed ..).trans dropped)
  · exact (State.pullCovered_peerOf ..).trans dropped
  · refine (State.peerOf_modConn ?_ ..).trans dropped
    exact fun _ => rfl
  · exact (freed ..).trans dropped
  · exact dropped

theorem State.progressOn_peerOf (s : State) (h j : Nat) : (s.progressOn h).peerOf j = s.peerOf j := by
  refine State.peerOf_modConn ?_ s h j
  exact fun _ => rfl

theorem State.applyWm_peerOf (s : State) (h wm j : Nat) : (s.applyWm h wm).peerOf j = s.peerOf j := by
  unfold State.applyWm
  split
  · rfl
  · refine State.ite_keeps (fun u : State => u.peerOf j) rfl ((State.progressOn_peerOf ..).trans ?_)
    refine (State.foldl_keeps (fun u : State => u.peerOf j) (fun u x => State.covered_peerOf ..) _ _).trans ?_
    refine State.peerOf_modConn ?_ s h j
    exact fun _ => rfl

theorem State.postNotice_xpt (s : State) (i : Nat) (c : Cqe) : (s.postNotice i c).xpt = s.xpt := by
  unfold State.postNotice
  split <;> simp [apply_ite State.xpt]

theorem State.recordFault_peerOf (s : State) (h id st : Nat) (m : TxMsg) (j : Nat) :
    (s.recordFault h id st m).peerOf j = s.peerOf j := by
  refine State.peerOf_eq_of_conns ?_ j
  unfold State.recordFault
  dsimp only
  repeat' split
  all_goals simp [State.postNotice_xpt]

/-! ### FAULT and FAULT_CONFIRM -/

/-- What FAULT does before it is answered: its WM is applied, and the failure is recorded (08 R294 step 4). -/
def State.takeFault (s : State) (c : Cell) (h : Nat) : State :=
  let s := s.applyWm h (ccWm c)
  match s.msgAt h (ccDseq c) with
  | some (id, m) => s.recordFault h id (c.pb 17 1) m
  | none => s

theorem State.takeFault_peerOf (s : State) (c : Cell) (h : Nat) : (s.takeFault c h).peerOf h = s.peerOf h := by
  unfold State.takeFault
  dsimp only
  split
  · exact (State.recordFault_peerOf ..).trans (State.applyWm_peerOf ..)
  · exact State.applyWm_peerOf ..

theorem State.progressOn_expiries {s : State} {h p : Nat} (hp : s.peerOf h = some p) :
    ((s.progressOn h).conn? h).map (·.expiries) = some 0 := by
  obtain ⟨k, hk, -⟩ := Option.map_eq_some_iff.1 hp
  rw [State.progressOn, State.modConn_conn?_self hk]
  rfl

section

variable {c : Cell} {s : State} {h : Nat} {k : Conn} (r : s.ReachesConn c tyNOTICE kRMACTRL h k)

include r

/-- FAULT is answered with FAULT_CONFIRM, and is progress (08 R294 step 5, 06 R216). -/
theorem execFault_confirms (v : View) (op : c.pb 16 1 = rcFAULT) (whole : k.st ≠ .broken) :
    ∃ t y, exec (.fault c v) s = .next t ∧ t.inj.ctl.getLast? = some y ∧ y.typ = tyNOTICE ∧ y.dst = k.peerEp ∧
      (t.conn? h).map (·.expiries) = some 0 := by
  have seen := r.see v
  have peer : (((s.see v).atContext c h).takeFault c h).peerOf h = some k.peerEp :=
    (State.takeFault_peerOf ..).trans seen.atContext_peerOf
  have run : exec (.fault c v) s =
      .next (((((s.see v).atContext c h).takeFault c h).sayRma h rcCONFIRM (ccDseq c) 0 0 0).progressOn h) := by
    refine congrArg Host.Outcome.next ((seen.withRma op _).trans ?_)
    rw [if_neg whole]
    rfl
  obtain ⟨y, last, type, dst⟩ := State.sayRma_last peer rcCONFIRM (ccDseq c) 0 0 0
  have said : (((s.see v).atContext c h).takeFault c h |>.sayRma h rcCONFIRM (ccDseq c) 0 0 0).peerOf h = some k.peerEp :=
    (State.peerOf_eq_of_conns (by simp) h).trans peer
  exact ⟨_, y, run, last, type, dst, State.progressOn_expiries said⟩

/-- FAULT_CONFIRM completes the failed message for which FAULT went out (08 R294 step 6). -/
theorem execFaultConfirm_completes (op : c.pb 16 1 = rcCONFIRM) : ∃ t, exec (.faultConfirm c) s = .next t ∧
    t.regs = s.regs ∧ (t.conn? h).map (·.rx) =
      some (k.rx.map (fun m => if m.seq = ccDseq c then (if m.faultSent then { m with confirmed := true } else m) else m)) := by
  refine ⟨_, rfl, ?_⟩
  rw [r.withRma op, State.modConn_conn?_self r.atContext_conn?]
  exact ⟨s.atContext_regs c h, rfl⟩

end

end Sys2Proof.Machine

section

open Sys2Proof.Machine

/-- Settles O37: each of the four commands, at the connection that it concerns. -/
theorem failuresAreReportedAndConfirmed : Obligations.FailuresAreReportedAndConfirmed := by
  refine fun v c s h k => ⟨?_, ?_, ?_, ?_⟩
  · intro id timeout m q hm runs seq hk
    exact execSourceReadFail_stops timeout hm runs seq hk
  · intro m r op opened rx recs seq sound
    exact execSourceFault_fails r op opened rx recs seq sound
  · intro r op whole
    exact execFault_confirms r v op whole
  · intro r op
    exact execFaultConfirm_completes r op

end

/-! Misses are walked and the flags of table entries updated (11 R368-R375). -/

namespace Sys2Proof.Machine

/-! ### What the parts of a walk do to the slices, the tasks and the registers -/

theorem State.slice_eq_of_xlt {s t : State} (h : t.xlt = s.xlt) (tile : Nat) : t.slice tile = s.slice tile := by
  simp only [State.slice, h]

theorem State.mem_slice_loadTlb (s : State) (tile : Nat) (e : TlbEntry) : e ∈ (s.loadTlb tile e).slice tile := by
  simp [State.slice, State.loadTlb]

theorem State.slice_modTlb (s : State) (tile i ptr : Nat) (f : TlbEntry → Option TlbEntry) :
    (s.modTlb tile i ptr f).slice tile =
      (s.slice tile).filterMap (fun e => if e.inst = i ∧ e.ptr = ptr then f e else some e) := by
  simp [State.slice, State.modTlb]

@[simp] theorem State.lateTask_xlt (s : State) (i : Nat) : (s.lateTask i).xlt = s.xlt := by
  simp [State.lateTask, apply_ite State.xlt]

theorem State.lateTask_rd {a : Nat} (other : a ≠ Reg.CTL_INST_LATE_DROP) (s : State) (i : Nat) :
    (s.lateTask i).rd a = s.rd a :=
  State.ite_keeps (fun u => u.rd a) (State.rd_bump_other other) rfl

@[simp] theorem State.countReads_xlt (s : State) (n : Nat) : (s.countReads n).xlt = s.xlt := by
  simp [State.countReads]

theorem State.countReads_rd {a : Nat} (other : a ≠ Reg.XLT_WALK_READ) (s : State) (n : Nat) :
    (s.countReads n).rd a = s.rd a :=
  (State.rd_eq_of_regs (s := s.bumpBy Reg.XLT_WALK_READ n) (by simp [State.countReads]) (by simp [State.countReads]) a).trans
    (State.rd_wr_other _ _ _ _ other)

/-- Of the translations, a walk's fault changes what waits to be told of it (11 R368). -/
@[simp] theorem State.walkFault_xlt (s : State) (m : Miss) (status level : Nat) :
    (s.walkFault m status level).xlt = (s.failWaits m status).xlt := by
  simp [State.walkFault, State.failWaits]

/-- The first fault since the last read is recorded (11 R368). -/
theorem State.xltFault_info (s : State) (tile i va status level : Nat) (write : Bool) :
    (s.xltFault tile i va status level write).rd Reg.XLT_FAULT_INFO =
      if s.flag F.XLT_FAULT_INFO_VALID then s.rd Reg.XLT_FAULT_INFO else
        BitVec.ofNat 32 (2 ^ 31 + i * 2 ^ 24 + status * 2 ^ 16 + level * 2 ^ 13 + b2n write * 2 ^ 12 + tile * 2 ^ 6) := by
  have counted : (if status = stDEVICE then s.bump Reg.XLT_DEVICE else s.bump Reg.XLT_FAULT).rd Reg.XLT_FAULT_INFO =
      s.rd Reg.XLT_FAULT_INFO :=
    State.ite_keeps (fun u => u.rd Reg.XLT_FAULT_INFO) (State.rd_bump_other (by decide)) (State.rd_bump_other (by decide))
  have valid : (if status = stDEVICE then s.bump Reg.XLT_DEVICE else s.bump Reg.XLT_FAULT).flag F.XLT_FAULT_INFO_VALID =
      s.flag F.XLT_FAULT_INFO_VALID :=
    congrArg (· != 0) (State.fld_eq_of_rd rfl (by decide) counted)
  unfold State.xltFault
  dsimp only
  rw [valid]
  split
  · exact counted
  · exact State.rd_wr_self ..

/-! ### The end of a miss task -/

section

variable {t : TileId} {i : InstId} {va : Nat} {reads : List HostRead} {s : State} {m : Miss}

theorem execTranslationMiss_of_none (idle : s.missFor t.val i.val va = none) :
    exec (.translationMiss t i va reads) s = .next s := by
  simp [exec, execTranslationMiss, idle]

theorem execTranslationMiss_of_waiting (hm : s.missFor t.val i.val va = some m) (waits : s.taskRuns m.task = false) :
    exec (.translationMiss t i va reads) s = .next s := by
  simp [exec, execTranslationMiss, hm, waits]

theorem execTranslationMiss_of_running (hm : s.missFor t.val i.val va = some m) (runs : s.taskRuns m.task = true) :
    exec (.translationMiss t i va reads) s = .next ((s.missDone m reads).missRetry m) := by
  simp [exec, execTranslationMiss, hm, runs]

/-- Every walk is refused until the device list is locked (11 R379). -/
theorem State.missDone_unlocked (live : m.marked = false) (unlocked : s.flag F.XLT_CTRL_DEVLIST_LOCK = false) :
    s.missDone m reads =
      ((s.missOver m).drawn.walkFault m stDEVICE (Config.freeChoice s.draws % 8)).raiseStanding blkXLT 1 0 := by
  simp [State.missDone, live, unlocked]

theorem State.missDone_more {n : Nat} (live : m.marked = false) (locked : s.flag F.XLT_CTRL_DEVLIST_LOCK = true)
    (walk : s.walkOf m reads = (n, .more)) : s.missDone m reads = s := by
  simp [State.missDone, live, locked, walk]

theorem State.missDone_fault {n st l : Nat} (live : m.marked = false) (locked : s.flag F.XLT_CTRL_DEVLIST_LOCK = true)
    (walk : s.walkOf m reads = (n, .fault st l)) :
    s.missDone m reads = ((s.missOver m).countReads n).walkFault m st l := by
  simp [State.missDone, live, locked, walk]

/-- A leaf with ACCESSED set is loaded at once (11 R373). -/
theorem State.missDone_leaf {n l ptr : Nat} {e : Word64} (live : m.marked = false)
    (locked : s.flag F.XLT_CTRL_DEVLIST_LOCK = true) (walk : s.walkOf m reads = (n, .leaf l ptr e))
    (accessed : e.getLsbD 3 = true) :
    s.missDone m reads = ((s.missOver m).countReads n).loadTlb m.tile (leafEntry m ptr (leafLog2 l) e) := by
  simp [State.missDone, State.walkLeaf, live, locked, walk, accessed]

/-- The record of a walk's fault: the reads that were counted before it leave the register alone. -/
theorem State.walkFault_info (n st l : Nat) :
    (((s.missOver m).countReads n).walkFault m st l).rd Reg.XLT_FAULT_INFO =
      if s.flag F.XLT_FAULT_INFO_VALID then s.rd Reg.XLT_FAULT_INFO else
        BitVec.ofNat 32 (2 ^ 31 + m.inst * 2 ^ 24 + st * 2 ^ 16 + l * 2 ^ 13 + b2n m.write * 2 ^ 12 + m.tile * 2 ^ 6) := by
  have counted : ((s.missOver m).countReads n).rd Reg.XLT_FAULT_INFO = s.rd Reg.XLT_FAULT_INFO :=
    State.countReads_rd (by decide) ..
  have valid : ((s.missOver m).countReads n).flag F.XLT_FAULT_INFO_VALID = s.flag F.XLT_FAULT_INFO_VALID :=
    congrArg (· != 0) (State.fld_eq_of_rd rfl (by decide) counted)
  exact (State.xltFault_info ..).trans (by rw [counted, valid])

theorem missTask_unlocked (hm : s.missFor t.val i.val va = some m) (runs : s.taskRuns m.task = true)
    (live : m.marked = false) (unlocked : s.flag F.XLT_CTRL_DEVLIST_LOCK = false) :
    ∃ z : State, exec (.translationMiss t i va reads) s = .next (z.missRetry m) ∧
      z.xlt.tlb = s.xlt.tlb ∧ z.xlt.misses = dropFirst m s.xlt.misses ∧ z.xlt.failed = s.xlt.failed ++
        m.waits.map (fun x => { who := x.1, tile := m.tile, inst := m.inst, va := x.2, status := stDEVICE }) := by
  refine ⟨_, execTranslationMiss_of_running hm runs, ?_⟩
  rw [State.missDone_unlocked live unlocked]
  simp [State.missOver, State.failWaits]

theorem missTask_fault {n st l : Nat} (hm : s.missFor t.val i.val va = some m) (runs : s.taskRuns m.task = true)
    (live : m.marked = false) (locked : s.flag F.XLT_CTRL_DEVLIST_LOCK = true)
    (walk : s.walkOf m reads = (n, .fault st l)) :
    ∃ z : State, exec (.translationMiss t i va reads) s = .next (z.missRetry m) ∧
      z.xlt.tlb = s.xlt.tlb ∧ z.xlt.misses = dropFirst m s.xlt.misses ∧ z.xlt.failed = s.xlt.failed ++
        m.waits.map (fun x => { who := x.1, tile := m.tile, inst := m.inst, va := x.2, status := st }) ∧
      z.rd Reg.XLT_FAULT_INFO = if s.flag F.XLT_FAULT_INFO_VALID then s.rd Reg.XLT_FAULT_INFO else
        BitVec.ofNat 32 (2 ^ 31 + m.inst * 2 ^ 24 + st * 2 ^ 16 + l * 2 ^ 13 + b2n m.write * 2 ^ 12 + m.tile * 2 ^ 6) := by
  refine ⟨_, execTranslationMiss_of_running hm runs, ?_⟩
  rw [State.missDone_fault live locked walk]
  refine ⟨?_, ?_, ?_, State.walkFault_info n st l⟩ <;> simp [State.missOver, State.failWaits]

theorem missTask_leaf {n l ptr : Nat} {e : Word64} (hm : s.missFor t.val i.val va = some m)
    (runs : s.taskRuns m.task = true) (live : m.marked = false) (locked : s.flag F.XLT_CTRL_DEVLIST_LOCK = true)
    (walk : s.walkOf m reads = (n, .leaf l ptr e)) (accessed : e.getLsbD 3 = true)
    (tile : m.tile = t.val) :
    ∃ z : State, exec (.translationMiss t i va reads) s = .next (z.missRetry m) ∧
      z.xlt.misses = dropFirst m s.xlt.misses ∧ leafEntry m ptr (leafLog2 l) e ∈ z.slice t.val := by
  refine ⟨_, execTranslationMiss_of_running hm runs, ?_⟩
  rw [State.missDone_leaf live locked walk accessed, ← tile]
  exact ⟨by simp [State.loadTlb, State.missOver], State.mem_slice_loadTlb ..⟩

/-- The task found for a tile is of that tile. -/
theorem State.missFor_tile {tile inst : Nat} (hm : s.missFor tile inst va = some m) : m.tile = tile := by
  have found : m.isFor tile inst va 12 = true := List.find?_some (p := fun m : Miss => m.isFor tile inst va 12) hm
  simp only [Miss.isFor, Bool.and_eq_true, beq_iff_eq] at found
  exact found.1.1

end

/-! ### The end of an update -/

theorem State.logPage_rd {a i : Nat} (other : a ≠ Reg.CTL_INST_LOG i) (s : State) (addr log2 : Nat) :
    (s.logPage i addr log2).rd a = s.rd a := by
  have field (u : State) {f : Fld} (n : Nat) (hf : f.addr = Reg.CTL_INST_LOG i) : (u.setFld f n).rd a = u.rd a :=
    State.rd_setFld_other _ _ _ _ (hf ▸ other)
  unfold State.logPage
  split
  · rfl
  dsimp only
  split
  · rw [field _ _ rfl, field _ _ rfl]
  · rw [field _ _ rfl]
    exact State.rd_eq_of_regs (by simp) (by simp) a

/-- The update `u` is no longer under way, and its line is free (11 R375, 15 R457). -/
def State.updateOver (s : State) (u : FlagUpdate) : State :=
  let s : State := { s with xlt := { s.xlt with updates := dropFirst u s.xlt.updates } }
  s.freeLine (s.portOf u.miss.inst) (s.fnOf u.miss.inst) u.ptr false

theorem State.updateOver_xlt (s : State) (u : FlagUpdate) :
    (s.updateOver u).xlt = { s.xlt with updates := dropFirst u s.xlt.updates } := by
  simp [State.updateOver]

theorem State.updateOver_rd (s : State) (u : FlagUpdate) (a : Nat) : (s.updateOver u).rd a = s.rd a :=
  State.rd_eq_of_regs (by simp [State.updateOver]) (by simp [State.updateOver]) a

/-- An update that the host answered with the value it found (11 R375). -/
theorem State.updateDone_found (s : State) (u : FlagUpdate) (found : Word64) (room : Nat) :
    s.updateDone u found false room =
      if u.dirty then (s.updateOver u).dirtyDone u found room else (s.updateOver u).accessedDone u found := rfl

/-- An update that the host refused loads nothing (15 R456, 18 R525). -/
theorem State.updateDone_refused (s : State) (u : FlagUpdate) (found : Word64) (room : Nat) :
    (s.updateDone u found true room).xlt.tlb = s.xlt.tlb ∧
      (s.updateDone u found true room).xlt.updates = dropFirst u s.xlt.updates := by
  unfold State.updateDone
  dsimp only
  rw [if_pos rfl]
  split <;> simp

section

variable {k room : Nat} {found : Word64} {ur : Bool} {u : FlagUpdate} {s : State}

theorem execFlagUpdateDone_of_none (idle : s.xlt.updates[k]? = none) :
    exec (.flagUpdateDone k found ur room) s = .next s := by
  simp only [exec, execFlagUpdateDone, idle]

theorem execFlagUpdateDone_of_kept (hu : s.xlt.updates[k]? = some u) (kept : s.updateOut u = false) :
    exec (.flagUpdateDone k found ur room) s = .next s := by
  simp only [exec, execFlagUpdateDone, hu, kept, Bool.false_eq_true, if_false]

theorem execFlagUpdateDone_of_out (hu : s.xlt.updates[k]? = some u) (out : s.updateOut u = true) :
    exec (.flagUpdateDone k found ur room) s = .next ((s.updateDone u found ur room).missRetry u.miss) := by
  simp only [exec, execFlagUpdateDone, hu, out, if_true]

/-- ACCESSED was set: the entry is loaded with the flag (11 R373). -/
theorem State.updateDone_accessed (flag : u.dirty = false) (live : u.miss.marked = false)
    (same : updateRaced u.expected found = false) :
    (s.updateDone u found false room).xlt.updates = dropFirst u s.xlt.updates ∧
      leafEntry u.miss u.ptr u.log2 (found ||| 8#64) ∈ (s.updateDone u found false room).slice u.miss.tile := by
  have done : s.updateDone u found false room =
      (s.updateOver u).loadTlb u.miss.tile (leafEntry u.miss u.ptr u.log2 (found ||| 8#64)) := by
    simp [State.updateDone_found, State.accessedDone, flag, live, same]
  rw [done]
  exact ⟨by simp [State.loadTlb, State.updateOver_xlt], State.mem_slice_loadTlb ..⟩

/-- The walk of the task `m` is to be made again (11 R375). -/
def State.walkAgain (s : State) (m : Miss) : State := { s with xlt := { s.xlt with misses := s.xlt.misses ++ [m] } }

theorem State.walkAgain_rd (s : State) (m : Miss) (a : Nat) : (s.walkAgain m).rd a = s.rd a := rfl

/-- The entry that ACCESSED was to be set in has changed otherwise: it is walked again from there (11 R375). -/
theorem State.updateDone_accessed_raced (flag : u.dirty = false) (live : u.miss.marked = false)
    (raced : updateRaced u.expected found = true) :
    (s.updateDone u found false room).xlt.tlb = s.xlt.tlb ∧
      (s.updateDone u found false room).xlt.misses.length = s.xlt.misses.length + 1 ∧
      (s.updateDone u found false room).rd Reg.XLT_RACE = s.rd Reg.XLT_RACE + 1#32 := by
  obtain ⟨m, done⟩ : ∃ m : Miss, s.updateDone u found false room = ((s.updateOver u).bump Reg.XLT_RACE).walkAgain m := by
    simp [State.updateDone_found, State.accessedDone, State.walkAgain, flag, live, raced]
  rw [done]
  refine ⟨?_, ?_, ?_⟩
  · simp [State.walkAgain, State.updateOver_xlt]
  · simp [State.walkAgain, State.updateOver_xlt]
  · rw [State.walkAgain_rd, State.rd_bump_self, State.updateOver_rd]

/-- The entry that DIRTY was to be set in has changed otherwise: the slice drops it (11 R375). -/
theorem State.updateDone_dirty_raced (flag : u.dirty = true) (live : u.miss.marked = false)
    (raced : updateRaced u.expected found = true) :
    ∀ e ∈ (s.updateDone u found false room).slice u.miss.tile, ¬(e.inst = u.miss.inst ∧ e.ptr = u.ptr) := by
  have done : s.updateDone u found false room =
      (((s.updateOver u).lateTask u.miss.inst).bump Reg.XLT_RACE).modTlb u.miss.tile u.miss.inst u.ptr (fun _ => none) := by
    simp [State.updateDone_found, State.dirtyDone, flag, live, raced]
  rw [done, State.slice_modTlb]
  intro e he
  obtain ⟨x, -, hx⟩ := List.mem_filterMap.1 he
  split at hx
  next => cases hx
  next other =>
    obtain rfl := Option.some.inj hx
    exact other

/-- The setting of DIRTY is counted, and the slice's entry has it (11 R374). -/
def State.dirtySet (s : State) (u : FlagUpdate) (found : Word64) : State :=
  ((s.lateTask u.miss.inst).bump Reg.XLT_DIRTY_SET).modTlb u.miss.tile u.miss.inst u.ptr
    (fun e => some { e with dirty := true, leaf := found ||| 16#64 })

theorem State.dirtySet_rd (s : State) (u : FlagUpdate) (found : Word64) :
    (s.dirtySet u found).rd Reg.XLT_DIRTY_SET = s.rd Reg.XLT_DIRTY_SET + 1#32 := by
  have counted : (s.dirtySet u found).rd Reg.XLT_DIRTY_SET =
      ((s.lateTask u.miss.inst).bump Reg.XLT_DIRTY_SET).rd Reg.XLT_DIRTY_SET := State.rd_eq_of_regs rfl rfl _
  rw [counted, State.rd_bump_self, State.lateTask_rd (by decide)]

theorem State.dirtySet_dirty {s : State} {u : FlagUpdate} {found : Word64} {e : TlbEntry}
    (he : e ∈ (s.dirtySet u found).slice u.miss.tile) (inst : e.inst = u.miss.inst) (ptr : e.ptr = u.ptr) :
    e.dirty = true := by
  rw [State.dirtySet, State.slice_modTlb] at he
  obtain ⟨x, -, hx⟩ := List.mem_filterMap.1 he
  split at hx
  next =>
    obtain rfl := Option.some.inj hx
    rfl
  next other =>
    obtain rfl := Option.some.inj hx
    exact absurd ⟨inst, ptr⟩ other

/-- DIRTY was set: the slice's entry has it, and the setting is counted (11 R374). -/
theorem State.updateDone_dirty (flag : u.dirty = true) (live : u.miss.marked = false) (inst : u.miss.inst < 128)
    (same : updateRaced u.expected found = false) :
    (∀ e ∈ (s.updateDone u found false room).slice u.miss.tile, e.inst = u.miss.inst → e.ptr = u.ptr → e.dirty = true) ∧
      (s.updateDone u found false room).rd Reg.XLT_DIRTY_SET = s.rd Reg.XLT_DIRTY_SET + 1#32 := by
  have done : s.updateDone u found false room = (((s.updateOver u).dirtySet u found).modInst u.miss.inst
      (fun x => { x with logRoom := room })).logPage u.miss.inst (entryAddr u.expected) u.log2 := by
    simp [State.updateDone_found, State.dirtyDone, State.dirtySet, flag, live, same]
  have beside : Reg.XLT_DIRTY_SET ≠ Reg.CTL_INST_LOG u.miss.inst := by
    simp only [Reg.XLT_DIRTY_SET, Reg.CTL_INST_LOG]
    omega
  rw [done]
  constructor
  · rw [State.slice_eq_of_xlt (s := (s.updateOver u).dirtySet u found) (by simp)]
    exact fun e => State.dirtySet_dirty
  · rw [State.logPage_rd beside, State.rd_eq_of_regs (s := (s.updateOver u).dirtySet u found) (by simp) (by simp),
      State.dirtySet_rd, State.updateOver_rd]

end

end Sys2Proof.Machine

section

open Sys2Proof.Machine

/-- Settles O43: each end of a miss task, and each end of an update. -/
theorem translationsAreWalkedAndUpdated : Obligations.TranslationsAreWalkedAndUpdated := by
  refine fun t i va reads s => ⟨execTranslationMiss_of_none, fun m => execTranslationMiss_of_waiting, ?_, ?_⟩
  · intro m hm runs live
    refine ⟨missTask_unlocked hm runs live, fun locked => ⟨?_, ?_, ?_⟩⟩
    · intro n walk
      rw [execTranslationMiss_of_running hm runs, State.missDone_more live locked walk]
    · exact fun n st l => missTask_fault hm runs live locked
    · exact fun n l ptr e walk accessed =>
        missTask_leaf hm runs live locked walk accessed (State.missFor_tile hm)
  · intro k room found u
    refine ⟨execFlagUpdateDone_of_none, execFlagUpdateDone_of_kept, fun hu out => ⟨?_, ?_, ?_, ?_, ?_⟩⟩
    · exact ⟨_, execFlagUpdateDone_of_out hu out, s.updateDone_refused u found room⟩
    · exact fun flag live same => ⟨_, execFlagUpdateDone_of_out hu out, State.updateDone_accessed flag live same⟩
    · exact fun flag live raced => ⟨_, execFlagUpdateDone_of_out hu out, State.updateDone_accessed_raced flag live raced⟩
    · exact fun flag live raced => ⟨_, execFlagUpdateDone_of_out hu out, State.updateDone_dirty_raced flag live raced⟩
    · exact fun flag live inst same => ⟨_, execFlagUpdateDone_of_out hu out, State.updateDone_dirty flag live inst same⟩

end

/-! What a host sets in a function does not hold from then on in every state (12 R389, 15 R456, 18 R523). -/

namespace Sys2Proof.Machine

/-- A chip has lanes 0 to 1023 (01 R14): where the link state of the next would lie, the mode of port 0 lies. -/
theorem State.linkState_past_lanes (s : State) : s.linkState 1024 = s.fld (F.HPT_STATUS_MODE 0) := rfl

/-- An update of ACCESSED; its INST is 0, which is mapped to function 0 of port 0. -/
def keptUpdate : FlagUpdate :=
  { miss := { tile := 0, inst := 0, va := 0, write := false }, dirty := false, ptr := 0, expected := 0#64, log2 := 12 }

/-- Port 0 is up as PCI Express, a CONTAINED fault of its block is unacknowledged, the request of the update is kept for
function 0, and the lane records hold one of lane 1024. -/
def keptUpdateAndLanePastLanes : State :=
  { State.reset with
    regs := [(Reg.HPT_STATUS 0, 0x40000000#32), (Reg.FLT_UNACK (blkHPT 0), 2#32)]
    lnk := { State.reset.lnk with lanes := [(1024, {})] }
    hpt := { State.reset.hpt with kept := [.flagCas 0 0 0 0 8 false] }
    xlt := { State.reset.xlt with updates := [keptUpdate] } }

/-- What a host leaves of it by setting Bus Master Enable, with AtomicOp Requester Enable clear. -/
def keptUpdateEnabled : State := keptUpdateAndLanePastLanes.fnConfig 0 0 { bme := true }

theorem keptUpdate_portUp : keptUpdateAndLanePastLanes.portUp 0 = true := by decide +kernel

/-- The kept update fails, its fault escalates to FATAL, and the halt takes down the lane that seems to train. -/
theorem keptUpdateEnabled_halts :
    keptUpdateEnabled.halted = true ∧ keptUpdateEnabled.linkState 1024 = lkDOWN := by
  decide +kernel

theorem keptUpdateEnabled_fnDown : keptUpdateEnabled.fnUp 0 0 = false := by
  have mode : keptUpdateEnabled.fld (F.HPT_STATUS_MODE 0) = lkDOWN :=
    (State.linkState_past_lanes _).symm.trans keptUpdateEnabled_halts.2
  simp [State.fnUp, State.portUp, mode, lkDOWN]

end Sys2Proof.Machine

section

open Sys2Proof.Machine

/-- Refutes O44, in its last clause: the clause ranges over states that list a lane past the chip's last. There the halt that a
function's new setting can bring about takes lane 1024 down, whose link state is the mode of port 0, and the function that was
just enabled is not up. -/
theorem not_mappingsAreSetUp : ¬ Obligations.MappingsAreSetUp := by
  intro h
  obtain ⟨-, -, -, -, -, -, config⟩ := h 0 0#32 keptUpdateAndLanePastLanes
  obtain ⟨t, run, -, up⟩ := (config 0 0 true false []).2 keptUpdate_portUp rfl
  obtain rfl : keptUpdateEnabled = t := Host.Outcome.next.inj run
  exact Bool.false_ne_true (keptUpdateEnabled_fnDown.symm.trans up)

end

/-! The policers of the send path (13 R403, R404, R407): the fields of a policer's registers, what a write of one does, and the
colours of the policer step. -/

namespace Sys2Proof.Machine

/-! ### A policer's registers -/

/-- A one-bit field of a 32-bit register reads what was set. -/
theorem State.flag_setFlag (s : State) {f : Fld} (h : f.hi < 32) (one : f.hi = f.lo) (b : Bool) :
    (s.setFlag f b).flag f = b := by
  unfold State.flag State.setFlag
  rw [State.fld_setFld s f _ h (Nat.le_of_eq one.symm), one, Nat.add_sub_cancel_left]
  cases b <;> rfl

theorem State.setFlag_polErr_enable (s : State) (i c : Nat) (b : Bool) :
    (s.setFlag (F.INJ_POL_CTRL_ERR i c) b).flag (F.INJ_POL_CTRL_ENABLE i c) = s.flag (F.INJ_POL_CTRL_ENABLE i c) :=
  congrArg (· != 0) (State.fld_setFld_beside s _ _ _ rfl (by decide : 31 < 32) (.inr (by decide : 29 < 31)))

theorem State.setFlag_polErr_cir (s : State) (i c : Nat) (b : Bool) :
    (s.setFlag (F.INJ_POL_CTRL_ERR i c) b).fld (F.INJ_POL_CTRL_CIR i c) = s.fld (F.INJ_POL_CTRL_CIR i c) :=
  State.fld_setFld_beside s _ _ _ rfl (by decide : 19 < 32) (.inl (by decide : 19 < 29))

theorem State.polErr_setFlag (s : State) (i c : Nat) (b : Bool) :
    (s.setFlag (F.INJ_POL_CTRL_ERR i c) b).flag (F.INJ_POL_CTRL_ERR i c) = b :=
  State.flag_setFlag s (by decide : 29 < 32) rfl b

theorem Reg.polPir_ne_polCtrl (i c : Nat) : Reg.INJ_POL_PIR i c ≠ Reg.INJ_POL_CTRL i c := by
  simp only [Reg.INJ_POL_PIR, Reg.INJ_POL_CTRL]
  omega

theorem Reg.polCbs_ne_polCtrl (i c : Nat) : Reg.INJ_POL_CBS i c ≠ Reg.INJ_POL_CTRL i c := by
  simp only [Reg.INJ_POL_CBS, Reg.INJ_POL_CTRL]
  omega

theorem Reg.polPbs_ne_polCtrl (i c : Nat) : Reg.INJ_POL_PBS i c ≠ Reg.INJ_POL_CTRL i c := by
  simp only [Reg.INJ_POL_PBS, Reg.INJ_POL_CTRL]
  omega

/-- The word of INJ_POL_CTRL with the fields ENABLE, AWARE and CIR, and ERR clear. -/
def polCtrlWord (on aware : Bool) (cir : Nat) : Word := BitVec.ofNat 32 (b2n on * 2 ^ 31 + b2n aware * 2 ^ 30 + cir)

theorem b2n_le_one (b : Bool) : b2n b ≤ 1 := by cases b <;> decide

theorem polCtrlWord_fields (on aware : Bool) {cir : Nat} (h : cir < 2 ^ 20) :
    bits (polCtrlWord on aware cir) 31 31 = b2n on ∧ bits (polCtrlWord on aware cir) 29 29 = 0 ∧
      bits (polCtrlWord on aware cir) 19 0 = cir := by
  have hon := b2n_le_one on
  have haware := b2n_le_one aware
  simp only [bits, polCtrlWord, BitVec.toNat_ofNat]
  omega

/-! ### Writes of a policer (13 R403, R407) -/

variable {s : State} {i c : Nat} {w : Word} {on : Bool} {cir pir cbs pbs : Nat}

theorem State.polNow_eq (now : s.polNow i c = (on, cir, pir, cbs, pbs)) :
    s.flag (F.INJ_POL_CTRL_ENABLE i c) = on ∧ s.fld (F.INJ_POL_CTRL_CIR i c) = cir ∧
      s.fld (F.INJ_POL_PIR_PIR i c) = pir := by
  simp only [State.polNow, Prod.mk.injEq] at now
  obtain ⟨hon, hcir, hpir, -, -⟩ := now
  exact ⟨hon, hcir, hpir⟩

/-- The state with the policers' buckets as given. -/
def State.withBuckets (s : State) (m : List (Nat × Bucket)) : State := { s with inj := { s.inj with buckets := m } }

theorem State.rd_withBuckets (s : State) (m : List (Nat × Bucket)) (a : Nat) : (s.withBuckets m).rd a = s.rd a := rfl

theorem State.fld_withBuckets (s : State) (m : List (Nat × Bucket)) (f : Fld) : (s.withBuckets m).fld f = s.fld f := rfl

theorem State.flag_withBuckets (s : State) (m : List (Nat × Bucket)) (f : Fld) : (s.withBuckets m).flag f = s.flag f := rfl

/-- The state after ENABLE, AWARE and CIR were written as `w` has them. -/
def State.setPolCtrl (s : State) (i c : Nat) (w : Word) : State :=
  s.wr (Reg.INJ_POL_CTRL i c) (polCtrlWord (bit w 31) (bit w 30) (bits w 19 0))

theorem State.setPolCtrl_fields (s : State) (i c : Nat) (w : Word) :
    (s.setPolCtrl i c w).flag (F.INJ_POL_CTRL_ERR i c) = false ∧
      (s.setPolCtrl i c w).flag (F.INJ_POL_CTRL_ENABLE i c) = bit w 31 ∧
      (s.setPolCtrl i c w).fld (F.INJ_POL_CTRL_CIR i c) = bits w 19 0 := by
  obtain ⟨enable, err, cir⟩ := polCtrlWord_fields (bit w 31) (bit w 30) (cir := bits w 19 0) (Nat.mod_lt _ (by decide))
  have rd : (s.setPolCtrl i c w).rd (Reg.INJ_POL_CTRL i c) = polCtrlWord (bit w 31) (bit w 30) (bits w 19 0) :=
    State.rd_wr_self ..
  refine ⟨?_, ?_, ?_⟩
  · simp [State.flag, State.fld, F.INJ_POL_CTRL_ERR, rd, err]
  · simp only [State.flag, State.fld, F.INJ_POL_CTRL_ENABLE, rd, enable, Nat.lt_add_one, if_true]
    cases bit w 31 <;> rfl
  · simp [State.fld, F.INJ_POL_CTRL_CIR, rd, cir]

/-- The buckets after an accepted write of INJ_POL_CTRL that takes ENABLE from `was` to `new` (13 R403, R407). -/
def State.polBuckets (s : State) (i c : Nat) (was new : Bool) : List (Nat × Bucket) :=
  if new then
    if was then s.inj.buckets
    else Map.set s.inj.buckets (8 * i + c) { tc := s.polCbs i c, tp := s.polPbs i c, last := s.t }
  else Map.erase s.inj.buckets (8 * i + c)

theorem State.polBuckets_wr_polCtrl (s : State) (i c : Nat) (x : Word) (was new : Bool) :
    (s.wr (Reg.INJ_POL_CTRL i c) x).polBuckets i c was new = s.polBuckets i c was new := by
  simp only [State.polBuckets, State.polCbs, State.polPbs, State.t, State.wr_inj, State.wr_now,
    State.rd_wr_other _ _ _ _ (Reg.polCbs_ne_polCtrl i c), State.rd_wr_other _ _ _ _ (Reg.polPbs_ne_polCtrl i c)]

/-- A write of INJ_POL_CTRL that R407 forbids changes ERR alone. -/
theorem State.polCtrlWrite_refused (now : s.polNow i c = (on, cir, pir, cbs, pbs))
    (bad : polBad (bit w 31) (bits w 19 0) pir cbs pbs = true) :
    (s.polCtrlWrite i c w).inj = s.inj ∧ (s.polCtrlWrite i c w).flag (F.INJ_POL_CTRL_ERR i c) = true ∧
      (s.polCtrlWrite i c w).flag (F.INJ_POL_CTRL_ENABLE i c) = on ∧
      (s.polCtrlWrite i c w).fld (F.INJ_POL_CTRL_CIR i c) = cir := by
  have run : s.polCtrlWrite i c w = s.setFlag (F.INJ_POL_CTRL_ERR i c) true := by
    simp only [State.polCtrlWrite, now, bad, if_true]
  obtain ⟨hon, hcir, -⟩ := State.polNow_eq now
  rw [run, State.polErr_setFlag, State.setFlag_polErr_enable, State.setFlag_polErr_cir]
  exact ⟨by simp, rfl, hon, hcir⟩

theorem State.polCtrlWrite_good (now : s.polNow i c = (on, cir, pir, cbs, pbs))
    (good : polBad (bit w 31) (bits w 19 0) pir cbs pbs = false) :
    s.polCtrlWrite i c w = (s.setPolCtrl i c w).withBuckets (s.polBuckets i c on (bit w 31)) := by
  rw [← State.polBuckets_wr_polCtrl s i c (polCtrlWord (bit w 31) (bit w 30) (bits w 19 0))]
  simp only [State.polCtrlWrite, now, good, Bool.false_eq_true, if_false]
  rfl

theorem State.polCtrlWrite_accepted (now : s.polNow i c = (on, cir, pir, cbs, pbs))
    (good : polBad (bit w 31) (bits w 19 0) pir cbs pbs = false) :
    (s.polCtrlWrite i c w).flag (F.INJ_POL_CTRL_ERR i c) = false ∧
      (s.polCtrlWrite i c w).flag (F.INJ_POL_CTRL_ENABLE i c) = bit w 31 ∧
      (s.polCtrlWrite i c w).fld (F.INJ_POL_CTRL_CIR i c) = bits w 19 0 ∧
      (s.polCtrlWrite i c w).inj.buckets = s.polBuckets i c on (bit w 31) := by
  obtain ⟨err, enable, cir'⟩ := s.setPolCtrl_fields i c w
  rw [State.polCtrlWrite_good now good, State.flag_withBuckets, State.flag_withBuckets, State.fld_withBuckets]
  exact ⟨err, enable, cir', rfl⟩

/-- Setting ENABLE fills both buckets, leaving it set keeps them, clearing it discards them (13 R403, R407). -/
theorem State.polBuckets_cases (s : State) (i c : Nat) (was new : Bool) :
    (new = true → was = false → Map.get? (s.polBuckets i c was new) (8 * i + c) =
      some { tc := s.polCbs i c, tp := s.polPbs i c, last := s.t }) ∧
    (new = true → was = true → s.polBuckets i c was new = s.inj.buckets) ∧
    (new = false → Map.get? (s.polBuckets i c was new) (8 * i + c) = none) := by
  refine ⟨?_, ?_, ?_⟩
  · rintro rfl rfl
    simp [State.polBuckets]
  · rintro rfl rfl
    rfl
  · rintro rfl
    simp [State.polBuckets]

theorem State.rd_cutTokens (s : State) (i c a : Nat) : (s.cutTokens i c).rd a = s.rd a := rfl

theorem State.fld_cutTokens (s : State) (i c : Nat) (f : Fld) : (s.cutTokens i c).fld f = s.fld f := rfl

theorem State.flag_cutTokens (s : State) (i c : Nat) (f : Fld) : (s.cutTokens i c).flag f = s.flag f := rfl

/-- After the cut no bucket holds more than its size (13 R407). -/
theorem State.cutTokens_le (s : State) {b : Bucket} (h : Map.get? (s.cutTokens i c).inj.buckets (8 * i + c) = some b) :
    b.tc ≤ s.polCbs i c ∧ b.tp ≤ s.polPbs i c := by
  simp only [State.cutTokens, Map.get?_mod, if_true, Option.map_eq_some_iff] at h
  obtain ⟨a, -, rfl⟩ := h
  exact ⟨Nat.min_le_right .., Nat.min_le_right ..⟩

/-- A write of INJ_POL_PIR that R407 forbids changes ERR alone. -/
theorem State.polWrite_pir_refused (now : s.polNow i c = (on, cir, pir, cbs, pbs))
    (bad : polBad on cir (bits w 19 0) cbs pbs = true) :
    (s.polWrite i c 1 w).inj = s.inj ∧ (s.polWrite i c 1 w).flag (F.INJ_POL_CTRL_ERR i c) = true ∧
      (s.polWrite i c 1 w).fld (F.INJ_POL_PIR_PIR i c) = pir := by
  have run : s.polWrite i c 1 w = s.setFlag (F.INJ_POL_CTRL_ERR i c) true := by simp [State.polWrite, now, bad]
  obtain ⟨-, -, hpir⟩ := State.polNow_eq now
  rw [run, State.polErr_setFlag]
  exact ⟨by simp, rfl,
    (State.fld_setFld_other _ _ _ _ (Reg.polPir_ne_polCtrl i c) (by decide : 19 < 32)).trans hpir⟩

theorem State.polErr_setPir (s : State) (i c n : Nat) :
    (s.setFld (F.INJ_POL_PIR_PIR i c) n).flag (F.INJ_POL_CTRL_ERR i c) = s.flag (F.INJ_POL_CTRL_ERR i c) :=
  congrArg (· != 0) (State.fld_setFld_other s _ _ _ (Reg.polPir_ne_polCtrl i c).symm (by decide : 29 < 32))

theorem State.polWrite_pir_accepted (now : s.polNow i c = (on, cir, pir, cbs, pbs))
    (good : polBad on cir (bits w 19 0) cbs pbs = false) :
    (s.polWrite i c 1 w).flag (F.INJ_POL_CTRL_ERR i c) = false ∧
      (s.polWrite i c 1 w).fld (F.INJ_POL_PIR_PIR i c) = bits w 19 0 := by
  have run : s.polWrite i c 1 w =
      ((s.setFlag (F.INJ_POL_CTRL_ERR i c) false).setFld (F.INJ_POL_PIR_PIR i c) (bits w 19 0)).cutTokens i c := by
    simp [State.polWrite, now, good]
  rw [run, State.flag_cutTokens, State.polErr_setPir, State.polErr_setFlag, State.fld_cutTokens]
  exact ⟨rfl, (State.fld_setFld _ _ _ (by decide : 19 < 32) (Nat.zero_le 19)).trans (Nat.mod_mod _ _)⟩

theorem State.polWrite_cbs_accepted (now : s.polNow i c = (on, cir, pir, cbs, pbs))
    (good : polBad on cir pir w.toNat pbs = false) :
    (s.polWrite i c 2 w).rd (Reg.INJ_POL_CBS i c) = w ∧
      ∀ b, Map.get? (s.polWrite i c 2 w).inj.buckets (8 * i + c) = some b → b.tc ≤ w.toNat * 64 * 16000 := by
  have run : s.polWrite i c 2 w =
      ((s.setFlag (F.INJ_POL_CTRL_ERR i c) false).wr (Reg.INJ_POL_CBS i c) w).cutTokens i c := by
    simp [State.polWrite, now, good]
  rw [run]
  refine ⟨(State.rd_cutTokens ..).trans (State.rd_wr_self ..), fun b hb => ?_⟩
  have cut := (State.cutTokens_le _ hb).1
  rwa [State.polCbs, State.rd_wr_self] at cut

theorem State.polWrite_pbs_accepted (now : s.polNow i c = (on, cir, pir, cbs, pbs))
    (good : polBad on cir pir cbs w.toNat = false) :
    (s.polWrite i c 3 w).rd (Reg.INJ_POL_PBS i c) = w ∧
      ∀ b, Map.get? (s.polWrite i c 3 w).inj.buckets (8 * i + c) = some b → b.tp ≤ w.toNat * 64 * 16000 := by
  have run : s.polWrite i c 3 w =
      ((s.setFlag (F.INJ_POL_CTRL_ERR i c) false).wr (Reg.INJ_POL_PBS i c) w).cutTokens i c := by
    simp [State.polWrite, now, good]
  rw [run]
  refine ⟨(State.rd_cutTokens ..).trans (State.rd_wr_self ..), fun b hb => ?_⟩
  have cut := (State.cutTokens_le _ hb).2
  rwa [State.polPbs, State.rd_wr_self] at cut

/-! ### The commands -/

theorem execPolEnable_halted {i : InstId} {c : ClassId} (hh : s.halted = true) : exec (.polEnable i c w) s = .next s :=
  congrArg Host.Outcome.next (if_pos hh)

theorem execPolWrite_halted {i : InstId} {c : ClassId} (n : Fin 4) (hh : s.halted = true) :
    exec (.polWrite i c n w) s = .next s :=
  congrArg Host.Outcome.next (if_pos hh)

theorem execPolWrite_ctrl {i : InstId} {c : ClassId} : exec (.polWrite i c 0 w) s = exec (.polEnable i c w) s :=
  congrArg (fun t => Host.Outcome.next (s.setup t)) (if_pos rfl)

theorem execPolEnable_running {i : InstId} {c : ClassId} (hh : s.halted = false) :
    exec (.polEnable i c w) s = .next (s.polCtrlWrite i.val c.val w) :=
  congrArg Host.Outcome.next (if_neg (by simp [hh]))

theorem execPolWrite_running {i : InstId} {c : ClassId} {n : Fin 4} (hn : n.val ≠ 0) (hh : s.halted = false) :
    exec (.polWrite i c n w) s = .next (s.polWrite i.val c.val n.val w) :=
  congrArg Host.Outcome.next ((if_neg (by simp [hh])).trans (if_neg hn))

/-! ### The policer step (13 R404) -/

theorem State.colour_off (b pre : Nat) (off : s.flag (F.INJ_POL_CTRL_ENABLE i c) = false) :
    s.colour i c b pre = (s.occur bkINJ 0x11 [c, 8] 1, some false) := by
  simp [State.colour, off]

/-- The colour of a descriptor of `b` counted bytes that finds `tc` committed and `tp` peak tokens, and the bucket after it: a
red one takes no tokens, a yellow one peak tokens, a green one both (13 R404). -/
def State.coloured (s : State) (i c b pre tc tp : Nat) : Option Bool × Bucket :=
  let aware := s.flag (F.INJ_POL_CTRL_AWARE i c)
  if (aware = true ∧ pre = 2) ∨ tp < b * 16000 then (none, { tc := tc, tp := tp, last := s.t })
  else if (aware = true ∧ pre = 1) ∨ tc < b * 16000 then (some true, { tc := tc, tp := tp - b * 16000, last := s.t })
  else (some false, { tc := tc - b * 16000, tp := tp - b * 16000, last := s.t })

theorem State.colour_on {b pre tc tp : Nat} {u : Bucket} (enabled : s.flag (F.INJ_POL_CTRL_ENABLE i c) = true)
    (bucket : Map.get? s.inj.buckets (8 * i + c) = some u)
    (committed : min (s.polCbs i c) (u.tc + s.fld (F.INJ_POL_CTRL_CIR i c) * (s.t - u.last)) = tc)
    (peak : min (s.polPbs i c) (u.tp + s.fld (F.INJ_POL_PIR_PIR i c) * (s.t - u.last)) = tp) :
    ∃ t, s.colour i c b pre = (t, (s.coloured i c b pre tc tp).1) ∧
      Map.get? t.inj.buckets (8 * i + c) = some (s.coloured i c b pre tc tp).2 := by
  simp only [State.colour, State.coloured, enabled, Map.getD, bucket, Option.getD_some, committed, peak,
    Bool.not_true, Bool.false_eq_true, if_false, Bool.and_eq_true, decide_eq_true_eq]
  by_cases red : (s.flag (F.INJ_POL_CTRL_AWARE i c) = true ∧ pre = 2) ∨ tp < b * 16000
  · rw [if_pos red, if_pos red]
    exact ⟨_, rfl, by simp⟩
  rw [if_neg red, if_neg red]
  by_cases yellow : (s.flag (F.INJ_POL_CTRL_AWARE i c) = true ∧ pre = 1) ∨ tc < b * 16000
  · rw [if_pos yellow, if_pos yellow]
    exact ⟨_, rfl, by simp⟩
  · rw [if_neg yellow, if_neg yellow]
    exact ⟨_, rfl, by simp⟩

end Sys2Proof.Machine

section

open Sys2Proof.Machine

/-- Settles O45: the writes of a policer, one register after another, and then the policer step. -/
theorem policersColourDescriptors : Obligations.PolicersColourDescriptors := by
  rintro i c w s _ rfl
  refine ⟨fun halted => ⟨execPolEnable_halted halted, fun n => execPolWrite_halted n halted⟩,
    fun running on cir pir cbs pbs now => ?_, fun b pre => ⟨fun off => ⟨_, State.colour_off b pre off, by simp⟩, ?_⟩⟩
  · have ctrl := execPolEnable_running (i := i) (c := c) (w := w) running
    have other (n : Fin 4) (hn : n.val ≠ 0) := execPolWrite_running (i := i) (c := c) (w := w) hn running
    refine ⟨execPolWrite_ctrl, fun bad => ⟨_, ctrl, State.polCtrlWrite_refused now bad⟩, fun good => ?_,
      fun bad => ⟨_, other 1 (by decide), State.polWrite_pir_refused now bad⟩,
      fun good => ⟨_, other 1 (by decide), State.polWrite_pir_accepted now good⟩,
      fun good => ⟨_, other 2 (by decide), State.polWrite_cbs_accepted now good⟩,
      fun good => ⟨_, other 3 (by decide), State.polWrite_pbs_accepted now good⟩⟩
    obtain ⟨err, enable, rate, buckets⟩ := State.polCtrlWrite_accepted now good
    refine ⟨_, ctrl, err, enable, rate, ?_⟩
    rw [buckets]
    exact s.polBuckets_cases i c on (bit w 31)
  · intro u tc tp enabled bucket committed peak
    obtain ⟨t, run, after⟩ := State.colour_on (b := b) (pre := pre) enabled bucket committed peak
    refine ⟨fun red => ⟨t, ?_⟩, fun notPre paid => ?_⟩
    · rw [State.coloured, if_pos red] at run after
      exact ⟨run, after⟩
    · rw [State.coloured, if_neg (not_or.2 ⟨notPre, Nat.not_lt.2 paid⟩)] at run after
      refine ⟨fun yellow => ⟨t, ?_⟩, fun notPre paid => ⟨t, ?_⟩⟩
      · rw [if_pos yellow] at run after
        exact ⟨run, after⟩
      · rw [if_neg (not_or.2 ⟨notPre, Nat.not_lt.2 paid⟩)] at run after
        exact ⟨run, after⟩

end

/-! The grant of the send path (13 R408, R413, R414) and the samples of the queues (13 R416). -/

namespace Sys2Proof.Machine

/-! ### The header of a cell that is built -/

theorem hdrWord_bits (h : Hdr) :
    bits h.word 127 111 = h.dst % 2 ^ 17 ∧ bits h.word 93 91 = h.cls % 8 ∧ bits h.word 85 82 = h.typ % 16 := by
  have first := b2n_le_one h.first
  have last := b2n_le_one h.last
  have yel := b2n_le_one h.yel
  have fnc := b2n_le_one h.fnc
  simp only [bits, Hdr.word, BitVec.toNat_ofNat]
  omega

/-- The seal writes the CRC field alone (04 R119). -/
theorem bits_seal (c : Cell) {hi lo : Nat} (h : hi < 128) (crc : 31 < lo) : bits c.seal.hdr hi lo = bits c.hdr hi lo :=
  bits_setBits_other _ _ _ _ _ _ h (.inr crc)

theorem mkCell_fields (h : Hdr) (pay : Nat) :
    (mkCell h pay).typ = h.typ % 16 ∧ (mkCell h pay).cls = h.cls % 8 ∧ (mkCell h pay).dst = h.dst % 2 ^ 17 := by
  obtain ⟨dst, cls, typ⟩ := hdrWord_bits h
  exact ⟨(bits_seal _ (by decide) (by decide)).trans typ, (bits_seal _ (by decide) (by decide)).trans cls,
    (bits_seal _ (by decide) (by decide)).trans dst⟩

/-! ### The branches of a grant -/

variable {s u : State} {l : List Chunk} {data : HostRead}

theorem State.flag_see (s : State) (v : View) (f : Fld) : (s.see v).flag f = s.flag f :=
  congrArg (· != 0) (State.fld_eq_of_regs (by simp) (by simp) f)

theorem State.grant_closed (closed : s.halted = true ∨ s.addressed = false) : s.grant data = s := by
  obtain halted | unaddressed := closed
  · simp [State.grant, halted]
  · simp [State.grant, unaddressed]

section

variable (running : s.halted = false) (addressed : s.addressed = true) (ready : s.readyChunks = (u, l))

include running addressed ready

theorem State.grant_launch {c : Chunk} (launch : l.find? (fun c => c.launch) = some c) {t : State} {r : List Chunk}
    (after : (((u.countChunk c).bump Reg.INJ_LAUNCH_GRANT).sendChunk c data).readyChunks = (t, r)) :
    s.grant data = t.settleDeficits r c := by
  simp [State.grant, running, addressed, ready, launch, after]

theorem State.grant_ctl {c : CtlCell} (noLaunch : l.find? (fun c => c.launch) = none) (waiting : u.nextCtl = some c) :
    s.grant data = u.sendCtl c := by
  simp only [State.grant, running, addressed, ready, noLaunch, waiting, Bool.not_true, Bool.or_self,
    Bool.false_eq_true, if_false]

theorem State.grant_idle (empty : l = []) (noCtl : u.nextCtl = none) : s.grant data = u := by
  subst empty
  simp [State.grant, running, addressed, ready, noCtl]

end

/-- A control cell leaves its queue and is held for the router (13 R414). -/
theorem State.sendCtl_held (u : State) (c : CtlCell) : ∃ y : HeldCell,
    (u.sendCtl c).inj = { u.inj with ctl := dropFirst c u.inj.ctl } ∧ (u.sendCtl c).rt.held = u.rt.held ++ [y] ∧
      y.inp = none ∧ y.cell.typ = c.typ % 16 ∧ y.cell.cls = c.cls % 8 ∧ y.cell.dst = c.dst % 2 ^ 17 :=
  ⟨_, rfl, rfl, rfl, mkCell_fields _ _⟩

/-! ### The samples -/

/-- Queue `y` with depth and head delay `d` recorded (13 R416, R417). -/
def Queue.withSample (y : Queue) (d : Nat × Nat) : Queue :=
  { y with sampled := true, depthLast := d.1, depthMax := max y.depthMax d.1,
           delayMax := max y.delayMax (min d.2 0xFFFFFFFF) }

theorem State.queue?_modQueue (s : State) (k : Nat) (f : Queue → Queue) (q : Nat) :
    (s.modQueue k f).queue? q = if q = k then (s.queue? q).map f else s.queue? q :=
  Map.get?_mod ..

/-- One queue of the list is sampled, unless it is the admin completion queue. -/
def State.sampleOne (s : State) (y : Nat × Queue) : State :=
  if y.1 = acqKey then s else s.modQueue y.1 (fun x => x.withSample (s.sampleOf y.1 y.2))

theorem State.sampleQueues_off (off : s.fld F.INJ_SAMPLE_K = 0 ∨ s.hasTime = false) : s.sampleQueues = s := by
  obtain zero | noTime := off
  · simp [State.sampleQueues, zero]
  · simp [State.sampleQueues, noTime]

theorem State.sampleQueues_on (on : s.fld F.INJ_SAMPLE_K ≠ 0) (time : s.hasTime = true)
    (slot : slotNo s.t % min 4096 (s.fld F.INJ_SAMPLE_K) = 0) : s.sampleQueues = s.obj.queues.foldl State.sampleOne s := by
  have period : min 4096 (s.fld F.INJ_SAMPLE_K) ≠ 0 := by omega
  unfold State.sampleQueues
  dsimp only
  rw [if_neg (by simp [period, time, slot])]
  rfl

/-- What a queue's sample reads is nothing that a sample writes. -/
theorem State.sampleOf_sampleOne (s : State) (y : Nat × Queue) (q : Nat) (x : Queue) :
    (s.sampleOne y).sampleOf q x = s.sampleOf q x := by
  unfold State.sampleOne
  split
  · rfl
  · rfl

theorem State.queue?_sampleOne (s : State) (y : Nat × Queue) (q : Nat) (other : y.1 = q → q = acqKey) :
    (s.sampleOne y).queue? q = s.queue? q := by
  unfold State.sampleOne
  split
  case isTrue => rfl
  case isFalse work =>
    rw [State.queue?_modQueue, if_neg]
    rintro rfl
    exact work (other rfl)

theorem State.queue?_sampleOne_self (s : State) {q : Nat} (x : Queue) (hq : q ≠ acqKey) :
    (s.sampleOne (q, x)).queue? q = (s.queue? q).map (fun y => y.withSample (s.sampleOf q x)) := by
  rw [State.sampleOne, if_neg hq, State.queue?_modQueue, if_pos rfl]

theorem State.queue?_samples_other (m : List (Nat × Queue)) (s : State) (q : Nat)
    (other : ∀ y ∈ m, y.1 = q → q = acqKey) :
    (m.foldl State.sampleOne s).queue? q = s.queue? q := by
  induction m generalizing s with
  | nil => rfl
  | cons y m ih =>
    rw [List.foldl_cons, ih _ fun z hz => other z (List.mem_cons_of_mem _ hz),
      State.queue?_sampleOne _ _ _ (other y (List.mem_cons_self ..))]

/-- A queue of a list of distinct queues is sampled once. -/
theorem State.queue?_samples {m : List (Nat × Queue)} (distinct : Map.rising m = true) (s : State) {q : Nat} {x : Queue}
    (hq : q ≠ acqKey) (listed : Map.get? m q = some x) :
    (m.foldl State.sampleOne s).queue? q = (s.queue? q).map (fun y => y.withSample (s.sampleOf q x)) := by
  induction m generalizing s with
  | nil => cases listed
  | cons y m ih =>
    obtain ⟨j, z⟩ := y
    obtain ⟨above, distinct⟩ := (Map.rising_cons _ _).1 distinct
    rw [Map.get?] at listed
    rw [List.foldl_cons]
    by_cases here : j = q
    · subst here
      obtain rfl : z = x := by simpa using listed
      rw [State.queue?_samples_other m _ j fun w hw e => absurd e (Nat.ne_of_gt (above w hw)), State.queue?_sampleOne_self s z hq]
    · rw [if_neg here] at listed
      rw [ih distinct _ listed, State.sampleOf_sampleOne, State.queue?_sampleOne s _ q fun e => absurd e here]

end Sys2Proof.Machine

section

open Sys2Proof.Machine

/-- Settles O46: the branches of a grant, then the samples, queue by queue. -/
theorem chunksAreGrantedAndQueuesSampled : Obligations.ChunksAreGrantedAndQueuesSampled := by
  intro data v s u l
  have halted : (s.see v).halted = s.halted := State.flag_see s v _
  have addressed : (s.see v).addressed = s.addressed := State.flag_see s v _
  refine ⟨fun closed => ?_, fun running address ready => ?_, fun off => ?_, fun on time slot distinct => ?_⟩
  · rw [← halted, ← addressed] at closed
    exact congrArg Host.Outcome.next (State.grant_closed closed)
  · rw [← halted] at running
    rw [← addressed] at address
    refine ⟨fun c launch t r after => ?_, fun c noLaunch waiting => ?_, fun empty noCtl => ?_⟩
    · exact congrArg Host.Outcome.next (State.grant_launch running address ready launch after)
    · obtain ⟨y, sent⟩ := u.sendCtl_held c
      exact ⟨_, y, congrArg Host.Outcome.next (State.grant_ctl running address ready noLaunch waiting), sent⟩
    · exact congrArg Host.Outcome.next (State.grant_idle running address ready empty noCtl)
  · exact congrArg Host.Outcome.next (State.sampleQueues_off off)
  · refine ⟨_, congrArg Host.Outcome.next (State.sampleQueues_on on time slot),
      State.queue?_samples_other _ s _ fun _ _ _ => rfl, fun q x hq found => ?_⟩
    rw [State.queue?_samples distinct s hq found, found]
    rfl

end
